-- ==== Sys2Proof/Word.lean ====
section
/-! DEFINITION. The word types and their plainest arithmetic (R2: little-endian, bit 0 least significant). -/

namespace Sys2Proof

/-- A register of the part is 64 bits wide ("Registers and access codes"). -/
abbrev Word := BitVec 64

/-- The smallest addressable unit of every window of Table 2.1. -/
abbrev Byte := BitVec 8

/-- A vector register of a core: 1,024 lanes of 32 bits (Table 7.1). -/
abbrev VReg := BitVec 32768

/-- A predicate register of a core: one bit per lane (Table 7.1). -/
abbrev PReg := BitVec 1024

/-- The five FP flags of Table 7.1, one bit each: [0] invalid, [1] divide-by-zero, [2] overflow, [3] underflow,
[4] inexact. DESIGN CHOICE (log 12): the spec lists them in this order and gives them no bit numbers. -/
abbrev FFlags := BitVec 5

end Sys2Proof
end

