-- ==== Sys2Proof/Syntax.lean ====
section
/-! DEFINITION. The commands of spec/opcode_table.json, one constructor per row, with the operands each carries. -/

namespace Sys2Proof

/-- A source of command packets (R466, R468): a command ring of one function, a fabric manager endpoint, or the board
management controller. -/
inductive Source where
  | ring (die : Fin 2) (n : Fin 16)
  | fm (endpoint : Nat)
  | bmc
  /-- the wrapped command of a held LAUNCH_AT (R359), by the launch's number: no packet arrives from here -/
  | launch (id : Nat)
  deriving DecidableEq, Repr

/-- The header of a command packet (Table 17.3). The opcode is the command's name. The reserved fields are kept, so that a
packet that breaks the table can be written down. -/
structure CmdHdr where
  src : Source
  length : BitVec 16
  seq : BitVec 32
  tag : BitVec 64
  sheet : BitVec 3
  resv16 : BitVec 5
  sheetValid : Bool
  jobValid : Bool
  interrupt : Bool
  barrier : Bool
  resv17 : BitVec 4
  job : BitVec 16
  logical : BitVec 20
  resv20 : BitVec 12
  resv24 : BitVec 320
  deriving DecidableEq, Repr

/-- A fabric frame (Tables 14.2 and 14.3): the header's fields, the payload as plain text, and the outcome that the check of
its 16-byte tag has at the receiver (R493). -/
structure Frame where
  version : BitVec 4
  kind : BitVec 4
  tc : BitVec 3
  comp : Bool
  last : Bool
  ackv : Bool
  opflag : BitVec 2
  hops : BitVec 3
  dstDev : BitVec 20
  dstSheet : BitVec 3
  resv4 : Bool
  op : BitVec 8
  srcDev : BitVec 20
  srcSheet : BitVec 3
  agent : BitVec 9
  job : BitVec 16
  spec : BitVec 16
  seq : BitVec 32
  ackThrough : BitVec 32
  addr : BitVec 44
  ext : BitVec 20
  payload : List Byte
  tagOk : Bool
  deriving DecidableEq, Repr

/-- What a NATIVE port receives around a frame (Tables 15.4 and 15.7): the envelope's fields, codewords that the FEC corrected, whether the
frame is a line error (1: an uncorrectable codeword, 2: env_crc or CRC-32), and whether its link MAC tag and its length hold. -/
structure Envelope where
  txCount : BitVec 23
  lane : BitVec 2
  tc : BitVec 3
  linkSeq : BitVec 20
  corrected : BitVec 8
  error : Fin 3
  macOk : Bool
  lenOk : Bool
  deriving DecidableEq, Repr

/-- A control block that a port receives (Table 15.5): its transmission count, link_seq and entries, whether its CRC-32 and its MAC tag hold,
and whether its reserved fields are zero. -/
structure Block where
  txCount : BitVec 23
  linkSeq : BitVec 20
  fields : List Nat
  crcOk : Bool
  macOk : Bool
  resvOk : Bool
  deriving DecidableEq, Repr

/-- What an Announce of IEEE 1588 says of the grandmaster (R356): clockClass, clockAccuracy and offsetScaledLogVariance are its quality. -/
structure PtpAnnounce where
  prio1 : BitVec 8
  quality : BitVec 32
  prio2 : BitVec 8
  identity : BitVec 64
  deriving DecidableEq, Repr

/-- What the MAC of an ETH-mode port makes of an Ethernet frame (R412): it takes the frame, the frame fails its FCS, it is PAUSE or PFC, or it is none that
the port supports or none addressed to it. -/
inductive EthRx where
  | taken
  | badFcs
  | pause
  | other
  deriving DecidableEq, Repr

/-- A gateway datagram that a port receives (Table 16.6), what the MAC makes of its Ethernet frame, whether it is CE-marked, the delay and ranges of an
ACK, and the device ID and versions of a HELLO or HELLO_ACK. -/
structure Dgram where
  mac : EthRx
  retrans : Bool
  connId : BitVec 32
  psn : BitVec 32
  cumAck : BitVec 32
  window : BitVec 32
  txTime : BitVec 32
  echoTime : BitVec 32
  ceCount : BitVec 32
  ce : Bool
  delay : BitVec 32
  ranges : List (BitVec 32 × BitVec 32)
  dev : BitVec 20
  versions : BitVec 8
  frames : List Frame
  deriving DecidableEq, Repr

/-- Who writes a register (R29, R460): the Chartroom, the host through the function of a die, or a core by the home position of its virtual core. -/
inductive Writer where
  | chartroom
  | host (die : Fin 2)
  | core (u : Fin 256)
  deriving DecidableEq, Repr


/-- The commands, in the order of spec/opcode_table.json. -/
inductive Instr where
  /-- RLD (R223) -/
  | rld (c:Fin 256) (f:BitVec 56)
  /-- RST (R223) -/
  | rst (c:Fin 256) (f:BitVec 56)
  /-- RATOM (R223) -/
  | ratom (c:Fin 256) (f:BitVec 56)
  /-- FENCE (R50) -/
  | fence (c:Fin 256) (f:BitVec 56)
  /-- RACC (R35) -/
  | raccDesc (k:Fin 8)
  /-- BULK_COPY (R31) -/
  | bulkCopy (k:Fin 8)
  /-- INVALIDATE (R42) -/
  | invalidate (k:Fin 8)
  /-- FENCE_DESCRIPTOR (R50) -/
  | fenceDescriptor (k:Fin 8)
  /-- NOTIFY (R36) -/
  | notifyDesc (k:Fin 8)
  /-- LOAD_REQUEST (R40) -/
  | loadRequest (f:Frame)
  /-- STORE_REQUEST (R40) -/
  | storeRequest (f:Frame)
  /-- ATOMIC_REQUEST (R32) -/
  | atomicRequest (f:Frame)
  /-- RACC_REQUEST (R298) -/
  | raccRequest (f:Frame)
  /-- BULK_COPY_PUT (R169) -/
  | bulkCopyPut (f:Frame)
  /-- BULK_COPY_GET (R31) -/
  | bulkCopyGet (f:Frame)
  /-- INVALIDATE_REQUEST (R64) -/
  | invalidateRequest (f:Frame)
  /-- NOTIFY_REQUEST (R36) -/
  | notifyRequest (f:Frame)
  /-- RESPONSE (R224) -/
  | responseFrame (f:Frame)
  /-- ACKNOWLEDGEMENT (R44) -/
  | acknowledgement (f:Frame)
  /-- NACK (R45) -/
  | nack (f:Frame)
  /-- REPLAY_INTERVAL_EXPIRY (R48) -/
  | replayIntervalExpiry (b:Fin 8) (a:Fin 512) (j:BitVec 16) (d:BitVec 20) (n:Nat)
  /-- RETRY_BACKOFF_EXPIRY (R48) -/
  | retryBackoffExpiry (b:Fin 8) (a:Fin 512) (j:BitVec 16) (d:BitVec 20) (n:Nat)
  /-- OP_TIMEOUT (R57) -/
  | opTimeout (b:Fin 8) (a:Fin 512) (j:BitVec 16) (d:BitVec 20) (n:Nat)
  /-- STALLED_ISSUE_RESUME (R43) -/
  | stalledIssueResume (i:Fin 8) (a:Fin 512)
  /-- QUEUE_ACCEPT (R27) -/
  | queueAccept
  /-- REGION_SET (R69) -/
  | regionSet (h:CmdHdr) (p:List Byte)
  /-- RLC_CTL_FLUSH (R66) -/
  | rlcCtlFlush
  /-- RMO_FAULT_INFO (R53) -/
  | rmoFaultInfo (i:Fin 8) (w:Word)
  /-- RGD_VIOL_INFO (R68) -/
  | rgdViolInfo (w:Word)
  /-- REGISTER_WRITE (R29) -/
  | registerWrite (x:Writer) (a:BitVec 44) (n:BitVec 16) (w:Word)
  /-- LAYER_SET (R71) -/
  | layerSet (h:CmdHdr) (p:List Byte)
  /-- GAZETTEER_WRITE (R76) -/
  | gazetteerWrite (h:CmdHdr) (p:List Byte)
  /-- CSET_WRITE (R76) -/
  | csetWrite (h:CmdHdr) (p:List Byte)
  /-- EXPERT_DIR_WRITE (R76) -/
  | expertDirWrite (h:CmdHdr) (p:List Byte)
  /-- TABLE_COMMIT (R74) -/
  | tableCommit (h:CmdHdr) (p:List Byte)
  /-- TABLE_COMMIT_SWITCH (R403) -/
  | tableCommitSwitch (h:CmdHdr) (p:List Byte)
  /-- DRAINING_COMPLETE (R73) -/
  | drainingComplete (i:Fin 8)
  /-- SYNCING_COMPLETE (R73) -/
  | syncingComplete (i:Fin 8)
  /-- SURVEY_SUBMISSION (R87) -/
  | surveySubmission (o:Fin 8)
  /-- SURVEY_COMPLETE (R88) -/
  | surveyComplete (o:Fin 8)
  /-- SVY_CTL_FLUSH_GVC (R95) -/
  | svyCtlFlushGvc (o:Fin 8)
  /-- GAZ_CTL_FLUSH (R81) -/
  | gazCtlFlush (o:Fin 8)
  /-- SVY_FAULT_INFO (R87) -/
  | svyFaultInfo (o:Fin 8) (w:Word)
  /-- CENSUS (R102) -/
  | censusRecord (f:Frame)
  /-- CENSUS_TIMEOUT (R102) -/
  | censusTimeout (i:Fin 8) (id:Nat)
  /-- GRANT_COMPUTE (R104) -/
  | grantCompute (i:Fin 8) (id:Nat)
  /-- GRANT (R128) -/
  | grantRecord (f:Frame)
  /-- LANDING_RECORD (R132) -/
  | landingRecord (f:Frame)
  /-- GRANT_TIMEOUT (R108) -/
  | grantTimeout (i:Fin 8) (id:Nat) (dest:Nat)
  /-- RESERVATION_TIMEOUT (R104) -/
  | reservationTimeout (p:Fin 64) (id:Nat)
  /-- EPOCH_OPEN (R115) -/
  | epochOpen (o:Fin 8)
  /-- EXCHANGE (R126) -/
  | exchangeDesc (o:Fin 8)
  /-- RECEIVE (R129) -/
  | receiveDesc (o:Fin 8)
  /-- RETURN (R137) -/
  | returnDesc (o:Fin 8)
  /-- EPOCH_CLOSE (R118) -/
  | epochClose (o:Fin 8)
  /-- CANCEL (R144) -/
  | cancel (o:Fin 8)
  /-- REPLAY (R148) -/
  | replayDesc (o:Fin 8)
  /-- CANCEL_BATCH (R144) -/
  | cancelBatch (h:CmdHdr) (p:List Byte)
  /-- PLOTTING_DESCRIPTOR (R119) -/
  | plottingDescriptor (o:Fin 8)
  /-- PLOTTING_COMPLETE (R123) -/
  | plottingComplete (o:Fin 8)
  /-- KEY_COUNTS (R127) -/
  | keyCounts (o:Fin 8)
  /-- FAILURE_NOTICE (R585) -/
  | failureNotice (o:Fin 8)
  /-- WAVE_0_START (R126) -/
  | wave0Start (i:Fin 8) (id:Nat)
  /-- EXCHANGE_TIMEOUT (R126) -/
  | exchangeTimeout (i:Fin 8) (id:Nat)
  /-- RECEIVE_MISSING (R130) -/
  | receiveMissing (i:Fin 8) (step:Nat) (layer:Nat)
  /-- PART_SEND (R135) -/
  | partSend (i:Fin 8) (id:Nat)
  /-- SKIP_RECORD (R139) -/
  | skipRecord (f:Frame)
  /-- CANCEL_RECORD (R145) -/
  | cancelRecord (f:Frame)
  /-- RETURN_TIMEOUT (R142) -/
  | returnTimeout (i:Fin 8) (id:Nat)
  /-- REUSE_INTERVAL_EXPIRY (R116) -/
  | reuseIntervalExpiry (i:Fin 8) (e:Fin 4096)
  /-- RELAY_MANIFEST (R151) -/
  | relayManifest (f:Frame)
  /-- RELAY_FORWARD (R151) -/
  | relayForward (i:Fin 8) (id:Nat)
  /-- RELAY_TIMEOUT (R151) -/
  | relayTimeout (i:Fin 8) (id:Nat)
  /-- TRV_FAULT_INFO (R586) -/
  | trvFaultInfo (o:Fin 8) (w:Word)
  /-- PLT_FAULT_INFO (R119) -/
  | pltFaultInfo (o:Fin 8) (w:Word)
  /-- POOL_CREATE (R156) -/
  | poolCreate (h:CmdHdr) (p:List Byte)
  /-- POOL_SET_MODE (R161) -/
  | poolSetMode (h:CmdHdr) (p:List Byte)
  /-- POOL_SET_THRESH (R155) -/
  | poolSetThresh (h:CmdHdr) (p:List Byte)
  /-- POOL_UNQUARANTINE (R170) -/
  | poolUnquarantine (h:CmdHdr) (p:List Byte)
  /-- POOL_DESTROY (R155) -/
  | poolDestroy (h:CmdHdr) (p:List Byte)
  /-- POOL_STARTING_COMPLETE (R170) -/
  | poolStartingComplete (i:Fin 64)
  /-- POOL_STOPPING_DRAINED (R170) -/
  | poolStoppingDrained (i:Fin 64)
  /-- POOL_TEARDOWN_TIMEOUT (R170) -/
  | poolTeardownTimeout (i:Fin 64)
  /-- ALLOC_CHAIN (R158) -/
  | allocChain (k:Fin 8)
  /-- ALLOC_EXTENT (R158) -/
  | allocExtent (k:Fin 8)
  /-- APPEND (R166) -/
  | append (k:Fin 8)
  /-- ACQUIRE (R164) -/
  | acquire (k:Fin 8)
  /-- RELEASE (R164) -/
  | release (k:Fin 8)
  /-- ALLOC_SIZED (R160) -/
  | allocSized (k:Fin 8)
  /-- FREE_SIZED (R166) -/
  | freeSized (k:Fin 8)
  /-- POOL_REQUEST_SERVED (R163) -/
  | poolRequestServed (i:Fin 64) (ctl:Bool)
  /-- POOL_REQUEST_TIMEOUT (R163) -/
  | poolRequestTimeout (i:Fin 64) (ctl:Bool)
  /-- BPM_POOL_COUNT0 (R172) -/
  | bpmPoolCount0 (i:Fin 64)
  /-- BPM_POOL_THRESH (R156) -/
  | bpmPoolThresh (i:Fin 64) (w:Word)
  /-- BPM_BADPTR_INFO (R166) -/
  | bpmBadptrInfo (k:Fin 8) (w:Word)
  /-- COPY (R189) -/
  | copyDesc (c:Fin 256) (j:Fin 4)
  /-- GATHER_ROWS (R189) -/
  | gatherRows (c:Fin 256) (j:Fin 4)
  /-- GATHER_COLS (R189) -/
  | gatherCols (c:Fin 256) (j:Fin 4)
  /-- COMPRESS (R191) -/
  | compress (c:Fin 256) (j:Fin 4)
  /-- DECOMPRESS (R192) -/
  | decompress (c:Fin 256) (j:Fin 4)
  /-- SELECT (R195) -/
  | selectDesc (c:Fin 256) (j:Fin 4)
  /-- PRED_CHECK (R196) -/
  | predCheck (c:Fin 256) (j:Fin 4)
  /-- MOV_FAULT_INFO (R189) -/
  | movFaultInfo (c:Fin 256) (w:Word)
  /-- CORE_FAULT_INFO (R233) -/
  | coreFaultInfo (c:Fin 256) (w:Word)
  /-- GUEST_CONTEXT_SWITCH (R201) -/
  | guestContextSwitch (p:Fin 256)
  /-- NOP (R210) -/
  | nop (c:Fin 256) (f:BitVec 56)
  /-- ADD (R210) -/
  | add (c:Fin 256) (f:BitVec 56)
  /-- SUB (R210) -/
  | sub (c:Fin 256) (f:BitVec 56)
  /-- MUL (R210) -/
  | mul (c:Fin 256) (f:BitVec 56)
  /-- MULHU (R210) -/
  | mulhu (c:Fin 256) (f:BitVec 56)
  /-- MULHS (R210) -/
  | mulhs (c:Fin 256) (f:BitVec 56)
  /-- DIVU (R210) -/
  | divu (c:Fin 256) (f:BitVec 56)
  /-- REMU (R210) -/
  | remu (c:Fin 256) (f:BitVec 56)
  /-- DIVS (R210) -/
  | divs (c:Fin 256) (f:BitVec 56)
  /-- REMS (R210) -/
  | rems (c:Fin 256) (f:BitVec 56)
  /-- AND (R210) -/
  | andInstr (c:Fin 256) (f:BitVec 56)
  /-- OR (R210) -/
  | orInstr (c:Fin 256) (f:BitVec 56)
  /-- XOR (R210) -/
  | xorInstr (c:Fin 256) (f:BitVec 56)
  /-- SHL (R210) -/
  | shl (c:Fin 256) (f:BitVec 56)
  /-- SHR (R210) -/
  | shr (c:Fin 256) (f:BitVec 56)
  /-- SAR (R210) -/
  | sar (c:Fin 256) (f:BitVec 56)
  /-- MINU (R210) -/
  | minu (c:Fin 256) (f:BitVec 56)
  /-- MAXU (R210) -/
  | maxu (c:Fin 256) (f:BitVec 56)
  /-- MINS (R210) -/
  | mins (c:Fin 256) (f:BitVec 56)
  /-- MAXS (R210) -/
  | maxs (c:Fin 256) (f:BitVec 56)
  /-- SLTU (R210) -/
  | sltu (c:Fin 256) (f:BitVec 56)
  /-- SLTS (R210) -/
  | slts (c:Fin 256) (f:BitVec 56)
  /-- SEQ (R210) -/
  | seq (c:Fin 256) (f:BitVec 56)
  /-- SEL (R210) -/
  | sel (c:Fin 256) (f:BitVec 56)
  /-- ADDI (R210) -/
  | addi (c:Fin 256) (f:BitVec 56)
  /-- ANDI (R210) -/
  | andi (c:Fin 256) (f:BitVec 56)
  /-- ORI (R210) -/
  | ori (c:Fin 256) (f:BitVec 56)
  /-- XORI (R210) -/
  | xori (c:Fin 256) (f:BitVec 56)
  /-- SHLI (R210) -/
  | shli (c:Fin 256) (f:BitVec 56)
  /-- SHRI (R210) -/
  | shri (c:Fin 256) (f:BitVec 56)
  /-- SARI (R210) -/
  | sari (c:Fin 256) (f:BitVec 56)
  /-- LDI (R210) -/
  | ldi (c:Fin 256) (f:BitVec 56)
  /-- FADD (R211) -/
  | fadd (c:Fin 256) (f:BitVec 56)
  /-- FSUB (R211) -/
  | fsub (c:Fin 256) (f:BitVec 56)
  /-- FMUL (R211) -/
  | fmul (c:Fin 256) (f:BitVec 56)
  /-- FFMA (R211) -/
  | ffma (c:Fin 256) (f:BitVec 56)
  /-- FMIN (R211) -/
  | fmin (c:Fin 256) (f:BitVec 56)
  /-- FMAX (R211) -/
  | fmax (c:Fin 256) (f:BitVec 56)
  /-- FCMP (R211) -/
  | fcmp (c:Fin 256) (f:BitVec 56)
  /-- FCVT (R211) -/
  | fcvt (c:Fin 256) (f:BitVec 56)
  /-- BEQ (R212) -/
  | beq (c:Fin 256) (f:BitVec 56)
  /-- BNE (R212) -/
  | bne (c:Fin 256) (f:BitVec 56)
  /-- BLTS (R212) -/
  | blts (c:Fin 256) (f:BitVec 56)
  /-- BGES (R212) -/
  | bges (c:Fin 256) (f:BitVec 56)
  /-- BLTU (R212) -/
  | bltu (c:Fin 256) (f:BitVec 56)
  /-- BGEU (R212) -/
  | bgeu (c:Fin 256) (f:BitVec 56)
  /-- CALL (R212) -/
  | call (c:Fin 256) (f:BitVec 56)
  /-- JR (R212) -/
  | jr (c:Fin 256) (f:BitVec 56)
  /-- POPC (R213) -/
  | popc (c:Fin 256) (f:BitVec 56)
  /-- CLZ (R213) -/
  | clz (c:Fin 256) (f:BitVec 56)
  /-- CTZ (R213) -/
  | ctz (c:Fin 256) (f:BitVec 56)
  /-- ROTR (R213) -/
  | rotr (c:Fin 256) (f:BitVec 56)
  /-- BEXT (R213) -/
  | bext (c:Fin 256) (f:BitVec 56)
  /-- BINS (R213) -/
  | bins (c:Fin 256) (f:BitVec 56)
  /-- BSWAP (R213) -/
  | bswap (c:Fin 256) (f:BitVec 56)
  /-- HASH (R213) -/
  | hash (c:Fin 256) (f:BitVec 56)
  /-- BREV (R213) -/
  | brev (c:Fin 256) (f:BitVec 56)
  /-- LDS (R214) -/
  | lds (c:Fin 256) (f:BitVec 56)
  /-- STS (R214) -/
  | sts (c:Fin 256) (f:BitVec 56)
  /-- VLD (R214) -/
  | vld (c:Fin 256) (f:BitVec 56)
  /-- VST (R214) -/
  | vst (c:Fin 256) (f:BitVec 56)
  /-- VLDS (R214) -/
  | vlds (c:Fin 256) (f:BitVec 56)
  /-- VSTS (R214) -/
  | vsts (c:Fin 256) (f:BitVec 56)
  /-- VADD (R216) -/
  | vadd (c:Fin 256) (f:BitVec 56)
  /-- VSUB (R216) -/
  | vsub (c:Fin 256) (f:BitVec 56)
  /-- VMUL (R216) -/
  | vmul (c:Fin 256) (f:BitVec 56)
  /-- VFMA (R216) -/
  | vfma (c:Fin 256) (f:BitVec 56)
  /-- VMIN (R216) -/
  | vmin (c:Fin 256) (f:BitVec 56)
  /-- VMAX (R216) -/
  | vmax (c:Fin 256) (f:BitVec 56)
  /-- VABS (R216) -/
  | vabs (c:Fin 256) (f:BitVec 56)
  /-- VNEG (R216) -/
  | vneg (c:Fin 256) (f:BitVec 56)
  /-- VCMP (R216) -/
  | vcmp (c:Fin 256) (f:BitVec 56)
  /-- VSEL (R216) -/
  | vsel (c:Fin 256) (f:BitVec 56)
  /-- VCVT (R216) -/
  | vcvt (c:Fin 256) (f:BitVec 56)
  /-- VBC (R216) -/
  | vbc (c:Fin 256) (f:BitVec 56)
  /-- VIOTA (R216) -/
  | viota (c:Fin 256) (f:BitVec 56)
  /-- VEXTR (R216) -/
  | vextr (c:Fin 256) (f:BitVec 56)
  /-- PCNT (R216) -/
  | pcnt (c:Fin 256) (f:BitVec 56)
  /-- PLOG (R216) -/
  | plog (c:Fin 256) (f:BitVec 56)
  /-- VEXP (R256) -/
  | vexp (c:Fin 256) (f:BitVec 56)
  /-- VLOG (R256) -/
  | vlog (c:Fin 256) (f:BitVec 56)
  /-- VRCP (R256) -/
  | vrcp (c:Fin 256) (f:BitVec 56)
  /-- VRSQRT (R256) -/
  | vrsqrt (c:Fin 256) (f:BitVec 56)
  /-- VSIGM (R256) -/
  | vsigm (c:Fin 256) (f:BitVec 56)
  /-- VTANH (R256) -/
  | vtanh (c:Fin 256) (f:BitVec 56)
  /-- VERF (R256) -/
  | verf (c:Fin 256) (f:BitVec 56)
  /-- VSQRT (R256) -/
  | vsqrt (c:Fin 256) (f:BitVec 56)
  /-- VRSUM (R217) -/
  | vrsum (c:Fin 256) (f:BitVec 56)
  /-- VRMAX (R217) -/
  | vrmax (c:Fin 256) (f:BitVec 56)
  /-- VRMIN (R217) -/
  | vrmin (c:Fin 256) (f:BitVec 56)
  /-- VAND (R216) -/
  | vand (c:Fin 256) (f:BitVec 56)
  /-- VOR (R216) -/
  | vor (c:Fin 256) (f:BitVec 56)
  /-- VXOR (R216) -/
  | vxor (c:Fin 256) (f:BitVec 56)
  /-- VSHIFT (R216) -/
  | vshift (c:Fin 256) (f:BitVec 56)
  /-- WLD (R179) -/
  | wld (c:Fin 256) (f:BitVec 56)
  /-- MPASS (R220) -/
  | mpass (c:Fin 256) (f:BitVec 56)
  /-- ACCRD (R222) -/
  | accrd (c:Fin 256) (f:BitVec 56)
  /-- ACCZ (R218) -/
  | accz (c:Fin 256) (f:BitVec 56)
  /-- WAITGE (R227) -/
  | waitge (c:Fin 256) (f:BitVec 56)
  /-- WAITNE (R227) -/
  | waitne (c:Fin 256) (f:BitVec 56)
  /-- WAIT_TIMEOUT (R227) -/
  | waitTimeout (c:Fin 256)
  /-- SACQ (R228) -/
  | sacq (c:Fin 256) (f:BitVec 56)
  /-- SREL (R228) -/
  | srel (c:Fin 256) (f:BitVec 56)
  /-- SUBMIT (R229) -/
  | submit (c:Fin 256) (f:BitVec 56)
  /-- MVI (R230) -/
  | mvi (c:Fin 256) (f:BitVec 56)
  /-- MVWAIT (R230) -/
  | mvwait (c:Fin 256) (f:BitVec 56)
  /-- END (R232) -/
  | endInstr (c:Fin 256) (f:BitVec 56)
  /-- RDS (R231) -/
  | rds (c:Fin 256) (f:BitVec 56)
  /-- WRS (R231) -/
  | wrs (c:Fin 256) (f:BitVec 56)
  /-- BREAK (R231) -/
  | breakInstr (c:Fin 256) (f:BitVec 56)
  /-- QUANTIZE (R274) -/
  | quantize (c:Fin 256)
  /-- UPDATE (R275) -/
  | updateDesc (c:Fin 256)
  /-- PRUNE (R283) -/
  | prune (c:Fin 256)
  /-- MOV_QNT_SUBMIT (R269) -/
  | movQntSubmit (c:Fin 256) (u:Fin 256) (w:Word)
  /-- MOV_QNT_STATUS (R270) -/
  | movQntStatus (c:Fin 256) (w:Word)
  /-- RECIPE_SET (R264) -/
  | recipeSet (h:CmdHdr) (p:List Byte)
  /-- HCH_RECIPE (R264) -/
  | hchRecipe (i:Fin 8) (k:Fin 7) (w:Word)
  /-- HCH_CTL_EVAL_NOW (R278) -/
  | hchCtlEvalNow
  /-- HCH_STATUS (R281) -/
  | hchStatus (w:Word)
  /-- BUCKET_DEFINE (R296) -/
  | bucketDefine (h:CmdHdr) (p:List Byte)
  /-- BUCKET_UNDEFINE (R297) -/
  | bucketUndefine (h:CmdHdr) (p:List Byte)
  /-- HBM_REPAIR (R286) -/
  | hbmRepair (h:CmdHdr) (p:List Byte)
  /-- RACC_COMMIT (R307) -/
  | raccCommit (h:Fin 16)
  /-- PART_DONE (R308) -/
  | partDone (h:Fin 16)
  /-- BUCKET_STALLED (R311) -/
  | bucketStalled (h:Fin 16) (j:Nat) (b:Nat)
  /-- NMA_CTX_ACCEPTED (R314) -/
  | nmaCtxAccepted (h:Fin 16)
  /-- NMA_ERR_INFO (R298) -/
  | nmaErrInfo (h:Fin 16) (w:Word)
  /-- MHB_UE_INFO (R293) -/
  | mhbUeInfo (h:Fin 16) (w:Word)
  /-- HBM_TEMPERATURE_READ (R290) -/
  | hbmTemperatureRead (h:Fin 16) (d:BitVec 8)
  /-- PER_BANK_REFRESH (R290) -/
  | perBankRefresh (h:Fin 16)
  /-- SCRUB (R291) -/
  | scrub (h:Fin 16) (l:Nat) (r:Fin 3)
  /-- RECALIBRATION (R291) -/
  | recalibration (h:Fin 16)
  /-- GROUP_DEFINE (R320) -/
  | groupDefine (h:CmdHdr) (p:List Byte)
  /-- GROUP_UNDEFINE (R321) -/
  | groupUndefine (h:CmdHdr) (p:List Byte)
  /-- COLLECTIVE_LAUNCH (R324) -/
  | collectiveLaunch (h:CmdHdr) (p:List Byte)
  /-- COLLECTIVE_STATUS (R335) -/
  | collectiveStatus (h:CmdHdr) (p:List Byte)
  /-- COLLECTIVE_ADMIT (R324) -/
  | collectiveAdmit
  /-- PENDING_LAUNCH_TIMEOUT (R324) -/
  | pendingLaunchTimeout (j:Nat) (g:Nat) (q:Nat)
  /-- AT_DATUM_TRIGGER (R326) -/
  | atDatumTrigger (k:Fin 8)
  /-- COLLECTIVE_CREDIT (R319) -/
  | collectiveCredit (j:Nat) (g:Nat) (q:Nat) (r:Nat) (a:Nat)
  /-- COLLECTIVE_CHUNK (R328) -/
  | collectiveChunk (k:Fin 8) (r:Nat)
  /-- COLLECTIVE_TIMEOUT (R334) -/
  | collectiveTimeout (k:Fin 8) (r:Nat)
  /-- TREE_START (R336) -/
  | treeStart (h:CmdHdr) (p:List Byte)
  /-- TREE_REPARENT (R341) -/
  | treeReparent (h:CmdHdr) (p:List Byte)
  /-- TREE_END (R343) -/
  | treeEnd (h:CmdHdr) (p:List Byte)
  /-- TREE_CHUNK_COMPLETE (R337) -/
  | treeChunkComplete (i:Fin 8) (m:Nat) (c:Nat)
  /-- TREE_KEEPALIVE (R339) -/
  | treeKeepalive (i:Fin 8) (m:Nat) (c:Nat)
  /-- ORPHANED (R340) -/
  | orphaned (i:Fin 8) (m:Nat)
  /-- RESUME_RECORD (R341) -/
  | resumeRecord (i:Fin 8) (m:Nat) (c:Nat) (hi:Nat)
  /-- CHILD_LOST (R342) -/
  | childLost (i:Fin 8) (m:Nat) (c:Nat)
  /-- DETERMINISM_SET (R346) -/
  | determinismSet (h:CmdHdr) (p:List Byte)
  /-- LAUNCH_AT (R359) -/
  | launchAt (h:CmdHdr) (p:List Byte) (ok:Bool) (chunk:List Byte)
  /-- LAUNCH_AT_STAMP (R360) -/
  | launchAtStamp (ok:Bool) (chunk:List Byte)
  /-- DATUM_SYNC_TIMER (R353) -/
  | datumSyncTimer
  /-- DATUM_SYNC_REQUEST (R353) -/
  | datumSyncRequest (p:Fin 36) (seq:BitVec 16) (t1:Word)
  /-- DATUM_SYNC_RESPONSE (R354) -/
  | datumSyncResponse (p:Fin 36) (hops:BitVec 8) (seq:BitVec 16) (state:BitVec 8) (t1:Word) (t2:Word) (t3:Word) (master:BitVec 20)
  /-- DATUM_HOLDOVER (R354) -/
  | datumHoldover
  /-- HOLDOVER_TIMEOUT (R352) -/
  | holdoverTimeout
  /-- PTP_MESSAGE (R356) -/
  | ptpMessage (p:Fin 36) (v4:Bool) (ty:BitVec 4) (dom:BitVec 8) (two:Bool) (seq:BitVec 16) (t:Word) (ann:PtpAnnounce)
  /-- DATUM_PPS_IN (R358) -/
  | datumPpsIn
  /-- DATUM_PPS_OUT (R358) -/
  | datumPpsOut
  /-- PPS_OUT_FALL (R358) -/
  | ppsOutFall
  /-- SHEET_CREATE (R366) -/
  | sheetCreate (h:CmdHdr) (p:List Byte)
  /-- SHEET_DESTROY (R367) -/
  | sheetDestroy (h:CmdHdr) (p:List Byte)
  /-- SHEET_STARTING_COMPLETE (R367) -/
  | sheetStartingComplete (i:Fin 8)
  /-- SHEET_STOPPING_COMPLETE (R367) -/
  | sheetStoppingComplete (i:Fin 8)
  /-- CONTEXT_CREATE (R368) -/
  | contextCreate (h:CmdHdr) (p:List Byte)
  /-- CONTEXT_DESTROY (R372) -/
  | contextDestroy (h:CmdHdr) (p:List Byte)
  /-- CONTEXT_RESUME (R373) -/
  | contextResume (h:CmdHdr) (p:List Byte)
  /-- KERNEL_DOORBELL (R369) -/
  | kernelDoorbell (h:CmdHdr) (p:List Byte)
  /-- SERVE_SET (R385) -/
  | serveSet (h:CmdHdr) (p:List Byte)
  /-- CONTEXT_SWITCH_START (R378) -/
  | contextSwitchStart (i:Fin 8)
  /-- CONTEXT_SWITCH_COMPLETE (R379) -/
  | contextSwitchComplete (i:Fin 8)
  /-- KERNEL_WATCHDOG (R376) -/
  | kernelWatchdog (i:Fin 8) (c:Fin 16)
  /-- SEM_HOLD_EXPIRED (R384) -/
  | semHoldExpired (i:Fin 8) (n:Fin 256)
  /-- COMPOSER_POLL (R388) -/
  | composerPoll (i:Fin 8)
  /-- FRAME_INGRESS (R392) -/
  | frameIngress (p:Fin 40) (e:Envelope) (f:Frame)
  /-- OUTPUT_ARBITRATION (R402) -/
  | outputArbitration (p:Fin 40) (ecc:Fin 3)
  /-- SWITCH_TABLE_WRITE (R404) -/
  | switchTableWrite (h:CmdHdr) (p:List Byte)
  /-- SWITCH_EXC_WRITE (R404) -/
  | switchExcWrite (h:CmdHdr) (p:List Byte)
  /-- SWITCH_TABLE_ACTIVATION (R403) -/
  | switchTableActivation
  /-- SHADOW_COPY_COMPLETE (R403) -/
  | shadowCopyComplete
  /-- DRAIN_COMPLETE (R406) -/
  | drainComplete
  /-- DRAIN_TIMEOUT (R406) -/
  | drainTimeout
  /-- SWC_DROP_INFO (R407) -/
  | swcDropInfo (w:Word)
  /-- PORT_ENABLE (R414) -/
  | portEnable (h:CmdHdr) (p:List Byte)
  /-- PORT_DISABLE (R413) -/
  | portDisable (h:CmdHdr) (p:List Byte)
  /-- PORT_RETRAIN (R414) -/
  | portRetrain (h:CmdHdr) (p:List Byte)
  /-- PORT_UNQUARANTINE (R429) -/
  | portUnquarantine (h:CmdHdr) (p:List Byte)
  /-- PORT_INJECT (R430) -/
  | portInject (h:CmdHdr) (p:List Byte)
  /-- TRAINING_COMPLETE (R413) -/
  | trainingComplete (p:Fin 36)
  /-- TRAINING_TIMEOUT (R413) -/
  | trainingTimeout (p:Fin 36)
  /-- LANE_LOCK_LOSS (R424) -/
  | laneLockLoss (p:Fin 36) (locked:BitVec 8)
  /-- RETRAINING_COMPLETE (R424) -/
  | retrainingComplete (p:Fin 36)
  /-- RETRAINING_TIMEOUT (R413) -/
  | retrainingTimeout (p:Fin 36)
  /-- PORT_STOPPING_DRAINED (R413) -/
  | portStoppingDrained (p:Fin 36)
  /-- CREDIT (R419) -/
  | creditBlock (p:Fin 36) (b:Block)
  /-- ACK (R422) -/
  | ackBlock (p:Fin 36) (b:Block)
  /-- RETRY_REQ (R422) -/
  | retryReq (p:Fin 36) (b:Block)
  /-- VIOL_NACK (R427) -/
  | violNack (p:Fin 36) (b:Block)
  /-- AUDIT_MARK (R420) -/
  | auditMark (p:Fin 36) (b:Block)
  /-- AUDIT_RETURN (R420) -/
  | auditReturn (p:Fin 36) (b:Block)
  /-- KEEPALIVE (R428) -/
  | keepalive (p:Fin 36) (b:Block)
  /-- TRAIN (R489) -/
  | trainMsg (p:Fin 36) (dev:BitVec 20) (port:BitVec 6) (version:Bool) (trusted:Bool)
  /-- DISABLE (R413) -/
  | disableMsg (p:Fin 36) (b:Block)
  /-- LINK_ACK_TIMER (R418) -/
  | linkAckTimer (p:Fin 36)
  /-- FPT_AUDIT_START (R420) -/
  | fptAuditStart (p:Fin 36) (w:Word)
  /-- FPT_CTL (R411) -/
  | fptCtl (p:Fin 36) (w:Word)
  /-- FPT_VIOL_INFO (R427) -/
  | fptViolInfo (p:Fin 36) (w:Word)
  /-- DEVICE_ID_SET (R432) -/
  | deviceIdSet (h:CmdHdr) (p:List Byte)
  /-- JOBMAP_WRITE (R436) -/
  | jobmapWrite (h:CmdHdr) (p:List Byte)
  /-- GATEWAY_SET (R439) -/
  | gatewaySet (h:CmdHdr) (p:List Byte)
  /-- PEER_WRITE (R441) -/
  | peerWrite (h:CmdHdr) (p:List Byte)
  /-- GATEWAY_EGRESS (R440) -/
  | gatewayEgress (p:Fin 36)
  /-- WC_WINDOW_TIMEOUT (R444) -/
  | wcWindowTimeout (p:Fin 36)
  /-- READ_BUFFER_EXPIRY (R443) -/
  | readBufferExpiry (p:Fin 36)
  /-- GATEWAY_DATA (R447) -/
  | gatewayData (p:Fin 36) (d:Dgram)
  /-- GATEWAY_ACK (R448) -/
  | gatewayAck (p:Fin 36) (d:Dgram)
  /-- HELLO (R447) -/
  | hello (p:Fin 36) (d:Dgram)
  /-- HELLO_ACK (R447) -/
  | helloAck (p:Fin 36) (d:Dgram)
  /-- CLOSE (R447) -/
  | closeMsg (p:Fin 36) (d:Dgram)
  /-- GATEWAY_ACK_TIMER (R447) -/
  | gatewayAckTimer (p:Fin 36)
  /-- RETRANSMISSION_TIMEOUT (R448) -/
  | retransmissionTimeout (p:Fin 36) (dev:Nat) (psn:Nat)
  /-- RATE_ADJUST (R449) -/
  | rateAdjust (p:Fin 36) (dev:Nat)
  /-- DATAGRAM_SEND (R449) -/
  | datagramSend (p:Fin 36)
  /-- NOP_COMMAND (R468) -/
  | nopCommand (h:CmdHdr) (p:List Byte)
  /-- DEVICE_INFO (R468) -/
  | deviceInfo (h:CmdHdr) (p:List Byte)
  /-- REG_WRITE (R469) -/
  | regWrite (h:CmdHdr) (p:List Byte)
  /-- CHARTROOM_FAILOVER (R454) -/
  | chartroomFailover (h:CmdHdr) (p:List Byte)
  /-- DEVICE_RESET (R560) -/
  | deviceReset (h:CmdHdr) (p:List Byte)
  /-- DEVICE_RESET_BEGIN (R560) -/
  | deviceResetBegin
  /-- SHEET_RESET (R561) -/
  | sheetReset (h:CmdHdr) (p:List Byte)
  /-- TELEMETRY_SET (R474) -/
  | telemetrySet (h:CmdHdr) (p:List Byte)
  /-- TELEMETRY_READ (R474) -/
  | telemetryRead (h:CmdHdr) (p:List Byte)
  /-- LEVEL_READ (R474) -/
  | levelRead (h:CmdHdr) (p:List Byte)
  /-- LEVEL_SAMPLE (R473) -/
  | levelSample
  /-- CHARTROOM_HEARTBEAT (R454) -/
  | chartroomHeartbeat
  /-- HEARTBEAT_TIMEOUT (R455) -/
  | heartbeatTimeout
  /-- CHT_RING_CFG (R461) -/
  | chtRingCfg (die:Fin 2) (n:Fin 16) (w:Word)
  /-- CMD_TAIL (R462) -/
  | cmdTail (die:Fin 2) (n:Fin 16) (v:BitVec 32)
  /-- REPLY_HEAD (R463) -/
  | replyHead (die:Fin 2) (n:Fin 16) (v:BitVec 32)
  /-- JOB_ADMIT (R485) -/
  | jobAdmit (h:CmdHdr) (p:List Byte) (ok:Bool)
  /-- JOB_TEARDOWN (R540) -/
  | jobTeardown (h:CmdHdr) (p:List Byte)
  /-- TEARDOWN_STEP_DONE (R540) -/
  | teardownStepDone (j:BitVec 16)
  /-- TEARDOWN_WAIT_LIMIT (R543) -/
  | teardownWaitLimit (j:BitVec 16)
  /-- PEER_ATTEST (R487) -/
  | peerAttest (h:CmdHdr) (p:List Byte)
  /-- PEER_ATTEST_PHASE (R488) -/
  | peerAttestPhase (dev:BitVec 20) (d:List Byte) (ok:Bool)
  /-- DEBUG_UNLOCK (R499) -/
  | debugUnlock (h:CmdHdr) (p:List Byte) (sig:Bool)
  /-- DEBUG_LOCK (R501) -/
  | debugLock (h:CmdHdr) (p:List Byte)
  /-- DEBUG_TOKEN_EXPIRY (R501) -/
  | debugTokenExpiry
  /-- CERT_READ (R476) -/
  | certRead (h:CmdHdr) (p:List Byte)
  /-- MEM_IMPORT (R496) -/
  | memImport (h:CmdHdr) (p:List Byte) (base:Word) (mem:List Byte)
  /-- MEM_EXPORT (R497) -/
  | memExport (h:CmdHdr) (p:List Byte)
  /-- OWNER_RECORD (R477) -/
  | ownerRecord (owner:List Byte) (fms:List (List Byte)) (serial:BitVec 64) (kill:Bool) (ok:Bool)
  /-- GET_VERSION (R481) -/
  | getVersion (x:Source)
  /-- GET_CAPABILITIES (R481) -/
  | getCapabilities (x:Source)
  /-- NEGOTIATE_ALGORITHMS (R481) -/
  | negotiateAlgorithms (x:Source)
  /-- GET_DIGESTS (R481) -/
  | getDigests (x:Source)
  /-- GET_CERTIFICATE (R481) -/
  | getCertificate (x:Source) (slot:Fin 2) (off:BitVec 16) (n:BitVec 16)
  /-- CHALLENGE (R481) -/
  | challengeMsg (x:Source) (nonce:List Byte)
  /-- GET_MEASUREMENTS (R481) -/
  | getMeasurements (x:Source)
  /-- KEY_EXCHANGE (R481) -/
  | keyExchange (x:Source) (id:BitVec 32)
  /-- FINISH (R481) -/
  | finishMsg (x:Source) (id:BitVec 32) (key:List Byte) (ok:Bool)
  /-- HEARTBEAT (R481) -/
  | heartbeatMsg (x:Source) (id:BitVec 32)
  /-- KEY_UPDATE (R481) -/
  | keyUpdate (x:Source) (id:BitVec 32)
  /-- END_SESSION (R481) -/
  | endSession (x:Source) (id:BitVec 32)
  /-- CTC_FAIL_INFO (R493) -/
  | ctcFailInfo (die:Fin 2) (w:Word)
  /-- POWER_LIMIT_SET (R507) -/
  | powerLimitSet (h:CmdHdr) (p:List Byte)
  /-- OVERLAY_LOAD (R521) -/
  | overlayLoad (h:CmdHdr) (p:List Byte) (sig:Bool)
  /-- OVERLAY_CLEAR (R521) -/
  | overlayClear (h:CmdHdr) (p:List Byte)
  /-- CONTOUR_REPORT (R525) -/
  | contourReport (h:CmdHdr) (p:List Byte)
  /-- RETRAIN_SCHEDULE (R526) -/
  | retrainSchedule (h:CmdHdr) (p:List Byte)
  /-- POWER_SAMPLE (R508) -/
  | powerSample (w:BitVec 16) (mv:BitVec 16) (a:BitVec 10)
  /-- EXCURSION_END (R508) -/
  | excursionEnd
  /-- THROTTLE_STEP (R509) -/
  | throttleStep
  /-- CLOCK_RAISE (R510) -/
  | clockRaise
  /-- INPUT_UNDERVOLT (R506) -/
  | inputUndervolt
  /-- MAIN_POWER_CUT (R506) -/
  | mainPowerCut
  /-- OVERCURRENT (R512) -/
  | overcurrent
  /-- THERMAL_SAMPLE (R514) -/
  | thermalSample (d:Fin 70) (t:BitVec 8)
  /-- CONTOUR_SAMPLE (R522) -/
  | contourSample (dies:List (Fin 56 × BitVec 32 × BitVec 16)) (eyes:List (Fin 36 × Fin 8 × BitVec 16 × BitVec 16))
  /-- CONTOUR_REPLAN (R524) -/
  | contourReplan
  /-- RETRAIN_WINDOW (R526) -/
  | retrainWindow
  /-- LASER_INPUT_LOW (R579) -/
  | laserInputLow (n:Fin 6) (low:BitVec 8) (out:BitVec 8)
  /-- CLOSURE_CHECK (R547) -/
  | closureCheck (h:CmdHdr) (p:List Byte)
  /-- EVENT_READ (R534) -/
  | eventRead (h:CmdHdr) (p:List Byte)
  /-- DIAG_READ (R549) -/
  | diagRead (h:CmdHdr) (p:List Byte)
  /-- FM_REPORT_SEND (R533) -/
  | fmReportSend
  /-- STANDBY_POWER_VALID (R550) -/
  | standbyPowerValid
  /-- MAIN_OK (R568) -/
  | mainOk (level:Bool)
  /-- MAIN_OK_TIMEOUT (R568) -/
  | mainOkTimeout
  /-- MAIN_RAIL_DISCHARGED (R569) -/
  | mainRailDischarged
  /-- DIE_DISCOVERY_TIMEOUT (R553) -/
  | dieDiscoveryTimeout (d:Fin 64)
  /-- HBM_TRAINING_COMPLETE (R287) -/
  | hbmTrainingComplete (h:Fin 16) (rate:Fin 4)
  /-- LINK_TABLE_VERIFY (R554) -/
  | linkTableVerify (bad:List (Fin 16 × BitVec 28))
  /-- LEVEL_0_DEADLINE (R552) -/
  | level0Deadline
  /-- RESET_N (R569) -/
  | resetN (us:Nat)
  /-- PERST (R562) -/
  | perst (die:Fin 2)
  /-- FUNCTION_LEVEL_RESET (R562) -/
  | functionLevelReset (die:Fin 2)
  /-- COLD_RESET (R559) -/
  | coldReset
  /-- MATRIX_QUEUE_START (R218) -/
  | matrixQueueStart (c:Fin 256)
  /-- WEIGHT_LOAD_COMPLETE (R188) -/
  | weightLoadComplete (c:Fin 256)
  /-- MOVER_COMPLETE (R190) -/
  | moverComplete (c:Fin 256) (j:Fin 4)
  /-- QUANTIZER_COMPLETE (R270) -/
  | quantizerComplete (c:Fin 256)
  /-- UNQUARANTINE_HANDSHAKE_TIMEOUT (R429) -/
  | unquarantineHandshakeTimeout (p:Fin 36)
  /-- SPDM_SESSION_TIMEOUT (R498) -/
  | spdmSessionTimeout (id:BitVec 32)
  /-- PLDM_FIRMWARE_UPDATE (R480) -/
  | pldmFirmwareUpdate (what:Fin 3) (slot:Bool) (svn:BitVec 8) (record:List Byte)
  /-- BOOT_IMAGE_VERIFIED (R478) -/
  | bootImageVerified (die:Fin 2) (slot:Bool) (svn:BitVec 8) (ok:Bool) (items:List (List Byte)) (bench:Bool)
  /-- PHOTONIC_SELF_TEST_COMPLETE (R550) -/
  | photonicSelfTestComplete (n:Fin 6) (ok:Bool)
  /-- DIE_DISCOVERY_REPORT (R553) -/
  | dieDiscoveryReport (d:Fin 64) (same:Bool) (selfTest:Bool) (coresOk:Bool)
  deriving DecidableEq, Repr

end Sys2Proof
end

