-- ==== Sys2Proof/Config.lean ====
section
/-! DEFINITION. What the spec leaves open: values that no rule gives, as constants without a body. Each takes the state's draw
counter or the data it depends on; nothing can be proved of a value of them. -/

namespace Sys2Proof.Config

/-- A word that the spec does not state, by the number of the draw. -/
opaque freeWord : Nat → BitVec 64

/-- Words that the spec does not state, by the number of the draw and the place. -/
opaque freeWordAt : Nat → Nat → BitVec 64

/-- Bytes that the spec does not state (ciphertext, signatures, nonces, keys), by the number of the draw and the place. -/
opaque freeByte : Nat → Nat → BitVec 8

/-- What an operation leaves open of its result, by the operation and its operands: the same for equal operands (R344). -/
opaque openBit : List Nat → List Nat → Bool
opaque openWord : List Nat → BitVec 64

/-- The unit of memory in which an error has come about by the next tick, if any, and whether its code does not correct it (R174, R292, R536): the spec says what a
read of one does and not when one comes about; by the number of the draw. -/
opaque upset : Nat → Option (Nat × Bool)

/-- Whether the Chartroom can place an area of so many bytes in the HBM that it reserves (R25), whose size and other use the spec does not
give, by the number of the draw. -/
opaque placed : Nat → Nat → Bool

/-- The version of the running firmware (Table 17.13), which the spec does not give. -/
opaque fwVersion : BitVec 32

/-- The reason code where no cause of Table 21.6 applies, by the number of the draw. -/
opaque freeReason : Nat → BitVec 8

/-- Entries of the Benchmark table (Table 19.7), whose values the spec does not give: the CCLK voltage of a CD at a frequency in MHz, in µV; its factory
guardband in µV; the factory fmax of a die in MHz; the power sensitivity of the next step of a stage of Table 19.2 at a clock in MHz, in W; the
least eye height and width of a lane of a port. -/
opaque vfCurve : Nat → Nat → Nat
opaque guardband : Nat → Nat
opaque factoryFmax : Nat → Nat
opaque sensitivity : Nat → Nat → Nat
opaque eyeHeight : Nat → Nat → Nat
opaque eyeWidth : Nat → Nat → Nat

/-- The projected margin of a die in hundredths of a year (R525), by its degradation and guardband; it follows the ageing exponent of the Benchmark table,
which the spec does not give. -/
opaque years : Nat → Nat → Nat → BitVec 16

/-- The port delay trims of the Benchmark table: how many ps after its timestamp a Datum sync frame leaves a port, and how many before its timestamp one
has arrived (R353). -/
opaque txTrim : Nat → BitVec 32
opaque rxTrim : Nat → BitVec 32

/-- What an ordinary clock of IEEE 1588 announces of itself beside its priorities (R356), which the spec does not give: clockClass, clockAccuracy and
offsetScaledLogVariance as one number, and its identity. -/
opaque ptpQuality : BitVec 32
opaque ptpIdentity : BitVec 64

/-- The 14 bits of a connection's hash in its source UDP port (R446), which the spec does not give: by the gateway port and the peer's device ID. -/
opaque connHash : Nat → Nat → BitVec 14

/-- The certificate chain of slot 0 or 1 (R476), which the spec does not give. -/
opaque certChain : Nat → List (BitVec 8)

/-- Words of the factory Benchmark table and its header (Tables 19.20 to 19.22), by place. -/
opaque benchmark : Nat → BitVec 64

/-- One less than the descriptors that an engine queue holds (R27), by its page of Table 2.2, where the spec gives no depth. -/
opaque queueDepth : Nat → BitVec 16

/-- The step of a 32-bit LFSR and the 24 bits of it that an injection compares (R431), whose polynomial the spec does not give. -/
opaque lfsrNext : BitVec 32 → BitVec 32
opaque lfsrBits : BitVec 32 → BitVec 24

end Sys2Proof.Config
end

