-- ==== Sys2Proof/Machine/Bits.lean ====
section
/-! DEFINITION. Bit fields, little-endian byte strings and sign extension (R2, R5). -/

namespace Sys2Proof.Machine

/-- Bits [hi:lo] of x as a number. -/
def bitsOf (x hi lo : Nat) : Nat := (x / 2 ^ lo) % 2 ^ (hi + 1 - lo)

/-- Bit i of x. -/
def bitOf (x i : Nat) : Bool := (x / 2 ^ i) % 2 == 1

/-- x with bits [hi:lo] replaced by the low bits of v. -/
def setBits (x hi lo v : Nat) : Nat :=
  x - bitsOf x hi lo * 2 ^ lo + (v % 2 ^ (hi + 1 - lo)) * 2 ^ lo

/-- Bits [hi:lo] of a vector of bits, as a number. -/
def fld {n : Nat} (w : BitVec n) (hi lo : Nat) : Nat := bitsOf w.toNat hi lo

/-- The number that a little-endian byte string stands for (R2). -/
def leNat : List Byte → Nat
  | [] => 0
  | b :: bs => b.toNat + 256 * leNat bs

/-- The n little-endian bytes of x modulo 2^(8n) (R2). -/
def leBytes : Nat → Nat → List Byte
  | 0, _ => []
  | n + 1, x => BitVec.ofNat 8 x :: leBytes n (x / 256)

/-- The n bytes of p from offset off; bytes past its end count as zero. -/
def bytesAt (p : List Byte) (off n : Nat) : List Byte :=
  let q := (p.drop off).take n
  q ++ List.replicate (n - q.length) 0

/-- The unsigned n-byte field of p at offset off. -/
def uAt (p : List Byte) (off n : Nat) : Nat := leNat ((p.drop off).take n)

/-- The n-bit two's-complement number x as an integer. -/
def sInt (n x : Nat) : Int := if x % 2 ^ n < 2 ^ (n - 1) then (x % 2 ^ n : Nat) else (x % 2 ^ n : Nat) - (2 ^ n : Nat)

/-- An integer as an n-bit two's-complement number. -/
def toBits (n : Nat) (i : Int) : Nat := (i % (2 ^ n : Nat)).toNat

/-- Sign extension of an n-bit number to 64 bits. -/
def sext64 (n x : Nat) : Word := BitVec.ofInt 64 (sInt n x)

/-- Round up to a multiple of m. -/
def alignUp (x m : Nat) : Nat := (x + m - 1) / m * m

/-- ⌈x / m⌉. -/
def ceilDiv (x m : Nat) : Nat := (x + m - 1) / m

/-- Position of the highest one bit plus one; 0 for 0. -/
def bitLen (x : Nat) : Nat := if x = 0 then 0 else Nat.log2 x + 1

/-- How many of the low n bits of x are ones. -/
def popCount : Nat → Nat → Nat
  | 0, _ => 0
  | n + 1, x => x % 2 + popCount n (x / 2)

/-- The low n bits of x in reverse order. -/
def revBits : Nat → Nat → Nat
  | 0, _ => 0
  | n + 1, x => (x % 2) * 2 ^ n + revBits n (x / 2)

/-- Trailing zeros of an n-bit number; n for zero. -/
def ctzBits : Nat → Nat → Nat
  | 0, _ => 0
  | n + 1, x => if x % 2 = 1 then 0 else 1 + ctzBits n (x / 2)

/-- Saturating sum within n bits (the counters that a table calls saturating). -/
def satAdd (n x y : Nat) : Nat := min (x + y) (2 ^ n - 1)

/-- Integer square root of an argument below 2^(2n), bit by bit. -/
def isqrtAux (x : Nat) : Nat → Nat → Nat
  | 0, r => r
  | n + 1, r =>
    let t := r + 2 ^ n
    isqrtAux x n (if t * t ≤ x then t else r)

/-- The floor of the square root. -/
def isqrt (x : Nat) : Nat := isqrtAux x (bitLen x / 2 + 1) 0

/-- 0 or 1 for a Bool. -/
def b2n (b : Bool) : Nat := if b then 1 else 0

/-- The first check of a list that does not hold, by its answer: each entry pairs a condition that must hold with what is
answered where it does not. -/
def firstFail {α : Type} : List (Bool × α) → Option α
  | [] => none
  | (ok, a) :: cs => if ok then firstFail cs else some a

/-- The n bytes at byte offset o of a descriptor, as a number. -/
def dAt {k : Nat} (d : BitVec k) (o n : Nat) : Nat := d.toNat / 2 ^ (8 * o) % 2 ^ (8 * n)

end Sys2Proof.Machine
end

