-- ==== Sys2Proof/Machine/Codes.lean ====
section
/-! DEFINITION. The status codes of Tables 17.6 and 18.9 (R470) and the event codes with their classes of Tables 20.2
and 21.8 (R528). -/

namespace Sys2Proof.Machine

/-- A status code of Table 17.6 or Table 18.9. -/
inductive Status where
  | ok
  | acceptedDeferred
  | late
  | descFormat
  | accessDenied
  | addressRange
  | alignment
  | lockedWrite
  | tornDown
  | timeout
  | misclosure
  | opcodeUnknown
  | sequence
  | chartroomFailover
  | deferPending
  | reservedFull
  | deviceBusy
  | levelUnavailable
  | unmappedDevice
  | retry
  | targetLost
  | retryExhausted
  | regionDenied
  | memUe
  | scratchUe
  | generationMismatch
  | tableBusy
  | stepPassed
  | stepRetired
  | layerInvalid
  | epochInvalid
  | epochExhausted
  | epochBusy
  | keyOverflow
  | wrongOctant
  | rangeOverlap
  | poolExhausted
  | returnTimeout
  | batchCancelled
  | drainTimeout
  | poolOverlap
  | linkTableFull
  | poolBusy
  | poolAbsent
  | poolMode
  | poolEmpty
  | refcountOverflow
  | refcountUnderflow
  | badPointer
  | illegalOp
  | poisonUse
  | codeRange
  | matrixMode
  | sparseMeta
  | tileFormat
  | predOff
  | semNotHeld
  | swTrap
  | watchdogExpired
  | kernelAborted
  | semHoldExpired
  | saveAreaSmall
  | collectiveCore
  | trainingHalted
  | bucketExists
  | bucketOverlap
  | bucketTableFull
  | bucketBusy
  | bucketUnknown
  | raccFormat
  | raccRange
  | raccOverrun
  | groupExists
  | groupTableFull
  | groupUnknown
  | collectiveBusy
  | collectiveSeq
  | collectiveTimeout
  | treeExists
  | notParent
  | strictRequired
  | launchFar
  | launchFull
  | datumUnlocked
  | sheetExists
  | sheetShape
  | octantUnavailable
  | sheetBusy
  | contextExists
  | jobUnknown
  | noRoute
  | hopLimit
  | portDown
  | malformed
  | creditOverflow
  | badSequence
  | badMac
  | badControl
  | bufferUe
  | debugLocked
  | manifestAuth
  | manifestTarget
  | manifestRevoked
  | ownerAbsent
  | attestMismatch
  | jobExists
  | jobTableFull
  | peerUntrusted
  | keyAbsent
  | importAuth
  | tokenInvalid
  | debugConflict
  | partOrder
  deriving DecidableEq, Repr

/-- The number of a status code. -/
def Status.code : Status → Nat
  | .ok => 0x0000
  | .acceptedDeferred => 0x0001
  | .late => 0x0002
  | .descFormat => 0x0003
  | .accessDenied => 0x0004
  | .addressRange => 0x0005
  | .alignment => 0x0006
  | .lockedWrite => 0x0007
  | .tornDown => 0x0008
  | .timeout => 0x0009
  | .misclosure => 0x000A
  | .opcodeUnknown => 0x000B
  | .sequence => 0x000C
  | .chartroomFailover => 0x000D
  | .deferPending => 0x000E
  | .reservedFull => 0x000F
  | .deviceBusy => 0x0010
  | .levelUnavailable => 0x0011
  | .unmappedDevice => 0x0100
  | .retry => 0x0101
  | .targetLost => 0x0102
  | .retryExhausted => 0x0103
  | .regionDenied => 0x0104
  | .memUe => 0x0105
  | .scratchUe => 0x0106
  | .generationMismatch => 0x0107
  | .tableBusy => 0x0200
  | .stepPassed => 0x0201
  | .stepRetired => 0x0202
  | .layerInvalid => 0x0203
  | .epochInvalid => 0x0204
  | .epochExhausted => 0x0205
  | .epochBusy => 0x0206
  | .keyOverflow => 0x0207
  | .wrongOctant => 0x0208
  | .rangeOverlap => 0x0209
  | .poolExhausted => 0x020A
  | .returnTimeout => 0x020B
  | .batchCancelled => 0x020C
  | .drainTimeout => 0x020D
  | .poolOverlap => 0x0300
  | .linkTableFull => 0x0301
  | .poolBusy => 0x0302
  | .poolAbsent => 0x0303
  | .poolMode => 0x0304
  | .poolEmpty => 0x0305
  | .refcountOverflow => 0x0306
  | .refcountUnderflow => 0x0307
  | .badPointer => 0x0308
  | .illegalOp => 0x0400
  | .poisonUse => 0x0401
  | .codeRange => 0x0402
  | .matrixMode => 0x0403
  | .sparseMeta => 0x0404
  | .tileFormat => 0x0405
  | .predOff => 0x0406
  | .semNotHeld => 0x0407
  | .swTrap => 0x0408
  | .watchdogExpired => 0x0409
  | .kernelAborted => 0x040A
  | .semHoldExpired => 0x040B
  | .saveAreaSmall => 0x040C
  | .collectiveCore => 0x040D
  | .trainingHalted => 0x040E
  | .bucketExists => 0x0500
  | .bucketOverlap => 0x0501
  | .bucketTableFull => 0x0502
  | .bucketBusy => 0x0503
  | .bucketUnknown => 0x0504
  | .raccFormat => 0x0505
  | .raccRange => 0x0506
  | .raccOverrun => 0x0507
  | .groupExists => 0x0600
  | .groupTableFull => 0x0601
  | .groupUnknown => 0x0602
  | .collectiveBusy => 0x0603
  | .collectiveSeq => 0x0604
  | .collectiveTimeout => 0x0605
  | .treeExists => 0x0606
  | .notParent => 0x0607
  | .strictRequired => 0x0700
  | .launchFar => 0x0701
  | .launchFull => 0x0702
  | .datumUnlocked => 0x0703
  | .sheetExists => 0x0800
  | .sheetShape => 0x0801
  | .octantUnavailable => 0x0802
  | .sheetBusy => 0x0803
  | .contextExists => 0x0804
  | .jobUnknown => 0x0805
  | .noRoute => 0x0900
  | .hopLimit => 0x0901
  | .portDown => 0x0902
  | .malformed => 0x0903
  | .creditOverflow => 0x0904
  | .badSequence => 0x0905
  | .badMac => 0x0906
  | .badControl => 0x0907
  | .bufferUe => 0x0908
  | .debugLocked => 0x0A00
  | .manifestAuth => 0x0A01
  | .manifestTarget => 0x0A02
  | .manifestRevoked => 0x0A03
  | .ownerAbsent => 0x0A04
  | .attestMismatch => 0x0A05
  | .jobExists => 0x0A06
  | .jobTableFull => 0x0A07
  | .peerUntrusted => 0x0A08
  | .keyAbsent => 0x0A09
  | .importAuth => 0x0A0A
  | .tokenInvalid => 0x0A0B
  | .debugConflict => 0x0A0C
  | .partOrder => 0x0A0D

/-- Every status code. -/
def Status.all : List Status :=
  ([.ok, .acceptedDeferred, .late, .descFormat, .accessDenied, .addressRange, .alignment, .lockedWrite, .tornDown, .timeout] : List Status) ++
  ([.misclosure, .opcodeUnknown, .sequence, .chartroomFailover, .deferPending, .reservedFull, .deviceBusy, .levelUnavailable, .unmappedDevice, .retry] : List Status) ++
  ([.targetLost, .retryExhausted, .regionDenied, .memUe, .scratchUe, .generationMismatch, .tableBusy, .stepPassed, .stepRetired, .layerInvalid] : List Status) ++
  ([.epochInvalid, .epochExhausted, .epochBusy, .keyOverflow, .wrongOctant, .rangeOverlap, .poolExhausted, .returnTimeout, .batchCancelled, .drainTimeout] : List Status) ++
  ([.poolOverlap, .linkTableFull, .poolBusy, .poolAbsent, .poolMode, .poolEmpty, .refcountOverflow, .refcountUnderflow, .badPointer, .illegalOp] : List Status) ++
  ([.poisonUse, .codeRange, .matrixMode, .sparseMeta, .tileFormat, .predOff, .semNotHeld, .swTrap, .watchdogExpired, .kernelAborted] : List Status) ++
  ([.semHoldExpired, .saveAreaSmall, .collectiveCore, .trainingHalted, .bucketExists, .bucketOverlap, .bucketTableFull, .bucketBusy, .bucketUnknown, .raccFormat] : List Status) ++
  ([.raccRange, .raccOverrun, .groupExists, .groupTableFull, .groupUnknown, .collectiveBusy, .collectiveSeq, .collectiveTimeout, .treeExists, .notParent] : List Status) ++
  ([.strictRequired, .launchFar, .launchFull, .datumUnlocked, .sheetExists, .sheetShape, .octantUnavailable, .sheetBusy, .contextExists, .jobUnknown] : List Status) ++
  ([.noRoute, .hopLimit, .portDown, .malformed, .creditOverflow, .badSequence, .badMac, .badControl, .bufferUe, .debugLocked] : List Status) ++
  ([.manifestAuth, .manifestTarget, .manifestRevoked, .ownerAbsent, .attestMismatch, .jobExists, .jobTableFull, .peerUntrusted, .keyAbsent, .importAuth] : List Status) ++
  ([.tokenInvalid, .debugConflict, .partOrder] : List Status)

/-- The status that a number stands for; none for a reserved number. -/
def Status.ofCode (n : Nat) : Option Status := Status.all.find? fun s => s.code == n

/-- An event of Table 20.2 or Table 21.8. -/
inductive EventCode where
  | strictChanged
  | scratchCe
  | scratchUe
  | kernelFault
  | badRouteEntry
  | routerNonfinite
  | timeout
  | receiveMissing
  | listFull
  | returnTimeout
  | poolExhausted
  | poolLevel
  | badPointer
  | refcountUnderflow
  | hbmCe
  | hbmDegraded
  | hbmHot
  | hbmUe
  | hbmMarkFull
  | hbmFailed
  | spill
  | bucketComplete
  | bucketInvalid
  | bucketStalled
  | targetLost
  | retryExhausted
  | jobmapUnknownSource
  | swcDrop
  | portUp
  | portDown
  | linkViolation
  | portQuarantined
  | faultInject
  | gatewayVersion
  | gatewayPeerLost
  | chartroomFailover
  | collectiveFixed
  | collectiveTimeout
  | chunkCorrupt
  | orphaned
  | childLost
  | treeDone
  | ownerRefused
  | bootMismatch
  | peerUntrusted
  | frameAuthFail
  | linkAttestFail
  | debugState
  | powerThrottle
  | thermalThrottle
  | photonicHot
  | inputUndervolt
  | thermalTrip
  | overcurrent
  | datumFault
  | datumHoldover
  | contourMarginLow
  | contourDerate
  | contourRetrain
  | kernelWatchdog
  | semHoldExpired
  | stalledLayer
  | divergingLayer
  | trainingHalted
  | hachureLate
  | misclosure
  | teardownDone
  | descFormat
  | sramCe
  | sramUe
  | dieFailed
  | chartroomLost
  | sheetFailed
  | levelReached
  | bootStepFail
  | bootComplete
  | resetDone
  deriving DecidableEq, Repr

/-- The 16-bit code of an event: the block number above the index within the block. -/
def EventCode.code : EventCode → Nat
  | .strictChanged => 0x0000
  | .scratchCe => 0x0100
  | .scratchUe => 0x0101
  | .kernelFault => 0x0102
  | .badRouteEntry => 0x0300
  | .routerNonfinite => 0x0301
  | .timeout => 0x0600
  | .receiveMissing => 0x0601
  | .listFull => 0x0602
  | .returnTimeout => 0x0603
  | .poolExhausted => 0x0604
  | .poolLevel => 0x0700
  | .badPointer => 0x0701
  | .refcountUnderflow => 0x0702
  | .hbmCe => 0x0800
  | .hbmDegraded => 0x0801
  | .hbmHot => 0x0802
  | .hbmUe => 0x0803
  | .hbmMarkFull => 0x0804
  | .hbmFailed => 0x0805
  | .spill => 0x0900
  | .bucketComplete => 0x0901
  | .bucketInvalid => 0x0902
  | .bucketStalled => 0x0903
  | .targetLost => 0x0A00
  | .retryExhausted => 0x0A01
  | .jobmapUnknownSource => 0x0A02
  | .swcDrop => 0x0D00
  | .portUp => 0x0E00
  | .portDown => 0x0E01
  | .linkViolation => 0x0E02
  | .portQuarantined => 0x0E03
  | .faultInject => 0x0E04
  | .gatewayVersion => 0x0F00
  | .gatewayPeerLost => 0x0F01
  | .chartroomFailover => 0x1000
  | .collectiveFixed => 0x1001
  | .collectiveTimeout => 0x1002
  | .chunkCorrupt => 0x1003
  | .orphaned => 0x1004
  | .childLost => 0x1005
  | .treeDone => 0x1006
  | .ownerRefused => 0x1100
  | .bootMismatch => 0x1101
  | .peerUntrusted => 0x1102
  | .frameAuthFail => 0x1103
  | .linkAttestFail => 0x1104
  | .debugState => 0x1105
  | .powerThrottle => 0x1200
  | .thermalThrottle => 0x1201
  | .photonicHot => 0x1202
  | .inputUndervolt => 0x1203
  | .thermalTrip => 0x1204
  | .overcurrent => 0x1205
  | .datumFault => 0x1400
  | .datumHoldover => 0x1401
  | .contourMarginLow => 0x1500
  | .contourDerate => 0x1501
  | .contourRetrain => 0x1502
  | .kernelWatchdog => 0x1800
  | .semHoldExpired => 0x1801
  | .stalledLayer => 0x1900
  | .divergingLayer => 0x1901
  | .trainingHalted => 0x1902
  | .hachureLate => 0x1903
  | .misclosure => 0x1A00
  | .teardownDone => 0x1A01
  | .descFormat => 0x1A02
  | .sramCe => 0x1A03
  | .sramUe => 0x1A04
  | .dieFailed => 0x1A05
  | .chartroomLost => 0x1A06
  | .sheetFailed => 0x1A07
  | .levelReached => 0x0010
  | .bootStepFail => 0x0011
  | .bootComplete => 0x0012
  | .resetDone => 0x0013

/-- The first class that Table 20.2 or Table 21.8 names for the event: 0 notice, 1 corrected, 2 deferred, 3 fatal-to-job,
4 fatal-to-sheet, 5 fatal-to-device (Table 20.1). -/
def EventCode.baseClass : EventCode → Nat
  | .strictChanged => 0
  | .scratchCe => 1
  | .scratchUe => 2
  | .kernelFault => 2
  | .badRouteEntry => 2
  | .routerNonfinite => 2
  | .timeout => 2
  | .receiveMissing => 2
  | .listFull => 2
  | .returnTimeout => 2
  | .poolExhausted => 3
  | .poolLevel => 0
  | .badPointer => 2
  | .refcountUnderflow => 2
  | .hbmCe => 1
  | .hbmDegraded => 0
  | .hbmHot => 0
  | .hbmUe => 2
  | .hbmMarkFull => 2
  | .hbmFailed => 4
  | .spill => 0
  | .bucketComplete => 0
  | .bucketInvalid => 2
  | .bucketStalled => 2
  | .targetLost => 3
  | .retryExhausted => 2
  | .jobmapUnknownSource => 2
  | .swcDrop => 0
  | .portUp => 0
  | .portDown => 0
  | .linkViolation => 0
  | .portQuarantined => 0
  | .faultInject => 0
  | .gatewayVersion => 0
  | .gatewayPeerLost => 0
  | .chartroomFailover => 1
  | .collectiveFixed => 0
  | .collectiveTimeout => 2
  | .chunkCorrupt => 2
  | .orphaned => 2
  | .childLost => 2
  | .treeDone => 0
  | .ownerRefused => 0
  | .bootMismatch => 0
  | .peerUntrusted => 2
  | .frameAuthFail => 2
  | .linkAttestFail => 0
  | .debugState => 0
  | .powerThrottle => 0
  | .thermalThrottle => 0
  | .photonicHot => 0
  | .inputUndervolt => 0
  | .thermalTrip => 0
  | .overcurrent => 5
  | .datumFault => 2
  | .datumHoldover => 0
  | .contourMarginLow => 0
  | .contourDerate => 0
  | .contourRetrain => 0
  | .kernelWatchdog => 2
  | .semHoldExpired => 2
  | .stalledLayer => 2
  | .divergingLayer => 2
  | .trainingHalted => 2
  | .hachureLate => 2
  | .misclosure => 2
  | .teardownDone => 0
  | .descFormat => 0
  | .sramCe => 1
  | .sramUe => 2
  | .dieFailed => 4
  | .chartroomLost => 5
  | .sheetFailed => 4
  | .levelReached => 0
  | .bootStepFail => 2
  | .bootComplete => 0
  | .resetDone => 0

end Sys2Proof.Machine
end

