-- ==== Sys2Proof/Machine/Maps.lean ====
section
/-! DEFINITION. Tables keyed by plain data: association lists with at most one entry per key. -/

namespace Sys2Proof.Machine

/-- A table from keys to values. A key that is not listed has the default that its reader names. -/
abbrev Tbl (κ α : Type) := List (κ × α)

/-- The entry of key k. -/
def Tbl.find {κ α : Type} [DecidableEq κ] : Tbl κ α → κ → Option α
  | [], _ => none
  | (k', a) :: t, k => if k' = k then some a else Tbl.find t k

/-- The entry of key k, or d. -/
def Tbl.getD {κ α : Type} [DecidableEq κ] (t : Tbl κ α) (k : κ) (d : α) : α := (t.find k).getD d

/-- The table with key k's entry set to a. -/
def Tbl.put {κ α : Type} [DecidableEq κ] : Tbl κ α → κ → α → Tbl κ α
  | [], k, a => [(k, a)]
  | (k', b) :: t, k, a => if k' = k then (k, a) :: t else (k', b) :: Tbl.put t k a

/-- The table without key k. -/
def Tbl.del {κ α : Type} [DecidableEq κ] : Tbl κ α → κ → Tbl κ α
  | [], _ => []
  | (k', b) :: t, k => if k' = k then Tbl.del t k else (k', b) :: Tbl.del t k

/-- The table with key k's entry changed by f, where d stands for a missing entry. -/
def Tbl.upd {κ α : Type} [DecidableEq κ] (t : Tbl κ α) (k : κ) (d : α) (f : α → α) : Tbl κ α :=
  t.put k (f (t.getD k d))

/-- The table with f applied to key k's entry, if there is one. -/
def Tbl.adj {κ α : Type} [DecidableEq κ] : Tbl κ α → κ → (α → α) → Tbl κ α
  | [], _, _ => []
  | (k', b) :: t, k, f => if k' = k then (k', f b) :: t else (k', b) :: Tbl.adj t k f

/-- Whether key k is listed. -/
def Tbl.has {κ α : Type} [DecidableEq κ] (t : Tbl κ α) (k : κ) : Bool := (t.find k).isSome

/-- The keys, in order of entry. -/
def Tbl.keys {κ α : Type} (t : Tbl κ α) : List κ := t.map (·.1)

/-- The entries whose key and value satisfy p. -/
def Tbl.sel {κ α : Type} (t : Tbl κ α) (p : κ → α → Bool) : Tbl κ α := t.filter fun e => p e.1 e.2

/-- The values. -/
def Tbl.vals {κ α : Type} (t : Tbl κ α) : List α := t.map (·.2)

/-- Every value changed by f. -/
def Tbl.mapVals {κ α : Type} (t : Tbl κ α) (f : κ → α → α) : Tbl κ α := t.map fun e => (e.1, f e.1 e.2)

/-- The element at position i of a list replaced by a; a position past the end changes nothing. -/
def listSet {α : Type} : List α → Nat → α → List α
  | [], _, _ => []
  | _ :: t, 0, a => a :: t
  | x :: t, i + 1, a => x :: listSet t i a

/-- The least element of a list of numbers, if any. -/
def minOf : List Nat → Option Nat
  | [] => none
  | x :: xs => match minOf xs with
    | none => some x
    | some y => some (min x y)

/-- The sum of f over a list. -/
def sumOf {α : Type} (l : List α) (f : α → Nat) : Nat := l.foldl (fun n a => n + f a) 0

/-- The elements in ascending order of a key (a stable insertion sort). -/
def insertBy {α : Type} (key : α → Nat) (a : α) : List α → List α
  | [] => [a]
  | b :: l => if key a < key b then a :: b :: l else b :: insertBy key a l

/-- A list in ascending order of a key; equal keys keep their order. -/
def sortBy {α : Type} (key : α → Nat) (l : List α) : List α := l.foldl (fun acc a => insertBy key a acc) []

/-- A list without later repeats. -/
def dedup {α : Type} [DecidableEq α] : List α → List α
  | [] => []
  | a :: l => a :: (dedup l).filter (fun b => decide (b ≠ a))

/-- The last n elements. -/
def takeLast {α : Type} (n : Nat) (l : List α) : List α := l.drop (l.length - n)

end Sys2Proof.Machine
end

