-- ==== Sys2Proof/Machine/CoreState.lean ====
section
/-! DEFINITION. The state of one register context of an expert compute core and of its matrix array, movers and
quantizer (Tables 6.1 and 7.1, R173, R201, R218, R269). -/

namespace Sys2Proof.Machine

/-- The kind of an accumulator tile (R221): empty, column sum with its fraction bits f of Table 8.3, or FP32. -/
inductive AccKind where
  | empty
  | col (f : Nat)
  | fp32
  deriving DecidableEq, Repr

/-- An accumulator word: the 64-bit column sum or the FP32 value, and the special tag of R251. -/
structure AccWord where
  w : Word
  tag : Fin 4
  deriving DecidableEq, Repr

/-- An accumulator tile: its kind, the dense K it has accumulated (R250), and its words by 128 · row + column. A word that
is not listed is zero with tag 0. -/
structure AccTile where
  kind : AccKind
  kcount : Nat
  words : Tbl Nat AccWord
  deriving DecidableEq, Repr

def AccTile.fresh : AccTile := ⟨.empty, 0, []⟩
def AccWord.zero : AccWord := ⟨0, 0⟩

/-- A weight tile as loaded: its format (Table 7.10), sparsity mode, k_extent, its bytes, its metadata and its MX scales, and
the first metadata violation (weight, column, kind) of R188. -/
structure WTile where
  fmt : Nat
  sp : Nat
  kext : Nat
  data : List Byte
  metaB : List Byte
  scale : List Byte
  viol : Option (Nat × Nat × Nat)
  /-- the address of the WLD -/
  pc : Nat
  deriving DecidableEq, Repr

/-- An entry of the matrix queue (R218, Table 7.9), with the operand values read when it issued. -/
inductive MqEntry where
  | wld (fmt sp kext a b c : Nat)
  | mpass (fmt a stride c tile : Nat) (swap write transpose : Bool) (m : Nat)
  | accrd (d g : Nat) (exp : Int) (tile : Nat)
  | accz (tile : Nat)
  deriving DecidableEq, Repr

/-- A remote operation that an instruction issues (R223). -/
structure CoreRemote where
  op : Nat
  addr : Word
  size : Nat
  dreg : Option Nat
  scratch : Nat
  cacheable : Bool
  signExt : Bool
  data : List Byte
  atomic : Nat
  cmp : Word
  ret : Bool
  /-- why it fails as it issues: its local offset, or its scratchpad source, lies outside every window (R23), or an uncorrectable error in that source -/
  bad : Option Status
  deriving DecidableEq, Repr

/-- What holds a register context at an instruction. -/
inductive Blk where
  /-- WAITGE or WAITNE: the word's address, the bound, the register, the Datum limit (R227). -/
  | wait (addr : Nat) (b : Word) (ne : Bool) (d : Nat) (limit : Option Nat)
  /-- SACQ of a semaphore that another context holds (R228). -/
  | sacq (n : Nat)
  /-- SUBMIT until its store is acknowledged (R27, R229). -/
  | submit
  /-- MVI on a busy mover: the descriptor's scratchpad offset, the choice 0 to 4 and the register (R230). -/
  | mvi (off sel d : Nat)
  /-- MVWAIT (R230). -/
  | mvwait (mask : Nat)
  /-- FENCE, by the endpoint's fence number (R50). -/
  | fence (id d : Nat)
  /-- END waiting for movers and remote operations (R232); the fence number once the movers are idle. -/
  | ending (id : Option Nat)
  /-- A remote operation at the limit of 65,536 unacknowledged frames (R43). -/
  | issue (r : CoreRemote)
  deriving DecidableEq, Repr

/-- What a register context is doing. -/
inductive RunState where
  | idle
  | running
  | blocked (b : Blk)
  /-- Stopped by R233 or R372, draining movers and remote operations as END does. -/
  | draining (id : Option Nat) (st : Option Status)
  | ended (st : Option Status)
  deriving DecidableEq, Repr

/-- The kernel that a register context runs: its place, its code and the flags of its descriptor (Table 7.15). -/
structure CoreKernel where
  sheet : Nat
  ctxIdx : Nat
  job : Nat
  logical : Nat
  vindex : Nat
  vfirst : Nat
  codeAddr : Nat
  codeBytes : Nat
  softRemote : Bool
  predCfg : Nat
  reproj : Bool
  deriving DecidableEq, Repr

def CoreKernel.none : CoreKernel := ⟨0, 0, 0, 0, 0, 0, 0, 0, false, 0, false⟩

/-- One register context (Table 7.1) with its array state. Registers that are not listed hold zero; p0 and s0 are never
listed. `poison` lists the poisoned scalar registers (R207), `loading` those whose response is outstanding (R224). -/
structure CoreCtx where
  run : RunState
  kern : CoreKernel
  s : Tbl Nat Word
  poison : List Nat
  loading : List Nat
  v : Tbl Nat VReg
  p : Tbl Nat PReg
  pc : Nat
  fl : FFlags
  acc : Tbl Nat AccTile
  /-- The shadow tile, the tile being loaded, and the active tile of the array. -/
  shadow : Option WTile
  load : Option WTile
  active : Option WTile
  /-- the matrix queue: each entry with the address of its instruction -/
  mq : List (Nat × MqEntry)
  deriving DecidableEq, Repr

/-- Outside a kernel a register context holds nothing: every register is zero. -/
def CoreCtx.idle : CoreCtx :=
  ⟨.idle, CoreKernel.none, [], [], [], [], [], 0, 0, [], none, none, none, []⟩

/-- What an instruction comes to: its next context with the PC moved on, a fault (R233), or a stall, in which case it has
not issued and nothing has changed. -/
inductive CoreRes where
  | ok (x : CoreCtx)
  | fault (st : Status)
  | stall
  deriving DecidableEq, Repr

/-- A tile mover's operation: the descriptor, and the status once its effect is done. -/
structure MoverOp where
  desc : BitVec 512
  core : Nat
  done : Option Status
  deriving DecidableEq, Repr

/-- A quantizer's operation (R269): the descriptor, the home position of the virtual core that stored its offset and the kernel it ran,
and the status once the operation's effect is done. -/
structure QuantOp where
  desc : BitVec 512
  core : Nat
  kern : CoreKernel
  done : Option Status
  deriving DecidableEq, Repr

end Sys2Proof.Machine
end

