-- ==== Sys2Proof/Machine/Operands.lean ====
section
/-! DEFINITION. Operand forms. Part one, core instructions: the four layouts of Table 7.2, the checks of R208 and R209 and
the reading and writing of the registers of Table 7.1 with their poison (R207). -/

namespace Sys2Proof.Machine

/-- The fields of layout R. f holds bits [55:0] of the instruction; its opcode is the command's name. -/
def rD (f : BitVec 56) : Nat := fld f 55 50
def rA (f : BitVec 56) : Nat := fld f 49 44
def rB (f : BitVec 56) : Nat := fld f 43 38
def rC (f : BitVec 56) : Nat := fld f 37 32
def rPn (f : BitVec 56) : Bool := f.getLsbD 31
def rPr (f : BitVec 56) : Nat := fld f 30 28
def rFmt (f : BitVec 56) : Nat := fld f 27 24
def rX (f : BitVec 56) : Nat := fld f 23 0
/-- The fields of layout I that differ: x12 and imm32. -/
def iX12 (f : BitVec 56) : Nat := fld f 43 32
def iImm (f : BitVec 56) : Nat := fld f 31 0
/-- The fields of layout B: a in [55:50], b in [49:44], the reserved bits and off32. -/
def bA (f : BitVec 56) : Nat := fld f 55 50
def bB (f : BitVec 56) : Nat := fld f 49 44
def bResv (f : BitVec 56) : Nat := fld f 43 32
def bOff (f : BitVec 56) : Int := sInt 32 (fld f 31 0)
/-- The fields of layout L: hi, its reserved bit and imm48. -/
def lHi (f : BitVec 56) : Bool := f.getLsbD 49
def lResv (f : BitVec 56) : Bool := f.getLsbD 48
def lImm (f : BitVec 56) : Nat := fld f 47 0

/-- R208 and R209 for an R-form instruction that is not governed by a predicate: the register fields it does not use are
zero, so are pn, pr and fmt, and x has no bit outside xMask. -/
def rOk (f : BitVec 56) (d a b c : Bool) (xMask : Nat) : Bool :=
  (d || rD f == 0) && (a || rA f == 0) && (b || rB f == 0) && (c || rC f == 0) &&
  !rPn f && rPr f == 0 && rFmt f == 0 && (rX f &&& (2 ^ 24 - 1 - xMask)) == 0

/-- The value of scalar register n: s0 reads as zero (Table 7.1). -/
def CoreCtx.rs (x : CoreCtx) (n : Nat) : Word := if n = 0 then 0 else x.s.getD n 0

/-- A write of scalar register n: s0 discards it; the poison is cleared (R207), and a response still outstanding for the
register no longer writes it (program order, R203). -/
def CoreCtx.ws (x : CoreCtx) (n : Nat) (w : Word) : CoreCtx :=
  if n = 0 then x
  else { x with s := x.s.put n w, poison := x.poison.filter (· ≠ n), loading := x.loading.filter (· ≠ n) }

/-- A write of zero with poison (R214, R225). -/
def CoreCtx.wpoison (x : CoreCtx) (n : Nat) : CoreCtx :=
  if n = 0 then x else { x.ws n 0 with poison := n :: (x.ws n 0).poison }

/-- The value of vector register n. -/
def CoreCtx.rv (x : CoreCtx) (n : Nat) : VReg := x.v.getD n 0

/-- A write of vector register n. -/
def CoreCtx.wv (x : CoreCtx) (n : Nat) (w : VReg) : CoreCtx := { x with v := x.v.put n w }

/-- The value of predicate n: p0 reads as all ones. -/
def CoreCtx.rp (x : CoreCtx) (n : Nat) : PReg := if n = 0 then BitVec.allOnes 1024 else x.p.getD n 0

/-- A write of predicate n: p0 discards it. -/
def CoreCtx.wp (x : CoreCtx) (n : Nat) (w : PReg) : CoreCtx := if n = 0 then x else { x with p := x.p.put n w }

/-- FP flags are sticky (Table 7.1). -/
def CoreCtx.orFl (x : CoreCtx) (fl : FFlags) : CoreCtx := { x with fl := x.fl ||| fl }

/-- The PC moved to the next instruction. -/
def CoreCtx.adv (x : CoreCtx) : CoreCtx := { x with pc := x.pc + 8 }

/-- The gate in front of every instruction: ILLEGAL_OP where the encoding breaks R208 or R209; a stall while an operand's
response is outstanding (R224); POISON_USE where an operand is poisoned (R207). -/
def gate (legal : Bool) (srcs : List Nat) (k : CoreCtx → CoreRes) (x : CoreCtx) : CoreRes :=
  if !legal then .fault .illegalOp
  else if srcs.any (fun n => x.loading.contains n) then .stall
  else if srcs.any (fun n => x.poison.contains n) then .fault .poisonUse
  else k x

/-- The vector registers that a queued ACCRD has still to write. -/
def CoreCtx.vPending (x : CoreCtx) : List Nat :=
  x.mq.filterMap fun e => match e.2 with
    | .accrd d _ _ _ => some d
    | _ => none

/-- A vector register field uses bits [4:0], and bit 5 is zero (R208); a predicate field names p0 to p7. -/
def vOk (n : Nat) : Bool := decide (n < 32)
def pOk (n : Nat) : Bool := decide (n < 8)

/-- The gate in front of a vector instruction: as `gate`, and a stall while a vector register it names waits for an ACCRD
(R203: the results are those of program order). -/
def vgate (legal : Bool) (srcs vregs : List Nat) (k : CoreCtx → CoreRes) (x : CoreCtx) : CoreRes :=
  gate legal srcs (fun x => if vregs.any (fun n => x.vPending.contains n) then .stall else k x) x

end Sys2Proof.Machine
end

