-- ==== Sys2Proof/Machine/Float.lean ====
section
/-! DEFINITION. The floating-point formats of Table 8.1, rounding (R245), conversions (R246, Table 8.2), the arithmetic of
R211 and R216 and the exact accumulate word of R257 to R259. Values are exact (a sign, a whole number and a power of
two); each operation computes exactly and rounds once. -/

namespace Sys2Proof.Machine

/-- What an encoding stands for: a NaN (signalling or quiet), an infinity, or (-1)^neg · m · 2^e (a zero has m = 0). -/
inductive FVal where
  | nan (sig : Bool)
  | inf (neg : Bool)
  | fin (neg : Bool) (m : Nat) (e : Int)
  deriving DecidableEq, Repr

/-- Which top encodings are special: infinities and NaNs; one NaN and no infinity (E4M3); none (FP6, FP4). -/
inductive FSpecial where
  | ieee | nanOnly | none
  deriving DecidableEq, Repr

/-- A row of Table 8.1. -/
structure FFmt where
  ebits : Nat
  mbits : Nat
  bias : Nat
  special : FSpecial
  deriving DecidableEq, Repr

def fp32 : FFmt := ⟨8, 23, 127, .ieee⟩
def bf16 : FFmt := ⟨8, 7, 127, .ieee⟩
def fp16 : FFmt := ⟨5, 10, 15, .ieee⟩
def e4m3 : FFmt := ⟨4, 3, 7, .nanOnly⟩
def e5m2 : FFmt := ⟨5, 2, 15, .ieee⟩
def e2m3 : FFmt := ⟨2, 3, 1, .none⟩
def e3m2 : FFmt := ⟨3, 2, 3, .none⟩
def e2m1 : FFmt := ⟨2, 1, 1, .none⟩

/-- The bits of an element of the format. -/
def FFmt.width (f : FFmt) : Nat := 1 + f.ebits + f.mbits

/-- FP flags of R245 and Table 7.1. -/
def flInvalid : FFlags := 1#5
def flDivZero : FFlags := 2#5
def flOverflow : FFlags := 4#5
def flUnderflow : FFlags := 8#5
def flInexact : FFlags := 16#5

/-- What an element stands for (R240, R241: a NaN whose top significand bit is 0 is signalling). -/
def FFmt.decode (f : FFmt) (x : Nat) : FVal :=
  let m := bitsOf x (f.mbits - 1) 0
  let e := bitsOf x (f.mbits + f.ebits - 1) f.mbits
  let neg := bitOf x (f.mbits + f.ebits)
  let top := 2 ^ f.ebits - 1
  if e = top ∧ f.special = .ieee then
    if m = 0 then .inf neg else .nan (m < 2 ^ (f.mbits - 1))
  else if e = top ∧ f.special = .nanOnly ∧ m = 2 ^ f.mbits - 1 then .nan false
  else if e = 0 then .fin neg m (1 - (f.bias : Int) - f.mbits)
  else .fin neg (2 ^ f.mbits + m) ((e : Int) - f.bias - f.mbits)

/-- The canonical quiet NaN of the format (R241); formats without NaN give +0 (Table 8.2). -/
def FFmt.qnan (f : FFmt) : Nat :=
  match f.special with
  | .ieee => (2 ^ f.ebits - 1) * 2 ^ f.mbits + 2 ^ (f.mbits - 1)
  | .nanOnly => 2 ^ (f.ebits + f.mbits) - 1
  | .none => 0

/-- The exponent field and significand field of the largest finite value. -/
def FFmt.maxField (f : FFmt) : Nat × Nat :=
  match f.special with
  | .ieee => (2 ^ f.ebits - 2, 2 ^ f.mbits - 1)
  | .nanOnly => (2 ^ f.ebits - 1, 2 ^ f.mbits - 2)
  | .none => (2 ^ f.ebits - 1, 2 ^ f.mbits - 1)

/-- An element from its sign, exponent field and significand field. -/
def FFmt.pack (f : FFmt) (neg : Bool) (e m : Nat) : Nat := b2n neg * 2 ^ (f.ebits + f.mbits) + e * 2 ^ f.mbits + m

/-- The largest finite value with a sign. -/
def FFmt.maxFin (f : FFmt) (neg : Bool) : Nat := f.pack neg f.maxField.1 f.maxField.2

/-- Infinity with a sign, in a format that has it. -/
def FFmt.infBits (f : FFmt) (neg : Bool) : Nat := f.pack neg (2 ^ f.ebits - 1) 0

/-- Zero with a sign. -/
def FFmt.zero (f : FFmt) (neg : Bool) : Nat := f.pack neg 0 0

/-- m / 2^k rounded to nearest, ties to even; sticky says that the exact value lies strictly above m and below m + 1.
The second component says that the result is inexact. -/
def rneShift (m k : Nat) (sticky : Bool) : Nat × Bool :=
  if k = 0 then (m, sticky)
  else
    let q := m / 2 ^ k
    let r := m % 2 ^ k
    let half := 2 ^ (k - 1)
    let up := decide (r > half) || (decide (r = half) && (sticky || q % 2 == 1))
    (if up then q + 1 else q, sticky || decide (r ≠ 0))

/-- m · 2^(-k) for an integer k, rounded as `rneShift` does. -/
def rneScale (m : Nat) (k : Int) (sticky : Bool) : Nat × Bool :=
  if k ≤ 0 then (m * 2 ^ (-k).toNat, sticky) else rneShift m k.toNat sticky

/-- (-1)^neg · m · 2^e rounded RNE to the format (R245: as if the exponent range were unbounded, then handled for overflow;
underflow is detected after rounding). `sat` says that overflow gives the largest finite value and not an infinity
(Table 8.2). With sticky, the magnitude lies strictly between m and m + 1 units, and m must have some bits to spare. -/
def roundFin (f : FFmt) (sat neg : Bool) (m : Nat) (e : Int) (sticky : Bool) : Nat × FFlags :=
  if m = 0 then (f.zero neg, if sticky then flUnderflow ||| flInexact else 0)
  else
    let p : Nat := f.mbits + 1
    let emin : Int := 1 - (f.bias : Int)
    let e0 : Int := e + bitLen m - 1
    let u := rneScale m (e0 - (p - 1 : Nat) - e) sticky
    let eu := if u.1 = 2 ^ p then e0 + 1 else e0
    let tiny := decide (eu < emin)
    let q : Int := max (e0 - (p - 1 : Nat)) (emin - (p - 1 : Nat))
    let r := rneScale m (q - e) sticky
    let n := if r.1 = 2 ^ p then 2 ^ (p - 1) else r.1
    let q' := if r.1 = 2 ^ p then q + 1 else q
    let ef : Int := if n < 2 ^ (p - 1) then 0 else q' + (p - 1 : Nat) + f.bias
    let mf := n % 2 ^ (p - 1)
    if ef > f.maxField.1 ∨ (ef = f.maxField.1 ∧ mf > f.maxField.2) then
      (if sat || f.special ≠ .ieee then f.maxFin neg else f.infBits neg, flOverflow ||| flInexact)
    else
      (f.pack neg ef.toNat mf,
        (if r.2 then flInexact else 0) ||| (if tiny && r.2 then flUnderflow else 0))

/-- A value rounded RNE into a format with infinities. -/
def roundVal (f : FFmt) : FVal → Nat × FFlags
  | .nan sig => (f.qnan, if sig then flInvalid else 0)
  | .inf neg => (f.infBits neg, 0)
  | .fin neg m e => roundFin f false neg m e false

/-- A value times 2^k, exactly. The exponent is held within ±8192, beyond which every target of Table 8.2 gives the same. -/
def FVal.scale (v : FVal) (k : Int) : FVal :=
  match v with
  | .fin neg m e => .fin neg m (e + max (-8192) (min 8192 k))
  | v => v

/-- An integer as a value. -/
def FVal.ofInt (i : Int) : FVal := .fin (decide (i < 0)) i.natAbs 0

/-- The signed whole number of units 2^e that a finite value holds, for an e no greater than its own exponent. -/
def unitsAt (neg : Bool) (m : Nat) (e : Int) (e' : Int) : Int :=
  let u : Int := (m * 2 ^ (e - e').toNat : Nat)
  if neg then -u else u

/-- The exact sum of two finite values (R241, IEEE 754-2019: an exact zero sum is +0 unless both are negative zeros). -/
def addFin (n1 : Bool) (m1 : Nat) (e1 : Int) (n2 : Bool) (m2 : Nat) (e2 : Int) : FVal :=
  if m1 = 0 ∧ m2 = 0 then .fin (n1 && n2) 0 0
  else if m1 = 0 then .fin n2 m2 e2
  else if m2 = 0 then .fin n1 m1 e1
  else
    let e := min e1 e2
    let s := unitsAt n1 m1 e1 e + unitsAt n2 m2 e2 e
    if s = 0 then .fin false 0 0 else .fin (decide (s < 0)) s.natAbs e

/-- The exact sum of two values, with the invalid flag of ∞ − ∞ and of a signalling NaN. -/
def addVal : FVal → FVal → FVal × FFlags
  | .nan s1, .nan s2 => (.nan false, if s1 || s2 then flInvalid else 0)
  | .nan s, _ => (.nan false, if s then flInvalid else 0)
  | _, .nan s => (.nan false, if s then flInvalid else 0)
  | .inf a, .inf b => if a = b then (.inf a, 0) else (.nan false, flInvalid)
  | .inf a, _ => (.inf a, 0)
  | _, .inf b => (.inf b, 0)
  | .fin n1 m1 e1, .fin n2 m2 e2 => (addFin n1 m1 e1 n2 m2 e2, 0)

/-- The exact product of two values, with the invalid flag of 0 × ∞ and of a signalling NaN. -/
def mulVal : FVal → FVal → FVal × FFlags
  | .nan s1, .nan s2 => (.nan false, if s1 || s2 then flInvalid else 0)
  | .nan s, _ => (.nan false, if s then flInvalid else 0)
  | _, .nan s => (.nan false, if s then flInvalid else 0)
  | .inf a, .inf b => (.inf (xor a b), 0)
  | .inf a, .fin b m _ => if m = 0 then (.nan false, flInvalid) else (.inf (xor a b), 0)
  | .fin a m _, .inf b => if m = 0 then (.nan false, flInvalid) else (.inf (xor a b), 0)
  | .fin n1 m1 e1, .fin n2 m2 e2 => (.fin (xor n1 n2) (m1 * m2) (e1 + e2), 0)

/-- The value with its sign inverted. -/
def FVal.neg : FVal → FVal
  | .nan s => .nan s
  | .inf a => .inf (!a)
  | .fin a m e => .fin (!a) m e

/-- Whether a value is a NaN. -/
def FVal.isNan : FVal → Bool
  | .nan _ => true
  | _ => false

/-- Whether a value is a signalling NaN. -/
def FVal.isSig : FVal → Bool
  | .nan s => s
  | _ => false

/-- Whether a value is a zero. -/
def FVal.isZero : FVal → Bool
  | .fin _ m _ => m == 0
  | _ => false

/-- The sign. -/
def FVal.sign : FVal → Bool
  | .nan _ => false
  | .inf a => a
  | .fin a _ _ => a

/-- a + b, a − b, a × b and a × b + c in one format, each rounded once (R211, R216). -/
def fAdd (f : FFmt) (a b : Nat) : Nat × FFlags :=
  let r := addVal (f.decode a) (f.decode b)
  let q := roundVal f r.1
  (q.1, r.2 ||| q.2)
def fSub (f : FFmt) (a b : Nat) : Nat × FFlags :=
  let r := addVal (f.decode a) (f.decode b).neg
  let q := roundVal f r.1
  (q.1, r.2 ||| q.2)
def fMul (f : FFmt) (a b : Nat) : Nat × FFlags :=
  let r := mulVal (f.decode a) (f.decode b)
  let q := roundVal f r.1
  (q.1, r.2 ||| q.2)
/-- One rounding. A quiet NaN input sets no flag (R241), so 0 × ∞ beside a quiet NaN c sets none. -/
def fFma (f : FFmt) (a b c : Nat) : Nat × FFlags :=
  let c := f.decode c
  if c.isNan then
    (f.qnan, if (f.decode a).isSig || (f.decode b).isSig || c.isSig then flInvalid else 0)
  else
    let p := mulVal (f.decode a) (f.decode b)
    let r := addVal p.1 c
    let q := roundVal f r.1
    (q.1, p.2 ||| r.2 ||| q.2)

/-- The order of two values that are not NaNs: their difference is negative, zero or positive. -/
def cmpVal : FVal → FVal → Ordering
  | .inf a, .inf b => if a = b then .eq else if a then .lt else .gt
  | .inf a, _ => if a then .lt else .gt
  | _, .inf b => if b then .gt else .lt
  | .fin n1 m1 e1, .fin n2 m2 e2 =>
    let e := min e1 e2
    compare (unitsAt n1 m1 e1 e) (unitsAt n2 m2 e2 e)
  | _, _ => .eq

/-- IEEE 754-2019 minimum and maximum (Table 7.4): a NaN propagates as the canonical quiet NaN, and −0 < +0. -/
def fMinMax (f : FFmt) (isMax : Bool) (a b : Nat) : Nat × FFlags :=
  let x := f.decode a
  let y := f.decode b
  if x.isNan || y.isNan then (f.qnan, if x.isSig || y.isSig then flInvalid else 0)
  else
    let less := match cmpVal x y with
      | .lt => true
      | .gt => false
      | .eq => x.sign && !y.sign
    (if less = isMax then b else a, 0)

/-- The comparisons of Table 7.4: 0 EQ, 1 LT, 2 LE, 3 UNORD. -/
def fCmp (f : FFmt) (k : Nat) (a b : Nat) : Bool × FFlags :=
  let x := f.decode a
  let y := f.decode b
  let fl := if x.isSig || y.isSig then flInvalid else (0 : FFlags)
  if x.isNan || y.isNan then (k == 3, fl)
  else
    (match k, cmpVal x y with
      | 0, .eq => true
      | 1, .lt => true
      | 2, .lt => true
      | 2, .eq => true
      | _, _ => false, fl)

/-- A finite magnitude m · 2^e as an integer, truncated toward zero; the flag says that something was lost. The exponent is
held at 200, beyond which every integer target saturates. -/
def truncMag (m : Nat) (e : Int) : Nat × Bool :=
  if e ≥ 0 then (m * 2 ^ (min e 200).toNat, false)
  else (m / 2 ^ (-e).toNat, decide (m % 2 ^ (-e).toNat ≠ 0))

/-- A value as an n-bit two's-complement integer: truncated or RNE; out of range gives the nearest bound with invalid, a NaN
gives 0 with invalid (Table 8.2, R211). -/
def toInt (n : Nat) (trunc : Bool) : FVal → Int × FFlags
  | .nan _ => (0, flInvalid)
  | .inf neg => (if neg then -(2 ^ (n - 1) : Nat) else (2 ^ (n - 1) : Nat) - 1, flInvalid)
  | .fin neg m e =>
    let r := if trunc then truncMag m e else if e ≥ 0 then truncMag m e else rneScale m (-e) false
    let v : Int := if neg then -(r.1 : Int) else r.1
    if v < -(2 ^ (n - 1) : Nat) then (-(2 ^ (n - 1) : Nat), flInvalid)
    else if v > (2 ^ (n - 1) : Nat) - 1 then ((2 ^ (n - 1) : Nat) - 1, flInvalid)
    else (v, if r.2 then flInexact else 0)

/-- An FP32 value converted to a format of Table 8.1 (Table 8.2): FP32, BF16 and FP16 overflow to infinity, the OFP8, FP6
and FP4 types saturate. -/
def cvtFp (f : FFmt) (v : FVal) : Nat × FFlags :=
  match v with
  | .nan sig =>
    match f.special with
    | .none => (0, flInvalid)
    | _ => (f.qnan, if sig then flInvalid else 0)
  | .inf neg =>
    match f.special with
    | .ieee => (f.infBits neg, 0)
    | _ => (f.maxFin neg, flOverflow)
  | .fin neg m e => roundFin f (f.width < 16) neg m e false

/-- The exact accumulate word (R257): the 319-bit sum in units of 2^-149, or a code. -/
inductive Eaw where
  | code (c : Fin 4)
  | sum (v : Int)
  deriving DecidableEq, Repr

/-- A fresh EAW has special 1 and code 0 (R257). -/
def Eaw.fresh : Eaw := .code 0

/-- One contribution (Table 8.6). -/
def Eaw.add (w : Eaw) (x : FVal) : Eaw :=
  match x, w with
  | .nan _, _ => .code 3
  | .inf neg, .code c => if c = 0 then .code (if neg then 2 else 1)
      else if c = 3 then .code 3
      else if c = (if neg then 2 else 1) then .code c else .code 3
  | .inf neg, .sum _ => .code (if neg then 2 else 1)
  | .fin neg m e, .code c => if c ≠ 0 then .code c else if neg && m == 0 then .code 0
      else .sum (unitsAt neg m e (-149))
  | .fin neg m e, .sum v => if neg && m == 0 then .sum v else .sum (v + unitsAt neg m e (-149))

/-- The rounding at completion (R259). -/
def Eaw.round (f : FFmt) : Eaw → Nat × FFlags
  | .code c => if c = 0 then (f.zero true, 0) else if c = 1 then (f.infBits false, 0)
      else if c = 2 then (f.infBits true, 0) else (f.qnan, 0)
  | .sum v => roundFin f false (decide (v < 0)) v.natAbs (-149) false

/-- The 320-bit layout of Table 8.5. -/
def Eaw.toBits : Eaw → Nat
  | .code c => 2 ^ 319 + c.val
  | .sum v => Machine.toBits 319 v

end Sys2Proof.Machine
end

