-- ==== Sys2Proof/Machine/Transcend.lean ====
section
/-! DEFINITION. The transcendental functions of R256 (the FP32 value nearest the exact result) and the T28 algorithms of
R262 and R263.

Each function is computed in fixed point with 400 fraction bits and rounded once. The result of such a function at an FP32
value other than those of Table 8.4 and the exact points log 1 and powers of two is never an FP32 value nor a midpoint of
two, so the computed magnitude is rounded as lying strictly above its last bit. PRESUMED (log 13): 400 bits decide every
rounding; the spec gives the result and no algorithm. -/

namespace Sys2Proof.Machine

/-- The fraction bits of the fixed-point numbers below. -/
def fxP : Nat := 400

/-- The natural logarithm of 2, and 2 over the square root of pi, times 2^400. -/
def fxLn2 : Nat := 1789879222497203190815761498240779176894896805856420935579692301363062920687047601279850318367644315849030039181347319086
def fxErfC : Nat := 2913756966668194800300214067270034030186276855045544562015353861004409627435460814446341471088463227900768995815277951550

/-- m · 2^e as a fixed-point number, truncated. -/
def fxOf (m : Nat) (e : Int) : Nat :=
  if e + fxP ≥ 0 then m * 2 ^ (e + fxP).toNat else m / 2 ^ (-(e + fxP)).toNat

/-- The series of e^r: t is the n-th term. -/
def fxExpAux (r : Nat) : Nat → Nat → Nat → Nat → Nat
  | 0, _, _, acc => acc
  | k + 1, n, t, acc => fxExpAux r k (n + 1) (t * r / 2 ^ fxP / (n + 1)) (acc + t)

/-- e^r for a fixed-point r from 0 to ln 2. -/
def fxExp (r : Nat) : Nat := fxExpAux r 100 0 (2 ^ fxP) 0

/-- e^(±m · 2^e) as (m', e'), for a magnitude of at most 512. -/
def fxExpVal (neg : Bool) (m : Nat) (e : Int) : Nat × Int :=
  let x : Int := if neg then -(fxOf m e : Int) - 1 else fxOf m e
  let k : Int := x / (fxLn2 : Int)
  let r := (x - k * fxLn2).toNat
  (fxExp r, k - fxP)

/-- The odd series of 2 artanh z: p is z^(2n+1). -/
def fxLogAux (z2 : Int) : Nat → Nat → Int → Int → Int
  | 0, _, _, acc => acc
  | k + 1, n, p, acc => fxLogAux z2 k (n + 1) (p * z2 / (2 ^ fxP : Nat)) (acc + 2 * p / (2 * n + 1 : Nat))

/-- ln (m · 2^e) as a signed fixed-point number, m not zero. -/
def fxLog (m : Nat) (e : Int) : Int :=
  let l := bitLen m
  let up := decide (2 * m > 3 * 2 ^ (l - 1))
  let one := if up then 2 ^ l else 2 ^ (l - 1)
  let k : Int := e + l - 1 + (if up then 1 else 0)
  let z : Int := ((m : Int) - one) * (2 ^ fxP : Nat) / (m + one : Nat)
  k * fxLn2 + fxLogAux (z * z / (2 ^ fxP : Nat)) 160 0 z 0

/-- The alternating series of erf without its factor: t is x^(2n+1)/n!. -/
def fxErfAux (x2 : Nat) : Nat → Nat → Nat → Int → Int
  | 0, _, _, acc => acc
  | k + 1, n, t, acc =>
    let d : Int := (t / (2 * n + 1) : Nat)
    fxErfAux x2 k (n + 1) (t * x2 / 2 ^ fxP / (n + 1)) (if n % 2 = 0 then acc + d else acc - d)

/-- The magnitude of a finite value is at least 2^k. -/
def magGe (m : Nat) (e : Int) (k : Int) : Bool := decide (m ≠ 0) && decide ((bitLen m : Int) + e - 1 ≥ k)

/-- A positive value just below 1, and one far below the least subnormal. -/
def justBelowOne : Nat × Int := (2 ^ 200 - 1, -200)
def farBelow : Nat × Int := (2 ^ 40, -1040)

/-- A magnitude strictly above its last bit, rounded to FP32. -/
def roundSticky (neg : Bool) (p : Nat × Int) : Nat × FFlags := roundFin fp32 false neg p.1 p.2 true

/-- The transcendental functions of Table 7.8. -/
inductive TFun where
  | exp | log | rcp | rsqrt | sqrt | sigm | tanh | erf
  deriving DecidableEq, Repr

def fp32One : Nat := 0x3F800000
def fp32Half : Nat := 0x3F000000

def tExp : FVal → Nat × FFlags
  | .nan s => (fp32.qnan, if s then flInvalid else 0)
  | .inf neg => (if neg then 0 else fp32.infBits false, 0)
  | .fin neg m e =>
    if m = 0 then (fp32One, 0)
    else if magGe m e 9 then roundSticky false (if neg then farBelow else (2 ^ 40, 1000))
    else roundSticky false (fxExpVal neg m e)

def tLog : FVal → Nat × FFlags
  | .nan s => (fp32.qnan, if s then flInvalid else 0)
  | .inf neg => if neg then (fp32.qnan, flInvalid) else (fp32.infBits false, 0)
  | .fin neg m e =>
    if m = 0 then (fp32.infBits true, flDivZero)
    else if neg then (fp32.qnan, flInvalid)
    else if m = 2 ^ (bitLen m - 1) ∧ e + bitLen m - 1 = 0 then (0, 0)
    else
      let r := fxLog m e
      roundSticky (decide (r < 0)) (r.natAbs, -(fxP : Int))

def tRcp : FVal → Nat × FFlags
  | .nan s => (fp32.qnan, if s then flInvalid else 0)
  | .inf neg => (fp32.zero neg, 0)
  | .fin neg m e =>
    if m = 0 then (fp32.infBits neg, flDivZero)
    else
      let q := 2 ^ 200 / m
      roundFin fp32 false neg q (-200 - e) (decide (q * m ≠ 2 ^ 200))

/-- The square root of m · 2^e, and of its reciprocal, as a magnitude with a sticky flag. -/
def sqrtMag (m : Nat) (e : Int) : Nat × Int × Bool :=
  let odd := e % 2 ≠ 0
  let m' := (if odd then 2 * m else m) * 2 ^ 200
  let e' := (if odd then e - 1 else e) - 200
  let r := isqrt m'
  (r, e' / 2, decide (r * r ≠ m'))
def rsqrtMag (m : Nat) (e : Int) : Nat × Int × Bool :=
  let odd := e % 2 ≠ 0
  let m' := if odd then 2 * m else m
  let e' := if odd then e - 1 else e
  let r := isqrt (2 ^ 300 / m')
  (r, -150 - e' / 2, decide (r * r * m' ≠ 2 ^ 300))

def tRsqrt : FVal → Nat × FFlags
  | .nan s => (fp32.qnan, if s then flInvalid else 0)
  | .inf neg => if neg then (fp32.qnan, flInvalid) else (0, 0)
  | .fin neg m e =>
    if m = 0 then (fp32.infBits neg, flDivZero)
    else if neg then (fp32.qnan, flInvalid)
    else
      let r := rsqrtMag m e
      roundFin fp32 false false r.1 r.2.1 r.2.2

def tSqrt : FVal → Nat × FFlags
  | .nan s => (fp32.qnan, if s then flInvalid else 0)
  | .inf neg => if neg then (fp32.qnan, flInvalid) else (fp32.infBits false, 0)
  | .fin neg m e =>
    if m = 0 then (fp32.zero neg, 0)
    else if neg then (fp32.qnan, flInvalid)
    else
      let r := sqrtMag m e
      roundFin fp32 false false r.1 r.2.1 r.2.2

def tSigm : FVal → Nat × FFlags
  | .nan s => (fp32.qnan, if s then flInvalid else 0)
  | .inf neg => (if neg then 0 else fp32One, 0)
  | .fin neg m e =>
    if m = 0 then (fp32Half, 0)
    else if magGe m e 8 then roundSticky false (if neg then farBelow else justBelowOne)
    else
      let t := fxExpVal true m e
      -- t = e^(-|x|); 1 / (1 + t) or t / (1 + t)
      let one := 2 ^ (-t.2).toNat
      let num := if neg then t.1 else one
      roundSticky false (num * 2 ^ 300 / (one + t.1), -300)

def tTanh : FVal → Nat × FFlags
  | .nan s => (fp32.qnan, if s then flInvalid else 0)
  | .inf neg => (fp32.pack neg 127 0, 0)
  | .fin neg m e =>
    if m = 0 then (fp32.zero neg, 0)
    else if magGe m e 6 then roundSticky neg justBelowOne
    else if magGe m e (-60) then
      let t := fxExpVal true (2 * m) e
      let one := 2 ^ (-t.2).toNat
      roundSticky neg ((one - t.1) * 2 ^ 300 / (one + t.1), -300)
    else roundSticky neg (m * 2 ^ 100 - 1, e - 100)

def tErf : FVal → Nat × FFlags
  | .nan s => (fp32.qnan, if s then flInvalid else 0)
  | .inf neg => (fp32.pack neg 127 0, 0)
  | .fin neg m e =>
    if m = 0 then (fp32.zero neg, 0)
    else if magGe m e 3 then roundSticky neg justBelowOne
    else if magGe m e (-60) then
      let x := fxOf m e
      let s := fxErfAux (x * x / 2 ^ fxP) 500 0 x 0
      roundSticky neg (s.toNat * fxErfC / 2 ^ fxP, -(fxP : Int))
    else roundSticky neg (m * fxErfC, e - fxP)

/-- R256, Table 8.4. -/
def tEval (g : TFun) (x : Nat) : Nat × FFlags :=
  let v := fp32.decode x
  match g with
  | .exp => tExp v
  | .log => tLog v
  | .rcp => tRcp v
  | .rsqrt => tRsqrt v
  | .sqrt => tSqrt v
  | .sigm => tSigm v
  | .tanh => tTanh v
  | .erf => tErf v

/-- A signed fixed-point number rounded RNE to FP32. -/
def rneFx (v : Int) (e : Int) : Nat := (roundFin fp32 false (decide (v < 0)) v.natAbs e false).1

/-- The constants of R262. -/
def c28C64 : Nat := (roundFin fp32 false false (64 * 2 ^ 700 / fxLn2) (-300) true).1
def c28H : Nat := rneFx fxLn2 (-406)
def c28LO : Nat :=
  match fp32.decode c28H with
  | .fin _ m e => rneFx ((fxLn2 : Int) - m * 2 ^ (e + 406).toNat) (-406)
  | _ => 0
def c28C3 : Nat := (roundFin fp32 false false (2 ^ 200 / 6) (-200) true).1

/-- T[j] of R262: the FP32 value nearest 2^(j/64). -/
def c28T (j : Nat) : Nat :=
  if j = 0 then fp32One else (roundFin fp32 false false (fxExp (j * fxLn2 / 64)) (-(fxP : Int)) true).1

/-- An FP32 value as the nearest integer, ties to even. -/
def rneInt (x : Nat) : Int :=
  match fp32.decode x with
  | .fin neg m e =>
    let n : Int := (if e ≥ 0 then m * 2 ^ e.toNat else (rneScale m (-e) false).1 : Nat)
    if neg then -n else n
  | _ => 0

/-- An integer as FP32. -/
def fp32OfInt (i : Int) : Nat := (roundVal fp32 (FVal.ofInt i)).1

def fp32Neg (x : Nat) : Nat := if x ≥ 2 ^ 31 then x - 2 ^ 31 else x + 2 ^ 31

/-- exp28 of R262. -/
def exp28 (x : Nat) : Nat × FFlags :=
  let v := fp32.decode x
  if v.isNan then (fp32.qnan, if v.isSig then flInvalid else 0)
  else if cmpVal v (.fin false 89 0) = .gt then (fp32.infBits false, flOverflow ||| flInexact)
  else if cmpVal v (.fin true 104 0) = .lt then (0, flUnderflow ||| flInexact)
  else
    let y := fMul fp32 x c28C64
    let m := rneInt y.1
    let j := (m % 64).toNat
    let e := (m - j) / 64
    let nm := fp32Neg (fp32OfInt m)
    let r1 := fFma fp32 nm c28H x
    let r2 := fFma fp32 nm c28LO r1.1
    let t1 := fFma fp32 c28C3 r2.1 fp32Half
    let t2 := fFma fp32 t1.1 r2.1 fp32One
    let t3 := fMul fp32 t2.1 r2.1
    let u := fFma fp32 (c28T j) t3.1 (c28T j)
    let z := roundVal fp32 ((fp32.decode u.1).scale e)
    (z.1, (y.2 ||| r1.2 ||| r2.2 ||| t1.2 ||| t2.2 ||| t3.2 ||| u.2) &&& flInexact ||| z.2)

/-- R[i] of R263, as a multiple of 2^-9. -/
def c28R (i : Nat) : Nat :=
  let n := 2 ^ 17
  let d := 257 + 2 * i
  let q := n / d
  let r := n % d
  if 2 * r > d ∨ (2 * r = d ∧ q % 2 = 1) then q + 1 else q

/-- rcp28 of R263. -/
def rcp28 (a : Nat) : Nat × FFlags :=
  match fp32.decode a with
  | .nan s => (fp32.qnan, if s then flInvalid else 0)
  | .inf neg => (fp32.zero neg, 0)
  | .fin neg m e =>
    if m = 0 then (fp32.infBits neg, flDivZero)
    else
      let l := bitLen m
      let ex : Int := e + l - 1
      let frac := m * 2 ^ (24 - l) - 2 ^ 23
      let am := fp32.pack false 127 frac
      let i := frac / 2 ^ 16
      let r0 := (roundFin fp32 false false (c28R i) (-9) false).1
      let nam := fp32Neg am
      let d1 := fFma fp32 nam r0 fp32One
      let r1 := fFma fp32 r0 d1.1 r0
      let d2 := fFma fp32 nam r1.1 fp32One
      let r2 := fFma fp32 r1.1 d2.1 r1.1
      let z := roundVal fp32 (((fp32.decode r2.1).scale (-ex)))
      (if neg then fp32Neg z.1 else z.1,
        ((d1.2 ||| r1.2 ||| d2.2 ||| r2.2) &&& flInexact) ||| z.2)

end Sys2Proof.Machine
end

