-- ==== Sys2Proof/Machine/Alu.lean ====
section
/-! DEFINITION. The scalar instructions of Tables 7.3 to 7.6 as functions on a register context (R210 to R213), and
gz_hash (R78). -/

namespace Sys2Proof.Machine

/-- gz_hash of R78. -/
def gzHash (t k : Word) : Word :=
  let x := t ^^^ k
  let x := x + (x <<< 20)
  let x := x ^^^ (x >>> 28)
  let x := x + (x <<< 36)
  let x := x ^^^ (x >>> 32)
  let x := x + ((k >>> 32) ||| (k <<< 32))
  x ^^^ (x >>> 24)

/-- An R-form instruction d = g a b. -/
def aluAB (g : Word → Word → Word) (f : BitVec 56) : CoreCtx → CoreRes :=
  gate (rOk f true true true false 0) [rA f, rB f]
    fun x => .ok ((x.ws (rD f) (g (x.rs (rA f)) (x.rs (rB f)))).adv)

/-- An R-form instruction d = g a. -/
def aluA (g : Word → Word) (f : BitVec 56) : CoreCtx → CoreRes :=
  gate (rOk f true true false false 0) [rA f]
    fun x => .ok ((x.ws (rD f) (g (x.rs (rA f)))).adv)

/-- An I-form instruction d = g a imm, with x12 zero and a further condition on imm32. -/
def aluI (ok : Nat → Bool) (g : Word → Nat → Word) (f : BitVec 56) : CoreCtx → CoreRes :=
  gate (iX12 f == 0 && ok (iImm f)) [rA f]
    fun x => .ok ((x.ws (rD f) (g (x.rs (rA f)) (iImm f))).adv)

def hiU (a b : Word) : Word := BitVec.ofNat 64 (a.toNat * b.toNat / 2 ^ 64)
def hiS (a b : Word) : Word := BitVec.ofInt 64 (a.toInt * b.toInt / (2 ^ 64 : Nat))
/-- R210: division by zero and the overflow corner have the results the table gives. -/
def divU (a b : Word) : Word := if b = 0 then BitVec.allOnes 64 else a / b
def remU (a b : Word) : Word := if b = 0 then a else a % b
def divS (a b : Word) : Word := if b = 0 then BitVec.allOnes 64 else BitVec.ofInt 64 (a.toInt.tdiv b.toInt)
def remS (a b : Word) : Word := if b = 0 then a else BitVec.ofInt 64 (a.toInt.tmod b.toInt)
def shAmt (b : Word) : Nat := b.toNat % 64
def ofBool (c : Bool) : Word := if c then 1 else 0
def simm (imm : Nat) : Word := sext64 32 imm

def aluNop (f : BitVec 56) : CoreCtx → CoreRes := gate (f == 0) [] fun x => .ok x.adv
def aluSel (f : BitVec 56) : CoreCtx → CoreRes :=
  gate (rOk f true true true true 0) [rA f, rB f, rC f]
    fun x => .ok ((x.ws (rD f) (if x.rs (rC f) ≠ 0 then x.rs (rA f) else x.rs (rB f))).adv)
/-- LDI: hi = 0 loads the sign-extended imm48; hi = 1 replaces d[63:48] and reads d for the rest. -/
def aluLdi (f : BitVec 56) : CoreCtx → CoreRes :=
  if lHi f then
    gate (!lResv f && bitsOf (lImm f) 47 16 == 0) [rD f]
      fun x => .ok ((x.ws (rD f)
        (BitVec.ofNat 64 ((x.rs (rD f)).toNat % 2 ^ 48 + (lImm f) % 2 ^ 16 * 2 ^ 48))).adv)
  else gate (!lResv f) [] fun x => .ok ((x.ws (rD f) (sext64 48 (lImm f))).adv)

/-- The low 32 bits of a register, as an FP32 encoding (R211). -/
def lo32 (w : Word) : Nat := w.toNat % 2 ^ 32

/-- An FP32 instruction d = g a b (R211): bits [31:0], zero above, flags sticky. -/
def fpAB (g : Nat → Nat → Nat × FFlags) (f : BitVec 56) : CoreCtx → CoreRes :=
  gate (rOk f true true true false 0) [rA f, rB f]
    fun x =>
      let r := g (lo32 (x.rs (rA f))) (lo32 (x.rs (rB f)))
      .ok (((x.ws (rD f) (BitVec.ofNat 64 r.1)).orFl r.2).adv)
def fpFma (f : BitVec 56) : CoreCtx → CoreRes :=
  gate (rOk f true true true true 0) [rA f, rB f, rC f]
    fun x =>
      let r := fFma fp32 (lo32 (x.rs (rA f))) (lo32 (x.rs (rB f))) (lo32 (x.rs (rC f)))
      .ok (((x.ws (rD f) (BitVec.ofNat 64 r.1)).orFl r.2).adv)
def fpCmp (f : BitVec 56) : CoreCtx → CoreRes :=
  gate (rOk f true true true false 3) [rA f, rB f]
    fun x =>
      let r := fCmp fp32 (rX f) (lo32 (x.rs (rA f))) (lo32 (x.rs (rB f)))
      .ok (((x.ws (rD f) (ofBool r.1)).orFl r.2).adv)
/-- FCVT: 0 s64 to FP32; 1 FP32 to s64, truncated, saturating; 2 FP32 to BF16. -/
def cvtScalar (k : Nat) (a : Word) : Word × FFlags :=
  match k with
  | 0 => let r := roundVal fp32 (FVal.ofInt a.toInt); (BitVec.ofNat 64 r.1, r.2)
  | 1 => let r := toInt 64 true (fp32.decode (lo32 a)); (BitVec.ofInt 64 r.1, r.2)
  | _ => let r := cvtFp bf16 (fp32.decode (lo32 a)); (BitVec.ofNat 64 r.1, r.2)
def fpCvt (f : BitVec 56) : CoreCtx → CoreRes :=
  gate (rOk f true true false false 3 && decide (rX f < 3)) [rA f]
    fun x =>
      let r := cvtScalar (rX f) (x.rs (rA f))
      .ok (((x.ws (rD f) r.1).orFl r.2).adv)

/-- R212: a target must lie in the kernel's code and be a multiple of 8. -/
def targetOk (x : CoreCtx) (t : Int) : Bool :=
  decide (t % 8 = 0) && decide ((x.kern.codeAddr : Int) ≤ t) && decide (t < (x.kern.codeAddr + x.kern.codeBytes : Nat))
def brTarget (x : CoreCtx) (f : BitVec 56) : Int := (x.pc : Int) + 8 * bOff f
def aluBranch (c : Word → Word → Bool) (f : BitVec 56) : CoreCtx → CoreRes :=
  gate (bResv f == 0) [bA f, bB f]
    fun x =>
      if c (x.rs (bA f)) (x.rs (bB f)) then
        if targetOk x (brTarget x f) then .ok { x with pc := (brTarget x f).toNat } else .fault .codeRange
      else .ok x.adv
def aluCall (f : BitVec 56) : CoreCtx → CoreRes :=
  gate (bResv f == 0 && bA f == 0 && bB f == 0) []
    fun x =>
      if targetOk x (brTarget x f) then .ok { x.ws 63 (BitVec.ofNat 64 (x.pc + 8)) with pc := (brTarget x f).toNat }
      else .fault .codeRange
def aluJr (f : BitVec 56) : CoreCtx → CoreRes :=
  gate (rOk f true true false false 0) [rA f]
    fun x =>
      let t := (x.rs (rA f)).toNat
      if targetOk x t then .ok { x.ws (rD f) (BitVec.ofNat 64 (x.pc + 8)) with pc := t } else .fault .codeRange

/-- The length that a 6-bit field names, 0 meaning 64 (Table 7.6). -/
def bfLen (x : Nat) : Nat := if bitsOf x 11 6 = 0 then 64 else bitsOf x 11 6
def aluBext (f : BitVec 56) : CoreCtx → CoreRes :=
  gate (rOk f true true false false 0xFFF) [rA f]
    fun x => .ok ((x.ws (rD f)
      (BitVec.ofNat 64 ((x.rs (rA f)).toNat / 2 ^ bitsOf (rX f) 5 0 % 2 ^ bfLen (rX f)))).adv)
def aluBins (f : BitVec 56) : CoreCtx → CoreRes :=
  gate (rOk f true true true false 0xFFF && decide (bitsOf (rX f) 5 0 + bfLen (rX f) ≤ 64)) [rA f, rB f]
    fun x =>
      let pos := bitsOf (rX f) 5 0
      .ok ((x.ws (rD f) (BitVec.ofNat 64
        (setBits (x.rs (rA f)).toNat (pos + bfLen (rX f) - 1) pos (x.rs (rB f)).toNat))).adv)

end Sys2Proof.Machine
end

