-- ==== Sys2Proof/Machine/Memory.lean ====
section
/-! DEFINITION. Memory: one list of (key, byte) pairs in canonical form. The key of a byte says which memory holds it:
HBM of hub h at hub address a: h · 2^36 + a; scratchpad of physical core position c at offset o: 2^40 + c · 2^24 + o; XD SRAM of
physical octant k at offset o of its slot: 2^41 + k · 2^25 + o. A byte that is not listed reads as zero: zeroization leaves
zeros (R239, Table 13.4, Table 5.7), and what a byte holds before anything wrote it the spec leaves open (DESIGN CHOICE, log 2). -/

namespace Sys2Proof.Machine

/-- The machine's memory as plain data. -/
abbrev Memory := List Host.Cell

/-- The byte at a key. -/
def Memory.get : Memory → Nat → Byte
  | [], _ => 0#8
  | (k, b) :: m, a => if k = a then b else Memory.get m a

/-- The byte at key a set to b, keeping the canonical form: keys strictly rising, no entry zero. -/
def Memory.set : Memory → Nat → Byte → Memory
  | [], a, b => if b = 0#8 then [] else [(a, b)]
  | (k, c) :: m, a, b =>
    if a < k then (if b = 0#8 then (k, c) :: m else (a, b) :: (k, c) :: m)
    else if a = k then (if b = 0#8 then m else (a, b) :: m)
    else (k, c) :: Memory.set m a b

/-- Every key of the list is above a. -/
def Memory.above (a : Nat) : Memory → Bool
  | [] => true
  | (k, _) :: m => decide (a < k) && Memory.above a m

/-- The canonical form: keys strictly rising, and no entry equal to what an unlisted key reads as. -/
def Memory.wf : Memory → Bool
  | [] => true
  | (k, b) :: m => decide (b ≠ 0#8) && Memory.above k m && Memory.wf m

/-- Several bytes set, in order. -/
def Memory.setAll (m : Memory) (l : List (Nat × Byte)) : Memory := l.foldl (fun m e => m.set e.1 e.2) m

/-- Every byte whose key satisfies p set to zero: zeroization. -/
def Memory.clear (m : Memory) (p : Nat → Bool) : Memory := m.filter fun e => !p e.1

def keyHbm (h a : Nat) : Nat := h * 2 ^ 36 + a
def keyScr (c o : Nat) : Nat := 2 ^ 40 + c * 2 ^ 24 + o
def keyXd (k o : Nat) : Nat := 2 ^ 41 + k * 2 ^ 25 + o
/-- A slot of a hub's accumulate staging, which no fabric address reaches: named where its error correction is meant (R536). -/
def keyStage (h n : Nat) : Nat := 2 ^ 42 + h * 64 + n

end Sys2Proof.Machine
end

