-- ==== Sys2Proof/Machine/RegMap.lean ====
section
/-! DEFINITION. The register map: every register table of the spec (Tables 2.12 to 20.16), one row each: its block of
Table 2.3, its offsets, and its fields with their access codes of Table 0.4 and their reset values. -/

namespace Sys2Proof.Machine

/-- The access codes of Table 0.4 (R7). -/
inductive Access where
  | RO | RW | W1C | WO | RWL | ROF
  deriving DecidableEq, Repr

/-- One name per register table of the spec. -/
inductive RegName where
  | RMO_CTL
  | RMO_TIMEOUT
  | RMO_HBM_WINDOW
  | RMO_FAULT_INFO
  | RMO_FAULT_ADDR
  | RMO_REPLAY_CNT
  | RMO_DUP_CNT
  | RLC_CTL
  | RLC_STAT_HIT
  | RLC_STAT_MISS
  | RGD_CTL
  | RGD_VIOL_CNT
  | RGD_VIOL_INFO
  | RGD_VIOL_ADDR
  | SVY_CTL
  | SVY_STATUS
  | SVY_TOKEN_CNT
  | SVY_ASSIGN_CNT
  | SVY_UNROUTED_CNT
  | SVY_BAD_ENTRY_CNT
  | SVY_GVC_HIT
  | SVY_GVC_MISS
  | SVY_FAULT_INFO
  | GAZ_CTL
  | GAZ_GEN_STATUS
  | GAZ_HALF_TARGET
  | GAZ_STEP_SEEN
  | GAZ_CACHE_HIT
  | GAZ_CACHE_MISS
  | PLT_CTL
  | PLT_STATUS
  | PLT_ASSIGN_CNT
  | PLT_NODEST_CNT
  | PLT_FAULT_INFO
  | TRV_CTL
  | TRV_TIMEOUT
  | TRV_STATUS
  | TRV_LET_SEL
  | TRV_LET_INFO
  | TRV_LET_BAL0
  | TRV_LET_BAL1
  | TRV_LET_BAL2
  | TRV_FOLD_CNT
  | TRV_REDIRECT_CNT
  | TRV_DEFER_CNT
  | TRV_STALE_RETURN_CNT
  | TRV_LATE_CNT
  | TRV_CENSUS_ERR_CNT
  | TRV_DEAD_SKIP_CNT
  | TRV_FAULT_INFO
  | BPM_CTL
  | BPM_STATUS
  | BPM_POOL_CFG
  | BPM_POOL_BASE
  | BPM_POOL_THRESH
  | BPM_POOL_COUNT0
  | BPM_POOL_COUNT1
  | BPM_RETRY_CNT
  | BPM_BADPTR_CNT
  | BPM_REFCOUNT_ERR_CNT
  | BPM_BADPTR_INFO
  | BPM_BADPTR_ADDR
  | CORE_CTL
  | CORE_STATUS
  | CORE_GRATICULE
  | CORE_FAULT_INFO
  | CORE_FAULT_PC
  | CORE_MAC_CNT
  | CORE_ZERO_GATED_CNT
  | CORE_SPARSE_META_CNT
  | CORE_PRED_MISS_CNT
  | CORE_PRED_SAMPLE_CNT
  | MOV_STATUS
  | MOV_BYTES_CNT
  | MOV_COMP_IN_CNT
  | MOV_COMP_OUT_CNT
  | MOV_DENSE_CNT
  | MOV_FAULT_INFO
  | HCH_CTL
  | HCH_STATUS
  | HCH_SEL
  | HCH_LAYER_STATE
  | HCH_LAYER_RATIO
  | HCH_LATE_CNT
  | HCH_BOUNDS
  | HCH_LIMIT
  | HCH_RECIPE
  | HCH_Q_UNDERFLOW
  | HCH_Q_OVERFLOW
  | HCH_Q_FLUSH
  | HCH_Q_CLAMP
  | MOV_QNT_SUBMIT
  | MOV_QNT_STATUS
  | MHB_CTL
  | MHB_STATUS
  | MHB_CE_CNT
  | MHB_UE_CNT
  | MHB_MARKED
  | MHB_UE_INFO
  | MHB_UE_ADDR
  | NMA_CTL
  | NMA_STATUS
  | NMA_CTX_SEL
  | NMA_CTX_KEY
  | NMA_CTX_INFO
  | NMA_CTX_ACCEPTED
  | NMA_CTX_COMMITTED
  | NMA_ADD_CNT
  | NMA_SPILL_CNT
  | NMA_COMPLETE_CNT
  | NMA_ERR_CNT
  | NMA_NAN_CNT
  | NMA_ERR_INFO
  | NMA_ERR_BUCKET
  | DGC_CTL
  | DGC_STATUS
  | DTM_CTL
  | DTM_STATUS
  | DTM_NOW
  | DTM_OFFSET
  | DTM_PPS_CAPTURE
  | DTM_PTP_CFG
  | DTM_PTP_ORIGIN
  | DTM_LAUNCH_STATUS
  | SHT_CFG
  | SHT_TIMING
  | SHT_SERVE
  | SCH_CTX_SEL
  | SCH_CTX_STATE
  | SCH_RUNNING
  | SCH_SWITCH_CNT
  | SCH_SAVE_BYTES_CNT
  | SCH_WATCHDOG_CNT
  | SCH_SEM_FORCE_CNT
  | SWC_CTL
  | SWC_STATUS
  | SWC_ARB_WEIGHT
  | SWC_MIRROR_CFG
  | SWC_MIRROR_CNT
  | SWC_DROP_CNT0
  | SWC_DROP_CNT1
  | SWC_DROP_INFO
  | SWC_DROP_DST
  | SWC_PORT_SEL
  | SWC_PORT_QUEUE
  | SWC_PORT_STAT
  | SWC_DROP_CNT2
  | FPT_CTL
  | FPT_STATUS
  | FPT_PARTNER
  | FPT_ETH_CFG
  | FPT_ETH_CNT
  | FPT_LINK_CNT0
  | FPT_LINK_CNT1
  | FPT_VIOL_CNT0
  | FPT_VIOL_CNT1
  | FPT_VIOL_INFO
  | FPT_CREDIT_SEL
  | FPT_CREDIT_SNAP0
  | FPT_CREDIT_SNAP1
  | FPT_AUDIT
  | FPT_INJ_CFG
  | FPT_INJ_CNT
  | FPT_LANE_MARGIN
  | GWY_CTL
  | GWY_XPORT_CFG
  | GWY_WC_CFG
  | GWY_DSCP
  | GWY_STATUS
  | GWY_DGRAM_CNT
  | GWY_DISC_CNT
  | GWY_WC_CNT
  | GWY_RB_CNT
  | GWY_CONN_SEL
  | GWY_CONN_INFO
  | CHT_ID
  | CHT_CTL
  | CHT_STATUS
  | CHT_TELEM
  | CHT_CMD_CNT
  | CHT_HOST_DENIED_CNT
  | CHT_FAILOVER
  | CHT_RING_CMD
  | CHT_RING_RPL
  | CHT_RING_WB
  | CHT_RING_CFG
  | CHT_RING_DB
  | CHT_RING_STATUS
  | CTC_STATUS
  | CTC_SVN
  | CTC_DEBUG
  | CTC_FAIL_CNT
  | CTC_FAIL_INFO
  | PWR_LIMIT
  | PWR_STATUS
  | PWR_THROTTLE_CNT
  | PWR_TEMP_SEL
  | PWR_TEMP
  | CLK_STATUS
  | CLK_CCLK
  | CTR_CTL
  | CTR_STATUS
  | CTR_SEL
  | CTR_DIE
  | BMK_HDR
  | BMK_SEL
  | BMK_DATA
  | BMK_OVERLAY
  | EVT_CTL
  | EVT_STATUS
  | EVT_LOST_CNT
  | EVT_TEARDOWN_CNT
  | EVT_MISCLOSURE_CNT
  | EVT_CLASS_CNT
  deriving DecidableEq, Repr

/-- One field of a register table: bits [hi:lo], the access code and the reset value. -/
structure FieldSpec where
  hi : Nat
  lo : Nat
  acc : Access
  reset : Nat
  deriving DecidableEq, Repr

/-- One register table: its block, its first offset, up to two index counts with their strides, and its fields that
are not resv (R6: a resv field reads as zero). -/
structure RegRow where
  blk : Nat
  off : Nat
  n1 : Nat
  st1 : Nat
  n2 : Nat
  st2 : Nat
  fields : List FieldSpec
  deriving DecidableEq, Repr

/-- A field of a register, named by its register. -/
structure Field where
  reg : RegName
  hi : Nat
  lo : Nat
  deriving DecidableEq, Repr

def F.RMO_CTL_replay_interval : Field := ⟨.RMO_CTL, 15, 8⟩
def F.RMO_CTL_retry_backoff : Field := ⟨.RMO_CTL, 7, 0⟩
def F.RMO_TIMEOUT_op_timeout : Field := ⟨.RMO_TIMEOUT, 31, 0⟩
def F.RMO_HBM_WINDOW_usable_bytes : Field := ⟨.RMO_HBM_WINDOW, 40, 0⟩
def F.RMO_FAULT_INFO_valid : Field := ⟨.RMO_FAULT_INFO, 63, 63⟩
def F.RMO_FAULT_INFO_agent : Field := ⟨.RMO_FAULT_INFO, 24, 16⟩
def F.RMO_FAULT_INFO_status : Field := ⟨.RMO_FAULT_INFO, 15, 0⟩
def F.RMO_FAULT_ADDR_addr : Field := ⟨.RMO_FAULT_ADDR, 63, 0⟩
def F.RMO_REPLAY_CNT_replays : Field := ⟨.RMO_REPLAY_CNT, 63, 0⟩
def F.RMO_DUP_CNT_duplicates : Field := ⟨.RMO_DUP_CNT, 63, 0⟩
def F.RLC_CTL_flush : Field := ⟨.RLC_CTL, 8, 8⟩
def F.RLC_CTL_sheet_enable : Field := ⟨.RLC_CTL, 7, 0⟩
def F.RLC_STAT_HIT_hits : Field := ⟨.RLC_STAT_HIT, 63, 0⟩
def F.RLC_STAT_MISS_misses : Field := ⟨.RLC_STAT_MISS, 63, 0⟩
def F.RGD_CTL_enforce : Field := ⟨.RGD_CTL, 0, 0⟩
def F.RGD_VIOL_CNT_violations : Field := ⟨.RGD_VIOL_CNT, 63, 0⟩
def F.RGD_VIOL_INFO_valid : Field := ⟨.RGD_VIOL_INFO, 63, 63⟩
def F.RGD_VIOL_INFO_mode : Field := ⟨.RGD_VIOL_INFO, 29, 28⟩
def F.RGD_VIOL_INFO_op : Field := ⟨.RGD_VIOL_INFO, 27, 20⟩
def F.RGD_VIOL_INFO_src_logical : Field := ⟨.RGD_VIOL_INFO, 19, 0⟩
def F.RGD_VIOL_ADDR_addr : Field := ⟨.RGD_VIOL_ADDR, 63, 0⟩
def F.SVY_CTL_flush_gvc : Field := ⟨.SVY_CTL, 16, 16⟩
def F.SVY_CTL_enable : Field := ⟨.SVY_CTL, 0, 0⟩
def F.SVY_STATUS_queue_used : Field := ⟨.SVY_STATUS, 39, 32⟩
def F.SVY_STATUS_highest_step : Field := ⟨.SVY_STATUS, 31, 0⟩
def F.SVY_TOKEN_CNT_tokens : Field := ⟨.SVY_TOKEN_CNT, 63, 0⟩
def F.SVY_ASSIGN_CNT_assignments : Field := ⟨.SVY_ASSIGN_CNT, 63, 0⟩
def F.SVY_UNROUTED_CNT_unrouted : Field := ⟨.SVY_UNROUTED_CNT, 63, 0⟩
def F.SVY_BAD_ENTRY_CNT_bad_entries : Field := ⟨.SVY_BAD_ENTRY_CNT, 63, 0⟩
def F.SVY_GVC_HIT_hits : Field := ⟨.SVY_GVC_HIT, 63, 0⟩
def F.SVY_GVC_MISS_misses : Field := ⟨.SVY_GVC_MISS, 63, 0⟩
def F.SVY_FAULT_INFO_valid : Field := ⟨.SVY_FAULT_INFO, 63, 63⟩
def F.SVY_FAULT_INFO_layer : Field := ⟨.SVY_FAULT_INFO, 55, 48⟩
def F.SVY_FAULT_INFO_tag : Field := ⟨.SVY_FAULT_INFO, 47, 16⟩
def F.SVY_FAULT_INFO_status : Field := ⟨.SVY_FAULT_INFO, 15, 0⟩
def F.GAZ_CTL_flush : Field := ⟨.GAZ_CTL, 8, 8⟩
def F.GAZ_CTL_cache_enable : Field := ⟨.GAZ_CTL, 0, 0⟩
def F.GAZ_GEN_STATUS_sync_remaining : Field := ⟨.GAZ_GEN_STATUS, 39, 8⟩
def F.GAZ_GEN_STATUS_h1_state : Field := ⟨.GAZ_GEN_STATUS, 6, 4⟩
def F.GAZ_GEN_STATUS_h0_state : Field := ⟨.GAZ_GEN_STATUS, 2, 0⟩
def F.GAZ_HALF_TARGET_valid : Field := ⟨.GAZ_HALF_TARGET, 63, 63⟩
def F.GAZ_HALF_TARGET_target_step : Field := ⟨.GAZ_HALF_TARGET, 31, 0⟩
def F.GAZ_STEP_SEEN_valid : Field := ⟨.GAZ_STEP_SEEN, 63, 63⟩
def F.GAZ_STEP_SEEN_step : Field := ⟨.GAZ_STEP_SEEN, 31, 0⟩
def F.GAZ_CACHE_HIT_hits : Field := ⟨.GAZ_CACHE_HIT, 63, 0⟩
def F.GAZ_CACHE_MISS_misses : Field := ⟨.GAZ_CACHE_MISS, 63, 0⟩
def F.PLT_CTL_enable : Field := ⟨.PLT_CTL, 0, 0⟩
def F.PLT_STATUS_queue_used : Field := ⟨.PLT_STATUS, 39, 32⟩
def F.PLT_STATUS_keys_last : Field := ⟨.PLT_STATUS, 31, 0⟩
def F.PLT_ASSIGN_CNT_assignments : Field := ⟨.PLT_ASSIGN_CNT, 63, 0⟩
def F.PLT_NODEST_CNT_folds : Field := ⟨.PLT_NODEST_CNT, 63, 0⟩
def F.PLT_FAULT_INFO_valid : Field := ⟨.PLT_FAULT_INFO, 63, 63⟩
def F.PLT_FAULT_INFO_layer : Field := ⟨.PLT_FAULT_INFO, 55, 48⟩
def F.PLT_FAULT_INFO_tag : Field := ⟨.PLT_FAULT_INFO, 47, 16⟩
def F.PLT_FAULT_INFO_status : Field := ⟨.PLT_FAULT_INFO, 15, 0⟩
def F.TRV_CTL_enable : Field := ⟨.TRV_CTL, 0, 0⟩
def F.TRV_TIMEOUT_census_timeout : Field := ⟨.TRV_TIMEOUT, 63, 32⟩
def F.TRV_TIMEOUT_wave_timeout : Field := ⟨.TRV_TIMEOUT, 31, 0⟩
def F.TRV_STATUS_queue_used : Field := ⟨.TRV_STATUS, 39, 32⟩
def F.TRV_STATUS_epochs_open : Field := ⟨.TRV_STATUS, 31, 16⟩
def F.TRV_STATUS_receives_armed : Field := ⟨.TRV_STATUS, 15, 0⟩
def F.TRV_LET_SEL_epoch : Field := ⟨.TRV_LET_SEL, 11, 0⟩
def F.TRV_LET_INFO_state : Field := ⟨.TRV_LET_INFO, 34, 32⟩
def F.TRV_LET_INFO_step : Field := ⟨.TRV_LET_INFO, 31, 0⟩
def F.TRV_LET_BAL0_issued : Field := ⟨.TRV_LET_BAL0, 63, 32⟩
def F.TRV_LET_BAL0_granted : Field := ⟨.TRV_LET_BAL0, 31, 0⟩
def F.TRV_LET_BAL1_folded : Field := ⟨.TRV_LET_BAL1, 63, 32⟩
def F.TRV_LET_BAL1_held : Field := ⟨.TRV_LET_BAL1, 31, 0⟩
def F.TRV_LET_BAL2_returned : Field := ⟨.TRV_LET_BAL2, 63, 32⟩
def F.TRV_LET_BAL2_stale : Field := ⟨.TRV_LET_BAL2, 31, 0⟩
def F.TRV_FOLD_CNT_folds : Field := ⟨.TRV_FOLD_CNT, 63, 0⟩
def F.TRV_REDIRECT_CNT_redirects : Field := ⟨.TRV_REDIRECT_CNT, 63, 0⟩
def F.TRV_DEFER_CNT_defers : Field := ⟨.TRV_DEFER_CNT, 63, 0⟩
def F.TRV_STALE_RETURN_CNT_stale : Field := ⟨.TRV_STALE_RETURN_CNT, 63, 0⟩
def F.TRV_LATE_CNT_late : Field := ⟨.TRV_LATE_CNT, 63, 0⟩
def F.TRV_CENSUS_ERR_CNT_errors : Field := ⟨.TRV_CENSUS_ERR_CNT, 63, 0⟩
def F.TRV_DEAD_SKIP_CNT_skipped : Field := ⟨.TRV_DEAD_SKIP_CNT, 63, 0⟩
def F.TRV_FAULT_INFO_valid : Field := ⟨.TRV_FAULT_INFO, 63, 63⟩
def F.TRV_FAULT_INFO_layer : Field := ⟨.TRV_FAULT_INFO, 55, 48⟩
def F.TRV_FAULT_INFO_tag : Field := ⟨.TRV_FAULT_INFO, 47, 16⟩
def F.TRV_FAULT_INFO_status : Field := ⟨.TRV_FAULT_INFO, 15, 0⟩
def F.BPM_CTL_enable : Field := ⟨.BPM_CTL, 0, 0⟩
def F.BPM_STATUS_queue_used : Field := ⟨.BPM_STATUS, 39, 32⟩
def F.BPM_STATUS_pools_homed : Field := ⟨.BPM_STATUS, 6, 0⟩
def F.BPM_POOL_CFG_link_base : Field := ⟨.BPM_POOL_CFG, 39, 16⟩
def F.BPM_POOL_CFG_level : Field := ⟨.BPM_POOL_CFG, 15, 14⟩
def F.BPM_POOL_CFG_state : Field := ⟨.BPM_POOL_CFG, 13, 12⟩
def F.BPM_POOL_CFG_cell_code : Field := ⟨.BPM_POOL_CFG, 11, 9⟩
def F.BPM_POOL_CFG_location : Field := ⟨.BPM_POOL_CFG, 8, 8⟩
def F.BPM_POOL_CFG_mode : Field := ⟨.BPM_POOL_CFG, 7, 7⟩
def F.BPM_POOL_CFG_sheet : Field := ⟨.BPM_POOL_CFG, 6, 4⟩
def F.BPM_POOL_BASE_base : Field := ⟨.BPM_POOL_BASE, 43, 0⟩
def F.BPM_POOL_THRESH_capacity : Field := ⟨.BPM_POOL_THRESH, 63, 32⟩
def F.BPM_POOL_THRESH_hyst_pct : Field := ⟨.BPM_POOL_THRESH, 31, 24⟩
def F.BPM_POOL_THRESH_crit_pct : Field := ⟨.BPM_POOL_THRESH, 23, 16⟩
def F.BPM_POOL_THRESH_stop_pct : Field := ⟨.BPM_POOL_THRESH, 15, 8⟩
def F.BPM_POOL_THRESH_warn_pct : Field := ⟨.BPM_POOL_THRESH, 7, 0⟩
def F.BPM_POOL_COUNT0_allocated : Field := ⟨.BPM_POOL_COUNT0, 63, 32⟩
def F.BPM_POOL_COUNT0_free : Field := ⟨.BPM_POOL_COUNT0, 31, 0⟩
def F.BPM_POOL_COUNT1_quarantined : Field := ⟨.BPM_POOL_COUNT1, 63, 32⟩
def F.BPM_POOL_COUNT1_in_flight : Field := ⟨.BPM_POOL_COUNT1, 31, 0⟩
def F.BPM_RETRY_CNT_retries : Field := ⟨.BPM_RETRY_CNT, 63, 0⟩
def F.BPM_BADPTR_CNT_bad_pointers : Field := ⟨.BPM_BADPTR_CNT, 63, 0⟩
def F.BPM_REFCOUNT_ERR_CNT_underflows : Field := ⟨.BPM_REFCOUNT_ERR_CNT, 63, 0⟩
def F.BPM_BADPTR_INFO_valid : Field := ⟨.BPM_BADPTR_INFO, 63, 63⟩
def F.BPM_BADPTR_INFO_agent : Field := ⟨.BPM_BADPTR_INFO, 22, 14⟩
def F.BPM_BADPTR_INFO_pool : Field := ⟨.BPM_BADPTR_INFO, 13, 8⟩
def F.BPM_BADPTR_INFO_op : Field := ⟨.BPM_BADPTR_INFO, 7, 0⟩
def F.BPM_BADPTR_ADDR_ptr : Field := ⟨.BPM_BADPTR_ADDR, 63, 0⟩
def F.CORE_CTL_zero_gate : Field := ⟨.CORE_CTL, 0, 0⟩
def F.CORE_STATUS_acc_busy : Field := ⟨.CORE_STATUS, 11, 8⟩
def F.CORE_STATUS_shadow_invalid : Field := ⟨.CORE_STATUS, 3, 3⟩
def F.CORE_STATUS_load_busy : Field := ⟨.CORE_STATUS, 2, 2⟩
def F.CORE_STATUS_hosting : Field := ⟨.CORE_STATUS, 1, 1⟩
def F.CORE_STATUS_running : Field := ⟨.CORE_STATUS, 0, 0⟩
def F.CORE_GRATICULE_fused : Field := ⟨.CORE_GRATICULE, 63, 63⟩
def F.CORE_GRATICULE_host : Field := ⟨.CORE_GRATICULE, 39, 32⟩
def F.CORE_GRATICULE_guest_valid : Field := ⟨.CORE_GRATICULE, 16, 16⟩
def F.CORE_GRATICULE_guest : Field := ⟨.CORE_GRATICULE, 15, 8⟩
def F.CORE_GRATICULE_vindex : Field := ⟨.CORE_GRATICULE, 7, 0⟩
def F.CORE_FAULT_INFO_valid : Field := ⟨.CORE_FAULT_INFO, 63, 63⟩
def F.CORE_FAULT_INFO_weight : Field := ⟨.CORE_FAULT_INFO, 47, 40⟩
def F.CORE_FAULT_INFO_column : Field := ⟨.CORE_FAULT_INFO, 39, 33⟩
def F.CORE_FAULT_INFO_meta_kind : Field := ⟨.CORE_FAULT_INFO, 32, 31⟩
def F.CORE_FAULT_INFO_status : Field := ⟨.CORE_FAULT_INFO, 15, 0⟩
def F.CORE_FAULT_PC_addr : Field := ⟨.CORE_FAULT_PC, 63, 0⟩
def F.CORE_MAC_CNT_macs : Field := ⟨.CORE_MAC_CNT, 63, 0⟩
def F.CORE_ZERO_GATED_CNT_gated : Field := ⟨.CORE_ZERO_GATED_CNT, 63, 0⟩
def F.CORE_SPARSE_META_CNT_bad_tiles : Field := ⟨.CORE_SPARSE_META_CNT, 63, 0⟩
def F.CORE_PRED_MISS_CNT_misses : Field := ⟨.CORE_PRED_MISS_CNT, 63, 0⟩
def F.CORE_PRED_SAMPLE_CNT_samples : Field := ⟨.CORE_PRED_SAMPLE_CNT, 63, 0⟩
def F.MOV_STATUS_busy : Field := ⟨.MOV_STATUS, 3, 0⟩
def F.MOV_BYTES_CNT_bytes : Field := ⟨.MOV_BYTES_CNT, 63, 0⟩
def F.MOV_COMP_IN_CNT_bytes : Field := ⟨.MOV_COMP_IN_CNT, 63, 0⟩
def F.MOV_COMP_OUT_CNT_bytes : Field := ⟨.MOV_COMP_OUT_CNT, 63, 0⟩
def F.MOV_DENSE_CNT_tiles : Field := ⟨.MOV_DENSE_CNT, 63, 0⟩
def F.MOV_FAULT_INFO_valid : Field := ⟨.MOV_FAULT_INFO, 63, 63⟩
def F.MOV_FAULT_INFO_mover : Field := ⟨.MOV_FAULT_INFO, 49, 48⟩
def F.MOV_FAULT_INFO_tag : Field := ⟨.MOV_FAULT_INFO, 47, 16⟩
def F.MOV_FAULT_INFO_status : Field := ⟨.MOV_FAULT_INFO, 15, 0⟩
def F.HCH_CTL_eval_now : Field := ⟨.HCH_CTL, 8, 8⟩
def F.HCH_CTL_enable : Field := ⟨.HCH_CTL, 0, 0⟩
def F.HCH_STATUS_halted : Field := ⟨.HCH_STATUS, 7, 0⟩
def F.HCH_SEL_sheet : Field := ⟨.HCH_SEL, 10, 8⟩
def F.HCH_SEL_layer : Field := ⟨.HCH_SEL, 7, 0⟩
def F.HCH_LAYER_STATE_high_run : Field := ⟨.HCH_LAYER_STATE, 63, 48⟩
def F.HCH_LAYER_STATE_low_run : Field := ⟨.HCH_LAYER_STATE, 47, 32⟩
def F.HCH_LAYER_STATE_step : Field := ⟨.HCH_LAYER_STATE, 31, 0⟩
def F.HCH_LAYER_RATIO_valid : Field := ⟨.HCH_LAYER_RATIO, 32, 32⟩
def F.HCH_LAYER_RATIO_ratio : Field := ⟨.HCH_LAYER_RATIO, 31, 0⟩
def F.HCH_LATE_CNT_late : Field := ⟨.HCH_LATE_CNT, 63, 0⟩
def F.HCH_BOUNDS_ceiling : Field := ⟨.HCH_BOUNDS, 63, 32⟩
def F.HCH_BOUNDS_floor : Field := ⟨.HCH_BOUNDS, 31, 0⟩
def F.HCH_LIMIT_halt : Field := ⟨.HCH_LIMIT, 16, 16⟩
def F.HCH_LIMIT_limit : Field := ⟨.HCH_LIMIT, 15, 0⟩
def F.HCH_RECIPE_smax : Field := ⟨.HCH_RECIPE, 23, 17⟩
def F.HCH_RECIPE_margin : Field := ⟨.HCH_RECIPE, 16, 13⟩
def F.HCH_RECIPE_subnormal : Field := ⟨.HCH_RECIPE, 12, 12⟩
def F.HCH_RECIPE_block : Field := ⟨.HCH_RECIPE, 9, 8⟩
def F.HCH_RECIPE_fmt : Field := ⟨.HCH_RECIPE, 3, 0⟩
def F.HCH_Q_UNDERFLOW_underflows : Field := ⟨.HCH_Q_UNDERFLOW, 63, 0⟩
def F.HCH_Q_OVERFLOW_overflows : Field := ⟨.HCH_Q_OVERFLOW, 63, 0⟩
def F.HCH_Q_FLUSH_flushes : Field := ⟨.HCH_Q_FLUSH, 63, 0⟩
def F.HCH_Q_CLAMP_clamps : Field := ⟨.HCH_Q_CLAMP, 63, 0⟩
def F.MOV_QNT_SUBMIT_offset : Field := ⟨.MOV_QNT_SUBMIT, 23, 0⟩
def F.MOV_QNT_STATUS_valid : Field := ⟨.MOV_QNT_STATUS, 63, 63⟩
def F.MOV_QNT_STATUS_queue_used : Field := ⟨.MOV_QNT_STATUS, 51, 48⟩
def F.MOV_QNT_STATUS_tag : Field := ⟨.MOV_QNT_STATUS, 47, 16⟩
def F.MOV_QNT_STATUS_status : Field := ⟨.MOV_QNT_STATUS, 15, 0⟩
def F.MHB_CTL_scrub_enable : Field := ⟨.MHB_CTL, 8, 8⟩
def F.MHB_CTL_recal_interval : Field := ⟨.MHB_CTL, 7, 0⟩
def F.MHB_STATUS_hub_temp : Field := ⟨.MHB_STATUS, 47, 40⟩
def F.MHB_STATUS_dram_temp : Field := ⟨.MHB_STATUS, 39, 32⟩
def F.MHB_STATUS_rate : Field := ⟨.MHB_STATUS, 9, 8⟩
def F.MHB_STATUS_state : Field := ⟨.MHB_STATUS, 1, 0⟩
def F.MHB_CE_CNT_corrected : Field := ⟨.MHB_CE_CNT, 63, 0⟩
def F.MHB_UE_CNT_uncorrectable : Field := ⟨.MHB_UE_CNT, 63, 0⟩
def F.MHB_MARKED_lines : Field := ⟨.MHB_MARKED, 12, 0⟩
def F.MHB_UE_INFO_valid : Field := ⟨.MHB_UE_INFO, 63, 63⟩
def F.MHB_UE_INFO_pchan : Field := ⟨.MHB_UE_INFO, 21, 16⟩
def F.MHB_UE_INFO_source : Field := ⟨.MHB_UE_INFO, 7, 0⟩
def F.MHB_UE_ADDR_addr : Field := ⟨.MHB_UE_ADDR, 35, 0⟩
def F.NMA_CTL_stall_ms : Field := ⟨.NMA_CTL, 23, 8⟩
def F.NMA_CTL_log_complete : Field := ⟨.NMA_CTL, 1, 1⟩
def F.NMA_CTL_enable : Field := ⟨.NMA_CTL, 0, 0⟩
def F.NMA_STATUS_parked : Field := ⟨.NMA_STATUS, 63, 48⟩
def F.NMA_STATUS_spilled : Field := ⟨.NMA_STATUS, 47, 40⟩
def F.NMA_STATUS_resident : Field := ⟨.NMA_STATUS, 39, 32⟩
def F.NMA_STATUS_staging_free : Field := ⟨.NMA_STATUS, 15, 0⟩
def F.NMA_CTX_SEL_slot : Field := ⟨.NMA_CTX_SEL, 5, 0⟩
def F.NMA_CTX_KEY_job : Field := ⟨.NMA_CTX_KEY, 47, 32⟩
def F.NMA_CTX_KEY_bucket : Field := ⟨.NMA_CTX_KEY, 31, 0⟩
def F.NMA_CTX_INFO_state : Field := ⟨.NMA_CTX_INFO, 63, 62⟩
def F.NMA_CTX_INFO_mode : Field := ⟨.NMA_CTX_INFO, 61, 61⟩
def F.NMA_CTX_INFO_nan_seen : Field := ⟨.NMA_CTX_INFO, 60, 60⟩
def F.NMA_CTX_INFO_nan_source : Field := ⟨.NMA_CTX_INFO, 59, 40⟩
def F.NMA_CTX_INFO_round : Field := ⟨.NMA_CTX_INFO, 31, 0⟩
def F.NMA_CTX_ACCEPTED_accepted : Field := ⟨.NMA_CTX_ACCEPTED, 63, 0⟩
def F.NMA_CTX_COMMITTED_committed : Field := ⟨.NMA_CTX_COMMITTED, 63, 0⟩
def F.NMA_ADD_CNT_elements : Field := ⟨.NMA_ADD_CNT, 63, 0⟩
def F.NMA_SPILL_CNT_spills : Field := ⟨.NMA_SPILL_CNT, 63, 0⟩
def F.NMA_COMPLETE_CNT_rounds : Field := ⟨.NMA_COMPLETE_CNT, 63, 0⟩
def F.NMA_ERR_CNT_refused : Field := ⟨.NMA_ERR_CNT, 63, 0⟩
def F.NMA_NAN_CNT_nans : Field := ⟨.NMA_NAN_CNT, 63, 0⟩
def F.NMA_ERR_INFO_valid : Field := ⟨.NMA_ERR_INFO, 63, 63⟩
def F.NMA_ERR_INFO_src_logical : Field := ⟨.NMA_ERR_INFO, 51, 32⟩
def F.NMA_ERR_INFO_job : Field := ⟨.NMA_ERR_INFO, 31, 16⟩
def F.NMA_ERR_INFO_status : Field := ⟨.NMA_ERR_INFO, 15, 0⟩
def F.NMA_ERR_BUCKET_bucket : Field := ⟨.NMA_ERR_BUCKET, 31, 0⟩
def F.DGC_CTL_quorum_pct : Field := ⟨.DGC_CTL, 15, 8⟩
def F.DGC_CTL_strict : Field := ⟨.DGC_CTL, 0, 0⟩
def F.DGC_STATUS_strict_required : Field := ⟨.DGC_STATUS, 32, 32⟩
def F.DGC_STATUS_strict_changes : Field := ⟨.DGC_STATUS, 31, 0⟩
def F.DTM_CTL_alt_port : Field := ⟨.DTM_CTL, 47, 42⟩
def F.DTM_CTL_up_port : Field := ⟨.DTM_CTL, 41, 36⟩
def F.DTM_CTL_pps_out : Field := ⟨.DTM_CTL, 8, 8⟩
def F.DTM_CTL_source : Field := ⟨.DTM_CTL, 7, 4⟩
def F.DTM_CTL_master : Field := ⟨.DTM_CTL, 0, 0⟩
def F.DTM_STATUS_hops : Field := ⟨.DTM_STATUS, 39, 32⟩
def F.DTM_STATUS_link_delay : Field := ⟨.DTM_STATUS, 31, 16⟩
def F.DTM_STATUS_state : Field := ⟨.DTM_STATUS, 2, 0⟩
def F.DTM_NOW_datum : Field := ⟨.DTM_NOW, 63, 0⟩
def F.DTM_OFFSET_rate_ppb : Field := ⟨.DTM_OFFSET, 63, 32⟩
def F.DTM_OFFSET_offset : Field := ⟨.DTM_OFFSET, 31, 0⟩
def F.DTM_PPS_CAPTURE_datum : Field := ⟨.DTM_PPS_CAPTURE, 63, 0⟩
def F.DTM_PTP_CFG_ignored : Field := ⟨.DTM_PTP_CFG, 63, 40⟩
def F.DTM_PTP_CFG_priority2 : Field := ⟨.DTM_PTP_CFG, 39, 32⟩
def F.DTM_PTP_CFG_priority1 : Field := ⟨.DTM_PTP_CFG, 31, 24⟩
def F.DTM_PTP_CFG_domain : Field := ⟨.DTM_PTP_CFG, 23, 16⟩
def F.DTM_PTP_CFG_slave_only : Field := ⟨.DTM_PTP_CFG, 9, 9⟩
def F.DTM_PTP_CFG_ipv4 : Field := ⟨.DTM_PTP_CFG, 8, 8⟩
def F.DTM_PTP_CFG_port : Field := ⟨.DTM_PTP_CFG, 5, 0⟩
def F.DTM_PTP_ORIGIN_origin : Field := ⟨.DTM_PTP_ORIGIN, 63, 0⟩
def F.DTM_LAUNCH_STATUS_late : Field := ⟨.DTM_LAUNCH_STATUS, 39, 8⟩
def F.DTM_LAUNCH_STATUS_pending : Field := ⟨.DTM_LAUNCH_STATUS, 6, 0⟩
def F.SHT_CFG_coll_cores : Field := ⟨.SHT_CFG, 23, 20⟩
def F.SHT_CFG_octant_mask : Field := ⟨.SHT_CFG, 15, 8⟩
def F.SHT_CFG_octants : Field := ⟨.SHT_CFG, 7, 4⟩
def F.SHT_CFG_state : Field := ⟨.SHT_CFG, 1, 0⟩
def F.SHT_TIMING_hold_ms : Field := ⟨.SHT_TIMING, 63, 48⟩
def F.SHT_TIMING_watchdog_ms : Field := ⟨.SHT_TIMING, 47, 32⟩
def F.SHT_TIMING_quantum_us : Field := ⟨.SHT_TIMING, 31, 0⟩
def F.SHT_SERVE_chunk_limit : Field := ⟨.SHT_SERVE, 47, 32⟩
def F.SHT_SERVE_budget : Field := ⟨.SHT_SERVE, 31, 0⟩
def F.SCH_CTX_SEL_sheet : Field := ⟨.SCH_CTX_SEL, 6, 4⟩
def F.SCH_CTX_SEL_context : Field := ⟨.SCH_CTX_SEL, 3, 0⟩
def F.SCH_CTX_STATE_job : Field := ⟨.SCH_CTX_STATE, 63, 48⟩
def F.SCH_CTX_STATE_sems_held : Field := ⟨.SCH_CTX_STATE, 47, 39⟩
def F.SCH_CTX_STATE_eff_priority : Field := ⟨.SCH_CTX_STATE, 38, 36⟩
def F.SCH_CTX_STATE_priority : Field := ⟨.SCH_CTX_STATE, 35, 33⟩
def F.SCH_CTX_STATE_reprojection : Field := ⟨.SCH_CTX_STATE, 32, 32⟩
def F.SCH_CTX_STATE_state : Field := ⟨.SCH_CTX_STATE, 2, 0⟩
def F.SCH_RUNNING_switching : Field := ⟨.SCH_RUNNING, 5, 5⟩
def F.SCH_RUNNING_valid : Field := ⟨.SCH_RUNNING, 4, 4⟩
def F.SCH_RUNNING_context : Field := ⟨.SCH_RUNNING, 3, 0⟩
def F.SCH_SWITCH_CNT_switches : Field := ⟨.SCH_SWITCH_CNT, 63, 0⟩
def F.SCH_SAVE_BYTES_CNT_bytes : Field := ⟨.SCH_SAVE_BYTES_CNT, 63, 0⟩
def F.SCH_WATCHDOG_CNT_expiries : Field := ⟨.SCH_WATCHDOG_CNT, 63, 0⟩
def F.SCH_SEM_FORCE_CNT_releases : Field := ⟨.SCH_SEM_FORCE_CNT, 63, 0⟩
def F.SWC_CTL_drain_us : Field := ⟨.SWC_CTL, 63, 32⟩
def F.SWC_CTL_priv_limit_pct : Field := ⟨.SWC_CTL, 23, 16⟩
def F.SWC_CTL_max_hops : Field := ⟨.SWC_CTL, 2, 0⟩
def F.SWC_STATUS_device_id : Field := ⟨.SWC_STATUS, 63, 44⟩
def F.SWC_STATUS_table_state : Field := ⟨.SWC_STATUS, 43, 42⟩
def F.SWC_STATUS_old_frames : Field := ⟨.SWC_STATUS, 41, 8⟩
def F.SWC_STATUS_generation : Field := ⟨.SWC_STATUS, 7, 0⟩
def F.SWC_ARB_WEIGHT_tc5 : Field := ⟨.SWC_ARB_WEIGHT, 39, 32⟩
def F.SWC_ARB_WEIGHT_tc4 : Field := ⟨.SWC_ARB_WEIGHT, 31, 24⟩
def F.SWC_ARB_WEIGHT_tc3 : Field := ⟨.SWC_ARB_WEIGHT, 23, 16⟩
def F.SWC_ARB_WEIGHT_tc1 : Field := ⟨.SWC_ARB_WEIGHT, 15, 8⟩
def F.SWC_ARB_WEIGHT_tc0 : Field := ⟨.SWC_ARB_WEIGHT, 7, 0⟩
def F.SWC_MIRROR_CFG_n_m1 : Field := ⟨.SWC_MIRROR_CFG, 47, 28⟩
def F.SWC_MIRROR_CFG_in_port : Field := ⟨.SWC_MIRROR_CFG, 27, 21⟩
def F.SWC_MIRROR_CFG_tc_mask : Field := ⟨.SWC_MIRROR_CFG, 15, 8⟩
def F.SWC_MIRROR_CFG_enable : Field := ⟨.SWC_MIRROR_CFG, 0, 0⟩
def F.SWC_MIRROR_CNT_dropped : Field := ⟨.SWC_MIRROR_CNT, 63, 32⟩
def F.SWC_MIRROR_CNT_copied : Field := ⟨.SWC_MIRROR_CNT, 31, 0⟩
def F.SWC_DROP_CNT0_no_route : Field := ⟨.SWC_DROP_CNT0, 63, 32⟩
def F.SWC_DROP_CNT0_hop_limit : Field := ⟨.SWC_DROP_CNT0, 31, 0⟩
def F.SWC_DROP_CNT1_port_down : Field := ⟨.SWC_DROP_CNT1, 63, 32⟩
def F.SWC_DROP_CNT1_relookup : Field := ⟨.SWC_DROP_CNT1, 31, 0⟩
def F.SWC_DROP_INFO_valid : Field := ⟨.SWC_DROP_INFO, 63, 63⟩
def F.SWC_DROP_INFO_reason : Field := ⟨.SWC_DROP_INFO, 25, 24⟩
def F.SWC_DROP_INFO_tc : Field := ⟨.SWC_DROP_INFO, 23, 21⟩
def F.SWC_DROP_INFO_in_port : Field := ⟨.SWC_DROP_INFO, 20, 15⟩
def F.SWC_DROP_INFO_hops : Field := ⟨.SWC_DROP_INFO, 14, 12⟩
def F.SWC_DROP_INFO_kind : Field := ⟨.SWC_DROP_INFO, 11, 8⟩
def F.SWC_DROP_INFO_generation : Field := ⟨.SWC_DROP_INFO, 7, 0⟩
def F.SWC_DROP_DST_dst : Field := ⟨.SWC_DROP_DST, 38, 16⟩
def F.SWC_DROP_DST_job : Field := ⟨.SWC_DROP_DST, 15, 0⟩
def F.SWC_PORT_SEL_port : Field := ⟨.SWC_PORT_SEL, 5, 0⟩
def F.SWC_PORT_QUEUE_priv_cells : Field := ⟨.SWC_PORT_QUEUE, 47, 32⟩
def F.SWC_PORT_QUEUE_cells : Field := ⟨.SWC_PORT_QUEUE, 19, 0⟩
def F.SWC_PORT_STAT_stall_us : Field := ⟨.SWC_PORT_STAT, 63, 32⟩
def F.SWC_PORT_STAT_tx_mib : Field := ⟨.SWC_PORT_STAT, 31, 0⟩
def F.SWC_DROP_CNT2_buffer_ue : Field := ⟨.SWC_DROP_CNT2, 31, 0⟩
def F.FPT_CTL_viol_thresh : Field := ⟨.FPT_CTL, 31, 16⟩
def F.FPT_CTL_retry_limit : Field := ⟨.FPT_CTL, 15, 8⟩
def F.FPT_CTL_mode : Field := ⟨.FPT_CTL, 0, 0⟩
def F.FPT_STATUS_partner_dev : Field := ⟨.FPT_STATUS, 63, 44⟩
def F.FPT_STATUS_partner_port : Field := ⟨.FPT_STATUS, 43, 38⟩
def F.FPT_STATUS_fail_reason : Field := ⟨.FPT_STATUS, 31, 24⟩
def F.FPT_STATUS_lanes_locked : Field := ⟨.FPT_STATUS, 23, 16⟩
def F.FPT_STATUS_state : Field := ⟨.FPT_STATUS, 2, 0⟩
def F.FPT_PARTNER_check : Field := ⟨.FPT_PARTNER, 63, 63⟩
def F.FPT_PARTNER_port : Field := ⟨.FPT_PARTNER, 25, 20⟩
def F.FPT_PARTNER_dev : Field := ⟨.FPT_PARTNER, 19, 0⟩
def F.FPT_ETH_CFG_tagged : Field := ⟨.FPT_ETH_CFG, 60, 60⟩
def F.FPT_ETH_CFG_vid : Field := ⟨.FPT_ETH_CFG, 59, 48⟩
def F.FPT_ETH_CFG_mac : Field := ⟨.FPT_ETH_CFG, 47, 0⟩
def F.FPT_ETH_CNT_fcs_errors : Field := ⟨.FPT_ETH_CNT, 63, 32⟩
def F.FPT_ETH_CNT_pause_discarded : Field := ⟨.FPT_ETH_CNT, 31, 0⟩
def F.FPT_LINK_CNT0_fec_corrected : Field := ⟨.FPT_LINK_CNT0, 63, 32⟩
def F.FPT_LINK_CNT0_fec_uncorrectable : Field := ⟨.FPT_LINK_CNT0, 31, 0⟩
def F.FPT_LINK_CNT1_crc_errors : Field := ⟨.FPT_LINK_CNT1, 63, 32⟩
def F.FPT_LINK_CNT1_retries : Field := ⟨.FPT_LINK_CNT1, 31, 0⟩
def F.FPT_VIOL_CNT0_malformed : Field := ⟨.FPT_VIOL_CNT0, 63, 48⟩
def F.FPT_VIOL_CNT0_credit_overflow : Field := ⟨.FPT_VIOL_CNT0, 47, 32⟩
def F.FPT_VIOL_CNT0_bad_sequence : Field := ⟨.FPT_VIOL_CNT0, 31, 16⟩
def F.FPT_VIOL_CNT0_bad_mac : Field := ⟨.FPT_VIOL_CNT0, 15, 0⟩
def F.FPT_VIOL_CNT1_window : Field := ⟨.FPT_VIOL_CNT1, 63, 48⟩
def F.FPT_VIOL_CNT1_refused : Field := ⟨.FPT_VIOL_CNT1, 47, 16⟩
def F.FPT_VIOL_CNT1_bad_control : Field := ⟨.FPT_VIOL_CNT1, 15, 0⟩
def F.FPT_VIOL_INFO_valid : Field := ⟨.FPT_VIOL_INFO, 63, 63⟩
def F.FPT_VIOL_INFO_reason : Field := ⟨.FPT_VIOL_INFO, 35, 33⟩
def F.FPT_VIOL_INFO_tc : Field := ⟨.FPT_VIOL_INFO, 32, 30⟩
def F.FPT_VIOL_INFO_lane : Field := ⟨.FPT_VIOL_INFO, 29, 28⟩
def F.FPT_VIOL_INFO_kind : Field := ⟨.FPT_VIOL_INFO, 27, 20⟩
def F.FPT_VIOL_INFO_link_seq : Field := ⟨.FPT_VIOL_INFO, 19, 0⟩
def F.FPT_CREDIT_SEL_lane : Field := ⟨.FPT_CREDIT_SEL, 4, 3⟩
def F.FPT_CREDIT_SEL_tc : Field := ⟨.FPT_CREDIT_SEL, 2, 0⟩
def F.FPT_CREDIT_SNAP0_issued : Field := ⟨.FPT_CREDIT_SNAP0, 63, 32⟩
def F.FPT_CREDIT_SNAP0_consumed : Field := ⟨.FPT_CREDIT_SNAP0, 31, 0⟩
def F.FPT_CREDIT_SNAP1_received : Field := ⟨.FPT_CREDIT_SNAP1, 63, 32⟩
def F.FPT_CREDIT_SNAP1_spent : Field := ⟨.FPT_CREDIT_SNAP1, 31, 0⟩
def F.FPT_AUDIT_start : Field := ⟨.FPT_AUDIT, 63, 63⟩
def F.FPT_AUDIT_done : Field := ⟨.FPT_AUDIT, 62, 62⟩
def F.FPT_AUDIT_mismatch : Field := ⟨.FPT_AUDIT, 61, 61⟩
def F.FPT_INJ_CFG_select : Field := ⟨.FPT_INJ_CFG, 63, 40⟩
def F.FPT_INJ_CFG_use_prob : Field := ⟨.FPT_INJ_CFG, 39, 39⟩
def F.FPT_INJ_CFG_tc_mask : Field := ⟨.FPT_INJ_CFG, 15, 8⟩
def F.FPT_INJ_CFG_kind : Field := ⟨.FPT_INJ_CFG, 1, 0⟩
def F.FPT_INJ_CNT_injections : Field := ⟨.FPT_INJ_CNT, 63, 0⟩
def F.FPT_LANE_MARGIN_eye_height : Field := ⟨.FPT_LANE_MARGIN, 31, 16⟩
def F.FPT_LANE_MARGIN_eye_width : Field := ⟨.FPT_LANE_MARGIN, 15, 0⟩
def F.GWY_CTL_udp_port : Field := ⟨.GWY_CTL, 47, 32⟩
def F.GWY_CTL_mtu : Field := ⟨.GWY_CTL, 31, 16⟩
def F.GWY_CTL_enable : Field := ⟨.GWY_CTL, 0, 0⟩
def F.GWY_XPORT_CFG_rto_min_us : Field := ⟨.GWY_XPORT_CFG, 63, 48⟩
def F.GWY_XPORT_CFG_delay_target_us : Field := ⟨.GWY_XPORT_CFG, 47, 32⟩
def F.GWY_XPORT_CFG_step : Field := ⟨.GWY_XPORT_CFG, 31, 16⟩
def F.GWY_XPORT_CFG_start : Field := ⟨.GWY_XPORT_CFG, 15, 0⟩
def F.GWY_WC_CFG_rb_hold_us : Field := ⟨.GWY_WC_CFG, 63, 32⟩
def F.GWY_WC_CFG_timeout_us : Field := ⟨.GWY_WC_CFG, 15, 0⟩
def F.GWY_DSCP_dscp : Field := ⟨.GWY_DSCP, 47, 0⟩
def F.GWY_STATUS_conns : Field := ⟨.GWY_STATUS, 31, 16⟩
def F.GWY_STATUS_windows : Field := ⟨.GWY_STATUS, 15, 8⟩
def F.GWY_STATUS_role : Field := ⟨.GWY_STATUS, 0, 0⟩
def F.GWY_DGRAM_CNT_retransmitted : Field := ⟨.GWY_DGRAM_CNT, 63, 32⟩
def F.GWY_DGRAM_CNT_sent : Field := ⟨.GWY_DGRAM_CNT, 31, 0⟩
def F.GWY_DISC_CNT_no_role : Field := ⟨.GWY_DISC_CNT, 63, 48⟩
def F.GWY_DISC_CNT_no_peer : Field := ⟨.GWY_DISC_CNT, 47, 32⟩
def F.GWY_DISC_CNT_conn_lost : Field := ⟨.GWY_DISC_CNT, 31, 0⟩
def F.GWY_WC_CNT_full : Field := ⟨.GWY_WC_CNT, 63, 48⟩
def F.GWY_WC_CNT_timeout : Field := ⟨.GWY_WC_CNT, 47, 32⟩
def F.GWY_WC_CNT_ordered : Field := ⟨.GWY_WC_CNT, 31, 16⟩
def F.GWY_WC_CNT_fence : Field := ⟨.GWY_WC_CNT, 15, 0⟩
def F.GWY_RB_CNT_fetched : Field := ⟨.GWY_RB_CNT, 63, 32⟩
def F.GWY_RB_CNT_hits : Field := ⟨.GWY_RB_CNT, 31, 0⟩
def F.GWY_CONN_SEL_conn : Field := ⟨.GWY_CONN_SEL, 15, 0⟩
def F.GWY_CONN_INFO_peer : Field := ⟨.GWY_CONN_INFO, 63, 44⟩
def F.GWY_CONN_INFO_version : Field := ⟨.GWY_CONN_INFO, 43, 40⟩
def F.GWY_CONN_INFO_srtt_us : Field := ⟨.GWY_CONN_INFO, 31, 16⟩
def F.GWY_CONN_INFO_rate : Field := ⟨.GWY_CONN_INFO, 15, 0⟩
def F.CHT_ID_stepping : Field := ⟨.CHT_ID, 63, 56⟩
def F.CHT_ID_grade : Field := ⟨.CHT_ID, 55, 48⟩
def F.CHT_ID_device_id : Field := ⟨.CHT_ID, 47, 32⟩
def F.CHT_ID_vendor_id : Field := ⟨.CHT_ID, 15, 0⟩
def F.CHT_CTL_hb_timeout_us : Field := ⟨.CHT_CTL, 31, 16⟩
def F.CHT_STATUS_fw_version : Field := ⟨.CHT_STATUS, 63, 32⟩
def F.CHT_STATUS_level : Field := ⟨.CHT_STATUS, 25, 24⟩
def F.CHT_STATUS_peer_role : Field := ⟨.CHT_STATUS, 3, 2⟩
def F.CHT_STATUS_role : Field := ⟨.CHT_STATUS, 1, 0⟩
def F.CHT_TELEM_lost : Field := ⟨.CHT_TELEM, 63, 32⟩
def F.CHT_TELEM_sample_us : Field := ⟨.CHT_TELEM, 31, 0⟩
def F.CHT_CMD_CNT_lost_replies : Field := ⟨.CHT_CMD_CNT, 63, 48⟩
def F.CHT_CMD_CNT_refused : Field := ⟨.CHT_CMD_CNT, 47, 24⟩
def F.CHT_CMD_CNT_accepted : Field := ⟨.CHT_CMD_CNT, 23, 0⟩
def F.CHT_HOST_DENIED_CNT_writes : Field := ⟨.CHT_HOST_DENIED_CNT, 63, 0⟩
def F.CHT_FAILOVER_cause : Field := ⟨.CHT_FAILOVER, 63, 56⟩
def F.CHT_FAILOVER_count : Field := ⟨.CHT_FAILOVER, 31, 0⟩
def F.CHT_RING_CMD_base : Field := ⟨.CHT_RING_CMD, 63, 12⟩
def F.CHT_RING_CMD_size_log2 : Field := ⟨.CHT_RING_CMD, 4, 0⟩
def F.CHT_RING_RPL_base : Field := ⟨.CHT_RING_RPL, 63, 12⟩
def F.CHT_RING_RPL_size_log2 : Field := ⟨.CHT_RING_RPL, 4, 0⟩
def F.CHT_RING_WB_addr : Field := ⟨.CHT_RING_WB, 63, 3⟩
def F.CHT_RING_CFG_vector : Field := ⟨.CHT_RING_CFG, 12, 8⟩
def F.CHT_RING_CFG_enable : Field := ⟨.CHT_RING_CFG, 0, 0⟩
def F.CHT_RING_DB_reply_head : Field := ⟨.CHT_RING_DB, 63, 32⟩
def F.CHT_RING_DB_cmd_tail : Field := ⟨.CHT_RING_DB, 31, 0⟩
def F.CHT_RING_STATUS_reply_tail : Field := ⟨.CHT_RING_STATUS, 63, 32⟩
def F.CHT_RING_STATUS_cmd_head : Field := ⟨.CHT_RING_STATUS, 31, 0⟩
def F.CTC_STATUS_jobs : Field := ⟨.CTC_STATUS, 39, 32⟩
def F.CTC_STATUS_sheets_keyed : Field := ⟨.CTC_STATUS, 31, 24⟩
def F.CTC_STATUS_owner_slots : Field := ⟨.CTC_STATUS, 23, 20⟩
def F.CTC_STATUS_debug : Field := ⟨.CTC_STATUS, 19, 18⟩
def F.CTC_STATUS_boot_fail : Field := ⟨.CTC_STATUS, 15, 8⟩
def F.CTC_STATUS_boot_step : Field := ⟨.CTC_STATUS, 7, 0⟩
def F.CTC_SVN_running : Field := ⟨.CTC_SVN, 63, 32⟩
def F.CTC_SVN_fused : Field := ⟨.CTC_SVN, 7, 0⟩
def F.CTC_DEBUG_unlocks : Field := ⟨.CTC_DEBUG, 63, 32⟩
def F.CTC_DEBUG_remaining_s : Field := ⟨.CTC_DEBUG, 31, 0⟩
def F.CTC_FAIL_CNT_frame_tag : Field := ⟨.CTC_FAIL_CNT, 63, 32⟩
def F.CTC_FAIL_CNT_admit : Field := ⟨.CTC_FAIL_CNT, 31, 16⟩
def F.CTC_FAIL_CNT_session : Field := ⟨.CTC_FAIL_CNT, 15, 0⟩
def F.CTC_FAIL_INFO_valid : Field := ⟨.CTC_FAIL_INFO, 63, 63⟩
def F.CTC_FAIL_INFO_src_dev : Field := ⟨.CTC_FAIL_INFO, 55, 36⟩
def F.CTC_FAIL_INFO_kind : Field := ⟨.CTC_FAIL_INFO, 35, 32⟩
def F.CTC_FAIL_INFO_job : Field := ⟨.CTC_FAIL_INFO, 15, 0⟩
def F.PWR_LIMIT_cclk_floor_mhz : Field := ⟨.PWR_LIMIT, 63, 48⟩
def F.PWR_LIMIT_excursion_ms : Field := ⟨.PWR_LIMIT, 47, 40⟩
def F.PWR_LIMIT_hyst_w : Field := ⟨.PWR_LIMIT, 31, 16⟩
def F.PWR_LIMIT_limit_w : Field := ⟨.PWR_LIMIT, 15, 0⟩
def F.PWR_STATUS_power_w : Field := ⟨.PWR_STATUS, 63, 48⟩
def F.PWR_STATUS_input_mv : Field := ⟨.PWR_STATUS, 47, 32⟩
def F.PWR_STATUS_input_a : Field := ⟨.PWR_STATUS, 31, 22⟩
def F.PWR_STATUS_stage : Field := ⟨.PWR_STATUS, 21, 19⟩
def F.PWR_STATUS_excursion : Field := ⟨.PWR_STATUS, 18, 18⟩
def F.PWR_STATUS_next_excursion_us : Field := ⟨.PWR_STATUS, 17, 0⟩
def F.PWR_THROTTLE_CNT_thermal : Field := ⟨.PWR_THROTTLE_CNT, 63, 32⟩
def F.PWR_THROTTLE_CNT_power : Field := ⟨.PWR_THROTTLE_CNT, 31, 0⟩
def F.PWR_TEMP_SEL_die : Field := ⟨.PWR_TEMP_SEL, 5, 0⟩
def F.PWR_TEMP_trip_c : Field := ⟨.PWR_TEMP, 31, 24⟩
def F.PWR_TEMP_throttle_c : Field := ⟨.PWR_TEMP, 23, 16⟩
def F.PWR_TEMP_peak_c : Field := ⟨.PWR_TEMP, 15, 8⟩
def F.PWR_TEMP_temp_c : Field := ⟨.PWR_TEMP, 7, 0⟩
def F.CLK_STATUS_xclk_mhz : Field := ⟨.CLK_STATUS, 63, 48⟩
def F.CLK_STATUS_hclk_mhz : Field := ⟨.CLK_STATUS, 47, 32⟩
def F.CLK_STATUS_pll_lock : Field := ⟨.CLK_STATUS, 6, 0⟩
def F.CLK_CCLK_fmax_mhz : Field := ⟨.CLK_CCLK, 63, 48⟩
def F.CLK_CCLK_cclk_mhz : Field := ⟨.CLK_CCLK, 47, 32⟩
def F.CLK_CCLK_mv : Field := ⟨.CLK_CCLK, 31, 16⟩
def F.CLK_CCLK_thermal : Field := ⟨.CLK_CCLK, 0, 0⟩
def F.CTR_CTL_replan_s : Field := ⟨.CTR_CTL, 63, 40⟩
def F.CTR_CTL_sample_s : Field := ⟨.CTR_CTL, 39, 24⟩
def F.CTR_CTL_gain : Field := ⟨.CTR_CTL, 23, 8⟩
def F.CTR_CTL_enable : Field := ⟨.CTR_CTL, 0, 0⟩
def F.CTR_STATUS_replans : Field := ⟨.CTR_STATUS, 63, 32⟩
def F.CTR_STATUS_flagged_ports : Field := ⟨.CTR_STATUS, 31, 16⟩
def F.CTR_STATUS_flagged_stacks : Field := ⟨.CTR_STATUS, 15, 0⟩
def F.CTR_SEL_die : Field := ⟨.CTR_SEL, 5, 0⟩
def F.CTR_DIE_years : Field := ⟨.CTR_DIE, 63, 48⟩
def F.CTR_DIE_guard : Field := ⟨.CTR_DIE, 47, 32⟩
def F.CTR_DIE_slack_ps : Field := ⟨.CTR_DIE, 31, 16⟩
def F.CTR_DIE_degradation : Field := ⟨.CTR_DIE, 15, 0⟩
def F.BMK_HDR_version : Field := ⟨.BMK_HDR, 63, 56⟩
def F.BMK_HDR_bytes : Field := ⟨.BMK_HDR, 31, 0⟩
def F.BMK_SEL_offset : Field := ⟨.BMK_SEL, 31, 3⟩
def F.BMK_DATA_word : Field := ⟨.BMK_DATA, 63, 0⟩
def F.BMK_OVERLAY_serial : Field := ⟨.BMK_OVERLAY, 63, 32⟩
def F.BMK_OVERLAY_clamped : Field := ⟨.BMK_OVERLAY, 31, 16⟩
def F.BMK_OVERLAY_entries : Field := ⟨.BMK_OVERLAY, 15, 0⟩
def F.EVT_CTL_teardown_ms : Field := ⟨.EVT_CTL, 31, 16⟩
def F.EVT_CTL_fm_class : Field := ⟨.EVT_CTL, 2, 0⟩
def F.EVT_STATUS_next_seq : Field := ⟨.EVT_STATUS, 63, 32⟩
def F.EVT_STATUS_fm_queue : Field := ⟨.EVT_STATUS, 23, 16⟩
def F.EVT_STATUS_stby_records : Field := ⟨.EVT_STATUS, 15, 8⟩
def F.EVT_STATUS_jobs_stopping : Field := ⟨.EVT_STATUS, 7, 0⟩
def F.EVT_LOST_CNT_overwritten : Field := ⟨.EVT_LOST_CNT, 63, 32⟩
def F.EVT_LOST_CNT_discarded : Field := ⟨.EVT_LOST_CNT, 31, 0⟩
def F.EVT_TEARDOWN_CNT_late_frames : Field := ⟨.EVT_TEARDOWN_CNT, 63, 32⟩
def F.EVT_TEARDOWN_CNT_teardowns : Field := ⟨.EVT_TEARDOWN_CNT, 31, 0⟩
def F.EVT_MISCLOSURE_CNT_misclosures : Field := ⟨.EVT_MISCLOSURE_CNT, 63, 0⟩
def F.EVT_CLASS_CNT_events : Field := ⟨.EVT_CLASS_CNT, 63, 0⟩

/-- The table of each register. A reset value that the spec gives in words ("per fuse map", "per Table 9.3") is 0 here
and is set by `regReset` or computed when the register is read. -/
def regRow : RegName → RegRow
  -- Table 2.12
  | .RMO_CTL => ⟨10, 0x0, 1, 0x0, 1, 0x0,
      [⟨15, 8, .RW, 40⟩, ⟨7, 0, .RW, 8⟩]⟩
  -- Table 2.13
  | .RMO_TIMEOUT => ⟨10, 0x8, 1, 0x0, 1, 0x0,
      [⟨31, 0, .RW, 2000⟩]⟩
  -- Table 2.14
  | .RMO_HBM_WINDOW => ⟨10, 0x40, 8, 0x8, 1, 0x0,
      [⟨40, 0, .RO, 0⟩]⟩
  -- Table 2.15
  | .RMO_FAULT_INFO => ⟨10, 0x80, 8, 0x8, 1, 0x0,
      [⟨63, 63, .W1C, 0⟩, ⟨24, 16, .RO, 0⟩, ⟨15, 0, .RO, 0⟩]⟩
  -- Table 2.16
  | .RMO_FAULT_ADDR => ⟨10, 0xC0, 8, 0x8, 1, 0x0,
      [⟨63, 0, .RO, 0⟩]⟩
  -- Table 2.17
  | .RMO_REPLAY_CNT => ⟨10, 0x100, 1, 0x0, 1, 0x0,
      [⟨63, 0, .RO, 0⟩]⟩
  -- Table 2.18
  | .RMO_DUP_CNT => ⟨10, 0x108, 1, 0x0, 1, 0x0,
      [⟨63, 0, .RO, 0⟩]⟩
  -- Table 2.19
  | .RLC_CTL => ⟨11, 0x0, 1, 0x0, 1, 0x0,
      [⟨8, 8, .WO, 0⟩, ⟨7, 0, .RW, 255⟩]⟩
  -- Table 2.20
  | .RLC_STAT_HIT => ⟨11, 0x100, 1, 0x0, 1, 0x0,
      [⟨63, 0, .RO, 0⟩]⟩
  -- Table 2.21
  | .RLC_STAT_MISS => ⟨11, 0x108, 1, 0x0, 1, 0x0,
      [⟨63, 0, .RO, 0⟩]⟩
  -- Table 2.22
  | .RGD_CTL => ⟨12, 0x0, 1, 0x0, 1, 0x0,
      [⟨0, 0, .RW, 1⟩]⟩
  -- Table 2.23
  | .RGD_VIOL_CNT => ⟨12, 0x8, 1, 0x0, 1, 0x0,
      [⟨63, 0, .RO, 0⟩]⟩
  -- Table 2.24
  | .RGD_VIOL_INFO => ⟨12, 0x10, 1, 0x0, 1, 0x0,
      [⟨63, 63, .W1C, 0⟩, ⟨29, 28, .RO, 0⟩, ⟨27, 20, .RO, 0⟩, ⟨19, 0, .RO, 0⟩]⟩
  -- Table 2.25
  | .RGD_VIOL_ADDR => ⟨12, 0x18, 1, 0x0, 1, 0x0,
      [⟨63, 0, .RO, 0⟩]⟩
  -- Table 3.9
  | .SVY_CTL => ⟨3, 0x0, 1, 0x0, 1, 0x0,
      [⟨16, 16, .WO, 0⟩, ⟨0, 0, .RO, 0⟩]⟩
  -- Table 3.10
  | .SVY_STATUS => ⟨3, 0x10, 1, 0x0, 1, 0x0,
      [⟨39, 32, .RO, 0⟩, ⟨31, 0, .RO, 0⟩]⟩
  -- Table 3.11
  | .SVY_TOKEN_CNT => ⟨3, 0x100, 1, 0x0, 1, 0x0,
      [⟨63, 0, .RO, 0⟩]⟩
  -- Table 3.12
  | .SVY_ASSIGN_CNT => ⟨3, 0x108, 1, 0x0, 1, 0x0,
      [⟨63, 0, .RO, 0⟩]⟩
  -- Table 3.13
  | .SVY_UNROUTED_CNT => ⟨3, 0x110, 1, 0x0, 1, 0x0,
      [⟨63, 0, .RO, 0⟩]⟩
  -- Table 3.14
  | .SVY_BAD_ENTRY_CNT => ⟨3, 0x118, 1, 0x0, 1, 0x0,
      [⟨63, 0, .RO, 0⟩]⟩
  -- Table 3.15
  | .SVY_GVC_HIT => ⟨3, 0x120, 1, 0x0, 1, 0x0,
      [⟨63, 0, .RO, 0⟩]⟩
  -- Table 3.16
  | .SVY_GVC_MISS => ⟨3, 0x128, 1, 0x0, 1, 0x0,
      [⟨63, 0, .RO, 0⟩]⟩
  -- Table 3.17
  | .SVY_FAULT_INFO => ⟨3, 0x140, 1, 0x0, 1, 0x0,
      [⟨63, 63, .W1C, 0⟩, ⟨55, 48, .RO, 0⟩, ⟨47, 16, .RO, 0⟩, ⟨15, 0, .RO, 0⟩]⟩
  -- Table 3.18
  | .GAZ_CTL => ⟨4, 0x0, 1, 0x0, 1, 0x0,
      [⟨8, 8, .WO, 0⟩, ⟨0, 0, .RW, 1⟩]⟩
  -- Table 3.19
  | .GAZ_GEN_STATUS => ⟨4, 0x8, 1, 0x0, 1, 0x0,
      [⟨39, 8, .RO, 0⟩, ⟨6, 4, .RO, 0⟩, ⟨2, 0, .RO, 2⟩]⟩
  -- Table 3.20
  | .GAZ_HALF_TARGET => ⟨4, 0x10, 2, 0x8, 1, 0x0,
      [⟨63, 63, .RO, 0⟩, ⟨31, 0, .RO, 0⟩]⟩
  -- Table 3.21
  | .GAZ_STEP_SEEN => ⟨4, 0x20, 1, 0x0, 1, 0x0,
      [⟨63, 63, .RO, 0⟩, ⟨31, 0, .RO, 0⟩]⟩
  -- Table 3.22
  | .GAZ_CACHE_HIT => ⟨4, 0x100, 1, 0x0, 1, 0x0,
      [⟨63, 0, .RO, 0⟩]⟩
  -- Table 3.23
  | .GAZ_CACHE_MISS => ⟨4, 0x108, 1, 0x0, 1, 0x0,
      [⟨63, 0, .RO, 0⟩]⟩
  -- Table 4.17
  | .PLT_CTL => ⟨5, 0x0, 1, 0x0, 1, 0x0,
      [⟨0, 0, .RO, 0⟩]⟩
  -- Table 4.18
  | .PLT_STATUS => ⟨5, 0x10, 1, 0x0, 1, 0x0,
      [⟨39, 32, .RO, 0⟩, ⟨31, 0, .RO, 0⟩]⟩
  -- Table 4.19
  | .PLT_ASSIGN_CNT => ⟨5, 0x100, 1, 0x0, 1, 0x0,
      [⟨63, 0, .RO, 0⟩]⟩
  -- Table 4.20
  | .PLT_NODEST_CNT => ⟨5, 0x108, 1, 0x0, 1, 0x0,
      [⟨63, 0, .RO, 0⟩]⟩
  -- Table 4.21
  | .PLT_FAULT_INFO => ⟨5, 0x140, 1, 0x0, 1, 0x0,
      [⟨63, 63, .W1C, 0⟩, ⟨55, 48, .RO, 0⟩, ⟨47, 16, .RO, 0⟩, ⟨15, 0, .RO, 0⟩]⟩
  -- Table 4.22
  | .TRV_CTL => ⟨6, 0x0, 1, 0x0, 1, 0x0,
      [⟨0, 0, .RO, 0⟩]⟩
  -- Table 4.23
  | .TRV_TIMEOUT => ⟨6, 0x8, 1, 0x0, 1, 0x0,
      [⟨63, 32, .RW, 500⟩, ⟨31, 0, .RW, 5000⟩]⟩
  -- Table 4.24
  | .TRV_STATUS => ⟨6, 0x10, 1, 0x0, 1, 0x0,
      [⟨39, 32, .RO, 0⟩, ⟨31, 16, .RO, 0⟩, ⟨15, 0, .RO, 0⟩]⟩
  -- Table 4.25
  | .TRV_LET_SEL => ⟨6, 0x20, 1, 0x0, 1, 0x0,
      [⟨11, 0, .RW, 0⟩]⟩
  -- Table 4.26
  | .TRV_LET_INFO => ⟨6, 0x28, 1, 0x0, 1, 0x0,
      [⟨34, 32, .RO, 0⟩, ⟨31, 0, .RO, 0⟩]⟩
  -- Table 4.27
  | .TRV_LET_BAL0 => ⟨6, 0x30, 1, 0x0, 1, 0x0,
      [⟨63, 32, .RO, 0⟩, ⟨31, 0, .RO, 0⟩]⟩
  -- Table 4.28
  | .TRV_LET_BAL1 => ⟨6, 0x38, 1, 0x0, 1, 0x0,
      [⟨63, 32, .RO, 0⟩, ⟨31, 0, .RO, 0⟩]⟩
  -- Table 4.29
  | .TRV_LET_BAL2 => ⟨6, 0x40, 1, 0x0, 1, 0x0,
      [⟨63, 32, .RO, 0⟩, ⟨31, 0, .RO, 0⟩]⟩
  -- Table 4.30
  | .TRV_FOLD_CNT => ⟨6, 0x100, 1, 0x0, 1, 0x0,
      [⟨63, 0, .RO, 0⟩]⟩
  -- Table 4.31
  | .TRV_REDIRECT_CNT => ⟨6, 0x108, 1, 0x0, 1, 0x0,
      [⟨63, 0, .RO, 0⟩]⟩
  -- Table 4.32
  | .TRV_DEFER_CNT => ⟨6, 0x110, 1, 0x0, 1, 0x0,
      [⟨63, 0, .RO, 0⟩]⟩
  -- Table 4.33
  | .TRV_STALE_RETURN_CNT => ⟨6, 0x118, 1, 0x0, 1, 0x0,
      [⟨63, 0, .RO, 0⟩]⟩
  -- Table 4.34
  | .TRV_LATE_CNT => ⟨6, 0x120, 1, 0x0, 1, 0x0,
      [⟨63, 0, .RO, 0⟩]⟩
  -- Table 4.35
  | .TRV_CENSUS_ERR_CNT => ⟨6, 0x128, 1, 0x0, 1, 0x0,
      [⟨63, 0, .RO, 0⟩]⟩
  -- Table 4.36
  | .TRV_DEAD_SKIP_CNT => ⟨6, 0x130, 1, 0x0, 1, 0x0,
      [⟨63, 0, .RO, 0⟩]⟩
  -- Table 4.37
  | .TRV_FAULT_INFO => ⟨6, 0x140, 1, 0x0, 1, 0x0,
      [⟨63, 63, .W1C, 0⟩, ⟨55, 48, .RO, 0⟩, ⟨47, 16, .RO, 0⟩, ⟨15, 0, .RO, 0⟩]⟩
  -- Table 5.9
  | .BPM_CTL => ⟨7, 0x0, 1, 0x0, 1, 0x0,
      [⟨0, 0, .RO, 0⟩]⟩
  -- Table 5.10
  | .BPM_STATUS => ⟨7, 0x10, 1, 0x0, 1, 0x0,
      [⟨39, 32, .RO, 0⟩, ⟨6, 0, .RO, 0⟩]⟩
  -- Table 5.11
  | .BPM_POOL_CFG => ⟨7, 0x1000, 64, 0x40, 1, 0x0,
      [⟨39, 16, .RO, 0⟩, ⟨15, 14, .RO, 0⟩, ⟨13, 12, .RO, 0⟩, ⟨11, 9, .RO, 0⟩, ⟨8, 8, .RO, 0⟩, ⟨7, 7, .RO, 0⟩, ⟨6, 4, .RO, 0⟩]⟩
  -- Table 5.12
  | .BPM_POOL_BASE => ⟨7, 0x1008, 64, 0x40, 1, 0x0,
      [⟨43, 0, .RO, 0⟩]⟩
  -- Table 5.13
  | .BPM_POOL_THRESH => ⟨7, 0x1010, 64, 0x40, 1, 0x0,
      [⟨63, 32, .RO, 0⟩, ⟨31, 24, .RW, 2⟩, ⟨23, 16, .RW, 98⟩, ⟨15, 8, .RW, 90⟩, ⟨7, 0, .RW, 75⟩]⟩
  -- Table 5.14
  | .BPM_POOL_COUNT0 => ⟨7, 0x1018, 64, 0x40, 1, 0x0,
      [⟨63, 32, .RO, 0⟩, ⟨31, 0, .RO, 0⟩]⟩
  -- Table 5.15
  | .BPM_POOL_COUNT1 => ⟨7, 0x1020, 64, 0x40, 1, 0x0,
      [⟨63, 32, .RO, 0⟩, ⟨31, 0, .RO, 0⟩]⟩
  -- Table 5.16
  | .BPM_RETRY_CNT => ⟨7, 0x100, 1, 0x0, 1, 0x0,
      [⟨63, 0, .RO, 0⟩]⟩
  -- Table 5.17
  | .BPM_BADPTR_CNT => ⟨7, 0x108, 1, 0x0, 1, 0x0,
      [⟨63, 0, .RO, 0⟩]⟩
  -- Table 5.18
  | .BPM_REFCOUNT_ERR_CNT => ⟨7, 0x110, 1, 0x0, 1, 0x0,
      [⟨63, 0, .RO, 0⟩]⟩
  -- Table 5.19
  | .BPM_BADPTR_INFO => ⟨7, 0x140, 1, 0x0, 1, 0x0,
      [⟨63, 63, .W1C, 0⟩, ⟨22, 14, .RO, 0⟩, ⟨13, 8, .RO, 0⟩, ⟨7, 0, .RO, 0⟩]⟩
  -- Table 5.20
  | .BPM_BADPTR_ADDR => ⟨7, 0x148, 1, 0x0, 1, 0x0,
      [⟨63, 0, .RO, 0⟩]⟩
  -- Table 6.10
  | .CORE_CTL => ⟨1, 0x0, 1, 0x0, 1, 0x0,
      [⟨0, 0, .RW, 1⟩]⟩
  -- Table 6.11
  | .CORE_STATUS => ⟨1, 0x10, 1, 0x0, 1, 0x0,
      [⟨11, 8, .RO, 0⟩, ⟨3, 3, .RO, 0⟩, ⟨2, 2, .RO, 0⟩, ⟨1, 1, .RO, 0⟩, ⟨0, 0, .RO, 0⟩]⟩
  -- Table 6.12
  | .CORE_GRATICULE => ⟨1, 0x18, 1, 0x0, 1, 0x0,
      [⟨63, 63, .ROF, 0⟩, ⟨39, 32, .RO, 0⟩, ⟨16, 16, .RO, 0⟩, ⟨15, 8, .RO, 0⟩, ⟨7, 0, .RO, 0⟩]⟩
  -- Table 6.13
  | .CORE_FAULT_INFO => ⟨1, 0x140, 1, 0x0, 1, 0x0,
      [⟨63, 63, .W1C, 0⟩, ⟨47, 40, .RO, 0⟩, ⟨39, 33, .RO, 0⟩, ⟨32, 31, .RO, 0⟩, ⟨15, 0, .RO, 0⟩]⟩
  -- Table 6.14
  | .CORE_FAULT_PC => ⟨1, 0x148, 1, 0x0, 1, 0x0,
      [⟨63, 0, .RO, 0⟩]⟩
  -- Table 6.15
  | .CORE_MAC_CNT => ⟨1, 0x100, 1, 0x0, 1, 0x0,
      [⟨63, 0, .RO, 0⟩]⟩
  -- Table 6.16
  | .CORE_ZERO_GATED_CNT => ⟨1, 0x108, 1, 0x0, 1, 0x0,
      [⟨63, 0, .RO, 0⟩]⟩
  -- Table 6.17
  | .CORE_SPARSE_META_CNT => ⟨1, 0x110, 1, 0x0, 1, 0x0,
      [⟨63, 0, .RO, 0⟩]⟩
  -- Table 6.18
  | .CORE_PRED_MISS_CNT => ⟨1, 0x118, 1, 0x0, 1, 0x0,
      [⟨63, 0, .RO, 0⟩]⟩
  -- Table 6.19
  | .CORE_PRED_SAMPLE_CNT => ⟨1, 0x120, 1, 0x0, 1, 0x0,
      [⟨63, 0, .RO, 0⟩]⟩
  -- Table 6.20
  | .MOV_STATUS => ⟨2, 0x10, 1, 0x0, 1, 0x0,
      [⟨3, 0, .RO, 0⟩]⟩
  -- Table 6.21
  | .MOV_BYTES_CNT => ⟨2, 0x100, 1, 0x0, 1, 0x0,
      [⟨63, 0, .RO, 0⟩]⟩
  -- Table 6.22
  | .MOV_COMP_IN_CNT => ⟨2, 0x108, 1, 0x0, 1, 0x0,
      [⟨63, 0, .RO, 0⟩]⟩
  -- Table 6.23
  | .MOV_COMP_OUT_CNT => ⟨2, 0x110, 1, 0x0, 1, 0x0,
      [⟨63, 0, .RO, 0⟩]⟩
  -- Table 6.24
  | .MOV_DENSE_CNT => ⟨2, 0x118, 1, 0x0, 1, 0x0,
      [⟨63, 0, .RO, 0⟩]⟩
  -- Table 6.25
  | .MOV_FAULT_INFO => ⟨2, 0x140, 1, 0x0, 1, 0x0,
      [⟨63, 63, .W1C, 0⟩, ⟨49, 48, .RO, 0⟩, ⟨47, 16, .RO, 0⟩, ⟨15, 0, .RO, 0⟩]⟩
  -- Table 9.8
  | .HCH_CTL => ⟨25, 0x0, 1, 0x0, 1, 0x0,
      [⟨8, 8, .WO, 0⟩, ⟨0, 0, .RW, 1⟩]⟩
  -- Table 9.9
  | .HCH_STATUS => ⟨25, 0x8, 1, 0x0, 1, 0x0,
      [⟨7, 0, .W1C, 0⟩]⟩
  -- Table 9.10
  | .HCH_SEL => ⟨25, 0x10, 1, 0x0, 1, 0x0,
      [⟨10, 8, .RW, 0⟩, ⟨7, 0, .RW, 0⟩]⟩
  -- Table 9.11
  | .HCH_LAYER_STATE => ⟨25, 0x18, 1, 0x0, 1, 0x0,
      [⟨63, 48, .RO, 0⟩, ⟨47, 32, .RO, 0⟩, ⟨31, 0, .RO, 0⟩]⟩
  -- Table 9.12
  | .HCH_LAYER_RATIO => ⟨25, 0x20, 1, 0x0, 1, 0x0,
      [⟨32, 32, .RO, 0⟩, ⟨31, 0, .RO, 0⟩]⟩
  -- Table 9.13
  | .HCH_LATE_CNT => ⟨25, 0x100, 1, 0x0, 1, 0x0,
      [⟨63, 0, .RO, 0⟩]⟩
  -- Table 9.14
  | .HCH_BOUNDS => ⟨25, 0x200, 8, 0x8, 1, 0x0,
      [⟨63, 32, .RW, 1031798784⟩, ⟨31, 0, .RW, 897581056⟩]⟩
  -- Table 9.15
  | .HCH_LIMIT => ⟨25, 0x240, 8, 0x8, 1, 0x0,
      [⟨16, 16, .RW, 0⟩, ⟨15, 0, .RW, 64⟩]⟩
  -- Table 9.16
  | .HCH_RECIPE => ⟨25, 0x400, 8, 0x40, 8, 0x8,
      [⟨23, 17, .RW, 0⟩, ⟨16, 13, .RW, 0⟩, ⟨12, 12, .RW, 0⟩, ⟨9, 8, .RW, 0⟩, ⟨3, 0, .RW, 0⟩]⟩
  -- Table 9.17
  | .HCH_Q_UNDERFLOW => ⟨25, 0x1000, 8, 0x40, 8, 0x8,
      [⟨63, 0, .RO, 0⟩]⟩
  -- Table 9.18
  | .HCH_Q_OVERFLOW => ⟨25, 0x1200, 8, 0x40, 8, 0x8,
      [⟨63, 0, .RO, 0⟩]⟩
  -- Table 9.19
  | .HCH_Q_FLUSH => ⟨25, 0x1400, 8, 0x40, 8, 0x8,
      [⟨63, 0, .RO, 0⟩]⟩
  -- Table 9.20
  | .HCH_Q_CLAMP => ⟨25, 0x1600, 8, 0x40, 8, 0x8,
      [⟨63, 0, .RO, 0⟩]⟩
  -- Table 9.21
  | .MOV_QNT_SUBMIT => ⟨2, 0x200, 1, 0x0, 1, 0x0,
      [⟨23, 0, .WO, 0⟩]⟩
  -- Table 9.22
  | .MOV_QNT_STATUS => ⟨2, 0x208, 1, 0x0, 1, 0x0,
      [⟨63, 63, .W1C, 0⟩, ⟨51, 48, .RO, 0⟩, ⟨47, 16, .RO, 0⟩, ⟨15, 0, .RO, 0⟩]⟩
  -- Table 10.9
  | .MHB_CTL => ⟨8, 0x0, 1, 0x0, 1, 0x0,
      [⟨8, 8, .RW, 1⟩, ⟨7, 0, .RW, 10⟩]⟩
  -- Table 10.10
  | .MHB_STATUS => ⟨8, 0x10, 1, 0x0, 1, 0x0,
      [⟨47, 40, .RO, 0⟩, ⟨39, 32, .RO, 0⟩, ⟨9, 8, .RO, 0⟩, ⟨1, 0, .RO, 0⟩]⟩
  -- Table 10.11
  | .MHB_CE_CNT => ⟨8, 0x100, 1, 0x0, 1, 0x0,
      [⟨63, 0, .RO, 0⟩]⟩
  -- Table 10.12
  | .MHB_UE_CNT => ⟨8, 0x108, 1, 0x0, 1, 0x0,
      [⟨63, 0, .RO, 0⟩]⟩
  -- Table 10.13
  | .MHB_MARKED => ⟨8, 0x110, 1, 0x0, 1, 0x0,
      [⟨12, 0, .RO, 0⟩]⟩
  -- Table 10.14
  | .MHB_UE_INFO => ⟨8, 0x140, 1, 0x0, 1, 0x0,
      [⟨63, 63, .W1C, 0⟩, ⟨21, 16, .RO, 0⟩, ⟨7, 0, .RO, 0⟩]⟩
  -- Table 10.15
  | .MHB_UE_ADDR => ⟨8, 0x148, 1, 0x0, 1, 0x0,
      [⟨35, 0, .RO, 0⟩]⟩
  -- Table 10.16
  | .NMA_CTL => ⟨9, 0x0, 1, 0x0, 1, 0x0,
      [⟨23, 8, .RW, 100⟩, ⟨1, 1, .RW, 0⟩, ⟨0, 0, .RO, 0⟩]⟩
  -- Table 10.17
  | .NMA_STATUS => ⟨9, 0x10, 1, 0x0, 1, 0x0,
      [⟨63, 48, .RO, 0⟩, ⟨47, 40, .RO, 0⟩, ⟨39, 32, .RO, 0⟩, ⟨15, 0, .RO, 32768⟩]⟩
  -- Table 10.18
  | .NMA_CTX_SEL => ⟨9, 0x20, 1, 0x0, 1, 0x0,
      [⟨5, 0, .RW, 0⟩]⟩
  -- Table 10.19
  | .NMA_CTX_KEY => ⟨9, 0x28, 1, 0x0, 1, 0x0,
      [⟨47, 32, .RO, 0⟩, ⟨31, 0, .RO, 0⟩]⟩
  -- Table 10.20
  | .NMA_CTX_INFO => ⟨9, 0x30, 1, 0x0, 1, 0x0,
      [⟨63, 62, .RO, 0⟩, ⟨61, 61, .RO, 0⟩, ⟨60, 60, .RO, 0⟩, ⟨59, 40, .RO, 0⟩, ⟨31, 0, .RO, 0⟩]⟩
  -- Table 10.21
  | .NMA_CTX_ACCEPTED => ⟨9, 0x38, 1, 0x0, 1, 0x0,
      [⟨63, 0, .RO, 0⟩]⟩
  -- Table 10.22
  | .NMA_CTX_COMMITTED => ⟨9, 0x40, 1, 0x0, 1, 0x0,
      [⟨63, 0, .RO, 0⟩]⟩
  -- Table 10.23
  | .NMA_ADD_CNT => ⟨9, 0x100, 1, 0x0, 1, 0x0,
      [⟨63, 0, .RO, 0⟩]⟩
  -- Table 10.24
  | .NMA_SPILL_CNT => ⟨9, 0x108, 1, 0x0, 1, 0x0,
      [⟨63, 0, .RO, 0⟩]⟩
  -- Table 10.25
  | .NMA_COMPLETE_CNT => ⟨9, 0x110, 1, 0x0, 1, 0x0,
      [⟨63, 0, .RO, 0⟩]⟩
  -- Table 10.26
  | .NMA_ERR_CNT => ⟨9, 0x118, 1, 0x0, 1, 0x0,
      [⟨63, 0, .RO, 0⟩]⟩
  -- Table 10.27
  | .NMA_NAN_CNT => ⟨9, 0x120, 1, 0x0, 1, 0x0,
      [⟨63, 0, .RO, 0⟩]⟩
  -- Table 10.28
  | .NMA_ERR_INFO => ⟨9, 0x140, 1, 0x0, 1, 0x0,
      [⟨63, 63, .W1C, 0⟩, ⟨51, 32, .RO, 0⟩, ⟨31, 16, .RO, 0⟩, ⟨15, 0, .RO, 0⟩]⟩
  -- Table 10.29
  | .NMA_ERR_BUCKET => ⟨9, 0x148, 1, 0x0, 1, 0x0,
      [⟨31, 0, .RO, 0⟩]⟩
  -- Table 12.8
  | .DGC_CTL => ⟨0, 0x0, 1, 0x0, 1, 0x0,
      [⟨15, 8, .RW, 0⟩, ⟨0, 0, .RW, 0⟩]⟩
  -- Table 12.9
  | .DGC_STATUS => ⟨0, 0x10, 1, 0x0, 1, 0x0,
      [⟨32, 32, .RO, 0⟩, ⟨31, 0, .RO, 0⟩]⟩
  -- Table 12.10
  | .DTM_CTL => ⟨20, 0x0, 1, 0x0, 1, 0x0,
      [⟨47, 42, .RW, 0⟩, ⟨41, 36, .RW, 0⟩, ⟨8, 8, .RW, 0⟩, ⟨7, 4, .RW, 0⟩, ⟨0, 0, .RW, 0⟩]⟩
  -- Table 12.11
  | .DTM_STATUS => ⟨20, 0x10, 1, 0x0, 1, 0x0,
      [⟨39, 32, .RO, 0⟩, ⟨31, 16, .RO, 0⟩, ⟨2, 0, .RO, 0⟩]⟩
  -- Table 12.12
  | .DTM_NOW => ⟨20, 0x18, 1, 0x0, 1, 0x0,
      [⟨63, 0, .RO, 0⟩]⟩
  -- Table 12.13
  | .DTM_OFFSET => ⟨20, 0x20, 1, 0x0, 1, 0x0,
      [⟨63, 32, .RO, 0⟩, ⟨31, 0, .RO, 0⟩]⟩
  -- Table 12.14
  | .DTM_PPS_CAPTURE => ⟨20, 0x28, 1, 0x0, 1, 0x0,
      [⟨63, 0, .RO, 0⟩]⟩
  -- Table 12.15
  | .DTM_PTP_CFG => ⟨20, 0x30, 1, 0x0, 1, 0x0,
      [⟨63, 40, .RO, 0⟩, ⟨39, 32, .RW, 128⟩, ⟨31, 24, .RW, 128⟩, ⟨23, 16, .RW, 0⟩, ⟨9, 9, .RW, 0⟩, ⟨8, 8, .RW, 0⟩, ⟨5, 0, .RW, 0⟩]⟩
  -- Table 12.16
  | .DTM_PTP_ORIGIN => ⟨20, 0x38, 1, 0x0, 1, 0x0,
      [⟨63, 0, .RW, 0⟩]⟩
  -- Table 12.17
  | .DTM_LAUNCH_STATUS => ⟨20, 0x40, 1, 0x0, 1, 0x0,
      [⟨39, 8, .RO, 0⟩, ⟨6, 0, .RO, 0⟩]⟩
  -- Table 13.11
  | .SHT_CFG => ⟨23, 0x0, 8, 0x8, 1, 0x0,
      [⟨23, 20, .RO, 0⟩, ⟨15, 8, .RO, 0⟩, ⟨7, 4, .RO, 0⟩, ⟨1, 0, .RO, 0⟩]⟩
  -- Table 13.12
  | .SHT_TIMING => ⟨23, 0x40, 8, 0x8, 1, 0x0,
      [⟨63, 48, .RO, 10⟩, ⟨47, 32, .RO, 100⟩, ⟨31, 0, .RO, 2000⟩]⟩
  -- Table 13.13
  | .SHT_SERVE => ⟨23, 0x80, 8, 0x8, 1, 0x0,
      [⟨47, 32, .RO, 512⟩, ⟨31, 0, .RO, 0⟩]⟩
  -- Table 13.14
  | .SCH_CTX_SEL => ⟨24, 0x100, 1, 0x0, 1, 0x0,
      [⟨6, 4, .RW, 0⟩, ⟨3, 0, .RW, 0⟩]⟩
  -- Table 13.15
  | .SCH_CTX_STATE => ⟨24, 0x108, 1, 0x0, 1, 0x0,
      [⟨63, 48, .RO, 0⟩, ⟨47, 39, .RO, 0⟩, ⟨38, 36, .RO, 0⟩, ⟨35, 33, .RO, 0⟩, ⟨32, 32, .RO, 0⟩, ⟨2, 0, .RO, 0⟩]⟩
  -- Table 13.16
  | .SCH_RUNNING => ⟨24, 0x140, 8, 0x8, 1, 0x0,
      [⟨5, 5, .RO, 0⟩, ⟨4, 4, .RO, 0⟩, ⟨3, 0, .RO, 0⟩]⟩
  -- Table 13.17
  | .SCH_SWITCH_CNT => ⟨24, 0x200, 1, 0x0, 1, 0x0,
      [⟨63, 0, .RO, 0⟩]⟩
  -- Table 13.18
  | .SCH_SAVE_BYTES_CNT => ⟨24, 0x208, 1, 0x0, 1, 0x0,
      [⟨63, 0, .RO, 0⟩]⟩
  -- Table 13.19
  | .SCH_WATCHDOG_CNT => ⟨24, 0x210, 1, 0x0, 1, 0x0,
      [⟨63, 0, .RO, 0⟩]⟩
  -- Table 13.20
  | .SCH_SEM_FORCE_CNT => ⟨24, 0x218, 1, 0x0, 1, 0x0,
      [⟨63, 0, .RO, 0⟩]⟩
  -- Table 14.9
  | .SWC_CTL => ⟨13, 0x0, 1, 0x0, 1, 0x0,
      [⟨63, 32, .RW, 1000⟩, ⟨23, 16, .RW, 25⟩, ⟨2, 0, .RW, 3⟩]⟩
  -- Table 14.10
  | .SWC_STATUS => ⟨13, 0x10, 1, 0x0, 1, 0x0,
      [⟨63, 44, .RO, 0⟩, ⟨43, 42, .RO, 0⟩, ⟨41, 8, .RO, 0⟩, ⟨7, 0, .RO, 0⟩]⟩
  -- Table 14.11
  | .SWC_ARB_WEIGHT => ⟨13, 0x18, 1, 0x0, 1, 0x0,
      [⟨39, 32, .RW, 1⟩, ⟨31, 24, .RW, 2⟩, ⟨23, 16, .RW, 4⟩, ⟨15, 8, .RW, 4⟩, ⟨7, 0, .RW, 8⟩]⟩
  -- Table 14.12
  | .SWC_MIRROR_CFG => ⟨13, 0x20, 1, 0x0, 1, 0x0,
      [⟨47, 28, .RW, 0⟩, ⟨27, 21, .RW, 127⟩, ⟨15, 8, .RW, 255⟩, ⟨0, 0, .RW, 0⟩]⟩
  -- Table 14.13
  | .SWC_MIRROR_CNT => ⟨13, 0x100, 1, 0x0, 1, 0x0,
      [⟨63, 32, .RO, 0⟩, ⟨31, 0, .RO, 0⟩]⟩
  -- Table 14.14
  | .SWC_DROP_CNT0 => ⟨13, 0x108, 1, 0x0, 1, 0x0,
      [⟨63, 32, .RO, 0⟩, ⟨31, 0, .RO, 0⟩]⟩
  -- Table 14.15
  | .SWC_DROP_CNT1 => ⟨13, 0x110, 1, 0x0, 1, 0x0,
      [⟨63, 32, .RO, 0⟩, ⟨31, 0, .RO, 0⟩]⟩
  -- Table 14.16
  | .SWC_DROP_INFO => ⟨13, 0x140, 1, 0x0, 1, 0x0,
      [⟨63, 63, .W1C, 0⟩, ⟨25, 24, .RO, 0⟩, ⟨23, 21, .RO, 0⟩, ⟨20, 15, .RO, 0⟩, ⟨14, 12, .RO, 0⟩, ⟨11, 8, .RO, 0⟩, ⟨7, 0, .RO, 0⟩]⟩
  -- Table 14.17
  | .SWC_DROP_DST => ⟨13, 0x148, 1, 0x0, 1, 0x0,
      [⟨38, 16, .RO, 0⟩, ⟨15, 0, .RO, 0⟩]⟩
  -- Table 14.18
  | .SWC_PORT_SEL => ⟨13, 0x200, 1, 0x0, 1, 0x0,
      [⟨5, 0, .RW, 0⟩]⟩
  -- Table 14.19
  | .SWC_PORT_QUEUE => ⟨13, 0x208, 1, 0x0, 1, 0x0,
      [⟨47, 32, .RO, 0⟩, ⟨19, 0, .RO, 0⟩]⟩
  -- Table 14.20
  | .SWC_PORT_STAT => ⟨13, 0x210, 1, 0x0, 1, 0x0,
      [⟨63, 32, .RO, 0⟩, ⟨31, 0, .RO, 0⟩]⟩
  -- Table 14.21
  | .SWC_DROP_CNT2 => ⟨13, 0x118, 1, 0x0, 1, 0x0,
      [⟨31, 0, .RO, 0⟩]⟩
  -- Table 15.8
  | .FPT_CTL => ⟨14, 0x0, 1, 0x0, 1, 0x0,
      [⟨31, 16, .RW, 1000⟩, ⟨15, 8, .RW, 8⟩, ⟨0, 0, .RW, 0⟩]⟩
  -- Table 15.9
  | .FPT_STATUS => ⟨14, 0x10, 1, 0x0, 1, 0x0,
      [⟨63, 44, .RO, 0⟩, ⟨43, 38, .RO, 0⟩, ⟨31, 24, .RO, 0⟩, ⟨23, 16, .RO, 0⟩, ⟨2, 0, .RO, 0⟩]⟩
  -- Table 15.10
  | .FPT_PARTNER => ⟨14, 0x18, 1, 0x0, 1, 0x0,
      [⟨63, 63, .RW, 0⟩, ⟨25, 20, .RW, 0⟩, ⟨19, 0, .RW, 0⟩]⟩
  -- Table 15.11
  | .FPT_ETH_CFG => ⟨14, 0x20, 1, 0x0, 1, 0x0,
      [⟨60, 60, .RW, 0⟩, ⟨59, 48, .RW, 0⟩, ⟨47, 0, .RW, 0⟩]⟩
  -- Table 15.12
  | .FPT_ETH_CNT => ⟨14, 0x28, 1, 0x0, 1, 0x0,
      [⟨63, 32, .RO, 0⟩, ⟨31, 0, .RO, 0⟩]⟩
  -- Table 15.13
  | .FPT_LINK_CNT0 => ⟨14, 0x100, 1, 0x0, 1, 0x0,
      [⟨63, 32, .RO, 0⟩, ⟨31, 0, .RO, 0⟩]⟩
  -- Table 15.14
  | .FPT_LINK_CNT1 => ⟨14, 0x108, 1, 0x0, 1, 0x0,
      [⟨63, 32, .RO, 0⟩, ⟨31, 0, .RO, 0⟩]⟩
  -- Table 15.15
  | .FPT_VIOL_CNT0 => ⟨14, 0x110, 1, 0x0, 1, 0x0,
      [⟨63, 48, .RO, 0⟩, ⟨47, 32, .RO, 0⟩, ⟨31, 16, .RO, 0⟩, ⟨15, 0, .RO, 0⟩]⟩
  -- Table 15.16
  | .FPT_VIOL_CNT1 => ⟨14, 0x118, 1, 0x0, 1, 0x0,
      [⟨63, 48, .RO, 0⟩, ⟨47, 16, .RO, 0⟩, ⟨15, 0, .RO, 0⟩]⟩
  -- Table 15.17
  | .FPT_VIOL_INFO => ⟨14, 0x140, 1, 0x0, 1, 0x0,
      [⟨63, 63, .W1C, 0⟩, ⟨35, 33, .RO, 0⟩, ⟨32, 30, .RO, 0⟩, ⟨29, 28, .RO, 0⟩, ⟨27, 20, .RO, 0⟩, ⟨19, 0, .RO, 0⟩]⟩
  -- Table 15.18
  | .FPT_CREDIT_SEL => ⟨14, 0x200, 1, 0x0, 1, 0x0,
      [⟨4, 3, .RW, 0⟩, ⟨2, 0, .RW, 0⟩]⟩
  -- Table 15.19
  | .FPT_CREDIT_SNAP0 => ⟨14, 0x208, 1, 0x0, 1, 0x0,
      [⟨63, 32, .RO, 0⟩, ⟨31, 0, .RO, 0⟩]⟩
  -- Table 15.20
  | .FPT_CREDIT_SNAP1 => ⟨14, 0x210, 1, 0x0, 1, 0x0,
      [⟨63, 32, .RO, 0⟩, ⟨31, 0, .RO, 0⟩]⟩
  -- Table 15.21
  | .FPT_AUDIT => ⟨14, 0x218, 1, 0x0, 1, 0x0,
      [⟨63, 63, .WO, 0⟩, ⟨62, 62, .RO, 0⟩, ⟨61, 61, .RO, 0⟩]⟩
  -- Table 15.22
  | .FPT_INJ_CFG => ⟨14, 0x300, 1, 0x0, 1, 0x0,
      [⟨63, 40, .RO, 0⟩, ⟨39, 39, .RO, 0⟩, ⟨15, 8, .RO, 0⟩, ⟨1, 0, .RO, 0⟩]⟩
  -- Table 15.23
  | .FPT_INJ_CNT => ⟨14, 0x308, 1, 0x0, 1, 0x0,
      [⟨63, 0, .RO, 0⟩]⟩
  -- Table 15.24
  | .FPT_LANE_MARGIN => ⟨14, 0x400, 8, 0x8, 1, 0x0,
      [⟨31, 16, .RO, 0⟩, ⟨15, 0, .RO, 0⟩]⟩
  -- Table 16.8
  | .GWY_CTL => ⟨15, 0x0, 1, 0x0, 1, 0x0,
      [⟨47, 32, .RW, 0⟩, ⟨31, 16, .RW, 9000⟩, ⟨0, 0, .RW, 0⟩]⟩
  -- Table 16.9
  | .GWY_XPORT_CFG => ⟨15, 0x8, 1, 0x0, 1, 0x0,
      [⟨63, 48, .RW, 40⟩, ⟨47, 32, .RW, 50⟩, ⟨31, 16, .RW, 20⟩, ⟨15, 0, .RW, 250⟩]⟩
  -- Table 16.10
  | .GWY_WC_CFG => ⟨15, 0x10, 1, 0x0, 1, 0x0,
      [⟨63, 32, .RW, 100⟩, ⟨15, 0, .RW, 20⟩]⟩
  -- Table 16.11
  | .GWY_DSCP => ⟨15, 0x18, 1, 0x0, 1, 0x0,
      [⟨47, 0, .RW, 0⟩]⟩
  -- Table 16.12
  | .GWY_STATUS => ⟨15, 0x20, 1, 0x0, 1, 0x0,
      [⟨31, 16, .RO, 0⟩, ⟨15, 8, .RO, 0⟩, ⟨0, 0, .RO, 0⟩]⟩
  -- Table 16.13
  | .GWY_DGRAM_CNT => ⟨15, 0x100, 1, 0x0, 1, 0x0,
      [⟨63, 32, .RO, 0⟩, ⟨31, 0, .RO, 0⟩]⟩
  -- Table 16.14
  | .GWY_DISC_CNT => ⟨15, 0x108, 1, 0x0, 1, 0x0,
      [⟨63, 48, .RO, 0⟩, ⟨47, 32, .RO, 0⟩, ⟨31, 0, .RO, 0⟩]⟩
  -- Table 16.15
  | .GWY_WC_CNT => ⟨15, 0x110, 1, 0x0, 1, 0x0,
      [⟨63, 48, .RO, 0⟩, ⟨47, 32, .RO, 0⟩, ⟨31, 16, .RO, 0⟩, ⟨15, 0, .RO, 0⟩]⟩
  -- Table 16.16
  | .GWY_RB_CNT => ⟨15, 0x118, 1, 0x0, 1, 0x0,
      [⟨63, 32, .RO, 0⟩, ⟨31, 0, .RO, 0⟩]⟩
  -- Table 16.17
  | .GWY_CONN_SEL => ⟨15, 0x200, 1, 0x0, 1, 0x0,
      [⟨15, 0, .RW, 0⟩]⟩
  -- Table 16.18
  | .GWY_CONN_INFO => ⟨15, 0x208, 1, 0x0, 1, 0x0,
      [⟨63, 44, .RO, 0⟩, ⟨43, 40, .RO, 0⟩, ⟨31, 16, .RO, 0⟩, ⟨15, 0, .RO, 0⟩]⟩
  -- Table 17.11
  | .CHT_ID => ⟨16, 0x0, 1, 0x0, 1, 0x0,
      [⟨63, 56, .ROF, 177⟩, ⟨55, 48, .ROF, 0⟩, ⟨47, 32, .ROF, 1600⟩, ⟨15, 0, .ROF, 8147⟩]⟩
  -- Table 17.12
  | .CHT_CTL => ⟨16, 0x8, 1, 0x0, 1, 0x0,
      [⟨31, 16, .RW, 1000⟩]⟩
  -- Table 17.13
  | .CHT_STATUS => ⟨16, 0x10, 1, 0x0, 1, 0x0,
      [⟨63, 32, .RO, 0⟩, ⟨25, 24, .RO, 0⟩, ⟨3, 2, .RO, 0⟩, ⟨1, 0, .RO, 0⟩]⟩
  -- Table 17.14
  | .CHT_TELEM => ⟨16, 0x20, 1, 0x0, 1, 0x0,
      [⟨63, 32, .RO, 0⟩, ⟨31, 0, .RO, 0⟩]⟩
  -- Table 17.15
  | .CHT_CMD_CNT => ⟨16, 0x100, 1, 0x0, 1, 0x0,
      [⟨63, 48, .RO, 0⟩, ⟨47, 24, .RO, 0⟩, ⟨23, 0, .RO, 0⟩]⟩
  -- Table 17.16
  | .CHT_HOST_DENIED_CNT => ⟨16, 0x108, 1, 0x0, 1, 0x0,
      [⟨63, 0, .RO, 0⟩]⟩
  -- Table 17.17
  | .CHT_FAILOVER => ⟨16, 0x110, 1, 0x0, 1, 0x0,
      [⟨63, 56, .RO, 0⟩, ⟨31, 0, .RO, 0⟩]⟩
  -- Table 17.18
  | .CHT_RING_CMD => ⟨16, 0x1000, 16, 0x40, 1, 0x0,
      [⟨63, 12, .RW, 0⟩, ⟨4, 0, .RW, 6⟩]⟩
  -- Table 17.19
  | .CHT_RING_RPL => ⟨16, 0x1008, 16, 0x40, 1, 0x0,
      [⟨63, 12, .RW, 0⟩, ⟨4, 0, .RW, 6⟩]⟩
  -- Table 17.20
  | .CHT_RING_WB => ⟨16, 0x1010, 16, 0x40, 1, 0x0,
      [⟨63, 3, .RW, 0⟩]⟩
  -- Table 17.21
  | .CHT_RING_CFG => ⟨16, 0x1018, 16, 0x40, 1, 0x0,
      [⟨12, 8, .RW, 0⟩, ⟨0, 0, .RW, 0⟩]⟩
  -- Table 17.22
  | .CHT_RING_DB => ⟨16, 0x1020, 16, 0x40, 1, 0x0,
      [⟨63, 32, .RW, 0⟩, ⟨31, 0, .RW, 0⟩]⟩
  -- Table 17.23
  | .CHT_RING_STATUS => ⟨16, 0x1028, 16, 0x40, 1, 0x0,
      [⟨63, 32, .RO, 0⟩, ⟨31, 0, .RO, 0⟩]⟩
  -- Table 18.10
  | .CTC_STATUS => ⟨17, 0x0, 1, 0x0, 1, 0x0,
      [⟨39, 32, .RO, 0⟩, ⟨31, 24, .RO, 0⟩, ⟨23, 20, .RO, 0⟩, ⟨19, 18, .RO, 0⟩, ⟨15, 8, .RO, 0⟩, ⟨7, 0, .RO, 0⟩]⟩
  -- Table 18.11
  | .CTC_SVN => ⟨17, 0x8, 1, 0x0, 1, 0x0,
      [⟨63, 32, .RO, 0⟩, ⟨7, 0, .ROF, 0⟩]⟩
  -- Table 18.12
  | .CTC_DEBUG => ⟨17, 0x10, 1, 0x0, 1, 0x0,
      [⟨63, 32, .RO, 0⟩, ⟨31, 0, .RO, 0⟩]⟩
  -- Table 18.13
  | .CTC_FAIL_CNT => ⟨17, 0x100, 1, 0x0, 1, 0x0,
      [⟨63, 32, .RO, 0⟩, ⟨31, 16, .RO, 0⟩, ⟨15, 0, .RO, 0⟩]⟩
  -- Table 18.14
  | .CTC_FAIL_INFO => ⟨17, 0x140, 1, 0x0, 1, 0x0,
      [⟨63, 63, .W1C, 0⟩, ⟨55, 36, .RO, 0⟩, ⟨35, 32, .RO, 0⟩, ⟨15, 0, .RO, 0⟩]⟩
  -- Table 19.9
  | .PWR_LIMIT => ⟨18, 0x0, 1, 0x0, 1, 0x0,
      [⟨63, 48, .RW, 1000⟩, ⟨47, 40, .RW, 10⟩, ⟨31, 16, .RW, 50⟩, ⟨15, 0, .RW, 4200⟩]⟩
  -- Table 19.10
  | .PWR_STATUS => ⟨18, 0x10, 1, 0x0, 1, 0x0,
      [⟨63, 48, .RO, 0⟩, ⟨47, 32, .RO, 0⟩, ⟨31, 22, .RO, 0⟩, ⟨21, 19, .RO, 0⟩, ⟨18, 18, .RO, 0⟩, ⟨17, 0, .RO, 0⟩]⟩
  -- Table 19.11
  | .PWR_THROTTLE_CNT => ⟨18, 0x100, 1, 0x0, 1, 0x0,
      [⟨63, 32, .RO, 0⟩, ⟨31, 0, .RO, 0⟩]⟩
  -- Table 19.12
  | .PWR_TEMP_SEL => ⟨18, 0x200, 1, 0x0, 1, 0x0,
      [⟨5, 0, .RW, 0⟩]⟩
  -- Table 19.13
  | .PWR_TEMP => ⟨18, 0x208, 1, 0x0, 1, 0x0,
      [⟨31, 24, .RO, 0⟩, ⟨23, 16, .RO, 0⟩, ⟨15, 8, .RO, 0⟩, ⟨7, 0, .RO, 0⟩]⟩
  -- Table 19.14
  | .CLK_STATUS => ⟨19, 0x10, 1, 0x0, 1, 0x0,
      [⟨63, 48, .RO, 1200⟩, ⟨47, 32, .RO, 1000⟩, ⟨6, 0, .RO, 0⟩]⟩
  -- Table 19.15
  | .CLK_CCLK => ⟨19, 0x100, 32, 0x8, 1, 0x0,
      [⟨63, 48, .RO, 0⟩, ⟨47, 32, .RO, 1500⟩, ⟨31, 16, .RO, 0⟩, ⟨0, 0, .RO, 0⟩]⟩
  -- Table 19.16
  | .CTR_CTL => ⟨21, 0x0, 1, 0x0, 1, 0x0,
      [⟨63, 40, .RW, 86400⟩, ⟨39, 24, .RW, 10⟩, ⟨23, 8, .RW, 256⟩, ⟨0, 0, .RW, 1⟩]⟩
  -- Table 19.17
  | .CTR_STATUS => ⟨21, 0x10, 1, 0x0, 1, 0x0,
      [⟨63, 32, .RO, 0⟩, ⟨31, 16, .RO, 0⟩, ⟨15, 0, .RO, 0⟩]⟩
  -- Table 19.18
  | .CTR_SEL => ⟨21, 0x20, 1, 0x0, 1, 0x0,
      [⟨5, 0, .RW, 0⟩]⟩
  -- Table 19.19
  | .CTR_DIE => ⟨21, 0x28, 1, 0x0, 1, 0x0,
      [⟨63, 48, .RO, 65535⟩, ⟨47, 32, .RO, 0⟩, ⟨31, 16, .RO, 0⟩, ⟨15, 0, .RO, 0⟩]⟩
  -- Table 19.20
  | .BMK_HDR => ⟨22, 0x0, 1, 0x0, 1, 0x0,
      [⟨63, 56, .ROF, 0⟩, ⟨31, 0, .ROF, 0⟩]⟩
  -- Table 19.21
  | .BMK_SEL => ⟨22, 0x8, 1, 0x0, 1, 0x0,
      [⟨31, 3, .RW, 0⟩]⟩
  -- Table 19.22
  | .BMK_DATA => ⟨22, 0x10, 1, 0x0, 1, 0x0,
      [⟨63, 0, .ROF, 0⟩]⟩
  -- Table 19.23
  | .BMK_OVERLAY => ⟨22, 0x18, 1, 0x0, 1, 0x0,
      [⟨63, 32, .RO, 0⟩, ⟨31, 16, .RO, 0⟩, ⟨15, 0, .RO, 0⟩]⟩
  -- Table 20.11
  | .EVT_CTL => ⟨26, 0x0, 1, 0x0, 1, 0x0,
      [⟨31, 16, .RW, 50⟩, ⟨2, 0, .RW, 3⟩]⟩
  -- Table 20.12
  | .EVT_STATUS => ⟨26, 0x10, 1, 0x0, 1, 0x0,
      [⟨63, 32, .RO, 0⟩, ⟨23, 16, .RO, 0⟩, ⟨15, 8, .RO, 0⟩, ⟨7, 0, .RO, 0⟩]⟩
  -- Table 20.13
  | .EVT_LOST_CNT => ⟨26, 0x100, 1, 0x0, 1, 0x0,
      [⟨63, 32, .RO, 0⟩, ⟨31, 0, .RO, 0⟩]⟩
  -- Table 20.14
  | .EVT_TEARDOWN_CNT => ⟨26, 0x108, 1, 0x0, 1, 0x0,
      [⟨63, 32, .RO, 0⟩, ⟨31, 0, .RO, 0⟩]⟩
  -- Table 20.15
  | .EVT_MISCLOSURE_CNT => ⟨26, 0x110, 1, 0x0, 1, 0x0,
      [⟨63, 0, .RO, 0⟩]⟩
  -- Table 20.16
  | .EVT_CLASS_CNT => ⟨26, 0x200, 6, 0x8, 1, 0x0,
      [⟨63, 0, .RO, 0⟩]⟩

/-- The registers of each block of Table 2.3. -/
def regsOfBlock : Nat → List RegName
  | 0 => [.DGC_CTL, .DGC_STATUS]
  | 1 => [.CORE_CTL, .CORE_STATUS, .CORE_GRATICULE, .CORE_FAULT_INFO, .CORE_FAULT_PC, .CORE_MAC_CNT, .CORE_ZERO_GATED_CNT, .CORE_SPARSE_META_CNT, .CORE_PRED_MISS_CNT, .CORE_PRED_SAMPLE_CNT]
  | 2 => [.MOV_STATUS, .MOV_BYTES_CNT, .MOV_COMP_IN_CNT, .MOV_COMP_OUT_CNT, .MOV_DENSE_CNT, .MOV_FAULT_INFO, .MOV_QNT_SUBMIT, .MOV_QNT_STATUS]
  | 3 => [.SVY_CTL, .SVY_STATUS, .SVY_TOKEN_CNT, .SVY_ASSIGN_CNT, .SVY_UNROUTED_CNT, .SVY_BAD_ENTRY_CNT, .SVY_GVC_HIT, .SVY_GVC_MISS, .SVY_FAULT_INFO]
  | 4 => [.GAZ_CTL, .GAZ_GEN_STATUS, .GAZ_HALF_TARGET, .GAZ_STEP_SEEN, .GAZ_CACHE_HIT, .GAZ_CACHE_MISS]
  | 5 => [.PLT_CTL, .PLT_STATUS, .PLT_ASSIGN_CNT, .PLT_NODEST_CNT, .PLT_FAULT_INFO]
  | 6 => [.TRV_CTL, .TRV_TIMEOUT, .TRV_STATUS, .TRV_LET_SEL, .TRV_LET_INFO, .TRV_LET_BAL0, .TRV_LET_BAL1, .TRV_LET_BAL2, .TRV_FOLD_CNT, .TRV_REDIRECT_CNT, .TRV_DEFER_CNT, .TRV_STALE_RETURN_CNT, .TRV_LATE_CNT, .TRV_CENSUS_ERR_CNT, .TRV_DEAD_SKIP_CNT, .TRV_FAULT_INFO]
  | 7 => [.BPM_CTL, .BPM_STATUS, .BPM_POOL_CFG, .BPM_POOL_BASE, .BPM_POOL_THRESH, .BPM_POOL_COUNT0, .BPM_POOL_COUNT1, .BPM_RETRY_CNT, .BPM_BADPTR_CNT, .BPM_REFCOUNT_ERR_CNT, .BPM_BADPTR_INFO, .BPM_BADPTR_ADDR]
  | 8 => [.MHB_CTL, .MHB_STATUS, .MHB_CE_CNT, .MHB_UE_CNT, .MHB_MARKED, .MHB_UE_INFO, .MHB_UE_ADDR]
  | 9 => [.NMA_CTL, .NMA_STATUS, .NMA_CTX_SEL, .NMA_CTX_KEY, .NMA_CTX_INFO, .NMA_CTX_ACCEPTED, .NMA_CTX_COMMITTED, .NMA_ADD_CNT, .NMA_SPILL_CNT, .NMA_COMPLETE_CNT, .NMA_ERR_CNT, .NMA_NAN_CNT, .NMA_ERR_INFO, .NMA_ERR_BUCKET]
  | 10 => [.RMO_CTL, .RMO_TIMEOUT, .RMO_HBM_WINDOW, .RMO_FAULT_INFO, .RMO_FAULT_ADDR, .RMO_REPLAY_CNT, .RMO_DUP_CNT]
  | 11 => [.RLC_CTL, .RLC_STAT_HIT, .RLC_STAT_MISS]
  | 12 => [.RGD_CTL, .RGD_VIOL_CNT, .RGD_VIOL_INFO, .RGD_VIOL_ADDR]
  | 13 => [.SWC_CTL, .SWC_STATUS, .SWC_ARB_WEIGHT, .SWC_MIRROR_CFG, .SWC_MIRROR_CNT, .SWC_DROP_CNT0, .SWC_DROP_CNT1, .SWC_DROP_INFO, .SWC_DROP_DST, .SWC_PORT_SEL, .SWC_PORT_QUEUE, .SWC_PORT_STAT, .SWC_DROP_CNT2]
  | 14 => [.FPT_CTL, .FPT_STATUS, .FPT_PARTNER, .FPT_ETH_CFG, .FPT_ETH_CNT, .FPT_LINK_CNT0, .FPT_LINK_CNT1, .FPT_VIOL_CNT0, .FPT_VIOL_CNT1, .FPT_VIOL_INFO, .FPT_CREDIT_SEL, .FPT_CREDIT_SNAP0, .FPT_CREDIT_SNAP1, .FPT_AUDIT, .FPT_INJ_CFG, .FPT_INJ_CNT, .FPT_LANE_MARGIN]
  | 15 => [.GWY_CTL, .GWY_XPORT_CFG, .GWY_WC_CFG, .GWY_DSCP, .GWY_STATUS, .GWY_DGRAM_CNT, .GWY_DISC_CNT, .GWY_WC_CNT, .GWY_RB_CNT, .GWY_CONN_SEL, .GWY_CONN_INFO]
  | 16 => [.CHT_ID, .CHT_CTL, .CHT_STATUS, .CHT_TELEM, .CHT_CMD_CNT, .CHT_HOST_DENIED_CNT, .CHT_FAILOVER, .CHT_RING_CMD, .CHT_RING_RPL, .CHT_RING_WB, .CHT_RING_CFG, .CHT_RING_DB, .CHT_RING_STATUS]
  | 17 => [.CTC_STATUS, .CTC_SVN, .CTC_DEBUG, .CTC_FAIL_CNT, .CTC_FAIL_INFO]
  | 18 => [.PWR_LIMIT, .PWR_STATUS, .PWR_THROTTLE_CNT, .PWR_TEMP_SEL, .PWR_TEMP]
  | 19 => [.CLK_STATUS, .CLK_CCLK]
  | 20 => [.DTM_CTL, .DTM_STATUS, .DTM_NOW, .DTM_OFFSET, .DTM_PPS_CAPTURE, .DTM_PTP_CFG, .DTM_PTP_ORIGIN, .DTM_LAUNCH_STATUS]
  | 21 => [.CTR_CTL, .CTR_STATUS, .CTR_SEL, .CTR_DIE]
  | 22 => [.BMK_HDR, .BMK_SEL, .BMK_DATA, .BMK_OVERLAY]
  | 23 => [.SHT_CFG, .SHT_TIMING, .SHT_SERVE]
  | 24 => [.SCH_CTX_SEL, .SCH_CTX_STATE, .SCH_RUNNING, .SCH_SWITCH_CNT, .SCH_SAVE_BYTES_CNT, .SCH_WATCHDOG_CNT, .SCH_SEM_FORCE_CNT]
  | 25 => [.HCH_CTL, .HCH_STATUS, .HCH_SEL, .HCH_LAYER_STATE, .HCH_LAYER_RATIO, .HCH_LATE_CNT, .HCH_BOUNDS, .HCH_LIMIT, .HCH_RECIPE, .HCH_Q_UNDERFLOW, .HCH_Q_OVERFLOW, .HCH_Q_FLUSH, .HCH_Q_CLAMP]
  | 26 => [.EVT_CTL, .EVT_STATUS, .EVT_LOST_CNT, .EVT_TEARDOWN_CNT, .EVT_MISCLOSURE_CNT, .EVT_CLASS_CNT]
  | _ => []

/-- How many pages block b has (Table 2.3). -/
def blockCount (b : Nat) : Nat :=
  ([1,256,256,8,8,8,8,8,16,16,1,8,1,1,36,36,2,2,1,1,1,1,1,1,1,1,1] : List Nat).getD b 0

/-- The block's number in Table 2.3 of a register. -/
def RegName.block (n : RegName) : Nat := (regRow n).blk

/-- A register: its table, the number of its page within the block, and its index (0 where the table has none; for a
table with two indices s and k, 8s + k). -/
structure RegId where
  name : RegName
  inst : Nat
  idx : Nat
  deriving DecidableEq, Repr

/-- The index of row r that sits at page offset off, if any. -/
def RegRow.indexAt (r : RegRow) (off : Nat) : Option Nat :=
  (List.range (r.n1 * r.n2)).find? fun i => r.off + (i / r.n2) * r.st1 + (i % r.n2) * r.st2 == off

/-- The register at offset off of page i of block b (R28). All eight RLC_ pages give access to one RLC_CTL (Table 2.19). -/
def regAt (b i off : Nat) : Option RegId :=
  if i < blockCount b then
    (regsOfBlock b).findSome? fun n =>
      ((regRow n).indexAt off).map fun k => ⟨n, if n = .RLC_CTL then 0 else i, k⟩
  else none

end Sys2Proof.Machine
end

