-- ==== Sys2Proof/Machine/StateRemote.lean ====
section
/-! DEFINITION. The state of the remote memory endpoint, the Remote Line Cache and the engine queues (R39 to R66). -/

namespace Sys2Proof.Machine

/-- A stream at its source (R39): the issuing sheet, its agent (Table 2.7), the job whose logical device numbers it uses,
and the destination's logical device number. -/
structure StreamKey where
  sheet : Nat
  agent : Nat
  job : Nat
  dst : Nat
  deriving DecidableEq, Repr

/-- The counts of a stream at its source (R39, R47, R545): the next sequence number, the numbers issued, acknowledged and
failed, and the highest number whose response has been received. -/
structure Stream where
  next : Nat
  issued : Nat
  acked : Nat
  failed : Nat
  through : Option Nat
  deriving DecidableEq, Repr

def Stream.fresh : Stream := ⟨0, 0, 0, 0, none⟩

/-- What an operation does when it completes, beside its status (R34, R37, R61, R69, R224). -/
structure OpEnd where
  /-- the core and the register that a LOAD or ATOMIC writes, or the scratchpad offset of a wide LOAD -/
  core : Option (Nat × Nat)
  scratch : Option (Nat × Nat)
  size : Nat
  /-- where in the fetched line or block the wanted bytes begin -/
  skip : Nat
  signExt : Bool
  /-- the cacheable line that a LOAD fetches: home and line offset -/
  fill : Option (Nat × Nat)
  doneAddr : Nat
  tag : Nat
  /-- the semaphore word and increment of notify_on_done -/
  notify : Option (Nat × Nat)
  /-- the unit whose work the operation belongs to, and the work's number there -/
  owner : Option (Nat × Nat)
  deriving DecidableEq, Repr

def OpEnd.none : OpEnd := ⟨Option.none, Option.none, 0, 0, false, Option.none, 0, 0, Option.none, Option.none⟩

/-- Where the bytes of a put are read each time its frame is sent (R38): a local address of a sheet, or a header that the source
forms. -/
inductive Piece where
  | mem (i a n : Nat)
  | lit (b : List Byte)
  deriving DecidableEq, Repr

/-- A frame that an operation has still to send: the frame without its sequence number, and where its data are read (put) or
written (get): sheet and local address. -/
structure PlanFrame where
  frame : Frame
  put : Option (List Piece)
  get : Option (Nat × Nat)
  deriving DecidableEq, Repr

/-- An operation that has issued and not completed. -/
structure RemoteOp where
  id : Nat
  key : StreamKey
  addr : Word
  /-- frames issued and not resolved -/
  left : Nat
  /-- frames that wait for room under R43 -/
  todo : List PlanFrame
  /-- a frame has been sent: the endpoint is resolved (R20, R21) -/
  sent : Bool
  status : Option Status
  /-- an invalidation has covered the line since the fill was requested (R65) -/
  overtaken : Bool
  fin : OpEnd
  deriving DecidableEq, Repr

/-- An entry of the replay buffer (R48): the frame, the operation it belongs to, its first and last send, its last refusal
with RETRY (and whether it still waits for its resend), for a put the local place its data are read from again (R38), and for
a get the local place the data go to. -/
structure ReplayEntry where
  key : StreamKey
  seq : Nat
  op : Nat
  frame : Frame
  first : Nat
  last : Nat
  nack : Option Nat
  backoff : Bool
  put : Option (List Piece)
  get : Option (Nat × Nat)
  deriving DecidableEq, Repr

/-- A failed operation that no FENCE or END has reported yet (R53). One that failed at issue took no number: it stands before
the stream's next number. -/
structure Failure where
  key : StreamKey
  seq : Nat
  atIssue : Bool
  status : Status
  addr : Word
  deriving DecidableEq, Repr

/-- Who waits for a fence: a FENCE instruction and its register, a core's END or drain, or a descriptor's completion word. -/
inductive FenceFor where
  | instr (c d : Nat)
  | drain (c : Nat)
  | desc (doneAddr tag : Nat)
  deriving DecidableEq, Repr

/-- A pending FENCE (R50): the numbers it recorded, its scope and who waits for it. -/
structure Fence where
  id : Nat
  sheet : Nat
  agent : Nat
  job : Nat
  scope : Option Nat
  recorded : List (StreamKey × Nat)
  acquire : Bool
  who : FenceFor
  deriving DecidableEq, Repr

/-- A reply that an accepted command is owed (R465): where it goes and what it repeats of the command. -/
structure Owed where
  src : Source
  op : Nat
  seq : BitVec 32
  tag : BitVec 64
  interrupt : Bool
  deriving DecidableEq, Repr

/-- Operations to several destinations that complete together (R64, R69): how many are outstanding, the first failure, and the
completion word or the reply owed. -/
structure OpGroup where
  left : Nat
  status : Option Status
  sheet : Nat
  doneAddr : Nat
  tag : Nat
  owed : Option Owed
  since : Nat
  deriving DecidableEq, Repr

/-- An operation descriptor that waits inside the endpoint: behind a FENCE of its agent (R50), behind earlier operations
(R42), or at the limit of R43. -/
structure QDesc where
  sheet : Nat
  agent : Nat
  job : Nat
  desc : BitVec 512
  deriving DecidableEq, Repr

/-- The INVALIDATE of a REGION_SET that waits until the operations with numbers below `bound` are resolved (R42, R69): the sheet, the job, the
range and the reply owed. -/
structure RegionWait where
  sheet : Nat
  job : Nat
  line : Nat
  bytes : Nat
  bound : Nat
  owed : Owed
  deriving DecidableEq, Repr

/-- A stream at its destination. -/
structure RxKey where
  srcDev : Nat
  srcSheet : Nat
  agent : Nat
  job : Nat
  dstSheet : Nat
  deriving DecidableEq, Repr

/-- The receive side of a stream (R40, R45 to R47): the lowest number not yet executed, the numbers above it that have
executed, the reorder window, the kept responses and the count of refusals. -/
structure RxStream where
  expected : Nat
  done : List Nat
  held : List Frame
  kept : List (Nat × Frame)
  refused : Nat
  deriving DecidableEq, Repr

def RxStream.fresh : RxStream := ⟨0, [], [], [], 0⟩

/-- A line of the Remote Line Cache (R59, R60). -/
structure RlcLine where
  sheet : Nat
  job : Nat
  home : Nat
  line : Nat
  data : List Byte
  deriving DecidableEq, Repr

/-- The remote memory endpoint. -/
structure Endpoint where
  streams : Tbl StreamKey Stream
  ops : List RemoteOp
  replay : List ReplayEntry
  failures : List Failure
  fences : List Fence
  nextId : Nat
  /-- descriptors of the remote operation queue that wait inside the endpoint, in order -/
  waiting : List QDesc
  rx : Tbl RxKey RxStream
  /-- pairs of R55 -/
  lost : List (Nat × Nat)
  /-- lines of the Remote Line Cache, the most recently used first -/
  lines : List RlcLine
  /-- Region Directory entries that are not zero, by sheet and region (R67) -/
  regions : Tbl (Nat × Nat) Word
  /-- engine queues, by physical octant and queue of Table 2.2 -/
  queues : Tbl (Nat × Nat) (List QDesc)
  /-- stores from outside a core that wait for a full queue (R27) -/
  stalled : List Frame
  /-- groups of operations, by number -/
  groups : Tbl Nat OpGroup
  /-- operations of the engines that have completed, with their owner, and that the owner has not yet looked at -/
  done : List (Nat × Nat × Status)
  /-- REGION_SET commands whose INVALIDATE waits (R42), in order -/
  regionWaits : List RegionWait
  deriving DecidableEq, Repr

def Endpoint.reset : Endpoint := ⟨[], [], [], [], [], 1, [], [], [], [], [], [], [], [], [], []⟩

end Sys2Proof.Machine
end

