-- ==== Sys2Proof/Machine/StateBase.lean ====
section
/-! DEFINITION. The state of the Chartroom, its command sources and replies (chapter 17), the event ring (chapter 20), the sheets, the
contexts and the scheduler (chapter 13), the switch core (chapter 14) and the gateways and job device maps (chapter 16). -/

namespace Sys2Proof.Machine

/-- A command packet by its opcode (Table 17.5). -/
structure Packet where
  op : Nat
  hdr : CmdHdr
  params : List Byte
  deriving DecidableEq, Repr

/-- A reply packet (Table 17.4). -/
structure Reply where
  op : Nat
  seq : BitVec 32
  tag : BitVec 64
  status : Status
  interim : Bool
  redirected : Bool
  duplicate : Bool
  detail : Nat
  datum : Nat
  params : List Byte
  deriving DecidableEq, Repr

/-- The four states of an enable-able function (R471). -/
inductive LifeSt where
  | off | starting | on | stopping
  deriving DecidableEq, Repr

/-- The lifecycle of one function (R471, R472): its state, the last step of its sequence that is done, the replies it owes, a
deferred enable, and the status with which a failing STARTING ends. -/
structure Life where
  st : LifeSt
  step : Nat
  enable : Option Owed
  disables : List Owed
  deferred : Option Packet
  failing : Option Status
  since : Nat
  deriving DecidableEq, Repr

def Life.off : Life := ⟨.off, 0, none, [], none, none, 0⟩

/-- What the Chartroom keeps of one source: the expected number, its last 256 numbers with the kept final replies (R466),
and its read cursors of the telemetry ring and the event ring (R474, R534). -/
structure SrcState where
  expected : Option Nat
  kept : List (Nat × Option Reply)
  telem : Nat
  evt : Nat
  /-- how many records of each ring had been overwritten at its previous read -/
  telemLost : Nat
  evtLost : Nat
  deriving DecidableEq, Repr

def SrcState.fresh : SrcState := ⟨none, [], 0, 0, 0, 0⟩

/-- The role of a Chartroom die (Table 17.13). -/
inductive Role where
  | booting | active | standby | failed
  deriving DecidableEq, Repr

def Role.code : Role → Nat
  | .booting => 0
  | .active => 1
  | .standby => 2
  | .failed => 3

/-- A telemetry record (R473): its sequence number and its bytes. -/
structure TelemRec where
  seq : Nat
  bytes : List Byte
  deriving DecidableEq, Repr

/-- A held LAUNCH_AT (R360): its number, the reply it owes, its stamp and its wrapped command. -/
structure Timed where
  id : Nat
  owed : Owed
  stamp : Nat
  inner : Packet
  deriving DecidableEq, Repr

/-- What had been counted at the last level sample (R473): bytes sent and stall time by port, and datagrams sent again. -/
structure SampleBase where
  tx : Tbl Nat Nat
  stall : Tbl Nat Nat
  again : Nat
  deriving DecidableEq, Repr

/-- The Chartroom's command interface. -/
structure Chartroom where
  /-- the roles of CH0 and CH1 -/
  role0 : Role
  role1 : Role
  srcs : Tbl Source SrcState
  /-- accepted commands without a final reply, in order of acceptance (R467); the Bool says that it has committed (R453) -/
  open_ : List (Owed × Bool)
  /-- replies that wait for room in their ring (R463) -/
  held : List (Owed × Reply)
  telem : List TelemRec
  telemSeq : Nat
  lastSample : Nat
  level : List Byte
  /-- the Datum of the last heartbeat that the standby heard, and of the last one sent (R454) -/
  heard : Nat
  beat : Nat
  /-- a DEVICE_RESET accepted in mode 0 and not begun (R560): when it was answered -/
  resetAt : Option Nat
  /-- held launches, and launches whose wrapped command has begun and not replied: the reply owed, the skew, and whether it was late (R361) -/
  timed : List Timed
  began : Tbl Nat (Owed × Int × Bool)
  nextLaunch : Nat
  /-- replies owed to a ring that has been disabled since (R461) -/
  dropped : List Owed
  /-- a DEVICE_RESET in mode 1 that waits for the jobs it tears down: its reply and their number (R560) -/
  resetOwed : Option (Owed × Nat)
  base : SampleBase
  deriving DecidableEq, Repr

def Chartroom.reset : Chartroom :=
  ⟨.booting, .booting, [], [], [], [], 0, 0, [], 0, 0, none, [], [], 0, [], none, ⟨[], [], 0⟩⟩

/-- An event record (Table 20.3). -/
structure EventRec where
  datum : Nat
  seq : Nat
  code : EventCode
  cls : Nat
  job : Option Nat
  sheet : Option Nat
  standby : Bool
  reported : Bool
  lost : Nat
  die : Nat
  status : Option Status
  unit : Nat
  params : List Nat
  deriving DecidableEq, Repr

/-- The error record of a job (Table 20.10, object 0): counts of classes 2 to 5, job errors and the first job error. -/
structure JobErr where
  cls : List Nat
  errors : Nat
  first : Option EventCode
  deriving DecidableEq, Repr

def JobErr.fresh : JobErr := ⟨[0, 0, 0, 0], 0, none⟩

/-- The event ring, the standby log and the queue to the fabric manager (R531 to R535). -/
structure Events where
  ring : List EventRec
  nextSeq : Nat
  lostNow : Nat
  fmQueue : List EventRec
  log : List EventRec
  jobErr : Tbl Nat JobErr
  /-- sheets that a fatal-to-sheet event has named and that R538 has still to end -/
  fatal : List Nat
  deriving DecidableEq, Repr

def Events.reset : Events := ⟨[], 0, 0, [], [], [], []⟩

/-- The transport header of a datagram that leaves (Table 16.6), the delay and ranges of an ACK, and the DSCP. -/
structure DgramHdr where
  version : Nat
  retrans : Bool
  connId : Nat
  psn : Nat
  cumAck : Nat
  window : Nat
  txTime : Nat
  echoTime : Nat
  ceCount : Nat
  delay : Nat
  ranges : List (Nat × Nat)
  versions : Nat
  dscp : Nat
  /-- around the header (R412, R446): the source MAC address, the VLAN ID of a tagged frame, whether the packet is IPv4, the peer's address, and the source
  and destination UDP ports -/
  mac : Nat
  vlan : Option Nat
  v4 : Bool
  addr : Nat
  sport : Nat
  dport : Nat
  deriving DecidableEq, Repr

/-- What left the package, or was handed to a unit whose own commands carry it on, in order. -/
inductive Out where
  /-- a frame sent on a NATIVE port in its link envelope (Table 15.4): hop lane, link sequence number and transmission count -/
  | frame (port lane linkSeq txCount : Nat) (f : Frame)
  /-- such a frame with bit 0 of its last payload byte inverted after the CRC and MAC were formed (R431) -/
  | corrupt (port lane linkSeq txCount : Nat) (f : Frame)
  /-- a frame that the endpoint hands to an internal port of the switch: it enters the switch there -/
  | inject (port : Nat) (f : Frame)
  /-- a frame handed to the endpoint by an internal port of the switch -/
  | inbound (port : Nat) (f : Frame)
  /-- a frame that loops back inside the endpoint (R22) -/
  | loop (f : Frame)
  /-- a control block sent on a fabric port (Table 15.5): its kind, transmission count, link_seq and entries -/
  | block (port kind txCount linkSeq : Nat) (fields : List Nat)
  | reply (src : Source) (r : Reply)
  /-- a write to host memory -/
  | host (die : Nat) (addr : Nat) (bytes : List Byte)
  | msix (die : Nat) (vector : Nat)
  | report (r : EventRec)
  /-- a gateway datagram: port, peer device, type of Table 16.6, the header's fields and its frames -/
  | dgram (port peer type : Nat) (h : DgramHdr) (frames : List Frame)
  /-- a management frame to a device with these bytes -/
  | mgmt (dst : Nat) (bytes : List Byte)
  | datumSync (port : Nat) (fields : List Nat)
  | ptp (fields : List Nat)
  /-- a record of a tree node to a logical device of a job: image and H (R341, R343) -/
  | treeRecord (job image dst h : Nat)
  | spdm (src : Source) (code : Nat) (bytes : List Byte)
  | pin (name : String) (level : Bool)
  deriving DecidableEq, Repr

/-- A running kernel (R235, R370). -/
structure KernelRun where
  desc : Nat
  vfirst : Nat
  vcount : Nat
  started : Nat
  watchMs : Nat
  doneAddr : Nat
  tag : Nat
  group : Bool
  groupLast : Bool
  live : List (Nat × Nat)
  fault : Option (Nat × Status)
  deriving DecidableEq, Repr

/-- The states of Table 13.6. -/
inductive CtxState where
  | idle | ready | running | faulted
  deriving DecidableEq, Repr

/-- A context of a sheet (Table 13.5). -/
structure Context where
  life : Life
  st : CtxState
  prio : Nat
  reproj : Bool
  job : Nat
  logical : Nat
  ringEntries : Nat
  ringAddr : Nat
  quantumUs : Nat
  saveMib : Nat
  watchMs : Nat
  kernel : Option KernelRun
  /-- when the kernel group that is running began, with its first member's watchdog (R376) -/
  group : Option (Nat × Nat)
  /-- the live-out map and the virtual cores of the context's last kernel (R379) -/
  live : List (Nat × Nat)
  liveV : Nat × Nat
  /-- the bytes of its last switch-out -/
  saved : List Host.Cell
  /-- the tail of its ring as the scheduler last read it (R369) -/
  tail : Nat
  /-- the priority to which R383 has raised it, until it holds no semaphore -/
  lift : Nat
  deriving DecidableEq, Repr

/-- The serving step composer of a sheet (Table 13.9). -/
structure Serve where
  budget : Nat
  chunk : Nat
  kvPool : Nat
  slots : Nat
  seqCount : Nat
  step : Nat
  seqAddr : Nat
  planAddr : Nat
  pollUs : Nat
  last : Nat
  job : Nat
  deriving DecidableEq, Repr

/-- A sheet (Table 13.3). -/
structure Sheet where
  life : Life
  m : Nat
  coll : Nat
  quantumUs : Nat
  watchMs : Nat
  holdMs : Nat
  gazEntries : Nat
  gazBase : Nat
  usable : Nat
  key : Option Nat
  run : Option Nat
  runSince : Nat
  /-- a switch in progress (R379): the outgoing and the incoming context, and whether the save has begun -/
  switch : Option (Option Nat × Nat × Bool)
  /-- the context whose data the scratchpads hold -/
  last : Option Nat
  serve : Option Serve
  /-- the parameters of its last SHEET_CREATE (R561) -/
  params : List Byte
  /-- a fatal-to-sheet event has ended it (R538) -/
  failed : Bool
  deriving DecidableEq, Repr

def Sheet.off : Sheet := ⟨Life.off, 0, 0, 2000, 100, 10, 0, 0, 0, none, none, 0, none, none, none, [], false⟩

/-- A held hardware semaphore (R382): the holding context and core, and when it was acquired. -/
structure Sem where
  ctx : Nat
  core : Nat
  since : Nat
  deriving DecidableEq, Repr

/-- A frame in the switch (R393): its input, latched output and generation. -/
structure SwFrame where
  frame : Frame
  inPort : Nat
  outPort : Nat
  gen : Nat
  moved : Bool
  deriving DecidableEq, Repr

/-- The switch core. -/
structure Switch where
  devId : Nat
  pos : Tbl Nat Word
  dom : Tbl Nat Word
  exc : Tbl Nat (Word × Word)
  posS : Tbl Nat Word
  domS : Tbl Nat Word
  excS : Tbl Nat (Word × Word)
  /-- activations so far: the generation of SWC_STATUS is this modulo 256 -/
  gen : Nat
  /-- a commit that waits for its Datum, and the owed reply with its wait_drain flag -/
  commit : Option (Nat × Owed × Bool)
  copying : Option Nat
  /-- commits that wait for their generation to be the oldest queued: reply, generation and start of the wait (R406) -/
  drains : List (Owed × Nat × Nat)
  queue : List SwFrame
  /-- the input each (output, class) served last, and the deficit of each (output, class) -/
  served : Tbl (Nat × Nat) Nat
  deficit : Tbl (Nat × Nat) Nat
  /-- what each output sent in the last 10 µs: output, Datum, class, bytes, whether TC0 to TC5 were waiting -/
  sent : List (Nat × Nat × Nat × Nat × Bool)
  mirrored : Nat
  txBytes : Tbl Nat Nat
  /-- µs in which an input held no free credit for some class (Table 14.20) -/
  stallUs : Tbl Nat Nat
  deriving DecidableEq, Repr

/-- The unassigned device ID: domain 4,095 (R432). -/
def unassigned : Nat := 4095 * 256

def Switch.reset : Switch :=
  ⟨unassigned, [], [], [], [], [], [], 0, none, none, [], [], [], [], [], 0, [], []⟩

/-- A DATA datagram not acknowledged (R448): psn, send time, frames, expiries in a row, and datagrams sent after it and acknowledged by range. -/
structure Flight where
  psn : Nat
  sent : Nat
  frames : List Frame
  expiries : Nat
  passed : Nat
  deriving DecidableEq, Repr

/-- A gateway connection (R447 to R449). -/
structure Conn where
  version : Nat
  open_ : Bool
  /-- the peer's connection identifier; when the last HELLO left -/
  remoteId : Nat
  helloAt : Nat
  nextPsn : Nat
  flights : List Flight
  /-- datagrams ready, the oldest first -/
  ready : List (List Frame)
  /-- rate in 0.1 GB/s, smoothed round trip and deviation in ns, and the round trips of the last 10 s -/
  rate : Nat
  srtt : Nat
  rttvar : Nat
  rtts : List (Nat × Nat)
  /-- 256 B cells that the peer can still accept -/
  window : Nat
  /-- of the round: CE marks, datagrams delivered, whether one was retransmitted; the peer's last ce_count -/
  ce : Nat
  delivered : Nat
  retrans : Bool
  ceSeen : Nat
  nextSend : Nat
  roundEnd : Nat
  /-- receive side: every psn below rxCum has been received, further numbers received, arrivals since the last ACK and its Datum, tx_time and
  arrival of the last DATA, and CE-marked arrivals -/
  rxCum : Nat
  rxAbove : List Nat
  rxSince : Nat
  ackAt : Nat
  rxTime : Nat
  rxAt : Nat
  rxCe : Nat
  /-- cells that this end has told the peer it can still accept -/
  promised : Nat
  deriving DecidableEq, Repr

/-- A connection not yet open, from a Datum on. -/
def Conn.fresh (now rate : Nat) : Conn where
  version := 0
  open_ := false
  remoteId := 0
  helloAt := now
  nextPsn := 0
  flights := []
  ready := []
  rate := rate
  srtt := 0
  rttvar := 0
  rtts := []
  window := 0
  ce := 0
  delivered := 0
  retrans := false
  ceSeen := 0
  nextSend := now
  roundEnd := now
  rxCum := 0
  rxAbove := []
  rxSince := 0
  ackAt := now
  rxTime := 0
  rxAt := 0
  rxCe := 0
  promised := 0

/-- A write-combining window (R444). -/
structure WcWindow where
  dst : Nat
  first : Nat
  frames : List Frame
  deriving DecidableEq, Repr

/-- A block of a gateway read buffer (R443). -/
structure RbBlock where
  sheet : Nat
  job : Nat
  home : Nat
  block : Nat
  data : List Byte
  at_ : Nat
  deriving DecidableEq, Repr

/-- The gateway function of one port. -/
structure Gateway where
  /-- by the peer's physical device ID -/
  conns : Tbl Nat Conn
  windows : List WcWindow
  blocks : List RbBlock
  rr : Nat
  /-- fabric frames that the switch core has handed over -/
  inq : List Frame
  /-- cacheable 4 KiB responses that arrived here and have not reached their LOAD: sheet, agent, job and sequence number (R442) -/
  arrivals : List (Nat × Nat × Nat × Nat)
  deriving DecidableEq, Repr

def Gateway.fresh : Gateway := ⟨[], [], [], 0, [], []⟩

end Sys2Proof.Machine
end

