-- ==== Sys2Proof/Machine/StateBoot.lean ====
section
/-! DEFINITION. The state of start-up (chapter 21): the boot step, the service level and the working units. -/

namespace Sys2Proof.Machine

/-- What a Chartroom die's boot ROM has come to (R478, R550): not begun, at a step, or ended with a failure. -/
inductive RomSt where
  | idle | run | failed
  deriving DecidableEq, Repr

structure Boot where
  /-- the level reached (R556) and the reason last reported -/
  level : Nat
  reason : Nat
  /-- the last boot step completed (Table 21.5), and when it ended -/
  step : Nat
  since : Nat
  complete : Bool
  /-- standby power is valid -/
  standby : Bool
  rom0 : RomSt
  rom1 : RomSt
  /-- main power has been requested, and MAIN_OK is high (R570) -/
  mainReq : Bool
  mainOk : Bool
  /-- the fuse map: the disabled cores, by physical core number -/
  fused : List Nat
  /-- the grade that the fuse map gives (Table 17.11) -/
  grade : Nat
  /-- dies that have failed, and dies that have reported, in the order of R525; octants unavailable until the next device reset -/
  dead : List Nat
  seen : List Nat
  octDown : List Nat
  /-- port dies whose photonic self-test has passed -/
  photonic : List Nat
  /-- bytes of reserved pool per octant are in chain mode (R554): none before step 7, false from step 7, true from step 9 -/
  pools : Option Bool
  /-- the link table entries of the reserved pools in chain mode: the first and how many (R156, R554) -/
  links : List (Nat × Nat)
  /-- boot_ports and eth_ports of Table 21.2; absent when the record is -/
  config : Option (Nat × Nat)
  /-- dies whose slot A did not verify, and dies that have passed the checks of steps 4 and 5 (Table 18.2) -/
  triedA : List Nat
  ready : List Nat
  /-- dies whose image has verified: the items of measurements 1 to 6, and whether the Benchmark table verifies -/
  verified : Tbl Nat (List (List Byte) × Bool)
  /-- when standby power became valid or the reset began; the time of R552 has passed; when MAIN_REQ rose -/
  begun : Nat
  late : Bool
  reqAt : Nat
  /-- VIN12_SNS has not yet read below 1.0 V for 10 ms since the last cut (R569) -/
  charged : Bool
  /-- a fatal-to-device error that is not of the power holds ports OFF and cores stopped (R537) -/
  halted : Bool
  deriving DecidableEq, Repr

def Boot.reset : Boot := ⟨0, 0, 0, 0, false, false, .idle, .idle, false, false, [], 0, [], [], [], [], none, [], none, [], [], [], 0, false, 0, false, false⟩

end Sys2Proof.Machine
end

