-- ==== Sys2Proof/Machine/StateColl.lean ====
section
/-! DEFINITION. The state of the collectives (R319 to R335) and of the triangulation trees (R336 to R343). -/

namespace Sys2Proof.Machine

/-- A group of a job (R320, R321): its members, the sequence number it expects, and the stamp of its previous launch. -/
structure Group where
  members : List Nat
  next : Nat
  stamp : Nat
  deriving DecidableEq, Repr

/-- A launch (Table 11.3) on a sheet, with the reply it owes and when it was accepted. -/
structure Launch where
  kind : Nat
  mode : Nat
  fmt : Nat
  trigger : Nat
  group : Nat
  lateRun : Bool
  fanout : Nat
  seq : Nat
  root : Nat
  stamp : Nat
  atDatum : Nat
  eventAddr : Nat
  eventValue : Nat
  src : Nat
  dst : Nat
  length : Nat
  flag : Nat
  doneAddr : Nat
  tag : Nat
  timeoutMs : Nat
  sheet : Nat
  job : Nat
  logical : Nat
  owed : Owed
  since : Nat
  deriving DecidableEq, Repr

/-- A peer that this member sends to: its rank, the credits it has given (each the address of a free chunk of its staging), the
next chunk to send, how many it has acknowledged, each chunk on its way with when it was sent, and since when its next chunk has been ready
without a credit. -/
structure TxPeer where
  rank : Nat
  credits : List Nat
  next : Nat
  acked : Nat
  sent : List (Nat × Nat)
  want : Option Nat
  deriving DecidableEq, Repr

/-- A peer that this member receives from: its rank, the chunks taken from it, the staging chunks it has credit for in order, and
since when it has had one of them, or has owed the next chunk. -/
structure RxPeer where
  rank : Nat
  next : Nat
  places : List Nat
  since : Nat
  deriving DecidableEq, Repr

/-- An admitted collective in its slot (R319, R326). -/
structure CollSlot where
  l : Launch
  /-- the mode as run (R332) -/
  mode : Nat
  running : Bool
  rank : Nat
  count : Nat
  tx : List TxPeer
  rx : List RxPeer
  /-- bytes landed in each chunk of staging -/
  landed : Tbl Nat Nat
  /-- partial sums by chunk: how many contributions they hold, and the values -/
  sums : Tbl Nat (Nat × List Nat)
  done : Nat
  /-- the completion word has been written -/
  complete : Bool
  deriving DecidableEq, Repr

/-- A child of a tree node: its number, the next chunk to send it, whether one is on its way, when one and a keepalive were last sent, and whether it has
reported done or been reported lost. -/
structure TreeChild where
  logical : Nat
  next : Nat
  sending : Bool
  at_ : Nat
  kept : Nat
  done : Bool
  lost : Bool
  deriving DecidableEq, Repr

/-- A node of a triangulation tree (Table 11.5). -/
structure TreeNode where
  sheet : Nat
  image : Nat
  job : Nat
  routing : Bool
  chunks : Nat
  parent : Nat
  alternate : Nat
  timeoutMs : Nat
  dst : Nat
  src : Nat
  children : List TreeChild
  /-- chunks verified: H is one less, and none for 0 -/
  verified : Nat
  /-- chunk 0, and for a routing image every chunk -/
  staging : Tbl Nat (List Byte)
  /-- of each chunk not verified, a bit for every 4 KiB of addresses of which a frame has landed -/
  landed : Tbl Nat Nat
  failures : Nat
  duplicates : Nat
  heard : Nat
  orphan : Bool
  owed : Option Owed
  deriving DecidableEq, Repr

/-- A credit that arrived before its collective was admitted here: job, group, sequence number, rank of the peer, address. -/
abbrev EarlyCredit := Nat × Nat × Nat × Nat × Nat

structure Collect where
  groups : Tbl (Nat × Nat) Group
  slots : Tbl Nat CollSlot
  waiting : List Launch
  early : List EarlyCredit
  trees : List TreeNode
  deriving DecidableEq, Repr

def Collect.reset : Collect := ⟨[], [], [], [], []⟩

end Sys2Proof.Machine
end

