-- ==== Sys2Proof/Machine/StatePools.lean ====
section
/-! DEFINITION. The state of the buffer pools (R154 to R172). -/

namespace Sys2Proof.Machine

/-- A link table entry that is not free (Table 5.2): allocated or quarantined, its engine and head bits, its refcount, and the
index within the pool of the next cell of its chain. -/
structure PCell where
  quar : Bool
  engine : Bool
  head : Bool
  refs : Nat
  next : Option Nat
  deriving DecidableEq, Repr

/-- Who issued a pool request (R162): a core or other agent by its descriptor, or a Traverse engine's reservation. -/
inductive ReqFrom where
  | agent (q : QDesc)
  | landing (id : Nat)
  | combine (id : Nat)
  | relay (id : Nat)
  deriving DecidableEq, Repr

/-- A queued pool request (Table 5.3). -/
structure PoolReq where
  id : Nat
  src : ReqFrom
  op : Nat
  noWait : Bool
  control : Bool
  count : Nat
  ptr : Nat
  result : Nat
  doneAddr : Nat
  tag : Nat
  /-- the Datum at which it reached the head of its queue -/
  head : Option Nat
  deriving DecidableEq, Repr

/-- An entry of the pointer quarantine log (Table 20.10, object 1). -/
structure BadPtr where
  ptr : Nat
  op : Nat
  agent : Nat
  deriving DecidableEq, Repr

/-- The occupancy levels of Table 5.5. -/
inductive PLevel where
  | normal | warn | stop | critical
  deriving DecidableEq, Repr

def PLevel.code : PLevel → Nat
  | .normal => 0
  | .warn => 1
  | .stop => 2
  | .critical => 3

/-- A pool (Table 5.1). -/
structure Pool where
  life : Life
  sheet : Nat
  home : Nat
  xd : Bool
  sized : Bool
  code : Nat
  warn : Nat
  stop : Nat
  crit : Nat
  hyst : Nat
  base : Nat
  cells : Nat
  n1m : Nat
  n64k : Nat
  n4k : Nat
  n512 : Nat
  linkBase : Nat
  cursor : Nat
  level : PLevel
  job : Option Nat
  /-- cells that are not free, by index (chain mode) -/
  tab : Tbl Nat PCell
  /-- allocated buffers, by offset from base (sized mode) -/
  bufs : List Nat
  waitCtl : List PoolReq
  waitReq : List PoolReq
  log : List BadPtr
  /-- the capture of R172: free, allocated, quarantined, in flight -/
  captured : Nat × Nat × Nat × Nat
  deriving DecidableEq, Repr

def Pool.off : Pool :=
  ⟨Life.off, 0, 0, false, false, 0, 75, 90, 98, 2, 0, 0, 0, 0, 0, 0, 0, 0, .normal, none, [], [], [], [], [], (0, 0, 0, 0)⟩

end Sys2Proof.Machine
end

