-- ==== Sys2Proof/Machine/StateExch.lean ====
section
/-! DEFINITION. The state of expert selection (R71 to R112) and of sorting, exchange and return (R113 to R153). -/

namespace Sys2Proof.Machine

/-! Routing halves. -/

inductive HalfSt where
  | spare | pending | active | draining | syncing
  deriving DecidableEq, Repr

def HalfSt.code : HalfSt → Nat
  | .spare => 0
  | .pending => 1
  | .active => 2
  | .draining => 3
  | .syncing => 4

/-- One half of a logical device's routing structures (Table 3.2). Layers that are not listed have hash_mode 0xFF. -/
structure Half where
  st : HalfSt
  target : Nat
  valid : Bool
  /-- the order of its commit among the sheet's commits (R72) -/
  order : Nat
  layers : Tbl Nat (List Byte)
  gaz : Tbl Nat Word
  cset : Tbl Nat Word
  member : Tbl Nat Nat
  dir : Tbl Nat (List Byte)
  deriving DecidableEq, Repr

/-- The routing structures of a logical device, by its sheet. -/
structure Routing where
  h0 : Half
  h1 : Half
  /-- the highest step accepted by any Survey unit (R74) -/
  seen : Option Nat
  commits : Nat
  /-- every step below this number is retired (R75) -/
  retired : Nat
  deriving DecidableEq, Repr

def Half.fresh (st : HalfSt) (valid : Bool) : Half := ⟨st, 0, valid, 0, [], [], [], [], []⟩
def Routing.reset : Routing := ⟨Half.fresh .active true, Half.fresh .spare false, none, 0, 0⟩

/-- A submission that a Survey unit works on, with the list that it writes (R88, R89). -/
structure SurveyRun where
  sheet : Nat
  layer : Nat
  step : Nat
  out : Nat
  bytes : List Byte
  status : Status
  done : Nat
  tag : Nat
  tokens : Nat
  assigns : Nat
  job : Nat
  /-- its descriptor names a scratchpad byte (R378) -/
  scr : Bool
  deriving DecidableEq, Repr

/-- The caches of a routing die: gate vector cache lines by layer and address, with the bytes fetched, and the Gazetteer cache's
entries (half, kind, index); the highest step accepted for each layer (R95). -/
structure SvyCache where
  gvc : Tbl (Nat × Nat) (List Byte)
  gaz : List (Bool × Nat × Nat)
  steps : Tbl Nat Nat
  deriving DecidableEq, Repr

def SvyCache.empty : SvyCache := ⟨[], [], []⟩

/-! Epochs (Tables 4.2 and 4.15). -/

inductive EpochSt where
  | free | open_ | closing | cancelled
  deriving DecidableEq, Repr

def EpochSt.code : EpochSt → Nat
  | .free => 0
  | .open_ => 1
  | .closing => 2
  | .cancelled => 3

/-- Who waits for an epoch: an EPOCH_CLOSE or a CANCEL with its completion word, or a CANCEL_BATCH with its reply. -/
inductive EpochFor where
  | desc (done tag : Nat)
  | packet (o : Owed)
  deriving DecidableEq, Repr

structure Epoch where
  st : EpochSt
  step : Nat
  job : Nat
  since : Nat
  issued : Nat
  granted : Nat
  folded : Nat
  held : Nat
  returned : Nat
  stale : Nat
  close : Option (Nat × Nat)
  cancels : List EpochFor
  deriving DecidableEq, Repr

def Epoch.free : Epoch := ⟨.free, 0, 0, 0, 0, 0, 0, 0, 0, 0, none, []⟩

/-! The source side. -/

/-- What an assignment has come to (R140, R142). -/
inductive AsgSt where
  | none | open_ | asked | held | granted | returned | lost | folded | stale
  deriving DecidableEq, Repr

/-- A record of a batch. -/
structure Asg where
  tag : Nat
  expert : Nat
  weight : Nat
  dest : Nat
  slot : Nat
  plot : Nat
  st : AsgSt
  wave : Nat
  out : List Byte
  fmt : Nat
  sexp : Nat
  deriving DecidableEq, Repr

def Asg.token (a : Asg) : Nat := a.tag / 16 % 2 ^ 20
def Asg.kslot (a : Asg) : Nat := a.tag % 16

/-- A Plotting descriptor's result as the Traverse engine takes it (R123). -/
structure Plot where
  oct : Nat
  low : Nat
  high : Nat
  k : Nat
  payload : Nat
  stride : Nat
  spares : Nat
  recs : List Asg
  deriving DecidableEq, Repr

/-- A batch: step, layer, epoch. -/
abbrev BKey := Nat × Nat × Nat

/-- What a Plotting engine delivers to the coordinating octant: key counts, or a failure notice with its status (R123, R585). -/
inductive Delivered where
  | counts (p : Plot)
  | failed (st : Status)
  deriving DecidableEq, Repr

/-- A delivery on its way. -/
structure Delivery where
  key : BKey
  what : Delivered
  deriving DecidableEq, Repr

/-- A descriptor that a Plotting engine works on. -/
structure PlotRun where
  sheet : Nat
  key : BKey
  plot : Plot
  status : Status
  runAddr : Nat
  run : List Byte
  keys : List Byte
  count : Nat
  nodest : Nat
  nkeys : Nat
  valid : Nat
  done : Nat
  tag : Nat
  layer : Nat
  job : Nat
  /-- its descriptor names a scratchpad byte (R378) -/
  scr : Bool
  deriving DecidableEq, Repr

/-- A census sent, and what has come back for it (R108, R132): the requests of each slot, and the frames of the two records. -/
structure Await where
  dest : Nat
  asked : List (Nat × List Nat)
  since : Nat
  grant : List Frame
  landing : List Frame
  deriving DecidableEq, Repr

/-- The life of a part's send (R135, R138, R142). -/
inductive PartSt where
  | waiting | reserving | ready | sending | acked | resolved | accepted | done
  deriving DecidableEq, Repr

/-- A part's granted requests for one destination and slot (R128, R135). -/
structure Part where
  id : Nat
  plot : Nat
  dest : Nat
  slot : Nat
  asgs : List Nat
  ext : Nat
  arrival : Nat
  ordinal : Nat
  wave : Nat
  comb : Option Nat
  st : PartSt
  since : Nat
  /-- the relay that carries it, with the place there once it is known (R151) -/
  relay : Option (Nat × Option Nat)
  deriving DecidableEq, Repr

/-- An EXCHANGE or REPLAY (Tables 4.5 and 4.13). -/
structure Batch where
  id : Nat
  sheet : Nat
  job : Nat
  own : Nat
  oct : Nat
  key : BKey
  replay : Bool
  plotN : Nat
  fmt : Nat
  resid : Bool
  relay : Bool
  log : Bool
  result : Nat
  residA : Nat
  logA : Nat
  relayA : Nat
  payload : Nat
  stride : Nat
  /-- the landing pool of its layer, from which its combine extents come (R135) -/
  pool : Nat
  tokFirst : Nat
  tokCount : Nat
  done : Nat
  tag : Nat
  since : Nat
  started : Bool
  ended : Bool
  sending : Bool
  cancel : Bool
  late : Bool
  wave : Nat
  round : Nat
  half : Bool
  outBytes : Nat
  fails : List Status
  plots : List Plot
  asgs : List Asg
  awaiting : List Await
  cont : List Nat
  told : List Nat
  parts : List Part
  spares : Tbl Nat Nat
  written : List Nat
  /-- k of the layer, and whether the layer is granted in Strict mode (R101, R347) -/
  k : Nat
  strict : Bool
  /-- the relay table: remote domain, local relay, remote relay (R150) -/
  table : List (Nat × Nat × Nat)
  /-- manifests that have not been answered: relay, wave, domains with their bytes -/
  manifests : List (Nat × Nat × List (Nat × Nat))
  deriving DecidableEq, Repr

/-! The destination side. -/

/-- A landing list entry (Table 4.8): begun by a RETURN, and returned or skipped. -/
structure LEntry where
  ext : Nat
  slot : Nat
  source : Nat
  epoch : Nat
  count : Nat
  dead : Bool
  relayed : Bool
  begun : Bool
  /-- landed records that the RETURN found -/
  landed : Nat
  fin : Bool
  deriving DecidableEq, Repr

/-- A census record: its frames, and the Datum of the first (R96, R102). -/
structure CensusRec where
  sheet : Nat
  job : Nat
  src : Nat
  layer : Nat
  step : Nat
  epoch : Nat
  wave : Nat
  round : Nat
  frames : List Frame
  first : Nat
  /-- it waits for no RECEIVE: once complete it is answered with zeros (R75, R98, R103, R130) -/
  zero : Bool
  deriving DecidableEq, Repr

/-- Grants that wait for their extents (R104): the answers to send, with the grants in order of their list entries. -/
structure Placing where
  id : Nat
  wave : Nat
  round : Nat
  cont : Bool
  last : Bool
  /-- per source: the source, its epoch, and per slot the grant -/
  answers : List (Nat × Nat × List (Nat × Nat))
  /-- source, epoch, slot, grant, and the extent once it is reserved -/
  grants : List (Nat × Nat × Nat × Nat × Option Nat)
  since : Nat
  deriving DecidableEq, Repr

/-- A RECEIVE (Table 4.6). -/
structure Recv where
  id : Nat
  sheet : Nat
  job : Nat
  own : Nat
  oct : Nat
  layer : Nat
  step : Nat
  arrival : Nat
  list : Nat
  cap : Nat
  outBytes : Nat
  done : Nat
  tag : Nat
  bound : Tbl Nat Nat
  /-- censuses that have been granted: source, wave, round -/
  took : List (Nat × Nat × Nat)
  gone : List Nat
  strict : Bool
  begun : Bool
  /-- grants so far, by wave and slot -/
  used : Tbl (Nat × Nat) Nat
  censuses : List CensusRec
  computed : List (Nat × Nat)
  /-- waves that take no further round, the waves whose grants asked for a further wave, waves with a full list -/
  final : List Nat
  cont : List Nat
  full : List Nat
  /-- relaxed mode: (wave, source) pairs answered and pairs that will ask again in the next wave -/
  served : List (Nat × Nat)
  again : List (Nat × Nat)
  lists : Tbl Nat (List LEntry)
  placing : List Placing
  ended : Bool
  deriving DecidableEq, Repr

/-- A group put of a RETURN (R137): its entry, where it goes, its records, the relay that takes it with the place there once it is
known (R151), and its status once it has ended. -/
structure RetGroup where
  id : Nat
  entry : Nat
  dst : Nat
  ext : Nat
  count : Nat
  data : List Piece
  relay : Option (Nat × Option Nat)
  domain : Nat
  status : Option Status
  deriving DecidableEq, Repr

/-- A RETURN at work: the entries that it acts on, and its manifests that no relay has answered. -/
structure RetRun where
  id : Nat
  recv : Nat
  sheet : Nat
  job : Nat
  own : Nat
  layer : Nat
  oct : Nat
  step : Nat
  wave : Nat
  done : Nat
  tag : Nat
  entries : List Nat
  groups : List RetGroup
  manifests : List (Nat × List (Nat × Nat))
  deriving DecidableEq, Repr

/-- A source of a relay's transfer: its epoch, the bytes of its manifest, its extent, and where in it bytes have been received: offset and
length. -/
structure RelaySrc where
  src : Nat
  epoch : Nat
  bytes : Nat
  ext : Option Nat
  landed : List (Nat × Nat)
  deriving DecidableEq, Repr

/-- A transfer that a relay gathers (Table 4.14): from the participants of its own domain towards a remote domain, or, at the remote
relay, from the other relay towards the destinations of its own domain. -/
structure RelayIn where
  id : Nat
  sheet : Nat
  job : Nat
  oct : Nat
  step : Nat
  layer : Nat
  wave : Nat
  domain : Nat
  remote : Bool
  srcs : List RelaySrc
  /-- when its first manifest arrived -/
  since : Nat
  /-- sources left out by RELAY_TIMEOUT -/
  force : Bool
  /-- the manifest to the remote relay has gone -/
  asked : Bool
  sent : Bool
  /-- puts that are not acknowledged -/
  left : Nat
  /-- the parts whose bytes its manifest to the remote relay names: place and length, prefix included -/
  held : List (Nat × Nat)
  deriving DecidableEq, Repr

/-- A cancel record that a relay passes on behind the parts that it holds of the record's sender (R152): who sent it here, its header's step,
epoch and layer, and for a local relay the remote domain. -/
structure RelayCancel where
  job : Nat
  src : Nat
  step : Nat
  epoch : Nat
  layer : Nat
  domain : Option Nat
  rec_ : List Byte
  deriving DecidableEq, Repr

/-- A manifest that a relay has still to answer: its sender, its header's fields, and per entry the transfer and the extent. -/
structure RelayAns where
  id : Nat
  src : Nat
  job : Nat
  layer : Nat
  step : Nat
  wave : Nat
  epoch : Nat
  oct : Nat
  entries : List (Nat × Option Nat)
  since : Nat
  deriving DecidableEq, Repr

/-- The exchange state of a logical device, by its sheet. -/
structure Exch where
  epochs : Tbl Nat Epoch
  batches : List Batch
  recvs : List Recv
  /-- censuses without a RECEIVE (R129, R130) -/
  held : List CensusRec
  /-- capacity tables latched by step and layer (R99), with whether the layer is granted in Strict mode and DGC_CTL.strict (R347) -/
  caps : Tbl (Nat × Nat) (List Nat × Bool × Bool)
  /-- cancelled (source, step, epoch) (R145) -/
  cancelled : List (Nat × Nat × Nat)
  rets : List RetRun
  relays : List RelayIn
  relayCancels : List RelayCancel
  relayAns : List RelayAns
  /-- key counts and failure notices that no EXCHANGE has taken -/
  counts : List Delivery
  nextId : Nat
  deriving DecidableEq, Repr

def Exch.reset : Exch := ⟨[], [], [], [], [], [], [], [], [], [], [], 1⟩

end Sys2Proof.Machine
end

