-- ==== Sys2Proof/Machine/StateHubs.lean ====
section
/-! DEFINITION. The state of the memory hubs: the stacks (R286 to R291), the buckets (R295), the reduction contexts (R302) and the
contributions between acceptance and commitment (R306). -/

namespace Sys2Proof.Machine

/-- What a hub keeps of its stack: the refresh and recalibration in progress, and when lines were corrected (R526). -/
structure Stack where
  /-- refresh runs at twice the JEDEC rate (R290) -/
  double : Bool
  /-- HBM_HOT stands (R290, R514) -/
  hot : Bool
  refreshed : Nat
  recalAt : Nat
  recalCh : Nat
  corrected : List Nat
  deriving DecidableEq, Repr

def Stack.fresh : Stack := ⟨false, false, 0, 0, 0, []⟩

/-- A part-done message (R307): its round, its hub, the part's NaN record, and whether its staging held an uncorrectable error (R536). -/
structure PartMsg where
  hub : Nat
  round : Nat
  nan : Option Nat
  bad : Bool
  deriving DecidableEq, Repr

/-- A bucket (Table 10.2) with its rounds completed, the rounds done of each hub's part, and the part-done messages that its
coordinating hub holds, or that are on their way to it. -/
structure Bucket where
  sheet : Nat
  fmt : Nat
  exact : Bool
  quarantine : Bool
  expected : Nat
  elements : Nat
  base : Nat
  sem : Nat
  status : Nat
  rounds : Nat
  done : Tbl Nat Nat
  held : List PartMsg
  sent : List PartMsg
  deriving DecidableEq, Repr

/-- A reduction context (R302 to R306, R310): a parked one has no slot. -/
structure RCtx where
  hub : Nat
  job : Nat
  bucket : Nat
  round : Nat
  slot : Option Nat
  exact : Bool
  spilled : Bool
  opened : Nat
  accepted : Nat
  committed : Nat
  nan : Option Nat
  eaws : Tbl Nat Eaw
  stalled : Bool
  deriving DecidableEq, Repr

/-- A frame accepted and not committed: its elements from number `first` of the bucket, the frame itself, which is acknowledged once they have
committed (R44), and when it was accepted (R314). -/
structure RFrame where
  hub : Nat
  job : Nat
  bucket : Nat
  first : Nat
  vals : List Nat
  frame : Frame
  at_ : Nat
  deriving DecidableEq, Repr

structure Hubs where
  dram : Tbl Nat Stack
  buckets : Tbl (Nat × Nat) Bucket
  /-- open contexts in the order in which they opened -/
  ctxs : List RCtx
  /-- accepted frames, oldest first -/
  frames : List RFrame
  /-- hard repairs carried out: what each command named -/
  repairs : List (List Byte)
  deriving DecidableEq, Repr

def Hubs.reset : Hubs := ⟨[], [], [], [], []⟩

end Sys2Proof.Machine
end

