-- ==== Sys2Proof/Machine/StatePorts.lean ====
section
/-! DEFINITION. The state of the fabric ports and links (chapter 15). -/

namespace Sys2Proof.Machine

/-- The states of Table 15.2 within STARTING and ON. -/
inductive PortSub where
  | training | up | retraining | quarantined | failed
  deriving DecidableEq, Repr

/-- A credit count by 4 · class + lane. -/
abbrev Credits := Tbl Nat Nat

/-- A frame in the link replay buffer (R422): its link sequence number, and the hop lane of its credit. -/
structure LinkFrame where
  seq : Nat
  lane : Nat
  frame : Frame
  deriving DecidableEq, Repr

/-- An audit that has sent its mark (R420): the (class, lane), spent as captured, and the reply owed to a CLOSURE_CHECK with its Datum. -/
structure Audit where
  key : Nat
  spent : Nat
  owed : Option Owed
  since : Nat
  deriving DecidableEq, Repr

/-- A fabric port. -/
structure Port where
  life : Life
  sub : PortSub
  since : Nat
  /-- the identity exchange and credit handshake of R429 is under way -/
  handshake : Bool
  /-- the partner's identity and attestation have been found good in this TRAINING (R415, R489); after RETRAINING, the partner's ACK is awaited (R424) -/
  known : Bool
  resume : Bool
  /-- the link keys of R425 are held -/
  keyed : Bool
  /-- sending: the next link sequence number, the link replay buffer, and the credit counts of R420 -/
  txSeq : Nat
  buffer : List LinkFrame
  received : Credits
  spent : Credits
  /-- receiving: the expected link sequence number, whether a RETRY_REQ is outstanding, frames since the last ACK and its Datum -/
  rxSeq : Nat
  asked : Bool
  since64 : Nat
  ackAt : Nat
  issued : Credits
  consumed : Credits
  /-- the link_seq last requested again by the partner and by this end, and how many times in a row (R424) -/
  again : Nat × Nat
  asks : Nat × Nat
  /-- the Datum of the violations of the last 1,000 whole ms (R428) -/
  viols : List Nat
  txCount : Nat
  rxCount : Nat
  audit : Option Audit
  /-- injection: eligible frames seen since arming, the LFSR, and the frames that REORDER holds back, one of a class -/
  injSeen : Nat
  lfsr : Nat
  swap : List Frame
  deriving DecidableEq, Repr

def Port.off : Port :=
  ⟨Life.off, .training, 0, false, false, false, false, 0, [], [], [], 0, false, 0, 0, [], [], (0, 0), (0, 0), [], 0, 0, none, 0, 0, []⟩

end Sys2Proof.Machine
end

