-- ==== Sys2Proof/Machine/StatePower.lean ====
section
/-! DEFINITION. The state of the power manager, the thermal loop, Contour, the overlay and the laser inputs (chapter 19, R579). Clocks and
limits that a register shows stand in the registers. -/

namespace Sys2Proof.Machine

/-- What Contour holds of a die (R522 to R525): degradation in ppm, slack in ps, guardband in 1.25 mV, and the fmax it has taken off. -/
structure Aged where
  degr : Nat
  slack : Int
  guard : Nat
  derate : Nat
  deriving DecidableEq, Repr

structure Power where
  /-- new limits for the next sample (R507): limit_w, excursion_ms, cclk_floor_mhz -/
  next : Option (Nat × Nat × Nat)
  /-- the start of the excursion in progress, and the Datum from which another may begin (R508) -/
  excursion : Option Nat
  readyAt : Nat
  /-- a throttling episode and the limit in watts that it enforces; the Datum of the last lowering and of the last raise (R509, R510) -/
  throttling : Option Nat
  lowered : Nat
  raised : Nat
  /-- matrix issue is halved (stage 5) -/
  halved : Bool
  /-- the CCLK that the power manager gives every CD together, and the lower CCLK of each CD that heat has lowered (R509, R514) -/
  common : Nat
  caps : Tbl Nat Nat
  /-- XDs, MHs and CHs, and hubs with HBM_HOT as their MH, that act under R514 -/
  heat : List Nat
  /-- every bus has been cut (R506, R512, R515) -/
  cut : Bool
  /-- photonic engines at their throttle limit, and tripped ones that have not fallen below it since (R514, R515) -/
  fdHot : List Nat
  fdTrip : List Nat
  /-- hottest reading at the last sample and since reset, by die; the photonic engine of FD n is die 64 + n -/
  temps : Tbl Nat (Nat × Nat)
  /-- THERMTRIP_N has been driven low (R571) -/
  tripPin : Bool
  /-- the stored overlay, and the one in force since the last device reset (R521) -/
  stored : Option (List Byte)
  active : Option (List Byte)
  /-- Contour: per die, the sample and re-plan times, and the retraining window: start, ms, ports, hubs (R526) -/
  aged : Tbl Nat Aged
  sampled : Nat
  planned : Nat
  window : Option (Nat × Nat × Nat × Nat)
  /-- the port, and the stacks, that Contour is retraining -/
  contour : Option Nat
  retry : List Nat
  /-- the spare laser input that a port uses, 0 or 1 of its FD; inputs below 16.0 dBm, and inputs outside the range of Table 22.9 (R579): FD · 8 + input -/
  spare : Tbl Nat Nat
  dark : List Nat
  out : List Nat
  deriving DecidableEq, Repr

def Power.reset : Power :=
  ⟨none, none, 0, none, 0, 0, false, 1500, [], [], false, [], [], [], false, none, none, [], 0, 0, none, none, [], [], [], []⟩

end Sys2Proof.Machine
end

