-- ==== Sys2Proof/Machine/StateSec.lean ====
section
/-! DEFINITION. The state of the jobs and of Cartouche (chapter 18). -/

namespace Sys2Proof.Machine

/-- An exchange of R487 with a peer of the job: the last phase passed, and the reply owed to phase 0. -/
structure Attest where
  peer : Nat
  phase : Nat
  owed : Option Owed
  deriving DecidableEq, Repr

/-- A job of the device (R485, R540): its lifecycle, its device map of n entries (Table 16.1, with the Datum of an entry's last
rewriting), and the counts of its teardown. -/
structure Job where
  life : Life
  n : Nat
  map : Tbl Nat (Word × Option Nat)
  /-- (job, source) pairs for which JOBMAP_UNKNOWN_SOURCE has been written (R435) -/
  unknown : List (Nat × Nat)
  /-- teardown: operations completed, frames answered, bytes zeroized, misclosures, abandoned waits (R544) -/
  counts : Nat × Nat × Nat × Nat × Nat
  /-- of the preamble and the manifest (Table 18.4): logical number and sheet, strict_required, fault_debug, and the image digests -/
  own : Nat
  sheet : Nat
  strict : Bool
  faultDebug : Bool
  images : List (Nat × List Byte)
  /-- the job key, by the number of the draw that made it; the data_key; the manifest digest; the export counter (R486, R497) -/
  key : Option Nat
  dataKey : Option (List Byte)
  digest : List Byte
  exports : Nat
  attests : List Attest
  deriving DecidableEq, Repr

def Job.off : Job := ⟨Life.off, 0, [], [], (0, 0, 0, 0, 0), 0, 0, false, false, [], none, none, [], 0, []⟩

/-- A command's data assembled from parts (R483). -/
structure Parts where
  src : Source
  op : Nat
  total : Nat
  data : List Byte
  deriving DecidableEq, Repr

/-- An SPDM session (R481, R482): who opened it, whether FINISH has been done, and when it was last heard. -/
structure Session where
  src : Source
  fm : Bool
  ready : Bool
  heard : Nat
  deriving DecidableEq, Repr

/-- The Cartouche (R475 to R501). -/
structure Sec where
  /-- fuses of Table 18.1: the target digest that identifies the device (from uds), owner slots, jtag_kill and svn -/
  target : List Byte
  owners : List (List Byte)
  jtagKill : Bool
  svn : Nat
  /-- the current owner record: min_serial and the digests of fabric manager keys -/
  minSerial : Nat
  fmKeys : List (List Byte)
  /-- measurements 1 to 7 of the Cartouches of CH0 and CH1 -/
  measures0 : List (List Byte)
  measures1 : List (List Byte)
  /-- debug state (0 locked, 1 FAULT, 2 FULL), when the token's lifetime ends, and the current challenge -/
  debug : Nat
  debugEnd : Nat
  challenge : Option (List Byte)
  parts : List Parts
  sessions : Tbl Nat Session
  /-- the number of SPDM requests answered in the connection's negotiation: 0 none, 1 version, 2 capabilities, 3 algorithms -/
  negotiated : Nat
  /-- the device memory key, by the number of the draw -/
  deviceKey : Option Nat
  /-- images written to the SPI flash slots A and B, by their SVN, and the slot (true: B) that an update has activated and that has not yet booted to
  Level 0 (R480) -/
  slotA : Option Nat
  slotB : Option Nat
  activated : Option Bool
  deriving DecidableEq, Repr

def zero48 : List Byte := List.replicate 48 0

def Sec.reset : Sec := ⟨zero48, [], false, 0, 0, [], List.replicate 7 zero48, List.replicate 7 zero48, 0, 0, none, [], [], 0, none, none, none, none⟩

end Sys2Proof.Machine
end

