-- ==== Sys2Proof/Machine/StateTime.lean ====
section
/-! DEFINITION. The state of the Datum clock (R351 to R358). The count itself and the registers of Tables 12.8 to 12.17 stand elsewhere. -/

namespace Sys2Proof.Machine

/-- What a follower and a master keep beside the DTM_ registers. -/
structure Clock where
  /-- the follower is on its alternate upstream port (R354) -/
  onAlt : Bool
  /-- the request outstanding: its number and t1; the next number -/
  asked : Option (Nat × Nat)
  nextSeq : Nat
  /-- offset and link delay of the last 16 exchanges, the newest first, and how many in a row lay within ±2 ticks -/
  exchanges : List (Int × Int)
  good : Nat
  /-- the Datum of the last usable response, and when HOLDOVER began -/
  lastOk : Nat
  heldAt : Nat
  /-- ticks of correction still to be slewed (positive: the count must gain), and ticks since the last one (R352) -/
  slew : Int
  phase : Nat
  /-- the domain master that responses name -/
  master : Nat
  /-- DATUM_PPS_OUT is high since this Datum (R358) -/
  ppsHigh : Option Nat
  /-- when the last request left (R353) -/
  askedAt : Nat
  /-- PTP (R356): the best foreign master, as the number by which the best master clock algorithm compares it, and when its last Announce came; the whole
  seconds by which the Datum is ahead, where PTP gives those alone (R357); the slave role; the two-step Sync that waits for its Follow_Up (sequence number and arrival); the Delay_Req that waits for its
  Delay_Resp (its number, the Sync's origin and arrival, and when it left) -/
  gm : Option (Nat × Nat)
  secs : Option Int
  ptpSlave : Bool
  sync : Option (Nat × Nat)
  delay : Option (Nat × Nat × Nat × Nat)
  deriving DecidableEq, Repr

def Clock.reset : Clock := ⟨false, none, 0, [], 0, 0, 0, 0, 0, 0, none, 0, none, none, false, none, none⟩

end Sys2Proof.Machine
end

