-- ==== Sys2Proof/Machine/StateTrain.lean ====
section
/-! DEFINITION. The state of Hachure (R277 to R282). -/

namespace Sys2Proof.Machine

/-- What Hachure keeps of a layer of a sheet: its runs, the last step evaluated and that evaluation's ratio. -/
structure HchLayer where
  low : Nat
  high : Nat
  step : Nat
  ratio : Nat
  /-- the low and the high run have raised their event (R280) -/
  told : Bool × Bool
  deriving DecidableEq, Repr

structure Hachure where
  /-- the accumulators of a sheet's layer and step: SU, SW in units of 2^-200, and the non-finite flag (R277) -/
  reports : Tbl (Nat × Nat × Nat) (Nat × Nat × Bool)
  /-- layers evaluated since their sheet was created -/
  layers : Tbl (Nat × Nat) HchLayer
  /-- per sheet: every step below this number has been evaluated at a step boundary -/
  below : Tbl Nat Nat
  deriving DecidableEq, Repr

end Sys2Proof.Machine
end

