-- ==== Sys2Proof/Machine/State.lean ====
section
/-! DEFINITION. The state of the device, the fault and refusal reasons, and the state after reset. -/

namespace Sys2Proof.Machine

/-- No command of this model stops the machine with a fault: what the spec reports as an error is a status, an event or a
captured register, and is part of the next state. The one constructor is raised by nothing. -/
inductive Fault where
  /-- Raised by no command. Safe: the model never stops here. -/
  | none
  deriving DecidableEq, Repr

/-- Why a command has no meaning. -/
inductive Refusal where
  /-- Raised by an arm of exec whose command has no meaning yet; safe: nothing can be proved of it. -/
  | notModelled (mnemonic : String)
  deriving DecidableEq, Repr

/-- The device. -/
structure State where
  /-- the Datum, in ticks of 1 ns (R351, R352) -/
  datum : Nat
  /-- how many free values have been drawn: the model's own field; no value of it is a rule of the spec -/
  free : Nat
  /-- every memory of Table 2.1 that a fabric address reaches -/
  mem : Memory
  /-- registers whose value differs from reset -/
  regs : Tbl RegId Word
  ep : Endpoint
  /-- register contexts, by the home position of their virtual core -/
  cores : Tbl Nat CoreCtx
  /-- hosting cores that issue from their guest's register context (R201) -/
  guestOn : List Nat
  /-- tile movers, by core position and mover 0 to 3 -/
  movers : Tbl (Nat × Nat) MoverOp
  /-- quantizer queues, by core position -/
  quant : Tbl Nat (List QuantOp)
  /-- stores of MOV_QNT_SUBMIT that a full quantizer has not accepted (R269): the core position, the storing virtual core's home, the value -/
  quantHeld : List (Nat × Nat × Word)
  hch : Hachure
  /-- routing structures and exchange state, by sheet -/
  routing : Tbl Nat Routing
  exch : Tbl Nat Exch
  /-- the Survey unit, its caches and the Plotting engine of an octant, and the deliveries on their way to it, by physical octant -/
  surveys : Tbl Nat SurveyRun
  svyCache : Tbl Nat SvyCache
  plotRuns : Tbl Nat PlotRun
  deliveries : Tbl Nat (List Delivery)
  sheets : Tbl Nat Sheet
  ctxs : Tbl (Nat × Nat) Context
  sems : Tbl (Nat × Nat) Sem
  pools : Tbl Nat Pool
  nextReq : Nat
  /-- the lines of 256 B that the hubs have marked, in order: hub and line number (R293, R294) -/
  marks : List (Nat × Nat)
  /-- the units of memory whose code word an error has changed since they were encoded, and whether the code does not correct it (R174, R292, R536) -/
  upsets : Tbl Nat Bool
  hubs : Hubs
  coll : Collect
  jobs : Tbl Nat Job
  /-- the fabric manager endpoint whose session is open (R482) -/
  fmSession : Option Nat
  sec : Sec
  cht : Chartroom
  boot : Boot
  ev : Events
  sw : Switch
  ports : Tbl Nat Port
  gw : Tbl Nat Gateway
  /-- the peer table (R441), by physical device ID: its entry's 128 B -/
  peers : Tbl Nat (List Byte)
  clock : Clock
  pw : Power
  /-- what has left the package, the newest last -/
  out : List Out
  pending : List Instr
  deriving DecidableEq, Repr

/-- What a command's meaning answers. -/
abbrev Res := Host.Outcome State Fault Refusal

/-- The state after reset. -/
def State.reset : State where
  datum := 0
  free := 0
  mem := []
  regs := []
  ep := Endpoint.reset
  cores := []
  guestOn := []
  movers := []
  quant := []
  quantHeld := []
  hch := ⟨[], [], []⟩
  routing := []
  exch := []
  surveys := []
  svyCache := []
  plotRuns := []
  deliveries := []
  sheets := []
  ctxs := []
  sems := []
  pools := []
  nextReq := 1
  marks := []
  upsets := []
  hubs := Hubs.reset
  coll := Collect.reset
  jobs := []
  fmSession := none
  sec := Sec.reset
  cht := Chartroom.reset
  boot := Boot.reset
  ev := Events.reset
  sw := Switch.reset
  ports := []
  gw := []
  peers := []
  clock := Clock.reset
  pw := Power.reset
  out := []
  pending := []

end Sys2Proof.Machine
end

