-- ==== Sys2Proof/Machine/Ops.lean ====
section
/-! DEFINITION. The named operations over the state: registers and counters (Table 0.4), the local address map (Table 2.1,
R288), memory, completion words (R34), waits (R227), events (R528 to R535) and drawn free values. -/

namespace Sys2Proof.Machine

/-! Registers. -/

/-- The recipe of a tensor kind after reset (Table 9.3), in the encoding of HCH_RECIPE. -/
def recipeReset (kind : Nat) : Nat :=
  match kind with
  | 0 | 1 | 4 => 32 * 2 ^ 17 + 1 * 2 ^ 8 + 3
  | 2 => 32 * 2 ^ 17 + 1 * 2 ^ 12 + 1 * 2 ^ 8 + 4
  | 3 | 5 | 6 => 1
  | _ => 0

/-- The reset value of a register (R8). HCH_RECIPE's fields reset as Table 9.3 gives for each kind. -/
def regReset (id : RegId) : Word :=
  let base := (regRow id.name).fields.foldl (fun w f => w + f.reset * 2 ^ f.lo) 0
  let extra := match id.name with
    | .GAZ_HALF_TARGET => if id.idx = 0 then 2 ^ 63 else 0
    | .HCH_RECIPE => recipeReset (id.idx % 8)
    | _ => 0
  BitVec.ofNat 64 (base + extra)

/-- The stored value of a register. -/
def State.reg (s : State) (id : RegId) : Word := (s.regs.find id).getD (regReset id)

/-- A register set to a value. -/
def State.setReg (s : State) (id : RegId) (w : Word) : State := { s with regs := s.regs.put id w }

/-- A field of a register: f of page inst at index idx. -/
def State.get (s : State) (f : Field) (inst : Nat := 0) (idx : Nat := 0) : Nat := fld (s.reg ⟨f.reg, inst, idx⟩) f.hi f.lo

/-- A field of a register set to v modulo its width. -/
def State.set (s : State) (f : Field) (inst idx v : Nat) : State :=
  s.setReg ⟨f.reg, inst, idx⟩ (BitVec.ofNat 64 (setBits (s.reg ⟨f.reg, inst, idx⟩).toNat f.hi f.lo v))

/-- A counter field raised by n, saturating. -/
def State.bump (s : State) (f : Field) (inst idx n : Nat) : State :=
  s.set f inst idx (satAdd (f.hi + 1 - f.lo) (s.get f inst idx) n)

/-- A counter field raised by n, modulo its width. -/
def State.bumpMod (s : State) (f : Field) (inst idx n : Nat) : State := s.set f inst idx (s.get f inst idx + n)

/-- A capture register written, with its companions, if its valid bit [63] is clear. -/
def State.capture (s : State) (id : RegId) (w : Nat) (more : List (RegId × Nat)) : State :=
  if (s.reg id).getLsbD 63 then s
  else more.foldl (fun s e => s.setReg e.1 (BitVec.ofNat 64 e.2)) (s.setReg id (BitVec.ofNat 64 (2 ^ 63 + w)))

/-- A write of 1 to the W1C bit [63] of a capture register re-arms the capture (Table 0.4). -/
def State.rearm (s : State) (id : RegId) (w : Word) : State :=
  if w.getLsbD 63 then s.setReg id (BitVec.ofNat 64 ((s.reg id).toNat % 2 ^ 63)) else s

/-! Time: a Datum tick is 1 ns (00_scope.md). -/

def usTicks (us : Nat) : Nat := us * 1000
def msTicks (ms : Nat) : Nat := ms * 1000000

/-- Whether n ticks have passed since t. -/
def State.elapsed (s : State) (t n : Nat) : Bool := decide (t + n ≤ s.datum)

/-! Sheets and their places. -/

def State.sheet (s : State) (i : Nat) : Sheet := s.sheets.getD i Sheet.off
def State.sheetOn (s : State) (i : Nat) : Bool := (s.sheet i).life.st == .on
/-- The physical octant of local octant k of sheet i (R365). -/
def State.physOct (s : State) (i k : Nat) : Nat := i * (s.sheet i).m + k
/-- The sheet that owns physical octant o, if any. -/
def State.octSheet (s : State) (o : Nat) : Option Nat :=
  ((s.sheets.sel fun i sh => sh.life.st != .off && decide (i * sh.m ≤ o) && decide (o < i * sh.m + sh.m)).head?).map (·.1)
/-- The home position of virtual core v of sheet i (R199). -/
def State.homeCore (s : State) (i v : Nat) : Nat := 32 * s.physOct i (v / 32) + v % 32
/-- The virtual index of home position c in its sheet. -/
def State.vindexOf (s : State) (i c : Nat) : Nat := c - 32 * s.physOct i 0
/-- The first collective core of sheet i (R317: the highest-numbered virtual cores). -/
def State.collFirst (s : State) (i : Nat) : Nat := 32 * (s.sheet i).m - (s.sheet i).coll

/-! The local address map. -/

/-- Where a local offset lies (Table 2.1). -/
inductive Loc where
  | hbm (off : Nat)
  | scr (v off : Nat)
  | xd (k off : Nat)
  | queue (k page off : Nat)
  | reg (b i off : Nat)
  deriving DecidableEq, Repr

/-- The window of a local offset of sheet i; none for ADDRESS_RANGE (R23 to R26). -/
def State.locate (s : State) (i a : Nat) : Option Loc :=
  let m := (s.sheet i).m
  if a < 2 ^ 40 then (if a < (s.sheet i).usable then some (.hbm a) else none)
  else if a < 2 ^ 40 + 2 ^ 32 then
    let v := (a - 2 ^ 40) / 2 ^ 24
    if v < 32 * m then some (.scr v (a % 2 ^ 24)) else none
  else if 0x18000000000 ≤ a ∧ a < 0x18020000000 then
    let k := (a - 0x18000000000) / 2 ^ 26
    let o := a % 2 ^ 26
    if k < m ∧ o < 2 ^ 25 then some (.xd k o) else none
  else if 0x20000000000 ≤ a ∧ a < 0x20000800000 then
    let k := (a - 0x20000000000) / 2 ^ 20
    let o := a % 2 ^ 20
    if k < m ∧ o < 0x50000 then some (.queue k (o / 2 ^ 16) (o % 2 ^ 16)) else none
  else if 0x30000000000 ≤ a ∧ a < 0x3001B000000 then
    let o := a - 0x30000000000
    some (.reg (o / 2 ^ 24) (o / 2 ^ 16 % 256) (o % 2 ^ 16))
  else none

/-- The memory key of a byte of a data window (HBM by R288, scratchpad by R199, XD SRAM). -/
def State.keyOf (s : State) (i a : Nat) : Option Nat :=
  match s.locate i a with
  | some (.hbm o) =>
    let hubs := 2 * (s.sheet i).m
    let g := o / 4096
    some (keyHbm (2 * s.physOct i 0 + g % hubs) (g / hubs * 4096 + o % 4096))
  | some (.scr v o) => some (keyScr (s.homeCore i v) o)
  | some (.xd k o) => some (keyXd (s.physOct i k) o)
  | _ => none

/-- The hub that holds an HBM offset of sheet i (R288). -/
def State.hubOf (s : State) (i o : Nat) : Nat := 2 * s.physOct i 0 + o / 4096 % (2 * (s.sheet i).m)

/-- n bytes from a lie wholly in one data window of sheet i. -/
def State.inData (s : State) (i a n : Nat) : Bool :=
  n == 0 ||
    match s.locate i a, s.locate i (a + n - 1) with
    | some (.hbm _), some (.hbm _) => true
    | some (.scr _ _), some (.scr _ _) => true
    | some (.xd k _), some (.xd k' _) => k == k'
    | _, _ => false

/-- A word that a local offset names lies in a data window of the sheet. -/
def State.wordIn (s : State) (i a : Nat) : Bool := s.inData i a 8

/-- The n bytes of sheet i's data windows from local offset a. -/
def State.rd (s : State) (i a n : Nat) : List Byte :=
  (List.range n).map fun j => match s.keyOf i (a + j) with
    | some k => s.mem.get k
    | none => 0#8

/-- The little-endian number in n bytes. -/
def State.rdN (s : State) (i a n : Nat) : Nat := leNat (s.rd i a n)

/-- Bytes written to sheet i's data windows from local offset a, without waking a wait. -/
def State.poke (s : State) (i a : Nat) (bs : List Byte) : State :=
  { s with mem := s.mem.setAll ((bs.zipIdx).filterMap fun e => (s.keyOf i (a + e.2)).map fun k => (k, e.1)) }

/-- A number written in n bytes, without waking a wait. -/
def State.pokeN (s : State) (i a n x : Nat) : State := s.poke i a (leBytes n x)

/-- The bytes of the scratchpad of home position c. -/
def State.scrRd (s : State) (c o n : Nat) : List Byte := (List.range n).map fun j => s.mem.get (keyScr c (o + j))
/-- Bytes written there: words that they cover whole are encoded afresh. -/
def State.scrPoke (s : State) (c o : Nat) (bs : List Byte) : State :=
  { s with
    mem := s.mem.setAll (bs.zipIdx.map fun e => (keyScr c (o + e.2), e.1))
    upsets := s.upsets.filter fun e => !(decide (keyScr c o ≤ e.1) && decide (e.1 + 8 ≤ keyScr c (o + bs.length))) }

/-! Cores. -/

def State.core (s : State) (c : Nat) : CoreCtx := s.cores.getD c CoreCtx.idle
def State.setCore (s : State) (c : Nat) (x : CoreCtx) : State := { s with cores := s.cores.put c x }

/-- A wait of a register context that the memory now satisfies, or not (R227). -/
def State.waitHolds (s : State) (x : CoreCtx) (addr : Nat) (b : Word) (ne : Bool) : Bool :=
  let w := s.rdN x.kern.sheet addr 8
  if ne then decide (w ≠ b.toNat) else decide (b.toNat ≤ w)

/-- Every WAITGE and WAITNE whose word satisfies it completes with 1 (R227). -/
def State.wake (s : State) : State :=
  { s with cores := s.cores.mapVals fun _ x =>
      match x.run with
      | .blocked (.wait addr b ne d _) =>
        if s.waitHolds x addr b ne then ({ x with run := .running }.ws d 1).adv else x
      | _ => x }

/-! What leaves the package. -/

def State.send (s : State) (o : Out) : State := { s with out := s.out ++ [o] }

/-! Free values: the counter names the value drawn. -/

def State.draw (s : State) : State := { s with free := s.free + 1 }
/-- n bytes that no rule states. -/
def State.freeBytes (s : State) (n : Nat) : State × List Byte := (s.draw, (List.range n).map (Config.freeByte s.free))

/-! Jobs. -/

def State.job (s : State) (j : Nat) : Job := s.jobs.getD j Job.off
/-- A job counts as admitted from the end of its STARTING to the end of its STOPPING (R471, R540). -/
def State.admitted (s : State) (j : Nat) : Bool := (s.job j).life.st == .on || (s.job j).life.st == .stopping
def State.setJob (s : State) (j : Nat) (x : Job) : State := { s with jobs := s.jobs.put j x }

/-- A valid entry of a job's device map (R434). -/
def State.mapEntry (s : State) (j l : Nat) : Option Word :=
  if l < (s.job j).n then
    match (s.job j).map.find l with
    | some (w, _) => if w.getLsbD 24 then some w else none
    | none => none
  else none

/-- The logical number under which a job's map names a device and sheet, if any. -/
def State.logicalOf (s : State) (j dev sh : Nat) : Option Nat :=
  (((s.job j).map.sel fun l e => decide (l < (s.job j).n) && e.1.getLsbD 24 && fld e.1 19 0 == dev && fld e.1 22 20 == sh).head?).map (·.1)

/-! Events. -/

/-- What a rule says of the event that it writes; `report` says that the rule reports it to the fabric manager. -/
structure EvArgs where
  code : EventCode
  cls : Option Nat := none
  job : Option Nat := none
  sheet : Option Nat := none
  status : Option Status := none
  unit : Nat := 0
  die : Nat := 255
  params : List Nat := []
  report : Bool := false
  deriving DecidableEq, Repr

/-- The queue to the fabric manager overflows by dropping the oldest notice first (R533). -/
def dropOldestNotice : List EventRec → List EventRec
  | [] => []
  | e :: l => if e.cls = 0 then l else e :: dropOldestNotice l
def fmPush (q : List EventRec) (e : EventRec) : List EventRec :=
  let q' := q ++ [e]
  if q'.length ≤ 4096 then q'
  else if q'.any (fun x => x.cls == 0) then dropOldestNotice q' else q'.drop 1

/-- A record sent to the fabric manager, or kept waiting while no session is open (R533). -/
def State.toFm (s : State) (e : EventRec) : State :=
  match s.fmSession with
  | some _ => s.send (.report { e with reported := true })
  | none => { s with ev := { s.ev with fmQueue := fmPush s.ev.fmQueue e } }

/-- Whether an event goes to the fabric manager (R533). -/
def State.fmWants (s : State) (cls : Nat) (report : Bool) : Bool :=
  report || decide (min 5 (s.get F.EVT_CTL_fm_class) ≤ cls)

/-- The standby log holds 16 records, the oldest overwritten first (R535). -/
def logPush (l : List EventRec) (e : EventRec) : List EventRec := takeLast 16 (l ++ [e])

/-- The error record of a job gains an event of class 2 to 5 (Table 20.10). -/
def State.jobCount (s : State) (j : Option Nat) (cls : Nat) : State :=
  match j with
  | some j =>
    if cls < 2 then s
    else
      let f := fun e : JobErr => { e with cls := listSet e.cls (cls - 2) (e.cls.getD (cls - 2) 0 + 1) }
      { s with ev := { s.ev with jobErr := s.ev.jobErr.upd j JobErr.fresh f } }
  | none => s

/-- An event is written (R530 to R533, R535): counted, given the next sequence number, placed in the ring or discarded, and
passed to the fabric manager. -/
def State.event (s : State) (a : EvArgs) : State :=
  let cls := a.cls.getD a.code.baseClass
  let s := (s.bump F.EVT_CLASS_CNT_events 0 cls 1).jobCount a.job cls
  let fm := s.fmWants cls a.report
  let sentNow := fm && s.fmSession.isSome
  let full := decide (65536 ≤ s.ev.ring.length)
  let r : EventRec := ⟨s.datum, s.ev.nextSeq, a.code, cls, a.job, a.sheet, false, sentNow, min 65535 s.ev.lostNow, a.die, a.status,
    a.unit, a.params⟩
  if full && decide (cls < 2) then
    let s := (s.bump F.EVT_LOST_CNT_discarded 0 0 1)
    let s := { s with ev := { s.ev with lostNow := s.ev.lostNow + 1 } }
    if fm then { s with ev := { s.ev with nextSeq := s.ev.nextSeq + 1 } }.toFm { r with lost := 0 } else s
  else
    let s := if full then s.bump F.EVT_LOST_CNT_overwritten 0 0 1 else s
    let ring := (if full then s.ev.ring.drop 1 else s.ev.ring) ++ [r]
    let log := if cls = 5 then logPush s.ev.log r else s.ev.log
    let s := { s with ev := { s.ev with ring := ring, nextSeq := s.ev.nextSeq + 1, lostNow := 0, log := log } }
    if fm then s.toFm r else s

/-- A job error (R529): the event with the job's ID, class deferred, reported, and counted for the job. -/
def State.jobError (s : State) (j : Nat) (a : EvArgs) : State :=
  let f := fun e : JobErr => { e with errors := e.errors + 1, first := some (e.first.getD a.code) }
  let s := { s with ev := { s.ev with jobErr := s.ev.jobErr.upd j JobErr.fresh f } }
  s.event { a with job := some j, cls := some 2, report := true }

/-- A register write refused with the block-26 DESC_FORMAT event: the refusing block in its unit field (R528, Table 20.3). -/
def State.regRefused (s : State) (block inst : Nat) : State :=
  s.event { code := .descFormat, status := some .descFormat, unit := block * 65536 + inst }

/-- One misclosure (R548). -/
def State.misclosure (s : State) (quantity inst : Nat) (counts : List Nat) (job sheet : Option Nat) : State :=
  (s.bump F.EVT_MISCLOSURE_CNT_misclosures 0 0 1).event
    { code := .misclosure, job := job, sheet := sheet, unit := 26 * 65536 + quantity, params := inst :: counts.take 3 }

/-- A misclosure that a job's teardown reports (R544). -/
def State.jobMisclosure (s : State) (j : Option Nat) : State :=
  match j with
  | some j =>
    let x := s.job j
    if x.life.st = .stopping then
      s.setJob j { x with counts := (x.counts.1, x.counts.2.1, x.counts.2.2.1, x.counts.2.2.2.1 + 1, x.counts.2.2.2.2) }
    else s
  | none => s

/-! Faults of a core. -/

/-- The physical core that runs the virtual core whose home is c (R200). -/
def State.runner (s : State) (c : Nat) : Nat :=
  if s.boot.fused.contains c then c / 8 * 8 + (c % 8 + 1) % 8 else c

/-- R233: the capture of a fault on the core that ran the virtual core. -/
def State.captureFault (s : State) (c : Nat) (st : Status) (info pcv : Nat) : State :=
  let p := s.runner c
  s.capture ⟨.CORE_FAULT_INFO, p, 0⟩ (info + st.code) [(⟨.CORE_FAULT_PC, p, 0⟩, pcv)]

/-! Error correction (R174, R292 to R294, R536). A unit is what one code word protects, named by the key of its first byte: a line of 256 B of HBM, or 8 B
of a scratchpad or an XD SRAM. -/

/-- The unit that a key lies in. -/
def unitOf (k : Nat) : Nat := if k < 2 ^ 40 then k / 256 * 256 else if k < keyStage 0 0 then k / 8 * 8 else k

def State.stack (s : State) (h : Nat) : Stack := s.hubs.dram.getD h Stack.fresh
def State.setStack (s : State) (h : Nat) (x : Stack) : State := { s with hubs := { s.hubs with dram := s.hubs.dram.put h x } }

/-- No unit holds an error. -/
def State.clean (s : State) : Bool := s.upsets.isEmpty && s.marks.isEmpty
/-- A line is marked (R294). -/
def State.lineMarked (s : State) (u : Nat) : Bool := decide (u < 2 ^ 40) && s.marks.contains (u / 2 ^ 36, u % 2 ^ 36 / 256)
/-- The bytes of a unit at local address a. -/
def unitSize (a : Nat) : Nat := if a < 2 ^ 40 then 256 else 8
/-- Units j0 to j1 − 1 of the window of local address a. -/
def State.unitKeys (s : State) (i a j0 j1 : Nat) : List Nat := (List.range (j1 - j0)).filterMap fun j => s.keyOf i ((j0 + j) * unitSize a)
/-- The units that n bytes from a touch. -/
def State.unitsOf (s : State) (i a n : Nat) : List Nat :=
  if n = 0 then [] else s.unitKeys i a (a / unitSize a) ((a + n - 1) / unitSize a + 1)
/-- The units that they cover whole. -/
def State.wholeUnits (s : State) (i a n : Nat) : List Nat := s.unitKeys i a (ceilDiv a (unitSize a)) ((a + n) / unitSize a)
/-- The lines of HBM of which they cover a part: a write of them is merged after the line has been read (R294). What a write of a part of a word of SRAM
does no rule says: it reads nothing (DEDUCED, log 416). -/
def State.partLines (s : State) (i a n : Nat) : List Nat :=
  if 2 ^ 40 ≤ a ∨ n = 0 then []
  else
    let l := s.unitKeys i a (a / 256) (ceilDiv a 256)
    l ++ (s.unitKeys i a ((a + n) / 256) (ceilDiv (a + n) 256)).filter fun u => !l.contains u

/-- Whether a marked line holds any of n bytes of sheet i's HBM from offset a (R294). -/
def State.marked (s : State) (i a n : Nat) : Bool := !s.marks.isEmpty && (s.unitsOf i a n).any s.lineMarked

/-- The marked lines of a hub. -/
def State.markedOf (s : State) (h : Nat) : List Nat := (s.marks.filter fun m => m.1 == h).map (·.2)
/-- The pseudo-channel of a line (R289). -/
def lineChannel (l : Nat) : Nat := (l ^^^ (l / 64)) % 64

/-- An uncorrectable error at line l of hub h (R293): marked while the list has room (R294), counted, captured with its source, and an
HBM_UE event, of class fatal-to-sheet while the list is full. A fatal-to-sheet record leaves its sheet due for R538. -/
def State.lineUe (s : State) (h l source : Nat) : State :=
  let n := (s.markedOf h).length
  let full := decide (4096 ≤ n)
  let fresh := !full && !s.marks.contains (h, l)
  let s := if fresh then { s with marks := s.marks ++ [(h, l)], upsets := s.upsets.del (keyHbm h (l * 256)) } else s
  let s := s.bump F.MHB_UE_CNT_uncorrectable h 0 1
  let s := s.capture ⟨.MHB_UE_INFO, h, 0⟩ (lineChannel l * 2 ^ 16 + source) [(⟨.MHB_UE_ADDR, h, 0⟩, l * 256)]
  let sh := s.octSheet (h / 2)
  let s := s.event { code := .hbmUe, cls := if full then some 4 else none, sheet := sh, unit := h, params := [l * 256] }
  let s := if fresh && n == 4095 then s.event { code := .hbmMarkFull, sheet := sh, unit := h } else s
  match full, sh with
  | true, some i => { s with ev := { s.ev with fatal := s.ev.fatal ++ [i] } }
  | _, _ => s

/-- Line l of hub h corrected and written back (R291, R292): counted, with its event, and kept for an hour (R526). -/
def State.lineCe (s : State) (h l : Nat) : State :=
  let s := { s with upsets := s.upsets.del (keyHbm h (l * 256)) }
  let s := s.bump F.MHB_CE_CNT_corrected h 0 1
  let s := s.event { code := .hbmCe, sheet := s.octSheet (h / 2), unit := h, params := [l * 256] }
  let x := s.stack h
  s.setStack h { x with corrected := s.datum :: x.corrected.filter fun t => decide (s.datum < t + 3600 * 1000000000) }

/-- The home position and the slot's offset of a key of a scratchpad. -/
def scrOf (u : Nat) : Nat × Nat := ((u - 2 ^ 40) / 2 ^ 24, u % 2 ^ 24)

/-- The octant of a unit of an XD SRAM or of a hub's staging, whose slots lie above the memories. -/
def sramOct (u : Nat) : Nat := if u < keyStage 0 0 then (u - 2 ^ 41) / 2 ^ 25 else (u - keyStage 0 0) / 128

/-- A unit read, for a source of Table 10.14: an error that its code corrects is written back and reported; whether it holds one that its code does not
correct, which is reported. An uncorrectable error of a scratchpad is captured by its core with its address (R174). -/
def State.readUnit (s : State) (u source : Nat) : State × Bool :=
  let c := scrOf u
  match s.upsets.find u with
  | some false =>
    (if u < 2 ^ 40 then s.lineCe (u / 2 ^ 36) (u % 2 ^ 36 / 256)
      else
        let s := { s with upsets := s.upsets.del u }
        if u < 2 ^ 41 then s.event { code := .scratchCe, sheet := s.octSheet (c.1 / 32), unit := c.1, params := [c.2] }
        else s.event { code := .sramCe, sheet := s.octSheet (sramOct u), params := [u] }, false)
  | some true =>
    (if u < 2 ^ 40 then s.lineUe (u / 2 ^ 36) (u % 2 ^ 36 / 256) source
      else if u < 2 ^ 41 then
        (s.captureFault c.1 .scratchUe 0 c.2).event
          { code := .scratchUe, sheet := s.octSheet (c.1 / 32), status := some .scratchUe, unit := c.1, params := [c.2] }
      else s.event { code := .sramUe, sheet := s.octSheet (sramOct u), status := some .memUe, params := [u] }, true)
  | none => if s.lineMarked u then (s.lineUe (u / 2 ^ 36) (u % 2 ^ 36 / 256) source, true) else (s, false)

/-- The status of an access that meets an uncorrectable error at a unit (R174, R293, R536). -/
def ueStatus (u : Nat) : Status := if 2 ^ 40 ≤ u ∧ u < 2 ^ 41 then .scratchUe else .memUe

/-- Units read in order, up to the first that holds an uncorrectable error: its status, if there is one. -/
def State.readUnits (s : State) (source : Nat) : List Nat → State × Option Status
  | [] => (s, none)
  | u :: l =>
    let r := s.readUnit u source
    if r.2 then (r.1, some (ueStatus u)) else State.readUnits r.1 source l

/-- Every unit of a list read: those that hold an uncorrectable error. -/
def State.readBad (s : State) (source : Nat) (l : List Nat) : State × List Nat :=
  if s.clean then (s, [])
  else l.foldl (fun r u => let q := r.1.readUnit u source; (q.1, if q.2 then r.2 ++ [u] else r.2)) (s, [])

/-- The error that accesses of sheet i meet, if any: address, length and whether each writes. A write reads the lines of which it covers a part. -/
def State.meets (s : State) (i source : Nat) (l : List (Nat × Nat × Bool)) : State × Option Status :=
  if s.clean then (s, none)
  else s.readUnits source (l.flatMap fun a => if a.2.2 then s.partLines i a.1 a.2.1 else s.unitsOf i a.1 a.2.1)

/-- Reads of the scratchpad of home position c, offset and length of each: the error that they meet, if any. -/
def State.scrReads (s : State) (c : Nat) (l : List (Nat × Nat)) : State × Option Status :=
  if s.upsets.isEmpty then (s, none)
  else s.readUnits 2 (l.flatMap fun e => (List.range ((e.1 + e.2 + 7) / 8 - e.1 / 8)).map fun j => keyScr c ((e.1 / 8 + j) * 8))

/-- The units that a write covers whole are encoded afresh, and lose their marks (R294). -/
def State.freshUnits (s : State) (i a n : Nat) : State :=
  if s.clean then s
  else
    let l := s.wholeUnits i a n
    { s with marks := s.marks.filter (fun m => !l.contains (keyHbm m.1 (m.2 * 256))), upsets := s.upsets.filter fun e => !l.contains e.1 }

/-- Bytes whose keys p selects zeroized, their units encoded afresh. -/
def State.zeroize (s : State) (p : Nat → Bool) : State := { s with mem := s.mem.clear p, upsets := s.upsets.filter fun e => !p e.1 }

/-- Bytes written to sheet i's data windows: every wait on them is looked at (R227). Of a line that holds an uncorrectable error a part is not merged: the
line stays as it is (R294). -/
def State.write (s : State) (i a : Nat) (bs : List Byte) : State :=
  if s.clean then (s.poke i a bs).wake
  else
    let r := s.readBad 2 (s.partLines i a bs.length)
    let l := bs.zipIdx.filterMap fun e => match r.1.keyOf i (a + e.2) with
      | some k => if r.2.contains (k / 256 * 256) then none else some (k, e.1)
      | none => none
    (({ r.1 with mem := r.1.mem.setAll l } : State).freshUnits i a bs.length).wake
def State.writeN (s : State) (i a n x : Nat) : State := s.write i a (leBytes n x)

/-- A completion word in the form of R34: tag, zero, status. A done_addr of 0 names none. -/
def State.complete (s : State) (i done tag : Nat) (st : Status) : State :=
  if done = 0 then s else s.writeN i done 8 (tag % 2 ^ 32 * 2 ^ 32 + st.code)

/-! Which descriptors name a scratchpad byte (R378). -/

/-- A local address in the scratchpad window. -/
def inScratch (a : Nat) : Bool := decide (2 ^ 40 ≤ a) && decide (a < 2 ^ 40 + 2 ^ 32)

/-- The offsets at which a descriptor of an engine queue names addresses (Tables 3.4, 4.3 to 4.6, 4.11, 4.13 and 5.3). -/
def addrFields (q op : Nat) : List Nat :=
  match q with
  | 0 => [24, 32, 40, 48]
  | 1 => [16, 24, 32, 48]
  | 2 => match op with
    | 1 => [8, 48]
    | 2 => [16, 24, 32, 40, 48]
    | 3 => [8, 16, 48]
    | 4 => [16, 48]
    | 7 => [16, 24, 32, 40, 48]
    | _ => [48]
  | _ => [16, 48]

/-- Whether a descriptor of queue q names a scratchpad byte. -/
def namesScratch (q : Nat) (d : BitVec 512) : Bool := (addrFields q (dAt d 0 1)).any fun o => inScratch (dAt d o 8)

end Sys2Proof.Machine
end

