-- ==== Sys2Proof/Machine/Command.lean ====
section
/-! DEFINITION. How the Chartroom takes a command packet and replies (R461 to R468, R471, R472, R540, R555): the checks that
every packet meets, the reply packets with their rings, and the lifecycle of Table 17.8. -/

namespace Sys2Proof.Machine

/-- What a command's own rules answer: its final reply, a reply owed to a later step (with whether the command has committed,
R453), or the interim reply of Table 17.8 with the final one owed. -/
inductive Ans where
  | done (st : Status) (detail : Nat) (params : List Byte)
  | later (committed : Bool)
  | interim
  /-- the command has already recorded what it is owed, or sent it -/
  | sent
  deriving DecidableEq, Repr

/-- The detail field of a reply that names no offset (Table 17.4). -/
def noDetail : Nat := 0xFFFFFFFF
def Ans.ok : Ans := .done .ok noDetail []
def Ans.data (p : List Byte) : Ans := .done .ok noDetail p
def Ans.st (x : Status) : Ans := .done x noDetail []
/-- DESC_FORMAT with the byte offset in the packet of the first offending field. -/
def Ans.bad (off : Nat) : Ans := .done .descFormat off []
/-- DESC_FORMAT of a parameter at byte p of the parameters. -/
def Ans.badP (p : Nat) : Ans := .bad (64 + p)

/-- What a command does beyond the checks of every packet. -/
abbrev CmdBody := State → Owed → CmdHdr → List Byte → State × Ans

def hdrOwed (h : CmdHdr) (op : Nat) : Owed := ⟨h.src, op, h.seq, h.tag, h.interrupt⟩

/-- The slots of 64 B that a packet takes in its ring (R461). -/
def packetSlots (length : Nat) : Nat := 1 + ceilDiv length 64

/-- The active die; CH0 while neither is active. -/
def State.chtDie (s : State) : Nat := if s.cht.role1 = .active then 1 else 0
def State.role (s : State) (die : Nat) : Role := if die = 0 then s.cht.role0 else s.cht.role1
def State.chtActive (s : State) : Bool := s.cht.role0 == .active || s.cht.role1 == .active

/-! Replies. -/

/-- A reply packet's bytes (Table 17.4). -/
def Reply.bytes (r : Reply) : List Byte :=
  leBytes 2 r.op ++ leBytes 2 r.params.length ++ leBytes 4 r.seq.toNat ++ leBytes 8 r.tag.toNat ++ leBytes 2 r.status.code ++
  leBytes 1 (b2n r.interim + 2 * b2n r.redirected + 4 * b2n r.duplicate) ++ leBytes 1 0 ++ leBytes 4 r.detail ++
  leBytes 8 r.datum ++ List.replicate 32 0 ++ r.params

def State.ringOn (s : State) (die n : Nat) : Bool := s.get F.CHT_RING_CFG_enable die n == 1

/-- Whether the reply ring has room for a reply with this many parameter bytes. -/
def State.replyRoom (s : State) (die n len : Nat) : Bool :=
  let used := (s.get F.CHT_RING_STATUS_reply_tail die n + 2 ^ 32 - s.get F.CHT_RING_DB_reply_head die n) % 2 ^ 32
  decide (used + packetSlots len ≤ 2 ^ s.get F.CHT_RING_RPL_size_log2 die n)

/-- A packet's slots in a ring of 2^lg slots from slot t: host address and bytes of each slot (R461). -/
def ringSlots (base lg t : Nat) (bs : List Byte) : List (Nat × List Byte) :=
  (List.range (ceilDiv bs.length 64)).map fun j => (base + 64 * ((t + j) % 2 ^ lg), bytesAt bs (64 * j) 64)

/-- The three steps of R463. -/
def State.ringReply (s : State) (die n : Nat) (o : Owed) (r : Reply) : State :=
  let t := s.get F.CHT_RING_STATUS_reply_tail die n
  let t' := (t + packetSlots r.params.length) % 2 ^ 32
  let slots := ringSlots (s.get F.CHT_RING_RPL_base die n * 4096) (s.get F.CHT_RING_RPL_size_log2 die n) t r.bytes
  let s := (s.send (.reply o.src r)).set F.CHT_RING_STATUS_reply_tail die n t'
  let s := slots.foldl (fun s e => s.send (.host die e.1 e.2)) s
  let s := s.send (.host die (8 * s.get F.CHT_RING_WB_addr die n) (leBytes 8 (s.get F.CHT_RING_STATUS_cmd_head die n * 2 ^ 32 + t')))
  if o.interrupt then s.send (.msix die (s.get F.CHT_RING_CFG_vector die n)) else s

/-- The function whose ring takes a reply owed to ring n of a die, and whether it is redirected (R456). -/
def State.replyDie (s : State) (die : Nat) : Nat × Bool := if s.role die = .failed then (1 - die, true) else (die, false)

def State.lostReply (s : State) : State := s.bump F.CHT_CMD_CNT_lost_replies s.chtDie 0 1

/-- A reply delivered to its source: over its session or bus, or through its reply ring, where it is held for want of room
(R463) and lost where the ring is not enabled (R456, R461). -/
def State.deliver (s : State) (o : Owed) (r : Reply) : State :=
  if s.cht.dropped.contains o then ({ s with cht := { s.cht with dropped := s.cht.dropped.erase o } } : State).lostReply
  else match o.src with
  | .ring die n =>
    let d := s.replyDie die
    let r := { r with redirected := d.2 }
    if !s.ringOn d.1 n then s.lostReply
    else if s.replyRoom d.1 n r.params.length && !(s.cht.held.any fun e => e.1.src == o.src) then s.ringReply d.1 n o r
    else { s with cht := { s.cht with held := s.cht.held ++ [(o, r)] } }
  | .launch _ => s
  | _ => s.send (.reply o.src r)

/-- Held replies of a ring sent in order while there is room. -/
def releaseHeld (src : Source) (die n : Nat) : List (Owed × Reply) → State → State
  | [], s => s
  | (o, r) :: l, s =>
    if o.src = src then
      if s.replyRoom die n r.params.length then
        let s := s.ringReply die n o r
        releaseHeld src die n l { s with cht := { s.cht with held := s.cht.held.erase (o, r) } }
      else s
    else releaseHeld src die n l s

def State.src (s : State) (x : Source) : SrcState := s.cht.srcs.getD x SrcState.fresh
def State.setSrc (s : State) (x : Source) (v : SrcState) : State := { s with cht := { s.cht with srcs := s.cht.srcs.put x v } }

/-- The reply that a command's answer makes now. -/
def State.mkReply (s : State) (o : Owed) (st : Status) (interim : Bool) (detail : Nat) (params : List Byte) : Reply :=
  ⟨o.op, o.seq, o.tag, st, interim, false, false, detail, s.datum, params⟩

/-- A kept number gains its final reply (R466). -/
def keepReply (l : List (Nat × Option Reply)) (seq : Nat) (r : Reply) : List (Nat × Option Reply) :=
  l.map fun e => if e.1 = seq then (seq, some r) else e

/-- The final reply of a packet (R465): formed, kept (R466), counted, delivered. -/
def State.finalPacket (s : State) (o : Owed) (st : Status) (detail : Nat) (params : List Byte) : State :=
  let r := s.mkReply o st false detail params
  let x := s.src o.src
  let s := s.setSrc o.src { x with kept := keepReply x.kept o.seq.toNat r }
  let s := { s with cht := { s.cht with open_ := s.cht.open_.filter fun e => e.1 != o } }
  let s := if st = .ok then s else s.bump F.CHT_CMD_CNT_refused s.chtDie 0 1
  s.deliver o r

/-- The reply of a LAUNCH_AT (R361): skew and the wrapped command's status. -/
def State.launchReply (s : State) (o : Owed) (skew : Int) (late : Bool) (inner : Status) : State :=
  s.finalPacket o (if late then .late else inner) noDetail (leBytes 8 (toBits 64 skew) ++ leBytes 2 inner.code)

/-- The final reply of a command: a launch replies when its wrapped command does. -/
def State.final (s : State) (o : Owed) (st : Status) (detail : Nat := noDetail) (params : List Byte := []) : State :=
  match o.src with
  | .launch id =>
    match s.cht.began.find id with
    | some b => ({ s with cht := { s.cht with began := s.cht.began.del id } }).launchReply b.1 b.2.1 b.2.2 st
    | none => s
  | _ => s.finalPacket o st detail params

/-- A reply that changes no sequence state: the refusal with SEQUENCE. -/
def State.finalUnkept (s : State) (o : Owed) (st : Status) : State :=
  (s.bump F.CHT_CMD_CNT_refused s.chtDie 0 1).deliver o (s.mkReply o st false noDetail [])

/-- The kept final reply of a repeated number, sent again with duplicate set (R466). -/
def State.resendKept (s : State) (o : Owed) : State :=
  match (s.src o.src).kept.find? (fun e => e.1 == o.seq.toNat) with
  | some (_, some r) => s.deliver o { r with duplicate := true }
  | _ => s

/-- A command that is owed its final reply by a later step. -/
def State.owe (s : State) (o : Owed) (committed : Bool) : State :=
  match o.src with
  | .launch _ => s
  | _ => { s with cht := { s.cht with open_ := s.cht.open_ ++ [(o, committed)] } }

/-- What an answer sends and records. -/
def State.answer (s : State) (o : Owed) : Ans → State
  | .done st d p => s.final o st d p
  | .later c => s.owe o c
  | .sent => s
  | .interim => (s.owe o true).deliver o (s.mkReply o .acceptedDeferred true noDetail [])

/-! Rights, levels and the header (Tables 17.3, 17.5 and 21.3). -/

/-- The sources of Table 17.5: host, fabric manager, board management controller. -/
def cmdRights : Nat → Option (Bool × Bool × Bool)
  | 0x0100 => some (true, true, true)
  | 0x0101 => some (true, true, true)
  | 0x0102 => some (true, true, false)
  | 0x0103 => some (true, true, false)
  | 0x0104 => some (true, true, false)
  | 0x0105 => some (true, true, true)
  | 0x0106 => some (false, true, true)
  | 0x0200 => some (true, true, false)
  | 0x0201 => some (true, true, false)
  | 0x0202 => some (true, false, false)
  | 0x0203 => some (true, true, false)
  | 0x0204 => some (true, false, false)
  | 0x0205 => some (true, false, false)
  | 0x0206 => some (true, false, false)
  | 0x0207 => some (true, true, false)
  | 0x0300 => some (true, true, false)
  | 0x0301 => some (true, true, false)
  | 0x0302 => some (true, true, false)
  | 0x0303 => some (true, true, false)
  | 0x0304 => some (false, true, false)
  | 0x0400 => some (true, true, false)
  | 0x0401 => some (true, false, false)
  | 0x0402 => some (true, false, false)
  | 0x0403 => some (true, false, false)
  | 0x0404 => some (true, false, false)
  | 0x0405 => some (true, true, false)
  | 0x0406 => some (true, false, false)
  | 0x0407 => some (true, true, false)
  | 0x0408 => some (true, false, false)
  | 0x0409 => some (true, false, false)
  | 0x0500 => some (false, true, false)
  | 0x0501 => some (false, true, false)
  | 0x0502 => some (false, true, false)
  | 0x0503 => some (false, true, false)
  | 0x0504 => some (true, true, false)
  | 0x0505 => some (false, true, false)
  | 0x0506 => some (false, true, false)
  | 0x0507 => some (false, true, false)
  | 0x0508 => some (false, true, false)
  | 0x0509 => some (false, true, false)
  | 0x0600 => some (true, true, false)
  | 0x0601 => some (true, true, false)
  | 0x0602 => some (true, false, false)
  | 0x0603 => some (true, true, true)
  | 0x0604 => some (false, true, false)
  | 0x0605 => some (false, true, false)
  | 0x0606 => some (false, true, false)
  | 0x0700 => some (true, true, false)
  | 0x0701 => some (true, true, false)
  | 0x0702 => some (true, true, false)
  | 0x0703 => some (true, true, false)
  | 0x0704 => some (true, true, false)
  | 0x0800 => some (false, true, true)
  | 0x0801 => some (false, true, true)
  | 0x0802 => some (false, true, true)
  | 0x0803 => some (true, true, true)
  | 0x0804 => some (false, true, true)
  | 0x0900 => some (false, true, false)
  | 0x0901 => some (true, true, true)
  | 0x0902 => some (true, true, true)
  | 0x0903 => some (true, true, true)
  | 0x0A00 => some (true, true, true)
  | 0x0A01 => some (false, true, true)
  | 0x0A02 => some (true, true, false)
  | 0x0A03 => some (true, true, true)
  | 0x0B00 => some (true, true, false)
  | 0x0B01 => some (true, true, true)
  | 0x0B02 => some (true, true, true)
  | _ => none

def sourceMay (op : Nat) (x : Source) : Bool :=
  match cmdRights op, x with
  | some r, .ring _ _ => r.1
  | some r, .fm _ => r.2.1
  | some r, .bmc => r.2.2
  | some _, .launch _ => false
  | none, _ => false

/-- The level that a command's class needs (Table 21.3). -/
def cmdLevel (op : Nat) : Nat := if [1, 5, 8, 9, 10, 11].contains (op / 256) then 0 else 1

/-- The job that a command's parameters name, beside its header's: those of CONTEXT_CREATE, BUCKET_DEFINE and _UNDEFINE, GROUP_DEFINE and _UNDEFINE, TREE_START,
TREE_REPARENT and TREE_END; the data of a JOB_ADMIT (its manifest) or a PEER_ATTEST that comes in one part (R483 to R487). -/
def paramJob (op : Nat) (p : List Byte) : Option Nat :=
  let whole := uAt p 4 4 == 0 && uAt p 0 4 == uAt p 8 4
  if op = 0x0202 ∨ op = 0x0600 ∨ op = 0x0601 then some (uAt p 2 2)
  else if op = 0x0406 ∨ op = 0x0407 ∨ op = 0x0604 ∨ op = 0x0605 ∨ op = 0x0606 then some (uAt p 4 2)
  else if op = 0x0300 ∧ whole then some (uAt p (16 + 1752 + 2) 2)
  else if op = 0x0900 ∧ whole then some (uAt p 18 2)
  else none

/-- R555: the level of the class, and boot_complete for a command that names a sheet or job, JOB_ADMIT and SHEET_CREATE. -/
def State.levelOk (s : State) (op : Nat) (h : CmdHdr) (p : List Byte) : Bool :=
  decide (cmdLevel op ≤ s.boot.level) &&
    (s.boot.complete || !(h.sheetValid || h.jobValid || op == 0x0300 || op == 0x0200 || (paramJob op p).isSome))

/-- The first reserved field of Table 17.3 that is not zero, or a length above 4,096, by its offset. -/
def hdrBad (h : CmdHdr) : Option Nat :=
  firstFail [(decide (h.length.toNat ≤ 4096), 2), (h.resv16 == 0, 16), (h.resv17 == 0, 17), (h.resv20 == 0, 20), (h.resv24 == 0, 24)]

/-- The checks that every packet meets after its sequence number: Table 17.3, Table 17.5, R555, R464 and R540. -/
def State.cmdCheck (s : State) (op : Nat) (h : CmdHdr) (p : List Byte) : Option Ans :=
  match hdrBad h with
  | some off => some (.bad off)
  | none =>
    let j := h.job.toNat
    let e := s.mapEntry j h.logical.toNat
    firstFail [
      ((cmdRights op).isSome, .st .opcodeUnknown),
      (sourceMay op h.src, .st .accessDenied),
      (s.levelOk op h p, .st .levelUnavailable),
      (!h.jobValid || op == 0x0300 || s.admitted j || ((s.job j).life.st == LifeSt.stopping), .st .jobUnknown),
      (!h.jobValid || op == 0x0300 || op == 0x0301 || (s.job j).life.st != LifeSt.stopping, .st .tornDown),
      (!(h.jobValid && h.sheetValid) || op == 0x0300 ||
        (match e with
         | some w => fld w 19 0 == s.sw.devId && fld w 22 20 == h.sheet.toNat
         | none => false), .st .unmappedDevice)]

/-- Bytes off to off + n − 1 of the parameters are zero. -/
def zeros (p : List Byte) (off n : Nat) : Bool := uAt p off n == 0

/-- A packet whose parameters have n bytes. -/
def lenIs (p : List Byte) (n : Nat) : Bool × Ans := (p.length == n, .bad 2)
def needSheet (h : CmdHdr) : Bool × Ans := (h.sheetValid, .bad 17)
def needJob (h : CmdHdr) : Bool × Ans := (h.jobValid, .bad 17)

/-! Acceptance. -/

/-- The command ring of a source holds the whole packet, and nothing keeps the Chartroom from reading it (R461 to R463). -/
def State.ringReady (s : State) (x : Source) (len : Nat) : Bool :=
  match x with
  | .ring die n =>
    let have_ := (s.get F.CHT_RING_DB_cmd_tail die n + 2 ^ 32 - s.get F.CHT_RING_STATUS_cmd_head die n) % 2 ^ 32
    s.role die != .failed && s.ringOn die n && decide (packetSlots len ≤ have_) && !(s.cht.held.any fun e => e.1.src == x)
  | .fm e => s.fmSession == some e
  | .bmc => true
  | .launch _ => false

/-- R467: a packet is taken while a die is active and no device reset is due (R560: no STOPPING begins then), fewer than 256 commands are open, and the barrier allows it. -/
def State.acceptable (s : State) (h : CmdHdr) : Bool :=
  s.chtActive && s.cht.resetAt.isNone && s.cht.resetOwed.isNone && decide (s.cht.open_.length < 256) && s.ringReady h.src h.length.toNat &&
    (!h.barrier || !(s.cht.open_.any fun e => e.1.src == h.src))

/-- R462: the head advances past a packet once it is copied. -/
def State.advanceHead (s : State) (x : Source) (len : Nat) : State :=
  match x with
  | .ring die n => s.bumpMod F.CHT_RING_STATUS_cmd_head die n (packetSlots len)
  | _ => s

/-- The source's next number, with this one among its last 256 (R466). -/
def SrcState.take (x : SrcState) (seq : Nat) : SrcState :=
  { x with expected := some ((seq + 1) % 2 ^ 32), kept := takeLast 256 (x.kept ++ [(seq, none)]) }

/-- A management frame of a fabric manager endpoint that has no session open (R482). -/
def State.outsideSession (s : State) (x : Source) : Bool :=
  match x with
  | .fm e => s.fmSession != some e
  | _ => false

/-- A command packet, from its ring, session or bus to its reply (R462 to R468). While it cannot be taken nothing changes. -/
def State.command (s : State) (op : Nat) (h : CmdHdr) (p : List Byte) (body : CmdBody) : State :=
  if s.outsideSession h.src then s.bump F.CTC_FAIL_CNT_session s.chtDie 0 1
  else if !s.acceptable h then s
  else
    let o := hdrOwed h op
    let x := s.src h.src
    let q := h.seq.toNat
    let s := s.advanceHead h.src h.length.toNat
    if x.expected.isSome && x.expected != some q then
      if x.kept.any (fun e => e.1 == q) then s.resendKept o else s.finalUnkept o .sequence
    else
      let s := s.setSrc h.src (x.take q)
      let p := bytesAt p 0 h.length.toNat
      match s.cmdCheck op h p with
      | some a => s.answer o a
      | none =>
        let s := s.bumpMod F.CHT_CMD_CNT_accepted s.chtDie 0 1
        let r := body s o h p
        r.1.answer o r.2

/-- The source that a command stands for: a wrapped command has its launch's source. -/
def State.trueSrc (s : State) (x : Source) : Source :=
  match x with
  | .launch id => match s.cht.began.find id with
    | some b => b.1.src
    | none => x
  | _ => x

/-- The held launches that p selects end with TORN_DOWN (R362). -/
def State.launchTear (s : State) (p : Timed → Bool) : State :=
  let l := s.cht.timed.filter p
  let s := { s with cht := { s.cht with timed := s.cht.timed.filter fun t => !p t } }
  l.foldl (fun s t => s.final t.owed .tornDown) s

/-- Whether a wrapped command names a sheet or a job (R362). -/
def Timed.namesSheet (i : Nat) (t : Timed) : Bool :=
  (t.inner.hdr.sheetValid && t.inner.hdr.sheet.toNat == i) || (t.inner.op == 0x0200 && uAt t.inner.params 0 1 == i)
def Timed.namesJob (j : Nat) (t : Timed) : Bool := (t.inner.hdr.jobValid && t.inner.hdr.job.toNat == j) || paramJob t.inner.op t.inner.params == some j

/-! Lifecycles (Table 17.8). -/

def mkPacket (h : CmdHdr) (op : Nat) (p : List Byte) : Packet := ⟨op, h, p⟩
def Packet.owed (x : Packet) : Owed := hdrOwed x.hdr x.op

/-- An enable command by the state of its function: the new lifecycle, its answer, and whether STARTING begins now. -/
def Life.doEnable (l : Life) (pkt : Packet) (busy : Status) (now : Nat) : Life × Ans × Bool :=
  match l.st with
  | .off => ({ l with st := .starting, step := 0, enable := some pkt.owed, failing := none, since := now }, .later true, true)
  | .stopping =>
    match l.deferred with
    | none => ({ l with deferred := some pkt }, .interim, false)
    | some _ => (l, .st .deferPending, false)
  | _ => (l, .st busy, false)

/-- A disable command by the state of its function: the new lifecycle, its answer, the replies that other commands now get,
and whether STOPPING begins now. -/
def Life.doDisable (l : Life) (o : Owed) (offSt : Status) (now : Nat) : Life × Ans × List Owed × Bool :=
  match l.st with
  | .off => (l, .st offSt, [], false)
  | .starting =>
    ({ l with st := .stopping, step := 0, enable := none, disables := [o], since := now }, .later true, l.enable.toList, true)
  | .on => ({ l with st := .stopping, step := 0, disables := [o], since := now }, .later true, [], true)
  | .stopping =>
    ({ l with disables := l.disables ++ [o], deferred := none }, .later true, (l.deferred.map Packet.owed).toList, false)

/-- Commands whose final reply is TORN_DOWN (Table 17.8). -/
def State.tornDown (s : State) (l : List Owed) : State := l.foldl (fun s o => s.final o .tornDown) s

/-- A STARTING check that fails ends STARTING through STOPPING; the enable's final reply comes with the failing status at OFF. -/
def Life.fail (l : Life) (st : Status) (now : Nat) : Life := { l with st := .stopping, step := 0, failing := some st, since := now }

/-- STARTING is done: the function is ON and the enable's final reply is OK. -/
def Life.started (l : Life) (now : Nat) : Life := { l with st := .on, step := 0, enable := none, since := now }

/-- STOPPING is done: the replies it owes, each with its status. -/
def Life.stopped (l : Life) : Life × List (Owed × Status) × Option Packet :=
  (Life.off, (match l.enable, l.failing with
    | some o, some st => [(o, st)]
    | some o, none => [(o, .tornDown)]
    | none, _ => []) ++ l.disables.map (fun o => (o, .ok)), l.deferred)

/-- Final replies sent. -/
def State.finals (s : State) (l : List (Owed × Status)) : State := l.foldl (fun s e => s.final e.1 e.2) s

end Sys2Proof.Machine
end

