-- ==== Sys2Proof/Machine/PoolOps.lean ====
section
/-! DEFINITION. The operations of the buffer pool manager (R156 to R172): the layout of a pool, its counts and level, next-fit,
the pointer checks, and the effect of each request of Table 5.4. -/

namespace Sys2Proof.Machine

def State.pool (s : State) (p : Nat) : Pool := s.pools.getD p Pool.off
def State.setPool (s : State) (p : Nat) (x : Pool) : State := { s with pools := s.pools.put p x }

/-! Layout and counts. -/

def Pool.cellSize (x : Pool) : Nat := 256 * 2 ^ x.code

/-- The classes of a sized pool: the buffers' size, how many, and the offset of the first (R160). -/
def Pool.classes (x : Pool) : List (Nat × Nat × Nat) :=
  [(512, x.n512, x.n1m * 2 ^ 20 + x.n64k * 2 ^ 16 + x.n4k * 2 ^ 12), (4096, x.n4k, x.n1m * 2 ^ 20 + x.n64k * 2 ^ 16),
    (65536, x.n64k, x.n1m * 2 ^ 20), (2 ^ 20, x.n1m, 0)]

/-- The bytes of a pool. -/
def Pool.size (x : Pool) : Nat :=
  if x.sized then x.n1m * 2 ^ 20 + x.n64k * 2 ^ 16 + x.n4k * 2 ^ 12 + x.n512 * 512 else x.cells * x.cellSize

/-- Cells, or units of 512 B in sized mode (R160, Table 5.13). -/
def Pool.capacity (x : Pool) : Nat := if x.sized then x.size / 512 else x.cells

/-- The size of the buffer at an offset of a sized pool, if the offset is the start of one. -/
def Pool.bufSize (x : Pool) (o : Nat) : Option Nat :=
  (x.classes.find? fun c => decide (c.2.2 ≤ o) && decide (o < c.2.2 + c.1 * c.2.1) && (o - c.2.2) % c.1 == 0).map (·.1)

def Pool.allocated (x : Pool) : Nat :=
  if x.sized then sumOf x.bufs (fun o => (x.bufSize o).getD 0 / 512) else (x.tab.filter fun e => !e.2.quar).length
def Pool.quarantined (x : Pool) : Nat := (x.tab.filter fun e => e.2.quar).length
/-- Between two commands no request stands between the free structure and its allocation register: in_flight is 0 (R171). -/
def Pool.inFlight (_ : Pool) : Nat := 0
def Pool.free (x : Pool) : Nat := x.capacity - x.allocated - x.quarantined - x.inFlight
def Pool.occupied (x : Pool) : Nat := x.allocated + x.quarantined

/-- The physical octant of a pool's home instance. -/
def State.poolOct (s : State) (x : Pool) : Nat := s.physOct x.sheet x.home

/-! Levels (R167). -/

def Pool.pct (x : Pool) : PLevel → Nat
  | .normal => 0
  | .warn => x.warn
  | .stop => x.stop
  | .critical => x.crit

/-- Whether a pool at level `x.level` is at level l or above with its present count. -/
def Pool.holds (x : Pool) (l : PLevel) : Bool :=
  decide (ceilDiv (x.capacity * x.pct l) 100 ≤ x.occupied) ||
    (decide (l.code ≤ x.level.code) && decide (ceilDiv (x.capacity * (x.pct l - x.hyst)) 100 ≤ x.occupied))

def Pool.nextLevel (x : Pool) : PLevel :=
  if x.holds .critical then .critical else if x.holds .stop then .stop else if x.holds .warn then .warn else .normal

/-- Whether a pool whose free count has come down to n is at or above STOP (R107). -/
def Pool.stopAt (x : Pool) (n : Nat) : Bool :=
  decide (2 ≤ x.level.code) || [PLevel.stop, PLevel.critical].any fun l =>
    decide (ceilDiv (x.capacity * x.pct l) 100 ≤ x.capacity - n)

/-- A pool stored after a change of its counts or thresholds, with the event of a change of level (R167). -/
def State.putPool (s : State) (p : Nat) (x : Pool) : State :=
  let l := x.nextLevel
  let s := s.setPool p { x with level := l }
  if l = x.level then s
  else s.event { code := .poolLevel, job := x.job, sheet := some x.sheet, unit := p, params := [p, x.level.code, l.code, x.occupied] }

/-! Next-fit (R158). -/

/-- The lowest start at or after pos of a run of n cells that are free. -/
def findRun (tab : Tbl Nat PCell) (cells n : Nat) : Nat → Nat → Option Nat
  | 0, _ => none
  | fuel + 1, pos =>
    if cells < pos + n then none
    else
      let occ := (tab.filter fun e => decide (pos ≤ e.1) && decide (e.1 < pos + n)).map (·.1)
      if occ.isEmpty then some pos else findRun tab cells n fuel (occ.foldl max 0 + 1)

/-- The run of n free cells at or after the cursor, wrapping once to cell 0. -/
def Pool.nextFit (x : Pool) (n : Nat) : Option Nat :=
  match findRun x.tab x.cells n (x.tab.length + 1) x.cursor with
  | some c => some c
  | none => findRun x.tab x.cells n (x.tab.length + 1) 0

/-- Cells entered as one allocated chain, in order (R157). -/
def chainCells (engine : Bool) (refs : Nat) (head : Bool) : List Nat → Tbl Nat PCell
  | [] => []
  | [c] => [(c, ⟨false, engine, head, refs, none⟩)]
  | c :: d :: l => (c, ⟨false, engine, head, refs, some d⟩) :: chainCells engine 0 false (d :: l)

def Pool.enter (x : Pool) (cells : Tbl Nat PCell) : Pool := { x with tab := cells.foldl (fun t e => t.put e.1 e.2) x.tab }

/-- An extent of n cells taken: the pool and the first cell. -/
def Pool.takeExtent (x : Pool) (n : Nat) (engine : Bool) : Option (Pool × Nat) :=
  (x.nextFit n).map fun c => ({ x.enter (chainCells engine 1 true ((List.range n).map (c + ·))) with cursor := (c + n) % max 1 x.cells }, c)

/-- n single cells in next-fit order: the cells and the new cursor. -/
def Pool.takeCells (x : Pool) : Nat → Option (Pool × List Nat)
  | 0 => some (x, [])
  | n + 1 =>
    match x.nextFit 1 with
    | none => none
    | some c =>
      match ({ x.enter [(c, ⟨false, false, false, 0, none⟩)] with cursor := (c + 1) % max 1 x.cells } : Pool).takeCells n with
      | none => none
      | some (y, l) => some (y, c :: l)

/-- A chain of n cells taken. -/
def Pool.takeChain (x : Pool) (n : Nat) (engine : Bool) : Option (Pool × List Nat) :=
  (x.takeCells n).map fun r => (r.1.enter (chainCells engine 1 true r.2), r.2)

/-! Chains. -/

/-- The cells of the chain from a cell on. -/
def Pool.chain (x : Pool) : Nat → Nat → List Nat
  | 0, _ => []
  | fuel + 1, c =>
    match x.tab.find c with
    | none => []
    | some e => c :: (match e.next with
      | some d => x.chain fuel d
      | none => [])

def Pool.cellAddr (x : Pool) (c : Nat) : Nat := x.base + c * x.cellSize

/-- Cells freed; one that holds a marked line, or every one if quar is set, goes to quarantined instead (R164, R294). -/
def State.freeCells (s : State) (x : Pool) (quar : Bool) (l : List Nat) : Pool :=
  { x with tab := l.foldl (fun t c =>
      if quar || s.marked x.sheet (x.cellAddr c) x.cellSize then t.put c ⟨true, false, false, 0, none⟩ else t.del c) x.tab }

/-- One reference to a chain given up; at 0 its cells are freed (Table 5.4). -/
def State.unref (s : State) (p c : Nat) : State :=
  let x := s.pool p
  match x.tab.find c with
  | some e =>
    if e.refs ≤ 1 then s.putPool p (s.freeCells x false (x.chain (x.tab.length + 1) c))
    else s.setPool p { x with tab := x.tab.put c { e with refs := e.refs - 1 } }
  | none => s

/-- Every cell of a chain moved to quarantine (R116). -/
def State.quarantineChain (s : State) (p c : Nat) : State :=
  let x := s.pool p
  s.putPool p (s.freeCells x true (x.chain (x.tab.length + 1) c))

/-- The index of the cell that a pointer names, if it is a cell's first byte. -/
def Pool.cellOf (x : Pool) (ptr : Nat) : Option Nat :=
  if x.base ≤ ptr ∧ ptr < x.base + x.size ∧ (ptr - x.base) % x.cellSize = 0 then some ((ptr - x.base) / x.cellSize) else none

/-! Pointer checks (R166). -/

/-- Whether the pointer of a request fails. -/
def Pool.badPtr (x : Pool) (op ptr : Nat) : Bool :=
  if x.sized then
    if ptr < x.base then true
    else match x.bufSize (ptr - x.base) with
      | none => true
      | some _ => op == 7 && !x.bufs.contains (ptr - x.base)
  else match x.cellOf ptr with
    | none => true
    | some c => match x.tab.find c with
      | none => op == 3 || op == 4
      | some e => e.quar || ((op == 4 || op == 5) && !e.head) || (op == 3 && e.next.isSome)

/-- A failing pointer: logged, counted, captured and reported. -/
def State.badPointer (s : State) (p op ptr agent : Nat) : State :=
  let x := s.pool p
  let o := s.poolOct x
  let s := s.setPool p { x with log := takeLast 16 (x.log ++ [BadPtr.mk ptr op agent]) }
  let s := s.bump F.BPM_BADPTR_CNT_bad_pointers o 0 1
  let s := s.capture ⟨.BPM_BADPTR_INFO, o, 0⟩ (agent * 2 ^ 14 + p * 2 ^ 8 + op) [(⟨.BPM_BADPTR_ADDR, o, 0⟩, ptr)]
  s.event { code := .badPointer, job := x.job, sheet := some x.sheet, status := some .badPointer, unit := p }

/-! Requests (R162 to R164). -/

/-- Whether a request takes cells, and may so have to wait. -/
def takesCells (op : Nat) : Bool := op == 1 || op == 2 || op == 3 || op == 6

/-- The bytes that a request writes at its result_addr (Table 5.4). -/
def resultBytes (op count : Nat) : Nat := if op == 1 then 8 * count else if op == 2 || op == 3 || op == 6 then 8 else 0

/-- An allocation tried: the pool and the offsets to report, none if it has to wait for cells. -/
def Pool.alloc (x : Pool) (op count ptr : Nat) (engine : Bool) : Option (Pool × List Nat) :=
  if op = 1 then (x.takeChain count engine).map fun r => (r.1, r.2.map x.cellAddr)
  else if op = 2 then (x.takeExtent count engine).map fun r => (r.1, [x.cellAddr r.2])
  else if op = 3 then
    match x.cellOf ptr, x.takeCells 1 with
    | some t, some (y, [c]) =>
      let e := (x.tab.find t).getD ⟨false, false, false, 0, none⟩
      some (y.enter [(c, ⟨false, e.engine, false, 0, none⟩), (t, { e with next := some c })], [x.cellAddr c])
    | _, _ => none
  else
    x.classes.findSome? fun c =>
      if count ≤ c.1 then
        ((List.range (min c.2.1 (x.bufs.length + 1))).find? fun i => !x.bufs.contains (c.2.2 + i * c.1)).map fun i =>
          ({ x with bufs := x.bufs ++ [c.2.2 + i * c.1] }, [x.base + c.2.2 + i * c.1])
      else none

/-- Whether a pool at its level serves requests that take cells: not at CRITICAL, unless they are control-class (Table 5.5). -/
def Pool.serves (x : Pool) (control : Bool) : Bool := control || x.level != .critical

/-- ACQUIRE, RELEASE or FREE_SIZED of a checked pointer: the state and the completion status (R164). -/
def State.poolNoCells (s : State) (p op ptr : Nat) : State × Status :=
  let x := s.pool p
  if x.sized then (s.putPool p { x with bufs := x.bufs.erase (ptr - x.base) }, .ok)
  else
    let c := (x.cellOf ptr).getD 0
    match x.tab.find c with
    | none =>
      let s := s.bump F.BPM_REFCOUNT_ERR_CNT_underflows (s.poolOct x) 0 1
      (s.event { code := .refcountUnderflow, job := x.job, sheet := some x.sheet, status := some .refcountUnderflow, unit := p }, .refcountUnderflow)
    | some e =>
      if op = 4 then
        if e.refs = 65535 then (s, .refcountOverflow)
        else (s.setPool p { x with tab := x.tab.put c { e with refs := e.refs + 1 } }, .ok)
      else (s.unref p c, .ok)

/-- The waiting requests of a class. -/
def Pool.waiting (x : Pool) (ctl : Bool) : List PoolReq := if ctl then x.waitCtl else x.waitReq
def Pool.setWaiting (x : Pool) (ctl : Bool) (l : List PoolReq) : Pool := if ctl then { x with waitCtl := l } else { x with waitReq := l }

/-- A request that has to wait joins its queue; at the head its time begins. -/
def State.poolWait (s : State) (p : Nat) (r : PoolReq) : State :=
  let x := s.pool p
  let l := x.waiting r.control
  s.setPool p (x.setWaiting r.control (l ++ [{ r with head := if l.isEmpty then some s.datum else none }]))

/-- The queue of a class without its head; the next request reaches the head now. -/
def State.poolShift (s : State) (p : Nat) (ctl : Bool) : State :=
  let x := s.pool p
  match (x.waiting ctl).drop 1 with
  | [] => s.setPool p (x.setWaiting ctl [])
  | r :: l => s.setPool p (x.setWaiting ctl ({ r with head := some s.datum } :: l))

/-- A request without the engine's queue in front of it is tried: the state and the offsets, or none if it has to wait. -/
def State.poolTry (s : State) (p : Nat) (r : PoolReq) : Option (State × List Nat) :=
  let x := s.pool p
  if !x.serves r.control then none
  else
    let engine := match r.src with
      | .agent _ => false
      | _ => true
    (x.alloc r.op r.count r.ptr engine).map fun a => (s.putPool p a.1, a.2)

/-- The timeout of a remote operation, in ticks; values below 100 µs act as 100 (Table 2.13). -/
def State.opTimeout (s : State) : Nat := usTicks (max 100 (s.get F.RMO_TIMEOUT_op_timeout))

end Sys2Proof.Machine
end

