-- ==== Sys2Proof/Machine/LevelOps.lean ====
section
/-! DEFINITION. Which units work, and the service level (R556, R557). -/

namespace Sys2Proof.Machine

/-- Dies in the order of R525. -/
def dieCd (c : Nat) : Nat := c
def dieMh (h : Nat) : Nat := 32 + h
def dieXd (k : Nat) : Nat := 48 + k
def dieFd (n : Nat) : Nat := 56 + n
def dieCh (c : Nat) : Nat := 62 + c

def State.dieDead (s : State) (d : Nat) : Bool := s.boot.dead.contains d
/-- The octant of a die that has one (Table 1.1). -/
def dieOctant (d : Nat) : Option Nat := if d < 32 then some (d / 4) else if d < 48 then some ((d - 32) / 2) else if d < 56 then some (d - 48) else none

/-- The stack of hub h is READY (Table 10.10). -/
def State.stackReady (s : State) (h : Nat) : Bool := s.get F.MHB_STATUS_state h == 2

/-- A whole octant works: 4 CDs, 2 stacks READY and 1 XD (Table 21.4). -/
def State.octWorks (s : State) (o : Nat) : Bool :=
  !s.boot.octDown.contains o && (List.range 4).all (fun c => !s.dieDead (dieCd (4 * o + c))) &&
  (List.range 2).all (fun h => !s.dieDead (dieMh (2 * o + h)) && s.stackReady (2 * o + h)) && !s.dieDead (dieXd o)

def State.fdWorks (s : State) (n : Nat) : Bool := !s.dieDead (dieFd n)
def State.chRole (s : State) (c : Nat) : Role := if c = 0 then s.cht.role0 else s.cht.role1
/-- A Chartroom die that acts or stands by. -/
def State.chWorks (s : State) (c : Nat) : Bool := s.chRole c == .active || s.chRole c == .standby

def State.port (s : State) (p : Nat) : Port := s.ports.getD p Port.off
def State.setPort (s : State) (p : Nat) (x : Port) : State := { s with ports := s.ports.put p x }
/-- The switch core counts a port as UP only in state UP (R413). -/
def Port.isUp (x : Port) : Bool := x.life.st == .on && x.sub == .up
def State.portUp (s : State) (p : Nat) : Bool := (s.port p).isUp
def State.upPorts (s : State) : List Nat := (List.range 36).filter s.portUp

/-- A port in gateway role (R439). -/
def State.gwRole (s : State) (p : Nat) : Bool := s.portUp p && s.get F.FPT_CTL_mode p == 1 && s.get F.GWY_CTL_enable p == 1

/-- Boot step 8 ends when the Datum is LOCKED, or free-runs on the domain master (Table 21.1). -/
def State.step8 (s : State) : State :=
  if s.boot.step = 7 ∧ !s.boot.complete ∧ (s.get F.DTM_STATUS_state = 2 ∨ (s.get F.DTM_CTL_master = 1 ∧ s.get F.DTM_CTL_source = 0)) then
    { s with boot := { s.boot with step := 8, since := s.datum } }
  else s

/-- A bit mask of the numbers below n that p holds of. -/
def maskOf (n : Nat) (p : Nat → Bool) : Nat := sumOf ((List.range n).filter p) fun i => 2 ^ i

/-- R556. -/
def State.levelNow (s : State) : Nat :=
  let all3 := s.chWorks 0 && s.chWorks 1 && s.boot.dead.isEmpty && (List.range 16).all s.stackReady
  if all3 then 3
  else if !((List.range 8).any s.octWorks) then 0
  else if (List.range 36).any fun p => s.portUp p && s.fdWorks (p / 6) then 2
  else 1

/-- A Chartroom die has failed: in its role, or in its boot (R478). -/
def State.chFailed (s : State) (c : Nat) : Bool := s.chRole c == .failed || (if c = 0 then s.boot.rom0 else s.boot.rom1) == .failed
/-- An octant has a failed die or stack (Table 21.6). -/
def State.octFailed (s : State) (o : Nat) : Bool :=
  (List.range 4).any (fun c => s.dieDead (dieCd (4 * o + c))) || s.dieDead (dieXd o) ||
  (List.range 2).any fun h => s.dieDead (dieMh (2 * o + h)) || s.get F.MHB_STATUS_state (2 * o + h) == 3

/-- The reason of Table 21.6: the lowest-numbered cause that applies. Where none does, while units are still coming up, the spec gives no code: a free
value (log 429). -/
def State.reasonNow (s : State) : Nat :=
  let slow := (List.range 16).any fun h => s.stackReady h && decide (s.get F.MHB_STATUS_rate h < 3)
  (firstFail [
    (!(s.levelNow == 3 && !slow), 0),
    (!slow, 1),
    (!(s.chFailed 0 || s.chFailed 1), 2),
    (!(List.range 8).any s.octFailed, 3),
    ((List.range 6).all s.fdWorks, 4),
    (!s.upPorts.isEmpty, 5),
    ((List.range 8).any s.octWorks, 6),
    (!(s.boot.step == 7 && !s.boot.complete), 7)]).getD (Config.freeReason s.free).toNat

def State.octMask (s : State) : Nat := maskOf 8 s.octWorks
def State.stackMask (s : State) : Nat := maskOf 16 s.stackReady

/-- A level reached or changed is reported (R557). -/
def State.relevel (s : State) : State :=
  let n := s.levelNow
  let r := s.reasonNow
  if n = s.boot.level ∨ !s.boot.mainOk then s
  else
    { s with boot := { s.boot with level := n, reason := r } }.event { code := .levelReached, params := [n, r, s.octMask, s.stackMask] }

/-- Octants that are unavailable until the next device reset. -/
def State.octFail (s : State) (l : List Nat) : State := { s with boot := { s.boot with octDown := dedup (s.boot.octDown ++ l) } }

end Sys2Proof.Machine
end

