-- ==== Sys2Proof/Machine/DatumOps.lean ====
section
/-! DEFINITION. The states of the Datum clock (Table 12.4), its upstream port and its correction (R352 to R354). -/

namespace Sys2Proof.Machine

def State.dtmState (s : State) : Nat := s.get F.DTM_STATUS_state
def State.setDtm (s : State) (n : Nat) : State := s.set F.DTM_STATUS_state 0 0 n
def State.isMaster (s : State) : Bool := s.get F.DTM_CTL_master == 1

/-- The upstream port that a follower uses now. -/
def State.upstream (s : State) : Nat := if s.clock.onAlt then s.get F.DTM_CTL_alt_port else s.get F.DTM_CTL_up_port

/-- A reference is lost (R354, Table 12.4): HOLDOVER, free-running at the last rate, with the event; a follower goes to its alternate port and reports it. -/
def State.loseReference (s : State) : State :=
  let follower := !s.isMaster
  let c : Clock := { s.clock with
    onAlt := s.clock.onAlt != follower, asked := none, good := 0, heldAt := if s.dtmState = 3 then s.clock.heldAt else s.datum, lastOk := s.datum }
  (({ s with clock := c }).setDtm 3).event { code := .datumHoldover, params := [if c.onAlt then 1 else 0], report := follower }

/-- A port that leaves UP and is the upstream of a follower (R354, R428). -/
def State.upstreamDown (s : State) (p : Nat) : State :=
  if !s.isMaster && s.upstream == p then s.loseReference else s

def State.anyAdmitted (s : State) : Bool := s.jobs.any fun e => e.2.life.st == .on || e.2.life.st == .stopping

/-- A correction of so many ticks (R352): slewed, or stepped forward where the state is UNLOCKED and no job is admitted; a larger one that
may not be stepped is slewed with a DATUM_FAULT naming the offset. -/
def State.correct (s : State) (ticks : Int) : State :=
  let far := decide (1000000 < ticks.natAbs)
  if far && s.dtmState == 0 && !s.anyAdmitted && decide (0 < ticks) then
    { s with datum := s.datum + ticks.toNat, clock := { s.clock with slew := 0 } }
  else
    let s := { s with clock := { s.clock with slew := ticks } }
    if far then s.event { code := .datumFault, params := [toBits 64 (-ticks)] } else s

/-- One tick of the local oscillator: the count gains 1, and every 5,000 ticks (200 ppm) one tick of correction is added or held back. In HOLDOVER the
rate stays as it is (Table 12.4). -/
def State.advance (s : State) : State :=
  let c := s.clock
  let rest := fun d : Int => if s.dtmState = 3 then c.slew else c.slew + d
  if c.slew = 0 then { s with datum := s.datum + 1 }
  else if c.phase + 1 < 5000 then { s with datum := s.datum + 1, clock := { c with phase := c.phase + 1 } }
  else if 0 < c.slew then { s with datum := s.datum + 2, clock := { c with phase := 0, slew := rest (-1) } }
  else { s with clock := { c with phase := 0, slew := rest 1 } }

end Sys2Proof.Machine
end

