-- ==== Sys2Proof/Machine/LinkOps.lean ====
section
/-! DEFINITION. The NATIVE link layer (R417 to R429): states and events of a port, control blocks, credits, the link replay buffer and
protocol violations. -/

namespace Sys2Proof.Machine

/-- The state code of Table 15.9. -/
def Port.code (x : Port) : Nat :=
  match x.life.st, x.sub with
  | .off, _ => 0
  | .starting, _ => 1
  | .stopping, _ => 6
  | .on, .training => 1
  | .on, .up => 2
  | .on, .retraining => 3
  | .on, .quarantined => 4
  | .on, .failed => 5

/-- A port's new state (R413): shown in FPT_STATUS, and on entering or leaving UP written as an event that is reported (R416). A follower
whose upstream port it was loses its reference (R354), and the service level is looked at (R556). -/
def State.portTo (s : State) (p : Nat) (x : Port) (reason : Nat) : State :=
  let was := s.portUp p
  let s := (s.setPort p { x with since := s.datum }).set F.FPT_STATUS_state p 0 x.code
  let s := if was && !x.isUp then
      (s.event { code := .portDown, unit := p, params := [p, x.code, reason], report := true }).upstreamDown p
    else if !was && x.isUp then s.event { code := .portUp, unit := p, params := [p, x.code, reason], report := true }
    else s
  s.relevel

/-- FAILED with its reason: the link replay buffer is discarded (R424) and the link keys are destroyed (Table 18.8). -/
def State.portFail (s : State) (p reason : Nat) : State :=
  let x := s.port p
  let s := s.set F.FPT_STATUS_fail_reason p 0 reason
  s.portTo p { x with life := { x.life with st := .on, enable := none }, sub := .failed, handshake := false, buffer := [], keyed := false, swap := [] } reason

def State.native (s : State) (p : Nat) : Bool := s.get F.FPT_CTL_mode p == 0

/-- A control block sent (R418, R426). -/
def State.block (s : State) (p kind linkSeq : Nat) (fields : List Nat) : State :=
  let x := s.port p
  (s.setPort p { x with txCount := x.txCount + 1 }).send (.block p kind (x.txCount % 2 ^ 23) linkSeq fields)

/-- The link carries blocks and frames: trained, and not past step 3 of STOPPING. -/
def Port.linked (x : Port) : Bool := (x.life.st == .on && (x.sub == .up || x.sub == .quarantined)) || (x.life.st == .stopping && x.sub == .up)

/-! Cells and credits (R398, R399, R419, R420). A class and lane is 4 · class + lane. -/

def wireBytes (f : Frame) : Nat := 52 + f.payload.length
def cellsOf (f : Frame) : Nat := ceilDiv (wireBytes f) 256
def isPriv (c : Nat) : Bool := c == 6 || c == 7

def Credits.at (c : Credits) (k : Nat) : Nat := Tbl.getD c k 0
def Credits.add (c : Credits) (k n : Nat) : Credits := Tbl.put c k ((c.at k + n) % 2 ^ 32)

/-- Credits issued and not consumed. -/
def Port.outstanding (x : Port) (k : Nat) : Nat := (x.issued.at k + 2 ^ 32 - x.consumed.at k) % 2 ^ 32
/-- Credits received and not spent. -/
def Port.available (x : Port) (k : Nat) : Nat := (x.received.at k + 2 ^ 32 - x.spent.at k) % 2 ^ 32

/-- The lane in which an input holds a frame (R396, R397). -/
def heldLane (f : Frame) : Nat := f.hops.toNat - 1

/-- Cells that an input holds of a class and lane. -/
def State.heldCells (s : State) (p k : Nat) : Nat :=
  sumOf (s.sw.queue.filter fun q => q.inPort == p && 4 * q.frame.tc.toNat + heldLane q.frame == k) fun q => cellsOf q.frame

/-- Cells that an input holds or owes credit for. -/
def State.committed (s : State) (p k : Nat) : Nat := s.heldCells p k + (s.port p).outstanding k

def laneKeys (c : Nat) : List Nat := [4 * c, 4 * c + 1, 4 * c + 2, 4 * c + 3]
def bulkClasses : List Nat := [0, 1, 2, 3, 4, 5]

/-- Shared cells of an input's 4 MiB in use (R398): a gateway input keeps the reserved cells of lane 0 alone (R397). -/
def State.sharedUsed (s : State) (p : Nat) : Nat :=
  let gw := s.gwRole p
  sumOf (bulkClasses.flatMap laneKeys) fun k => s.committed p k - (if gw && k % 4 != 0 then 0 else 32)
def State.sharedCells (s : State) (p : Nat) : Nat := 15616 + (if s.gwRole p then 32 * 18 else 0)

/-- Privileged cells of an input in use, and shared ones over all inputs (R399). An internal input has 16 reserved cells per class. -/
def State.privUsed (s : State) (p : Nat) : Nat := sumOf (laneKeys 6 ++ laneKeys 7) (s.committed p)
def State.privReserved (s : State) (p k : Nat) : Nat :=
  if 36 ≤ p ∨ s.gwRole p then (if k % 4 = 0 then 16 else 0) else 16
def State.privShared (s : State) : Nat :=
  sumOf (List.range 40) fun p => sumOf (laneKeys 6 ++ laneKeys 7) fun k => s.committed p k - s.privReserved p k
def State.privSharedCells (s : State) : Nat := 28032 + 96 * ((List.range 36).filter fun p => s.gwRole p).length

/-- The cells for which an input may still issue credit, or accept a frame, of a class and lane. -/
def State.room (s : State) (p k : Nat) : Nat :=
  let c := k / 4
  let n := s.committed p k
  if isPriv c then min (s.privReserved p k - n + (s.privSharedCells - s.privShared)) (2048 - s.privUsed p)
  else
    let own := if s.gwRole p && k % 4 != 0 then 0 else 32
    min (own - n + (s.sharedCells p - s.sharedUsed p)) (8192 - sumOf (laneKeys c) (s.committed p))

/-- Credit issued for a class and lane (R419): at least `least` cells where the rules allow them, and beyond that a number of cells that the
spec leaves to the receiver (a free value, within what the rules allow). -/
def State.issueCredit (s : State) (p k least : Nat) : State :=
  let r := s.room p k
  let a := min least r
  let n := min 65535 (a + (Config.freeWordAt s.free k).toNat % (r - a + 1))
  let s := s.draw
  if n = 0 then s
  else
    let x := s.port p
    (s.setPort p { x with issued := x.issued.add k n }).block p 1 0 [k / 4, k % 4, n]

/-- Cells of a class and lane used by a frame that has arrived (R420). -/
def State.consume (s : State) (p k n : Nat) : State := let x := s.port p; s.setPort p { x with consumed := x.consumed.add k n }

/-- Cells leave an input's buffer: their credits are returned (R419). A quarantined port issues none (R428). -/
def State.leaveInput (s : State) (p : Nat) (f : Frame) : State :=
  if 36 ≤ p ∨ !s.native p ∨ (s.port p).sub == .quarantined ∨ !(s.port p).linked then s
  else s.issueCredit p (4 * f.tc.toNat + heldLane f) (cellsOf f)

/-- The credit handshake that ends TRAINING or QUARANTINED (R419): every count starts at zero, transmission counts too (R426), and the
receiver issues at least its reserved cells. -/
def State.handshakeDone (s : State) (p : Nat) : State :=
  let x := s.port p
  let s := s.setPort p { x with received := [], spent := [], issued := [], consumed := [], txSeq := 0, rxSeq := 0, asked := false, since64 := 0,
                                ackAt := s.datum, again := (0, 0), asks := (0, 0), txCount := 0, rxCount := 0, buffer := [], audit := none, swap := [] }
  (List.range 32).foldl (fun s k => s.issueCredit p k (if isPriv (k / 4) then 16 else 32)) s

/-! The link replay buffer (R422 to R424). -/

def linkBuffer : Nat := 2097152
/-- Bytes of a frame in the buffer: envelope, frame and link MAC tag (R417). -/
def linkBytes (f : Frame) : Nat := 24 + wireBytes f
def Port.buffered (x : Port) : Nat := sumOf x.buffer fun b => linkBytes b.frame
def Port.fits (x : Port) (f : Frame) : Bool := decide (x.buffered + linkBytes f ≤ linkBuffer) && decide (x.buffer.length < 2 ^ 19)

/-- Whether 20-bit number a stands before b within half the space (R423). -/
def seqBefore (a b : Nat) : Bool := a != b && decide ((b + 2 ^ 20 - a) % 2 ^ 20 < 2 ^ 19)

/-- ACK naming the highest contiguous number received (R418). -/
def State.linkAck (s : State) (p : Nat) : State :=
  let x := s.port p
  (s.setPort p { x with since64 := 0, ackAt := s.datum }).block p 2 ((x.rxSeq + 2 ^ 20 - 1) % 2 ^ 20) []

/-- Buffered frames from a number on are sent again in order (R422). -/
def State.resendFrom (s : State) (p n : Nat) : State :=
  let l := (s.port p).buffer.filter fun b => b.seq == n || seqBefore n b.seq
  l.foldl (fun s b =>
    let x := s.port p
    (s.setPort p { x with txCount := x.txCount + 1 }).send (.frame p b.lane b.seq (x.txCount % 2 ^ 23) b.frame)) s

/-- UP to RETRAINING (R424, R579). -/
def State.retrain (s : State) (p : Nat) : State :=
  let x := s.port p
  if x.isUp then s.portTo p { x with sub := .retraining } 4 else s

/-- One number requested again: how often in a row. -/
def countAgain (c : Nat × Nat) (n : Nat) : Nat × Nat := if c.1 = n ∧ 0 < c.2 then (n, c.2 + 1) else (n, 1)

/-- RETRY_REQ sent for the expected number (R421); a number asked for retry_limit times in a row sends the port to RETRAINING (R424); a quarantined
port sends none (R428). -/
def State.askRetry (s : State) (p : Nat) : State :=
  let x := s.port p
  if x.sub == .quarantined then s else
  let a := countAgain x.asks x.rxSeq
  let s := (s.setPort p { x with asked := true, asks := a }).block p 3 x.rxSeq []
  if max 1 (s.get F.FPT_CTL_retry_limit p) < a.2 then s.retrain p else s

/-! Violations (Table 15.7, R427, R428). -/

inductive Viol where
  | malformed | creditOverflow | badSequence | badMac | badControl
  deriving DecidableEq, Repr

def Viol.code : Viol → Nat
  | .malformed => 0
  | .creditOverflow => 1
  | .badSequence => 2
  | .badMac => 3
  | .badControl => 4
def Viol.status : Viol → Status
  | .malformed => .malformed
  | .creditOverflow => .creditOverflow
  | .badSequence => .badSequence
  | .badMac => .badMac
  | .badControl => .badControl
def Viol.field : Viol → Field
  | .malformed => F.FPT_VIOL_CNT0_malformed
  | .creditOverflow => F.FPT_VIOL_CNT0_credit_overflow
  | .badSequence => F.FPT_VIOL_CNT0_bad_sequence
  | .badMac => F.FPT_VIOL_CNT0_bad_mac
  | .badControl => F.FPT_VIOL_CNT1_bad_control

/-- Violations of the last 1,000 whole ms. -/
def recentViols (now : Nat) (l : List Nat) : List Nat := l.filter fun t => decide (now / 1000000 < t / 1000000 + 1000)

/-- A unit that violates the protocol: counted, captured, refused with VIOL_NACK; the window's threshold quarantines the port. -/
def State.violation (s : State) (p : Nat) (v : Viol) (tc lane kind linkSeq : Nat) : State :=
  let armed := !(s.reg ⟨.FPT_VIOL_INFO, p, 0⟩).getLsbD 63
  let s := s.bump v.field p 0 1
  let s := s.capture ⟨.FPT_VIOL_INFO, p, 0⟩ (v.code * 2 ^ 33 + tc % 8 * 2 ^ 30 + lane % 4 * 2 ^ 28 + kind % 256 * 2 ^ 20 + linkSeq % 2 ^ 20) []
  let s := s.block p 4 linkSeq [v.status.code]
  let s := if armed then s.event { code := .linkViolation, unit := p, status := some v.status } else s
  let x := s.port p
  let l := recentViols s.datum x.viols ++ [s.datum]
  let s := (s.setPort p { x with viols := l }).set F.FPT_VIOL_CNT1_window p 0 (min 65535 l.length)
  if x.isUp && decide (max 1 (s.get F.FPT_CTL_viol_thresh p) ≤ l.length) then
    let x := s.port p
    (s.portTo p { x with sub := .quarantined, buffer := [], swap := [] } 0).event { code := .portQuarantined, unit := p, report := true }
  else s

/-- The receive side takes one number as received (R418): an ACK leaves after every 64. -/
def State.linkTook (s : State) (p : Nat) : State :=
  let x := s.port p
  let s := s.setPort p { x with rxSeq := (x.rxSeq + 1) % 2 ^ 20, asked := false, asks := (0, 0), since64 := x.since64 + 1 }
  if 64 ≤ x.since64 + 1 then s.linkAck p else s

/-- The transmission count of an arriving unit (R426): the least above the last accepted one with these low 23 bits. -/
def nextCount (last low : Nat) : Nat := last + 1 + (low + 2 ^ 23 - (last + 1) % 2 ^ 23) % 2 ^ 23

/-! Injection (R430, R431). -/

/-- One step of the 32-bit LFSR, and the 24 bits of it that are compared with p: the spec names no polynomial and no bits, so both are free functions
(DESIGN CHOICE, log 43). -/
def lfsrStep (x : Nat) : Nat := (Config.lfsrNext (BitVec.ofNat 32 x)).toNat
def lfsrPick (x : Nat) : Nat := (Config.lfsrBits (BitVec.ofNat 32 x)).toNat

/-- Whether injection acts on this frame, and the port after looking at it. -/
def State.injects (s : State) (p : Nat) (f : Frame) : State × Bool :=
  let x := s.port p
  if s.get F.FPT_INJ_CFG_kind p = 0 ∨ !bitOf (s.get F.FPT_INJ_CFG_tc_mask p) f.tc.toNat then (s, false)
  else
    let sel := s.get F.FPT_INJ_CFG_select p
    if s.get F.FPT_INJ_CFG_use_prob p = 1 then
      let y := lfsrStep x.lfsr
      (s.setPort p { x with lfsr := y }, decide (lfsrPick y < sel))
    else
      let n := x.injSeen + 1
      if n % max 1 sel = 0 then (s.setPort p { x with injSeen := 0 }, true) else (s.setPort p { x with injSeen := n }, false)

/-- A frame that takes its link_seq and leaves (R417, R422, R426). -/
def State.linkOut (s : State) (p : Nat) (f : Frame) (corrupt : Bool) : State :=
  let x := s.port p
  let lane := heldLane f
  let s := s.setPort p { x with txSeq := (x.txSeq + 1) % 2 ^ 20, buffer := x.buffer ++ [⟨x.txSeq, lane, f⟩], txCount := x.txCount + 1,
                                spent := x.spent.add (4 * f.tc.toNat + lane) (cellsOf f) }
  s.send (if corrupt then .corrupt p lane x.txSeq (x.txCount % 2 ^ 23) f else .frame p lane x.txSeq (x.txCount % 2 ^ 23) f)

/-- A frame that the switch core gives to a NATIVE port, hops already raised. A frame that REORDER holds back follows the next one of its class. -/
def State.linkSend (s : State) (p : Nat) (f : Frame) : State :=
  let r := s.injects p f
  let s := r.1
  let kind := s.get F.FPT_INJ_CFG_kind p
  let x := s.port p
  match x.swap.find? fun g => g.tc == f.tc with
  | some g => ((s.setPort p { x with swap := x.swap.erase g }).linkOut p f false).linkOut p g false
  | none =>
    let s := if r.2 then s.bump F.FPT_INJ_CNT_injections p 0 1 else s
    if r.2 && kind == 1 then s
    else if r.2 && kind == 3 then s.setPort p { x with swap := x.swap ++ [f] }
    else s.linkOut p f (r.2 && kind == 2)

/-- Injection of a port disarmed (R430): frames held back for a swap leave. -/
def State.disarm (s : State) (p : Nat) : State :=
  if s.reg ⟨.FPT_INJ_CFG, p, 0⟩ = 0 then s
  else
    let s := s.setReg ⟨.FPT_INJ_CFG, p, 0⟩ 0
    let l := if (s.port p).isUp then (s.port p).swap else []
    let s := s.setPort p { s.port p with swap := [] }
    (l.foldl (fun s g => s.linkOut p g false) s).event { code := .faultInject, unit := p, params := [p, 0, 0] }
def State.disarmAll (s : State) : State := (List.range 36).foldl State.disarm s

end Sys2Proof.Machine
end

