-- ==== Sys2Proof/Machine/GatewayOps.lean ====
section
/-! DEFINITION. The gateway function of a port on its way out (R440, R441, R444 to R449): windows, datagrams and connections. -/

namespace Sys2Proof.Machine

def State.gate (s : State) (p : Nat) : Gateway := s.gw.getD p Gateway.fresh
def State.setGate (s : State) (p : Nat) (g : Gateway) : State := { s with gw := s.gw.put p g }
def State.conn? (s : State) (p dev : Nat) : Option Conn := (s.gate p).conns.find dev
def State.setConn (s : State) (p dev : Nat) (c : Conn) : State := let g := s.gate p; s.setGate p { g with conns := g.conns.put dev c }

/-- Free cells of a gateway port's input that any datagram can use: within the shared cells, every class limit and the privileged memory
(R397 to R399, R447). -/
def State.gwFree (s : State) (p : Nat) : Nat :=
  let bulk := bulkClasses.foldl (fun n c => min n (8192 - sumOf (laneKeys c) (s.committed p))) (s.sharedCells p - s.sharedUsed p)
  min bulk (min (2048 - s.privUsed p) (s.privSharedCells - s.privShared))

/-- The cells that a connection may promise its peer: the free ones that no other connection of the port has promised, so that a datagram within its
window always finds room (R447). A window counts whole cells of 256 B (DESIGN CHOICE, log 45). -/
def State.gwPromise (s : State) (p dev : Nat) : Nat :=
  s.gwFree p - sumOf ((s.gate p).conns.filter fun e => e.1 != dev) fun e => e.2.promised
def dgramCells (l : List Frame) : Nat := sumOf l cellsOf

/-- Bytes of the IP packet of a datagram with these frames. -/
def ipBytes (v4 : Bool) (l : List Frame) : Nat := (if v4 then 20 else 40) + 8 + 32 + sumOf l wireBytes
def State.peerV4 (s : State) (dev : Nat) : Bool := bitOf (uAt (s.peers.getD dev []) 4 1) 3
def State.peerVersions (s : State) (dev : Nat) : Nat := uAt (s.peers.getD dev []) 5 1

/-- Numbers above the contiguous ones, as ranges (first, last), at most 8. -/
def ackRanges (l : List Nat) : List (Nat × Nat) :=
  ((sortBy id l).foldl (fun (acc : List (Nat × Nat)) n => match acc with
    | (a, b) :: t => if n = b + 1 then (a, n) :: t else (n, n) :: acc
    | [] => [(n, n)]) []).reverse.take 8

/-- A datagram sent (R446): the header by the connection, to the peer address of this port (R441). This end's identifier of a connection is the peer's
device ID (DESIGN CHOICE, log 45). -/
def State.dgram (s : State) (p dev type : Nat) (c : Conn) (psn : Nat) (retrans : Bool) (frames : List Frame) : State :=
  let tc := match frames with
    | f :: _ => f.tc.toNat
    | [] => 0
  let e := s.peers.getD dev []
  let room := s.gwPromise p dev
  let h : DgramHdr := {
    version := c.version
    retrans := retrans
    connId := if type = 3 ∨ type = 4 then dev else c.remoteId
    psn := psn % 2 ^ 32
    cumAck := c.rxCum % 2 ^ 32
    window := room
    txTime := s.datum % 2 ^ 32
    echoTime := c.rxTime
    ceCount := if c.version = 2 then c.rxCe % 2 ^ 32 else 0
    delay := if type = 2 then (s.datum - c.rxAt) % 2 ^ 32 else 0
    ranges := if type = 2 then ackRanges c.rxAbove else []
    versions := if type = 3 ∨ type = 4 then 6 else 0
    dscp := fld (s.reg ⟨.GWY_DSCP, p, 0⟩) (6 * tc + 5) (6 * tc)
    mac := s.get F.FPT_ETH_CFG_mac p
    vlan := if s.get F.FPT_ETH_CFG_tagged p = 1 then some (s.get F.FPT_ETH_CFG_vid p) else none
    v4 := s.peerV4 dev
    addr := uAt e (16 + 16 * (p % max 1 (uAt e 4 1 % 8))) 16
    sport := 0xC000 + (Config.connHash p dev).toNat
    dport := uAt e 6 2 }
  let s := match s.conn? p dev with
    | some c => s.setConn p dev { c with promised := room }
    | none => s
  s.send (.dgram p dev type h frames)

/-- HELLO (R447), at the highest version that the peer table lets both ends accept. -/
def State.hello (s : State) (p dev : Nat) (c : Conn) : State :=
  s.dgram p dev 3 { c with version := if bitOf (s.peerVersions dev) 2 then 2 else 1 } 0 false []

/-- A connection that opens by HELLO (R447). -/
def State.newConn (s : State) (p dev : Nat) : State :=
  let c := Conn.fresh s.datum (s.get F.GWY_XPORT_CFG_start p)
  (s.setConn p dev c).hello p dev c

/-- A frame joins the last datagram that is ready, where it fits the MTU, or begins one. -/
def packReady (v4 : Bool) (mtu : Nat) (f : Frame) : List (List Frame) → List (List Frame)
  | [] => [[f]]
  | [l] => if ipBytes v4 (l ++ [f]) ≤ mtu then [l ++ [f]] else [l, [f]]
  | l :: t => l :: packReady v4 mtu f t

/-- A frame carried to its peer (R440, R441); the first one opens the connection. -/
def State.carry (s : State) (p : Nat) (f : Frame) : State :=
  let dev := f.dstDev.toNat
  if !s.peers.has dev then s.bump F.GWY_DISC_CNT_no_peer p 0 1
  else
    let s := match s.conn? p dev with
      | some _ => s
      | none => s.newConn p dev
    match s.conn? p dev with
    | none => s
    | some c => s.setConn p dev { c with ready := packReady (s.peerV4 dev) (s.get F.GWY_CTL_mtu p) f c.ready }

/-- The replay-buffer entry of a frame of this device counts it as sent now (R445). -/
def State.sentNow (s : State) (f : Frame) : State :=
  { s with ep := { s.ep with replay := s.ep.replay.map fun e =>
      if e.frame.seq = f.seq ∧ e.frame.agent = f.agent ∧ e.frame.srcSheet = f.srcSheet ∧ e.frame.job = f.job ∧ e.frame.dstDev = f.dstDev ∧ e.frame.dstSheet = f.dstSheet
      then { e with last := s.datum } else e } }

/-- Whether a frame waits in a write-combining window. -/
def State.inWindow (s : State) (f : Frame) : Bool :=
  s.gw.any fun g => g.2.windows.any fun w => w.frames.any fun x =>
    x.seq == f.seq && x.agent == f.agent && x.srcSheet == f.srcSheet && x.job == f.job && x.dstDev == f.dstDev && x.dstSheet == f.dstSheet

/-- A window flushed, in arrival order, and counted by cause (R444). -/
def State.flush (s : State) (p : Nat) (w : WcWindow) (cause : Field) : State :=
  let g := s.gate p
  let s := (s.setGate p { g with windows := g.windows.erase w }).bump cause p 0 1
  w.frames.foldl (fun s f => (s.sentNow f).carry p f) s

/-- Windows that hold a frame of a stream that a fence covers (R444). -/
def State.fenceFlush (s : State) (keys : List StreamKey) : State :=
  let mine := fun f : Frame => s.ep.replay.any fun e => keys.contains e.key && e.frame.seq == f.seq && e.frame.agent == f.agent &&
    e.frame.srcSheet == f.srcSheet && e.frame.job == f.job && e.frame.dstDev == f.dstDev && e.frame.dstSheet == f.dstSheet
  let l := s.gw.flatMap fun g => (g.2.windows.filter fun w => w.frames.any mine).map fun w => (g.1, w)
  l.foldl (fun s e => s.flush e.1 e.2 F.GWY_WC_CNT_fence) s

/-- A STORE of TC1 to another domain joins its window (R444). -/
def State.wcJoin (s : State) (p : Nat) (f : Frame) : State :=
  let dev := f.dstDev.toNat
  let open_ := fun s : State =>
    let s := if 64 ≤ (s.gate p).windows.length then
        match (sortBy (fun w : WcWindow => w.first) (s.gate p).windows).head? with
        | some w => s.flush p w F.GWY_WC_CNT_full
        | none => s
      else s
    let g := s.gate p
    s.setGate p { g with windows := g.windows ++ [⟨dev, s.datum, [f]⟩] }
  match (s.gate p).windows.find? fun w => w.dst == dev with
  | none => open_ s
  | some w =>
    if 65536 < sumOf w.frames wireBytes + wireBytes f then open_ (s.flush p w F.GWY_WC_CNT_full)
    else
      let w' : WcWindow := { w with frames := w.frames ++ [f] }
      let g := s.gate p
      let s := s.setGate p { g with windows := g.windows.map fun x => if x = w then w' else x }
      if 512 ≤ w'.frames.length then s.flush p w' F.GWY_WC_CNT_full else s

/-- The ordered class (R40). -/
def orderedClass (f : Frame) : Bool := f.kind == 0 && [1, 2, 3, 4, 8].contains f.op.toNat

/-- The windows of a device, on every port, are flushed before another ordered-class frame of this device leaves for it (R444). -/
def State.orderedFlush (s : State) (dev : Nat) : State :=
  let l := s.gw.flatMap fun g => (g.2.windows.filter fun w => w.dst == dev).map fun w => (g.1, w)
  l.foldl (fun s e => s.flush e.1 e.2 F.GWY_WC_CNT_ordered) s

/-- A frame that the switch core has handed to the gateway function (R439 to R441, R444). -/
def State.egress (s : State) (p : Nat) (f : Frame) : State :=
  if !s.gwRole p then s.bump F.GWY_DISC_CNT_no_role p 0 1
  else
    let dev := f.dstDev.toNat
    let own := f.srcDev.toNat == s.sw.devId
    if !s.peers.has dev then s.bump F.GWY_DISC_CNT_no_peer p 0 1
    else if own && f.kind == 0 && f.op == 2 && f.tc == 1 && dev / 256 != s.sw.devId / 256 && s.get F.GWY_WC_CFG_timeout_us p != 0 then s.wcJoin p f
    else
      (if own && orderedClass f then s.orderedFlush dev else s).carry p f

/-- A connection ends: its datagrams are discarded and counted (R448). -/
def State.connLost (s : State) (p dev : Nat) : State :=
  match s.conn? p dev with
  | none => s
  | some c =>
    let g := s.gate p
    let n := sumOf c.flights (fun x => x.frames.length) + sumOf c.ready (fun l => l.length)
    (s.setGate p { g with conns := g.conns.del dev }).bump F.GWY_DISC_CNT_conn_lost p 0 n

/-- The timeout of a datagram after n expiries (R448), in ns. -/
def State.rto (s : State) (p : Nat) (c : Conn) (n : Nat) : Nat :=
  min 10000000 (max (usTicks (max 1 (s.get F.GWY_XPORT_CFG_rto_min_us p))) (c.srtt + 4 * c.rttvar) * 2 ^ n)

/-- A datagram sent again (R448). -/
def State.resendFlight (s : State) (p dev : Nat) (c : Conn) (x : Flight) : State :=
  let y : Flight := { x with sent := s.datum, passed := 0 }
  let c : Conn := { c with flights := c.flights.map (fun z => if z.psn = x.psn then y else z), retrans := true }
  ((s.setConn p dev c).bump F.GWY_DGRAM_CNT_retransmitted p 0 1).dgram p dev 1 c x.psn true x.frames

/-- The first ready datagram leaves (R449): numbered, and the next one spaced by its length at the rate. -/
def State.sendReady (s : State) (p dev : Nat) (c : Conn) : State :=
  match c.ready with
  | [] => s
  | l :: t =>
    let n := ipBytes (s.peerV4 dev) l
    let c' : Conn := { c with ready := t, nextPsn := c.nextPsn + 1, flights := c.flights ++ [⟨c.nextPsn, s.datum, l, 0, 0⟩],
                              nextSend := s.datum + ceilDiv (10 * n) (max 1 c.rate), window := c.window - dgramCells l }
    ((s.setConn p dev c').bump F.GWY_DGRAM_CNT_sent p 0 1).dgram p dev 1 c' c.nextPsn false l

/-- The role's STOPPING (Table 17.7): every window is flushed and sent, connections close with CLOSE, and the read buffer is dropped. -/
def State.gwStop (s : State) (p : Nat) : State :=
  let s := (s.gate p).windows.foldl (fun s w => s.flush p w F.GWY_WC_CNT_full) s
  let s := (s.gate p).conns.foldl (fun s e =>
    let s := (List.range e.2.ready.length).foldl (fun s _ => match s.conn? p e.1 with
      | some c => if c.open_ then s.sendReady p e.1 c else s
      | none => s) s
    match s.conn? p e.1 with
    | some c => s.dgram p e.1 5 c 0 false []
    | none => s) s
  s.setGate p { s.gate p with conns := [], windows := [], blocks := [], arrivals := [] }

end Sys2Proof.Machine
end

