-- ==== Sys2Proof/Machine/Tile.lean ====
section
/-! DEFINITION. The tile compressor (R191 to R193, Table 6.8). -/

namespace Sys2Proof.Machine

/-- Elements of w bytes, in order. -/
def elemsOf (w : Nat) (row : List Byte) : List (List Byte) := (List.range (row.length / w)).map fun i => (row.drop (w * i)).take w

/-- The bitmap of R191: bit i of byte j marks element 8j + i as non-zero. -/
def bitmapOf (nz : List Bool) : List Byte :=
  (List.range (ceilDiv nz.length 8)).map fun j =>
    BitVec.ofNat 8 ((List.range 8).foldl (fun n i => n + b2n (nz.getD (8 * j + i) false) * 2 ^ i) 0)

def legendBytes (nz e : Nat) (dense : Bool) (code : Nat) : List Byte := leBytes 8 (nz * 2 ^ 24 + (e - 1) * 2 ^ 8 + b2n dense * 16 + code)

/-- The tile of one dense row of elements of 2^code bytes, and whether it is in dense form (R191). -/
def compressTile (code : Nat) (row : List Byte) : List Byte × Bool :=
  let es := elemsOf (2 ^ code) row
  let nz := es.map fun e => e.any (· ≠ 0)
  let vals := ((es.zip nz).filter (·.2)).map (·.1)
  let n := vals.length
  let body := bitmapOf nz ++ vals.flatten
  let full := 8 + alignUp body.length 8
  if full < 8 + row.length then
    (legendBytes n es.length false code ++ body ++ List.replicate (full - 8 - body.length) 0, false)
  else (legendBytes n es.length true code ++ row, true)

/-- Elements put back in the places that the bitmap marks. -/
def expandBits (w : Nat) : List Bool → List Byte → List Byte
  | [], _ => []
  | true :: bs, vals => vals.take w ++ expandBits w bs (vals.drop w)
  | false :: bs, vals => List.replicate w 0 ++ expandBits w bs vals

/-- The dense row of the tile at the start of a byte string that may run on, and the tile's length; none where its legend
breaks R192 for a row of n bytes. -/
def expandTile (n : Nat) (t : List Byte) : Option (List Byte × Nat) :=
  let l := uAt t 0 8
  let code := bitsOf l 3 0
  let e := bitsOf l 23 8 + 1
  let w := 2 ^ code
  if bitsOf l 63 41 ≠ 0 ∨ bitsOf l 7 5 ≠ 0 ∨ 2 < code ∨ e * w ≠ n then none
  else if bitOf l 4 then some (bytesAt t 8 n, 8 + n)
  else
    let bm := ceilDiv e 8
    let bits := (List.range e).map fun i => bitOf (uAt t (8 + i / 8) 1) (i % 8)
    let nz := popCount (8 * bm) (uAt t 8 bm)
    if nz ≠ bitsOf l 40 24 then none
    else some (expandBits w bits (bytesAt t (8 + bm) (nz * w)), 8 + alignUp (bm + nz * w) 8)

end Sys2Proof.Machine
end

