-- ==== Sys2Proof/Machine/Endpoint.lean ====
section
/-! DEFINITION. The source side of the remote memory endpoint: frames and streams (R39, R43, R47, R48), issue of operations
(R20, R31 to R38, R55, R583), the Remote Line Cache (R59 to R66) and fences (R50 to R53). -/

namespace Sys2Proof.Machine

/-! Frames. -/

/-- A frame whose every field but the version is zero. -/
def frame0 : Frame where
  version := 1
  kind := 0
  tc := 0
  comp := false
  last := false
  ackv := false
  opflag := 0
  hops := 0
  dstDev := 0
  dstSheet := 0
  resv4 := false
  op := 0
  srcDev := 0
  srcSheet := 0
  agent := 0
  job := 0
  spec := 0
  seq := 0
  ackThrough := 0
  addr := 0
  ext := 0
  payload := []
  tagOk := true

/-- The local octant of an agent (Tables 2.7 and 14.4). -/
def agentOctant (agent : Nat) : Nat :=
  if agent < 256 then agent / 32 else if agent < 264 then agent - 256 else if agent < 280 then (agent - 264) / 2 else 0

/-- A frame sent: looped back inside the endpoint when it names its own sheet (R22), otherwise handed to the internal port of
its agent's octant; a device whose ID is unassigned sends none of TC0 to TC6 (R433). -/
def State.sendFrame (s : State) (f : Frame) : State :=
  if f.dstDev = f.srcDev ∧ f.dstSheet = f.srcSheet then s.send (.loop f)
  else if s.sw.devId / 256 = 4095 ∧ f.tc ≠ 7 then s
  else s.send (.inject (36 + s.physOct f.srcSheet.toNat (agentOctant f.agent.toNat) / 2) f)

/-- A request frame from an agent of a sheet to a device map entry. -/
def State.reqFrame (s : State) (sheet agent job : Nat) (w : Word) (op tc : Nat) : Frame :=
  { frame0 with
    tc := BitVec.ofNat 3 tc
    op := BitVec.ofNat 8 op
    dstDev := BitVec.ofNat 20 (fld w 19 0)
    dstSheet := BitVec.ofNat 3 (fld w 22 20)
    srcDev := BitVec.ofNat 20 s.sw.devId
    srcSheet := BitVec.ofNat 3 sheet
    agent := BitVec.ofNat 9 agent
    job := BitVec.ofNat 16 job }

/-- The bytes of a piece of a put. -/
def State.piece (s : State) : Piece → List Byte
  | .mem i a n => s.rd i a n
  | .lit b => b
def Piece.len : Piece → Nat
  | .mem _ _ n => n
  | .lit b => b.length
/-- n bytes of a piece from its byte o. -/
def Piece.cut (o n : Nat) : Piece → Piece
  | .mem i a _ => .mem i (a + o) n
  | .lit b => .lit (bytesAt b o n)
/-- n bytes of a row of pieces from byte o. -/
def slicePieces : List Piece → Nat → Nat → List Piece
  | [], _, _ => []
  | p :: ps, o, n =>
    if n = 0 then []
    else if p.len ≤ o then slicePieces ps (o - p.len) n
    else
      let k := min n (p.len - o)
      p.cut o k :: slicePieces ps 0 (n - k)

/-- The frame as it leaves: a put's data read now (R38), compressed if that makes them smaller (R193). -/
def State.withData (s : State) (f : Frame) (put : Option (List Piece)) : Frame :=
  match put with
  | none => f
  | some l =>
    let d := l.flatMap s.piece
    let t := (compressTile 0 d).1
    if f.comp && decide (t.length < d.length) then { f with payload := t } else { f with payload := d, comp := false }

/-! Streams. -/

def State.stream (s : State) (k : StreamKey) : Stream := s.ep.streams.getD k Stream.fresh
def State.setStream (s : State) (k : StreamKey) (x : Stream) : State := { s with ep := { s.ep with streams := s.ep.streams.put k x } }
/-- Frames of the stream that are not acknowledged. -/
def Stream.unacked (x : Stream) : Nat := x.issued - x.acked - x.failed

/-- The ack_through of a stream's next frame: the highest number at and below which every number is resolved at the source
(DEDUCED, log 20), if any. -/
def State.through (s : State) (k : StreamKey) : Option Nat :=
  let low := ((s.ep.replay.filter fun e => e.key == k).map fun e => e.seq)
  match minOf low with
  | some m => if m = 0 then none else some (m - 1)
  | none => if (s.stream k).next = 0 then none else some ((s.stream k).next - 1)

/-- A frame with its number and its stream's report of received responses (R47). -/
def State.numbered (s : State) (k : StreamKey) (f : Frame) (seq : Nat) : Frame :=
  match s.through k with
  | some t => { f with seq := BitVec.ofNat 32 seq, ackv := true, ackThrough := BitVec.ofNat 32 t }
  | none => { f with seq := BitVec.ofNat 32 seq }

/-- One frame of an operation takes the next number of its stream, enters the replay buffer and is sent (R39, R48). -/
def State.sendPlan (s : State) (k : StreamKey) (id : Nat) (p : PlanFrame) : State :=
  let x := s.stream k
  let f := s.numbered k p.frame x.next
  let e : ReplayEntry := ⟨k, x.next, id, f, s.datum, s.datum, none, false, p.put, p.get⟩
  let s := s.setStream k { x with next := x.next + 1, issued := x.issued + 1 }
  let s := { s with ep := { s.ep with replay := s.ep.replay ++ [e] } }
  s.sendFrame (s.withData f p.put)

/-! The Remote Line Cache (R59 to R66). -/

def rlcSlice (home line : Nat) : Nat := (bitsOf line 10 8) ^^^ (home % 8)
def rlcSet (line : Nat) : Nat := bitsOf line 21 11

def State.setLines (s : State) (l : List RlcLine) : State := { s with ep := { s.ep with lines := l } }

/-- Lines dropped with the overlapping read-buffer blocks (R443), and fills requested before now marked as overtaken (R65).
p decides by sheet, job, home and line offset. -/
def State.dropLines (s : State) (p : Nat → Nat → Nat → Nat → Bool) : State :=
  let ops := s.ep.ops.map fun o => match o.fin.fill with
    | some (h, l) => if p o.key.sheet o.key.job h l then { o with overtaken := true } else o
    | none => o
  let lines := s.ep.lines.filter fun x => !p x.sheet x.job x.home x.line
  let gw := s.gw.mapVals fun _ g =>
    { g with blocks := g.blocks.filter fun b => !((List.range 16).any fun i => p b.sheet b.job b.home (b.block + 256 * i)) }
  { s with ep := { s.ep with ops := ops, lines := lines }, gw := gw }

/-- Whether two (job, logical device) pairs name one logical device. -/
def State.sameHome (s : State) (j d j' h : Nat) : Bool :=
  (j == j' && d == h) || (match s.mapEntry j d, s.mapEntry j' h with
    | some v, some w => fld v 22 0 == fld w 22 0
    | _, _ => false)

/-- R63: the device's copies, under whatever job's tag, of the lines that a write to n bytes at (home, a) of a job covers. -/
def State.dropWritten (s : State) (job home a n : Nat) : State :=
  s.dropLines fun _ j h l => decide (l < a + max n 1) && decide (a < l + 256) && s.sameHome job home j h

/-- A line installed as the most recently used of its set of 16 (R59). -/
def State.installLine (s : State) (x : RlcLine) : State :=
  let same := fun y : RlcLine => rlcSlice y.home y.line == rlcSlice x.home x.line && rlcSet y.line == rlcSet x.line
  let old := s.ep.lines.filter fun y => !(y.sheet == x.sheet && y.job == x.job && y.home == x.home && y.line == x.line)
  let way := (old.filter same).take 15
  s.setLines ((x :: way) ++ old.filter fun y => !same y)

/-- A line of the Remote Line Cache (R60, R62). -/
def State.rlcLine (s : State) (sheet job home line : Nat) : Option RlcLine :=
  s.ep.lines.find? fun x => x.sheet == sheet && x.job == job && x.home == home && x.line == line

/-- Whether a block is still held at the Datum (R443). -/
def State.blockLive (s : State) (p : Nat) (b : RbBlock) : Bool :=
  let hold := s.get F.GWY_WC_CFG_rb_hold_us p
  hold != 0 && !s.elapsed b.at_ (usTicks hold)

/-- The gateway port and the block of its read buffer that hold a line (R442, R443). -/
def State.rbHit (s : State) (sheet job home line : Nat) : Option (Nat × RbBlock) :=
  s.gw.findSome? fun g => (g.2.blocks.find? fun b => b.sheet == sheet && b.job == job && b.home == home &&
    b.block == line / 4096 * 4096 && s.blockLive g.1 b).map fun b => (g.1, b)

/-- A block becomes the most recently used of its buffer (R443). -/
def State.rbTouch (s : State) (p : Nat) (b : RbBlock) : State :=
  (s.bump F.GWY_RB_CNT_hits p 0 1 |> fun s =>
    { s with gw := s.gw.adj p fun g => { g with blocks := b :: g.blocks.erase b } })

/-! Completion. -/

/-- The value that a scalar LOAD or an ATOMIC writes to its register. -/
def loadValue (fin : OpEnd) (data : List Byte) : Word :=
  let v := leNat (bytesAt data fin.skip fin.size)
  if fin.signExt then sext64 (8 * fin.size) v else BitVec.ofNat 64 v

/-- The effect of an operation's completion on its core (R224, R225) and its completion word (R34). -/
def State.opEffect (s : State) (sheet : Nat) (fin : OpEnd) (st : Status) (data : List Byte) : State :=
  let s := match fin.core with
    | some (c, d) =>
      let x := s.core c
      if x.loading.contains d then s.setCore c (if st = Status.ok then x.ws d (loadValue fin data) else x.wpoison d) else s
    | none => s
  let s := match fin.scratch with
    | some (c, o) => if st = Status.ok then (s.scrPoke c o (bytesAt data fin.skip fin.size)).wake else s
    | none => s
  s.complete sheet fin.doneAddr fin.tag st

/-- An operation noted as complete for its owner. -/
def State.ownerNote (s : State) (fin : OpEnd) (st : Status) : State :=
  match fin.owner with
  | some (k, id) => { s with ep := { s.ep with done := s.ep.done ++ [(k, id, st)] } }
  | none => s

/-! Issue. -/

/-- An operation that fails at issue: nothing is sent, and the fence that covers it reports it (R53). -/
def State.failAtIssue (s : State) (k : StreamKey) (addr : Word) (fin : OpEnd) (st : Status) : State :=
  let s := s.setStream k (s.stream k)
  let s := { s with ep := { s.ep with failures := s.ep.failures ++ [Failure.mk k (s.stream k).next true st addr] } }
  (s.opEffect k.sheet fin st []).ownerNote fin st

/-- Whether an operation to a T28 is refused (R451): f is its first frame. A collective program, an engine and the Chartroom run in no
context. -/
def State.t28Refused (s : State) (k : StreamKey) (f : Frame) : Bool :=
  (decide (k.agent < s.collFirst k.sheet) && !(s.core (s.homeCore k.sheet k.agent)).kern.reproj) ||
    (f.kind == 0 && (f.op == 4 || f.op == 6 || (f.op == 3 && fld f.spec 11 8 == 10)))

def State.setOp (s : State) (o : RemoteOp) : State :=
  { s with ep := { s.ep with ops := s.ep.ops.map fun x => if x.id = o.id then o else x } }
def State.opOf (s : State) (id : Nat) : Option RemoteOp := s.ep.ops.find? fun o => o.id == id
def State.dropOp (s : State) (id : Nat) : State := { s with ep := { s.ep with ops := s.ep.ops.filter fun o => o.id != id } }

/-- The first n waiting frames of an operation sent. -/
def State.sendSome (s : State) (o : RemoteOp) (n : Nat) : State :=
  let s := (o.todo.take n).foldl (fun s p => s.sendPlan o.key o.id p) s
  s.setOp { o with left := o.left + n, todo := o.todo.drop n }

/-- A planned frame to the endpoint of a device map entry. -/
def PlanFrame.toward (w : Word) (p : PlanFrame) : PlanFrame :=
  { p with frame := { p.frame with dstDev := BitVec.ofNat 20 (fld w 19 0), dstSheet := BitVec.ofNat 3 (fld w 22 20) } }

/-- What the first send of an operation comes to (R20): its frames to the endpoint that the device map names now, or the status with which it
fails. A device without the job key sends nothing (R486). -/
def State.firstSend (s : State) (o : RemoteOp) : Except Status (List PlanFrame) :=
  match s.mapEntry o.key.job o.key.dst with
  | none => .error .unmappedDevice
  | some w =>
    if (s.job o.key.job).key.isNone then .error .keyAbsent
    else if w.getLsbD 25 && (o.todo.head?.map fun p => s.t28Refused o.key p.frame).getD false then .error .generationMismatch
    else .ok (o.todo.map (PlanFrame.toward w))

/-- The error that the bytes of an operation's frames meet where they lie, if any: one is looked for as the first of them is sent (DEDUCED, log 416). -/
def State.pieceErr (s : State) (l : List PlanFrame) : State × Option Status :=
  if s.clean then (s, none)
  else s.readUnits 2 (l.flatMap fun p => (p.put.getD []).flatMap fun q => match q with
    | .mem i a n => s.unitsOf i a n
    | .lit _ => [])

/-- As many of an operation's waiting frames sent as the limit of R43 allows; the first send resolves its endpoint (R20, R21). -/
def State.pump (s : State) (id : Nat) : State :=
  match s.opOf id with
  | none => s
  | some o =>
    let n := min (65536 - (s.stream o.key).unacked) o.todo.length
    if n = 0 then s
    else if o.sent then s.sendSome o n
    else match s.firstSend o with
      | .ok l => match s.pieceErr l with
        | (s, none) => s.sendSome { o with todo := l, sent := true } n
        | (s, some st) => (s.dropOp id).failAtIssue o.key o.addr o.fin st
      | .error st => (s.dropOp id).failAtIssue o.key o.addr o.fin st

/-- R55: whether the operations of a job to a destination fail at issue; a tree's operations (owner 6) do not (R342). -/
def State.pairLost (s : State) (k : StreamKey) (fin : OpEnd) : Bool := s.ep.lost.contains (k.job, k.dst) && fin.owner.map (·.1) != some 6

/-- An operation issued to one destination (R20, R55): its frames are planned from the device map, and sent as far as the stream has room. -/
def State.issue (s : State) (k : StreamKey) (addr : Word) (fin : OpEnd) (plan : Word → List PlanFrame) : State :=
  if s.pairLost k fin then s.failAtIssue k addr fin .targetLost
  else
    let id := s.ep.nextId
    let o : RemoteOp := ⟨id, k, addr, 0, plan ((s.mapEntry k.job k.dst).getD 0), false, none, false, fin⟩
    ({ s with ep := { s.ep with nextId := id + 1, ops := s.ep.ops ++ [o] } } : State).pump id

/-- Pieces of n bytes at remote address a, cut at 4 KiB boundaries (R31): offset and length of each. -/
def cutFrames (a : Nat) : Nat → Nat → Nat → List (Nat × Nat)
  | 0, _, _ => []
  | fuel + 1, pos, n =>
    if n = 0 then []
    else
      let k := min n (4096 - (a + pos) % 4096)
      (pos, k) :: cutFrames a fuel (pos + k) (n - k)

def cuts (a n : Nat) : List (Nat × Nat) := cutFrames a (n / 4096 + 2) 0 n

/-- Marks the last frame of an operation. -/
def markLast : List PlanFrame → List PlanFrame
  | [] => []
  | [p] => [{ p with frame := { p.frame with last := true } }]
  | p :: ps => p :: markLast ps

/-- The frames of a put from local address src of sheet i to offset a. -/
def putPlan (f : Frame) (i src a n : Nat) : List PlanFrame :=
  markLast ((cuts a n).map fun c => ⟨{ f with addr := BitVec.ofNat 44 (a + c.1) }, some [.mem i (src + c.1) c.2], none⟩)

/-- The frames of a put to offset a whose bytes lie in several places. -/
def gatherPlan (f : Frame) (a : Nat) (l : List Piece) : List PlanFrame :=
  markLast ((cuts a (sumOf l Piece.len)).map fun c =>
    ⟨{ f with addr := BitVec.ofNat 44 (a + c.1) }, some (slicePieces l c.1 c.2), none⟩)

/-- The frames of a get from offset a to local address dst of sheet i. -/
def getPlan (f : Frame) (i dst a n : Nat) : List PlanFrame :=
  markLast ((cuts a n).map fun c =>
    ⟨{ f with addr := BitVec.ofNat 44 (a + c.1), opflag := 1, spec := BitVec.ofNat 16 c.2 }, none, some (i, dst + c.1)⟩)

/-- The NOTIFY frame of R36: sem_addr, sem_inc, then the payload. -/
def notifyFrame (f : Frame) (a sem inc : Nat) (data : List Byte) : PlanFrame :=
  ⟨{ f with addr := BitVec.ofNat 44 a, last := true, payload := leBytes 8 sem ++ leBytes 8 inc ++ data }, none, none⟩

/-- A put of n bytes by an agent, with its notify_on_done (R37). -/
def State.issuePut (s : State) (sheet agent job src : Nat) (dst : Word) (n tc : Nat) (comp : Bool) (fin : OpEnd) : State :=
  let k : StreamKey := ⟨sheet, agent, job, fld dst 63 44⟩
  let a := fld dst 43 0
  let s := s.dropWritten job k.dst a n
  s.issue k dst fin fun w => putPlan { s.reqFrame sheet agent job w 5 tc with comp := comp } sheet src a n

/-- A put by an engine whose bytes lie in several places (R135, R137, R151). The engines compress every put in TC0 (R193). -/
def State.issueGather (s : State) (sheet agent job dst a tc : Nat) (l : List Piece) (fin : OpEnd) : State :=
  let k : StreamKey := ⟨sheet, agent, job, dst⟩
  let s := s.dropWritten job dst a (sumOf l Piece.len)
  s.issue k (BitVec.ofNat 64 (dst * 2 ^ 44 + a)) fin fun w =>
    gatherPlan { s.reqFrame sheet agent job w 5 tc with comp := tc == 0 && decide (256 ≤ agent ∧ agent < 264) } a l

/-- A NOTIFY by an agent. -/
def State.issueNotify (s : State) (sheet agent job : Nat) (dst : Word) (sem : Word) (inc : Nat) (data : List Byte) (fin : OpEnd) : State :=
  let k : StreamKey := ⟨sheet, agent, job, fld dst 63 44⟩
  let s := if data.isEmpty then s else s.dropWritten job k.dst (fld dst 43 0) data.length
  let s := s.dropWritten job k.dst (fld sem 43 0) 8
  s.issue k dst fin fun w => [notifyFrame (s.reqFrame sheet agent job w 8 1) (fld dst 43 0) sem.toNat inc data]

/-- An engine record (Tables 3.7 and 4.7) sent by an engine agent: TC6, kind 4. -/
def State.issueRecord (s : State) (sheet agent job dst : Nat) (rec : List Byte) (fin : OpEnd) : State :=
  s.issue ⟨sheet, agent, job, dst⟩ 0 fin fun w =>
    [⟨{ s.reqFrame sheet agent job w 0 6 with kind := 4, last := true, payload := rec }, none, none⟩]

/-- An INVALIDATE frame to one reader (R64). -/
def State.issueInval (s : State) (sheet agent job reader : Nat) (line n : Nat) (fin : OpEnd) : State :=
  s.issue ⟨sheet, agent, job, reader⟩ (BitVec.ofNat 64 line) fin fun w =>
    [⟨{ s.reqFrame sheet agent job w 6 6 with addr := BitVec.ofNat 44 line, last := true, payload := leBytes 8 n }, none, none⟩]

/-! Instructions (R223 to R225). -/

/-- The size in bytes that a size code stands for. -/
def sizeOf (s : Nat) : Nat := 2 ^ s

/-- The part of a LOAD's completion that its instruction names. -/
def loadEnd (c : Nat) (r : CoreRemote) : OpEnd :=
  { OpEnd.none with
    core := r.dreg.map fun d => (c, d)
    scratch := if r.dreg.isNone && r.op == 1 then some (c, r.scratch) else none
    size := r.size
    signExt := r.signExt }

/-- The domain of a physical device ID (R432). -/
def domainOf (dev : Nat) : Nat := dev / 256

/-- A LOAD that misses: the plain request, or for a cacheable one the whole line (R61), or the whole 4 KiB block where the
home lies in another domain (R442). -/
def State.loadMiss (s : State) (k : StreamKey) (r : CoreRemote) (fin : OpEnd) (cached : Bool) : State :=
  let a := fld r.addr 43 0
  s.issue k r.addr (if cached then { fin with fill := some (k.dst, a / 256 * 256) } else fin) fun w =>
    let f := { s.reqFrame k.sheet k.agent k.job w 1 1 with last := true }
    if !cached then [⟨{ f with addr := BitVec.ofNat 44 a, spec := BitVec.ofNat 16 (Nat.log2 r.size) }, none, none⟩]
    else if domainOf (fld w 19 0) ≠ domainOf s.sw.devId then
      [⟨{ f with addr := BitVec.ofNat 44 (a / 4096 * 4096), spec := 12, opflag := 1 }, none, none⟩]
    else [⟨{ f with addr := BitVec.ofNat 44 (a / 256 * 256), spec := 8, opflag := 1 }, none, none⟩]

/-- The register that a LOAD or an ATOMIC writes waits for its response (R224), and for that of no earlier one. -/
def State.awaits (s : State) (c : Nat) (r : CoreRemote) : State :=
  match r.dreg with
  | some d =>
    if d = 0 then s
    else
      let ops := s.ep.ops.map fun o => if o.fin.core = some (c, d) then { o with fin := { o.fin with core := none } } else o
      let s := { s with ep := { s.ep with ops := ops } }
      s.setCore c { s.core c with loading := d :: (s.core c).loading.filter (· ≠ d) }
  | none => s

/-- A LOAD by a core: a hit returns the copy without a frame (R62); one to a T28 is sent at its own size (R450). -/
def State.issueLoad (s : State) (c : Nat) (k : StreamKey) (r : CoreRemote) : State :=
  let a := fld r.addr 43 0
  let own := k.dst == (s.core c).kern.logical
  let t28 := match s.mapEntry k.job k.dst with
    | some w => w.getLsbD 25
    | none => false
  let cached := r.cacheable && !own && !t28 && bitOf (s.get F.RLC_CTL_sheet_enable) k.sheet
  let s := s.awaits c r
  let fin := loadEnd c r
  if cached then
    let sl := rlcSlice k.dst (a / 256 * 256)
    let line := a / 256 * 256
    match s.rlcLine k.sheet k.job k.dst line with
    | some x =>
      let s := (s.bump F.RLC_STAT_HIT_hits sl 0 1).installLine x
      s.opEffect k.sheet { fin with skip := a % 256 } .ok x.data
    | none =>
      let s := s.bump F.RLC_STAT_MISS_misses sl 0 1
      match s.rbHit k.sheet k.job k.dst line with
      | some (p, b) => (s.rbTouch p b).opEffect k.sheet { fin with skip := a % 256 } .ok (bytesAt b.data (line % 4096) 256)
      | none =>
        let far := match s.mapEntry k.job k.dst with
          | some w => domainOf (fld w 19 0) != domainOf s.sw.devId
          | none => false
        s.loadMiss k r { fin with skip := if far then a % 4096 else a % 256 } true
  else s.loadMiss k r fin false

/-- A STORE by a core. -/
def State.issueStore (s : State) (k : StreamKey) (r : CoreRemote) : State :=
  let a := fld r.addr 43 0
  let s := s.dropWritten k.job k.dst a r.size
  s.issue k r.addr OpEnd.none fun w =>
    [⟨{ s.reqFrame k.sheet k.agent k.job w 2 1 with
        addr := BitVec.ofNat 44 a, spec := BitVec.ofNat 16 (Nat.log2 r.size), last := true, payload := r.data }, none, none⟩]

/-- An ATOMIC by a core. -/
def State.issueAtomic (s : State) (c : Nat) (k : StreamKey) (r : CoreRemote) : State :=
  let a := fld r.addr 43 0
  let s := s.dropWritten k.job k.dst a r.size
  let s := s.awaits c r
  s.issue k r.addr (loadEnd c r) fun w =>
    [⟨{ s.reqFrame k.sheet k.agent k.job w 3 1 with
        addr := BitVec.ofNat 44 a
        spec := BitVec.ofNat 16 (Nat.log2 r.size + 256 * r.atomic)
        opflag := if r.ret then 1 else 0
        last := true
        payload := r.data ++ leBytes 8 r.cmp.toNat }, none, none⟩]

/-- A core's remote operation issued: LOAD, STORE or ATOMIC of Table 2.4. A local offset beyond 44 bits, or a scratchpad place beyond the slot,
lies outside every window (R23): the operation, of the stream to the core's own logical device, fails. -/
def State.issueCore (s : State) (c : Nat) (r : CoreRemote) : State :=
  let x := (s.core c).kern
  let k : StreamKey := ⟨x.sheet, x.vindex, x.job, fld r.addr 63 44⟩
  if let some st := r.bad then (s.awaits c r).failAtIssue { k with dst := x.logical } r.addr (loadEnd c { r with op := 0 }) st
  else if r.op = 1 then s.issueLoad c k r
  else if r.op = 2 then s.issueStore k r
  else s.issueAtomic c k r

/-! The Region Directory (R67, R68). -/

/-- The entry of the 2 MiB region that holds HBM offset a of sheet i. -/
def State.regionAt (s : State) (i a : Nat) : Word := s.ep.regions.getD (i, a / 2 ^ 21) 0

/-- Table 2.10: whether a logical device of a job may read, or write, a region with this entry. -/
def regionAllows (e : Word) (write : Bool) (job logical : Nat) : Bool :=
  let member := job == fld e 37 22
  let owner := member && logical == fld e 21 2
  match fld e 1 0 with
  | 0 => true
  | 1 => member && !write
  | 2 => if write then owner else member
  | _ => owner

/-- The first HBM offset of a range of n bytes whose region refuses the access, if any. -/
def State.regionRefuses (s : State) (i a n : Nat) (write : Bool) (job logical : Nat) : Option Nat :=
  if s.get F.RGD_CTL_enforce = 0 ∨ n = 0 ∨ 2 ^ 40 ≤ a then none
  else
    let r0 := a / 2 ^ 21
    ((List.range ((a + n - 1) / 2 ^ 21 + 1 - r0)).find? fun j =>
      !regionAllows (s.ep.regions.getD (i, r0 + j) 0) write job logical).map fun j => max a ((r0 + j) * 2 ^ 21)

/-- A refusal counted and captured (R68). -/
def State.regionViol (s : State) (i a op logical : Nat) : State :=
  let s := s.bump F.RGD_VIOL_CNT_violations 0 0 1
  s.capture ⟨.RGD_VIOL_INFO, 0, 0⟩ (fld (s.regionAt i a) 1 0 * 2 ^ 28 + op * 2 ^ 20 + logical) [(⟨.RGD_VIOL_ADDR, 0, 0⟩, a)]

/-- One access of an engine, a mover or a quantizer: local address, length, whether it writes. -/
abbrev Access1 := Nat × Nat × Bool

/-- The status of a list of accesses by a logical device to itself: outside its windows (R23), refused by the Region Directory
(R22, R68), or met by an uncorrectable error (R174, R293, R294). -/
def State.access (s : State) (i job own : Nat) (l : List Access1) : State × Status :=
  if !(l.all fun a => s.inData i a.1 a.2.1) then (s, .addressRange)
  else
    match l.findSome? (fun a => (s.regionRefuses i a.1 a.2.1 a.2.2 job own).map fun o => (o, a.2.2)) with
    | some (o, w) => (s.regionViol i o (if w then 2 else 1) own, .regionDenied)
    | none =>
      let r := s.meets i 2 l
      (r.1, r.2.getD .ok)

/-! Fences (R50). -/

/-- The streams of an agent within a scope. -/
def inScope (sheet agent job : Nat) (scope : Option Nat) (k : StreamKey) : Bool :=
  k.sheet == sheet && k.agent == agent && k.job == job && (match scope with
    | none => true
    | some d => k.dst == d)

/-- The numbers that a fence records: per stream, how many numbers it has issued. -/
def State.recordFence (s : State) (sheet agent job : Nat) (scope : Option Nat) : List (StreamKey × Nat) :=
  (s.ep.streams.filter fun e => inScope sheet agent job scope e.1).map fun e => (e.1, e.2.next)

/-- Whether every recorded number, and every number below it, is resolved. -/
def State.fenceMet (s : State) (f : Fence) : Bool :=
  f.recorded.all fun r => !(s.ep.replay.any fun e => e.key == r.1 && decide (e.seq < r.2))

/-- A failure that a fence covers (R50, R53). -/
def covers (f : Fence) (x : Failure) : Bool :=
  f.recorded.any fun r => r.1 == x.key && (if x.atIssue then decide (x.seq ≤ r.2) else decide (x.seq < r.2))

/-- The place of a failure in sequence order. -/
def Failure.place (x : Failure) : Nat := if x.atIssue then 2 * x.seq else 2 * x.seq + 1

/-- The first covered failure in sequence order (R53); among streams the lower number comes first, and of equal numbers the one that failed first
(DEDUCED, log 401). -/
def State.fenceFailure (s : State) (f : Fence) : Option Failure :=
  (sortBy Failure.place (s.ep.failures.filter (covers f))).head?

/-- A fence that is met, taken out of the list with the failures it reports: the status, the capture of R53 and the acquire
of R52. -/
def State.endFence (s : State) (f : Fence) : State × Status :=
  let x := s.fenceFailure f
  let s := { s with ep := { s.ep with
    fences := s.ep.fences.filter (fun g => g.id != f.id), failures := s.ep.failures.filter fun y => !covers f y } }
  let s := if f.acquire then s.dropLines fun sh j h _ => sh == f.sheet && (match f.scope with
      | none => true
      | some d => s.sameHome f.job d j h)
    else s
  match x with
  | none => (s, .ok)
  | some y => (s.capture ⟨.RMO_FAULT_INFO, 0, f.sheet⟩ (f.agent * 2 ^ 16 + y.status.code) [(⟨.RMO_FAULT_ADDR, 0, f.sheet⟩, y.addr.toNat)], y.status)

/-- A fence registered. -/
def State.addFence (s : State) (sheet agent job : Nat) (scope : Option Nat) (acquire : Bool) (who : FenceFor) : State :=
  let f : Fence := ⟨s.ep.nextId, sheet, agent, job, scope, s.recordFence sheet agent job scope, acquire, who⟩
  ({ s with ep := { s.ep with nextId := s.ep.nextId + 1, fences := s.ep.fences ++ [f] } } : State).fenceFlush (f.recorded.map (·.1))

/-- What keeps an agent from issuing: a pending fence (R50), frames that wait for room (R43), or descriptors in front. -/
def State.fencePending (s : State) (sheet agent : Nat) : Bool := s.ep.fences.any fun f => f.sheet == sheet && f.agent == agent
def State.stalledOps (s : State) (sheet agent : Nat) : Bool :=
  s.ep.ops.any fun o => o.key.sheet == sheet && o.key.agent == agent && !o.todo.isEmpty
def State.waitingDescs (s : State) (sheet agent : Nat) : Bool := s.ep.waiting.any fun q => q.sheet == sheet && q.agent == agent
/-- A store of the agent that a full queue has not accepted (R27); a RACC frame that waits at its hub keeps nothing from issuing. -/
def State.storeHeld (s : State) (sheet agent : Nat) : Bool :=
  s.ep.stalled.any fun f => f.op != 4 && f.srcDev.toNat == s.sw.devId && f.srcSheet.toNat == sheet && f.agent.toNat == agent
def State.agentHeld (s : State) (sheet agent : Nat) : Bool :=
  s.fencePending sheet agent || s.stalledOps sheet agent || s.waitingDescs sheet agent || s.storeHeld sheet agent

/-- Descriptors of an agent that a remote operation queue has accepted and no unit has taken: issued before whatever the agent does next
(R232). -/
def State.descsQueued (s : State) (sheet agent : Nat) : Bool :=
  s.ep.queues.any fun e => e.1.2 == 4 && e.2.any fun q => q.sheet == sheet && q.agent == agent
/-- What keeps a core from issuing a remote operation, a FENCE or the fence of its END. -/
def State.coreHeld (s : State) (sheet agent : Nat) : Bool := s.agentHeld sheet agent || s.descsQueued sheet agent

/-- Whether any operation of an agent is outstanding. -/
def State.agentBusy (s : State) (sheet agent : Nat) : Bool :=
  s.ep.ops.any fun o => o.key.sheet == sheet && o.key.agent == agent

/-! Descriptors (Table 2.6). -/

/-- What breaks a remote operation descriptor at issue (R31, R33, R36, R583, R23): the status it completes with. own is the
issuing logical device's number. The status of an elem or tc that Table 2.6 has zero, of a reader count outside 1 to 4,096 and of a RACC or an
INVALIDATE of no bytes is the model's choice (log 402). -/
def State.rmoCheck (s : State) (sheet own : Nat) (d : BitVec 512) : Option Status :=
  let op := dAt d 0 1
  let elem := dAt d 1 1
  let fl := dAt d 2 2
  let tc := dAt d 4 1
  let dst := dAt d 8 8
  let src := dAt d 16 8
  let len := dAt d 24 4
  let sem := dAt d 32 8
  let done := dAt d 48 8
  let aux := dAt d 56 4
  let loc := fun a : Nat => a / 2 ^ 44 == own
  let put := loc src
  let withSem := op == 8 || (bitOf fl 0 && (op == 4 || op == 5))
  let lsrc := if op == 5 && !put then dst % 2 ^ 44 else src % 2 ^ 44
  let llen := if op == 6 then 4 * aux else len
  let es := if elem == 0 then 4 else 2
  firstFail [
    (decide (4 ≤ op ∧ op ≤ 8), .descFormat),
    (if op == 4 then decide (elem ≤ 1) else elem == 0, .descFormat),
    (fl / 16 == 0 && dAt d 5 3 == 0 && dAt d 60 4 == 0, .descFormat),
    (if op == 5 then tc == 0 || tc == 4 || tc == 5 else tc == 0, .descFormat),
    (done < 2 ^ 44 && done % 8 == 0, .descFormat),
    (op != 4 || put, .descFormat),
    (op != 5 || put || loc dst, .descFormat),
    (op != 6 || put, .descFormat),
    (op != 8 || len == 0 || put, .descFormat),
    (!withSem || sem / 2 ^ 44 == dst / 2 ^ 44, .descFormat),
    (op != 6 || decide (1 ≤ aux ∧ aux ≤ 4096), .descFormat),
    (!withSem || sem % 8 == 0, .alignment),
    (op != 4 || (decide (0 < len ∧ len ≤ 2 ^ 30) && len % es == 0 && dst % es == 0 && src % es == 0), .alignment),
    (op != 5 || (decide (16 ≤ len ∧ len ≤ 2 ^ 30) && len % 16 == 0 && dst % 16 == 0 && src % 16 == 0), .alignment),
    (op != 6 || (decide (0 < len ∧ len ≤ 2 ^ 30) && len % 256 == 0 && dst % 256 == 0), .alignment),
    (op != 8 || (decide (len ≤ 256) && len % 8 == 0), .alignment),
    (op == 7 || (op == 8 && len == 0) || s.inData sheet lsrc llen, .addressRange)]

/-- The completion that a descriptor names. -/
def descEnd (d : BitVec 512) : OpEnd := { OpEnd.none with doneAddr := dAt d 48 8, tag := dAt d 56 4 }
def rmoEnd (d : BitVec 512) : OpEnd :=
  { OpEnd.none with
    doneAddr := dAt d 48 8
    tag := dAt d 28 4
    notify := if bitOf (dAt d 2 2) 0 && (dAt d 0 1 == 4 || dAt d 0 1 == 5) then some (dAt d 32 8, dAt d 40 8) else none }

/-- RACC frames: elements from local address src to offset a for a bucket (R35, Table 14.3). -/
def raccPlan (f : Frame) (i src a n elem bucket : Nat) : List PlanFrame :=
  (putPlan { f with
    opflag := BitVec.ofNat 2 elem, spec := BitVec.ofNat 16 bucket, ext := BitVec.ofNat 20 (bucket / 2 ^ 16) } i src a n)

/-- A checked descriptor of the RACC, BULK_COPY or NOTIFY kind issued. -/
def State.issueDesc (s : State) (q : QDesc) (own : Nat) : State :=
  let d := q.desc
  let op := dAt d 0 1
  let dst : Word := BitVec.ofNat 64 (dAt d 8 8)
  let src := dAt d 16 8
  let len := dAt d 24 4
  let fin := rmoEnd d
  let comp := bitOf (dAt d 2 2) 1
  if op = 4 then
    let k : StreamKey := ⟨q.sheet, q.agent, q.job, fld dst 63 44⟩
    let a := fld dst 43 0
    let s := s.dropWritten q.job k.dst a len
    s.issue k dst fin fun w => raccPlan (s.reqFrame q.sheet q.agent q.job w 4 3) q.sheet (src % 2 ^ 44) a len (dAt d 1 1) (dAt d 56 4)
  else if op = 5 then
    if src / 2 ^ 44 = own then s.issuePut q.sheet q.agent q.job (src % 2 ^ 44) dst len (dAt d 4 1) comp fin
    else
      let k : StreamKey := ⟨q.sheet, q.agent, q.job, src / 2 ^ 44⟩
      s.issue k (BitVec.ofNat 64 src) fin fun w =>
        getPlan (s.reqFrame q.sheet q.agent q.job w 5 (dAt d 4 1)) q.sheet (fld dst 43 0) (src % 2 ^ 44) len
  else s.issueNotify q.sheet q.agent q.job dst (BitVec.ofNat 64 (dAt d 32 8)) (dAt d 40 8) (s.rd q.sheet (src % 2 ^ 44) len) fin

end Sys2Proof.Machine
end

