-- ==== Sys2Proof/Machine/Vec.lean ====
section
/-! DEFINITION. The vector instructions of Table 7.8 on a register context (R215 to R217, R256, R260). -/

namespace Sys2Proof.Machine

/-- Element i of width w bits of a register. -/
def vGet (v : VReg) (w i : Nat) : Nat := v.toNat / 2 ^ (w * i) % 2 ^ w

/-- A number from its digits of w bits, lowest first. -/
def packDigits (w : Nat) : List Nat → Nat
  | [] => 0
  | x :: xs => x + 2 ^ w * packDigits w xs

/-- A register from its elements of w bits, lowest first. -/
def vOfList (w : Nat) (l : List Nat) : VReg := BitVec.ofNat 32768 (packDigits w l)

/-- The width in bits of the element type that fmt selects: FP32, BF16, FP16, INT32 (R215). -/
def vWidth (fmt : Nat) : Nat := if fmt = 1 ∨ fmt = 2 then 16 else 32
def vFmt (fmt : Nat) : FFmt := if fmt = 1 then bf16 else if fmt = 2 then fp16 else fp32

/-- Whether lane l takes part (R215): its bit in p[pr], or its complement when pn is set. -/
def laneOn (x : CoreCtx) (f : BitVec 56) (l : Nat) : Bool := xor ((x.rp (rPr f)).getLsbD l) (rPn f)

/-- The register d with each element of an active lane replaced by g's value at its index, and the flags of those
elements. -/
def vMap (w : Nat) (on : Nat → Bool) (old : VReg) (g : Nat → Nat × FFlags) : VReg × FFlags :=
  let r := (List.range (32768 / w)).map fun i =>
    if on (i * w / 32) then g i else (vGet old w i, (0 : FFlags))
  (vOfList w (r.map (·.1)), r.foldl (fun fl e => fl ||| e.2) 0)

/-- Operand b of element i: the vector register, or the low bits of the scalar register when bs is set (R215). -/
def vB (x : CoreCtx) (f : BitVec 56) (w i : Nat) : Nat :=
  if (rX f).testBit 0 then (x.rs (rB f)).toNat % 2 ^ w else vGet (x.rv (rB f)) w i
def bs (f : BitVec 56) : Bool := (rX f).testBit 0
def bOk (f : BitVec 56) : Bool := bs f || vOk (rB f)
def bSrc (f : BitVec 56) : List Nat := if bs f then [rB f] else []
def bVec (f : BitVec 56) : List Nat := if bs f then [] else [rB f]
def xOnly (f : BitVec 56) (mask : Nat) : Bool := (rX f &&& (2 ^ 24 - 1 - mask)) == 0

/-- A two-operand element-wise instruction. -/
def vecAB (fmtOk : Nat → Bool) (g : Nat → Nat → Nat → Nat × FFlags) (f : BitVec 56) : CoreCtx → CoreRes :=
  vgate (fmtOk (rFmt f) && vOk (rD f) && vOk (rA f) && bOk f && rC f == 0 && xOnly f 1) (bSrc f)
      ([rD f, rA f] ++ bVec f)
    fun x =>
      let w := vWidth (rFmt f)
      let r := vMap w (laneOn x f) (x.rv (rD f)) fun i => g (rFmt f) (vGet (x.rv (rA f)) w i) (vB x f w i)
      .ok (((x.wv (rD f) r.1).orFl r.2).adv)

/-- A one-operand element-wise instruction. -/
def vecA (fmtOk : Nat → Bool) (g : Nat → Nat → Nat × FFlags) (f : BitVec 56) : CoreCtx → CoreRes :=
  vgate (fmtOk (rFmt f) && vOk (rD f) && vOk (rA f) && rB f == 0 && rC f == 0 && xOnly f 0) [] [rD f, rA f]
    fun x =>
      let w := vWidth (rFmt f)
      let r := vMap w (laneOn x f) (x.rv (rD f)) fun i => g (rFmt f) (vGet (x.rv (rA f)) w i)
      .ok (((x.wv (rD f) r.1).orFl r.2).adv)

def m32 (n : Nat) : Nat := n % 2 ^ 32
/-- VADD, VSUB and VMUL: INT32 wraps (R216). -/
def eAdd (fmt a b : Nat) : Nat × FFlags := if fmt = 3 then (m32 (a + b), 0) else fAdd (vFmt fmt) a b
def eSub (fmt a b : Nat) : Nat × FFlags := if fmt = 3 then (m32 (a + (2 ^ 32 - b)), 0) else fSub (vFmt fmt) a b
def eMul (fmt a b : Nat) : Nat × FFlags := if fmt = 3 then (m32 (a * b), 0) else fMul (vFmt fmt) a b
/-- VMIN and VMAX: signed for INT32. -/
def eMinMax (isMax : Bool) (fmt a b : Nat) : Nat × FFlags :=
  if fmt = 3 then (if decide (sInt 32 a < sInt 32 b) = isMax then b else a, 0) else fMinMax (vFmt fmt) isMax a b
/-- VABS and VNEG: the sign cleared or inverted. A NaN result is the canonical one (R241); INT32 wraps. -/
def eSign (neg : Bool) (fmt a : Nat) : Nat × FFlags :=
  if fmt = 3 then
    (if neg || decide (sInt 32 a < 0) then m32 (2 ^ 32 - a) else a, 0)
  else
    let k := vFmt fmt
    let v := k.decode a
    if v.isNan then (k.qnan, if v.isSig then flInvalid else 0)
    else
      let top := 2 ^ (k.width - 1)
      (if neg then (if a ≥ top then a - top else a + top) else a % top, 0)

def vecFma (f : BitVec 56) : CoreCtx → CoreRes :=
  vgate (decide (rFmt f < 3) && vOk (rD f) && vOk (rA f) && bOk f && vOk (rC f) && xOnly f 1) (bSrc f)
      ([rD f, rA f, rC f] ++ bVec f)
    fun x =>
      let w := vWidth (rFmt f)
      let r := vMap w (laneOn x f) (x.rv (rD f)) fun i =>
        fFma (vFmt (rFmt f)) (vGet (x.rv (rA f)) w i) (vB x f w i) (vGet (x.rv (rC f)) w i)
      .ok (((x.wv (rD f) r.1).orFl r.2).adv)

/-- VCMP's conditions: 0 EQ, 1 NE, 2 LT, 3 LE, 4 GT, 5 GE, 6 UNORD. -/
def eCmp (fmt k a b : Nat) : Bool × FFlags :=
  if fmt = 3 then
    let x := sInt 32 a
    let y := sInt 32 b
    (match k with
      | 0 => decide (x = y)
      | 1 => decide (x ≠ y)
      | 2 => decide (x < y)
      | 3 => decide (x ≤ y)
      | 4 => decide (x > y)
      | 5 => decide (x ≥ y)
      | _ => false, 0)
  else
    match k with
    | 0 => fCmp fp32 0 a b
    | 1 => let r := fCmp fp32 0 a b; (!r.1, r.2)
    | 2 => fCmp fp32 1 a b
    | 3 => fCmp fp32 2 a b
    | 4 => fCmp fp32 1 b a
    | 5 => fCmp fp32 2 b a
    | _ => fCmp fp32 3 a b

/-- A predicate register from its bits, lane 0 first, keeping the lanes that are off. -/
def pMap (on : Nat → Bool) (old : PReg) (g : Nat → Bool) : PReg :=
  BitVec.ofNat 1024 (packDigits 1 ((List.range 1024).map fun l => b2n (if on l then g l else old.getLsbD l)))

def vecCmp (f : BitVec 56) : CoreCtx → CoreRes :=
  vgate ((rFmt f == 0 || rFmt f == 3) && pOk (rD f) && vOk (rA f) && bOk f && rC f == 0 && xOnly f 15 &&
      decide (bitsOf (rX f) 3 1 < 7)) (bSrc f) (rA f :: bVec f)
    fun x =>
      let r := fun l => eCmp (rFmt f) (bitsOf (rX f) 3 1) (vGet (x.rv (rA f)) 32 l) (vB x f 32 l)
      let fl := (List.range 1024).foldl (fun a l => if laneOn x f l then a ||| (r l).2 else a) (0 : FFlags)
      .ok (((x.wp (rD f) (pMap (laneOn x f) (x.rp (rD f)) fun l => (r l).1)).orFl fl).adv)

def vecSel (f : BitVec 56) : CoreCtx → CoreRes :=
  vgate (decide (rFmt f < 4) && vOk (rD f) && vOk (rA f) && bOk f && pOk (rC f) && xOnly f 1) (bSrc f)
      ([rD f, rA f] ++ bVec f)
    fun x =>
      let w := vWidth (rFmt f)
      let r := vMap w (laneOn x f) (x.rv (rD f)) fun i =>
        (if (x.rp (rC f)).getLsbD (i * w / 32) then vGet (x.rv (rA f)) w i else vB x f w i, 0)
      .ok ((x.wv (rD f) r.1).adv)

/-- The width in bits of VCVT's target code: FP32, BF16, FP16, INT32, E4M3, E5M2, INT8. -/
def cvtWidth (t : Nat) : Nat := if t = 0 ∨ t = 3 then 32 else if t = 1 ∨ t = 2 then 16 else 8
/-- A source element of VCVT. -/
def cvtSrc (fmt a : Nat) : FVal := if fmt = 3 then FVal.ofInt (sInt 32 a) else (vFmt fmt).decode a
/-- A value converted to VCVT's target code (Table 8.2). -/
def cvtTo (t : Nat) (v : FVal) : Nat × FFlags :=
  match t with
  | 0 => cvtFp fp32 v
  | 1 => cvtFp bf16 v
  | 2 => cvtFp fp16 v
  | 3 => let r := toInt 32 false v; (toBits 32 r.1, r.2)
  | 4 => cvtFp e4m3 v
  | 5 => cvtFp e5m2 v
  | _ => let r := toInt 8 false v; (toBits 8 r.1, r.2)

/-- VCVT: 1,024 elements, times 2^b exactly, rounded once. The part in x[9:8] is that of the packed source and of the
packed destination; with neither packed it is zero. Where both are packed it selects the same part of each (log 14). -/
def vecCvt (f : BitVec 56) : CoreCtx → CoreRes :=
  let t := bitsOf (rX f) 7 4
  let part := bitsOf (rX f) 9 8
  let sw := vWidth (rFmt f)
  let tw := cvtWidth t
  let parts := min (if sw = 32 then 4 else 32 / sw) (if tw = 32 then 4 else 32 / tw)
  let partOk := if sw = 32 ∧ tw = 32 then part == 0 else decide (part < parts)
  vgate (decide (rFmt f < 4) && vOk (rD f) && vOk (rA f) && rC f == 0 && xOnly f 0x3F0 && decide (t < 7) && partOk)
      [rB f] [rD f, rA f]
    fun x =>
      let k := (x.rs (rB f)).toInt
      let s0 := if sw = 32 then 0 else 1024 * part
      let d0 := if tw = 32 then 0 else 1024 * part
      let r := vMap tw (laneOn x f) (x.rv (rD f)) fun i =>
        if d0 ≤ i ∧ i < d0 + 1024 then
          cvtTo t ((cvtSrc (rFmt f) (vGet (x.rv (rA f)) sw (s0 + (i - d0)))).scale k)
        else (vGet (x.rv (rD f)) tw i, 0)
      .ok (((x.wv (rD f) r.1).orFl r.2).adv)

def vecBc (f : BitVec 56) : CoreCtx → CoreRes :=
  vgate (decide (rFmt f < 4) && vOk (rD f) && rB f == 0 && rC f == 0 && xOnly f 0) [rA f] [rD f]
    fun x =>
      let w := vWidth (rFmt f)
      let r := vMap w (laneOn x f) (x.rv (rD f)) fun _ => ((x.rs (rA f)).toNat % 2 ^ w, 0)
      .ok ((x.wv (rD f) r.1).adv)

def vecIota (f : BitVec 56) : CoreCtx → CoreRes :=
  vgate (rFmt f == 3 && vOk (rD f) && rA f == 0 && rB f == 0 && rC f == 0 && xOnly f 0) [] [rD f]
    fun x =>
      let r := vMap 32 (laneOn x f) (x.rv (rD f)) fun i => (i, 0)
      .ok ((x.wv (rD f) r.1).adv)

/-- VEXTR: b names the scalar register that holds the element's index. The spec states no result for an index past the last
element: a free value of the operands (log 22). -/
def vecExtr (f : BitVec 56) : CoreCtx → CoreRes :=
  vgate (decide (rFmt f < 4) && vOk (rA f) && rC f == 0 && xOnly f 0 && !rPn f && rPr f == 0) [rB f] [rA f]
    fun x =>
      let w := vWidth (rFmt f)
      let i := (x.rs (rB f)).toNat
      let e := if i < 32768 / w then vGet (x.rv (rA f)) w i else (Config.openWord [1, rFmt f, i, (x.rv (rA f)).toNat]).toNat % 2 ^ w
      .ok ((x.ws (rD f) (BitVec.ofNat 64 e)).adv)

def vecPcnt (f : BitVec 56) : CoreCtx → CoreRes :=
  gate (rFmt f == 0 && pOk (rA f) && rB f == 0 && rC f == 0 && xOnly f 0 && !rPn f && rPr f == 0) []
    fun x => .ok ((x.ws (rD f) (BitVec.ofNat 64 (popCount 1024 (x.rp (rA f)).toNat))).adv)

def vecPlog (f : BitVec 56) : CoreCtx → CoreRes :=
  gate (rFmt f == 0 && pOk (rD f) && pOk (rA f) && pOk (rB f) && rC f == 0 && xOnly f 3) []
    fun x =>
      let a := x.rp (rA f)
      let b := x.rp (rB f)
      let r : PReg := match rX f with
        | 0 => a &&& b
        | 1 => a ||| b
        | 2 => a ^^^ b
        | _ => a &&& ~~~b
      .ok ((x.wp (rD f) (pMap (laneOn x f) (x.rp (rD f)) r.getLsbD)).adv)

/-- A transcendental instruction; in Reprojection mode VEXP, VRCP and VSIGM are those of Table 8.7. -/
def tEvalMode (reproj : Bool) (g : TFun) (a : Nat) : Nat × FFlags :=
  if reproj then
    match g with
    | .exp => exp28 a
    | .rcp => rcp28 a
    | .sigm =>
      let e := exp28 (fp32Neg a)
      let s := fAdd fp32 fp32One e.1
      let r := rcp28 s.1
      (r.1, e.2 ||| s.2 ||| r.2)
    | g => tEval g a
  else tEval g a

def vecT (g : TFun) (f : BitVec 56) : CoreCtx → CoreRes :=
  vgate (rFmt f == 0 && vOk (rD f) && vOk (rA f) && rB f == 0 && rC f == 0 && xOnly f 0) [] [rD f, rA f]
    fun x =>
      let r := vMap 32 (laneOn x f) (x.rv (rD f)) fun i => tEvalMode x.kern.reproj g (vGet (x.rv (rA f)) 32 i)
      .ok (((x.wv (rD f) r.1).orFl r.2).adv)

/-- One level of R217's tree: adjacent results combine, lower index first. -/
def treeLevel (g : Nat → Nat → Nat × FFlags) : List Nat → List Nat × FFlags
  | a :: b :: l =>
    let r := g a b
    let t := treeLevel g l
    (r.1 :: t.1, r.2 ||| t.2)
  | l => (l, 0)

/-- n levels of the tree. -/
def treeReduce (g : Nat → Nat → Nat × FFlags) : Nat → List Nat → FFlags → List Nat × FFlags
  | 0, l, fl => (l, fl)
  | n + 1, l, fl => let r := treeLevel g l; treeReduce g n r.1 (fl ||| r.2)

/-- A reduction of R217: k is 0 sum, 1 maximum, 2 minimum; an excluded lane enters as the table's neutral value. -/
def vecReduce (k : Nat) (f : BitVec 56) : CoreCtx → CoreRes :=
  vgate ((rFmt f == 0 || rFmt f == 3) && vOk (rA f) && rB f == 0 && rC f == 0 && xOnly f 0) [] [rA f]
    fun x =>
      let neutral : Nat :=
        if rFmt f = 3 then (if k = 0 then 0 else if k = 1 then 2 ^ 31 else 2 ^ 31 - 1)
        else (if k = 0 then 2 ^ 31 else if k = 1 then 0xFF800000 else 0x7F800000)
      let l := (List.range 1024).map fun i => if laneOn x f i then vGet (x.rv (rA f)) 32 i else neutral
      let g := fun a b => if k = 0 then eAdd (rFmt f) a b else eMinMax (k == 1) (rFmt f) a b
      let r := treeReduce g 10 l 0
      .ok (((x.ws (rD f) (BitVec.ofNat 64 (r.1.headD 0))).orFl r.2).adv)

/-- VSHIFT: x[2:1] 0 SHL, 1 SHR, 2 SAR, by element b[4:0]. -/
def eShift (k a b : Nat) : Nat :=
  let n := b % 32
  match k with
  | 0 => m32 (a * 2 ^ n)
  | 1 => a / 2 ^ n
  | _ => toBits 32 (sInt 32 a / (2 ^ n : Nat))
def vecShift (f : BitVec 56) : CoreCtx → CoreRes :=
  vgate (rFmt f == 3 && vOk (rD f) && vOk (rA f) && bOk f && rC f == 0 && xOnly f 7 && decide (bitsOf (rX f) 2 1 < 3))
      (bSrc f) ([rD f, rA f] ++ bVec f)
    fun x =>
      let r := vMap 32 (laneOn x f) (x.rv (rD f)) fun i =>
        (eShift (bitsOf (rX f) 2 1) (vGet (x.rv (rA f)) 32 i) (vB x f 32 i), 0)
      .ok ((x.wv (rD f) r.1).adv)

def fmt03 (n : Nat) : Bool := decide (n < 4)
def fmt3 (n : Nat) : Bool := n == 3

end Sys2Proof.Machine
end

