-- ==== Sys2Proof/Machine/Mat.lean ====
section
/-! DEFINITION. The arithmetic of the matrix array: Tables 6.3 to 6.5, 7.10 and 8.3, metadata checks (R185 to R187), column
sums (R249 to R252), FP32-kind passes (R253 to R255) and T28 chunks (R261). -/

namespace Sys2Proof.Machine

/-- A row of Table 7.10: bits per element, whether a cell holds two weights, whether elements carry MX scales. -/
structure MatFmt where
  bits : Nat
  two : Bool
  mx : Bool
  deriving DecidableEq, Repr

def matFmt (fmt : Nat) : MatFmt :=
  match fmt with
  | 0 | 1 | 2 => ⟨8, false, false⟩
  | 3 | 4 | 5 => ⟨8, false, true⟩
  | 6 | 7 => ⟨6, true, false⟩
  | 8 => ⟨4, true, false⟩
  | 9 | 10 => ⟨6, true, true⟩
  | 11 => ⟨4, true, true⟩
  | _ => ⟨16, false, false⟩

/-- The exact value of an element of a matrix format (R243: an MXINT8 element stands for its integer times 2^-6). -/
def matElem (fmt x : Nat) : FVal :=
  match fmt with
  | 0 => FVal.ofInt (sInt 8 x)
  | 5 => (FVal.ofInt (sInt 8 x)).scale (-6)
  | 1 | 3 => e4m3.decode x
  | 2 | 4 => e5m2.decode x
  | 6 | 9 => e2m3.decode x
  | 7 | 10 => e3m2.decode x
  | 8 | 11 => e2m1.decode x
  | 12 => bf16.decode x
  | _ => fp16.decode x

/-- Halves per cell: 2 at FP6 and FP4. -/
def halves (fmt : Nat) : Nat := if (matFmt fmt).two then 2 else 1
/-- Weight bytes per cell row (Table 7.10). -/
def rowBytes (fmt : Nat) : Nat := 128 * halves fmt * (matFmt fmt).bits / 8
/-- Table 6.4: kept n of g. -/
def spN (sp : Nat) : Nat := match sp with | 1 => 2 | 2 => 4 | _ => 1
def spG (sp : Nat) : Nat := match sp with | 1 => 4 | 2 => 8 | _ => 4
/-- The dense K of one pass (Tables 6.3 and 6.4). -/
def denseK (fmt sp : Nat) : Nat := 128 * halves fmt * (if sp = 0 then 1 else if sp = 3 then 4 else 2)
/-- Metadata bytes per cell row (R186). -/
def metaRow (fmt : Nat) : Nat := 64 * halves fmt

/-- Element i of a packed run of elements of w bits (R242). -/
def packedElem (bytes : List Byte) (w i : Nat) : Nat :=
  let b0 := w * i / 8
  leNat ((bytes.drop b0).take (w / 8 + 2)) / 2 ^ (w * i % 8) % 2 ^ w

/-- The weight of half h of cell (k, n) (R219). -/
def tileWeight (t : WTile) (k h n : Nat) : FVal :=
  matElem t.fmt (packedElem ((t.data.drop (k * rowBytes t.fmt)).take (rowBytes t.fmt)) (matFmt t.fmt).bits (n * halves t.fmt + h))

/-- The metadata slot of half h of cell (k, n) (Table 6.5). -/
def tileSlot (t : WTile) (k h n : Nat) : Nat :=
  let row := t.metaB.drop (k * metaRow t.fmt)
  if (matFmt t.fmt).two then ((row.getD n 0).toNat / 16 ^ h) % 16
  else ((row.getD (n / 2) 0).toNat / 16 ^ (n % 2)) % 16

/-- The dense K index of weight w of column n (R185). -/
def tileK (t : WTile) (w n : Nat) : Nat :=
  if t.sp = 0 then w
  else spG t.sp * (w / spN t.sp) + tileSlot t (w / halves t.fmt) (w % halves t.fmt) n % 8

/-- R187 for weight w of column n: 1 absent, 2 range, 3 order, 0 no violation. -/
def slotViol (t : WTile) (w n : Nat) : Nat :=
  let hv := halves t.fmt
  let slot := tileSlot t (w / hv) (w % hv) n
  let kext := if t.kext = 0 then denseK t.fmt t.sp else t.kext
  if slot < 8 then 1
  else if slot % 8 ≥ spG t.sp ∨ tileK t w n ≥ kext then 2
  else if w % spN t.sp ≠ 0 ∧ slot % 8 ≤ tileSlot t ((w - 1) / hv) ((w - 1) % hv) n % 8 then 3
  else 0

/-- The first violation in (weight, column) order (R188). -/
def tileViol (t : WTile) : Option (Nat × Nat × Nat) :=
  if t.sp = 0 then none
  else
    (List.range (128 * halves t.fmt)).findSome? fun w =>
      (List.range 128).findSome? fun n => if slotViol t w n = 0 then none else some (w, n, slotViol t w n)

/-- Table 8.3: the tile kind and the dense K limit (0 for none) of an activation and a weight format; none where the pair is
not permitted. In Reprojection mode the FP8 pairs have kind FP32 and E5M2 with E5M2 is permitted (Table 8.7). -/
def matPair (reproj : Bool) (act wt : Nat) : Option (AccKind × Nat) :=
  let fp8 := fun n => n == 1 || n == 2
  let low := fun n => n == 6 || n == 7 || n == 8
  let mx8 := fun n => n == 3 || n == 4
  let mxl := fun n => n == 9 || n == 10 || n == 11
  if reproj && fp8 act && fp8 wt then some (.fp32, 0)
  else if act = 0 ∧ wt = 0 then some (.col 0, 1048576)
  else if act = 1 ∧ wt = 1 then some (.col 18, 1048576)
  else if fp8 act && fp8 wt && act != wt then some (.col 25, 8192)
  else if low act && low wt then some (.col 8, 1048576)
  else if mx8 act && mx8 wt then some (.fp32, 0)
  else if act = 5 ∧ wt = 5 then some (.fp32, 0)
  else if mxl act && mxl wt then some (.fp32, 0)
  else if act = wt ∧ (act = 12 ∨ act = 13) then some (.fp32, 0)
  else none

/-- Two kinds agree for R220: column sum with column sum, FP32 with FP32. -/
def sameKind : AccKind → AccKind → Bool
  | .empty, _ => true
  | .col _, .col _ => true
  | .fp32, .fp32 => true
  | _, _ => false

/-- One product added to a column sum word (R249, R251). -/
def colAdd (f : Nat) (a : AccWord) (p : FVal) : AccWord :=
  match p with
  | .nan _ => { a with tag := 3 }
  | .inf neg =>
    let t : Fin 4 := if neg then 2 else 1
    { a with tag := if a.tag = 0 ∨ a.tag = t then t else 3 }
  | .fin neg m e => { a with w := a.w + BitVec.ofInt 64 (unitsAt neg m e (-(f : Int))) }

/-- The FP32 word of an accumulator. -/
def accF (a : AccWord) : Nat := a.w.toNat % 2 ^ 32

/-- One FP32 addition of an exact value to a word, rounded RNE. -/
def fpAcc (a : Nat) (p : FVal) : Nat × FFlags :=
  let r := addVal (fp32.decode a) p
  let q := roundVal fp32 r.1
  (q.1, r.2 ||| q.2)

/-- R253: the exact sum of one block's products with its two scale codes, rounded to FP32 once. -/
def mxBlock (sa sw : Nat) (ps : List FVal) : Nat × FFlags :=
  if sa = 255 ∨ sw = 255 then (fp32.qnan, 0)
  else
    match ps with
    | [] => (0, 0)
    | p :: ps =>
      let r := ps.foldl (fun acc q => let t := addVal acc.1 q; (t.1, acc.2 ||| t.2)) (p, (0 : FFlags))
      let q := roundVal fp32 (r.1.scale ((sa : Int) + sw - 254))
      (q.1, r.2 ||| q.2)

/-- ⌊log2⌋ of a non-zero finite magnitude. -/
def ilog2 (m : Nat) (e : Int) : Int := e + bitLen m - 1

/-- The flag of a chunk that adds infinities of both signs. -/
def chunkFl (ps : List FVal) : FFlags :=
  if !ps.any FVal.isNan && ps.any (fun p => p == .inf false) && ps.any (fun p => p == .inf true) then flInvalid else 0

/-- chunk28 of R261: the exact value of one chunk of products. -/
def chunk28 (ps : List FVal) : FVal :=
  if ps.any FVal.isNan || (ps.any (fun p => p == .inf false) && ps.any (fun p => p == .inf true)) then .nan false
  else if ps.any (fun p => p == .inf false) then .inf false
  else if ps.any (fun p => p == .inf true) then .inf true
  else
    let es := ps.filterMap fun p => match p with
      | .fin _ m e => if m = 0 then none else some (ilog2 m e)
      | _ => none
    match es with
    | [] => .fin false 0 0
    | e0 :: es =>
      let top := es.foldl max e0
      let q : Int := top - 24
      let s := ps.foldl (fun (acc : Int) p => match p with
        | .fin neg m e =>
          let t : Int := (truncMag m (e - q)).1
          if neg then acc - t else acc + t
        | _ => acc) 0
      if s = 0 then .fin false 0 0
      else
        let l := bitLen s.natAbs - 1
        let s' := if l > 24 then s.natAbs / 2 ^ (l - 24) * 2 ^ (l - 24) else s.natAbs
        .fin (decide (s < 0)) s' q

/-- Lists of 16 consecutive elements. -/
def chunks (n : Nat) {α : Type} : Nat → List α → List (List α)
  | 0, _ => []
  | k + 1, l => if l.isEmpty then [] else l.take n :: chunks n k (l.drop n)

/-- The operands of one result word: each weight's dense K index, its activation and its weight, in ascending K. -/
structure MatTerm where
  k : Nat
  act : FVal
  wt : FVal
  deriving DecidableEq, Repr

/-- The terms of (row, column n) of a normal pass (R185): weight w meets the activation at its dense K index. -/
def termsNormal (fmtA : Nat) (row : List Byte) (t : WTile) (n : Nat) : List MatTerm :=
  let hv := halves t.fmt
  (List.range (128 * hv)).map fun w =>
    let k := tileK t w n
    ⟨k, matElem fmtA (packedElem row (matFmt fmtA).bits k), tileWeight t (w / hv) (w % hv) n⟩

/-- The terms of (row, result column k) of a transposed pass (R182): element n meets the weights of cell (k, n); at FP6 and
FP4 the two elements 2n and 2n + 1 meet the cell's two halves (log 15). -/
def termsTransposed (fmtA : Nat) (row : List Byte) (t : WTile) (k : Nat) : List MatTerm :=
  let hv := halves t.fmt
  (List.range (128 * hv)).map fun i =>
    ⟨i, matElem fmtA (packedElem row (matFmt fmtA).bits i), tileWeight t k (i % hv) (i / hv)⟩

/-- The new accumulator word of one result (R249 to R255, R261), with the flags of its products (R241) and of its roundings. -/
def matWord (reproj : Bool) (kind : AccKind) (t : WTile) (actScale wtScale : List Byte)
    (col : Nat) (terms : List MatTerm) (old : AccWord) : AccWord × FFlags :=
  let prod := fun (m : MatTerm) => (mulVal m.act m.wt).1
  let fl := terms.foldl (fun a m => a ||| (mulVal m.act m.wt).2) (0 : FFlags)
  match kind with
  | .col f => (terms.foldl (fun a m => colAdd f a (prod m)) old, fl)
  | _ =>
    let r : Nat × FFlags :=
      if reproj && (t.fmt == 1 || t.fmt == 2) then
        (chunks 16 64 (terms.map prod)).foldl (fun acc c =>
          let q := fpAcc acc.1 (chunk28 c)
          (q.1, acc.2 ||| q.2 ||| chunkFl c)) (accF old, 0)
      else if (matFmt t.fmt).mx then
        let nb := denseK t.fmt t.sp / 32
        (List.range nb).foldl (fun acc j =>
          let ps := (terms.filter fun m => m.k / 32 == j).map prod
          let blk := mxBlock (actScale.getD j 0).toNat (wtScale.getD (col * nb + j) 0).toNat ps
          let q := fpAcc acc.1 (fp32.decode blk.1)
          (q.1, acc.2 ||| blk.2 ||| q.2)) (accF old, 0)
      else
        terms.foldl (fun acc m =>
          let p := mulVal m.act m.wt
          let q := fpAcc acc.1 p.1
          (q.1, acc.2 ||| q.2)) (accF old, 0)
    (⟨BitVec.ofNat 64 r.1, 0⟩, fl ||| r.2)

/-- Products with one operand ±0 and the other finite (R184). -/
def gatedTerm (m : MatTerm) : Bool :=
  match m.act, m.wt with
  | .fin _ a _, .fin _ b _ => a == 0 || b == 0
  | _, _ => false

/-- What a pass comes to: the tile's new words and the FP flags, products and gated products. -/
structure PassRes where
  words : Tbl Nat AccWord
  fl : FFlags
  macs : Nat
  gated : Nat

/-- The whole pass over its rows (R176, R220): rows is the list of activation rows with their scale bytes. -/
def passWords (reproj : Bool) (kind : AccKind) (fmtA : Nat) (t : WTile) (transpose write : Bool)
    (tile : AccTile) (rows : List (List Byte × List Byte)) : PassRes :=
  let cells := (List.range (128 * rows.length)).map fun i =>
    let row := rows.getD (i / 128) ([], [])
    let n := i % 128
    let terms := if transpose then termsTransposed fmtA row.1 t n else termsNormal fmtA row.1 t n
    let old := if write || tile.kind == .empty then AccWord.zero else tile.words.getD i AccWord.zero
    let r := matWord reproj kind t row.2 t.scale n terms old
    (i, r.1, r.2, terms.length, (terms.filter gatedTerm).length)
  { words := cells.foldl (fun ws c => ws.put c.1 c.2.1) tile.words
    fl := cells.foldl (fun a c => a ||| c.2.2.1) 0
    macs := sumOf cells (fun c => c.2.2.2.1)
    gated := sumOf cells (fun c => c.2.2.2.2) }

/-- ACCRD of one word (R222, R252, R255): the FP32 result with 2^b applied. -/
def accRead (kind : AccKind) (b : Int) (a : AccWord) : Nat × FFlags :=
  match kind with
  | .empty => (0, 0)
  | .col f =>
    if a.tag = 3 then (fp32.qnan, 0)
    else if a.tag = 1 then (fp32.infBits false, 0)
    else if a.tag = 2 then (fp32.infBits true, 0)
    else roundVal fp32 (((FVal.ofInt a.w.toInt).scale b).scale (-(f : Int)))
  | .fp32 => roundVal fp32 ((fp32.decode (accF a)).scale b)

end Sys2Proof.Machine
end

