-- ==== Sys2Proof/Machine/Sched.lean ====
section
/-! DEFINITION. Kernels, contexts and semaphores: faults and the stop of a kernel (R233), its start and completion (R235 to
R238, R370), the scheduler's choice (R374, R375), effective priority (R383), and the drain of R232 with what follows when the
endpoint resolves an operation. -/

namespace Sys2Proof.Machine

/-! Cores. -/

/-- A register context that is executing or stalled at an instruction. -/
def RunState.live : RunState → Bool
  | .running => true
  | .blocked (.ending _) => false
  | .blocked _ => true
  | _ => false

/-- A context that stops without faulting records KERNEL_ABORTED (R237) and drains. -/
def State.abortCore (s : State) (c : Nat) : State :=
  let x := s.core c
  if x.run.live then
    let s := s.captureFault c .kernelAborted 0 x.pc
    let s := { s with ep := { s.ep with fences := s.ep.fences.filter fun f => match f.who with
      | .instr c' _ => c' != c
      | _ => true } }
    s.setCore c { x with run := .draining none none }
  else s

/-- The home positions of a kernel's virtual cores. -/
def State.kernelCores (s : State) (i : Nat) (k : KernelRun) : List Nat := (List.range k.vcount).map fun v => s.homeCore i (k.vfirst + v)

def State.ctx? (s : State) (i c : Nat) : Option Context := s.ctxs.find (i, c)
/-- A context that may be named, with its index. -/
def State.ctxNo (s : State) (i : Nat) (o : Option Nat) : Option (Nat × Context) := o.bind fun c => (s.ctx? i c).map fun x => (c, x)
def State.setCtx (s : State) (i c : Nat) (x : Context) : State := { s with ctxs := s.ctxs.put (i, c) x }
def State.setSheet (s : State) (i : Nat) (x : Sheet) : State := { s with sheets := s.sheets.put i x }

/-- The lowest faulting virtual index of a kernel and its status (R233, R237). -/
def KernelRun.addFault (k : KernelRun) (v : Nat) (st : Status) : KernelRun :=
  match k.fault with
  | some (v', _) => if v < v' then { k with fault := some (v, st) } else k
  | none => { k with fault := some (v, st) }

def State.noteFault (s : State) (i c v : Nat) (st : Status) : State :=
  match s.ctx? i c with
  | some x => s.setCtx i c { x with kernel := x.kernel.map fun k => k.addFault v st }
  | none => s

/-- Every other virtual core of the kernel stops (R233). -/
def State.stopKernel (s : State) (i c : Nat) : State :=
  match s.ctx? i c with
  | some { kernel := some k, .. } => (s.kernelCores i k).foldl State.abortCore s
  | _ => s

/-- R233: an instruction that faults has no effect; the virtual core stops and drains, its fault is captured, and the kernel's
other virtual cores stop. Matrix instructions that are earlier than the fault are left to finish; those behind a pass that faults are
not run. -/
def State.coreStop (s : State) (c : Nat) (st : Status) (info : Nat := 0) (at_ : Option Nat := none) : State :=
  let x := s.core c
  let s := s.captureFault c st info (at_.getD x.pc)
  let s := { s with ep := { s.ep with fences := s.ep.fences.filter fun f => match f.who with
    | .instr c' _ => c' != c
    | _ => true } }
  let s := s.setCore c { x with run := .draining none (some st), mq := if at_.isSome then [] else x.mq }
  let s := s.noteFault x.kern.sheet x.kern.ctxIdx x.kern.vindex st
  s.stopKernel x.kern.sheet x.kern.ctxIdx

/-! Semaphores (R228, R382, R383). -/

def State.semsHeld (s : State) (i c : Nat) : List Nat := (s.sems.filter fun e => e.1.1 == i && e.2.ctx == c).map fun e => e.1.2

/-- The contexts of a sheet whose virtual cores wait in SACQ for a semaphore of context c. -/
def State.semWaiters (s : State) (i c : Nat) : List Nat :=
  let held := s.semsHeld i c
  s.cores.filterMap fun e => match e.2.run with
    | .blocked (.sacq n) => if e.2.kern.sheet = i ∧ held.contains n then some e.2.kern.ctxIdx else none
    | _ => none

/-- The contexts of a sheet, by index. -/
def State.ctxsOf (s : State) (i : Nat) : List (Nat × Context) :=
  (s.ctxs.filter fun e => e.1.1 == i).map fun e => (e.1.2, e.2)

/-- One round of R383's raise over the contexts of a sheet. -/
def State.raiseRound (s : State) (i : Nat) (eff : Tbl Nat Nat) : Tbl Nat Nat :=
  eff.mapVals fun c e =>
    if (s.semsHeld i c).isEmpty then e
    else
      let ready := (s.ctxsOf i).filterMap fun d => if d.2.st = .ready ∧ d.1 ≠ c then some d.1 else none
      (ready ++ (s.semWaiters i c).filter (· ≠ c)).foldl (fun m d => max m (eff.getD d 0)) e

def iter {α : Type} (f : α → α) : Nat → α → α
  | 0, a => a
  | n + 1, a => iter f n (f a)

/-- Effective priorities (R383). -/
def State.effPrios (s : State) (i : Nat) : Tbl Nat Nat :=
  iter (s.raiseRound i) 16 ((s.ctxsOf i).map fun d => (d.1, max d.2.prio d.2.lift))
def State.effPrio (s : State) (i c : Nat) : Nat := (s.effPrios i).getD c 0

/-- R383's raise kept by every context of sheet i that holds a semaphore, and dropped by the others. -/
def State.keepLifts (s : State) (i : Nat) : State :=
  let e := s.effPrios i
  { s with ctxs := s.ctxs.mapVals fun k x => if k.1 = i then { x with lift := if (s.semsHeld i k.2).isEmpty then 0 else e.getD k.2 0 } else x }

/-- The waiter that a released semaphore goes to (R382): highest effective priority, then lowest virtual index. -/
def State.semNext (s : State) (i n : Nat) : Option Nat :=
  let w := s.cores.filterMap fun e => match e.2.run with
    | .blocked (.sacq m) => if m = n ∧ e.2.kern.sheet = i then some (e.1, (7 - s.effPrio i e.2.kern.ctxIdx) * 256 + e.2.kern.vindex) else none
    | _ => none
  ((sortBy (·.2) w).head?).map (·.1)

/-- A semaphore released and, if a virtual core waits for it, granted (R382). -/
def State.semRelease (s : State) (i n : Nat) : State :=
  match s.semNext i n with
  | some c =>
    let x := s.core c
    let s := { s with sems := s.sems.put (i, n) ⟨x.kern.ctxIdx, c, s.datum⟩ }
    (s.setCore c ({ x with run := .running }.adv)).keepLifts i
  | none => ({ s with sems := s.sems.del (i, n) } : State).keepLifts i

/-! Kernels. -/

/-- Head and tail of a kernel ring (R369), and whether an entry is pending under the tail that was last read. -/
def State.ringTail (s : State) (i : Nat) (x : Context) : Nat := s.rdN i x.ringAddr 8
def State.ringHead (s : State) (i : Nat) (x : Context) : Nat := s.rdN i (x.ringAddr + 8) 8
def State.ringPending (s : State) (i : Nat) (x : Context) : Bool := decide (s.ringHead i x < x.tail)

/-- The entries of a live-out map (Table 7.16): offset, length, reserved bits. -/
def State.liveMap (s : State) (i addr n : Nat) : List (Nat × Nat × Nat) :=
  (List.range n).map fun j =>
    let e := s.rdN i (addr + 8 * j) 8
    (bitsOf e 23 0, (bitsOf e 35 24 + 1) * 4096, bitsOf e 63 36)

/-- How many 4 KiB pages of a slot the map covers; entries may overlap. -/
def livePages (m : List (Nat × Nat)) : Nat :=
  ((List.range 4096).filter fun p => m.any fun e => decide (e.1 ≤ 4096 * p ∧ 4096 * p < e.1 + e.2)).length

/-- What makes the scheduler refuse a descriptor (R235, R238, R317, R370), and otherwise the kernel to run. -/
def State.kernelCheck (s : State) (i : Nat) (x : Context) (d : Nat) : Option Status :=
  let f := fun o n => s.rdN i (d + o) n
  let m := (s.sheet i).m
  let vf := f 24 2
  let vc := f 26 2
  let code := f 8 8
  let bytes := f 20 4
  let map := s.liveMap i (f 40 8) (f 2 2)
  firstFail [
    (d % 64 == 0 && f 0 1 == 1 && f 1 1 / 8 == 0 && decide (f 2 2 ≤ 64), .descFormat),
    (code % 4096 == 0 && decide (code < (s.sheet i).usable) && f 16 4 % 8 == 0 && decide (f 16 4 < bytes), .descFormat),
    (decide (8 ≤ bytes ∧ bytes ≤ 16777216) && bytes % 8 == 0, .descFormat),
    (decide (1 ≤ vc ∧ vc ≤ 256 ∧ vf + vc ≤ 32 * m), .descFormat),
    (f 40 8 % 8 == 0 && (bitOf (f 1 1) 1 || f 60 2 == 0), .descFormat),
    ((List.range 66).all fun j => f (62 + j) 1 == 0, .descFormat),
    (bitsOf (f 4 4) 31 24 == 0 && bitsOf (f 4 4) 7 2 == 0 && decide (bitsOf (f 4 4) 1 0 ≤ 2) &&
      (bitsOf (f 4 4) 1 0 != 2 || bitsOf (f 4 4) 23 8 != 0), .descFormat),
    (map.all fun e => e.2.2 == 0 && e.1 % 4096 == 0 && decide (e.1 + e.2.1 ≤ 16777216), .descFormat),
    (decide (livePages (map.map fun e => (e.1, e.2.1)) ≤ 256 * x.saveMib), .saveAreaSmall),
    (decide (vf + vc ≤ s.collFirst i), .collectiveCore)]

/-- The register context at the start of a kernel (Table 7.1). -/
def State.startCtx (s : State) (i c : Nat) (x : Context) (d v : Nat) : CoreCtx :=
  let f := fun o n => s.rdN i (d + o) n
  let args := if f 32 8 = 0 then [] else (List.range 15).map fun j => (j + 1, BitVec.ofNat 64 (s.rdN i (f 32 8 + 8 * j) 8))
  let regs : Tbl Nat Word := args ++ [(16, BitVec.ofNat 64 v), (17, BitVec.ofNat 64 (v - f 24 2)), (18, BitVec.ofNat 64 x.logical)]
  { CoreCtx.idle with
    run := .running
    kern := ⟨i, c, x.job, x.logical, v, f 24 2, f 8 8, f 20 4, bitOf (f 1 1) 0, f 4 4, x.reproj⟩
    s := regs
    pc := f 8 8 + f 16 4 }

/-- The watchdog of a kernel: the descriptor's, the context's or the sheet's (R376). -/
def State.watchdog (s : State) (i : Nat) (x : Context) (d : Nat) : Nat :=
  if s.rdN i (d + 28) 4 ≠ 0 then s.rdN i (d + 28) 4 else if x.watchMs ≠ 0 then x.watchMs else (s.sheet i).watchMs

/-- A kernel's virtual cores start (R206, R235). -/
def State.launchKernel (s : State) (i c : Nat) (x : Context) (d : Nat) : State :=
  let f := fun o n => s.rdN i (d + o) n
  let w := s.watchdog i x d
  let k : KernelRun := ⟨d, f 24 2, f 26 2, s.datum, w, f 48 8, f 56 4, bitOf (f 1 1) 1, bitOf (f 1 1) 2,
    (s.liveMap i (f 40 8) (f 2 2)).map fun e => (e.1, e.2.1), none⟩
  let grp := if k.group then (match x.group with
    | some g => some g
    | none => some (s.datum, w)) else none
  let s := (List.range k.vcount).foldl (fun s v => s.setCore (s.homeCore i (k.vfirst + v)) (s.startCtx i c x d (k.vfirst + v))) s
  s.setCtx i c { x with st := .running, kernel := some k, group := grp }

/-- A kernel's completion word written and the head raised by one (R370). -/
def State.retireEntry (s : State) (i : Nat) (x : Context) (done tag : Nat) (st : Status) : State :=
  let s := s.complete i done tag st
  s.writeN i (x.ringAddr + 8) 8 (s.ringHead i x + 1)

/-- The time slice of a context (R375). -/
def State.quantum (s : State) (i : Nat) (x : Context) : Nat := usTicks (if x.quantumUs ≠ 0 then x.quantumUs else (s.sheet i).quantumUs)

/-- The best of the other READY contexts: highest effective priority, then index order after cur, wrapping (R375). -/
def State.bestOther (s : State) (i : Nat) (cur : Option Nat) : Option Nat :=
  let others := (s.ctxsOf i).filterMap fun d => if d.2.st = .ready ∧ some d.1 ≠ cur then some d.1 else none
  let base := match cur with
    | some c => c
    | none => 15
  let key := fun d => (7 - s.effPrio i d) * 16 + (d + 15 - base) % 16
  (sortBy key others).head?

/-- A switch is begun towards context c. The context that is switched out stays RUNNING (Table 13.6). -/
def State.beginSwitch (s : State) (i c : Nat) : State :=
  let sh := s.sheet i
  let s : State := match s.ctxNo i sh.run with
    | some (o, x) => if x.st = CtxState.ready then s.setCtx i o { x with st := .running } else s
    | none => s
  s.setSheet i { sh with run := none, switch := some (sh.last, c, false) }

/-- The scheduler reads the tail of a context's ring (R369); IDLE becomes READY where it is past the head (Table 13.6). -/
def State.readTail (s : State) (i c : Nat) : State :=
  match s.ctx? i c with
  | some x =>
    let x := { x with tail := s.ringTail i x }
    (s.setCtx i c (if x.life.st = .on ∧ x.st = .idle ∧ s.ringPending i x then { x with st := .ready } else x)).keepLifts i
  | none => s
/-- At a kernel boundary the scheduler reads every ring of the sheet. -/
def State.readTails (s : State) (i : Nat) : State := (s.ctxsOf i).foldl (fun s d => s.readTail i d.1) s

/-- One choice of the scheduler on sheet i (R375): the state after it, and the context whose next kernel is to start at once. Nothing is chosen while a context
is RUNNING, between the members of its group too (R374). -/
def State.chosen (s : State) (i : Nat) : State × Option Nat :=
  let s := s.keepLifts i
  let sh := s.sheet i
  if sh.life.st ≠ .on ∨ sh.switch.isSome then (s, none)
  else match sh.run with
    | none =>
      match s.bestOther i none with
      | none => (s, none)
      | some b =>
        if sh.last = some b then (s.setSheet i { sh with run := some b, runSince := s.datum }, some b) else (s.beginSwitch i b, none)
    | some c =>
      match s.ctx? i c with
      | none => (s, none)
      | some x =>
        let best := s.bestOther i (some c)
        let stay := match best with
          | none => true
          | some b => decide (s.effPrio i b < s.effPrio i c) ||
              (s.effPrio i b == s.effPrio i c && decide (s.datum - sh.runSince < s.quantum i x))
        if x.st = .running then (s, none)
        else if x.st = .ready ∧ (!(s.semsHeld i c).isEmpty ∨ stay = true) then (s, some c)
        else match best with
          | some b => (s.beginSwitch i b, none)
          | none => (s.setSheet i { sh with run := none }, none)

/-- What a kernel that has completed leaves its context as, at the boundary that it is (R369, R371, R374). -/
def State.atBoundary (s : State) (i c : Nat) : State :=
  let s := s.readTails i
  match s.ctx? i c with
  | some x => s.setCtx i c { x with st := if s.ringPending i x then .ready else .idle, group := none }
  | none => s

/-- What follows a kernel that the scheduler has tried to start: it runs, or it was refused; then the next member of its group is due, or waits for its entry,
or there is a choice. -/
inductive Next where
  | runs | member | choice
  deriving DecidableEq, Repr

/-- The next pending kernel of context c starts, or is completed without running (R235, R370). -/
def State.nextRun (s : State) (i c : Nat) : State × Next :=
  match s.ctx? i c with
  | none => (s, .runs)
  | some x =>
    let d := s.rdN i (x.ringAddr + 64 + 8 * (s.ringHead i x % max 1 x.ringEntries)) 8
    match s.kernelCheck i x d with
    | none => (s.launchKernel i c x d, .runs)
    | some st =>
      let s := s.retireEntry i x (s.rdN i (d + 48) 8) (s.rdN i (d + 56) 4) st
      let fl := s.rdN i (d + 1) 1
      if bitOf fl 1 && !bitOf fl 2 then
        (s.setCtx i c { x with st := .running, group := some (x.group.getD (s.datum, s.watchdog i x d)) }, if s.ringPending i x then .member else .runs)
      else (s.atBoundary i c, .choice)

mutual
/-- The scheduler's choice on sheet i (R375). The first argument bounds how many refused kernels are passed over. -/
def State.choose : Nat → State → Nat → State
  | 0, s, _ => s
  | n + 1, s, i =>
    match s.chosen i with
    | (s, none) => s
    | (s, some c) => State.runNext n s i c
/-- The next pending kernels of context c, until one starts (R235, R370). -/
def State.runNext : Nat → State → Nat → Nat → State
  | 0, s, _, _ => s
  | n + 1, s, i, c =>
    match s.nextRun i c with
    | (s, .runs) => s
    | (s, .member) => State.runNext n s i c
    | (s, .choice) => State.choose n s i
end

/-- Fuel for the scheduler's walk: two calls for each entry of a full ring of every context. -/
def schedFuel : Nat := 4194304
def State.schedule (s : State) (i : Nat) : State := if s.boot.halted then s else State.choose schedFuel s i

/-- The status of a completed kernel (R237). -/
def KernelRun.status (k : KernelRun) : Status :=
  match k.fault with
  | some (_, st) => st
  | none => .ok

/-- Whether every virtual core of a kernel has completed END or stopped (R237). -/
def State.kernelEnded (s : State) (i : Nat) (k : KernelRun) : Bool :=
  (s.kernelCores i k).all fun c => match (s.core c).run with
    | .ended _ => true
    | _ => false

/-! The end of a context (R372) and its beginning (R368). -/

/-- CONTEXT_CREATE when STARTING begins: the job is admitted, and the save area has a place in reserved HBM; the context is then ON and
IDLE. -/
def State.ctxBegin (s : State) (i : Nat) (pkt : Packet) : State × Ans :=
  let p := pkt.params
  let j := uAt p 2 2
  if !s.admitted j then (s, .st .jobUnknown)
  else if (s.job j).life.st = .stopping then (s, .st .tornDown)
  else
    let n := uAt p 20 2
    let s1 := if n = 0 then s else s.draw
    if n ≠ 0 ∧ !Config.placed s.free (n * 2 ^ 20 * s.collFirst i) then (s1, .st .reservedFull)
    else
      let x : Context := ⟨Life.off.started s.datum, .idle, uAt p 1 1 % 8, bitOf (uAt p 1 1) 3, j,
        (s.logicalOf j s.sw.devId i).getD pkt.hdr.logical.toNat, uAt p 4 4, uAt p 8 8, uAt p 16 4, n, uAt p 22 2, none, none, [], (0, 0), [], 0, 0⟩
      (s1.setCtx i (uAt p 0 1) x, .ok)

/-- A context that is switched out is READY again (Table 13.6). -/
def State.switchedOut (s : State) (i : Nat) (out : Option Nat) : State :=
  match s.ctxNo i out with
  | some (o, x) => if x.st = .running ∧ x.kernel.isNone then s.setCtx i o { x with st := if s.ringPending i x then .ready else .idle } else s
  | none => s

/-- The last of R372: the context's semaphores released, its save area gone, the context freed; then a creation that was deferred. -/
def State.ctxFree (s : State) (i c : Nat) : State :=
  match s.ctx? i c with
  | none => s
  | some x =>
    let s := (s.semsHeld i c).foldl (fun s n => s.semRelease i n) s
    let s := { s with ctxs := s.ctxs.del (i, c) }
    let sh := s.sheet i
    -- a switch towards the context that has not begun to save is given up
    let given := match sh.switch with
      | some (_, n, b) => n == c && !b
      | none => false
    let s := s.setSheet i { sh with
      run := if sh.run = some c then none else sh.run, last := if sh.last = some c then none else sh.last, switch := if given then none else sh.switch }
    let s := if given then s.switchedOut i sh.last else s
    let r := x.life.stopped
    let s := s.finals r.2.1
    match r.2.2 with
    | some pkt =>
      let b := s.ctxBegin i pkt
      match b.2 with
      | .done st d q => b.1.final pkt.owed st d q
      | _ => b.1
    | none => s

/-- A context in STOPPING with no kernel left is freed, and the scheduler chooses. One that its job's teardown holds (step 1) is freed at
step 5 of Table 20.5; until then it is not served. -/
def State.ctxEnd (s : State) (i c : Nat) : State :=
  match s.ctx? i c with
  | some x =>
    if x.life.st = .stopping ∧ x.kernel.isNone then
      if x.life.step = 0 then (s.ctxFree i c).schedule i
      else
        let sh := s.sheet i
        let s := s.setCtx i c { x with st := .idle, group := none }
        (s.setSheet i { sh with run := if sh.run = some c then none else sh.run }).schedule i
    else s
  | none => s

/-- A context in STOPPING: its kernel stops as R233 gives (R372), or it goes at once. -/
def State.ctxStop (s : State) (i c : Nat) : State :=
  match s.ctx? i c with
  | some x => if x.kernel.isSome then s.stopKernel i c else s.ctxEnd i c
  | none => s

/-- A completed kernel: KERNEL_FAULT event, completion word, head, context state and the boundary of R374. -/
def State.kernelDone (s : State) (i c : Nat) (x : Context) (k : KernelRun) : State :=
  let s := match k.fault with
    | some (v, st) => s.event { code := .kernelFault, job := some x.job, sheet := some i, status := some st, unit := c, params := [v, st.code] }
    | none => s
  let s := s.retireEntry i x k.doneAddr k.tag k.status
  let s := (s.kernelCores i k).foldl (fun s c => { s with cores := s.cores.del c }) s
  let s := s.setCtx i c { x with kernel := none, live := k.live, liveV := (k.vfirst, k.vcount) }
  let s := s.setSheet i { s.sheet i with last := some c }
  if k.fault.isNone ∧ k.group ∧ !k.groupLast ∧ x.life.st ≠ .stopping then
    if s.ringPending i x then State.runNext schedFuel s i c else s
  else
    let s := s.atBoundary i c
    if x.life.st = .stopping then s.ctxEnd i c
    else
      let s := if k.fault.isSome then (match s.ctx? i c with
        | some x => s.setCtx i c { x with st := .faulted }
        | none => s) else s
      s.schedule i

/-- A kernel whose virtual cores have all ended completes (R237). -/
def State.checkKernel (s : State) (i c : Nat) : State :=
  match s.ctx? i c with
  | some x =>
    match x.kernel with
    | some k => if s.kernelEnded i k then s.kernelDone i c x k else s
    | none => s
  | none => s

/-! The drain of END and of a stop (R232, R233). -/

/-- All of a virtual core's movers are idle. -/
def State.moversIdle (s : State) (c : Nat) : Bool := !(s.movers.any fun e => e.1.1 == c)

/-- A core's END or drain whose fence has answered. -/
def State.drainDone (s : State) (c : Nat) (st : Status) : State :=
  let x := s.core c
  let i := x.kern.sheet
  match x.run with
  | .blocked (.ending _) =>
    if st = Status.ok then (s.setCore c { x with run := .ended none }).checkKernel i x.kern.ctxIdx
    else
      let s := s.noteFault i x.kern.ctxIdx x.kern.vindex st
      if x.kern.softRemote then
        (s.setCore c { x.ws 1 (BitVec.ofNat 64 st.code) with run := .ended (some st) }).checkKernel i x.kern.ctxIdx
      else
        let s := s.captureFault c st 0 x.pc
        let s := s.setCore c { x with run := .ended (some st) }
        (s.stopKernel i x.kern.ctxIdx).checkKernel i x.kern.ctxIdx
  | .draining _ st0 => (s.setCore c { x with run := .ended st0 }).checkKernel i x.kern.ctxIdx
  | _ => s

/-- An END or drain that can record its fence, or whose fence is met, goes on: the matrix instructions that are earlier than the stop are left to finish
(R204, R233). -/
def State.drainStep (s : State) (c : Nat) : State :=
  let x := s.core c
  let wants := match x.run with
    | .blocked (.ending none) => true
    | .draining none _ => true
    | _ => false
  if wants && x.mq.isEmpty && x.load.isNone && s.moversIdle c && !s.coreHeld x.kern.sheet x.kern.vindex then
    let id := s.ep.nextId
    let s := s.addFence x.kern.sheet x.kern.vindex x.kern.job none false (.drain c)
    let s := s.setCore c { x with run := match x.run with
      | .draining _ st => .draining (some id) st
      | _ => .blocked (.ending (some id)) }
    match s.ep.fences.find? (fun f => f.id == id) with
    | some f => if s.fenceMet f then let r := s.endFence f; r.1.drainDone c r.2 else s
    | none => s
  else s

/-- Every core that waits to drain is looked at. -/
def State.drainAll (s : State) : State := s.cores.foldl (fun s e => s.drainStep e.1) s

/-- A fault (R233), with the drains that can already complete. -/
def State.coreFault (s : State) (c : Nat) (st : Status) (info : Nat := 0) (at_ : Option Nat := none) : State :=
  (s.coreStop c st info at_).drainAll

/-! What follows when the endpoint resolves an operation. -/

/-- The remote fault exception of R53 on the core of a FENCE descriptor's agent (R226): it faults unless its kernel asks for the soft form, which
has no register to write here. One that already waits in END stops with the fence that it recorded. -/
def State.descFault (s : State) (f : Fence) (st : Status) : State :=
  let c := s.homeCore f.sheet f.agent
  let x := s.core c
  if st = Status.ok ∨ 256 ≤ f.agent ∨ x.kern.sheet ≠ f.sheet ∨ x.kern.softRemote = true then s
  else match x.run with
    | .blocked (.ending id) =>
      let s := (s.captureFault c st 0 x.pc).noteFault f.sheet x.kern.ctxIdx x.kern.vindex st
      (s.setCore c { x with run := .draining id (some st) }).stopKernel f.sheet x.kern.ctxIdx
    | _ => if x.run.live then s.coreFault c st else s

/-- The answer of a fence to whoever waits for it (R53, R226). -/
def State.fenceAnswer (s : State) (f : Fence) (st : Status) : State :=
  match f.who with
  | .desc done tag => (s.complete f.sheet done tag st).descFault f st
  | .drain c => s.drainDone c st
  | .instr c d =>
    let x := s.core c
    if st = Status.ok then s.setCore c (({ x with run := .running }.ws d 0).adv)
    else if x.kern.softRemote then s.setCore c (({ x with run := .running }.ws d (BitVec.ofNat 64 st.code)).adv)
    else s.coreFault c st

/-- Every fence that is now met completes. -/
def State.settleFences (s : State) : State :=
  s.ep.fences.foldl (fun s f =>
    if (s.ep.fences.any fun g => g.id == f.id) && s.fenceMet f then let r := s.endFence f; r.1.fenceAnswer f r.2 else s) s

/-- A member of a group has ended: the first failure is kept, and the last member completes the group. A REGION_SET whose readers have not all
acknowledged replies TARGET_LOST, whatever the failure (Table 2.11; DEDUCED, log 403). -/
def State.groupStep (s : State) (gid : Nat) (st : Status) : State :=
  match s.ep.groups.find gid with
  | none => s
  | some g =>
    let g := { g with left := g.left - 1, status := if st = Status.ok then g.status else some (g.status.getD st) }
    if g.left = 0 then
      let s := { s with ep := { s.ep with groups := s.ep.groups.del gid } }
      let r := g.status.getD .ok
      let s := s.complete g.sheet g.doneAddr g.tag r
      match g.owed with
      | some o => s.final o (if r = .ok ∨ r = .tornDown then r else .targetLost)
      | none => s
    else { s with ep := { s.ep with groups := s.ep.groups.put gid g } }

/-- SUBMIT's store has been answered (R27, R229). -/
def State.submitEnd (s : State) (c : Nat) (st : Status) : State :=
  let x := s.core c
  if x.run = .blocked .submit then (if st = .ok then s.setCore c { x with run := .running }.adv else s.coreFault c st) else s

/-- Operations of groups and of SUBMIT that have completed reach their owners. -/
def State.ownerStep (s : State) (e : Nat × Nat × Status) : State :=
  match e.1 with
  | 0 => s.groupStep e.2.1 e.2.2
  | _ => s.submitEnd e.2.1 e.2.2
def State.settleOwners (s : State) : State :=
  (s.ep.done.filter fun e => decide (e.1 < 2)).foldl State.ownerStep
    { s with ep := { s.ep with done := s.ep.done.filter fun e => decide (2 ≤ e.1) } }

/-- An INVALIDATE to a list of readers, completing together (R64). The issuer's own copies of the lines drop at once where it is
among the readers, when the frame arrives. -/
def State.issueInvals (s : State) (sheet agent job : Nat) (readers : List Nat) (line n : Nat) (g : OpGroup) : State :=
  let gid := s.ep.nextId
  let s := { s with ep := { s.ep with nextId := gid + 1, groups := s.ep.groups.put gid { g with left := readers.length } } }
  readers.foldl (fun s r => s.issueInval sheet agent job r line n { OpEnd.none with owner := some (0, gid) }) s

/-- The logical numbers that a job's map names. -/
def State.mapped (s : State) (j : Nat) : List Nat := (List.range (s.job j).n).filter fun l => (s.mapEntry j l).isSome

/-- The INVALIDATE of a REGION_SET, once every earlier operation of the Chartroom's agent on the sheet has been resolved (R42,
R69; the agent is DEDUCED, log 413). -/
def State.tryRegion (s : State) (w : RegionWait) : State :=
  if s.ep.ops.any fun o => o.key.sheet == w.sheet && o.key.agent == 280 && decide (o.id < w.bound) then
    { s with ep := { s.ep with regionWaits := s.ep.regionWaits ++ [w] } }
  else s.issueInvals w.sheet 280 w.job (s.mapped w.job) w.line w.bytes ⟨0, none, w.sheet, 0, 0, some w.owed, s.datum⟩
def State.runRegions (s : State) : State :=
  let l := s.ep.regionWaits
  l.foldl State.tryRegion { s with ep := { s.ep with regionWaits := [] } }

/-- A descriptor that fails at issue (R31, R33, R36, R583): its completion word, and the fence that covers it (DEDUCED, log 55). A FENCE, or
an operation that Table 2.4 lacks, belongs to no stream. -/
def State.descFails (s : State) (q : QDesc) (own : Nat) (st : Status) : State :=
  let op := dAt q.desc 0 1
  let far := if op = 5 ∧ dAt q.desc 16 8 / 2 ^ 44 ≠ own then dAt q.desc 16 8 else dAt q.desc 8 8
  let fin := { rmoEnd q.desc with notify := none }
  if op = 4 ∨ op = 5 ∨ op = 6 ∨ op = 8 then s.failAtIssue ⟨q.sheet, q.agent, q.job, far / 2 ^ 44⟩ (BitVec.ofNat 64 far) fin st
  else s.opEffect q.sheet fin st []

/-- What an INVALIDATE and a NOTIFY read as they issue: the list of readers, the payload. What the others send is read as it is sent (R38). -/
def descReads (d : BitVec 512) : List Access1 :=
  match dAt d 0 1 with
  | 6 => [(dAt d 16 8 % 2 ^ 44, 4 * dAt d 56 4, false)]
  | 8 => [(dAt d 16 8 % 2 ^ 44, dAt d 24 4, false)]
  | _ => []

/-- A waiting descriptor of an agent that may now issue is issued (R42, R50); the rest stay in order. -/
def State.tryDesc (s : State) (q : QDesc) : State :=
  let op := dAt q.desc 0 1
  let own := (s.logicalOf q.job s.sw.devId q.sheet).getD (2 ^ 20)
  let wait := fun s : State => { s with ep := { s.ep with waiting := s.ep.waiting ++ [q] } }
  if s.agentHeld q.sheet q.agent then wait s
  else match s.rmoCheck q.sheet own q.desc with
  | some st => s.descFails q own st
  | none =>
  if op = 7 then
    let scope := if bitOf (dAt q.desc 2 2) 3 then some (dAt q.desc 8 8 / 2 ^ 44) else none
    let id := s.ep.nextId
    let s := s.addFence q.sheet q.agent q.job scope (bitOf (dAt q.desc 2 2) 2) (.desc (dAt q.desc 48 8) (dAt q.desc 28 4))
    match s.ep.fences.find? (fun f => f.id == id) with
    | some f => if s.fenceMet f then let r := s.endFence f; r.1.fenceAnswer f r.2 else s
    | none => s
  else if op = 6 ∧ s.agentBusy q.sheet q.agent = true then wait s
  else match s.meets q.sheet 2 (descReads q.desc) with
  | (s, some st) => s.descFails q own st
  | (s, none) =>
    if op = 6 then
      let n := dAt q.desc 56 4
      let readers := (List.range n).map fun j => s.rdN q.sheet (dAt q.desc 16 8 % 2 ^ 44 + 4 * j) 4
      let g : OpGroup := ⟨0, none, q.sheet, dAt q.desc 48 8, dAt q.desc 28 4, none, s.datum⟩
      s.issueInvals q.sheet q.agent q.job readers (dAt q.desc 8 8 % 2 ^ 44) (dAt q.desc 24 4) g
    else s.issueDesc q own

/-- The waiting descriptors offered again, in order. -/
def State.runWaiting (s : State) : State :=
  let l := s.ep.waiting
  l.foldl State.tryDesc { s with ep := { s.ep with waiting := [] } }

/-- A core stalled at a remote instruction goes on when its agent may issue and its stream has room (R43). -/
def State.resumeIssue (s : State) (c : Nat) : State :=
  let x := s.core c
  match x.run with
  | .blocked (.issue r) =>
    let k : StreamKey := ⟨x.kern.sheet, x.kern.vindex, x.kern.job, fld r.addr 63 44⟩
    if s.coreHeld x.kern.sheet x.kern.vindex || decide (65536 ≤ (s.stream k).unacked) then s
    else (s.setCore c ({ x with run := .running }.adv)).issueCore c r
  | _ => s

/-- Owners, fences, waiting descriptors and drains looked at after operations have been resolved. -/
def State.settle (s : State) : State := ((((s.settleOwners).settleFences).runWaiting.runRegions).settleOwners).drainAll

/-- An operation whose frames are all resolved: the NOTIFY of notify_on_done follows, as a frame that the stream's limit and the pair of R55 govern
like any other (R37, R43, R55), or it completes. -/
def State.opDone (s : State) (o : RemoteOp) (data : List Byte) : State :=
  let st := o.status.getD .ok
  match o.fin.notify, o.status with
  | some (sem, inc), none =>
    let k : StreamKey := { o.key with dst := sem / 2 ^ 44 }
    let f := s.reqFrame k.sheet k.agent k.job ((s.mapEntry k.job k.dst).getD 0) 8 1
    let o := { o with
      key := k, addr := BitVec.ofNat 64 sem, left := 0, sent := false, fin := { o.fin with notify := none }
      todo := [notifyFrame f (sem % 2 ^ 44) sem inc []] }
    let s := s.dropWritten k.job k.dst (sem % 2 ^ 44) 8
    if s.pairLost k o.fin then (s.dropOp o.id).failAtIssue k o.addr o.fin .targetLost else (s.setOp o).pump o.id
  | _, _ => ((s.dropOp o.id).opEffect o.key.sheet o.fin st data).ownerNote o.fin st

/-- A replay-buffer entry resolved with a status: freed, counted for its stream (R545), its failure kept for the fence that
covers it (R53), and its operation completed with its last frame, whatever failed before it (DEDUCED, log 411). -/
def State.resolve (s : State) (e : ReplayEntry) (st : Status) (data : List Byte) : State :=
  let s := { s with ep := { s.ep with replay := s.ep.replay.filter fun x => !(x.key == e.key && x.seq == e.seq) } }
  let x := s.stream e.key
  let s := s.setStream e.key (if st = Status.ok then { x with acked := x.acked + 1 } else { x with failed := x.failed + 1 })
  let a : Word := BitVec.ofNat 64 (e.key.dst * 2 ^ 44 + e.frame.addr.toNat)
  let s := if st = Status.ok then s else { s with ep := { s.ep with failures := s.ep.failures ++ [Failure.mk e.key e.seq false st a] } }
  let s := match e.get with
    | some (i, a) => if st = Status.ok then s.write i a data else s
    | none => s
  match s.opOf e.op with
  | none => s
  | some o =>
    let o := { o with left := o.left - 1, status := if st = Status.ok then o.status else some (o.status.getD st) }
    let s := s.setOp o
    if o.left = 0 ∧ o.todo.isEmpty then s.opDone o data else s

end Sys2Proof.Machine
end

