-- ==== Sys2Proof/Machine/Training.lean ====
section
/-! DEFINITION. The commands of chapter 9: scale recipes (R264 to R268), the quantizers (R269 to R276, R283 to R285) and Hachure
(R277 to R282). -/

namespace Sys2Proof.Machine

/-! Recipes. -/

structure Recipe where
  fmt : Nat
  block : Nat
  margin : Nat
  smax : Nat
  flush : Bool

/-- A recipe in the encoding of HCH_RECIPE (Table 9.16). -/
def recipeOf (w : Nat) : Recipe := ⟨bitsOf w 3 0, bitsOf w 9 8, bitsOf w 16 13, bitsOf w 23 17, bitOf w 12⟩
def State.recipe (s : State) (i k : Nat) : Recipe := recipeOf (s.reg ⟨.HCH_RECIPE, 0, 8 * i + k⟩).toNat

/-- The block and format pairs of Table 9.2. -/
def recipeOk (w : Nat) : Bool :=
  let r := recipeOf w
  if r.fmt = 0 then r.block == 0 else if r.fmt ≤ 8 then r.block != 3 else if r.fmt ≤ 14 then r.block == 3 else false

/-- The bits of HCH_RECIPE that are not resv. -/
def recipeBits (w : Nat) : Nat :=
  let r := recipeOf w
  r.smax * 2 ^ 17 + r.margin * 2 ^ 13 + b2n r.flush * 2 ^ 12 + r.block * 2 ^ 8 + r.fmt

def State.setRecipe (s : State) (i k w : Nat) : State := s.setReg ⟨.HCH_RECIPE, 0, 8 * i + k⟩ (BitVec.ofNat 64 (recipeBits w))

/-- A write to HCH_RECIPE of a sheet and kind (Table 9.16). -/
def State.recipeWrite (s : State) (i k : Nat) (w : Word) : State :=
  if recipeOk w.toNat then s.setRecipe i k w.toNat else s.regRefused 25 0
def execHchRecipe (i : Fin 8) (k : Fin 7) (w : Word) (s : State) : Res := .next (s.recipeWrite i k w)

/-- The recipes that hold after reset and after an admission that names none (Table 9.3). -/
def State.resetRecipes (s : State) (i : Nat) : State := (List.range 7).foldl (fun s k => s.setRecipe i k (recipeReset k)) s

/-- RECIPE_SET (R264). Recipes with a bit outside the fields of HCH_RECIPE break its encoding. -/
def bodyRecipeSet : CmdBody := fun s _ h p =>
    let mask := uAt p 0 1
    let rec_ := fun k => uAt p (8 + 8 * k) 8
    match firstFail ([lenIs p 64, needSheet h, (decide (mask < 128), .badP 0), (zeros p 1 7, .badP 1)] ++
        (List.range 7).map fun k => (if bitOf mask k then recipeOk (rec_ k) && rec_ k == recipeBits (rec_ k) else rec_ k == 0, .badP (8 + 8 * k))) with
    | some a => (s, a)
    | none => (((List.range 7).filter (bitOf mask)).foldl (fun s k => s.setRecipe h.sheet.toNat k (rec_ k)) s, .ok)
def execRecipeSet (h : CmdHdr) (p : List Byte) (s : State) : Res := .next (s.command 0x0303 h p bodyRecipeSet)

/-! Quantization (R265 to R268, R274). -/

/-- The exponent of the largest power of two not above the largest finite value (Table 9.2). -/
def emaxOf (fmt : Nat) : Int :=
  match fmt with
  | 0 | 1 => 127
  | 2 | 4 | 10 => 15
  | 3 | 9 => 8
  | 5 | 7 | 11 | 13 => 2
  | 6 | 12 => 4
  | 8 => 6
  | _ => 0

/-- The floating-point format of a recipe's elements; none for the integer formats. -/
def elemFmt (fmt : Nat) : Option FFmt :=
  match fmt with
  | 0 => some fp32
  | 1 => some bf16
  | 2 => some fp16
  | 3 | 9 => some e4m3
  | 4 | 10 => some e5m2
  | 5 | 11 => some e2m3
  | 6 | 12 => some e3m2
  | 7 | 13 => some e2m1
  | _ => none

/-- Bits of an element. -/
def elemBits (fmt : Nat) : Nat := match elemFmt fmt with
  | some f => f.width
  | none => 8

/-- The least c with m · 2^e ≤ 2^c, for a non-zero magnitude. -/
def ceilLog (m : Nat) (e : Int) : Int := e + bitLen (m - 1)

/-- The scale exponent of a block and whether the clamp changed it (R266). -/
def blockScale (r : Recipe) (xs : List FVal) : Int × Bool :=
  let cs := xs.filterMap fun
    | .fin _ m e => if m = 0 then none else some (ceilLog m e)
    | _ => none
  match cs with
  | [] => (0, false)
  | c :: l =>
    let s := emaxOf r.fmt - l.foldl max c - r.margin
    let t : Int := max (-127) (min (r.smax : Int) s)
    (t, decide (t ≠ s))

/-- The losses of one element (R268). -/
structure Loss where
  under : Nat
  sat : Nat
  flush : Nat
  deriving DecidableEq, Repr

/-- An element scaled by 2^s, converted once (R266, R267, Table 8.2), with its losses. An MXINT8 element stands for its integer
times 2^-6 (R243). -/
def quantElem (r : Recipe) (s : Int) (x : FVal) : Nat × Loss :=
  let bad : Bool := match x with
    | .fin _ _ _ => false
    | _ => true
  let y := x.scale s
  match elemFmt r.fmt with
  | some f =>
    let z := (cvtFp f y).1
    let sat : Bool := bad || (match y, f.decode (f.maxFin false) with
      | .fin _ m e, .fin _ m' e' => cmpVal (.fin false m e) (.fin false m' e') == .gt
      | _, _ => false)
    let zf := bitsOf z (f.ebits + f.mbits - 1) 0
    let sub := decide (zf ≠ 0 ∧ zf < 2 ^ f.mbits)
    if r.flush && sub then (f.zero (bitOf z (f.ebits + f.mbits)), ⟨0, b2n sat, 1⟩)
    else (z, ⟨b2n (!bad && !x.isZero && zf == 0), b2n sat, 0⟩)
  | none =>
    let v := if r.fmt = 14 then y.scale 6 else y
    let z := (toInt 8 false v).1
    let sat : Bool := bad || (match v with
      | .fin n m e => cmpVal (.fin n m e) (FVal.ofInt 127) == .gt || cmpVal (.fin n m e) (FVal.ofInt (-128)) == .lt
      | _ => true)
    (toBits 8 z, ⟨b2n (!bad && !x.isZero && z == 0), b2n sat, 0⟩)

/-- Codes of w bits packed little-endian with no gaps (R242). -/
def packBits (w : Nat) (l : List Nat) : List Byte :=
  leBytes (ceilDiv (w * l.length) 8) (l.foldr (fun c n => n * 2 ^ w + c % 2 ^ w) 0)

/-- One block quantized: its scale, its codes, its losses and whether the clamp changed the scale. -/
def quantBlock (r : Recipe) (xs : List FVal) : Int × List Nat × List Loss × Bool :=
  let sc := if r.block = 0 then (0, false) else blockScale r xs
  let e := xs.map (quantElem r sc.1)
  (sc.1, e.map (·.1), e.map (·.2), sc.2)

/-- Losses added to the counters of a sheet and kind. -/
def State.countLoss (s : State) (i k : Nat) (ls : List Loss) (clamps : Nat) : State :=
  let s := s.bump F.HCH_Q_UNDERFLOW_underflows 0 (8 * i + k) (sumOf ls Loss.under)
  let s := s.bump F.HCH_Q_OVERFLOW_overflows 0 (8 * i + k) (sumOf ls Loss.sat)
  let s := s.bump F.HCH_Q_FLUSH_flushes 0 (8 * i + k) (sumOf ls Loss.flush)
  s.bump F.HCH_Q_CLAMP_clamps 0 (8 * i + k) clamps

/-! Quantizer descriptors (Table 9.4). -/

structure QntDesc where
  op : Nat
  sel : Nat
  report : Bool
  bf : Bool
  sp : Nat
  regen : Bool
  rows : Nat
  elems : Nat
  step : Nat
  src : Nat
  dst : Nat
  aux : Nat
  sst : Nat
  dstr : Nat
  period : Nat

def qntDesc (d : BitVec 512) : QntDesc :=
  let f := dAt d 2 2
  ⟨dAt d 0 1, dAt d 1 1, bitOf f 0, bitOf f 1, bitsOf f 3 2, bitOf f 4, dAt d 4 4, dAt d 8 4, dAt d 12 4, dAt d 16 8, dAt d 24 8,
    dAt d 32 8, dAt d 40 4, dAt d 44 4, dAt d 60 2⟩

/-- The matrix format code of a recipe's format (Table 7.10), where it has one that is not MX. -/
def matCode (fmt : Nat) : Option Nat :=
  match fmt with
  | 1 => some 12
  | 2 => some 13
  | 3 => some 1
  | 4 => some 2
  | 5 => some 6
  | 6 => some 7
  | 7 => some 8
  | 8 => some 0
  | _ => none

/-- The packed bytes of a row, rounded up to 8 (R274). -/
def packedRow (fmt n : Nat) : Nat := alignUp (ceilDiv (elemBits fmt * n) 8) 8

/-- Table 9.4, Table 9.5 and the blocks that an op permits (R270). r is the recipe of the op's kind. -/
def qntFormatOk (d : BitVec 512) (r : Recipe) : Bool :=
  let q := qntDesc d
  decide (1 ≤ q.op ∧ q.op ≤ 3) && (q.op != 1 || decide (q.sel ≤ 6)) && dAt d 2 2 / 32 == 0 && dAt d 62 2 == 0 &&
  (if q.op == 3 then q.sp != 0 else q.sp == 0) && (q.op == 3 || q.period == 0) && decide (1 ≤ q.elems ∧ q.elems ≤ 65536) &&
  dAt d 48 8 % 8 == 0 &&
  (if q.op == 3 then
    (match matCode r.fmt with
      | some m => decide (1 ≤ q.rows) && q.rows % denseK m q.sp == 0
      | none => false) && q.elems % 128 == 0 && q.dstr == 0 && decide (r.block ≤ 1)
  else decide (1 ≤ q.rows ∧ q.rows ≤ 65536)) &&
  (q.op != 1 || ((r.block != 3 || q.elems % 32 == 0) && decide (packedRow r.fmt q.elems ≤ q.dstr)))

/-- The addresses of a descriptor, the completion word's among them, lie in data windows of their sheet (R270). -/
def State.qntAddrs (s : State) (i : Nat) (d : BitVec 512) : Bool :=
  ([16, 24, 32].all fun o => s.inData i (dAt d o 8) 1) && (dAt d 48 8 == 0 || s.inData i (dAt d 48 8) 8)

/-- The effect of the operation at the head of quantizer p, if it is operation op and has not run: the checks of R270, then g, which
answers the state and the completion status. -/
def State.qntRun (s : State) (p op : Nat) (g : State → CoreKernel → QntDesc → Recipe → State × Status) : State :=
  match s.quant.getD p [] with
  | ⟨d, c, k, none⟩ :: l =>
    if dAt d 0 1 ≠ op then s
    else
      let r := s.recipe k.sheet (if op = 1 then dAt d 1 1 else 0)
      let a := if !qntFormatOk d r then (s, .descFormat) else if !s.qntAddrs k.sheet d then (s, .addressRange) else g s k (qntDesc d) r
      { a.1 with quant := a.1.quant.put p (⟨d, c, k, some a.2⟩ :: l) }
  | _ => s

/-- Accesses checked (R270), then an effect. -/
def State.qntChecked (s : State) (k : CoreKernel) (l : List Access1) (g : State → State × Status) : State × Status :=
  let r := s.access k.sheet k.job k.logical l
  if r.2 = Status.ok then g r.1 else r

/-- The source elements of QUANTIZE, row by row. -/
def State.qntRows (s : State) (i : Nat) (q : QntDesc) : List (List FVal) :=
  (List.range q.rows).map fun r => (List.range q.elems).map fun j =>
    if q.bf then bf16.decode (s.rdN i (q.src + r * q.sst + 2 * j) 2) else fp32.decode (s.rdN i (q.src + r * q.sst + 4 * j) 4)

/-- Runs of n elements of a list. -/
def runsOf {α : Type} (n : Nat) (l : List α) : List (List α) := (List.range (ceilDiv l.length n)).map fun j => (l.drop (n * j)).take n

/-- Rows put back together from blocks that lie one after another. -/
abbrev QBlock := Int × List Nat × List Loss × Bool

/-- The blocks of a QUANTIZE (R265), in element order. -/
def quantBlocks (r : Recipe) (rows : List (List FVal)) : List QBlock :=
  match r.block with
  | 3 => rows.flatMap fun x => (runsOf 32 x).map (quantBlock r)
  | 1 => [quantBlock r rows.flatten]
  | _ => rows.map (quantBlock r)

/-- The scales that QUANTIZE writes at aux (R274). -/
def quantScales (r : Recipe) (bs : List QBlock) : List Byte :=
  match r.block with
  | 0 => []
  | 3 => bs.map fun b => BitVec.ofInt 8 (127 - b.1)
  | _ => bs.flatMap fun b => leBytes 4 (toBits 32 b.1)

/-- QUANTIZE (R274). What the bytes hold that round a packed row up to 8 the spec does not say: free values (log 31). -/
def execQuantize (c : Fin 256) (s : State) : Res :=
  .next (s.qntRun c 1 fun s k q r =>
    let es := if q.bf then 2 else 4
    let rows := s.qntRows k.sheet q
    let bs := quantBlocks r rows
    let codes := runsOf q.elems (bs.flatMap fun b => b.2.1)
    let sc := quantScales r bs
    let n := packedRow r.fmt q.elems
    s.qntChecked k ((List.range q.rows).flatMap (fun j => [(q.src + j * q.sst, es * q.elems, false), (q.dst + j * q.dstr, n, true)]) ++
        [(q.aux, sc.length, true)]) fun s =>
      let s' := codes.zipIdx.foldl (fun t e =>
        let b := packBits (elemBits r.fmt) e.1
        t.write k.sheet (q.dst + e.2 * q.dstr) (b ++ (List.range (n - b.length)).map fun j => (Config.openWord (4 :: j :: e.1)).truncate 8)) s
      let s' := s'.write k.sheet q.aux sc
      (s'.countLoss k.sheet q.sel (bs.flatMap fun b => b.2.2.1) (bs.filter fun b => b.2.2.2).length, .ok))

/-! UPDATE (R275, R277). -/

/-- The exponent of ulp of a BF16 magnitude with n · 2^q: e − 7 for a value in [2^e, 2^(e+1)), −133 for zero and subnormals. -/
def ulpExp (m : Nat) (e : Int) : Int := if m = 0 then -133 else max (-133) (e + bitLen m - 8)

/-- w′, r′ and whether the overflow counter counts the element. -/
def updateElem (w r u : Nat) : Nat × Nat × Bool :=
  match bf16.decode w, fp32.decode u with
  | .nan _, _ => (bf16.qnan, 0, true)
  | _, .nan _ => (bf16.qnan, 0, true)
  | .inf a, .inf b => if a = b then (w, 0, true) else (bf16.qnan, 0, true)
  | .inf _, .fin _ _ _ => (w, 0, false)
  | .fin _ _ _, .inf b => (bf16.infBits b, 0, true)
  | .fin nw mw ew, .fin nu mu eu =>
    -- every term is a whole number of units of 2^-149
    let x : Int := unitsAt nw mw ew (-149) + unitsAt nu mu eu (-149) + sInt 8 r * 2 ^ (ulpExp mw ew + 141).toNat
    let q : Int := ulpExp x.natAbs (-149)
    let k := (q + 149).toNat
    let n : Int := (x + 2 ^ (k - 1)) / 2 ^ k
    let neg := decide (x < 0)
    if 2 ^ 8 * 2 ^ 120 ≤ n.natAbs * 2 ^ (q + 133).toNat / 2 ^ 133 then (bf16.infBits neg, 0, true)
    else
      let w' := if n = 0 then bf16.zero neg else (roundFin bf16 false neg n.natAbs q false).1
      let k' := (ulpExp n.natAbs q + 149).toNat
      let z := (x - n * 2 ^ k) * 256
      let zr := rneShift z.natAbs k' false
      let zi : Int := if z < 0 then -(zr.1 : Int) else zr.1
      (w', toBits 8 (min 127 zi), false)

/-- A square truncated to a multiple of 2^-200, in units of 2^-200. -/
def squareUnits (m : Nat) (e : Int) : Nat :=
  let k := 2 * e + 200
  if 0 ≤ k then m * m * 2 ^ k.toNat else m * m / 2 ^ (-k).toNat

/-- The accumulators of a report (R277): the sums of u² and w² and the non-finite flag. -/
def reportOf (l : List (Nat × Nat)) : Nat × Nat × Bool :=
  l.foldl (fun a e => match bf16.decode e.1, fp32.decode e.2 with
    | .fin _ mw ew, .fin _ mu eu => (a.1 + squareUnits mu eu, a.2.1 + squareUnits mw ew, a.2.2)
    | _, _ => (a.1, a.2.1, true)) (0, 0, false)

/-- Whether Hachure has evaluated a step of a layer (R282). -/
def State.hchEvaluated (s : State) (i layer step : Nat) : Bool :=
  decide (step < s.hch.below.getD i 0) || (match s.hch.layers.find (i, layer) with
    | some x => decide (step ≤ x.step)
    | none => false)

/-- A report added, or discarded as late (R282). -/
def State.hchReport (s : State) (i layer step : Nat) (a : Nat × Nat × Bool) : State :=
  if s.hchEvaluated i layer step then
    (s.bump F.HCH_LATE_CNT_late 0 0 1).event { code := .hachureLate, sheet := some i, params := [i, layer, step] }
  else
    let r := s.hch.reports.upd (i, layer, step) (0, 0, false) fun b => (b.1 + a.1, b.2.1 + a.2.1, b.2.2 || a.2.2)
    { s with hch := { s.hch with reports := r } }

/-- UPDATE (R275, R277, R282). -/
def execUpdateDesc (c : Fin 256) (s : State) : Res :=
  .next (s.qntRun c 2 fun s k q _ =>
    let i := k.sheet
    let row := fun r => (List.range q.elems).map fun j =>
      (s.rdN i (q.dst + r * q.dstr + 2 * j) 2, s.rdN i (q.aux + r * (q.dstr / 2) + j) 1, s.rdN i (q.src + r * q.sst + 4 * j) 4)
    let rows := (List.range q.rows).map row
    s.qntChecked k ((List.range q.rows).flatMap fun j => [(q.src + j * q.sst, 4 * q.elems, false), (q.dst + j * q.dstr, 2 * q.elems, false),
        (q.dst + j * q.dstr, 2 * q.elems, true), (q.aux + j * (q.dstr / 2), q.elems, false), (q.aux + j * (q.dstr / 2), q.elems, true)]) fun s =>
      let outs := rows.map fun r => r.map fun e => updateElem e.1 e.2.1 e.2.2
      let s := outs.zipIdx.foldl (fun s e =>
        (s.write i (q.dst + e.2 * q.dstr) (e.1.flatMap fun o => leBytes 2 o.1)).write i (q.aux + e.2 * (q.dstr / 2))
          (e.1.map fun o => BitVec.ofNat 8 o.2.1)) s
      let s := s.bump F.HCH_Q_OVERFLOW_overflows 0 (8 * i) (sumOf outs fun r => (r.filter fun o => o.2.2).length)
      (if q.report then s.hchReport i q.sel q.step (reportOf (rows.flatten.map fun e => (e.1, e.2.2))) else s, .ok))

/-! PRUNE (R283 to R285). -/

/-- The rank key of a BF16 magnitude: NaN above every number. -/
def magKey (x : Nat) : Nat := match bf16.decode x with
  | .nan _ => 2 ^ 15
  | _ => x % 2 ^ 15

/-- The kept positions of one group, in ascending order: the n largest magnitudes, of equals the lower position. -/
def keptOf (n : Nat) (g : List Nat) : List Nat :=
  let order := sortBy (fun p => 2 ^ 15 - magKey (g.getD p 0)) (List.range g.length)
  sortBy id (order.take n)

/-- Metadata bytes of a tile (R186). -/
def metaTile (m : Nat) : Nat := 128 * metaRow m

/-- Byte i of a tile's metadata from its slots (Table 6.5); slot w n is that of weight w of column n. -/
def metaByte (m : Nat) (slot : Nat → Nat → Nat) (i : Nat) : Byte :=
  let k := i / metaRow m
  let j := i % metaRow m
  BitVec.ofNat 8 (if (matFmt m).two then slot (2 * k) j + 16 * slot (2 * k + 1) j else slot k (2 * j) + 16 * slot k (2 * j + 1))

/-- PRUNE. -/
def execPrune (c : Fin 256) (s : State) : Res :=
  .next (s.qntRun c 3 fun s k q r =>
    let i := k.sheet
    let m := (matCode r.fmt).getD 0
    let hv := halves m
    let dk := denseK m q.sp
    let n := spN q.sp
    let g := spG q.sp
    let t := q.rows / dk
    let nts := q.elems / 128
    let mt := metaTile m
    let tb := 128 * rowBytes m
    let tiles := (List.range nts).flatMap fun nt => (List.range t).map fun kt => (kt, nt)
    let fresh := q.regen || (q.period != 0 && q.step % max 1 q.period == 0)
    let val := fun kk j => s.rdN i (q.src + kk * q.sst + 2 * j) 2
    -- the tile's metadata: newly formed, or as it stands at aux
    let metaOf := fun (x : Nat × Nat) =>
      if fresh then
        (List.range mt).map (metaByte m fun w col =>
          8 + (keptOf n ((List.range g).map fun p => val (x.1 * dk + g * (w / n) + p) (x.2 * 128 + col))).getD (w % n) 0)
      else s.rd i (q.aux + (x.2 * t + x.1) * mt) mt
    let tileOf := fun x : Nat × Nat => ({ fmt := m, sp := q.sp, kext := 0, data := [], metaB := metaOf x, scale := [], viol := none, pc := 0 } : WTile)
    let reads : List Access1 := (List.range q.rows).map fun kk => (q.src + kk * q.sst, 2 * q.elems, false)
    let auxN := tiles.length * mt
    s.qntChecked k (reads ++ (if fresh then [(q.aux, auxN + 4, true)] else [(q.aux, auxN, false), (q.aux + auxN, 4, true)]) ++
        [(q.dst, tiles.length * tb, true)]) fun s =>
      let ts := tiles.map tileOf
      if !fresh && ts.any (fun x => (tileViol x).isSome) then (s, .sparseMeta)
      else
        -- the kept weights of every tile, in the order of their cells
        let cells := (List.range 128).flatMap fun row => (List.range 128).flatMap fun col => (List.range hv).map fun h => (row, h, col)
        let kept := (tiles.zip ts).map fun x => cells.map fun e =>
          bf16.decode (val (x.1.1 * dk + tileK x.2 (e.1 * hv + e.2.1) e.2.2) (x.1.2 * 128 + e.2.2))
        let b := quantBlock r kept.flatten
        let codes := runsOf (128 * 128 * hv) b.2.1
        let s := codes.zipIdx.foldl (fun s e => s.write i (q.dst + e.2 * tb) ((runsOf (128 * hv) e.1).flatMap (packBits (matFmt m).bits))) s
        let s := if fresh then s.write i q.aux (ts.flatMap WTile.metaB) else s
        let s := s.write i (q.aux + auxN) (leBytes 4 (toBits 32 b.1))
        (s.countLoss i 0 b.2.2.1 (b2n b.2.2.2), .ok))

/-! The quantizers' queues. -/

/-- MOV_QNT_SUBMIT (R269): a core stores the offset of a descriptor in its own scratchpad to the page of core c of its sheet; a
full quantizer keeps the store, and the core stalls, until it accepts it. The descriptor is read at acceptance: one that reads with an uncorrectable error
ends with it (R174). Reserved bits set, or an offset that is not 64 B-aligned, name no descriptor: the write is refused (log 32). -/
def State.qntSubmit (s : State) (p home : Nat) (w : Word) : State :=
  let l := s.quant.getD p []
  if fld w 63 24 ≠ 0 ∨ fld w 5 0 ≠ 0 then s.regRefused 2 p
  else if 8 ≤ l.length then { s with quantHeld := s.quantHeld ++ [(p, home, w)] }
  else
    let r := s.scrReads home [(fld w 23 0, 64)]
    { r.1 with quant := r.1.quant.put p (l ++ [⟨BitVec.ofNat 512 (leNat (s.scrRd home (fld w 23 0) 64)), home, (s.core home).kern, r.2⟩]) }

/-- The oldest store that quantizer p keeps is accepted, if it has room. -/
def State.qntAccept (s : State) (p : Nat) : State :=
  match s.quantHeld.find? fun e => e.1 == p with
  | some e => if 8 ≤ (s.quant.getD p []).length then s else ({ s with quantHeld := s.quantHeld.erase e } : State).qntSubmit p e.2.1 e.2.2
  | none => s

/-- A core with home position u stores to MOV_QNT_SUBMIT of core c; the cores of other sheets may not (R29), and a core that runs no
kernel stores nothing. -/
def execMovQntSubmit (c : Fin 256) (u : Fin 256) (w : Word) (s : State) : Res :=
  .next (if s.octSheet (c / 32) = s.octSheet (u / 32) ∧ (s.octSheet (u / 32)).isSome ∧ (s.core u).run ≠ .idle then s.qntSubmit c u w else s)

/-- A quantizer operation is finished (R270): the completion word, the capture, and its place is free. -/
def execQuantizerComplete (c : Fin 256) (s : State) : Res :=
  .next (match s.quant.getD c.val [] with
    | m :: l =>
      let op := dAt m.desc 0 1
      match (if op = 0 ∨ 3 < op then some Status.descFormat else m.done) with
      | none => s
      | some st =>
        let tag := dAt m.desc 56 4
        let s := { s with quant := if l.isEmpty then s.quant.del c.val else s.quant.put c.val l }
        let s := if st = Status.ok then s else s.capture ⟨.MOV_QNT_STATUS, c, 0⟩ (tag * 2 ^ 16 + st.code) []
        (s.complete m.kern.sheet (dAt m.desc 48 8) tag st).qntAccept c
    | [] => s)

/-- A W1C write of MOV_QNT_STATUS re-arms the capture. -/
def execMovQntStatus (c : Fin 256) (w : Word) (s : State) : Res := .next (s.rearm ⟨.MOV_QNT_STATUS, c, 0⟩ w)

/-! Hachure. -/

/-- √(su / sw) rounded to FP32 (R279). -/
def hchRatio (su sw : Nat) (bad : Bool) : Nat :=
  if bad then fp32.qnan
  else if su = 0 then 0
  else if sw = 0 then fp32.infBits false
  else
    let n := su * 2 ^ 1200
    let r := isqrt (n / sw)
    (roundFin fp32 false false r (-600) (decide (r * r * sw ≠ n))).1

/-- The runs of Table 9.6. -/
def hchRuns (ratio floor ceiling low high : Nat) : Nat × Nat :=
  match fp32.decode ratio with
  | .nan _ => (0, min 65535 (high + 1))
  | _ => if (fCmp fp32 1 ratio floor).1 then (min 65535 (low + 1), 0)
    else if (fCmp fp32 1 ceiling ratio).1 then (0, min 65535 (high + 1))
    else (0, 0)

/-- A halt of sheet i (R281). -/
def State.hchHalt (s : State) (i : Nat) : State :=
  let h := s.get F.HCH_STATUS_halted
  if bitOf h i then s
  else (s.set F.HCH_STATUS_halted 0 0 (h + 2 ^ i)).event { code := .trainingHalted, sheet := some i, params := [i], report := true }

/-- One layer's report of one step evaluated (R279 to R281). -/
def State.hchEval1 (s : State) (i layer step : Nat) (a : Nat × Nat × Bool) : State :=
  let ratio := hchRatio a.1 a.2.1 a.2.2
  let x := s.hch.layers.getD (i, layer) ⟨0, 0, 0, 0, false, false⟩
  let runs := hchRuns ratio (s.get F.HCH_BOUNDS_floor 0 i) (s.get F.HCH_BOUNDS_ceiling 0 i) x.low x.high
  let lim := max 1 (s.get F.HCH_LIMIT_limit 0 i)
  let stalled := decide (runs.1 = lim) && !x.told.1
  let diverged := decide (runs.2 = lim) && !x.told.2
  let told := (decide (runs.1 ≠ 0) && (x.told.1 || stalled), decide (runs.2 ≠ 0) && (x.told.2 || diverged))
  let s := { s with hch := { s.hch with
    layers := s.hch.layers.put (i, layer) ⟨runs.1, runs.2, step, ratio, told⟩, reports := s.hch.reports.del (i, layer, step) } }
  let s := if stalled then s.event { code := .stalledLayer, sheet := some i, params := [i, layer, step, ratio], report := true } else s
  let s := if diverged then s.event { code := .divergingLayer, sheet := some i, params := [i, layer, step, ratio], report := true } else s
  if (stalled || diverged) && s.get F.HCH_LIMIT_halt 0 i == 1 then s.hchHalt i else s

/-- Every report of sheet i for the steps below a number, in ascending step. -/
def State.hchEval (s : State) (i below : Nat) : State :=
  let l := s.hch.reports.filter fun e => e.1.1 == i && decide (e.1.2.2 < below)
  (sortBy (fun e => e.1.2.2) l).foldl (fun s e => s.hchEval1 i e.1.2.1 e.1.2.2 e.2) s

/-- The step boundary of R278 at a submission of step n. -/
def State.hchBoundary (s : State) (i n : Nat) : State :=
  if s.get F.HCH_CTL_enable = 0 then s
  else
    let s := s.hchEval i n
    { s with hch := { s.hch with below := s.hch.below.put i (max n (s.hch.below.getD i 0)) } }

def State.halted (s : State) (i : Nat) : Bool := bitOf (s.get F.HCH_STATUS_halted) i

/-- HCH_CTL.eval_now: every sheet's reported layers (R278). -/
def State.evalNow (s : State) : State := (List.range 8).foldl (fun s i => s.hchEval i (2 ^ 32)) s
def execHchCtlEvalNow (s : State) : Res := .next s.evalNow

/-- A W1C write of HCH_STATUS ends halts (R281). -/
def State.haltWrite (s : State) (w : Word) : State :=
  s.set F.HCH_STATUS_halted 0 0 (s.get F.HCH_STATUS_halted &&& (255 - fld w 7 0))
def execHchStatus (w : Word) (s : State) : Res := .next (s.haltWrite w)

end Sys2Proof.Machine
end

