-- ==== Sys2Proof/Machine/Routing.lean ====
section
/-! DEFINITION. The commands of chapter 3 that write and switch the routing structures (R71 to R77) and run the Survey unit (R78 to
R95), with the halves, hashing, candidate sets, scoring and gating that they rest on. -/

namespace Sys2Proof.Machine

/-! Layer records. -/

/-- A layer record in use (Table 3.1). -/
structure LayerRec where
  mode : Nat
  sizeLog2 : Nat
  k : Nat
  sigmoid : Bool
  renorm : Bool
  bias : Bool
  overflow : Nat
  maxDefer : Nat
  relaxed : Bool
  spares : Nat
  dim : Nat
  count : Nat
  seed : Nat
  segment : Nat
  base : Nat
  gateA : Nat
  biasA : Nat
  projA : Nat
  capA : Nat
  plistA : Nat
  plistN : Nat
  tokenBytes : Nat
  pool : Nat

def layerRec (b : List Byte) : LayerRec :=
  let g := uAt b 3 1
  ⟨uAt b 0 1, uAt b 1 1, uAt b 2 1, bitOf g 0, bitOf g 1, bitOf g 2, uAt b 4 1, uAt b 5 1, uAt b 6 1 == 1, uAt b 7 1, uAt b 8 2,
    uAt b 12 4, uAt b 16 8, uAt b 24 4, uAt b 28 4, uAt b 32 8, uAt b 40 8, uAt b 48 8, uAt b 56 8, uAt b 64 8, uAt b 72 4,
    uAt b 76 4, uAt b 80 1⟩

/-- R71 and Table 3.1 over the parameters of LAYER_SET, whose record begins at byte 8. -/
def layerChecks (p : List Byte) : List (Bool × Ans) :=
  let b := p.drop 8
  let r := layerRec b
  let off := r.mode == 255
  let ok := fun (c : Bool) (o : Nat) => (off || c, Ans.badP (8 + o))
  [(zeros p 1 7, .badP 1), (decide (r.mode ≤ 2) || off, .badP 8),
    ok (if r.mode = 2 then r.sizeLog2 == 0 else decide (1 ≤ r.sizeLog2 ∧ r.sizeLog2 ≤ 26)) 1,
    ok (decide (1 ≤ r.k ∧ r.k ≤ 16)) 2, (uAt b 3 1 / 8 == 0, .badP 11), ok (decide (r.overflow ≤ 2)) 4, ok (decide (r.maxDefer ≤ 8)) 5,
    ok (decide (uAt b 6 1 ≤ 1)) 6, ok (decide (r.spares ≤ if r.overflow = 1 then 4 else 0)) 7,
    ok (decide (16 ≤ r.dim ∧ r.dim ≤ 1024) && r.dim % 16 == 0) 8, (zeros b 10 2, .badP 18),
    ok (decide (1 ≤ r.count ∧ r.count ≤ if r.mode = 2 then 4096 else 1048576)) 12, ok (r.segment % 2 ^ r.sizeLog2 == 0) 24,
    (uAt b 28 4 / 2 ^ 20 == 0, .badP 36), ok (decide (r.base + r.count - 1 ≤ 1048575)) 28, ok (decide (1 ≤ r.plistN ∧ r.plistN ≤ 4096)) 72,
    ok (decide (16 ≤ r.tokenBytes ∧ r.tokenBytes ≤ 65536)) 76, ok (decide (r.pool ≤ 63)) 80, (zeros b 81 47, .badP 89)]

def Half.layer (h : Half) (l : Nat) : Option LayerRec :=
  match h.layers.find l with
  | some b => if uAt b 0 1 = 255 then none else some (layerRec b)
  | none => none

/-! Halves (R72 to R75). -/

def State.routingOf (s : State) (i : Nat) : Routing := s.routing.getD i Routing.reset
def State.setRouting (s : State) (i : Nat) (r : Routing) : State := { s with routing := s.routing.put i r }

/-- The half that takes writes: the one that is SPARE or PENDING (R73, R76). -/
def Half.writable (h : Half) : Bool := h.st == .spare || h.st == .pending
def Routing.writable (r : Routing) : Option Bool := if r.h0.writable then some false else if r.h1.writable then some true else none
def Routing.half (r : Routing) (b : Bool) : Half := if b then r.h1 else r.h0
def Routing.setHalf (r : Routing) (b : Bool) (h : Half) : Routing := if b then { r with h1 := h } else { r with h0 := h }

/-- The half that serves a step (R72): the greatest target not above it, of equal targets the one committed later; none where the step
is retired (R75). -/
def Routing.select (r : Routing) (step : Nat) : Option Bool :=
  if step < r.retired then none
  else
    let a := r.h0.valid && decide (r.h0.target ≤ step)
    let b := r.h1.valid && decide (r.h1.target ≤ step)
    if a && b then some (decide (r.h0.target < r.h1.target) || (r.h0.target == r.h1.target && decide (r.h0.order < r.h1.order)))
    else if a then some false else if b then some true else none

/-- A submission of this step accepted: a PENDING half whose target it reaches becomes ACTIVE, and the other DRAINING (Table 3.2). -/
def Routing.accept (r : Routing) (step : Nat) : Routing :=
  let go := fun b : Bool => (r.half b).st == .pending && decide ((r.half b).target ≤ step)
  let turn := fun (r : Routing) (b : Bool) =>
    (r.setHalf b { r.half b with st := .active }).setHalf (!b) { r.half (!b) with st := .draining }
  let r := if go false then turn r false else if go true then turn r true else r
  { r with seen := some (match r.seen with
      | some n => max n step
      | none => step) }

/-- TABLE_COMMIT with table ROUTING (R74). -/
def Routing.commit (r : Routing) (target : Nat) : Except Status Routing :=
  match r.writable with
  | none => .error .tableBusy
  | some b =>
    if (match r.seen with
        | some n => decide (target ≤ n)
        | none => false) then .error .stepPassed
    else .ok { r.setHalf b { r.half b with st := .pending, target := target, valid := true, order := r.commits + 1 } with
      commits := r.commits + 1 }

def State.commitRouting (s : State) (i target : Nat) : State × Ans :=
  match (s.routingOf i).commit target with
  | .error st => (s, .st st)
  | .ok r => (s.setRouting i r, .ok)

/-- A checked write command to the half that is SPARE or PENDING (R73, R76). -/
def State.halfWrite (s : State) (i : Nat) (f : Half → Half) : State × Ans :=
  let r := s.routingOf i
  match r.writable with
  | none => (s, .st .tableBusy)
  | some b => (s.setRouting i (r.setHalf b (f (r.half b))), .ok)

/-- LAYER_SET (R71, R76). -/
def bodyLayerSet : CmdBody := fun s _ h p =>
    let i := h.sheet.toNat
    let r := layerRec (p.drop 8)
    match firstFail ([lenIs p 136, needSheet h] ++ layerChecks p ++
        [(r.mode == 255 || decide (r.segment + 2 ^ r.sizeLog2 ≤ (s.sheet i).gazEntries), .st .addressRange)]) with
    | some a => (s, a)
    | none => s.halfWrite i fun x => { x with layers := x.layers.put (uAt p 0 1) (p.drop 8) }
def execLayerSet (h : CmdHdr) (p : List Byte) (s : State) : Res := .next (s.command 0x0700 h p bodyLayerSet)

/-- The parameters of a command with n entries of e bytes after 16 bytes: the count at offset o within its bound, and the length. -/
def entryChecks (p : List Byte) (o bound e : Nat) : List (Bool × Ans) :=
  [(decide (16 ≤ p.length), .bad 2), (decide (1 ≤ uAt p o 4 ∧ uAt p o 4 ≤ bound), .badP o), (p.length == 16 + e * uAt p o 4, .bad 2)]

/-- Each of n entries of e bytes after byte 16 meets ok. -/
def eachEntry (n e : Nat) (ok : Nat → Bool) : List (Bool × Ans) :=
  (List.range n).map fun j => (ok (16 + e * j), .badP (16 + e * j))

/-- GAZETTEER_WRITE (R76, R81). -/
def bodyGazetteerWrite : CmdBody := fun s _ h p =>
    let i := h.sheet.toNat
    let n := uAt p 4 4
    match firstFail ([needSheet h] ++ entryChecks p 4 510 8 ++ [(zeros p 8 8, .badP 8)] ++
        eachEntry (min n 510) 8 (fun o => bitsOf (uAt p o 8) 62 20 == 0) ++
        [(decide (uAt p 0 4 + n ≤ (s.sheet i).gazEntries), .st .addressRange)]) with
    | some a => (s, a)
    | none => s.halfWrite i fun x =>
      { x with gaz := (List.range n).foldl (fun t j => t.put (uAt p 0 4 + j) (BitVec.ofNat 64 (uAt p (16 + 8 * j) 8))) x.gaz }
def execGazetteerWrite (h : CmdHdr) (p : List Byte) (s : State) : Res := .next (s.command 0x0701 h p bodyGazetteerWrite)

/-- CSET_WRITE (R76, R82). -/
def bodyCsetWrite : CmdBody := fun s _ h p =>
    let mem := uAt p 0 1 == 1
    let n := uAt p 8 4
    let e := if mem then 4 else 8
    let ok := fun o => if mem then uAt p o 4 / 2 ^ 20 == 0
      else uAt p o 8 / 2 ^ 33 == 0 && decide (1 ≤ bitsOf (uAt p o 8) 32 24 ∧ bitsOf (uAt p o 8) 32 24 ≤ 256)
    match firstFail ([needSheet h, (decide (uAt p 0 1 ≤ 1), .badP 0), (zeros p 1 3, .badP 1)] ++ entryChecks p 8 (if mem then 1020 else 510) e ++
        [(zeros p 12 4, .badP 12)] ++ eachEntry (min n 1020) e ok ++
        [(decide (uAt p 4 4 + n ≤ if mem then 16777216 else 1048576), .st .addressRange)]) with
    | some a => (s, a)
    | none => s.halfWrite h.sheet.toNat fun x =>
      if mem then { x with member := (List.range n).foldl (fun t j => t.put (uAt p 4 4 + j) (uAt p (16 + 4 * j) 4)) x.member }
      else { x with cset := (List.range n).foldl (fun t j => t.put (uAt p 4 4 + j) (BitVec.ofNat 64 (uAt p (16 + 8 * j) 8))) x.cset }
def execCsetWrite (h : CmdHdr) (p : List Byte) (s : State) : Res := .next (s.command 0x0702 h p bodyCsetWrite)

/-- EXPERT_DIR_WRITE (R76, R84). -/
def bodyExpertDirWrite : CmdBody := fun s _ h p =>
    let n := uAt p 4 4
    match firstFail ([needSheet h] ++ entryChecks p 4 63 64 ++ [(zeros p 8 8, .badP 8)] ++
        eachEntry (min n 63) 64 (fun o => decide (uAt p o 1 ≤ 8) && zeros p (o + 1) 7 && zeros p (o + 40) 24) ++
        [(decide (uAt p 0 4 + n ≤ 1048576), .st .addressRange)]) with
    | some a => (s, a)
    | none => s.halfWrite h.sheet.toNat fun x =>
      { x with dir := (List.range n).foldl (fun t j => t.put (uAt p 0 4 + j) (bytesAt p (16 + 64 * j) 64)) x.dir }
def execExpertDirWrite (h : CmdHdr) (p : List Byte) (s : State) : Res := .next (s.command 0x0703 h p bodyExpertDirWrite)

/-! Draining and copying (Table 3.2). -/

/-- Whether accepted work of a step below t is not complete on sheet i, or a census of such a step is held (Table 3.2). -/
def State.workBelow (s : State) (i t : Nat) : Bool :=
  let x := s.exch.getD i Exch.reset
  (s.surveys.any fun e => e.2.sheet == i && decide (e.2.step < t)) ||
  (s.plotRuns.any fun e => e.2.sheet == i && decide (e.2.key.1 < t)) ||
  (x.batches.any fun b => !b.ended && decide (b.key.1 < t)) ||
  (x.recvs.any fun r => !r.ended && decide (r.step < t)) ||
  (x.rets.any fun r => decide (r.step < t)) || (x.held.any fun c => decide (c.step < t)) ||
  (x.recvs.any fun r => !r.ended && r.censuses.any fun c => decide (c.step < t))

/-- The half of sheet i that drains has nothing left to serve: it becomes SYNCING, and the steps below the ACTIVE half's target are
retired (Table 3.2, R75). -/
def execDrainingComplete (i : Fin 8) (s : State) : Res :=
  let r := s.routingOf i
  let done := fun b : Bool => (r.half b).st == .draining && !s.workBelow i (r.half (!b)).target
  let go := fun b : Bool => s.setRouting i { r.setHalf b { r.half b with st := .syncing, valid := false } with retired := (r.half (!b)).target }
  .next (if done false then go false else if done true then go true else s)

/-- The Chartroom has copied the ACTIVE half of sheet i into the one that is SYNCING, which becomes SPARE. -/
def execSyncingComplete (i : Fin 8) (s : State) : Res :=
  let r := s.routingOf i
  let go := fun b : Bool => s.setRouting i (r.setHalf b { r.half (!b) with st := .spare, valid := false, target := 0, order := 0 })
  .next (if r.h0.st = .syncing then go false else if r.h1.st = .syncing then go true else s)

/-! Hashing (R78, R79, R85). -/

/-- gz_hash of numbers (R78). -/
def hashOf (t seed : Nat) : Nat := (gzHash (BitVec.ofNat 64 t) (BitVec.ofNat 64 seed)).toNat

/-- The exact dot product of two rows of BF16 elements (R79, R90). -/
def dotVal (a b : List Nat) : FVal :=
  (a.zip b).foldl (fun v e => (addVal v (mulVal (bf16.decode e.1) (bf16.decode e.2)).1).1) (.fin false 0 0)

def bf16Row (l : List Byte) : List Nat := (List.range (l.length / 2)).map fun j => uAt l (2 * j) 2
def fp32Row (l : List Byte) : List Nat := (List.range (l.length / 4)).map fun j => uAt l (4 * j) 4

/-! Expert directory (R84, R85, R120). -/

/-- The logical device and slot that serve expert e for a route tag, if the expert has a replica (R85). -/
def Half.replica (h : Half) (e tag seed : Nat) : Option (Nat × Nat) :=
  match h.dir.find e with
  | none => none
  | some b =>
    let n := uAt b 0 1
    if n = 0 then none
    else
      let w := uAt b (8 + 4 * (hashOf (bitsOf tag 43 4) seed / 2 ^ 32 % n)) 4
      some (bitsOf w 19 0, bitsOf w 31 20)

/-! Reads by the engines of a sheet. -/

/-- The logical number under which a job's agents on a sheet issue. -/
def State.ownNum (s : State) (i job : Nat) : Nat := (s.logicalOf job s.sw.devId i).getD 0

/-- n bytes from local offset a of sheet i; what lies outside the data windows no rule states. -/
def State.rdFree (s : State) (i a n : Nat) : List Byte :=
  (List.range n).map fun j => match s.keyOf i (a + j) with
    | some k => s.mem.get k
    | none => Config.freeByte s.free (a + j)

/-- The participant list of a layer (Table 3.1). -/
def State.plist (s : State) (i : Nat) (r : LayerRec) : List Nat :=
  let b := s.rdFree i r.plistA (4 * r.plistN)
  (List.range r.plistN).map fun j => uAt b (4 * j) 4

/-- An octant's engine queue q with its head taken. -/
def State.popEngine (s : State) (o q : Nat) : State :=
  { s with ep := { s.ep with queues := s.ep.queues.put (o, q) ((s.ep.queues.getD (o, q) []).drop 1) } }

/-! The caches of a routing die (R95). -/

def State.svyOf (s : State) (o : Nat) : SvyCache := s.svyCache.getD o SvyCache.empty
def State.setSvy (s : State) (o : Nat) (x : SvyCache) : State := { s with svyCache := s.svyCache.put o x }

/-- What a Survey unit works with: its octant, sheet, job, own number, layer and half. -/
structure SvyEnv where
  o : Nat
  i : Nat
  job : Nat
  own : Nat
  layer : Nat
  rec_ : LayerRec
  b : Bool
  h : Half

/-- A read of the submission's memory (R88). -/
def State.svyRead (s : State) (e : SvyEnv) (a n : Nat) : State × Except Status (List Byte) :=
  let r := s.access e.i e.job e.own [(a, n, false)]
  (r.1, if r.2 = Status.ok then .ok (r.1.rd e.i a n) else .error r.2)

/-- A gate vector or bias read through the gate vector cache (R95). A line that the cache took may have been displaced: whether it
still hits is a free bit. -/
def State.gvcRead (s : State) (e : SvyEnv) (a n : Nat) : State × Except Status (List Byte) :=
  let x := s.svyOf e.o
  let hit := match x.gvc.find (e.layer, a) with
    | some l => if l.length = n ∧ (Config.freeWordAt s.free a).getLsbD 0 then some l else none
    | none => none
  let s := s.draw
  match hit with
  | some l => (s.bump F.SVY_GVC_HIT_hits e.o 0 1, .ok l)
  | none =>
    let s := s.bump F.SVY_GVC_MISS_misses e.o 0 1
    match s.svyRead e a n with
    | (s, .ok l) => (s.setSvy e.o { x with gvc := x.gvc.put (e.layer, a) l }, .ok l)
    | r => r

/-- A Gazetteer entry (kind 0), candidate set (1) or member (2) looked up: counted as a hit or a miss of the Gazetteer cache. -/
def State.gazCount (s : State) (e : SvyEnv) (kind idx : Nat) : State :=
  let x := s.svyOf e.o
  let key := (e.b, kind, idx)
  if s.get F.GAZ_CTL_cache_enable e.o = 0 then s.bump F.GAZ_CACHE_MISS_misses e.o 0 1
  else
    let hit := x.gaz.contains key && (Config.freeWordAt s.free idx).getLsbD 0
    let s := s.draw
    if hit then s.bump F.GAZ_CACHE_HIT_hits e.o 0 1
    else (s.setSvy e.o { x with gaz := key :: x.gaz.filter (· ≠ key) }).bump F.GAZ_CACHE_MISS_misses e.o 0 1

/-- The candidate set of a bucket (R83): its members, or none for a bad entry. -/
def State.candidates (s : State) (e : SvyEnv) (bucket : Nat) : State × Option (List Nat) :=
  let r := e.rec_
  if r.mode = 2 then (s, some ((List.range r.count).map (r.base + ·)))
  else
    let idx := r.segment + bucket
    let s := s.gazCount e 0 idx
    let g := (e.h.gaz.getD idx 0).toNat
    if !bitOf g 63 then (s, none)
    else
      let c := bitsOf g 19 0
      let s := s.gazCount e 1 c
      let w := (e.h.cset.getD c 0).toNat
      let m := bitsOf w 23 0
      let n := bitsOf w 32 24
      if n = 0 ∨ 256 < n ∨ 16777216 < m + n then (s, none)
      else
        let s := (List.range n).foldl (fun s j => s.gazCount e 2 (m + j)) s
        let l := (List.range n).map fun j => e.h.member.getD (m + j) 0
        if (l.zip (l.drop 1)).all (fun x => decide (x.1 < x.2)) && l.all (fun x => decide (r.base ≤ x ∧ x < r.base + r.count)) then (s, some l)
        else (s, none)

/-! Selection and gate weights (R91 to R94). -/

def fp32Bad (x : Nat) : Bool := bitsOf x 30 23 == 255

/-- A finite FP32 value as a number that orders as the values do, the greatest first; -0 and +0 are one. -/
def rankKey (x : Nat) : Nat := if bitOf x 31 then 2 ^ 31 + x % 2 ^ 31 else 2 ^ 31 - x

/-- a / b of non-negative FP32 numbers, rounded RNE. -/
def fDiv32 (a b : Nat) : Nat :=
  match fp32.decode a, fp32.decode b with
  | .fin _ ma ea, .fin _ mb eb =>
    if mb = 0 then (if ma = 0 then fp32.qnan else fp32.infBits false)
    else if ma = 0 then 0
    else
      let q := ma * 2 ^ 120 / mb
      (roundFin fp32 false false q (ea - eb - 120) (decide (q * mb ≠ ma * 2 ^ 120))).1
  | _, _ => fp32.qnan

def fSum32 (l : List Nat) : Nat := l.foldl (fun a x => (fAdd fp32 a x).1) 0
def fMax32 (l : List Nat) : Nat := (sortBy rankKey l).headD 0

/-- The gate weights of the selected experts (Table 3.6). Both lists pair an expert with its score; cands is in ascending expert. -/
def gateWeights (r : LayerRec) (cands chosen : List (Nat × Nat)) : List Nat :=
  let inOrder := fun l : List (Nat × Nat) => sortBy (·.1) l
  if r.sigmoid then
    let sg := fun e : Nat × Nat => (tSigm (fp32.decode e.2)).1
    if r.renorm then
      let t := fSum32 ((inOrder chosen).map sg)
      chosen.map fun e => fDiv32 (sg e) t
    else chosen.map sg
  else
    let m := fMax32 (cands.map (·.2))
    let ex := fun e : Nat × Nat => (tExp (fp32.decode (fSub fp32 e.2 m).1)).1
    let t := fSum32 ((if r.renorm then inOrder chosen else cands).map ex)
    chosen.map fun e => fDiv32 (ex e) t

/-- What becomes of a token. -/
inductive TokRes where
  | bad
  | nonfinite
  | sel (l : List (Nat × Nat)) (spares : List Nat)

/-- The selection of a token from its candidates, their scores and selection values (R92 to R94). -/
def selectTok (r : LayerRec) (cands : List (Nat × Nat × Nat)) : TokRes :=
  if cands.any (fun e => fp32Bad e.2.1 || fp32Bad e.2.2) then .nonfinite
  else
    let order := sortBy (fun e => rankKey e.2.2) cands
    let chosen := (order.take r.k).map fun e => (e.1, e.2.1)
    let w := gateWeights r (cands.map fun e => (e.1, e.2.1)) chosen
    if w.any fp32Bad then .nonfinite
    else .sel ((chosen.map (·.1)).zip w) (((order.drop r.k).take r.spares).map (·.1))

/-- A list of reads, one after the other, up to the first that fails. -/
def State.readAll {α : Type} (f : State → α → State × Except Status (List Byte)) : List α → State → State × Except Status (List (List Byte))
  | [], s => (s, .ok [])
  | a :: l, s =>
    match f s a with
    | (s, .error st) => (s, .error st)
    | (s, .ok b) =>
      match State.readAll f l s with
      | (s, .error st) => (s, .error st)
      | (s, .ok bs) => (s, .ok (b :: bs))

/-- The bucket of a token (R78, R79); a projection whose product is not a number gives a bit that no rule states. -/
def State.bucketOf (s : State) (e : SvyEnv) (t : Nat) (vec : List Nat) : State × Except Status Nat :=
  let r := e.rec_
  if r.mode = 0 then (s, .ok (hashOf t r.seed % 2 ^ r.sizeLog2))
  else if r.mode = 2 then (s, .ok 0)
  else
    match State.readAll (fun s j => s.svyRead e (r.projA + 2 * r.dim * j) (2 * r.dim)) (List.range r.sizeLog2) s with
    | (s, .error st) => (s, .error st)
    | (s, .ok rows) =>
      let bit := fun x : List Byte => match dotVal vec (bf16Row x) with
        | .nan _ => Config.openBit vec (bf16Row x)
        | v => v.sign && !v.isZero
      (s, .ok (sumOf rows.zipIdx fun x => b2n (bit x.1) * 2 ^ x.2))

/-- Token number i of a submission d. An explicit token ID is read in every hash mode, and a failing read of it fails the submission (DESIGN CHOICE,
log 410). -/
def State.svyToken (s : State) (e : SvyEnv) (d : BitVec 512) (i : Nat) : State × Except Status TokRes :=
  let r := e.rec_
  let vecR := if r.mode = 2 then (s, Except.ok []) else s.svyRead e (dAt d 24 8 + i * dAt d 60 4) (2 * r.dim)
  let idR := if bitOf (dAt d 2 2) 12 then vecR.1.svyRead e (dAt d 16 8 + 8 * i) 8 else (vecR.1, Except.ok (leBytes 8 (dAt d 16 8 + i)))
  match vecR.2, idR with
  | .error st, _ => (vecR.1, .error st)
  | .ok _, (s, .error st) => (s, .error st)
  | .ok vb, (s, .ok ib) =>
    let vec := bf16Row vb
    match s.bucketOf e (leNat ib) vec with
    | (s, .error st) => (s, .error st)
    | (s, .ok bucket) =>
      match s.candidates e bucket with
      | (s, none) => (s, .ok .bad)
      | (s, some c) =>
        let scoresR :=
          if r.mode = 2 then
            match s.svyRead e (dAt d 32 8 + 4 * r.count * i) (4 * r.count) with
            | (s, .ok b) => (s, Except.ok (fp32Row b))
            | (s, .error st) => (s, Except.error st)
          else
            match State.readAll (fun s x => s.gvcRead e (r.gateA + (x - r.base) * (2 * r.dim)) (2 * r.dim)) c s with
            | (s, .ok rows) => (s, Except.ok (rows.map fun g => (roundVal fp32 (dotVal vec (bf16Row g))).1))
            | (s, .error st) => (s, Except.error st)
        match scoresR with
        | (s, .error st) => (s, .error st)
        | (s, .ok sc) =>
          if r.bias then
            match State.readAll (fun s x => s.gvcRead e (r.biasA + 4 * (x - r.base)) 4) c s with
            | (s, .error st) => (s, .error st)
            | (s, .ok bs) => (s, .ok (selectTok r ((c.zip (sc.zip bs)).map fun x => (x.1, x.2.1, (fAdd fp32 x.2.1 (leNat x.2.2)).1))))
          else (s, .ok (selectTok r ((c.zip sc).map fun x => (x.1, x.2, x.2))))

/-- A route tag (Table 4.1). -/
def routeTag (epoch layer source token kslot : Nat) : Nat :=
  epoch * 2 ^ 52 + layer * 2 ^ 44 + source * 2 ^ 24 + token * 2 ^ 4 + kslot

/-- The k records of a token (Table 3.5, R584). -/
def tokRecords (e : SvyEnv) (epoch token : Nat) (l : List (Nat × Nat)) : List Byte :=
  (List.range e.rec_.k).flatMap fun j =>
    let t := leBytes 8 (routeTag epoch e.layer e.own token j)
    match l[j]? with
    | some x => t ++ leBytes 4 (x.1 + 2 ^ 31) ++ leBytes 4 x.2
    | none => t ++ leBytes 8 0

/-- The tokens of a submission from token i on: records, spare entries, tokens processed, assignments, and the first failing status. -/
def State.svyTokens (e : SvyEnv) (d : BitVec 512) : Nat → Nat → Bool → Bool → State → State × List Byte × List Byte × Nat × Nat × Status
  | 0, _, _, _, s => (s, [], [], 0, 0, .ok)
  | n + 1, i, bad, nf, s =>
    match s.svyToken e d i with
    | (s, .error st) => (s, [], [], 0, 0, st)
    | (s, .ok t) =>
      let ev := fun (s : State) (c : EventCode) => s.event { code := c, job := some e.job, sheet := some e.i, unit := e.o }
      let a : State × List (Nat × Nat) × List Nat := match t with
        | .bad => ((if bad then s else ev s .badRouteEntry).bump F.SVY_BAD_ENTRY_CNT_bad_entries e.o 0 1, [], [])
        | .nonfinite => ((if nf then s else ev s .routerNonfinite).bump F.SVY_UNROUTED_CNT_unrouted e.o 0 1, [], [])
        | .sel l sp => (s, l, sp)
      let bad := bad || (match t with
        | .bad => true
        | _ => false)
      let nf := nf || (match t with
        | .nonfinite => true
        | _ => false)
      let rs := tokRecords e (dAt d 2 2 % 2 ^ 12) (dAt d 12 4 + i) a.2.1
      let sp := (List.range 4).flatMap fun j => leBytes 4 (a.2.2.getD j 0xFFFFFFFF)
      let r := State.svyTokens e d n (i + 1) bad nf a.1
      (r.1, rs ++ r.2.1, sp ++ r.2.2.1, r.2.2.2.1 + 1, r.2.2.2.2.1 + a.2.1.length, r.2.2.2.2.2)

/-! Submissions (R86 to R88). -/

/-- Table 3.4, with the fields that only some layers use; where the step and layer have no record in use, those fields are not judged before the later
checks (DESIGN CHOICE, log 409). -/
def svyFormatOk (d : BitVec 512) (rec_ : Option LayerRec) : Bool :=
  dAt d 0 1 == 1 && dAt d 2 2 / 2 ^ 13 == 0 && decide (1 ≤ dAt d 4 4 ∧ dAt d 4 4 ≤ 65536) && decide (dAt d 12 4 + dAt d 4 4 ≤ 2 ^ 20) &&
  dAt d 40 8 % 16 == 0 && dAt d 48 8 % 8 == 0 && decide (dAt d 48 8 < 2 ^ 44) &&
  (match rec_ with
    | some r => r.mode == 2 || (dAt d 32 8 == 0 && dAt d 60 4 % 16 == 0 && decide (2 * r.dim ≤ dAt d 60 4))
    | none => true)

/-- Whether an epoch of sheet i takes new work for a step: OPEN and bound to it (R117), with no cancellation under way (R144). -/
def State.epochOpen (s : State) (i e step : Nat) : Bool :=
  match (s.exch.getD i Exch.reset).epochs.find e with
  | some x => x.st == .open_ && x.step == step && x.cancels.isEmpty
  | none => false

/-- The record of a layer in the half of a step. -/
def Routing.layerAt (r : Routing) (step layer : Nat) : Option LayerRec := (r.select step).bind fun b => (r.half b).layer layer

/-- A Survey submission or Plotting descriptor that ends with a status: the completion word and the capture. -/
def State.svyDone (s : State) (o i layer done tag : Nat) (st : Status) : State :=
  let s := if st = Status.ok then s else s.capture ⟨.SVY_FAULT_INFO, o, 0⟩ (layer * 2 ^ 48 + tag * 2 ^ 16 + st.code) []
  s.complete i done tag st

/-- A submission of a step and layer accepted by octant o's unit: the halves turn (Table 3.2), and a new step of a layer empties the gate vector cache of it
(R95). -/
def State.svyAccept (s : State) (o i layer step : Nat) : State :=
  let s := s.setRouting i ((s.routingOf i).accept step)
  let s := s.set F.SVY_STATUS_highest_step o 0 (max step (s.get F.SVY_STATUS_highest_step o))
  let x := s.svyOf o
  let newer := match x.steps.find layer with
    | some n => decide (n < step)
    | none => true
  if newer then s.setSvy o { x with gvc := x.gvc.filter (fun e => e.1.1 != layer), steps := x.steps.put layer step } else s

/-- The tokens of an accepted submission scored (R88 to R94): the run holds the list that is written when it completes, or its failing status. The bytes
that a failing submission leaves in its list no rule states. -/
def State.svyScore (s : State) (e : SvyEnv) (d : BitVec 512) : State :=
  let t := State.svyTokens e d (dAt d 4 4) 0 false false s
  let out := dAt d 40 8
  let bytes := t.2.1 ++ (if e.rec_.spares = 0 then [] else t.2.2.1)
  let size := dAt d 4 4 * e.rec_.k * 16 + (if e.rec_.spares = 0 then 0 else 16 * dAt d 4 4)
  let w := t.1.access e.i e.job e.own [(out, size, true)]
  let st := if t.2.2.2.2.2 = Status.ok then w.2 else t.2.2.2.2.2
  let free := (List.range size).map (Config.freeByte w.1.free)
  let run : SurveyRun := ⟨e.i, e.layer, dAt d 8 4, out, if st = Status.ok then bytes else if w.2 = Status.ok then free else [], st, dAt d 48 8, dAt d 56 4,
    t.2.2.2.1, t.2.2.2.2.1, e.job, namesScratch 0 d⟩
  { w.1.draw with surveys := w.1.surveys.put e.o run }

/-- The submission at the head of octant o's Survey queue, taken by a unit that works on none (R87): refused with its status, or
accepted and scored. -/
def State.surveyTake (s : State) (o : Nat) : State :=
  match s.surveys.find o, s.ep.queues.getD (o, 0) [] with
  | none, q :: _ =>
    let s := s.popEngine o 0
    let d := q.desc
    let i := q.sheet
    let layer := dAt d 1 1
    let step := dAt d 8 4
    let r := s.routingOf i
    let done := dAt d 48 8
    let tag := dAt d 56 4
    let refuse := fun (s : State) (st : Status) => s.svyDone o i layer done tag st
    match firstFail [(svyFormatOk d (r.layerAt step layer), Status.descFormat), (!s.halted i, Status.trainingHalted),
        ((r.select step).isSome, Status.stepRetired), ((r.layerAt step layer).isSome, Status.layerInvalid),
        (s.epochOpen i (dAt d 2 2 % 2 ^ 12) step, Status.epochInvalid)], r.select step, r.layerAt step layer with
    | none, some _, some rec_ =>
      -- R278: the step boundary, at which Hachure may halt the sheet
      let s := if (match r.seen with
          | some n => decide (n < step)
          | none => true) then s.hchBoundary i step else s
      if s.halted i then refuse s .trainingHalted
      else
        let s := s.svyAccept o i layer step
        let b := ((s.routingOf i).select step).getD false
        s.svyScore ⟨o, i, q.job, s.ownNum i q.job, layer, rec_, b, (s.routingOf i).half b⟩ d
    | some st, _, _ => refuse s st
    | none, _, _ => refuse s .stepRetired
  | _, _ => s

/-- A submission at the head of octant o's Survey queue. -/
def execSurveySubmission (o : Fin 8) (s : State) : Res := .next (s.surveyTake o)

/-- The Survey unit has written the list (R88, R89): counters and the completion word. -/
def execSurveyComplete (o : Fin 8) (s : State) : Res :=
  .next (match s.surveys.find o.val with
    | none => s
    | some r =>
      let s := { s with surveys := s.surveys.del o.val }
      let s := s.write r.sheet r.out r.bytes
      let s := s.bump F.SVY_TOKEN_CNT_tokens o 0 r.tokens
      let s := s.bump F.SVY_ASSIGN_CNT_assignments o 0 (if r.status = Status.ok then r.assigns else 0)
      s.svyDone o r.sheet r.layer r.done r.tag r.status)

/-- SVY_CTL.flush_gvc drops every line of the gate vector cache. -/
def State.flushGvc (s : State) (o : Nat) : State := s.setSvy o { s.svyOf o with gvc := [] }
def execSvyCtlFlushGvc (o : Fin 8) (s : State) : Res := .next (s.flushGvc o)

/-- GAZ_CTL.flush drops every line of the Gazetteer cache. -/
def State.flushGaz (s : State) (o : Nat) : State := s.setSvy o { s.svyOf o with gaz := [] }
def execGazCtlFlush (o : Fin 8) (s : State) : Res := .next (s.flushGaz o)

/-- A write to SVY_FAULT_INFO. -/
def execSvyFaultInfo (o : Fin 8) (w : Word) (s : State) : Res := .next (s.rearm ⟨.SVY_FAULT_INFO, o, 0⟩ w)

end Sys2Proof.Machine
end

