-- ==== Sys2Proof/Machine/ExchOps.lean ====
section
/-! DEFINITION. The shared operations of chapter 4: engine records (Tables 3.7 and 4.7), reservations of extents (R104, R131, R135),
the Live Epoch Table (R114 to R118, R153) and the combiner (R138 to R143, R147). -/

namespace Sys2Proof.Machine

def State.exchOf (s : State) (i : Nat) : Exch := s.exch.getD i Exch.reset
def State.setExch (s : State) (i : Nat) (x : Exch) : State := { s with exch := s.exch.put i x }
def State.updExch (s : State) (i : Nat) (f : Exch → Exch) : State := s.setExch i (f (s.exchOf i))
/-- A fresh number for a batch, part, RECEIVE, reservation or transfer of sheet i. -/
def State.exchId (s : State) (i : Nat) : State × Nat :=
  (s.updExch i fun x => { x with nextId := x.nextId + 1 }, (s.exchOf i).nextId)

/-- The layer record of a layer in the half of a step. -/
def State.layerAt (s : State) (i step layer : Nat) : Option LayerRec := (s.routingOf i).layerAt step layer

/-- TRV_TIMEOUT in ticks, from the page of a physical octant (Table 4.23). -/
def State.waveTimeout (s : State) (o : Nat) : Nat := usTicks (max 100 (s.get F.TRV_TIMEOUT_wave_timeout o))
def State.censusTimeout (s : State) (o : Nat) : Nat := usTicks (max 10 (s.get F.TRV_TIMEOUT_census_timeout o))

/-- The physical octant that coordinates a layer (R123), and the agent of a physical octant's engines (Table 2.7). -/
def State.coordOct (s : State) (i layer : Nat) : Nat := s.physOct i (layer % max 1 (s.sheet i).m)
def State.engineAgent (s : State) (i o : Nat) : Nat := 256 + (o - s.physOct i 0)

/-- A fabric address of R19 as a number. -/
def fabAddr (dst a : Nat) : Nat := dst * 2 ^ 44 + a

/-! Engine records. -/

/-- The header of Table 3.7. -/
structure RecHdr where
  kind : Nat
  layer : Nat
  wave : Nat
  round : Nat
  flags : Nat
  step : Nat
  sender : Nat
  epoch : Nat
  count : Nat
  index : Nat
  deriving DecidableEq, Repr

def recHdr (p : List Byte) : RecHdr :=
  let w := uAt p 8 4
  ⟨uAt p 0 1, uAt p 1 1, uAt p 2 1 % 16, uAt p 2 1 / 16 % 4, uAt p 3 1, uAt p 4 4, w % 2 ^ 20, w / 2 ^ 20, uAt p 12 2, uAt p 14 2⟩

def RecHdr.bytes (h : RecHdr) : List Byte :=
  leBytes 1 h.kind ++ leBytes 1 h.layer ++ leBytes 1 (h.wave + 16 * h.round) ++ leBytes 1 h.flags ++ leBytes 4 h.step ++
    leBytes 4 (h.sender + 2 ^ 20 * h.epoch) ++ leBytes 2 h.count ++ leBytes 2 h.index

/-- A record cut into frames of at most `per` entries, numbered from 0, the last with flag bit 0 (R96). -/
def recFrames (h : RecHdr) (per : Nat) (entries : List (List Byte)) : List (List Byte) :=
  let n := max 1 (ceilDiv entries.length per)
  (List.range n).map fun j =>
    let e := (entries.drop (per * j)).take per
    RecHdr.bytes { h with flags := h.flags + b2n (j + 1 == n), count := e.length, index := j } ++ e.flatten

/-- A record sent by an octant's engine to a logical device. -/
def State.sendRec (s : State) (i job o dst : Nat) (h : RecHdr) (per : Nat) (entries : List (List Byte)) : State :=
  (recFrames h per entries).foldl (fun s b => s.issueRecord i (s.engineAgent i o) job dst b OpEnd.none) s

/-- Census and grant entries: slot and count. -/
def entry4 (slot n : Nat) : List Byte := leBytes 4 (slot + 2 ^ 12 * n)

/-- Whether the frames of a record are all there: the last one has arrived, and one of every number up to it. -/
def recComplete (fs : List Frame) : Bool :=
  match fs.find? (fun f => bitOf (recHdr f.payload).flags 0) with
  | some f => (List.range ((recHdr f.payload).index + 1)).all fun j => fs.any fun g => (recHdr g.payload).index == j
  | none => false

/-- The entries of a complete record, in the order of its frames, of n bytes each. -/
def recEntries (n : Nat) (fs : List Frame) : List (List Byte) :=
  (sortBy (fun f => (recHdr f.payload).index) fs).flatMap fun f =>
    (List.range (recHdr f.payload).count).map fun j => bytesAt f.payload (16 + n * j) n

/-- A frame added to a record; one that repeats a number changes nothing. -/
def addFrame (fs : List Frame) (f : Frame) : List Frame :=
  if fs.any (fun g => (recHdr g.payload).index == (recHdr f.payload).index) then fs else fs ++ [f]

/-! Reservations. -/

/-- The landing pool of a layer if it may serve reservations: ON, in chain mode, of this sheet (R131). -/
def State.landingPool (s : State) (i : Nat) (r : LayerRec) : Option Nat :=
  let x := s.pool r.pool
  if x.life.st = .on ∧ !x.sized ∧ x.sheet = i then some r.pool else none

/-- Cells that n bytes need. -/
def State.cellsFor (s : State) (p n : Nat) : Nat := ceilDiv n (s.pool p).cellSize

/-- An extent of n cells asked for: reserved at once, or its request waits (R163). -/
def State.engineExtent (s : State) (p n : Nat) (src : ReqFrom) : State × Option Nat :=
  let r : PoolReq := ⟨s.nextReq, src, 2, false, false, n, 0, 0, 0, 0, none⟩
  let s := { s with nextReq := s.nextReq + 1 }
  match (if ((s.pool p).waiting false).isEmpty then s.poolTry p r else none) with
  | some (s, a) => (s, some (a.headD 0))
  | none => (s.poolWait p r, none)

/-- A chain given up by an engine: a RELEASE that the home instance checks like any other (R162, R164, R166). -/
def State.engineFree (s : State) (p ptr : Nat) : State :=
  let x := s.pool p
  if x.life.st ≠ .on ∨ x.sized then s
  else if x.badPtr 5 ptr then s.badPointer p 5 ptr (256 + x.home)
  else (s.poolNoCells p 5 ptr).1

/-- POOL_EXHAUSTED of a Traverse engine: a fatal-to-job error, reported (R104, R131, R135, R149). -/
def State.exhausted (s : State) (i job o : Nat) : State :=
  s.event { code := .poolExhausted, job := some job, sheet := some i, status := some .poolExhausted, unit := o, report := true }

/-! The Live Epoch Table. -/

def State.epochAt (s : State) (i e : Nat) : Epoch := (s.exchOf i).epochs.getD e Epoch.free
def State.setEpoch (s : State) (i e : Nat) (x : Epoch) : State := s.updExch i fun y => { y with epochs := y.epochs.put e x }
def State.adjEpoch (s : State) (i e : Nat) (f : Epoch → Epoch) : State := s.setEpoch i e (f (s.epochAt i e))

/-- A Traverse descriptor that ends with a status: the completion word, and the capture in the page of octant o. -/
def State.trvDone (s : State) (o i layer done tag : Nat) (st : Status) : State :=
  let s := if st = Status.ok then s else s.capture ⟨.TRV_FAULT_INFO, o, 0⟩ (layer * 2 ^ 48 + tag * 2 ^ 16 + st.code) []
  s.complete i done tag st

/-- An epoch that becomes FREE, with the status of its EPOCH_CLOSE; nothing of its batches acts on the number again. -/
def State.freeEpoch (s : State) (i e : Nat) (st : Status) : State :=
  let x := s.epochAt i e
  let s := s.setEpoch i e { x with st := .free, close := none, cancels := [] }
  let s := s.updExch i fun y => { y with batches := y.batches.filter (fun b => b.key.2.2 != e), counts := y.counts.filter fun d => d.key.2.2 != e }
  match x.close with
  | some (done, tag) => s.trvDone (s.physOct i 0) i 0 done tag st
  | none => s

/-- R116: a CLOSING or CANCELLED epoch whose balance is met becomes FREE. -/
def State.settleEpoch (s : State) (i e : Nat) : State :=
  let x := s.epochAt i e
  if (x.st = .closing ∨ x.st = .cancelled) ∧ x.returned + x.stale = x.granted ∧ x.held = 0 then s.freeEpoch i e .ok else s

/-! Batches. -/

def State.batch? (s : State) (i id : Nat) : Option Batch := (s.exchOf i).batches.find? fun b => b.id == id
def State.putBatch (s : State) (b : Batch) : State :=
  s.updExch b.sheet fun x => { x with batches := x.batches.map fun y => if y.id = b.id then b else y }

def Batch.step (b : Batch) : Nat := b.key.1
def Batch.layer (b : Batch) : Nat := b.key.2.1
def Batch.epoch (b : Batch) : Nat := b.key.2.2
def State.batchRec (s : State) (b : Batch) : Option LayerRec := s.layerAt b.sheet b.step b.layer

def Batch.mapAsgs (b : Batch) (p : Asg → Bool) (f : Asg → Asg) : Batch := { b with asgs := b.asgs.map fun a => if p a then f a else a }
/-- The records at some positions given a state. -/
def Batch.mark (b : Batch) (l : List Nat) (st : AsgSt) : Batch :=
  { b with asgs := b.asgs.zipIdx.map fun e => if l.contains e.2 then { e.1 with st := st } else e.1 }
def Batch.setPart (b : Batch) (p : Part) : Batch := { b with parts := b.parts.map fun q => if q.id = p.id then p else q }

/-- n assignments counted as folded (R109 to R112, R120, R144). -/
def State.countFold (s : State) (i e o n : Nat) : State :=
  (s.adjEpoch i e fun x => { x with folded := x.folded + n }).bump F.TRV_FOLD_CNT_folds o 0 n

/-- A batch's records at some positions folded. -/
def State.fold (s : State) (b : Batch) (l : List Nat) : State × Batch :=
  if l.isEmpty then (s, b) else (s.countFold b.sheet b.epoch b.oct l.length, b.mark l .folded)

/-- The stride of a combine extent's records (R135). -/
def Batch.rs (b : Batch) : Nat := alignUp (16 + b.outBytes) 256

/-- The stride of a landing extent's records: c cells of the layer's landing pool (R134). Another device's cell size is taken to be that
of this device's pool. -/
def State.landStride (s : State) (r : LayerRec) : Nat := s.cellsFor r.pool r.tokenBytes * (s.pool r.pool).cellSize

/-! The combiner. -/

def AsgSt.resolved : AsgSt → Bool
  | .none | .returned | .lost | .folded | .stale => true
  | _ => false

/-- The size of an element, and its format, by the codes of Tables 4.5 and 4.11. -/
def retSize (f : Nat) : Nat := if f = 0 then 4 else if f ≤ 2 then 2 else 1
def retFmt (f : Nat) : FFmt := match f with
  | 0 => fp32
  | 1 => bf16
  | 2 => fp16
  | 3 => e4m3
  | _ => e5m2

/-- o_j of R140: a returned element as FP32 bits. -/
def retElem (fmt sexp : Nat) (x : Nat) : Nat :=
  let v := (retFmt fmt).decode x
  if fmt ≤ 2 then (roundVal fp32 v).1 else (roundVal fp32 (v.scale (sInt 8 sexp))).1

/-- The elements of a token's result row: those that an output row of its returned formats holds; for a token with no returned slot those of the
batch's returned formats, and without one of out_fmt (DEDUCED, log 405). It does not depend on what came first (R141). -/
def Batch.rowLen (b : Batch) (token : Nat) : Nat :=
  let back := b.asgs.filter fun a => a.st == .returned
  let mine := back.filter fun a => a.token == token
  match (if mine.isEmpty then back else mine).map fun a => b.outBytes / retSize a.fmt with
  | [] => b.outBytes / retSize b.fmt
  | l => l.foldl max 0

/-- The result row of a token (R140), with its slots in ascending order of the serving expert. -/
def State.combineRow (s : State) (b : Batch) (token : Nat) : List Byte :=
  let n := b.rowLen token
  let sz := retSize b.fmt
  let f := retFmt b.fmt
  let got := sortBy (fun a => a.expert) (b.asgs.filter fun a => a.token == token && a.st == .returned)
  let res := if b.resid then s.rdFree b.sheet (b.residA + token * b.stride) (n * sz) else []
  (List.range n).flatMap fun e =>
    let a0 := if b.resid then (roundVal fp32 (f.decode (uAt res (sz * e) sz))).1 else 0
    let acc := got.foldl (fun acc a => (fFma fp32 a.weight (retElem a.fmt a.sexp (uAt a.out (retSize a.fmt * e) (retSize a.fmt))) acc).1) a0
    leBytes sz (cvtFp f (fp32.decode acc)).1

/-- The tokens of a batch. -/
def Batch.tokens (b : Batch) : List Nat := dedup (b.asgs.map Asg.token)

/-- The tokens whose k-slots are all resolved and whose rows are not written; one with no returned slot waits until every record of the batch is
resolved, which settles how long its row is. -/
def Batch.ready (b : Batch) : List Nat :=
  let all := b.asgs.all fun a => a.st.resolved
  b.tokens.filter fun t =>
    let mine := b.asgs.filter fun a => a.token == t
    !b.written.contains t && mine.all (fun a => a.st.resolved) && (all || mine.any fun a => a.st == .returned)

/-- Every token whose k-slots are resolved gets its result row (R140); an accepted extent whose tokens all have theirs is freed (R138). -/
def State.combine (s : State) (b : Batch) : State × Batch :=
  let ready := b.ready
  let s := ready.foldl (fun s t => s.write b.sheet (b.result + t * b.stride) (s.combineRow b t)) s
  let b := { b with written := b.written ++ ready }
  let done := b.parts.filter fun p => p.st == .accepted && p.asgs.all fun j => match b.asgs[j]? with
    | some a => b.written.contains a.token
    | none => true
  let s := done.foldl (fun s p => match p.comb with
    | some c => s.engineFree b.pool c
    | none => s) s
  (s, { b with parts := b.parts.map fun p => if done.any (fun q => q.id == p.id) then { p with st := .done, comb := none } else p })

/-- The outcome of a record in the route log (R147). -/
def AsgSt.outcome : AsgSt → Nat
  | .none => 3
  | .folded => 1
  | .stale => 2
  | _ => 0

/-- The route log (R147). The grant wave is given for records that were granted, and is 0 for the others. -/
def State.routeLog (s : State) (b : Batch) : State :=
  b.asgs.foldl (fun s a =>
    let o := a.st.outcome
    let w := if o = 0 ∨ o = 2 then a.wave else 0
    s.write b.sheet (b.logA + (a.token * b.k + a.kslot) * 16)
      (leBytes 8 a.tag ++ leBytes 4 (a.expert + o * 2 ^ 20 + w * 2 ^ 24) ++ leBytes 4 a.weight)) s

/-- A batch that ends with a status (R126, R143, R144). -/
def State.endBatch (s : State) (b : Batch) (st : Status) : State :=
  let b := { b with ended := true, sending := false }
  (s.putBatch b).trvDone b.oct b.sheet b.layer b.done b.tag st

/-- A batch after any change of its records: rows combined, and the EXCHANGE complete once all of them and the log are written (R143).
The state it answers holds the batch. -/
def State.batchStep (s : State) (b : Batch) : State :=
  let r := s.combine b
  let s := r.1
  let b := r.2
  let s :=
    if b.started && !b.ended && !b.sending && !b.cancel && b.tokens.all (fun t => b.written.contains t) then
      let s := if b.log then s.routeLog b else s
      s.endBatch b (if b.late then .returnTimeout else .ok)
    else s.putBatch b
  s.settleEpoch b.sheet b.epoch

/-! Returns (R138, R139, R142). -/

/-- The return record at position n of a part's extent, if it is acceptable for a record: its output row, format and scale. -/
def State.returnAt (s : State) (b : Batch) (step ext n tag : Nat) : Option (List Byte × Nat × Nat) :=
  let h := s.rd b.sheet (ext + 64 + n * b.rs) 16
  let w := uAt h 12 4
  let fmt := w % 16
  let sexp := w / 16 % 256
  if uAt h 0 8 = tag ∧ uAt h 8 4 = step ∧ fmt ≤ 4 ∧ (fmt ≤ 2 → sexp = 0) ∧ w / 4096 = 0 then
    some (s.rd b.sheet (ext + 64 + n * b.rs + 16) b.outBytes, fmt, sexp)
  else none

/-- A part's records discarded as stale (R138): its extent is freed, and both stale counts rise. -/
def State.partStale (s : State) (b : Batch) (p : Part) : State × Batch :=
  let n := p.asgs.length
  let s := (s.adjEpoch b.sheet b.epoch fun x => { x with stale := x.stale + n }).bump F.TRV_STALE_RETURN_CNT_stale b.oct 0 n
  let s := match p.comb with
    | some c => s.engineFree b.pool c
    | none => s
  let b := if p.st = .resolved then b else b.mark p.asgs .stale
  (s, b.setPart { p with st := .done, comb := none })

/-- A part whose extent's header word has reached its count (R138). -/
def State.partReturned (s : State) (b : Batch) (p : Part) : State × Batch :=
  match p.comb with
  | none => (s, b)
  | some ext =>
    let e := s.epochAt b.sheet b.epoch
    let recs := p.asgs.zipIdx.map fun x => (x.1, (b.asgs[x.1]?).bind fun a => s.returnAt b e.step ext x.2 a.tag)
    if (e.st = .open_ ∨ e.st = .closing) ∧ p.st ≠ .resolved ∧ recs.all (fun r => r.2.isSome) then
      let s := s.adjEpoch b.sheet b.epoch fun x => { x with returned := x.returned + p.asgs.length }
      let asgs := recs.foldl (fun l r => match r.2, l[r.1]? with
        | some v, some a => listSet l r.1 { a with st := .returned, out := v.1, fmt := v.2.1, sexp := v.2.2 }
        | _, _ => l) b.asgs
      (s, { b with asgs := asgs }.setPart { p with st := .accepted })
    else s.partStale b p

/-- The parts of a batch whose header words have reached their counts. -/
def State.checkParts (s : State) (b : Batch) : State × Batch :=
  b.parts.foldl (fun r p =>
    match p.st, p.comb with
    | .sending, some ext | .acked, some ext | .resolved, some ext =>
      if p.asgs.length ≤ r.1.rdN b.sheet ext 8 then r.1.partReturned r.2 p else r
    | _, _ => r) (s, b)

/-- A word of sheet i's memory has been added to: the combine extents whose header it is are looked at (R138). -/
def State.exchWord (s : State) (i a : Nat) : State :=
  (s.exchOf i).batches.foldl (fun s b =>
    if b.parts.any fun p => p.comb == some a then
      match s.batch? i b.id with
      | some b => let r := s.checkParts b; r.1.batchStep r.2
      | none => s
    else s) s

/-- A part's slots resolved as folded for the combine only (R142). -/
def State.partLost (s : State) (b : Batch) (p : Part) : State :=
  let s := s.jobError b.job { code := .returnTimeout, sheet := some b.sheet, status := some .returnTimeout, unit := b.oct }
  s.batchStep { (b.mark p.asgs .lost).setPart { p with st := .resolved } with late := true }

end Sys2Proof.Machine
end

