-- ==== Sys2Proof/Machine/CollOps.lean ====
section
/-! DEFINITION. Collectives (R316 to R335): slots and their staging, the tree and the chain, credits, chunks, triggers and completion. -/

namespace Sys2Proof.Machine

/-! Slots and staging (R319). -/

/-- The virtual core that runs slot k of sheet i. -/
def State.collCore (s : State) (i k : Nat) : Nat := s.collFirst i + k % max 1 (s.sheet i).coll
/-- The chunks of a slot's staging: 1 MiB each. -/
def State.collChunks (s : State) (i : Nat) : Nat := min 4 (16 * (s.sheet i).coll / 8)
/-- The local address of chunk n of the staging of slot k. The slots of a core lie one after another from its offset 0 (log 35). -/
def State.collPlace (s : State) (i k n : Nat) : Nat :=
  2 ^ 40 + s.collCore i k * 2 ^ 24 + (k / max 1 (s.sheet i).coll * s.collChunks i + n) * 2 ^ 20

def State.slot? (s : State) (k : Nat) : Option CollSlot := s.coll.slots.find k
def State.setSlot (s : State) (k : Nat) (x : CollSlot) : State := { s with coll := { s.coll with slots := s.coll.slots.put k x } }
def State.freeSlot (s : State) (k : Nat) : State := { s with coll := { s.coll with slots := s.coll.slots.del k } }
def State.group? (s : State) (j g : Nat) : Option Group := s.coll.groups.find (j, g)

/-! The shape of a collective (R328, R330, R331). -/

def Launch.fan (l : Launch) : Nat := if l.fanout = 0 then 2 else l.fanout
def Launch.es (l : Launch) : Nat := if l.fmt = 0 then 4 else 2
/-- The element format of a reduction (Table 11.3). -/
def Launch.ff (l : Launch) : FFmt := if l.fmt = 0 then fp32 else if l.fmt = 1 then bf16 else fp16
def Launch.timeout (l : Launch) : Nat := msTicks (if l.timeoutMs = 0 then 1000 else l.timeoutMs)

def CollSlot.fixed (x : CollSlot) : Bool := x.l.kind == 2 && x.mode == 0
def CollSlot.isRoot (x : CollSlot) : Bool := x.rank == x.l.root
/-- Elements of a chunk of a reduction. -/
def CollSlot.per (x : CollSlot) : Nat := if x.fixed then 262144 else 2 ^ 20 / x.l.es
/-- How many chunks the collective has. -/
def CollSlot.chunks (x : CollSlot) : Nat := if x.l.kind = 1 then ceilDiv x.l.length (2 ^ 20) else ceilDiv (x.l.length / x.l.es) x.per
/-- Elements of chunk n. -/
def CollSlot.elems (x : CollSlot) (n : Nat) : Nat := min x.per (x.l.length / x.l.es - n * x.per)
/-- Bytes of chunk n as it is sent. -/
def CollSlot.bytes (x : CollSlot) (n : Nat) : Nat :=
  if x.l.kind = 1 then min (2 ^ 20) (x.l.length - n * 2 ^ 20) else if x.fixed then 4 * x.elems n else x.l.es * x.elems n

/-- The ranks of a tree position's parent and children. -/
def treePeers (n root fan rank : Nat) : Option Nat × List Nat :=
  let p := (rank + n - root) % n
  let rk := fun q => (q + root) % n
  (if p = 0 then none else some (rk ((p - 1) / fan)),
   ((List.range fan).filterMap fun j => if fan * p + 1 + j < n then some (rk (fan * p + 1 + j)) else none))

/-- The ranks that a member receives from and sends to. -/
def collPeers (kind mode n root fan rank : Nat) : List Nat × List Nat :=
  let t := treePeers n root fan rank
  if kind = 1 then (t.1.toList, t.2)
  else if mode = 1 then (t.2, t.1.toList)
  else
    ((if rank = 0 then [] else [rank - 1]) ++ (if rank = root ∧ root ≠ n - 1 then [n - 1] else []),
     if rank < n - 1 then [rank + 1] else if root ≠ n - 1 then [root] else [])

/-- The logical device of a rank. -/
def State.rankDev (s : State) (x : CollSlot) (r : Nat) : Nat := ((s.group? x.l.job x.l.group).map fun g => g.members.getD r 0).getD 0

/-! Values. -/

/-- This member's own elements of chunk n. -/
def State.ownElems (s : State) (x : CollSlot) (n : Nat) : List Nat :=
  (List.range (x.elems n)).map fun j => s.rdN x.l.sheet (x.l.src + (n * x.per + j) * x.l.es) x.l.es

/-- Elements converted exactly to FP32 (R330). -/
def Launch.widen (l : Launch) (e : Nat) : Nat := (roundVal fp32 (l.ff.decode e)).1
def Launch.narrow (l : Launch) (e : Nat) : Nat := (roundVal l.ff (fp32.decode e)).1

/-- How many contributions a chunk needs before it is sent up, or written by the root: its own, and one of each peer it receives from. -/
def CollSlot.needs (x : CollSlot) : Nat := if x.fixed then (if x.rank = 0 then 1 else 2) else 1 + x.rx.length

/-- Elements added one by one. -/
def addElems (f : FFmt) : List Nat → List Nat → List Nat
  | a :: as, b :: bs => (fAdd f a b).1 :: addElems f as bs
  | _, _ => []

/-- The partial sum of chunk n so far: this member's own elements until others are added. -/
def State.sumOfChunk (s : State) (x : CollSlot) (n : Nat) : Nat × List Nat :=
  match x.sums.find n with
  | some v => v
  | none => (1, (s.ownElems x n).map fun e => if x.fixed then x.l.widen e else e)

/-! Completion. -/

/-- The word at flag_addr raised by one, with the waits on it (R329, R333). -/
def State.flagAdd (s : State) (i a : Nat) : State := if a = 0 then s else s.writeN i a 8 (s.rdN i a 8 + 1)

/-- The member's completion word, once. -/
def State.collWordDone (s : State) (k : Nat) (x : CollSlot) (flag : Bool) (st : Status) : State :=
  if x.complete then s
  else
    let s := if flag then s.flagAdd x.l.sheet x.l.flag else s
    (s.complete x.l.sheet x.l.doneAddr x.l.tag st).setSlot k { x with complete := true }

/-- Chunks acknowledged by every peer that this member sends to. -/
def CollSlot.ackedAll (x : CollSlot) : Nat := (minOf (x.tx.map TxPeer.acked)).getD x.chunks

/-- What a member does when its part is over: flag and completion word (R329, R333), then the slot freed once every peer has acknowledged
everything. -/
def State.collFinish (s : State) (k : Nat) : State :=
  match s.slot? k with
  | none => s
  | some x =>
    let n := x.chunks
    let sender := if x.l.kind = 1 then x.isRoot else !x.isRoot
    let x := if sender then { x with done := x.ackedAll } else x
    let s := s.setSlot k x
    if x.done = n then
      let s := s.collWordDone k x (!sender) .ok
      if x.ackedAll = n then s.freeSlot k else s
    else s

/-! Sending. -/

/-- Whether chunk n is ready to be sent, and its pieces. -/
def State.collReady (s : State) (x : CollSlot) (n : Nat) : Option (List Piece) :=
  if x.chunks ≤ n then none
  else if x.l.kind = 1 then
    if x.isRoot then some [.mem x.l.sheet (x.l.src + n * 2 ^ 20) (x.bytes n)]
    else if n < x.done then some [.mem x.l.sheet (x.l.dst + n * 2 ^ 20) (x.bytes n)] else none
  else
    let v := s.sumOfChunk x n
    if x.needs ≤ v.1 then some [.lit (v.2.flatMap fun e => leBytes (if x.fixed then 4 else x.l.es) e)] else none

/-- The owner of a collective's operations: slot, chunk, rank of the peer and the collective. -/
def CollSlot.owner (x : CollSlot) (k rank n : Nat) : Nat :=
  ((((x.l.job * 2 ^ 16 + x.l.group) * 2 ^ 32 + x.l.seq) * 1024 + rank) * 2 ^ 16 + n) * 8 + k

/-- One chunk sent to a peer against its oldest credit: a BULK_COPY put in TC0, or in TC4 to another domain (R328). -/
def State.collSend1 (s : State) (k : Nat) (x : CollSlot) (p : TxPeer) (c : Nat) (l : List Piece) : State :=
  let dev := s.rankDev x p.rank
  let far := match s.mapEntry x.l.job dev with
    | some w => domainOf (fld w 19 0) != domainOf s.sw.devId
    | none => false
  let q := { p with credits := p.credits.drop 1, next := p.next + 1, sent := p.sent ++ [(p.next, s.datum)], want := none }
  let s := s.setSlot k { x with tx := x.tx.map fun t => if t.rank = p.rank then q else t }
  s.issueGather x.l.sheet (s.collCore x.l.sheet k) x.l.job dev c (if far then 4 else 0) l
    { OpEnd.none with owner := some (5, x.owner k p.rank p.next) }

/-- Every chunk of slot k that is ready and has a credit is sent (R319). -/
def State.collSend (s : State) (k : Nat) : Nat → State
  | 0 => s
  | fuel + 1 =>
    match s.slot? k with
    | some x =>
      match (x.tx.filterMap fun p => match p.credits, s.collReady x p.next with
        | c :: _, some l => if x.running then some (p, c, l) else none
        | _, _ => none).head? with
      | some (p, c, l) => State.collSend (s.collSend1 k x p c l) k fuel
      | none => s
    | none => s

/-- The slots of a sheet's collectives in the order of R327. -/
def State.slotOrder (s : State) : List Nat :=
  (sortBy (fun e : Nat × CollSlot => e.2.l.stamp * 2 ^ 16 + e.2.l.group) s.coll.slots).map (·.1)

/-- The staging chunks of a slot that no credit covers. -/
def State.freePlaces (s : State) (x : CollSlot) : List Nat :=
  (List.range (s.collChunks x.l.sheet)).filter fun n => !(x.rx.any fun r => r.places.contains n)

/-- The engine-record frame, in TC6 (R319, R328), with which the collective core of slot k gives the peer of rank r credit for the chunk of staging
at address a. It takes no sequence number, and its layout is the model's (DESIGN CHOICE, log 419). -/
def State.creditFrame (s : State) (k : Nat) (x : CollSlot) (w : Word) (a : Nat) : Frame :=
  { s.reqFrame x.l.sheet (s.collCore x.l.sheet k) x.l.job w 0 6 with
    kind := 4, last := true, payload := leBytes 4 x.l.group ++ leBytes 4 x.l.seq ++ leBytes 4 x.rank ++ leBytes 8 a }

/-- Credits for the free chunks of staging, each to the peer with the fewest that still has chunks to send (log 35). -/
def State.collCredit (s : State) (k : Nat) : State :=
  match s.slot? k with
  | none => s
  | some x => (s.freePlaces x).foldl (fun s n =>
      match s.slot? k with
      | none => s
      | some x =>
        match (sortBy (fun r : RxPeer => r.places.length) (x.rx.filter fun r => decide (r.next + r.places.length < x.chunks))).head? with
        | none => s
        | some r =>
          let s := match s.mapEntry x.l.job (s.rankDev x r.rank) with
            | some w => s.sendFrame (s.creditFrame k x w (s.collPlace x.l.sheet k n))
            | none => s
          let r' := { r with places := r.places ++ [n], since := if r.places.isEmpty then s.datum else r.since }
          s.setSlot k { x with rx := x.rx.map fun t => if t.rank = r.rank then r' else t }) s

/-- Since when each peer of slot k has kept a chunk that is ready waiting for a credit (R334). -/
def State.collWant (s : State) (k : Nat) : State :=
  match s.slot? k with
  | none => s
  | some x => s.setSlot k { x with tx := x.tx.map fun p =>
      { p with want := if p.credits.isEmpty && (s.collReady x p.next).isSome then some (p.want.getD s.datum) else none } }

/-- What a slot can do now: sends, credits and completion. -/
def State.collPump (s : State) (k : Nat) : State := (((s.collSend k 65536).collCredit k).collWant k).collFinish k

/-- Every running slot does what it can, in the order of R327. -/
def State.collPumps (s : State) : State :=
  s.slotOrder.foldl (fun s k => if ((s.slot? k).map CollSlot.running).getD false then s.collPump k else s) s

/-- Every chunk of a lone member's reduction written (R330, R331): no peer sends to it. -/
def State.rootWrite (s : State) (x : CollSlot) (n : Nat) (v : List Nat) : State :=
  s.write x.l.sheet (x.l.dst + n * x.per * x.l.es) (v.flatMap fun e => leBytes x.l.es (if x.fixed then x.l.narrow e else e))

/-- A collective starts: it gives its credits, and sends what it can. -/
def State.collStart (s : State) (k : Nat) : State :=
  match s.slot? k with
  | none => s
  | some x =>
    let s := s.setSlot k { x with running := true }
    let s :=
      if x.l.kind = 2 ∧ x.isRoot ∧ x.rx.isEmpty then
        ((List.range x.chunks).foldl (fun s n => s.rootWrite x n (s.sumOfChunk x n).2) s).setSlot k { x with running := true, done := x.chunks }
      else s
    s.collPumps

/-! Triggers (R326). -/

/-- Whether the word of an ON_EVENT launch has reached its value. -/
def State.eventDue (s : State) (l : Launch) : Bool := decide (l.eventValue ≤ s.rdN l.sheet l.eventAddr 8)

/-- Waiting ON_EVENT collectives of sheet i that p selects are tested, in the order of R327. -/
def State.collTest (s : State) (i : Nat) (p : Launch → Bool) : State :=
  s.slotOrder.foldl (fun s k => match s.slot? k with
    | some x => if !x.running && x.l.trigger == 2 && x.l.sheet == i && p x.l && s.eventDue x.l then s.collStart k else s
    | none => s) s
/-- A BUCKET_COMPLETE delivered to sheet i's slots. -/
def State.collBucket (s : State) (i : Nat) : State := s.collTest i fun _ => true
/-- A NOTIFY or an ATOMIC has written n bytes at a of sheet i. -/
def State.collWord (s : State) (i a n : Nat) : State := s.collTest i fun l => decide (l.eventAddr < a + n ∧ a < l.eventAddr + 8)

/-! Admission (R324, R326, R332). -/

def State.freeSlotNo (s : State) : Option Nat := (List.range 8).find? fun k => !s.coll.slots.has k
/-- Whether a launch is due. -/
def State.launchDue (s : State) (l : Launch) : Bool := match s.group? l.job l.group with
  | some g => l.seq == g.next
  | none => false

/-- Whether an ordering of launches puts a before b: (stamp, group). -/
def launchKey (l : Launch) : Nat := l.stamp * 2 ^ 16 + l.group

/-- The credits that came early for a collective. -/
def State.takeEarly (s : State) (x : CollSlot) : State × List TxPeer :=
  let mine := s.coll.early.filter fun e => e.1 == x.l.job && e.2.1 == x.l.group && e.2.2.1 == x.l.seq
  ({ s with coll := { s.coll with early := s.coll.early.filter fun e => !mine.contains e } },
   x.tx.map fun p => { p with credits := p.credits ++ (mine.filter fun e => e.2.2.2.1 == p.rank).map fun e => e.2.2.2.2 })

/-- The reply to an admitted launch: OK, or LATE with the skew where at_datum has passed (R324, R326). -/
def State.launchLate (s : State) (l : Launch) : Bool := l.trigger == 1 && decide (l.atDatum < s.datum)
def State.admitAns (s : State) (l : Launch) : Ans :=
  if s.launchLate l then .done .late noDetail (leBytes 8 (s.datum - l.atDatum)) else .ok

/-- A launch admitted to slot k: the group's count raised, and the trigger. -/
def State.admitLaunch (s : State) (k : Nat) (l : Launch) : State :=
  match s.group? l.job l.group with
  | none => s
  | some g =>
    let n := g.members.length
    let rank := g.members.idxOf l.logical
    let strict := decide (s.get F.DGC_CTL_strict = 1)
    let mode := if l.kind = 2 ∧ strict then 0 else l.mode
    let s := { s with coll := { s.coll with
      groups := s.coll.groups.put (l.job, l.group) { g with next := g.next + 1 }, waiting := s.coll.waiting.erase l } }
    let s := if mode ≠ l.mode then
        s.event { code := .collectiveFixed, job := some l.job, sheet := some l.sheet, unit := k, params := [l.group, l.seq] }
      else s
    let ps := collPeers l.kind mode n l.root l.fan rank
    let x : CollSlot := ⟨l, mode, false, rank, n, ps.2.map fun r => ⟨r, [], 0, 0, [], none⟩, ps.1.map fun r => ⟨r, 0, [], s.datum⟩, [], [], 0, false⟩
    let e := s.takeEarly x
    let s := e.1.setSlot k { x with tx := e.2 }
    if s.launchLate l && !l.lateRun then (s.complete l.sheet l.doneAddr l.tag .late).freeSlot k
    else
      let go := l.trigger == 0 || (l.trigger == 1 && decide (l.atDatum ≤ s.datum)) || (l.trigger == 2 && s.eventDue l)
      if go then s.collStart k else s

/-! Operations and arrivals. -/

/-- The peer of rank r has acknowledged chunk n of slot k. -/
def CollSlot.acks (x : CollSlot) (r n : Nat) : CollSlot :=
  { x with tx := x.tx.map fun p => if p.rank = r then { p with acked := p.acked + 1, sent := p.sent.filter fun e => e.1 != n } else p }

/-- The operations of the collectives that have completed: peers have acknowledged chunks. -/
def State.collOps (s : State) : State :=
  let l := s.ep.done.filter fun e => e.1 == 5
  if l.isEmpty then s
  else
    let s := { s with ep := { s.ep with done := s.ep.done.filter fun e => e.1 != 5 } }
    (l.foldl (fun s e =>
      let k := e.2.1 % 8
      let n := e.2.1 / 8 % 2 ^ 16
      let rank := e.2.1 / 2 ^ 19 % 1024
      match s.slot? k with
      | some x => if x.owner k rank n = e.2.1 ∧ e.2.2 = Status.ok then s.setSlot k (x.acks rank n) else s
      | none => s) s).collPumps

/-- Whether an agent of a job's logical device may be a collective program (R317): one of the collective cores of a sheet of this device; elsewhere one of
the numbers that those of some sheet have, which are the last 4 of an octant's 32 (DEDUCED, log 35). -/
def State.collAgent (s : State) (job src agent : Nat) : Bool :=
  decide (agent < 256) && match s.mapEntry job src with
    | none => false
    | some w =>
      if fld w 19 0 = s.sw.devId then decide (s.collFirst (fld w 22 20) ≤ agent ∧ agent < s.collFirst (fld w 22 20) + (s.sheet (fld w 22 20)).coll)
      else decide (28 ≤ agent % 32)

/-- R318: whether a remote operation on n bytes from a of sheet i meets a collective core's scratchpad, and whether it comes from a
collective program of the same job: the put of a chunk that the slot holding the place has given credit for. -/
def State.collAccess (s : State) (i a job src agent : Nat) (put : Bool) : Option Bool :=
  match s.locate i a with
  | some (.scr v _) =>
    if v < s.collFirst i then none
    else some (put && s.collAgent job src agent && s.coll.slots.any fun e =>
      e.2.l.sheet == i && e.2.l.job == job && e.2.running && e.2.rx.any fun r =>
        s.rankDev e.2 r.rank == src && r.places.any fun n => decide (s.collPlace i e.1 n ≤ a ∧ a < s.collPlace i e.1 n + 2 ^ 20))
  | _ => none

/-- n bytes of a put have landed at a of sheet i. -/
def State.collPut (s : State) (i a n : Nat) : State :=
  s.coll.slots.foldl (fun s e =>
    if e.2.l.sheet = i then
      match (List.range (s.collChunks i)).find? (fun c => decide (s.collPlace i e.1 c ≤ a ∧ a < s.collPlace i e.1 c + 2 ^ 20)) with
      | some c => match s.slot? e.1 with
        | some x => s.setSlot e.1 { x with landed := x.landed.upd c 0 fun m => m + n }
        | none => s
      | none => s
    else s) s

/-- The next chunk of a peer, whole in staging, is taken: written, or added (R328, R330, R331); its staging becomes free. -/
def State.takeChunk (s : State) (k : Nat) (x : CollSlot) (r : RxPeer) (c : Nat) : State :=
  let n := r.next
  let bs := s.rd x.l.sheet (s.collPlace x.l.sheet k c) (x.bytes n)
  let x : CollSlot := { x with
    landed := x.landed.del c
    rx := x.rx.map fun t => if t.rank = r.rank then { t with next := n + 1, places := t.places.drop 1, since := s.datum } else t }
  if x.l.kind = 1 then (s.write x.l.sheet (x.l.dst + n * 2 ^ 20) bs).setSlot k { x with done := x.done + 1 }
  else
    let w := if x.fixed then 4 else x.l.es
    let vs := (elemsOf w bs).map leNat
    if x.fixed && x.isRoot && r.rank == x.count - 1 && x.rank != x.count - 1 then
      (s.rootWrite x n vs).setSlot k { x with done := x.done + 1 }
    else
      let v := s.sumOfChunk x n
      let sum := if x.fixed then addElems fp32 vs v.2 else addElems x.l.ff v.2 vs
      let x : CollSlot := { x with sums := x.sums.put n (v.1 + 1, sum) }
      let last := x.isRoot && (!x.fixed || x.rank == x.count - 1)
      if last && decide (x.needs ≤ v.1 + 1) then (s.rootWrite x n sum).setSlot k { x with done := x.done + 1, sums := x.sums.del n }
      else s.setSlot k x

/-- The staging chunk that holds the next chunk of a peer of a running slot, once it is whole. -/
def CollSlot.whole (x : CollSlot) (t : RxPeer) : Option Nat :=
  t.places.head?.filter fun c => x.running && decide (x.bytes t.next ≤ x.landed.getD c 0)

/-- The first whole chunk of slot k taken, if it has one. -/
def State.serveSlot (s : State) (k : Nat) : State :=
  match s.slot? k with
  | none => s
  | some x => match x.rx.findSome? fun t => (x.whole t).map fun c => (t, c) with
    | some (t, c) => s.takeChunk k x t c
    | none => s

/-- The slots on slot k's collective core that R327 serves before it: the (at most 4) chunks that each holds are taken first. -/
def State.serveBefore (s : State) (k : Nat) (x : CollSlot) : State :=
  (s.slotOrder.takeWhile fun m => m != k).foldl (fun s m => match s.slot? m with
    | some y => if y.l.sheet = x.l.sheet ∧ s.collCore y.l.sheet m = s.collCore x.l.sheet k then (((s.serveSlot m).serveSlot m).serveSlot m).serveSlot m else s
    | none => s) s

/-! Ends (R334, R335). -/

/-- A slot's staging zeroized, and the bytes of it. -/
def State.zeroStaging (s : State) (k : Nat) (x : CollSlot) : State :=
  let c := s.homeCore x.l.sheet (s.collCore x.l.sheet k)
  let lo := keyScr c (s.collPlace x.l.sheet k 0 % 2 ^ 24)
  s.zeroize fun a => decide (lo ≤ a ∧ a < lo + s.collChunks x.l.sheet * 2 ^ 20)

/-- The collectives that p selects end with TORN_DOWN: slots and pending launches (R335). -/
def State.collTear (s : State) (p : Launch → Bool) : State :=
  let s := s.coll.slots.foldl (fun s e =>
    if p e.2.l then
      let s := if e.2.complete then s else s.complete e.2.l.sheet e.2.l.doneAddr e.2.l.tag .tornDown
      (s.zeroStaging e.1 e.2).freeSlot e.1
    else s) s
  let l := s.coll.waiting.filter p
  let s := { s with coll := { s.coll with waiting := s.coll.waiting.filter fun x => !p x } }
  s.tornDown (l.map Launch.owed)

end Sys2Proof.Machine
end

