-- ==== Sys2Proof/Machine/HubOps.lean ====
section
/-! DEFINITION. The near-memory accumulate units (R295 to R315): buckets and their parts, contexts and their states, acceptance and
commitment of contributions, and the completion of a round. -/

namespace Sys2Proof.Machine

def State.bucket? (s : State) (j b : Nat) : Option Bucket := s.hubs.buckets.find (j, b)
def State.setBucket (s : State) (j b : Nat) (x : Bucket) : State := { s with hubs := { s.hubs with buckets := s.hubs.buckets.put (j, b) x } }

/-! Parts (R296). -/

def Bucket.es (x : Bucket) : Nat := if x.fmt = 0 then 4 else 2
def Bucket.ff (x : Bucket) : FFmt := if x.fmt = 0 then fp32 else bf16
def Bucket.bytes (x : Bucket) : Nat := x.elements * x.es
/-- The physical hub that holds element e. -/
def State.bucketHub (s : State) (x : Bucket) (e : Nat) : Nat := s.hubOf x.sheet (x.base + e * x.es)
/-- The hubs of a sheet. -/
def State.sheetHubs (s : State) (i : Nat) : List Nat := (List.range (2 * (s.sheet i).m)).map fun j => 2 * s.physOct i 0 + j

/-- How many granules below g0 + n, from g0 on, are those of local hub j of `hubs`. -/
def granulesOf (g0 n j hubs : Nat) : Nat :=
  let below := fun k : Nat => (k + hubs - 1 - j) / hubs
  below (g0 + n) - below g0

/-- Elements of the part of hub h. -/
def State.partSize (s : State) (x : Bucket) (h : Nat) : Nat :=
  let hubs := 2 * (s.sheet x.sheet).m
  let g0 := x.base / 4096
  let n := ceilDiv x.bytes 4096
  let j := h - 2 * s.physOct x.sheet 0
  let short := if (g0 + n - 1) % hubs = j then (n * 4096 - x.bytes) / x.es else 0
  granulesOf g0 n j hubs * (4096 / x.es) - short

/-- The elements of the part of hub h in ascending order. -/
def State.partElems (s : State) (x : Bucket) (h : Nat) : List Nat := (List.range x.elements).filter fun e => s.bucketHub x e == h

/-- The hubs that hold a part. -/
def State.bucketHubs (s : State) (x : Bucket) : List Nat := (s.sheetHubs x.sheet).filter fun h => decide (0 < s.partSize x h)

/-! Contexts (R302 to R304). -/

def RCtx.is (x : RCtx) (h j b : Nat) : Bool := x.hub == h && x.job == j && x.bucket == b
def State.rctx? (s : State) (h j b : Nat) : Option RCtx := s.hubs.ctxs.find? fun x => x.is h j b
def State.setRctx (s : State) (x : RCtx) : State :=
  { s with hubs := { s.hubs with ctxs := s.hubs.ctxs.map fun y => if y.is x.hub x.job x.bucket then x else y } }
def State.hubCtxs (s : State) (h : Nat) : List RCtx := s.hubs.ctxs.filter fun x => x.hub == h

/-- EAWs in staging: an EXACT context that holds a slot and has not spilled (Table 10.3). -/
def RCtx.staged (x : RCtx) : Bool := x.exact && !x.spilled && x.slot.isSome
/-- Staging bytes of a context. -/
def State.ctxStaging (s : State) (x : RCtx) : Nat := match s.bucket? x.job x.bucket with
  | some b => 40 * s.partSize b x.hub
  | none => 0
/-- The staging of a hub, and how much of it is free. -/
def hubStaging : Nat := 33554432
def State.stagingFree (s : State) (h : Nat) : Nat := hubStaging - sumOf ((s.hubCtxs h).filter RCtx.staged) s.ctxStaging

/-- The order in which victims are taken (R303): open time, then slot. -/
def RCtx.age (x : RCtx) : Nat := x.opened * 64 + x.slot.getD 0

/-- A resident EXACT context spilled (R303, R304): counted, with its event. -/
def State.spill (s : State) (x : RCtx) : State :=
  ((s.setRctx { x with spilled := true }).bump F.NMA_SPILL_CNT_spills x.hub 0 1).event
    { code := .spill, job := some x.job, sheet := s.octSheet (x.hub / 2), unit := x.hub, params := [x.job, x.bucket, x.round] }

/-- A slot for a new context: a free one, or the one of the oldest spilled or NATIVE context, or of the oldest resident one, which then
spills; it parks (R304). -/
def State.takeSlot (s : State) (h : Nat) : State × Nat :=
  let held := (s.hubCtxs h).filter fun x => x.slot.isSome
  match (List.range 64).find? fun n => !(held.any fun x => x.slot == some n) with
  | some n => (s, n)
  | none =>
    let old := sortBy RCtx.age held
    match old.find? fun x => x.spilled || !x.exact with
    | some x => (s.setRctx { x with slot := none }, x.slot.getD 0)
    | none => match old.head? with
      | some x => ((s.spill x).setRctx { x with spilled := true, slot := none }, x.slot.getD 0)
      | none => (s, 0)

/-- Resident contexts spilled one at a time until n bytes of staging are free (R303). -/
def State.makeRoom (s : State) (h n : Nat) : State :=
  (sortBy RCtx.age ((s.hubCtxs h).filter RCtx.staged)).foldl (fun s x => if s.stagingFree h < n then s.spill x else s) s

/-- A context opened for the part of hub h (R301 to R304, R347). -/
def State.openCtx (s : State) (h j b : Nat) (x : Bucket) : State :=
  let exact := x.exact || s.get F.DGC_CTL_strict == 1
  let r := s.takeSlot h
  let s := r.1
  let need := 40 * s.partSize x h
  let all := s.stagingFree h + sumOf ((s.hubCtxs h).filter RCtx.staged) s.ctxStaging
  let fits := decide (need ≤ all)
  let s := if exact && fits then s.makeRoom h need else s
  let c : RCtx := ⟨h, j, b, x.done.getD h 0, some r.2, exact, exact && !fits, s.datum, 0, 0, none, [], false⟩
  { s with hubs := { s.hubs with ctxs := s.hubs.ctxs ++ [c] }, upsets := s.upsets.del (keyStage h r.2) }

/-- A slot has come free: the oldest-opened parked context takes it, spilled, or resident in NATIVE mode (Table 10.3). -/
def State.unpark (s : State) (h n : Nat) : State :=
  match (sortBy RCtx.opened ((s.hubCtxs h).filter fun x => x.slot.isNone)).head? with
  | some x => s.setRctx { x with slot := some n }
  | none => s

/-- A context closed: its staging and its slot freed. -/
def State.closeCtx (s : State) (x : RCtx) : State :=
  let s := { s with hubs := { s.hubs with ctxs := s.hubs.ctxs.filter fun y => !y.is x.hub x.job x.bucket } }
  match x.slot with
  | some n => s.unpark x.hub n
  | none => s

/-! Acceptance (R298, R306, R310). -/

/-- A RACC frame that fails R298 at hub h: counted and captured. -/
def State.raccFail (s : State) (h j b src : Nat) (st : Status) : State × Status :=
  let s := s.bump F.NMA_ERR_CNT_refused h 0 1
  (s.capture ⟨.NMA_ERR_INFO, h, 0⟩ (src * 2 ^ 32 + j * 2 ^ 16 + st.code) [(⟨.NMA_ERR_BUCKET, h, 0⟩, b)], st)

/-- The bucket that a RACC frame names (Table 14.3). -/
def raccBucket (f : Frame) : Nat := f.spec.toNat + fld f.ext 15 0 * 2 ^ 16

/-- Whether a frame waits at hub h while its context's accepted frames hold as many elements as may be between acceptance and commitment (R314). -/
def State.raccFull (s : State) (f : Frame) : Bool :=
  match s.rctx? (s.hubOf f.dstSheet.toNat f.addr.toNat) f.job.toNat (raccBucket f) with
  | some c => decide (32768 < c.accepted - c.committed + f.payload.length / (if fld f.opflag 0 0 = 0 then 4 else 2))
  | none => false

/-- A RACC frame from logical device src at its hub: accepted, or failed with its status. -/
def State.raccTake (s : State) (f : Frame) (src : Nat) : State × Status :=
  let i := f.dstSheet.toNat
  let a := f.addr.toNat
  let j := f.job.toNat
  let b := raccBucket f
  let elem := fld f.opflag 0 0
  let es := if elem = 0 then 4 else 2
  let n := f.payload.length / es
  let h := s.hubOf i a
  match s.locate i a with
  | some (.hbm _) =>
    match s.regionRefuses i a f.payload.length true j src with
    | some o => (s.regionViol i o 4 src).raccFail h j b src .regionDenied
    | none =>
      match s.bucket? j b with
      | none => s.raccFail h j b src .bucketUnknown
      | some x =>
        if x.sheet ≠ i then s.raccFail h j b src .bucketUnknown
        else if elem ≠ x.fmt then s.raccFail h j b src .raccFormat
        else if a < x.base ∨ x.base + x.bytes < a + f.payload.length then s.raccFail h j b src .raccRange
        else
          let c := s.rctx? h j b
          let acc := (c.map RCtx.accepted).getD 0
          if x.expected * s.partSize x h < acc + n then s.raccFail h j b src .raccOverrun
          else
            let s := if c.isSome then s else s.openCtx h j b x
            let vals := (elemsOf es f.payload).map leNat
            let nans := (vals.filter fun v => (x.ff.decode v).isNan).length
            let s := s.bump F.NMA_NAN_CNT_nans h 0 nans
            let s := match s.rctx? h j b with
              | some y => s.setRctx { y with
                  accepted := y.accepted + n
                  nan := if nans = 0 then y.nan else some (min src (y.nan.getD src)) }
              | none => s
            ({ s with hubs := { s.hubs with frames := s.hubs.frames ++ [⟨h, j, b, (a - x.base) / es, vals, f, s.datum⟩] } }, .ok)
  | _ =>
    -- no element lies in a bucket: the sheet's first hub counts the frame (DEDUCED, log 52)
    let h := 2 * s.physOct i 0
    match s.bucket? j b with
    | none => s.raccFail h j b src .bucketUnknown
    | some x => s.raccFail h j b src (if x.sheet ≠ i then .bucketUnknown else if elem ≠ x.fmt then .raccFormat else .raccRange)

/-! Commitment (R299, R300, R306). -/

/-- A NATIVE addition at an element's place (R299): both converted exactly to FP32, added exactly, rounded once. -/
def nativeAdd (f : FFmt) (a b : Nat) : Nat := (roundVal f (addVal (f.decode a) (f.decode b)).1).1

/-- The elements of a frame reach their EAWs or their places. A read-add-write of a line with an uncorrectable error leaves the line unchanged (R293): its
elements are contributions no more (DESIGN CHOICE, log 417). Whether every element has arrived. -/
def State.commitElems (s : State) (c : RCtx) (x : Bucket) (f : RFrame) : State × Bool :=
  if c.exact then
    let eaws := f.vals.zipIdx.foldl (fun t e => t.upd (f.first + e.2) Eaw.fresh fun w => w.add (x.ff.decode e.1)) c.eaws
    (s.setRctx { c with eaws := eaws, committed := c.committed + f.vals.length }, true)
  else
    let at_ := fun e : Nat × Nat => x.base + (f.first + e.2) * x.es
    let r := s.readBad 4 (s.unitsOf x.sheet (x.base + f.first * x.es) (f.vals.length * x.es))
    let l := f.vals.zipIdx.filter fun e => match s.keyOf x.sheet (at_ e) with
      | some k => !r.2.contains (k / 256 * 256)
      | none => true
    let sums := l.flatMap fun e => ((leBytes x.es (nativeAdd x.ff (s.rdN x.sheet (at_ e) x.es) e.1)).zipIdx).filterMap fun b =>
      (s.keyOf x.sheet (at_ e + b.2)).map fun k => (k, b.1)
    (({ r.1 with mem := r.1.mem.setAll sums } : State).wake.setRctx { c with accepted := c.accepted - (f.vals.length - l.length), committed := c.committed + l.length }, r.2.isEmpty)

/-- The runs of a bucket's elements that lie in hub h, in ascending order: first element and number. -/
def State.partRuns (s : State) (x : Bucket) (h : Nat) : List (Nat × Nat) :=
  let per := 4096 / x.es
  ((List.range (ceilDiv x.bytes 4096)).filter fun g => s.bucketHub x (g * per) == h).map fun g => (g * per, min per (x.elements - g * per))

/-- A part that is done (R307): an EXACT part's results written in ascending address order, the context closed, and the part-done message
sent to the coordinating hub. An uncorrectable error in its staging goes with the message (R536). -/
def State.hubPartDone (s : State) (c : RCtx) (x : Bucket) : State :=
  let s := if c.exact then
      (s.partRuns x c.hub).foldl (fun s r => s.write x.sheet (x.base + r.1 * x.es)
        ((List.range r.2).flatMap fun j => leBytes x.es ((c.eaws.getD (r.1 + j) Eaw.fresh).round x.ff).1)) s
    else s
  let r := if c.staged then s.readBad 4 ((c.slot.map (keyStage c.hub)).toList) else (s, [])
  let s := r.1.closeCtx c
  s.setBucket c.job c.bucket { x with done := x.done.put c.hub (c.round + 1), sent := x.sent ++ [⟨c.hub, c.round, c.nan, !r.2.isEmpty⟩] }

/-- An accepted frame commits; at the target its part is done. The status is the one that it is acknowledged with. -/
def State.raccCommit (s : State) (f : RFrame) : State × Status :=
  let s := { s with hubs := { s.hubs with frames := s.hubs.frames.erase f } }
  match s.rctx? f.hub f.job f.bucket, s.bucket? f.job f.bucket with
  | some c, some x =>
    let r := s.commitElems c x f
    let st := if r.2 then Status.ok else .memUe
    match r.1.rctx? f.hub f.job f.bucket with
    | some d =>
      let s := r.1.bump F.NMA_ADD_CNT_elements f.hub 0 (d.committed - c.committed)
      (if d.committed = x.expected * s.partSize x f.hub then s.hubPartDone d x else s, st)
    | none => (r.1, st)
  | _, _ => (s, .ok)

/-! Completion of a round (R308, R310). -/

/-- The status word of Table 10.6. -/
def statusWord (rounds : Nat) (invalid : Bool) (nan : Option Nat) : Nat :=
  rounds % 2 ^ 32 + b2n invalid * 2 ^ 32 + b2n nan.isSome * 2 ^ 33 + nan.getD 0 * 2 ^ 40

/-- BUCKET_COMPLETE (Table 10.5) of the next round, if the coordinating hub holds every part of it. One with an uncorrectable error in its staging completes with
invalid 1 and nan_seen 0 (R536). -/
def State.bucketComplete (s : State) (j b : Nat) : State :=
  match s.bucket? j b with
  | none => s
  | some x =>
    let msgs := x.held.filter fun m => m.round == x.rounds
    if (s.bucketHubs x).all fun h => msgs.any fun m => m.hub == h then
      let bad := msgs.any PartMsg.bad
      let nan := if bad then none else minOf (msgs.filterMap PartMsg.nan)
      let invalid := bad || (x.quarantine && nan.isSome)
      let co := s.bucketHub x 0
      let r := x.rounds
      let s := s.setBucket j b { x with rounds := r + 1, held := x.held.filter fun m => m.round != r }
      let s := s.writeN x.sheet x.status 8 (statusWord (r + 1) invalid nan)
      let s := s.writeN x.sheet x.sem 8 (s.rdN x.sheet x.sem 8 + 1)
      let s := s.bump F.NMA_COMPLETE_CNT_rounds co 0 1
      let s := if s.get F.NMA_CTL_log_complete co = 1 then
          s.event { code := .bucketComplete, job := some j, sheet := some x.sheet, unit := co, params := [j, b, r] } else s
      let s := if invalid then
          s.event { code := .bucketInvalid, job := some j, sheet := some x.sheet, unit := co, params := [b, r, nan.getD 0] } else s
      (s.exchWord x.sheet x.sem).collBucket x.sheet
    else s

/-- A job past the start of its teardown completes no round (R315). -/
def State.stoppingJob (s : State) (j : Nat) : Bool := (s.job j).life.st == .stopping

/-- The part-done message that arrives next at coordinating hub h. -/
def State.partArrives (s : State) (h : Nat) : State :=
  match s.hubs.buckets.find? fun e => s.bucketHub e.2 0 == h && !e.2.sent.isEmpty with
  | some ((j, b), x) => match x.sent with
    | m :: l =>
      let s := s.setBucket j b { x with sent := l, held := x.held ++ [m] }
      if s.stoppingJob j then s else s.bucketComplete j b
    | [] => s
  | none => s

/-! Teardown (R315). -/

/-- The counts of a context break R314: committed is above accepted, or what lies between them is more than 32,768 elements or has lain there longer than
1,024 HCLK cycles, 4,096 in a spilled or parked context. -/
def State.ctxBroken (s : State) (c : RCtx) : Bool :=
  decide (c.accepted < c.committed ∨ 32768 < c.accepted - c.committed) ||
  s.hubs.frames.any fun f => c.is f.hub f.job f.bucket &&
    s.elapsed (f.at_ + 1) ((if c.spilled || c.slot.isNone then 4096 else 1024) * 1000 / max 1 (s.get F.CLK_STATUS_hclk_mhz))

/-- The counts that a capture of a context gives (Table 20.8), and the object that Table 20.9 names it by. -/
def State.ctxCounts (s : State) (c : RCtx) : List Nat := [c.accepted, c.committed, match s.bucket? c.job c.bucket with
  | some x => x.expected * s.partSize x c.hub
  | none => 0]
def RCtx.inst (c : RCtx) : Nat := c.hub + 16 * c.slot.getD 0

/-- The bytes of a bucket's spill area (R297). -/
def Bucket.spillBytes (x : Bucket) : Nat := if x.exact then 40 * x.elements else 0

/-- The buckets and contexts that p selects discarded, with how many bytes of spill area are zeroized. -/
def State.dropBuckets (s : State) (p : Nat × Nat → Bucket → Bool) : State × Nat :=
  let gone := s.hubs.buckets.filter fun e => p e.1 e.2
  let s := gone.foldl (fun s e =>
    let s := (s.hubs.ctxs.filter fun c => c.job == e.1.1 && c.bucket == e.1.2).foldl State.closeCtx s
    { s with hubs := { s.hubs with
      buckets := s.hubs.buckets.del e.1
      frames := s.hubs.frames.filter fun f => !(f.job == e.1.1 && f.bucket == e.1.2) } }) s
  (s, sumOf gone fun e => e.2.spillBytes)

end Sys2Proof.Machine
end

