-- ==== Sys2Proof/Machine/Arrive.lean ====
section
/-! DEFINITION. The destination side of the remote memory endpoint: what every arriving request and engine record meets before it
executes (R40, R44 to R47, R435, R493, R542), and its acknowledgement, response or NACK (Tables 14.2 and 14.3). -/

namespace Sys2Proof.Machine

def rxKeyOf (f : Frame) : RxKey := ⟨f.srcDev.toNat, f.srcSheet.toNat, f.agent.toNat, f.job.toNat, f.dstSheet.toNat⟩
def State.rx (s : State) (k : RxKey) : RxStream := s.ep.rx.getD k RxStream.fresh
def State.setRx (s : State) (k : RxKey) (x : RxStream) : State := { s with ep := { s.ep with rx := s.ep.rx.put k x } }

/-- The whole sequence number that 32 bits stand for: the one nearest to the expected number (R39). -/
def fullSeq (expected : Nat) (seq : Nat) : Nat :=
  let d := (seq + 2 ^ 32 - expected % 2 ^ 32) % 2 ^ 32
  if d < 2 ^ 31 ∨ expected < 2 ^ 32 - d then expected + d else expected - (2 ^ 32 - d)

/-- Whether a number of the stream has executed. -/
def RxStream.executed (x : RxStream) (n : Nat) : Bool := decide (n < x.expected) || x.done.contains n

/-- The lowest number not executed, past every number of the list. -/
def RxStream.settle (x : RxStream) : RxStream :=
  x.done.foldl (fun y _ => if y.done.contains y.expected then { y with expected := y.expected + 1, done := y.done.erase y.expected } else y) x

/-- A number executed. -/
def RxStream.mark (x : RxStream) (n : Nat) : RxStream := ({ x with done := x.done ++ [n] } : RxStream).settle

/-- The source's report of received responses: kept responses at or below it are dropped (R47), and no number at or below it is
waited for any more (DEDUCED, log 20). -/
def RxStream.reported (x : RxStream) (t : Nat) : RxStream :=
  ({ x with kept := x.kept.filter fun e => decide (t < e.1), done := x.done.filter fun n => decide (t < n), expected := max x.expected (t + 1) }
    : RxStream).settle

/-! What a request carries. -/

/-- A BULK_COPY get (Table 14.3). -/
def isGet (f : Frame) : Bool := f.op == 5 && fld f.opflag 0 0 == 1
/-- The bytes that a put writes, expanded before they are written (R193). -/
def denseOf (f : Frame) : Option (List Byte) :=
  if f.comp then (expandTile ((bitsOf (uAt f.payload 0 8) 23 8 + 1) * 2 ^ bitsOf (uAt f.payload 0 8) 3 0) f.payload).map (·.1) else some f.payload
/-- The bytes of an access of a LOAD or ATOMIC frame. -/
def opSize (f : Frame) : Nat := 2 ^ fld f.spec 3 0
/-- The bytes that a request covers from its address, and whether it writes them. -/
def frameSpan (f : Frame) : Nat × Bool :=
  if f.op = 1 then (opSize f, false)
  else if f.op = 3 then (opSize f, true)
  else if isGet f then (f.spec.toNat, false)
  else if f.op = 5 then (((denseOf f).getD []).length, true)
  else if f.op = 8 then (f.payload.length - 16, true)
  else if f.op = 2 ∨ f.op = 4 then (f.payload.length, true)
  else (0, false)

/-! Answers. -/

/-- The traffic class of an answer (Table 2.4): TC6 for INVALIDATE and engine records, otherwise TC2. -/
def answerTc (f : Frame) : BitVec 3 := if f.kind = 4 ∨ f.op = 6 then 6 else 2

/-- An answer to a frame: to its source, of its stream and number. -/
def State.answerFrame (s : State) (f : Frame) : Frame :=
  { frame0 with
    tc := answerTc f
    dstDev := f.srcDev
    dstSheet := f.srcSheet
    srcDev := BitVec.ofNat 20 s.sw.devId
    srcSheet := f.dstSheet
    agent := f.agent
    job := f.job
    seq := f.seq }

def State.ackFrame (s : State) (f : Frame) (st : Status) : Frame :=
  { s.answerFrame f with kind := 2, ext := BitVec.ofNat 20 st.code }
def State.nackFrame (s : State) (f : Frame) (st : Status) : Frame :=
  { s.answerFrame f with kind := 3, spec := BitVec.ofNat 16 st.code }
def State.respFrame (s : State) (f : Frame) (st : Status) (cacheable : Bool) (data : List Byte) : Frame :=
  { s.answerFrame f with kind := 1, spec := BitVec.ofNat 16 st.code, opflag := if cacheable then 1 else 0, last := true, payload := data }

/-- A refusal with RETRY, counted for its stream (R45). -/
def State.refuse (s : State) (f : Frame) : State :=
  let k := rxKeyOf f
  let x := s.rx k
  (s.setRx k { x with refused := x.refused + 1 }).sendFrame (s.nackFrame f .retry)

/-- The frame executed, with an acknowledgement of this status (R44). One that names a failure is kept, so that a duplicate is
acknowledged again with the same status (R46). -/
def State.acked (s : State) (f : Frame) (st : Status) : State :=
  let k := rxKeyOf f
  let x := s.rx k
  let n := fullSeq x.expected f.seq.toNat
  let y := x.mark n
  (s.setRx k (if st = Status.ok then y else { y with kept := y.kept ++ [(n, s.ackFrame f st)] })).sendFrame (s.ackFrame f st)

/-- The frame executed, with a response that is kept until the source reports it (R44, R47). -/
def State.responded (s : State) (f : Frame) (st : Status) (cacheable : Bool) (data : List Byte) : State :=
  let k := rxKeyOf f
  let x := s.rx k
  let n := fullSeq x.expected f.seq.toNat
  let r := s.respFrame f st cacheable data
  let y := x.mark n
  (s.setRx k { y with kept := y.kept ++ [(n, r)] }).sendFrame r

/-! Arrival. -/

/-- The logical number of a frame's source in the map of its job (R435): the first valid entry with its device and sheet that has
not been rewritten within op_timeout. -/
def State.sourceOf (s : State) (f : Frame) : Option Nat :=
  let j := s.job f.job.toNat
  ((j.map.sel fun l e => decide (l < j.n) && e.1.getLsbD 24 && fld e.1 19 0 == f.srcDev.toNat && fld e.1 22 20 == f.srcSheet.toNat &&
    (match e.2 with
      | some t => decide (t + usTicks (max 100 (s.get F.RMO_TIMEOUT_op_timeout)) ≤ s.datum)
      | none => true)).head?).map (·.1)

/-- R493: a frame that fails its tag is discarded, counted, and captured with an event if the capture is armed. -/
def State.authFail (s : State) (f : Frame) : State :=
  let d := s.chtDie
  let armed := !((s.reg ⟨.CTC_FAIL_INFO, d, 0⟩).getLsbD 63)
  let s := s.bump F.CTC_FAIL_CNT_frame_tag d 0 1
  let s := s.capture ⟨.CTC_FAIL_INFO, d, 0⟩ (f.srcDev.toNat * 2 ^ 36 + f.kind.toNat * 2 ^ 32 + f.job.toNat) []
  if armed then s.event { code := .frameAuthFail, job := some f.job.toNat } else s

/-- The source of a frame matches no entry: refused, with one event per (job, source) pair (R435). -/
def State.unknownSource (s : State) (f : Frame) : State :=
  let j := f.job.toNat
  let x := s.job j
  let src := f.srcSheet.toNat * 2 ^ 20 + f.srcDev.toNat
  if x.unknown.contains (j, src) then s.refuse f
  else
    ((s.setJob j { x with unknown := x.unknown ++ [(j, src)] }).event
      { code := .jobmapUnknownSource, job := some j, params := [f.srcDev.toNat, f.srcSheet.toNat] }).refuse f

/-- A frame of a job past step 3 of its teardown (R542). -/
def State.answerTornDown (s : State) (f : Frame) : State :=
  let j := f.job.toNat
  let x := s.job j
  (s.setJob j { x with counts := (x.counts.1, x.counts.2.1 + 1, x.counts.2.2) }).sendFrame (s.ackFrame f .tornDown)

/-- Whether the endpoint finds a frame's tag good (R493): it verifies, and the endpoint holds the job key to check it with (R486, R490). -/
def State.tagGood (s : State) (f : Frame) : Bool := f.tagOk && (s.job f.job.toNat).key.isSome

/-- What a frame meets on arrival, before order: its job (R542), its tag (R493), its source (R435), its report of responses (R47)
and duplicates (R46; one whose kept response is gone gets none, DEDUCED, log 412). The answer's number is the source's logical number where the frame may execute. -/
def State.takeIn (s : State) (f : Frame) : State × Option Nat :=
  let j := f.job.toNat
  if !s.admitted j then (s.bump F.EVT_TEARDOWN_CNT_late_frames 0 0 1, none)
  else if !s.tagGood f then (s.authFail f, none)
  else if (s.job j).life.st = .stopping ∧ 3 ≤ (s.job j).life.step then (s.answerTornDown f, none)
  else match s.sourceOf f with
    | none => (s.unknownSource f, none)
    | some src =>
      let k := rxKeyOf f
      let x := s.rx k
      let x := if f.ackv then x.reported (fullSeq x.expected f.ackThrough.toNat) else x
      let s := s.setRx k x
      let n := fullSeq x.expected f.seq.toNat
      if x.executed n then
        let s := s.bump F.RMO_DUP_CNT_duplicates 0 0 1
        match x.kept.find? (fun e => e.1 == n) with
        | some (_, r) => (s.sendFrame r, none)
        | none => (if f.kind = 0 ∧ (f.op = 1 ∨ f.op = 3) then s else s.sendFrame (s.ackFrame f .ok), none)
      else (s, some src)

/-- Order (R40, R45): whether an admitted frame of the ordered class executes now; ahead of its predecessors it is held, or refused
when the window of 1,024 is full. -/
def State.inOrder (s : State) (f : Frame) : State × Bool :=
  let k := rxKeyOf f
  let x := s.rx k
  let n := fullSeq x.expected f.seq.toNat
  if n = x.expected then (s, true)
  else if x.held.any (fun g => g.seq == f.seq) then (s, false)
  else if 1024 ≤ x.held.length then (s.refuse f, false)
  else (s.setRx k { x with held := x.held ++ [f] }, false)

/-- An unordered request or an engine record: executed on arrival, and acknowledged with the status that g answers. -/
def State.onArrival (s : State) (f : Frame) (g : State → Nat → State × Status) : State :=
  match s.takeIn f with
  | (s, none) => s
  | (s, some src) =>
    let r := g s src
    r.1.acked f r.2

end Sys2Proof.Machine
end

