-- ==== Sys2Proof/Machine/TreeOps.lean ====
section
/-! DEFINITION. The triangulation tree (R336 to R343): the nodes, the chunks that they hold, verify, apply and forward, and the addresses of
their frames (log 36). -/

namespace Sys2Proof.Machine

def treeNone : Nat := 0xFFFFFFFF
def treeChunk : Nat := 2 ^ 22

def State.tree? (s : State) (i image : Nat) : Option TreeNode := s.coll.trees.find? fun t => t.sheet == i && t.image == image
def State.setTree (s : State) (x : TreeNode) : State :=
  { s with coll := { s.coll with trees := s.coll.trees.map fun t => if t.sheet = x.sheet ∧ t.image = x.image then x else t } }
def State.dropTree (s : State) (i image : Nat) : State :=
  { s with coll := { s.coll with trees := s.coll.trees.filter fun t => !(t.sheet == i && t.image == image) } }

def TreeNode.isRoot (x : TreeNode) : Bool := x.parent == treeNone
/-- H of R339: the highest contiguous verified chunk. -/
def TreeNode.high (x : TreeNode) : Nat := if x.verified = 0 then treeNone else x.verified - 1
/-- Bytes of chunk n: the header's preamble and digests, or 4 MiB. -/
def TreeNode.bytes (x : TreeNode) (n : Nat) : Nat := if n = 0 then 64 + 48 * (x.chunks - 1) else treeChunk
def TreeNode.setChild (x : TreeNode) (c : TreeChild) : TreeNode :=
  { x with children := x.children.map fun y => if y.logical = c.logical then c else y }

/-- Whether chunk n is held in the Chartroom's staging: chunk 0, and every chunk of a routing image (R336). -/
def TreeNode.staged (x : TreeNode) (n : Nat) : Bool := x.routing || n == 0
/-- The address at which chunk n begins in the frames of the tree: its place in the image, which has the same dst at every node of a memory image; for a staged
chunk an address that lies in no window (DEDUCED, log 36). -/
def TreeNode.place (x : TreeNode) (n : Nat) : Nat :=
  if x.staged n then 2 ^ 43 + x.image % 4096 * 2 ^ 31 + treeChunk * n else x.dst + treeChunk * (n - 1)
/-- The chunk that an address lies in. -/
def TreeNode.chunkAt (x : TreeNode) (a : Nat) : Option Nat :=
  if 2 ^ 43 ≤ a then
    let n := a % 2 ^ 31 / treeChunk
    if (a - 2 ^ 43) / 2 ^ 31 = x.image % 4096 ∧ n < x.chunks ∧ x.staged n then some n else none
  else if !x.routing && decide (x.dst ≤ a ∧ a < x.dst + treeChunk * (x.chunks - 1)) then some ((a - x.dst) / treeChunk + 1) else none
/-- The 4 KiB of addresses that chunk n begins in, and the bits of landed that say that it is whole: a put's frames are cut there (R31). -/
def TreeNode.page (x : TreeNode) (n : Nat) : Nat := x.place n / 4096
def TreeNode.full (x : TreeNode) (n : Nat) : Nat := 2 ^ ((x.place n + x.bytes n - 1) / 4096 + 1 - x.page n) - 1
/-- Whether every frame of chunk n has landed; the root has its whole image. -/
def TreeNode.whole (x : TreeNode) (n : Nat) : Bool := x.isRoot || x.landed.getD n 0 == x.full n

/-- Where chunk n lies. The root's image holds a slot of 4 MiB for every chunk, chunk 0 included (log 36). -/
def TreeNode.piece (x : TreeNode) (n : Nat) : Piece :=
  if x.staged n then .lit (x.staging.getD n [])
  else if x.isRoot then .mem x.sheet (x.src + treeChunk * n) (x.bytes n)
  else .mem x.sheet (x.place n) (x.bytes n)

/-- The number by which a child's operation is known: node and child. -/
def TreeNode.owner (x : TreeNode) (child : Nat) : Nat := (x.image * 2 ^ 20 + child) * 8 + x.sheet
/-- The same number for an operation whose end no longer counts, since its child has asked for another chunk. -/
def staleOwner (w : Nat) : Nat := w % 2 ^ 60 + 2 ^ 60
/-- Whether an operation sends a chunk to the child that w names. -/
def RemoteOp.feeds (o : RemoteOp) (w : Nat) : Bool := match o.fin.owner with
  | some (6, v) => v % 2 ^ 60 == w
  | _ => false

/-- The next chunk of a child sent: a put in TC5 by the active Chartroom's agent. -/
def State.treeSend1 (s : State) (x : TreeNode) (c : TreeChild) : State :=
  let s := s.setTree (x.setChild { c with sending := true, at_ := s.datum })
  s.issueGather x.sheet 280 x.job c.logical (x.place c.next) 5 [x.piece c.next] { OpEnd.none with owner := some (6, x.owner c.logical) }

/-- Every child that can take a chunk is sent one (R337). -/
def State.treeSend (s : State) (i image : Nat) : State :=
  match s.tree? i image with
  | none => s
  | some x => x.children.foldl (fun s c =>
      match s.tree? i image with
      | some x => if !c.done && !c.lost && !c.sending && decide (c.next < x.verified) then s.treeSend1 x c else s
      | none => s) s

/-- R343: TREE_DONE and the reply to TREE_START once every chunk is verified and every child has reported. -/
def State.treeDone (s : State) (i image : Nat) : State :=
  match s.tree? i image with
  | some x =>
    match x.owed with
    | some o =>
      if x.verified = x.chunks && x.children.all fun c => c.done || c.lost then
        ((s.setTree { x with owed := none }).event { code := .treeDone, job := some x.job, sheet := some i, params := [image], report := true }).final o .ok
      else s
    | none => s
  | none => s

/-- The tree operations that have completed: a child has acknowledged every frame of a chunk. -/
def State.treeOps (s : State) : State :=
  let l := s.ep.done.filter fun e => e.1 == 6
  let s := { s with ep := { s.ep with done := s.ep.done.filter fun e => e.1 != 6 } }
  l.foldl (fun s e =>
    let i := e.2.1 % 8
    let image := e.2.1 % 2 ^ 60 / 2 ^ 23
    match s.tree? i image with
    | some x => match x.children.find? fun c => x.owner c.logical == e.2.1 with
      | some c => if e.2.2 = Status.ok ∧ c.sending then (s.setTree (x.setChild { c with sending := false, next := c.next + 1 })).treeSend i image
          else s
      | none => s
    | none => s) s

/-- The node, and the chunk of its image, that a frame at address a from logical device src of a job is for: one whose parent src is. -/
def State.treeOf (s : State) (i job src a : Nat) : Option (TreeNode × Nat) :=
  s.coll.trees.findSome? fun t =>
    if t.sheet == i && t.job == job && t.parent == src then (t.chunkAt a).map fun n => (t, n) else none

/-- The nodes of a job that have logical device src as their parent have heard from it (R340). -/
def State.treeHear (s : State) (i job src : Nat) : State :=
  { s with coll := { s.coll with trees := s.coll.trees.map fun t =>
      if t.sheet = i ∧ t.job = job ∧ t.parent = src then { t with heard := s.datum, orphan := false } else t } }

/-- Bytes put at an offset of a chunk that is being received. -/
def splice (old : List Byte) (off : Nat) (b : List Byte) : List Byte := bytesAt old 0 off ++ b ++ old.drop (off + b.length)

/-- Whether a node takes a frame of chunk n, which is not verified: one of the next 4, when those before it are whole (R337). -/
def TreeNode.takes (x : TreeNode) (n : Nat) : Bool :=
  decide (n < x.verified + 4) && (List.range (n - x.verified)).all fun m => x.whole (x.verified + m)

/-- A frame of chunk n at address a landed. -/
def TreeNode.land (x : TreeNode) (n a : Nat) (data : List Byte) : TreeNode :=
  let x := { x with landed := x.landed.upd n 0 fun m => m ||| 2 ^ (a / 4096 - x.page n) }
  if x.staged n then { x with staging := x.staging.upd n [] fun b => splice b (a - x.place n) data } else x

/-- The command packets that a chunk of a routing image carries, one after another. -/
def chunkPackets : Nat → List Byte → List (Nat × List Byte)
  | 0, _ => []
  | fuel + 1, b =>
    let op := uAt b 0 2
    let n := uAt b 2 2
    if op = 0 ∨ b.length < 64 + n then [] else (op, bytesAt b 64 n) :: chunkPackets fuel (b.drop (64 + n))

/-- A write of class 0x07 to the SPARE or PENDING half of sheet i. -/
def State.classSeven (s : State) (i op : Nat) (p : List Byte) : State :=
  let h : CmdHdr := ⟨.bmc, BitVec.ofNat 16 p.length, 0, 0, BitVec.ofNat 3 i, 0, true, false, false, false, 0, 0, 0, 0, 0⟩
  let o := hdrOwed h op
  match op with
  | 0x0700 => (bodyLayerSet s o h p).1
  | 0x0701 => (bodyGazetteerWrite s o h p).1
  | 0x0702 => (bodyCsetWrite s o h p).1
  | 0x0703 => (bodyExpertDirWrite s o h p).1
  | _ => s

/-- A verified chunk of a routing image applied (R337). -/
def State.treeApply (s : State) (i : Nat) (b : List Byte) : State :=
  (chunkPackets (b.length / 64 + 1) b).foldl (fun s e => s.classSeven i e.1 e.2) s

/-- Whether every frame of the next chunk has landed. -/
def TreeNode.ready (x : TreeNode) : Bool := decide (x.verified < x.chunks) && x.whole x.verified

/-- The bytes of the next chunk as the node has them: the root's from its image. -/
def State.treeBytes (s : State) (x : TreeNode) : List Byte :=
  if x.isRoot then s.rd x.sheet (x.src + treeChunk * x.verified) (x.bytes x.verified) else s.piece (x.piece x.verified)

/-- Whether the next chunk has the SHA-384 digest that the job's manifest gives for chunk 0, and chunk 0 for the others (R337). -/
def State.treeDigestOk (s : State) (x : TreeNode) (b : List Byte) : Bool :=
  if x.verified = 0 then ((s.job x.job).images.find? fun e => e.1 == x.image).any fun e => sha384 b == e.2
  else sha384 b == bytesAt (x.staging.getD 0 []) (64 + 48 * (x.verified - 1)) 48

/-- A node's next chunk, of these bytes, verified: applied, forwarded, and reported when it is the last. -/
def State.treeVerified (s : State) (x : TreeNode) (b : List Byte) : State :=
  let n := x.verified
  let s := s.setTree { x with verified := n + 1, landed := x.landed.del n, failures := 0, staging := if x.staged n then x.staging.put n b else x.staging }
  let s := if x.routing ∧ 0 < n then s.treeApply x.sheet b else s
  let s := if n + 1 = x.chunks ∧ !x.isRoot then s.send (.treeRecord x.job x.image x.parent n) else s
  (s.treeSend x.sheet x.image).treeDone x.sheet x.image

/-- The report of an orphan (R340): the image, itself, its parent and its H. -/
def State.treeOrphan (s : State) (x : TreeNode) : State :=
  let own := (s.logicalOf x.job s.sw.devId x.sheet).getD treeNone
  (s.setTree { x with orphan := true }).event
    { code := .orphaned, job := some x.job, sheet := some x.sheet, params := [x.image, own, x.parent, x.high], report := true }

/-- A chunk that fails verification (R338): discarded and requested again; the third failure is reported. -/
def State.treeBad (s : State) (x : TreeNode) : State :=
  let n := x.verified
  let x := { x with failures := x.failures + 1, landed := x.landed.del n, staging := x.staging.del n }
  let s := s.setTree x
  if x.failures < 3 then (if x.isRoot then s else s.send (.treeRecord x.job x.image x.parent x.high))
  else
    (s.event { code := .chunkCorrupt, job := some x.job, sheet := some x.sheet, params := [x.image, n], report := true }).treeOrphan x

/-- The operations that send a chunk to the child that w names end with a status (R341, R342). -/
def State.treeStop (s : State) (w : Nat) (st : Status) : State :=
  let s : State := { s with ep := { s.ep with ops := s.ep.ops.map fun o => if o.feeds w then { o with todo := [] } else o } }
  let s := (s.ep.replay.filter fun e => (s.opOf e.op).any fun o => o.feeds w).foldl (fun s e => s.resolve e st []) s
  (s.ep.ops.filter fun o => o.feeds w).foldl (fun s o => s.opDone { o with status := some st } []) s

/-- A child that has another parent now (NACK NOT_PARENT) is a child of the node no more (R341). -/
def State.treeForget (s : State) (x : TreeNode) (child : Nat) : State :=
  (((s.setTree { x with children := x.children.filter fun c => c.logical != child }).treeStop (x.owner child) .notParent).treeDone x.sheet x.image)

/-- A NACK NOT_PARENT to the Chartroom of sheet i: from the child and for the image of the refused chunk, or, where it answers a keepalive, from a
logical device that has this parent for no image of the job. -/
def State.notParent (s : State) (i job child : Nat) (op : Option RemoteOp) : State :=
  match op.bind fun o => o.fin.owner with
  | some (6, w) => match s.tree? i (w % 2 ^ 60 / 2 ^ 23) with
    | some x => s.treeForget x child
    | none => s
  | _ => (s.coll.trees.filter fun x => x.sheet == i && x.job == job && x.children.any fun c => c.logical == child).foldl
      (fun s x => s.treeForget x child) s

/-- A keepalive (R339, R340): heard from the parent, and refused with NOT_PARENT where its sender is the parent of no image of the job here (R341). It names no
image. -/
def State.keepaliveIn (s : State) (f : Frame) : State :=
  let i := f.dstSheet.toNat
  let j := f.job.toNat
  if !s.admitted j then s.bump F.EVT_TEARDOWN_CNT_late_frames 0 0 1
  else if !s.tagGood f then s.authFail f
  else match s.sourceOf f with
    | none => s.unknownSource f
    | some src =>
      if s.coll.trees.any fun t => t.sheet == i && t.job == j && t.parent == src then s.treeHear i j src
      else s.sendFrame (s.nackFrame f .notParent)

/-- The trees that p selects stop (R540): what they were asked is answered with TORN_DOWN. -/
def State.treeTear (s : State) (p : TreeNode → Bool) : State :=
  let l := s.coll.trees.filter p
  let s := { s with coll := { s.coll with trees := s.coll.trees.filter fun t => !p t } }
  s.tornDown (l.filterMap TreeNode.owed)

end Sys2Proof.Machine
end

