-- ==== Sys2Proof/Machine/Collectives.lean ====
section
/-! DEFINITION. The commands of chapter 11: groups (R320, R321), launches and their admission (R322 to R326), credits, chunks and
time-outs (R319, R328 to R334), and the triangulation tree (R336 to R343). -/

namespace Sys2Proof.Machine

/-- The member list of GROUP_DEFINE. -/
def groupMembers (p : List Byte) : List Nat := (List.range (uAt p 4 4)).map fun j => uAt p (8 + 4 * j) 4

/-- GROUP_DEFINE (R320). The job of the parameters is the header's (log 37). -/
def bodyGroupDefine : CmdBody := fun s _ h p =>
    let g := uAt p 0 2
    let j := uAt p 2 2
    let n := uAt p 4 4
    let l := groupMembers p
    match firstFail [(decide (8 ≤ p.length), .bad 2), needSheet h, needJob h, (j == h.job.toNat, .badP 2),
        (decide (1 ≤ n ∧ n ≤ 1020), .badP 4), (p.length == 8 + 4 * n, .bad 2),
        (l.all (fun d => decide (d < 2 ^ 20)), .badP 8), (decide (dedup l = l), .badP 8), (l.contains h.logical.toNat, .badP 8),
        ((s.group? j g).isNone, .st .groupExists), (decide (s.coll.groups.length < 256), .st .groupTableFull)] with
    | some a => (s, a)
    | none => ({ s with coll := { s.coll with groups := s.coll.groups.put (j, g) ⟨l, 0, 0⟩ } }, .ok)
/-- GROUP_DEFINE. -/
def execGroupDefine (h : CmdHdr) (p : List Byte) (s : State) : Res := .next (s.command 0x0600 h p bodyGroupDefine)

/-- Whether any launch of a group is pending or admitted. -/
def State.groupBusy (s : State) (j g : Nat) : Bool :=
  (s.coll.waiting.any fun l => l.job == j && l.group == g) || (s.coll.slots.any fun e => e.2.l.job == j && e.2.l.group == g)

/-- GROUP_UNDEFINE (R321). -/
def bodyGroupUndefine : CmdBody := fun s _ _ p =>
    let g := uAt p 0 2
    let j := uAt p 2 2
    match firstFail [lenIs p 8, (!s.stoppingJob j, .st .tornDown), (zeros p 4 4, .badP 4), ((s.group? j g).isSome, .st .groupUnknown), (!s.groupBusy j g, .st .collectiveBusy)] with
    | some a => (s, a)
    | none => ({ s with coll := { s.coll with groups := s.coll.groups.del (j, g) } }, .ok)
/-- GROUP_UNDEFINE. -/
def execGroupUndefine (h : CmdHdr) (p : List Byte) (s : State) : Res := .next (s.command 0x0601 h p bodyGroupUndefine)

/-- The launch of a COLLECTIVE_LAUNCH (Table 11.3). -/
def launchOf (p : List Byte) (h : CmdHdr) (o : Owed) (now : Nat) : Launch :=
  ⟨uAt p 0 1, uAt p 1 1, uAt p 2 1, uAt p 3 1, uAt p 4 2, bitOf (uAt p 6 1) 0, uAt p 7 1, uAt p 8 4, uAt p 12 4, uAt p 16 8, uAt p 24 8,
   uAt p 32 8, uAt p 40 8, uAt p 48 8, uAt p 56 8, uAt p 64 8, uAt p 72 8, uAt p 80 8, uAt p 88 4, uAt p 92 4, h.sheet.toNat, h.job.toNat,
   h.logical.toNat, o, now⟩

/-- Which of its addresses a launch uses at a member of rank r: src at a broadcast's root and every reducing member, dst at a broadcast's
other members and a reduction's root. -/
def Launch.usesSrc (l : Launch) (r : Nat) : Bool := l.kind == 2 || r == l.root
def Launch.usesDst (l : Launch) (r : Nat) : Bool := if l.kind = 1 then r != l.root else r == l.root

/-- What R323 refuses with DESC_FORMAT: a field that breaks Table 11.3, or an address outside the data windows. -/
def State.launchChecks (s : State) (l : Launch) (p : List Byte) (r n : Nat) : List (Bool × Ans) :=
  let i := l.sheet
  [(l.kind == 1 || l.kind == 2, .badP 0), (if l.kind == 2 then decide (l.mode ≤ 1) else l.mode == 0, .badP 1),
   (decide (l.fmt ≤ 2) || (l.fmt == 3 && l.kind == 1), .badP 2), (decide (l.trigger ≤ 2), .badP 3),
   (decide (uAt p 6 1 < 2), .badP 6), (decide (l.fanout ≤ 8), .badP 7), (decide (l.root < n), .badP 12),
   (l.trigger != 2 || (l.eventAddr % 8 == 0 && s.wordIn i l.eventAddr), .badP 32),
   (!l.usesSrc r || s.inData i l.src l.length, .badP 48), (!l.usesDst r || s.inData i l.dst l.length, .badP 56),
   (decide (16 ≤ l.length ∧ l.length ≤ 2 ^ 34) && l.length % 16 == 0, .badP 64),
   (l.flag == 0 || (l.flag % 8 == 0 && s.wordIn i l.flag), .badP 72),
   (l.doneAddr == 0 || (l.doneAddr % 8 == 0 && s.wordIn i l.doneAddr), .badP 80)]

/-- A launch that passes R323: its group's stamp is noted. -/
def State.noteStamp (s : State) (l : Launch) : State :=
  { s with coll := { s.coll with groups := s.coll.groups.adj (l.job, l.group) fun g => { g with stamp := l.stamp } } }

/-- COLLECTIVE_LAUNCH (R323, R324). A logical device that is no member of the group has no group there (log 39). -/
def bodyCollectiveLaunch : CmdBody := fun s o h p =>
    let l := launchOf p h o s.datum
    let g := (s.group? l.job l.group).getD ⟨[], 0, 0⟩
    let r := g.members.idxOf l.logical
    let known := g.members.contains l.logical
    match firstFail ([lenIs p 96, needSheet h, needJob h] ++ s.launchChecks l p r (if known then g.members.length else 2 ^ 32) ++
        [(known, .st .groupUnknown), (decide (g.next ≤ l.seq ∧ g.stamp ≤ l.stamp), .st .collectiveSeq)]) with
    | some a => (s, a)
    | none =>
      match (if s.launchDue l then s.freeSlotNo else none) with
      | some k => ((s.noteStamp l).admitLaunch k l, s.admitAns l)
      | none =>
        if s.coll.waiting.length < 8 then
          let s := s.noteStamp l
          ({ s with coll := { s.coll with waiting := insertBy launchKey l s.coll.waiting } }, .later true)
        else (s, .st .collectiveBusy)
/-- COLLECTIVE_LAUNCH. -/
def execCollectiveLaunch (h : CmdHdr) (p : List Byte) (s : State) : Res := .next (s.command 0x0602 h p bodyCollectiveLaunch)

/-- A 16 B record of COLLECTIVE_STATUS (Table 11.4). -/
def collRecord (g st slot seq done job mode : Nat) : List Byte :=
  leBytes 2 g ++ leBytes 1 st ++ leBytes 1 slot ++ leBytes 4 seq ++ leBytes 4 done ++ leBytes 2 job ++ leBytes 1 mode ++ [0]

/-- COLLECTIVE_STATUS (R335): a record for each slot, then for each pending launch. -/
def bodyCollectiveStatus : CmdBody := fun s _ _ p =>
    match firstFail [lenIs p 0] with
    | some a => (s, a)
    | none =>
      (s, .data (((List.range 8).flatMap fun k => match s.slot? k with
        | some x => collRecord x.l.group (if x.running then 3 else 2) k x.l.seq x.done x.l.job x.mode
        | none => collRecord 0 0 k 0 0 0 0) ++ s.coll.waiting.flatMap fun l => collRecord l.group 1 255 l.seq 0 l.job l.mode))
/-- COLLECTIVE_STATUS. -/
def execCollectiveStatus (h : CmdHdr) (p : List Byte) (s : State) : Res := .next (s.command 0x0603 h p bodyCollectiveStatus)

/-- COLLECTIVE_ADMIT: the first due launch of the pending list takes the lowest free slot (R324). -/
def execCollectiveAdmit (s : State) : Res :=
  .next (match s.freeSlotNo, s.coll.waiting.find? s.launchDue with
    | some k, some l => (s.answer l.owed (s.admitAns l)).admitLaunch k l
    | _, _ => s)

/-- PENDING_LAUNCH_TIMEOUT: launch q of a job's group has waited its timeout_ms without becoming due (R324). -/
def execPendingLaunchTimeout (j : Nat) (g : Nat) (q : Nat) (s : State) : Res :=
  .next (match s.coll.waiting.find? fun l => l.job == j && l.group == g && l.seq == q with
    | some l =>
      if !s.launchDue l && s.elapsed l.since l.timeout then
        let next := ((s.group? j g).map Group.next).getD 0
        let s := { s with coll := { s.coll with waiting := s.coll.waiting.erase l } }
        (s.final l.owed .collectiveSeq).event
          { code := .collectiveTimeout, job := some j, sheet := some l.sheet, status := some .collectiveSeq, params := [g, q, next] }
      else s
    | none => s)

/-- AT_DATUM_TRIGGER: the Datum has reached the launch's at_datum (R326). -/
def execAtDatumTrigger (k : Fin 8) (s : State) : Res :=
  .next (match s.slot? k with
    | some x => if x.running = false ∧ x.l.trigger = 1 ∧ x.l.atDatum ≤ s.datum then (s.collStart k).collOps else s
    | none => s)

/-- COLLECTIVE_CREDIT: the peer of rank r in collective q of a job's group gives credit for a chunk of its staging at address a (R319).
A credit of a collective that is not admitted here yet is kept for it; one of a job or group that is gone is discarded (R335). -/
def execCollectiveCredit (j : Nat) (g : Nat) (q : Nat) (r : Nat) (a : Nat) (s : State) : Res :=
  .next (match s.coll.slots.find? fun e => e.2.l.job == j && e.2.l.group == g && e.2.l.seq == q with
    | some (k, x) =>
      (s.setSlot k { x with tx := x.tx.map fun t => if t.rank = r then { t with credits := t.credits ++ [a] } else t }).collPumps.collOps
    | none => match s.group? j g with
      | some y => if y.next ≤ q ∧ s.admitted j then { s with coll := { s.coll with early := s.coll.early ++ [(j, g, q, r, a)] } } else s
      | none => s)

/-- COLLECTIVE_CHUNK: the next chunk from the peer of rank r is whole in slot k's staging (R328, R330, R331); the chunks that R327 puts before it
go first. -/
def execCollectiveChunk (k : Fin 8) (r : Nat) (s : State) : Res :=
  .next (match s.slot? k with
    | some x => match x.rx.find? fun t => t.rank == r with
      | some t => match x.whole t with
        | some c => ((s.serveBefore k x).takeChunk k x t c).collPumps.collOps
        | none => s
      | none => s
    | none => s)

/-- Whether slot x waits for the peer of rank r, and since when: for a chunk for which it has given credit, for a credit, for the acknowledgement of each
chunk sent (R334). -/
def CollSlot.waitsFor (x : CollSlot) (r : Nat) : List Nat :=
  (x.rx.filterMap fun t => if t.rank = r ∧ t.next < x.chunks ∧ t.places ≠ [] then some t.since else none) ++
  ((x.tx.filter fun t => t.rank == r).flatMap fun t => t.sent.map (·.2) ++ t.want.toList)

/-- COLLECTIVE_TIMEOUT: slot k has waited longer than timeout_ms for the peer of rank r (R334). -/
def execCollectiveTimeout (k : Fin 8) (r : Nat) (s : State) : Res :=
  .next (match s.slot? k with
    | some x =>
      if x.running && (x.waitsFor r).any (fun t => s.elapsed t (x.l.timeout + 1)) then
        let s := s.collWordDone k x false .collectiveTimeout
        let s := s.jobError x.l.job
          { code := .collectiveTimeout, sheet := some x.l.sheet, status := some .collectiveTimeout, unit := k, params := [x.l.group, x.l.seq, r] }
        s.freeSlot k
      else s
    | none => s)

/-! Trees. -/

/-- A logical device number, or the value that names none. -/
def devOrNone (n : Nat) : Bool := decide (n < 2 ^ 20) || n == treeNone

/-- The node that TREE_START names (Table 11.5). -/
def treeNodeOf (i : Nat) (p : List Byte) (o : Owed) (now : Nat) : TreeNode :=
  let kids := (List.range (uAt p 7 1)).map fun j => (⟨uAt p (40 + 4 * j) 4, 0, false, now, now, false, false⟩ : TreeChild)
  ⟨i, uAt p 0 4, uAt p 4 2, uAt p 6 1 == 1, uAt p 8 4, uAt p 12 4, uAt p 16 4, if uAt p 20 4 = 0 then 50 else uAt p 20 4, uAt p 24 8, uAt p 32 8,
   kids, 0, [], [], 0, 0, now, false, some o⟩

/-- TREE_START (R336). -/
def bodyTreeStart : CmdBody := fun s o h p =>
    let i := h.sheet.toNat
    let x := treeNodeOf i p o s.datum
    let n := uAt p 7 1
    match firstFail [lenIs p 72, needSheet h, needJob h, (x.job == h.job.toNat, .badP 4), (decide (uAt p 6 1 ≤ 1), .badP 6), (decide (n ≤ 8), .badP 7),
        (decide (2 ≤ x.chunks ∧ x.chunks ≤ (if x.routing then 257 else 65537)), .badP 8), (devOrNone x.parent, .badP 12),
        (devOrNone x.alternate, .badP 16),
        (if x.routing then x.dst == 0 else s.inData i x.dst (treeChunk * (x.chunks - 1)), .badP 24),
        (if x.isRoot then s.inData i x.src (treeChunk * x.chunks) else x.src == 0, .badP 32),
        ((List.range 8).all fun j => if j < n then decide (uAt p (40 + 4 * j) 4 < 2 ^ 20) else uAt p (40 + 4 * j) 4 == treeNone, .badP 40),
        ((s.tree? i x.image).isNone, .st .treeExists)] with
    | some a => (s, a)
    | none =>
      if x.routing && !Config.placed s.free (treeChunk * x.chunks) then (s.draw, .st .reservedFull)
      else ({ (if x.routing then s.draw else s) with coll := { s.coll with trees := s.coll.trees ++ [x] } }, .later true)
/-- TREE_START. -/
def execTreeStart (h : CmdHdr) (p : List Byte) (s : State) : Res := .next (s.command 0x0604 h p bodyTreeStart)

/-- TREE_REPARENT (R341). -/
def bodyTreeReparent : CmdBody := fun s _ h p =>
    let i := h.sheet.toNat
    let m := uAt p 0 4
    let child := uAt p 8 4
    let parent := uAt p 12 4
    match firstFail [lenIs p 24, needSheet h, (!s.stoppingJob (uAt p 4 2), .st .tornDown), (decide (uAt p 6 1 ≤ 1), .badP 6), (zeros p 7 1, .badP 7), (decide (child < 2 ^ 20), .badP 8),
        (decide (parent < 2 ^ 20), .badP 12), (zeros p 16 8, .badP 16),
        ((s.coll.trees.any fun t => t.sheet == i && t.image == m && t.job == uAt p 4 2), .badP 0)] with
    | some a => (s, a)
    | none =>
      match s.tree? i m with
      | none => (s, .badP 0)
      | some x =>
        if uAt p 6 1 = 0 then
          let x := { x with parent := parent, heard := s.datum, orphan := false }
          ((s.setTree x).send (.treeRecord x.job m parent x.high), .ok)
        else
          let c : TreeChild := ⟨child, x.chunks, false, s.datum, s.datum, false, false⟩
          (s.setTree { x with children := (x.children.filter fun y => y.logical != child) ++ [c] }, .ok)
/-- TREE_REPARENT. -/
def execTreeReparent (h : CmdHdr) (p : List Byte) (s : State) : Res := .next (s.command 0x0605 h p bodyTreeReparent)

/-- TREE_END (R343). A TREE_START whose image ends before it is done is answered with TORN_DOWN (log 36). -/
def bodyTreeEnd : CmdBody := fun s _ h p =>
    let i := h.sheet.toNat
    match firstFail [lenIs p 8, needSheet h, (!s.stoppingJob (uAt p 4 2), .st .tornDown), (zeros p 6 2, .badP 6)] with
    | some a => (s, a)
    | none =>
      match s.tree? i (uAt p 0 4) with
      | none => (s, .ok)
      | some x =>
        if x.job ≠ uAt p 4 2 then (s, .ok)
        else if x.children.any fun c => !c.done && !c.lost then (s, .st .collectiveBusy)
        else (s.treeTear fun t => t.sheet == i && t.image == x.image, .ok)
/-- TREE_END. -/
def execTreeEnd (h : CmdHdr) (p : List Byte) (s : State) : Res := .next (s.command 0x0606 h p bodyTreeEnd)

/-- TREE_CHUNK_COMPLETE: every frame of chunk c of image m has landed; if it is the next, the node computes its digest and compares it (R337, R338). -/
def execTreeChunkComplete (i : Fin 8) (m c : Nat) (s : State) : Res :=
  .next (match s.tree? i m with
    | some x => if x.ready && x.verified == c then (let b := s.treeBytes x; if s.treeDigestOk x b then (s.treeVerified x b).treeOps else s.treeBad x) else s
    | none => s)

/-- TREE_KEEPALIVE: the node has sent child c no chunk for 10 ms (R339). -/
def execTreeKeepalive (i : Fin 8) (m : Nat) (c : Nat) (s : State) : Res :=
  .next (match s.tree? i m with
    | some x => match x.children.find? fun y => y.logical == c, s.mapEntry x.job c with
      | some y, some w =>
        if !y.done && !y.lost && s.elapsed (max y.at_ y.kept) (msTicks 10) then
          (s.setTree (x.setChild { y with kept := s.datum })).sendFrame
            { s.reqFrame i 280 x.job w 0 5 with kind := 7, last := true, payload := leBytes 4 x.high }
        else s
      | _, _ => s
    | none => s)

/-- ORPHANED: nothing from the parent for parent_timeout_ms (R340). -/
def execOrphaned (i : Fin 8) (m : Nat) (s : State) : Res :=
  .next (match s.tree? i m with
    | some x => if !x.isRoot && !x.orphan && decide (x.verified < x.chunks) && s.elapsed x.heard (msTicks x.timeoutMs) then s.treeOrphan x else s
    | none => s)

/-- A child's chunk that is on its way counts no more (R341): the child has asked for another. -/
def State.treeStale (s : State) (w : Nat) : State :=
  { s with ep := { s.ep with ops := s.ep.ops.map fun o => if o.feeds w then { o with fin := { o.fin with owner := some (6, staleOwner w) } } else o } }

/-- RESUME_RECORD: child c holds every chunk up to hi, or none (R338, R341). A record with the image's last chunk reports the child done (log 36). -/
def execResumeRecord (i : Fin 8) (m : Nat) (c : Nat) (hi : Nat) (s : State) : Res :=
  .next (match s.tree? i m with
    | some x => match x.children.find? fun y => y.logical == c with
      | some y =>
        let s := s.treeStale (x.owner c)
        if hi + 1 = x.chunks then (s.setTree (x.setChild { y with done := true, sending := false })).treeDone i m
        else ((s.setTree (x.setChild { y with next := if hi = treeNone then 0 else hi + 1, sending := false, lost := false })).treeSend i m).treeOps
      | none => s
    | none => s)

/-- CHILD_LOST: the frames to child c have stayed unacknowledged for op_timeout (R342, R343). -/
def execChildLost (i : Fin 8) (m : Nat) (c : Nat) (s : State) : Res :=
  .next (match s.tree? i m with
    | some x => match x.children.find? fun y => y.logical == c with
      | some y =>
        if y.sending && !y.lost && s.elapsed y.at_ (usTicks (max 100 (s.get F.RMO_TIMEOUT_op_timeout))) then
          let s := (s.setTree (x.setChild { y with lost := true, sending := false })).event
            { code := .childLost, job := some x.job, sheet := some i.val, params := [m, c], report := true }
          ((s.treeStop (x.owner c) .targetLost).treeDone i m).treeOps
        else s
      | none => s
    | none => s)

end Sys2Proof.Machine
end

