-- ==== Sys2Proof/Machine/ExchDest.lean ====
section
/-! DEFINITION. The destination side of chapter 4, with the grants of chapter 3: censuses (R96 to R108, R129, R130), landing lists and
arrival blocks (R131 to R134), RETURN (R137) and cancel records (R145). -/

namespace Sys2Proof.Machine

def State.recv? (s : State) (i id : Nat) : Option Recv := (s.exchOf i).recvs.find? fun r => r.id == id
def State.putRecv (s : State) (r : Recv) : State :=
  s.updExch r.sheet fun x => { x with recvs := x.recvs.map fun y => if y.id = r.id then r else y }
def State.recvRec (s : State) (r : Recv) : Option LayerRec := s.layerAt r.sheet r.step r.layer

/-- The RECEIVE descriptors of a (step, layer) that have not completed, in order of acceptance. -/
def State.armed (s : State) (i step layer : Nat) : List Recv :=
  (s.exchOf i).recvs.filter fun r => r.step == step && r.layer == layer && !r.ended

/-! Answers. -/

/-- A grant record and its landing record (R96, R97, R132). entries: slot, grant, and the extent of a non-zero grant. -/
def State.answer4 (s : State) (i job o dst : Nat) (layer wave round step epoch own flags : Nat) (arrival : Nat)
    (entries : List (Nat × Nat × Nat)) : State :=
  let h : RecHdr := ⟨2, layer, wave, round, flags, step, own, epoch, 0, 0⟩
  let s := s.sendRec i job o dst h 1020 (entries.map fun e => entry4 e.1 e.2.1)
  let s := s.sendRec i job o dst { h with kind := 3, flags := 0 } 255
    ((entries.filter fun e => e.2.1 != 0).map fun e => leBytes 8 (e.2.2 + e.1 * 2 ^ 44) ++ leBytes 8 (arrival + (4096 * wave + e.1) * 32))
  if bitOf flags 2 then s.bump F.TRV_LATE_CNT_late o 0 1 else s

/-- The entries of a complete census. -/
def CensusRec.entries (c : CensusRec) : List (Nat × Nat) :=
  (recEntries 4 c.frames).map fun b => let w := leNat b; (w % 2 ^ 12, w / 2 ^ 12)
def CensusRec.complete (c : CensusRec) : Bool := recComplete c.frames

/-- A census answered with a grant of zero for every entry (R75, R98, R103, R130). -/
def State.answerZero (s : State) (c : CensusRec) (late : Bool) : State :=
  s.answer4 c.sheet c.job (s.coordOct c.sheet c.layer) c.src c.layer c.wave c.round c.step c.epoch (s.ownNum c.sheet c.job)
    (if late then 4 else 0) 0 (c.entries.map fun e => (e.1, 0, 0))

/-! Capacity. -/

/-- Whether the layer is granted in Strict mode at this moment (R101). -/
def State.strictNow (s : State) (r : LayerRec) : Bool := s.get F.DGC_CTL_strict == 1 || !r.relaxed

/-- The capacity table of a (step, layer), read once when wave 0 begins, with the modes of R347. -/
def State.latchCaps (s : State) (i step layer : Nat) (r : LayerRec) : State :=
  if (s.exchOf i).caps.has (step, layer) then s
  else
    let b := s.rdFree i r.capA (4 * 4096)
    s.updExch i fun x => { x with caps := x.caps.put (step, layer) ((List.range 4096).map (fun j => uAt b (4 * j) 4), s.strictNow r, s.get F.DGC_CTL_strict == 1) }

def State.capOf (s : State) (i step layer slot : Nat) : Nat :=
  match (s.exchOf i).caps.find (step, layer) with
  | some c => c.1.getD slot 0
  | none => 0

/-- What was latched for a (step, layer). -/
def State.latched (s : State) (i step layer : Nat) : List Nat × Bool × Bool := (s.exchOf i).caps.getD (step, layer) ([], true, true)

/-! Completion of a RECEIVE. -/

/-- The wave after which no further wave can follow: it is final and its grants asked for none. -/
def Recv.lastWave (r : Recv) : Bool := r.final.any fun w => !r.cont.contains w

/-- Whether a RECEIVE has nothing left (R129): every entry of every wave is returned or skipped, and no wave can gain entries. A relaxed
RECEIVE of a REDIRECT layer cannot know the latter: it ends once every participant has been served (log 33). -/
def State.recvOver (s : State) (r : Recv) : Bool :=
  match s.recvRec r with
  | none => true
  | some l =>
    let served := !r.strict && l.overflow == 1 && (s.plist r.sheet l).all fun p => r.served.contains (0, p)
    (r.lastWave || served) && r.placing.isEmpty && r.lists.all fun e => e.2.all LEntry.fin

/-- A RECEIVE looked at after a change of its lists. -/
def State.recvStep (s : State) (id i : Nat) : State :=
  match s.recv? i id with
  | some r =>
    if !r.ended && s.recvOver r then ((s.putRecv { r with ended := true }).trvDone r.oct i r.layer r.done r.tag .ok) else s
  | none => s

/-! Placing grants. -/

/-- The bytes of a landing list entry (Table 4.8). -/
def LEntry.bytes (e : LEntry) : List Byte :=
  leBytes 8 (e.ext + e.slot * 2 ^ 44 + b2n e.dead * 2 ^ 56 + b2n e.relayed * 2 ^ 57) ++ leBytes 4 (e.source + e.epoch * 2 ^ 20) ++ leBytes 4 e.count

/-- The domains that a sheet's own batch of a (step, layer) relays to (R150). -/
def State.relayTable (s : State) (i step layer : Nat) : List (Nat × Nat × Nat) :=
  match ((s.exchOf i).batches.filter fun b => b.step == step && b.layer == layer && b.relay && b.started).getLast? with
  | some b => b.table
  | none => []

/-- The domain of a logical device of a job (R432). -/
def State.domainOfLogical (s : State) (job l : Nat) : Nat :=
  match s.mapEntry job l with
  | some w => fld w 19 0 / 256
  | none => 0

/-- The landing extent's positions marked as unwritten (R134). -/
def State.markUnwritten (s : State) (i ext n stride : Nat) : State :=
  (List.range n).foldl (fun s j =>
    let a := ext + j * stride + 8
    s.writeN i a 8 (s.rdN i a 8 % 2 ^ 44 + (2 ^ 20 - 1) * 2 ^ 44)) s

/-- The arrival block of a slot gains grants and entries (R133). -/
def State.arrivalAdd (s : State) (i a : Nat) (g : Nat) (first : Option Nat) : State :=
  let w := s.rdN i a 8
  let s := s.writeN i a 8 ((w + g) % 2 ^ 63 + w / 2 ^ 63 * 2 ^ 63)
  let s := match first with
    | some j => s.writeN i (a + 16) 4 j
    | none => s
  s.writeN i (a + 20) 4 ((s.rdN i (a + 20) 4 + 1) % 2 ^ 32)

/-- One grant entered in its wave's landing list (R133, R134). -/
def State.appendEntry (s : State) (r : Recv) (l : LayerRec) (wave : Nat) (g : Nat × Nat × Nat × Nat × Nat) : State × Recv :=
  let list := r.lists.getD wave []
  let rel := (s.relayTable r.sheet r.step r.layer).any fun e => e.1 == s.domainOfLogical r.job g.1
  let dead := r.gone.contains g.1
  let e : LEntry := ⟨g.2.2.2.2, g.2.2.1, g.1, g.2.1, g.2.2.2.1, dead, rel, false, 0, false⟩
  let j := list.length
  let first := if list.any (fun x => x.slot == e.slot) then none else some j
  let s := s.write r.sheet (r.list + (wave * r.cap + j) * 16) e.bytes
  let s := s.markUnwritten r.sheet e.ext e.count (s.landStride l)
  let s := s.arrivalAdd r.sheet (r.arrival + (4096 * wave + e.slot) * 32) e.count first
  (s, { r with lists := r.lists.put wave (list ++ [e]) })

/-- The arrival blocks of a wave's slots take the final bit. Slots of capacity 0 are no slots of the layer (R98). -/
def State.setFinal (s : State) (r : Recv) (wave : Nat) : State × Recv :=
  let caps := (s.latched r.sheet r.step r.layer).1
  let s := (caps.zipIdx.filter fun c => c.1 != 0).foldl (fun s c =>
    let a := r.arrival + (4096 * wave + c.2) * 32
    let w := s.rdN r.sheet a 8
    s.writeN r.sheet a 8 (w % 2 ^ 63 + 2 ^ 63)) s
  (s, { r with final := wave :: r.final })

/-- The grants of a placing whose extents are all reserved: lists and arrival blocks, then the answers (R133, R132). -/
def State.placed (s : State) (r : Recv) (p : Placing) : State :=
  match s.recvRec r with
  | none => s
  | some l =>
    let r := { r with placing := r.placing.filter fun q => q.id != p.id }
    let x := p.grants.foldl (fun (a : State × Recv) g => a.1.appendEntry a.2 l p.wave (g.1, g.2.1, g.2.2.1, g.2.2.2.1, g.2.2.2.2.getD 0)) (s, r)
    let x := if p.last then x.1.setFinal x.2 p.wave else x
    let s := x.1.putRecv x.2
    let own := r.own
    let s := p.answers.foldl (fun s a =>
      s.answer4 r.sheet r.job r.oct a.1 r.layer p.wave p.round r.step a.2.1 own (if p.cont then 2 else 0) r.arrival
        (a.2.2.map fun e => (e.1, e.2, ((p.grants.find? fun g => g.1 == a.1 && g.2.2.1 == e.1).bind fun g => g.2.2.2.2).getD 0))) s
    s.recvStep r.id r.sheet

/-- The reservations of a placing begun: each grant's extent, or POOL_EXHAUSTED where the layer has no landing pool (R131). -/
def State.reservePlacing (s : State) (r : Recv) (p : Placing) : State :=
  match s.recvRec r with
  | none => s.putRecv r
  | some l =>
    if p.grants.isEmpty then (s.putRecv { r with placing := r.placing ++ [p] }).placed { r with placing := r.placing ++ [p] } p
    else match s.landingPool r.sheet l with
      | none => (s.putRecv r).exhausted r.sheet r.job r.oct
      | some q =>
        let x := p.grants.foldl (fun (a : State × List (Nat × Nat × Nat × Nat × Option Nat)) g =>
          let e := a.1.engineExtent q (g.2.2.2.1 * a.1.cellsFor q l.tokenBytes) (.landing p.id)
          (e.1, a.2 ++ [(g.1, g.2.1, g.2.2.1, g.2.2.2.1, e.2)])) (s, [])
        let p := { p with grants := x.2 }
        let r := { r with placing := r.placing ++ [p] }
        if p.grants.all (fun g => g.2.2.2.2.isSome) then x.1.placed r p else x.1.putRecv r

/-- The extent of a waiting grant reserved: the first of its placing that has none (requests are served in order). -/
def fillGrant (ext : Nat) : List (Nat × Nat × Nat × Nat × Option Nat) → List (Nat × Nat × Nat × Nat × Option Nat)
  | [] => []
  | g :: l => if g.2.2.2.2.isNone then (g.1, g.2.1, g.2.2.1, g.2.2.2.1, some ext) :: l else g :: fillGrant ext l

def State.landingServed (s : State) (i pid ext : Nat) : State :=
  match (s.exchOf i).recvs.find? fun r => r.placing.any fun p => p.id == pid with
  | none => s
  | some r =>
    match r.placing.find? fun p => p.id == pid with
    | none => s
    | some p =>
      let p := { p with grants := fillGrant ext p.grants }
      let r := { r with placing := r.placing.map fun q => if q.id = pid then p else q }
      if p.grants.all (fun g => g.2.2.2.2.isSome) then s.placed r p else s.putRecv r

/-! Strict grants (R99 to R105). -/

/-- The grants of a round: per source its entries with the grant (the loop of R104). used counts what the wave's earlier rounds granted;
it answers the new counts, and whether a request was refused. -/
def grantEntries (cap : Nat → Nat) (src : Nat) : List (Nat × Nat) → Tbl Nat Nat → List (Nat × Nat) × Tbl Nat Nat × Bool
  | [], used => ([], used, false)
  | (e, n) :: l, used =>
    let g := min n (cap e - used.getD e 0)
    let r := grantEntries cap src l (used.put e (used.getD e 0 + g))
    ((e, g) :: r.1, r.2.1, r.2.2 || decide (g < n))

def grantSources (cap : Nat → Nat) : List CensusRec → Tbl Nat Nat → List (Nat × Nat × List (Nat × Nat)) × Tbl Nat Nat × Bool
  | [], used => ([], used, false)
  | c :: l, used =>
    let a := grantEntries cap c.src c.entries used
    let r := grantSources cap l a.2.1
    ((c.src, c.epoch, a.1) :: r.1, r.2.1, a.2.2 || r.2.2)

/-- The non-zero grants of a set of answers, in ascending (slot, source) order. -/
def grantList (answers : List (Nat × Nat × List (Nat × Nat))) : List (Nat × Nat × Nat × Nat) :=
  sortBy (fun g => g.2.2.1 * 2 ^ 20 + g.1)
    (answers.flatMap fun a => (a.2.2.filter fun e => e.2 != 0).map fun e => (a.1, a.2.1, e.1, e.2))

/-- Answers cut to the grants that a landing list still has room for (R133). -/
def keepGrants (kept : List (Nat × Nat × Nat × Nat)) (answers : List (Nat × Nat × List (Nat × Nat))) : List (Nat × Nat × List (Nat × Nat)) :=
  answers.map fun a => (a.1, a.2.1, a.2.2.map fun e => if kept.any (fun g => g.1 == a.1 && g.2.2.1 == e.1) then e else (e.1, 0))

/-- The wave's grants so far by slot. -/
def Recv.usedIn (r : Recv) (w : Nat) : Tbl Nat Nat := (r.used.filter fun e => e.1.1 == w).map fun e => (e.1.2, e.2)

/-- Whether a RECEIVE serves a REPLAY: this device's own, under the epoch that the RECEIVE binds for it, or until then behind the forward exchange's
RECEIVE (DEDUCED, log 406). -/
def State.replays (s : State) (r : Recv) : Bool :=
  (s.exchOf r.sheet).batches.any fun b => b.replay && b.step == r.step && b.layer == r.layer && (match r.bound.find r.own with
    | some e => e == b.epoch
    | none => (s.exchOf r.sheet).recvs.any fun x => x.step == r.step && x.layer == r.layer && decide (x.id < r.id))

/-- Whether the forward exchange's RECEIVE asked for a further wave after wave w: a replay has the waves of the forward exchange (R148). -/
def State.contBefore (s : State) (r : Recv) (w : Nat) : Bool :=
  s.replays r && (s.exchOf r.sheet).recvs.any fun x => x.step == r.step && x.layer == r.layer && decide (x.id < r.id) && x.cont.contains w

/-- The capacity of a slot for a RECEIVE: a replay's requests are granted in full (R148). -/
def State.slotCap (s : State) (r : Recv) (slot : Nat) : Nat :=
  let c := s.capOf r.sheet r.step r.layer slot
  if c ≠ 0 ∧ s.replays r = true then 2 ^ 32 else c

/-- The answers of a set of censuses placed: capacity errors counted, the landing list's room, the cont flag, then the reservations. -/
def State.grantRound (s : State) (r : Recv) (l : LayerRec) (wave round : Nat) (cs : List CensusRec)
    (answers : List (Nat × Nat × List (Nat × Nat))) (refused : Bool) : State :=
  let i := r.sheet
  let bad := sumOf cs fun c => (c.entries.filter fun e => s.capOf i r.step r.layer e.1 == 0).length
  let s := s.bump F.TRV_CENSUS_ERR_CNT_errors r.oct 0 bad
  let all := grantList answers
  let pend := sumOf (r.placing.filter fun p => p.wave == wave) fun p => p.grants.length
  let room := if r.full.contains wave then 0 else r.cap - ((r.lists.getD wave []).length + pend)
  let kept := all.take room
  let tooMany := decide (kept.length < all.length)
  let answers := if tooMany then keepGrants kept answers else answers
  let s := if tooMany && !r.full.contains wave then
      s.event { code := .listFull, job := some r.job, sheet := some i, unit := r.oct } else s
  let r := if tooMany then { r with full := wave :: r.full } else r
  let refused := refused || tooMany
  let used := kept.foldl (fun t g => t.put (wave, g.2.2.1) (t.getD (wave, g.2.2.1) 0 + g.2.2.2)) r.used
  let cont := r.strict && l.overflow == 2 && decide (wave < l.maxDefer) && (refused || s.contBefore r wave)
  let r := { r with
    used := used, cont := if cont then wave :: r.cont else r.cont, took := cs.map (fun c => (c.src, wave, round)) ++ r.took }
  let x := s.exchId i
  let last := if r.strict then l.overflow != 1 || round == 2 else false
  x.1.reservePlacing r ⟨x.2, wave, round, cont, last, answers, kept.map fun g => (g.1, g.2.1, g.2.2.1, g.2.2.2, none), s.datum⟩

/-- The round that a Strict RECEIVE computes next: the first of its waves that is not computed, none once it has ended. -/
def Recv.nextRound (r : Recv) (l : LayerRec) : Option (Nat × Nat) :=
  let rounds := if l.overflow = 1 then [0, 1, 2] else [0]
  (List.range 9).foldr (fun w acc =>
    if w ≠ 0 ∧ !r.cont.contains (w - 1) then none
    else match rounds.find? (fun k => !r.computed.contains (w, k)) with
      | some k => some (w, k)
      | none => acc) none

/-- The complete censuses of a round, in ascending source order. -/
def Recv.present (r : Recv) (w k : Nat) : List CensusRec :=
  sortBy (fun c => c.src) (r.censuses.filter fun c => c.wave == w && c.round == k && c.complete)

/-- A Strict round computed from the censuses that are there (R102 to R105); one whose frames are not all there stays, and is late once they are
(R103). -/
def State.computeRound (s : State) (r : Recv) (l : LayerRec) (w k : Nat) : State :=
  let cs := r.present w k
  let g := grantSources (s.slotCap r) cs (r.usedIn w)
  let r := { r with computed := (w, k) :: r.computed, censuses := r.censuses.filter fun c => !(c.wave == w && c.round == k && c.complete) }
  s.grantRound r l w k cs g.1 g.2.2

/-- Whether a Strict round holds what it waits for: a complete census of every participant that has not cancelled (R102, R145), or of
the quorum (R350). -/
def State.roundReady (s : State) (r : Recv) (l : LayerRec) (w k : Nat) : Bool :=
  let plist := s.plist r.sheet l
  let have_ := (r.present w k).map (·.src)
  let all := plist.all fun p => have_.contains p || r.gone.contains p
  let q := min 100 (s.get F.DGC_CTL_quorum_pct)
  all || (!(s.latched r.sheet r.step r.layer).2.2 && q != 0 && decide (ceilDiv (l.plistN * q) 100 ≤ have_.length))

/-! Relaxed grants (R107). -/

/-- The grants of a relaxed census in slot order; free counts the cells that are free, and stop says whether that leaves the pool at STOP. -/
def relaxedEntries (cap : Nat → Nat) (c : Nat) (stop : Nat → Bool) : List (Nat × Nat) → Tbl Nat Nat → Nat → List (Nat × Nat) × Bool
  | [], _, _ => ([], false)
  | (e, n) :: l, used, free =>
    let g := if stop free then 0 else min n (min (cap e - used.getD e 0) (free / max 1 c))
    let r := relaxedEntries cap c stop l (used.put e (used.getD e 0 + g)) (free - g * c)
    ((e, g) :: r.1, r.2 || decide (g < n))

/-- Whether a relaxed wave takes no further round: every participant that can ask has been served in it. -/
def State.relaxedFinal (s : State) (r : Recv) (l : LayerRec) (w : Nat) : Bool :=
  let plist := s.plist r.sheet l
  if l.overflow = 1 then plist.all fun p => r.served.contains (3, p)
  else plist.all fun p => r.gone.contains p || r.served.contains (w, p) ||
    (w != 0 && r.served.contains (w - 1, p) && !r.again.contains (w, p))

/-- The waves of a relaxed RECEIVE that have become final (log 33). -/
def State.relaxedFinals (s : State) (i id : Nat) : State :=
  match s.recv? i id with
  | none => s
  | some r =>
    match s.recvRec r with
    | none => s
    | some l =>
      if r.strict ∨ !r.begun then s
      else
        let go := (List.range (l.maxDefer + 1)).filter fun w => !r.final.contains w && s.relaxedFinal r l w &&
          (w == 0 || (l.overflow == 2 && r.served.any fun e => e.1 == w)) && (r.placing.all fun p => p.wave != w)
        let y := go.foldl (fun (a : State × Recv) w =>
          let b := a.1.setFinal a.2 w
          (b.1, { b.2 with cont := if b.2.again.any (fun e => e.1 == w + 1) then w :: b.2.cont else b.2.cont })) (s, r)
        (y.1.putRecv y.2).recvStep id i

/-- A complete census of a relaxed layer answered on arrival. -/
def State.relaxedCensus (s : State) (r : Recv) (l : LayerRec) (c : CensusRec) : State :=
  let x := s.pool l.pool
  -- without a landing pool, and in a replay, nothing limits a grant here: its reservation fails or waits (R131, R149)
  let open_ := (s.landingPool r.sheet l).isNone || s.replays r
  let stop := fun free : Nat => !open_ && x.stopAt free
  let g := relaxedEntries (s.slotCap r) (s.cellsFor l.pool l.tokenBytes) stop c.entries (r.usedIn c.wave) (if open_ then 2 ^ 64 else x.free)
  let again := if g.2 && l.overflow == 2 && decide (c.wave < l.maxDefer) then (c.wave + 1, c.src) :: r.again else r.again
  -- rounds 1 and 2 of a REDIRECT layer are counted as waves 1 and 2 of this list, and all three as wave 3
  let key := if l.overflow = 1 then c.round else c.wave
  let served := (key, c.src) :: r.served
  let served := if l.overflow = 1 ∧ (List.range 3).all (fun k => served.contains (k, c.src)) then (3, c.src) :: served else served
  let r := { r with again := again, served := served, censuses := r.censuses.filter fun y => !(y.src == c.src && y.wave == c.wave && y.round == c.round) }
  let s := s.grantRound r l c.wave c.round [c] [(c.src, c.epoch, g.1)] g.2
  s.relaxedFinals r.sheet r.id

/-! Arrival of a census. -/

/-- A census taken by a RECEIVE. -/
def State.bindCensus (s : State) (r : Recv) (c : CensusRec) (l : LayerRec) : State :=
  if r.computed.contains (c.wave, c.round) then
    if c.complete then s.answerZero c true else s.putRecv { r with censuses := r.censuses ++ [c] }
  else
    let s := s.latchCaps c.sheet c.step c.layer l
    let strict := if r.begun then r.strict else (s.latched c.sheet c.step c.layer).2.1
    let gone := if (s.exchOf c.sheet).cancelled.contains (c.src, c.step, c.epoch) ∧ !r.gone.contains c.src then c.src :: r.gone else r.gone
    let r := { r with bound := r.bound.put c.src c.epoch, begun := true, strict := strict, gone := gone, censuses := r.censuses ++ [c] }
    if !strict && c.complete then s.relaxedCensus r l c else s.putRecv r

/-- A census with its frames so far, bound to a RECEIVE that has not completed, or held (R129). A complete one of a relaxed RECEIVE is answered; one
for a round already computed gets zeros, late (R103), and so does one that a RECEIVE's round went without and that comes after the RECEIVE has
completed (DEDUCED, log 407). -/
def State.routeCensus (s : State) (c : CensusRec) (l : LayerRec) : State :=
  let recvs := s.armed c.sheet c.step c.layer
  let binds := fun r : Recv => r.bound.find c.src == some c.epoch
  let past := (s.exchOf c.sheet).recvs.any fun r => r.step == c.step && r.layer == c.layer && r.ended && binds r &&
    r.computed.contains (c.wave, c.round) && !r.took.contains (c.src, c.wave, c.round)
  let hold := fun z : Bool => s.updExch c.sheet fun x => { x with held := x.held ++ [{ c with zero := z }] }
  let zero := if c.complete then s.answerZero c true else hold true
  if c.zero then zero
  else match recvs.find? binds with
  | none => if past then zero else match recvs.find? fun r => (r.bound.find c.src).isNone with
    | none => hold false
    | some r => s.bindCensus r c l
  | some r => s.bindCensus r c l

/-- A census frame taken out of where its record is kept, with the record it makes. -/
def State.takeCensus (s : State) (i job : Nat) (h : RecHdr) (f : Frame) : State × CensusRec :=
  let same := fun c : CensusRec => c.src == h.sender && c.layer == h.layer && c.step == h.step && c.epoch == h.epoch && c.wave == h.wave &&
    c.round == h.round
  let x := s.exchOf i
  let old := match x.held.find? same with
    | some c => some c
    | none => x.recvs.findSome? fun r : Recv => r.censuses.find? same
  let c := match old with
    | some c => { c with frames := addFrame c.frames f }
    | none => ⟨i, job, h.sender, h.layer, h.step, h.epoch, h.wave, h.round, [f], s.datum, false⟩
  (s.updExch i fun x => { x with
    held := x.held.filter (fun c => !same c), recvs := x.recvs.map fun r : Recv => { r with censuses := r.censuses.filter fun c => !same c } }, c)

/-- An arriving census frame (R75, R98, R103, R129). -/
def State.censusFrame (s : State) (f : Frame) : State :=
  let i := f.dstSheet.toNat
  let h := recHdr f.payload
  let t := s.takeCensus i f.job.toNat h f
  let s := t.1
  let c := t.2
  -- a batch that names the epoch anew is not the cancelled one
  let s := if h.wave = 0 ∧ h.round = 0 ∧ c.frames.length = 1 then
      s.updExch i fun x => { x with cancelled := x.cancelled.filter (· ≠ (h.sender, h.step, h.epoch)) } else s
  let keep := s.updExch i fun x => { x with held := x.held ++ [{ c with zero := true }] }
  match (s.routingOf i).select h.step, s.layerAt i h.step h.layer with
  | none, _ => if c.complete then s.answerZero c true else keep
  | some _, none =>
    if c.complete then (s.bump F.TRV_CENSUS_ERR_CNT_errors (s.coordOct i h.layer) 0 c.entries.length).answerZero c false else keep
  | some _, some l =>
    if !(s.plist i l).contains h.sender then
      (if c.complete then (s.bump F.TRV_CENSUS_ERR_CNT_errors (s.coordOct i h.layer) 0 c.entries.length).answerZero c false else keep)
    else s.routeCensus c l

/-- The held censuses of a (step, layer) offered to a RECEIVE that has just been armed. -/
def State.offerHeld (s : State) (i step layer : Nat) : State :=
  let l := (s.exchOf i).held.filter fun c => c.step == step && c.layer == layer
  let s := s.updExch i fun x => { x with held := x.held.filter fun c => !(c.step == step && c.layer == layer) }
  match s.layerAt i step layer with
  | none => s
  | some r => l.foldl (fun s c => s.routeCensus c r) s

/-! Cancel records (R145). -/

/-- A cancel record of a source: its later censuses count as empty, and its entries whose return has not begun are dead. -/
def State.cancelRecord (s : State) (i : Nat) (h : RecHdr) : State :=
  let s := s.updExch i fun x => { x with cancelled := (h.sender, h.step, h.epoch) :: x.cancelled.filter (· ≠ (h.sender, h.step, h.epoch)) }
  (s.exchOf i).recvs.foldl (fun s (r : Recv) =>
    if r.step = h.step ∧ r.bound.find h.sender = some h.epoch ∧ !r.ended then
      let hit := fun e : LEntry => e.source == h.sender && e.epoch == h.epoch && !e.begun
      let s := r.lists.foldl (fun s w => w.2.zipIdx.foldl (fun s e =>
        if hit e.1 then s.write i (r.list + (w.1 * r.cap + e.2) * 16) { e.1 with dead := true }.bytes else s) s) s
      (s.putRecv { r with
        gone := h.sender :: r.gone.filter (· ≠ h.sender)
        lists := r.lists.mapVals fun _ l => l.map fun e => if hit e then { e with dead := true } else e }).relaxedFinals i r.id
    else s) s

end Sys2Proof.Machine
end

