-- ==== Sys2Proof/Machine/ExchReturn.lean ====
section
/-! DEFINITION. RETURN (R137) and the relays of the two-stage exchange (R150 to R152). -/

namespace Sys2Proof.Machine

/-! Relay tables and manifests. -/

/-- The entries of a relay table (R150): remote domain, local relay, remote relay. -/
def State.readRelayTable (s : State) (i a : Nat) : List (Nat × Nat × Nat) :=
  let n := leNat (s.rdFree i a 8) % 2 ^ 16
  (List.range (min n 4095)).map fun j =>
    let w := leNat (s.rdFree i (a + 8 + 8 * j) 8)
    (bitsOf w 11 0, bitsOf w 31 12, bitsOf w 51 32)

/-- The local relays of a table, and each one's domains with their bytes. -/
def relayDomains (table : List (Nat × Nat × Nat)) (bytes : Nat → Nat) : List (Nat × List (Nat × Nat)) :=
  (dedup (table.map fun e => e.2.1)).map fun r => (r, (table.filter fun e => e.2.1 == r).map fun e => (e.1, bytes e.1))

/-- A relay manifest (Table 4.7). -/
def State.sendManifest (s : State) (i job o dst layer wave step own epoch : Nat) (l : List (Nat × Nat)) : State :=
  s.sendRec i job o dst ⟨6, layer, wave, 0, 0, step, own, epoch, 0, 0⟩ 255 (l.map fun e => leBytes 4 e.1 ++ leBytes 4 e.2 ++ leBytes 8 0)

/-- The 32 B prefix of a relayed part (Table 4.14): four u64 words, of which the last holds the count in [31:0] and the part's bytes
behind the prefix in [63:32]. DESIGN CHOICE (log 34): the spec lists the four and gives no layout. -/
def relayPrefix (dst ext word count bytes : Nat) : List Byte :=
  leBytes 8 dst ++ leBytes 8 ext ++ leBytes 8 word ++ leBytes 8 (count + bytes * 2 ^ 32)

/-! RETURN. -/

def State.setRet (s : State) (r : RetRun) : State :=
  s.updExch r.sheet fun x => { x with rets := x.rets.map fun y => if y.id = r.id then r else y }

/-- The positions of an entry's extent that hold a landed record: position, route tag and return extent (R134, R137). -/
def State.landedOf (s : State) (i stride : Nat) (e : LEntry) : List (Nat × Nat × Nat) :=
  (List.range e.count).filterMap fun n =>
    let b := s.rd i (e.ext + n * stride) 16
    let w := uAt b 8 8
    if w / 2 ^ 44 = 2 ^ 20 - 1 then none else some (n, uAt b 0 8, w % 2 ^ 44)

/-- A group's put sent directly to its source. -/
def State.sendGroup (s : State) (r : RetRun) (g : RetGroup) : State :=
  s.issueGather r.sheet (s.engineAgent r.sheet r.oct) r.job g.dst (g.ext + 64) 0 g.data
    { OpEnd.none with owner := some (3, 8 * g.id + r.sheet), notify := some (fabAddr g.dst g.ext, g.count) }

/-- The bytes that a group puts at its relay. -/
def RetGroup.bytes (g : RetGroup) : Nat := 32 + sumOf g.data Piece.len

/-- A group's put sent to its relay at a place (R151). -/
def State.sendGroupRelay (s : State) (r : RetRun) (g : RetGroup) (relay place : Nat) : State :=
  s.issueGather r.sheet (s.engineAgent r.sheet r.oct) r.job relay place 0
    (.lit (relayPrefix g.dst (g.ext + 64) g.ext g.count (sumOf g.data Piece.len)) :: g.data)
    { OpEnd.none with owner := some (3, 8 * g.id + r.sheet) }

/-- A RETURN looked at: entries whose groups have all ended give their extents back, and with the last entry the RETURN completes. -/
def State.retStep (s : State) (i id : Nat) : State :=
  match (s.exchOf i).rets.find? fun r => r.id == id with
  | none => s
  | some r =>
    match s.recv? i r.recv with
    | none => s
    | some v =>
      let pool := (s.recvRec v).map (·.pool)
      let list := v.lists.getD r.wave []
      let ready := r.entries.filter fun j => (match list[j]? with
          | some e => !e.fin
          | none => false) && (r.groups.filter fun g => g.entry == j).all fun g => g.status.isSome
      let s := ready.foldl (fun s j => match list[j]?, pool with
        | some e, some p => s.engineFree p e.ext
        | _, _ => s) s
      let list := list.zipIdx.map fun e => if ready.contains e.2 then { e.1 with fin := true } else e.1
      let v := { v with lists := v.lists.put r.wave list }
      let s := s.putRecv v
      if r.groups.all fun g => g.status.isSome then
        let st := ((r.groups.filterMap fun g => g.status).find? (· ≠ Status.ok)).getD .ok
        let s := s.updExch i fun x => { x with rets := x.rets.filter fun y => y.id != r.id }
        (s.trvDone r.oct i r.layer r.done r.tag st).recvStep v.id i
      else s

/-- A group put has ended. -/
def State.retDone (s : State) (i gid : Nat) (st : Status) : State :=
  match (s.exchOf i).rets.find? fun r => r.groups.any fun g => g.id == gid with
  | none => s
  | some r =>
    (s.setRet { r with groups := r.groups.map fun g => if g.id = gid then { g with status := some st } else g }).retStep i r.id

/-- A checked RETURN d of a RECEIVE (R137). -/
def State.doReturn (s : State) (q : QDesc) (v : Recv) (l : LayerRec) : State :=
  let d := q.desc
  let i := v.sheet
  let wave := dAt d 28 1 % 16
  let fmt := dAt d 28 1 / 16
  let sexp := dAt d 29 1
  let first := dAt d 8 4
  let n := dAt d 12 4
  let list := v.lists.getD wave []
  let stride := s.landStride l
  let rs := alignUp (16 + v.outBytes) 256
  let range := (List.range n).map (first + ·)
  -- the landed records of every entry of the range, with the output row of its first
  let found := (range.foldl (fun (a : List (Nat × LEntry × Nat × List (Nat × Nat × Nat)) × Nat) j => match list[j]? with
    | some e =>
      let lr := if e.begun then [] else s.landedOf i stride e
      (a.1 ++ [(j, e, a.2, lr)], a.2 + (if e.begun then e.landed else lr.length))
    | none => a) ([], 0)).1
  let mine := found.filter fun x => !x.2.1.begun
  let list := mine.foldl (fun l x => listSet l x.1 { x.2.1 with begun := true, landed := x.2.2.2.length }) list
  let s := s.putRecv { v with lists := v.lists.put wave list }
  let y := s.exchId i
  let rid := y.2
  let s := y.1
  let table := s.relayTable i v.step v.layer
  -- skips of the dead entries
  let s := (mine.filter fun x => x.2.1.dead).foldl (fun s x =>
    let exts := dedup (x.2.2.2.map fun z => z.2.2)
    let h : RecHdr := ⟨5, v.layer, wave, 0, 0, v.step, v.own, x.2.1.epoch, 0, 0⟩
    let s := s.sendRec i v.job v.oct x.2.1.source h 255
      (exts.map fun e => leBytes 8 e ++ leBytes 4 ((x.2.2.2.filter fun z => z.2.2 == e).length) ++ leBytes 4 0)
    s.bump F.TRV_DEAD_SKIP_CNT_skipped v.oct 0 x.2.2.2.length) s
  -- groups of the living ones
  let mk := (mine.filter fun x => !x.2.1.dead).foldl (fun (a : State × List RetGroup) x =>
    (dedup (x.2.2.2.map fun z => z.2.2)).foldl (fun (a : State × List RetGroup) e =>
      let recs := x.2.2.2.zipIdx.filter fun z => z.1.2.2 == e
      let id := a.1.exchId i
      let data := recs.foldl (fun (b : State × List Piece) z =>
        let pad := b.1.freeBytes (rs - 16 - v.outBytes)
        (pad.1, b.2 ++ [.lit (leBytes 8 z.1.2.1 ++ leBytes 4 v.step ++ leBytes 4 (fmt + 16 * sexp)),
          .mem i (dAt d 16 8 + (x.2.2.1 + z.2) * dAt d 24 4) v.outBytes, .lit pad.2])) (id.1, [])
      let dom := data.1.domainOfLogical v.job x.2.1.source
      let rel := (table.find? fun t => t.1 == dom).map fun t => (t.2.1, none)
      (data.1, a.2 ++ [RetGroup.mk id.2 x.1 x.2.1.source e recs.length data.2 rel dom none])) a) (s, [])
  let s := mk.1
  let groups := mk.2
  let bytes := fun dom => sumOf (groups.filter fun g => g.relay.isSome && g.domain == dom) RetGroup.bytes
  let mans := relayDomains table bytes
  let run : RetRun := ⟨rid, v.id, i, v.job, v.own, v.layer, v.oct, v.step, wave, dAt d 48 8, dAt d 56 4, mine.map (·.1), groups,
    mans.map fun m => (m.1, m.2.filter fun e => e.2 != 0)⟩
  let s := s.updExch i fun x => { x with rets := x.rets ++ [run] }
  let s := mans.foldl (fun s m => s.sendManifest i v.job v.oct m.1 v.layer wave v.step v.own 0 m.2) s
  let s := (groups.filter fun g => g.relay.isNone).foldl (fun s g => s.sendGroup run g) s
  s.retStep i rid

/-! The relays. -/

def State.setRelay (s : State) (r : RelayIn) : State :=
  s.updExch r.sheet fun x => { x with relays := x.relays.map fun y => if y.id = r.id then r else y }

/-- A manifest entry joins a transfer: the first of its (step, layer, wave, domain) that has gone nowhere and holds nothing of the
sender, or a new one. It answers the transfer's number. -/
def State.joinRelay (s : State) (i job o : Nat) (h : RecHdr) (domain bytes : Nat) (remote : Bool) : State × Nat :=
  let src : RelaySrc := ⟨h.sender, h.epoch, bytes, none, []⟩
  match (s.exchOf i).relays.find? fun r => r.step == h.step && r.layer == h.layer && r.wave == h.wave && r.domain == domain &&
      r.remote == remote && !remote && !r.asked && !r.srcs.any fun x => x.src == h.sender with
  | some r => (s.setRelay { r with srcs := r.srcs ++ [src] }, r.id)
  | none =>
    let x := s.exchId i
    (x.1.updExch i fun y => { y with relays := y.relays ++ [⟨x.2, i, job, o, h.step, h.layer, h.wave, domain, remote, [src], s.datum, false, false,
      false, 0, []⟩] }, x.2)

/-- A manifest answered once every entry with bytes has its extent: a landing record (Table 4.14, step 2). -/
def State.answerManifest (s : State) (i : Nat) (a : RelayAns) : State :=
  if a.entries.all (fun e => e.2.isSome) then
    let s := s.updExch i fun x => { x with relayAns := x.relayAns.filter fun y => y.id != a.id }
    s.sendRec i a.job a.oct a.src ⟨3, a.layer, a.wave, 0, 0, a.step, s.ownNum i a.job, a.epoch, 0, 0⟩ 255
      (a.entries.map fun e => leBytes 8 (e.2.getD 0) ++ leBytes 8 0)
  else s.updExch i fun x => { x with relayAns := x.relayAns.map fun y => if y.id = a.id then a else y }

/-- The extent of a transfer's source set. -/
def State.relayExtent (s : State) (i rid src ext : Nat) : State :=
  match (s.exchOf i).relays.find? fun r => r.id == rid with
  | none => s
  | some r => s.setRelay { r with srcs := r.srcs.map fun x => if x.src = src then { x with ext := some ext } else x }

/-- An arriving relay manifest (R151). A frame that is not the last is kept by nothing: its entries count at once. -/
def State.manifestFrame (s : State) (f : Frame) : State :=
  let i := f.dstSheet.toNat
  let h := recHdr f.payload
  let o := s.coordOct i h.layer
  let job := f.job.toNat
  let entries := (recEntries 16 [f]).map fun b => (leNat b % 2 ^ 12, leNat (b.drop 4) % 2 ^ 32)
  match s.layerAt i h.step h.layer with
  | none => s
  | some l =>
    match s.landingPool i l with
    | none => s.exhausted i job o
    | some p =>
      let own := s.sw.devId / 256
      let x := s.exchId i
      let aid := x.2
      let y := entries.foldl (fun (a : State × List (Nat × Option Nat)) e =>
        let j := a.1.joinRelay i job o h e.1 e.2 (e.1 == own)
        if e.2 = 0 then (j.1, a.2)
        else
          let r := j.1.engineExtent p (j.1.cellsFor p e.2) (.relay aid)
          let s := match r.2 with
            | some ext => r.1.relayExtent i j.2 h.sender ext
            | none => r.1
          (s, a.2 ++ [(j.2, r.2)])) (x.1, [])
      let a : RelayAns := ⟨aid, h.sender, job, h.layer, h.step, h.wave, h.epoch, o, y.2, s.datum⟩
      (y.1.updExch i fun z => { z with relayAns := z.relayAns ++ [a] }).answerManifest i a

/-- A waiting relay extent reserved. -/
def fillAns (ext : Nat) : List (Nat × Option Nat) → List (Nat × Option Nat) × Option Nat
  | [] => ([], none)
  | e :: l => if e.2.isNone then ((e.1, some ext) :: l, some e.1) else let r := fillAns ext l; (e :: r.1, r.2)

def State.relayServed (s : State) (i aid ext : Nat) : State :=
  match (s.exchOf i).relayAns.find? fun a => a.id == aid with
  | none => s
  | some a =>
    let r := fillAns ext a.entries
    let s := match r.2 with
      | some rid => s.relayExtent i rid a.src ext
      | none => s
    s.answerManifest i { a with entries := r.1 }

/-- n bytes of a put have landed at an address of sheet i: the transfer whose extent it is notes them (Table 4.14, step 3). -/
def State.relayPut (s : State) (i a n : Nat) : State :=
  let add := fun x : RelaySrc => match x.ext with
    | some e => if e ≤ a ∧ a < e + x.bytes then { x with landed := x.landed ++ [(a - e, n)] } else x
    | none => x
  s.updExch i fun x => { x with relays := x.relays.map fun r => { r with srcs := r.srcs.map add } }

/-- How many of n bytes from byte o of a source's extent have been received: no byte is sent twice. -/
def RelaySrc.has (x : RelaySrc) (o n : Nat) : Nat := sumOf x.landed fun e => min (e.1 + e.2) (o + n) - max e.1 o
def RelaySrc.lacks (x : RelaySrc) : Bool := decide (x.has 0 x.bytes < x.bytes)

/-- The participants of a layer that lie in this device's domain (Table 4.14, step 4). -/
def State.localParts (s : State) (r : RelayIn) : List Nat :=
  match s.layerAt r.sheet r.step r.layer with
  | none => []
  | some l => (s.plist r.sheet l).filter fun p => s.domainOfLogical r.job p == s.sw.devId / 256

/-- What a transfer still lacks: sources without a manifest, and sources with bytes missing. -/
def State.relayLacks (s : State) (r : RelayIn) : List Nat :=
  (if r.remote then [] else (s.localParts r).filter fun p => !r.srcs.any fun x => x.src == p) ++
    (r.srcs.filter RelaySrc.lacks).map (·.src)

/-- The other relay of a domain, from the table of this device's own batch. -/
def State.peerRelay (s : State) (r : RelayIn) : Option Nat :=
  ((s.relayTable r.sheet r.step r.layer).find? fun e => e.1 == r.domain).map fun e => e.2.2

/-- A record sent to several logical devices by the engine of an octant. -/
def State.recordTo (s : State) (i job o : Nat) (l : List Nat) (rec : List Byte) : State :=
  l.foldl (fun s p => s.issueRecord i (s.engineAgent i o) job p rec OpEnd.none) s

/-- A cancel record passed on: by the local relay to the other relay of a domain, by the remote relay to every participant of its own (R152). -/
def State.passCancel (s : State) (i : Nat) (c : RelayCancel) : State :=
  let o := s.coordOct i c.layer
  match c.domain, s.layerAt i c.step c.layer with
  | some d, _ => s.recordTo i c.job o (((s.relayTable i c.step c.layer).filter fun e => e.1 == d).map fun e => e.2.2) c.rec_
  | none, some l => s.recordTo i c.job o ((s.plist i l).filter fun p => s.domainOfLogical c.job p == s.sw.devId / 256) c.rec_
  | none, none => s

/-- Whether a relay still holds parts of the epoch that a cancel record names and that its sender sent here before it: of every layer and wave
(R152). The other relay's transfers carry no epoch, so all of its transfers of the step count. -/
def State.cancelWaits (s : State) (i : Nat) (c : RelayCancel) : Bool :=
  (s.exchOf i).relays.any fun r => r.job == c.job && r.step == c.step && r.srcs.any fun x => x.bytes != 0 && x.src == c.src &&
    (match c.domain with
    | some d => !r.remote && r.domain == d && x.epoch == c.epoch
    | none => r.remote)

/-- The cancel records that wait for no transfer any more passed on. -/
def State.relayCancels (s : State) (i : Nat) : State :=
  let go := (s.exchOf i).relayCancels.filter fun c => !s.cancelWaits i c
  let s := s.updExch i fun x => { x with relayCancels := x.relayCancels.filter fun c => s.cancelWaits i c }
  go.foldl (fun s c => s.passCancel i c) s

/-- The parts of a source that a transfer holds whole, in order: destination, extent offset, notify word, count, where the records lie and their
bytes. A part behind one whose prefix has not come cannot be found. -/
def State.relayPartsAt (s : State) (i : Nat) (x : RelaySrc) : Nat → Nat → List (Nat × Nat × Nat × Nat × Nat × Nat)
  | 0, _ => []
  | fuel + 1, o =>
    let a := x.ext.getD 0 + o
    if x.bytes < o + 32 ∨ x.has o 32 < 32 then []
    else
      let w := s.rdN i (a + 24) 8
      let n := w / 2 ^ 32
      let rest := s.relayPartsAt i x fuel (o + 32 + n)
      if x.has o (32 + n) < 32 + n then rest else (s.rdN i a 8, s.rdN i (a + 8) 8, s.rdN i (a + 16) 8, w % 2 ^ 32, a + 32, n) :: rest

/-- The parts that a transfer holds, by ascending source (R151). -/
def State.relayHeld (s : State) (r : RelayIn) : List (Nat × Nat × Nat × Nat × Nat × Nat) :=
  (sortBy (fun x => x.src) r.srcs).flatMap fun x => s.relayPartsAt r.sheet x (x.bytes / 32 + 1) 0

/-- A transfer's extents given back once every put is acknowledged; the transfer is over, and the cancel records behind it go on. -/
def State.relayOver (s : State) (r : RelayIn) : State :=
  let pool := (s.layerAt r.sheet r.step r.layer).map (·.pool)
  let s := r.srcs.foldl (fun s x => match pool, x.ext with
    | some p, some e => s.engineFree p e
    | _, _ => s) s
  (s.updExch r.sheet fun x => { x with relays := x.relays.filter fun y => y.id != r.id }).relayCancels r.sheet

/-- A transfer that holds what it waits for goes on with the parts that are there (Table 4.14, steps 4 and 5): the local relay sends its manifest
to the other relay, the remote relay sends each part to its destination. -/
def State.relayGo (s : State) (r : RelayIn) : State :=
  let ag := s.engineAgent r.sheet r.oct
  let parts := s.relayHeld r
  if r.remote then
    let r := { r with asked := true, sent := true, left := parts.length }
    let s := s.setRelay r
    if parts.isEmpty then s.relayOver r
    else parts.foldl (fun s p =>
      s.issueGather r.sheet ag r.job p.1 p.2.1 0 [.mem r.sheet p.2.2.2.2.1 p.2.2.2.2.2]
        { OpEnd.none with owner := some (4, 8 * r.id + r.sheet), notify := some (fabAddr p.1 p.2.2.1, p.2.2.2.1) }) s
  else
    let held := parts.map fun p => (p.2.2.2.2.1 - 32, p.2.2.2.2.2 + 32)
    match s.peerRelay r with
    | none => if r.force then s.relayOver r else s
    | some p =>
      if held.isEmpty then s.relayOver r
      else
        let s := s.setRelay { r with asked := true, held := held }
        s.sendManifest r.sheet r.job r.oct p r.layer r.wave r.step (s.ownNum r.sheet r.job) 0 [(r.domain, sumOf held (·.2))]

/-- The other relay's landing record: all parts go to its extent as one put in TC4. -/
def State.relaySend (s : State) (r : RelayIn) (peer place : Nat) : State :=
  let pieces := r.held.map fun e => Piece.mem r.sheet e.1 e.2
  (s.setRelay { r with sent := true, left := 1 }).issueGather r.sheet (s.engineAgent r.sheet r.oct) r.job peer place 4 pieces
    { OpEnd.none with owner := some (4, 8 * r.id + r.sheet) }

/-- A put of a transfer has ended. -/
def State.relayDone (s : State) (i rid : Nat) : State :=
  match (s.exchOf i).relays.find? fun r => r.id == rid with
  | none => s
  | some r =>
    let r := { r with left := r.left - 1 }
    if r.left = 0 then (s.setRelay r).relayOver r else s.setRelay r

/-- A cancel record at a relay (R152). One that comes from its own source, of this domain, goes on to the other relay of each domain that
this device is the local relay for; one that another domain's relay sent goes on to the participants of this domain. Either waits
behind the transfers that hold parts of that sender. -/
def State.relayCancel (s : State) (i job src : Nat) (h : RecHdr) (rec : List Byte) : State :=
  let far := s.domainOfLogical job src != s.sw.devId / 256
  let mk := fun d : Option Nat => RelayCancel.mk job src h.step h.epoch h.layer d rec
  let new := if far then (if src = h.sender then [] else [mk none])
    else if src = h.sender then
      ((s.relayTable i h.step h.layer).filter fun e => e.2.1 == s.ownNum i job).map fun e => mk (some e.1)
    else []
  (s.updExch i fun x => { x with relayCancels := x.relayCancels ++ new }).relayCancels i

end Sys2Proof.Machine
end

