-- ==== Sys2Proof/Machine/ExchSource.lean ====
section
/-! DEFINITION. The source side of chapter 4: Plotting descriptors (R119 to R123), batches and their waves (R126 to R128, R105 to R112),
part sends (R135) and cancellation (R144). -/

namespace Sys2Proof.Machine

/-! Plotting. -/

/-- A Plotting descriptor that ends with a status. -/
def State.pltDone (s : State) (o i layer done tag : Nat) (st : Status) : State :=
  let s := if st = Status.ok then s else s.capture ⟨.PLT_FAULT_INFO, o, 0⟩ (layer * 2 ^ 48 + tag * 2 ^ 16 + st.code) []
  s.complete i done tag st

/-- Table 4.3 and the record count of R119. -/
def pltFormatOk (d : BitVec 512) (rec_ : Option LayerRec) : Bool :=
  let n := dAt d 8 4
  dAt d 0 1 == 1 && dAt d 2 2 / 2 ^ 12 == 0 && decide (1 ≤ n ∧ n ≤ 1048576) && dAt d 12 4 % 16 == 0 && dAt d 24 8 % 16 == 0 &&
  dAt d 40 8 == 0 && dAt d 48 8 % 8 == 0 && decide (dAt d 48 8 < 2 ^ 44) && dAt d 60 4 == 0 &&
  (match rec_ with
    | some r => n % max 1 r.k == 0 && decide (r.tokenBytes - 16 ≤ dAt d 12 4)
    | none => true)

/-- An assignment record resolved (R120): its destination and slot, or folded where it has none. -/
def resolveRec (h : Half) (r : LayerRec) (plist : List Nat) (plot : Nat) (b : List Byte) : Asg :=
  let tag := uAt b 0 8
  let w := uAt b 8 4
  let e := w % 2 ^ 20
  let a : Asg := ⟨tag, e, uAt b 12 4, 0, 0, plot, .none, 0, [], 0, 0⟩
  if !bitOf w 31 then a
  else match h.replica e tag r.seed with
    | some (d, sl) => if plist.contains d then { a with dest := d, slot := sl, st := .open_ } else { a with st := .folded }
    | none => { a with st := .folded }

/-- The resolved records' positions in the order of the run area (R121). -/
def runOrder (l : List Asg) : List Nat :=
  sortBy (fun j => match l[j]? with
    | some a => a.dest * 2 ^ 12 + a.slot
    | none => 0) ((List.range l.length).filter fun j => match l[j]? with
    | some a => a.st == .open_
    | none => false)

/-- The key table (R121): device, slot, first run record and count of each key, from its sorted keys. -/
def keyTable : List Nat → Nat → List (Nat × Nat × Nat) → List (Nat × Nat × Nat)
  | [], _, acc => acc.reverse
  | k :: l, j, [] => keyTable l (j + 1) [(k, j, 1)]
  | k :: l, j, (k', f, n) :: acc => if k = k' then keyTable l (j + 1) ((k', f, n + 1) :: acc) else keyTable l (j + 1) ((k, j, 1) :: (k', f, n) :: acc)

def keyBytes (t : List (Nat × Nat × Nat)) : List Byte :=
  (t.flatMap fun k => leBytes 4 (k.1 / 2 ^ 12 + k.1 % 2 ^ 12 * 2 ^ 20) ++ leBytes 4 k.2.1 ++ leBytes 4 k.2.2 ++ leBytes 4 0) ++
    (leBytes 8 0 ++ leBytes 4 0xFFFFFFFF ++ leBytes 4 0)

/-- n bytes at a of sheet i that are not defined: a free value in each that its logical device may write (R22, R68). -/
def State.undefine (s : State) (i job own a n : Nat) : State :=
  let mine := (List.range n).filter fun j => s.inData i (a + j) 1 && (s.regionRefuses i (a + j) 1 true job own).isNone
  (mine.foldl (fun s j => s.poke i (a + j) [Config.freeByte s.free j]) s).draw.wake

/-- A checked Plotting descriptor (R119 to R122): its records read and resolved by the half h of layer l; the run holds what is written when it
completes. -/
def State.plotStart (s : State) (o : Nat) (q : QDesc) (l : LayerRec) (h : Half) : State :=
  let d := q.desc
  let i := q.sheet
  let layer := dAt d 1 1
  let step := dAt d 4 4
  let e := dAt d 2 2 % 2 ^ 12
  let own := s.ownNum i q.job
  let n := dAt d 8 4
  let list := dAt d 16 8
  let a := s.access i q.job own [(list, 16 * n, false)]
  let s := a.1
  let raw := s.rd i list (16 * n)
  let recs := if a.2 = Status.ok then (List.range n).map fun j => resolveRec h l (s.plist i l) 0 (bytesAt raw (16 * j) 16) else []
  let toks := recs.map Asg.token
  let order := runOrder recs
  let keys := order.map fun j => match recs[j]? with
    | some x => x.dest * 2 ^ 12 + x.slot
    | none => 0
  let table := keyTable keys 0 []
  let valid := (recs.filter fun x => x.st != .none).length
  let nodest := (recs.filter fun x => x.st == .folded).length
  let run := order.flatMap fun j => bytesAt raw (16 * j) 16
  let kb := keyBytes table
  let tooMany := decide (65536 < table.length)
  let w := if a.2 = Status.ok && !tooMany then
      s.access i q.job own [(dAt d 24 8, run.length, true), (dAt d 24 8 + 16 * n, kb.length, true)] else (s, .ok)
  let s := w.1
  let st := if a.2 ≠ Status.ok then a.2 else if tooMany then .keyOverflow else w.2
  let plot : Plot := ⟨o, toks.foldl min (toks.headD 0), toks.foldl max 0, l.k, dAt d 32 8, dAt d 12 4, list + 16 * n, recs⟩
  let pr : PlotRun := ⟨i, (step, layer, e), plot, st, dAt d 24 8, if st = Status.ok then run else [], if st = Status.ok then kb else [],
    n, nodest, table.length, valid, dAt d 48 8, dAt d 56 4, layer, q.job, namesScratch 1 d⟩
  let s := s.adjEpoch i e fun x => { x with issued := x.issued + valid }
  let s := if st = Status.ok then s.countFold i e (s.coordOct i layer) nodest else s
  { s with plotRuns := s.plotRuns.put o pr }

/-- The descriptor at the head of octant o's Plotting queue, taken by an engine that works on none. -/
def State.plotTake (s : State) (o : Nat) : State :=
  match s.plotRuns.find o, s.ep.queues.getD (o, 1) [] with
  | none, q :: _ =>
    let s := s.popEngine o 1
    let d := q.desc
    let i := q.sheet
    let layer := dAt d 1 1
    let step := dAt d 4 4
    let e := dAt d 2 2 % 2 ^ 12
    let r := s.routingOf i
    let refuse := fun st => s.pltDone o i layer (dAt d 48 8) (dAt d 56 4) st
    match firstFail [(pltFormatOk d (r.layerAt step layer), Status.descFormat), ((r.select step).isSome, Status.stepRetired),
        ((r.layerAt step layer).isSome, Status.layerInvalid), (s.epochOpen i e step, Status.epochInvalid)],
        r.select step, r.layerAt step layer with
    | none, some b, some l => s.plotStart o q l (r.half b)
    | some st, _, _ => refuse st
    | none, _, _ => refuse .stepRetired
  | _, _ => s

/-- The Plotting engine of octant o has written the run area and key table (R121 to R123, R585). -/
def State.plotComplete (s : State) (o : Nat) : State :=
  match s.plotRuns.find o with
  | none => s
  | some p =>
    let i := p.sheet
    let s := { s with plotRuns := s.plotRuns.del o }
    let ok := p.status == Status.ok
    -- the run area and key table of a failed descriptor are not defined
    let s := if ok then (s.write i p.runAddr p.run).write i (p.runAddr + 16 * p.count) p.keys
      else s.undefine i p.job (s.ownNum i p.job) p.runAddr (16 * p.count + 16 * (min p.count 65536 + 1))
    let c := s.coordOct i p.layer
    let s := if ok then
        ((s.set F.PLT_STATUS_keys_last o 0 p.nkeys).bump F.PLT_ASSIGN_CNT_assignments o 0 (p.valid - p.nodest)).bump F.PLT_NODEST_CNT_folds o 0 p.nodest
      else s.countFold i p.key.2.2 c p.valid
    let d : Delivery := ⟨p.key, if ok then .counts p.plot else .failed p.status⟩
    let s := { s with deliveries := s.deliveries.put c (s.deliveries.getD c [] ++ [d]) }
    s.pltDone o i p.layer p.done p.tag p.status

/-! Batches: start. -/

/-- The open valid records of a list of plots, by how many (R126). -/
def openRecs (l : List Plot) : Nat := sumOf l fun p => (p.recs.filter fun a => a.st == .open_).length

/-- A batch without wave 0 has its issued records that are not folded yet folded (R126, R148). -/
def State.foldUnstarted (s : State) (b : Batch) : State × Batch :=
  let open_ := fun a : Asg => a.st == .open_
  (s.countFold b.sheet b.epoch b.oct (if b.replay then (b.asgs.filter open_).length else openRecs b.plots),
    { b.mapAsgs open_ (fun a => { a with st := .folded }) with plots := [] })

/-- A batch that ends without starting wave 0 (R126). -/
def State.abandon (s : State) (b : Batch) (st : Status) : State :=
  let r := s.foldUnstarted b
  r.1.endBatch r.2 st

/-- Whether two token index ranges of a list of plots overlap. -/
def plotsOverlap : List Plot → Bool
  | [] => false
  | p :: l => l.any (fun q => decide (p.low ≤ q.high ∧ q.low ≤ p.high)) || plotsOverlap l

/-- A batch that waits for its key counts, looked at after one arrives (R126). -/
def State.batchGather (s : State) (b : Batch) : State :=
  match b.fails with
  | st :: _ => s.abandon b st
  | [] => if plotsOverlap b.plots then s.abandon b .rangeOverlap else s.putBatch b

/-- A delivery taken by its batch, or kept for an EXCHANGE to come; the counts of a batch that has ended without wave 0 are folded. -/
def State.takeDelivery (s : State) (i : Nat) (d : Delivery) : State :=
  match (s.exchOf i).batches.find? fun b => b.key == d.key && !b.replay with
  | some b =>
    match d.what with
    | .counts p =>
      if b.ended && !b.started then s.countFold i b.epoch b.oct (openRecs [p])
      else if !b.started ∧ b.plots.length < b.plotN then s.batchGather { b with plots := b.plots ++ [p] }
      else s.updExch i fun x => { x with counts := x.counts ++ [d] }
    | .failed st => if b.started ∨ b.ended then s else s.batchGather { b with fails := b.fails ++ [st] }
  | none => s.updExch i fun x => { x with counts := x.counts ++ [d] }

/-- The records of a batch, with the number of the plot of each. -/
def batchAsgs (l : List Plot) : List Asg := l.zipIdx.flatMap fun p => p.1.recs.map fun a => { a with plot := p.2 }

/-! Batches: censuses. -/

/-- The positions of the requests that a batch makes in its present wave and round: open records; a replay asks for those of the wave. -/
def Batch.requests (b : Batch) : List Nat :=
  ((b.asgs.zipIdx.filter fun e => e.1.st == .open_ && (!b.replay || e.1.wave == b.wave)).map (·.2))

/-- A destination's requests by slot, each slot's in ascending token index (R97, R100, R128). -/
def Batch.asks (b : Batch) (dest : Nat) : List (Nat × List Nat) :=
  let mine := b.requests.filter fun j => match b.asgs[j]? with
    | some a => a.dest == dest
    | none => false
  let slotOf := fun j => match b.asgs[j]? with
    | some a => a.slot
    | none => 0
  let tokOf := fun j => match b.asgs[j]? with
    | some a => a.token * 16 + a.kslot
    | none => 0
  (sortBy (fun x : Nat => x) (dedup (mine.map slotOf))).map fun sl => (sl, sortBy tokOf (mine.filter fun j => slotOf j == sl))

/-- The censuses of a batch's present wave and round, to a list of destinations (R96, R97, R127). -/
def State.sendCensuses (s : State) (b : Batch) (dests : List Nat) : State :=
  let asks := dests.map fun d => (d, b.asks d)
  let b := asks.foldl (fun b e => b.mark (e.2.flatMap (·.2)) .asked)
    { b with awaiting := b.awaiting ++ asks.map (fun e => Await.mk e.1 e.2 s.datum [] []), told := dedup (b.told ++ dests) }
  let h : RecHdr := ⟨1, b.layer, b.wave, b.round, 0, b.step, b.own, b.epoch, 0, 0⟩
  let s := s.putBatch b
  asks.foldl (fun s e => s.sendRec b.sheet b.job b.oct e.1 h 1020 (e.2.map fun x => entry4 x.1 x.2.length)) s

/-- The participants of a batch's layer. -/
def State.batchPlist (s : State) (b : Batch) : List Nat := match s.batchRec b with
  | some r => s.plist b.sheet r
  | none => []

/-- Wave 0 begins (R126). -/
def State.startBatch (s : State) (b : Batch) (v : Recv) (l : LayerRec) : State :=
  let b := { b with
    started := true, sending := true, outBytes := v.outBytes, k := l.k, pool := l.pool, strict := s.strictNow l
    asgs := if b.replay then b.asgs else batchAsgs b.plots
    table := if b.relay then s.readRelayTable b.sheet b.relayA else [] }
  let r := s.combine b
  r.1.sendCensuses r.2 (s.plist b.sheet l)

/-! Batches: grants. -/

/-- The parts that a grant of the records at some positions makes (R128): one per plot, in ascending token index. -/
def State.splitGrant (s : State) (b : Batch) (dest slot ext arrival : Nat) (got : List Nat) : State × Batch :=
  let n := got.length
  let s := s.adjEpoch b.sheet b.epoch fun x => { x with granted := x.granted + n, held := if b.wave != 0 && !b.replay then x.held - n else x.held }
  let b1 := { b with asgs := b.asgs.zipIdx.map fun (e : Asg × Nat) => if got.contains e.2 then { e.1 with st := .granted, wave := b.wave } else e.1 }
  let dom := s.domainOfLogical b.job dest
  let rel := (b.table.find? fun t => t.1 == dom).map fun t => (t.2.1, (none : Option Nat))
  let plotOf := fun j => match b.asgs[j]? with
    | some a => a.plot
    | none => 0
  let r := (dedup (got.map plotOf)).foldl (fun (a : State × List Part × Nat) p =>
    let mine := got.filter fun j => plotOf j == p
    let x := a.1.exchId b.sheet
    (x.1, a.2.1 ++ [Part.mk x.2 p dest slot mine ext arrival a.2.2 b.wave none .waiting s.datum rel], a.2.2 + mine.length)) (s, [], 0)
  (r.1, { b1 with parts := b1.parts ++ r.2.1 })

/-- Requests that their destination refused, by the overflow policy (R109 to R111): folded, left for the next round, or held. -/
def State.refused (s : State) (b : Batch) (l : LayerRec) (pos : List Nat) : State × Batch :=
  if pos.isEmpty then (s, b)
  else if l.overflow = 2 ∧ b.wave < l.maxDefer ∧ !b.replay then
    let s := s.adjEpoch b.sheet b.epoch fun x => { x with held := if b.wave = 0 then x.held + pos.length else x.held }
    (s.bump F.TRV_DEFER_CNT_defers b.oct 0 pos.length, b.mark pos .held)
  else
    let s := if b.wave ≠ 0 ∧ !b.replay then s.adjEpoch b.sheet b.epoch fun x => { x with held := x.held - pos.length } else s
    if l.overflow = 1 ∧ b.round < 2 ∧ !b.replay then (s, b.mark pos .open_) else s.fold b pos

/-- The spare at place u of a token's list, if there is one (R89, R110). -/
def State.spareOf (s : State) (b : Batch) (a : Asg) (u : Nat) : Option Nat :=
  match b.plots[a.plot]? with
  | none => none
  | some p =>
    let ord := (p.recs.map Asg.token).idxOf a.token / max 1 p.k
    let w := if u < 4 then leNat (s.rdFree b.sheet (p.spares + 16 * ord + 4 * u) 4) else 0xFFFFFFFF
    if w = 0xFFFFFFFF then none else some w

/-- The refused requests of a round given their spares, in ascending k-slot (R110). One without a spare, or whose spare has no
destination, is folded. -/
def State.redirect (s : State) (b : Batch) (l : LayerRec) : State × Batch :=
  match (s.routingOf b.sheet).select b.step with
  | none => (s, b)
  | some hb =>
    let h := (s.routingOf b.sheet).half hb
    let plist := s.plist b.sheet l
    let key := fun j => match b.asgs[j]? with
      | some a => a.token * 16 + a.kslot
      | none => 0
    (sortBy key b.requests).foldl (fun (r : State × Batch) j =>
      match r.2.asgs[j]? with
      | none => r
      | some a =>
        let u := r.2.spares.getD a.token 0
        match (if u < l.spares then r.1.spareOf r.2 a u else none) with
        | none => r.1.fold r.2 [j]
        | some e =>
          let s := r.1.bump F.TRV_REDIRECT_CNT_redirects b.oct 0 1
          let b := { r.2 with spares := r.2.spares.put a.token (u + 1) }
          match h.replica e a.tag l.seed with
          | some (d, sl) =>
            if plist.contains d then (s, { b with asgs := listSet b.asgs j { a with expert := e, dest := d, slot := sl } })
            else s.fold { b with asgs := listSet b.asgs j { a with expert := e } } [j]
          | none => s.fold { b with asgs := listSet b.asgs j { a with expert := e } } [j]) (s, b)

/-- The manifests of a wave whose grants are all known (Table 4.14, step 1): per local relay, the bytes of the wave's parts for each of
its domains. -/
def State.waveManifests (s : State) (b : Batch) (l : LayerRec) : State × Batch :=
  let stride := s.landStride l
  let bytes := fun dom => sumOf (b.parts.filter fun p => p.wave == b.wave && p.relay.isSome && s.domainOfLogical b.job p.dest == dom)
    fun p => 32 + p.asgs.length * stride
  let mans := relayDomains b.table bytes
  (mans.foldl (fun s m => s.sendManifest b.sheet b.job b.oct m.1 b.layer b.wave b.step b.own b.epoch m.2) s,
    { b with manifests := b.manifests ++ mans.map fun m => (m.1, b.wave, m.2.filter fun e => e.2 != 0) })

/-- Every destination of the round has answered: the next round, the next wave, or the end of sending (R105 to R112). A request deferred to a
destination that then takes no further census from this source (its grant was late, timed out or without cont) cannot be requested again: it is
folded (DEDUCED, log 408). -/
def State.roundEnd (s : State) (b : Batch) : State :=
  match s.batchRec b with
  | none => s.putBatch b
  | some l =>
    let r := if l.overflow = 1 ∧ b.round < 2 ∧ !b.replay then s.redirect b l else (s, b)
    let s := r.1
    let b := r.2
    let asked := dedup (b.requests.filterMap fun j => (b.asgs[j]?).map Asg.dest)
    let next := if b.strict then s.batchPlist b else sortBy id asked
    if l.overflow = 1 ∧ b.round < 2 ∧ !next.isEmpty then (s.sendCensuses { b with round := b.round + 1 } next)
    else
      let m := s.waveManifests b l
      let s := m.1
      let b := m.2
      -- deferred requests are open again in the next wave
      let heldPos := (b.asgs.zipIdx.filter fun e => e.1.st == .held).map (·.2)
      let can := fun j => match b.asgs[j]? with
        | some a => !b.strict || b.cont.contains a.dest
        | none => false
      let lost := heldPos.filter fun j => !can j
      let s := if lost.isEmpty then s else s.adjEpoch b.sheet b.epoch fun x => { x with held := x.held - lost.length }
      let f := s.fold b lost
      let s := f.1
      let b := f.2.mark (heldPos.filter can) .open_
      let later := if b.replay then dedup (b.asgs.filterMap fun a => if a.st == .open_ && b.wave + 1 == a.wave then some a.dest else none)
        else dedup (b.requests.filterMap fun j => (b.asgs[j]?).map Asg.dest)
      let next := if b.strict then b.cont else sortBy id later
      if l.overflow = 2 ∧ b.wave < l.maxDefer ∧ !next.isEmpty then
        s.sendCensuses { b with wave := b.wave + 1, round := 0, cont := [] } (sortBy id next)
      else
        -- a replay's records of waves that do not come are folded
        let rest := b.asgs.zipIdx.filterMap fun e => if e.1.st == .open_ then some e.2 else none
        let f := s.fold b rest
        f.1.batchStep { f.2 with sending := false }

/-- After a destination of the round has answered or failed to. -/
def State.afterAnswer (s : State) (b : Batch) : State :=
  if b.awaiting.isEmpty then
    let r := s.combine b
    r.1.roundEnd r.2
  else s.batchStep b

/-- A destination's grants applied: per slot asked, the grant and its landing entry (R100, R128, R132). -/
def State.applyGrants (s : State) (b : Batch) (l : LayerRec) (w : Await) : State :=
  let grants := (recEntries 4 w.grant).map fun e => (leNat e % 2 ^ 12, leNat e / 2 ^ 12)
  let lands := (recEntries 16 w.landing).map fun e => (leNat e % 2 ^ 44, leNat (e.drop 8) % 2 ^ 44)
  let b := { b with awaiting := b.awaiting.filter fun x => x.dest != w.dest,
                    cont := if bitOf (recHdr ((w.grant.headD frame0).payload)).flags 1 then w.dest :: b.cont else b.cont }
  let r := w.asked.foldl (fun (a : State × Batch × List (Nat × Nat)) e =>
    let g := min e.2.length (((grants.find? fun x => x.1 == e.1).map fun x => x.2).getD 0)
    if g = 0 then let f := a.1.refused a.2.1 l e.2; (f.1, f.2, a.2.2)
    else match a.2.2 with
      | [] =>
        let f := (a.1.bump F.TRV_CENSUS_ERR_CNT_errors b.oct 0 1).refused a.2.1 l e.2
        (f.1, f.2, [])
      | x :: rest =>
        let f := a.1.splitGrant a.2.1 w.dest e.1 x.1 x.2 (e.2.take g)
        let f := f.1.refused f.2 l (e.2.drop g)
        (f.1, f.2, rest)) (s, b, lands)
  r.1.afterAnswer r.2.1

/-- The batch that an arriving grant or landing record belongs to, if it still waits for it (R108). -/
def State.awaiting? (s : State) (i : Nat) (h : RecHdr) : Option (Batch × Await) :=
  match (s.exchOf i).batches.find? fun b => b.step == h.step && b.layer == h.layer && b.epoch == h.epoch && b.started && !b.ended && !b.cancel &&
      b.wave == h.wave with
  | none => none
  | some b => (b.awaiting.find? fun w => w.dest == h.sender).map fun w => (b, w)

/-- A frame of a grant (kind 2) or landing record (kind 3) added; a complete pair takes effect (R132). -/
def State.grantFrame (s : State) (b : Batch) (w : Await) (f : Frame) : State :=
  let w := if (recHdr f.payload).kind = 2 then { w with grant := addFrame w.grant f } else { w with landing := addFrame w.landing f }
  match recComplete w.grant && recComplete w.landing, s.batchRec b with
  | true, some l => s.applyGrants b l w
  | _, _ => s.putBatch { b with awaiting := b.awaiting.map fun x => if x.dest = w.dest then w else x }

/-! Part sends. -/

/-- The landed records of a part (R134): header, payload row, and the rest of the record's cells. -/
def State.landedPieces (s : State) (b : Batch) (l : LayerRec) (p : Part) (stride : Nat) : State × List Piece :=
  let pl := (b.plots[p.plot]?)
  p.asgs.foldl (fun (a : State × List Piece) j =>
    match b.asgs[j]? with
    | none => a
    | some x =>
      let row := match pl with
        | some q => q.payload + x.token * q.stride
        | none => b.payload + x.token * b.stride
      let pad := a.1.freeBytes (stride - l.tokenBytes)
      (pad.1, a.2 ++ [.lit (leBytes 8 x.tag ++ leBytes 8 (p.comb.getD 0)), .mem b.sheet row (l.tokenBytes - 16), .lit pad.2])) (s, [])

/-- The octant whose engine sends a part. -/
def Batch.partOct (b : Batch) (p : Part) : Nat := match b.plots[p.plot]? with
  | some q => q.oct
  | none => b.oct

/-- A part with its combine extent sent: directly (R135), or to its relay once the place there is known (R151). -/
def State.sendPart (s : State) (b : Batch) (p : Part) : State :=
  match s.batchRec b with
  | none => s.putBatch b
  | some l =>
    let stride := s.landStride l
    let o := b.partOct p
    let ag := s.engineAgent b.sheet o
    let g := p.asgs.length
    match p.relay with
    | some (_, none) => s.putBatch (b.setPart { p with st := .ready })
    | some (r, some place) =>
      let x := s.landedPieces b l p stride
      let pre := relayPrefix p.dest (p.ext + p.ordinal * stride) (p.arrival + 8) g (g * stride)
      (x.1.putBatch (b.setPart { p with st := .sending })).issueGather b.sheet ag b.job r place 0 (.lit pre :: x.2)
        { OpEnd.none with owner := some (2, 8 * p.id + b.sheet) }
    | none =>
      let x := s.landedPieces b l p stride
      (x.1.putBatch (b.setPart { p with st := .sending })).issueGather b.sheet ag b.job p.dest (p.ext + p.ordinal * stride) 0 x.2
        { OpEnd.none with owner := some (2, 8 * p.id + b.sheet), notify := some (fabAddr p.dest (p.arrival + 8), g) }

/-- A part's combine extent has been reserved: its header word starts at zero, and the part is sent; a cancelled part's extent goes back. -/
def State.partExtent (s : State) (b : Batch) (p : Part) (ext : Nat) : State :=
  if p.st = .done ∨ b.cancel then s.engineFree b.pool ext
  else (s.writeN b.sheet ext 8 0).sendPart (b.setPart { p with comb := some ext }) { p with comb := some ext }

/-- A part's combine extent asked for (R135). -/
def State.reservePart (s : State) (b : Batch) (p : Part) : State :=
  match s.batchRec b with
  | none => s
  | some l =>
    match s.landingPool b.sheet l with
    | none =>
      let s := s.exhausted b.sheet b.job (b.partOct p)
      s.putBatch (b.setPart { p with st := .reserving })
    | some q =>
      let p := { p with st := .reserving, since := s.datum }
      let x := s.engineExtent q (s.cellsFor q (64 + p.asgs.length * b.rs)) (.combine p.id)
      match x.2 with
      | some ext => x.1.partExtent (b.setPart p) p ext
      | none => x.1.putBatch (b.setPart p)

/-- The batch and part of a number. -/
def State.part? (s : State) (i id : Nat) : Option (Batch × Part) :=
  (s.exchOf i).batches.findSome? fun b => (b.parts.find? fun p => p.id == id).map fun p => (b, p)

/-- A manifest's domains without the first n of one relay's, which have been placed; with its last the manifest goes. -/
def dropPlaced (n : Nat) (doms : List (Nat × Nat)) : Option (List (Nat × Nat)) := if doms.length ≤ n then none else some (doms.drop n)

/-- A frame of a relay's landing record: the parts of the next domains of the manifest take their places in order (R151). -/
def State.placeParts (s : State) (b : Batch) (relay wave : Nat) (doms : List (Nat × Nat)) (exts : List Nat) : State :=
  let stride := match s.batchRec b with
    | some l => s.landStride l
    | none => 0
  let places := (doms.zip exts).flatMap fun e =>
    ((b.parts.filter fun p => p.wave == wave && p.relay == some (relay, none) && s.domainOfLogical b.job p.dest == e.1.1).foldl
      (fun (a : List (Nat × Nat) × Nat) p => (a.1 ++ [(p.id, e.2 + a.2)], a.2 + 32 + p.asgs.length * stride)) ([], 0)).1
  let b := { b with
    manifests := b.manifests.filterMap fun m =>
      if m.1 == relay && m.2.1 == wave then (dropPlaced exts.length m.2.2).map fun l => (relay, wave, l) else some m
    parts := b.parts.map fun p => match places.find? fun x => x.1 == p.id with
      | some x => { p with relay := some (relay, some x.2) }
      | none => p }
  let s := s.putBatch b
  places.foldl (fun s x => match s.part? b.sheet x.1 with
    | some (b, p) => if p.st = .ready then s.sendPart b p else s
    | none => s) s

/-! Cancellation (R144). -/

/-- The sends of an epoch's parts that have begun and are not acknowledged. -/
def State.sendsBegun (s : State) (i e : Nat) : Bool :=
  (s.exchOf i).batches.any fun b => b.epoch == e && b.parts.any fun p => p.st == .sending

/-- The bytes that a result row may take. -/
def Batch.rowMax (b : Batch) : Nat :=
  let n := b.outBytes * retSize b.fmt
  if b.stride = 0 then n else min n b.stride

/-- One batch of a cancelled epoch: what is pending is folded, what is granted and not sent is stale, and it ends with BATCH_CANCELLED.
Its rows are not defined. -/
def State.cancelBatch (s : State) (b : Batch) : State :=
  let pend := b.asgs.zipIdx.filterMap fun e => if e.1.st == .open_ || e.1.st == .asked || e.1.st == .held then some e.2 else none
  let held := if b.wave ≠ 0 ∧ !b.replay then pend.length else (b.asgs.filter fun a => a.st == .held).length
  let s := if b.started then s.adjEpoch b.sheet b.epoch fun x => { x with held := x.held - held } else s
  let f := if b.started then s.fold b pend else s.foldUnstarted b
  let s := f.1
  let b := f.2
  let drop := b.parts.filter fun p => p.st == .waiting || p.st == .reserving || p.st == .ready
  let s := drop.foldl (fun s p =>
    let s := s.adjEpoch b.sheet b.epoch fun x => { x with stale := x.stale + p.asgs.length }
    match p.comb with
    | some c => s.engineFree b.pool c
    | none => s) s
  let b := drop.foldl (fun b p => (b.mark p.asgs .stale).setPart { p with st := .done, comb := none }) { b with awaiting := [], manifests := [] }
  let r := s.combine b
  let s := r.1
  let b := r.2
  if b.ended then s.putBatch b
  else
    let s := b.tokens.foldl (fun s t => s.undefine b.sheet b.job b.own (b.result + t * b.stride) b.rowMax) s
    s.endBatch b .batchCancelled

/-- A cancellation goes through once no send of the epoch is under way: cancel records, the state CANCELLED, the batches' ends, and the
answers owed. -/
def State.cancelStep (s : State) (i e : Nat) : State :=
  let x := s.epochAt i e
  if x.st ≠ .open_ ∨ x.cancels.isEmpty ∨ s.sendsBegun i e then s
  else
    let bs := (s.exchOf i).batches.filter fun b => b.epoch == e
    let s := bs.foldl (fun s b =>
      let rec_ := (recFrames ⟨4, b.layer, 0, 0, 0, b.step, b.own, e, 0, 0⟩ 255 []).headD []
      let via := fun d => (b.table.find? fun t => t.1 == s.domainOfLogical b.job d).map fun t => t.2.1
      s.recordTo i b.job b.oct (dedup (b.told.map fun d => (via d).getD d)) rec_) s
    let s := s.setEpoch i e { x with st := .cancelled, since := s.datum, cancels := [] }
    let s := bs.foldl (fun s b => match s.batch? i b.id with
      | some b => s.cancelBatch b
      | none => s) s
    let s := x.cancels.foldl (fun s w => match w with
      | .desc done tag => s.trvDone (s.physOct i 0) i 0 done tag .ok
      | .packet o => s.final o .ok) s
    s.settleEpoch i e

/-- A cancellation of an OPEN epoch begins (R144). -/
def State.cancelBegin (s : State) (i e : Nat) (w : EpochFor) : State :=
  let s := s.adjEpoch i e fun x => { x with cancels := x.cancels ++ [w] }
  let s := s.updExch i fun x => { x with batches := x.batches.map fun b => if b.key.2.2 = e then { b with cancel := true } else b }
  s.cancelStep i e

/-! Operations that have completed. -/

/-- A part's put has ended (R142). -/
def State.partDone (s : State) (i id : Nat) (st : Status) : State :=
  match s.part? i id with
  | none => s
  | some (b, p) =>
    let s :=
      if p.st ≠ .sending then s
      else if st = Status.ok then
        let r := s.checkParts (b.setPart { p with st := .acked, since := s.datum })
        r.1.batchStep r.2
      else s.partLost b p
    s.cancelStep i b.epoch

/-- A waiting reservation of a Traverse engine that its pool has served (R163). -/
def State.engineAnswer (s : State) (p : Nat) (src : ReqFrom) (ext : Nat) : State :=
  let i := (s.pool p).sheet
  match src with
  | .landing id =>
    let s := s.landingServed i id ext
    (s.exchOf i).recvs.foldl (fun s (r : Recv) => if r.ended || r.strict then s else s.relaxedFinals i r.id) s
  | .combine id => match s.part? i id with
    | some (b, q) => s.partExtent b q ext
    | none => s.engineFree p ext
  | .relay id => s.relayServed i id ext
  | .agent _ => s

/-- The completed operations of the engines on sheet i handed to their owners. -/
def State.exchOps (s : State) : State :=
  let l := s.ep.done.filter fun d => d.1 == 2 || d.1 == 3 || d.1 == 4
  let s := { s with ep := { s.ep with done := s.ep.done.filter fun d => !(d.1 == 2 || d.1 == 3 || d.1 == 4) } }
  l.foldl (fun s d =>
    let i := d.2.1 % 8
    let id := d.2.1 / 8
    if d.1 = 2 then s.partDone i id d.2.2 else if d.1 = 3 then s.retDone i id d.2.2 else s.relayDone i id) s

end Sys2Proof.Machine
end

