-- ==== Sys2Proof/Machine/Pools.lean ====
section
/-! DEFINITION. The commands of chapter 5: the pool commands of class 0x04 and the lifecycle of a pool (R155, R156, R161, R170),
and the pool requests of Table 5.4 (R162 to R166). -/

namespace Sys2Proof.Machine

/-- Thresholds with their defaults (Table 5.1). -/
def resolvePct (v d : Nat) : Nat := if v = 0 then d else v
def resolveHyst (v : Nat) : Nat := if v = 255 then 2 else v

/-- warn_pct, stop_pct, crit_pct and hyst_pct at offset o, resolved. -/
def pcts (p : List Byte) (o : Nat) : Nat × Nat × Nat × Nat :=
  (resolvePct (uAt p o 1) 75, resolvePct (uAt p (o + 1) 1) 90, resolvePct (uAt p (o + 2) 1) 98, resolveHyst (uAt p (o + 3) 1))

/-- R156: warn_pct < stop_pct < crit_pct with hyst_pct < warn_pct. -/
def pctsOrdered (t : Nat × Nat × Nat × Nat) : Bool := decide (t.1 < t.2.1 ∧ t.2.1 < t.2.2.1 ∧ t.2.2.2 < t.1)

/-- The ranges and order of the four percentages at offset o. -/
def pctChecks (p : List Byte) (o : Nat) : List (Bool × Ans) :=
  [(decide (uAt p o 1 ≤ 100), .badP o), (decide (uAt p (o + 1) 1 ≤ 100), .badP (o + 1)), (decide (uAt p (o + 2) 1 ≤ 100), .badP (o + 2)),
    (decide (uAt p (o + 3) 1 ≤ 20) || uAt p (o + 3) 1 == 255, .badP (o + 3))]

/-- Table 5.1 from offset 3 on, with the order of R156. -/
def layoutChecks (p : List Byte) : List (Bool × Ans) :=
  let mode := uAt p 4 1
  let code := uAt p 5 1
  [(decide (uAt p 3 1 ≤ 1), .badP 3), (decide (mode ≤ 1), .badP 4), (if mode = 1 then code == 0 else decide (code ≤ 4), .badP 5)] ++
  pctChecks p 6 ++
  [(zeros p 10 6, .badP 10),
    (uAt p 16 8 % (if mode = 1 then 2 ^ 20 else 256 * 2 ^ code) == 0, .badP 16),
    (if mode = 1 then uAt p 24 4 == 0 else decide (1 ≤ uAt p 24 4 ∧ uAt p 24 4 ≤ 16777216), .badP 24),
    (zeros p 28 4, .badP 28),
    (mode == 1 || zeros p 32 4, .badP 32), (mode == 1 || zeros p 36 4, .badP 36), (mode == 1 || zeros p 40 4, .badP 40),
    (mode == 1 || zeros p 44 4, .badP 44),
    (pctsOrdered (pcts p 6), .badP 6)]

/-- The pool of the parameters of Table 5.1. -/
def poolOf (h : CmdHdr) (p : List Byte) : Pool :=
  let t := pcts p 6
  { Pool.off with
    sheet := uAt p 1 1
    home := uAt p 2 1
    xd := uAt p 3 1 == 1
    sized := uAt p 4 1 == 1
    code := uAt p 5 1
    warn := t.1
    stop := t.2.1
    crit := t.2.2.1
    hyst := t.2.2.2
    base := uAt p 16 8
    cells := uAt p 24 4
    n1m := uAt p 32 4
    n64k := uAt p 36 4
    n4k := uAt p 40 4
    n512 := uAt p 44 4
    job := if h.jobValid then some h.job.toNat else none }

/-- A pool that holds bytes or link entries: any state but OFF. -/
def Pool.present (x : Pool) : Bool := x.life.st != .off

/-- Whether a pool lies wholly inside the window that R154 allows. -/
def State.poolFits (s : State) (x : Pool) : Bool :=
  if x.xd then
    let a := 0x18000000000 + x.home * 2 ^ 26
    decide (a ≤ x.base) && decide (x.base + x.size ≤ a + 2 ^ 24)
  else decide (x.base + x.size ≤ (s.sheet x.sheet).usable)

/-- Whether a pool overlaps the bytes of another pool of its sheet. -/
def State.poolOverlaps (s : State) (p : Nat) (x : Pool) : Bool :=
  s.pools.any fun e => e.1 != p && e.2.present && e.2.sheet == x.sheet &&
    decide (e.2.base < x.base + x.size) && decide (x.base < e.2.base + e.2.size)

/-- The gaps of the link table between the ranges of the chain-mode pools (R156). -/
def linkGaps : List (Nat × Nat) → Nat → List (Nat × Nat)
  | [], pos => [(pos, 16777216 - pos)]
  | (b, n) :: l, pos => (pos, b - pos) :: linkGaps l (b + n)

/-- The link entries in use beside pool p: those of the other pools, and of the reserved pools (R554). -/
def State.linkRanges (s : State) (p : Nat) : List (Nat × Nat) :=
  sortBy (·.1) (s.boot.links ++ s.pools.filterMap fun e => if e.1 ≠ p ∧ e.2.present ∧ !e.2.sized then some (e.2.linkBase, e.2.cells) else none)

/-- The k-th place at which n entries fit. -/
def nthFit (n : Nat) : List (Nat × Nat) → Nat → Option Nat
  | [], _ => none
  | (b, g) :: l, k => if g < n then nthFit n l k else if k < g - n + 1 then some (b + k) else nthFit n l (k - (g - n + 1))

/-- A contiguous range of n free link entries. Which of the ranges that fit a pool takes, the spec does not say: a free value
(log 30). -/
def State.linkPlace (s : State) (p n : Nat) : Option Nat :=
  let gaps := linkGaps (s.linkRanges p) 0
  let places := sumOf gaps fun g => if g.2 < n then 0 else g.2 - n + 1
  if places = 0 then none else nthFit n gaps ((Config.freeWord s.free).toNat % places)

/-- The conditions of R156 that depend on other state, and the pool with its link entries. -/
def State.poolPlace (s : State) (p : Nat) (x : Pool) : Except Status Pool :=
  if !s.sheetOn x.sheet ∨ (s.sheet x.sheet).m ≤ x.home ∨ !s.poolFits x then .error .addressRange
  else if s.poolOverlaps p x then .error .poolOverlap
  else if x.sized then .ok x
  else match s.linkPlace p x.cells with
    | none => .error .linkTableFull
    | some b => .ok { x with linkBase := b }

/-- A POOL_CREATE whose pool is OFF (R156): the checks, then STARTING. -/
def State.poolBegin (s : State) (pkt : Packet) (deferred : Bool) : State × Ans :=
  let p := uAt pkt.params 0 1
  let x := poolOf pkt.hdr pkt.params
  match s.poolPlace p x with
  | .error st => (s, .st st)
  | .ok y =>
    let r := (Life.off).doEnable pkt .poolBusy s.datum
    ((s.draw).setPool p { y with life := r.1 }, if deferred then .interim else r.2.1)

/-- POOL_CREATE (R155, R156, R170). -/
def bodyPoolCreate : CmdBody := fun s _ h p =>
    match firstFail ([lenIs p 48, needSheet h, (decide (uAt p 0 1 ≤ 63), .badP 0), (uAt p 1 1 == h.sheet.toNat, .badP 1),
        (decide (uAt p 2 1 < 8), .badP 2)] ++ layoutChecks p) with
    | some a => (s, a)
    | none =>
      let x := s.pool (uAt p 0 1)
      let pkt := mkPacket h 0x0401 p
      match x.life.st with
      | .off => s.poolBegin pkt false
      | _ =>
        let r := x.life.doEnable pkt .poolBusy s.datum
        (s.setPool (uAt p 0 1) { x with life := r.1 }, r.2.1)
def execPoolCreate (h : CmdHdr) (p : List Byte) (s : State) : Res := .next (s.command 0x0401 h p bodyPoolCreate)

/-- What POOL_SET_MODE, POOL_SET_THRESH, POOL_UNQUARANTINE and POOL_DESTROY check of the pool they name (R155). -/
def State.poolNamed (s : State) (h : CmdHdr) (p : List Byte) (mustBeOn : Bool) : List (Bool × Ans) :=
  let x := s.pool (uAt p 0 1)
  [(!x.present || x.sheet == h.sheet.toNat, .st .accessDenied), (!mustBeOn || x.life.st == .on, .st .poolAbsent)]

/-- POOL_SET_MODE (R155, R161). The pool's thresholds are among the parameters from offset 4 on. -/
def bodyPoolSetMode : CmdBody := fun s _ h p =>
    let x := s.pool (uAt p 0 1)
    let y := poolOf h p
    match firstFail ([lenIs p 48, needSheet h, (decide (uAt p 0 1 ≤ 63), .badP 0), (decide (uAt p 1 1 < 8), .badP 1),
        (decide (uAt p 2 1 < 8), .badP 2)] ++ layoutChecks p ++ s.poolNamed h p true ++
        [(uAt p 1 1 == x.sheet, .badP 1), (uAt p 2 1 == x.home, .badP 2), (y.xd == x.xd, .badP 3),
          (x.occupied + x.inFlight == 0, .st .poolBusy)]) with
    | some a => (s, a)
    | none =>
      match s.poolPlace (uAt p 0 1) y with
      | .error st => (s, .st st)
      | .ok y =>
        ((s.draw).putPool (uAt p 0 1) { y with life := x.life, job := x.job, level := x.level, log := x.log, waitCtl := x.waitCtl, waitReq := x.waitReq, captured := x.captured }, .ok)
def execPoolSetMode (h : CmdHdr) (p : List Byte) (s : State) : Res := .next (s.command 0x0402 h p bodyPoolSetMode)

/-- New thresholds on a pool, with the level that they give. -/
def State.setThresh (s : State) (p : Nat) (t : Nat × Nat × Nat × Nat) : State :=
  s.putPool p { s.pool p with warn := t.1, stop := t.2.1, crit := t.2.2.1, hyst := t.2.2.2 }

/-- POOL_SET_THRESH (R155). -/
def bodyPoolSetThresh : CmdBody := fun s _ h p =>
    match firstFail ([lenIs p 8, needSheet h, (decide (uAt p 0 1 ≤ 63), .badP 0)] ++ pctChecks p 1 ++
        [(zeros p 5 3, .badP 5), (pctsOrdered (pcts p 1), .badP 1)] ++ s.poolNamed h p true) with
    | some a => (s, a)
    | none => (s.setThresh (uAt p 0 1) (pcts p 1), .ok)
def execPoolSetThresh (h : CmdHdr) (p : List Byte) (s : State) : Res := .next (s.command 0x0403 h p bodyPoolSetThresh)

/-- POOL_UNQUARANTINE (R155, R170): every quarantined cell becomes free. -/
def bodyPoolUnquarantine : CmdBody := fun s _ h p =>
    match firstFail ([lenIs p 8, needSheet h, (decide (uAt p 0 1 ≤ 63), .badP 0), (zeros p 1 7, .badP 1)] ++ s.poolNamed h p true) with
    | some a => (s, a)
    | none =>
      let x := s.pool (uAt p 0 1)
      (s.putPool (uAt p 0 1) { x with tab := x.tab.filter fun e => !e.2.quar }, .ok)
def execPoolUnquarantine (h : CmdHdr) (p : List Byte) (s : State) : Res := .next (s.command 0x0404 h p bodyPoolUnquarantine)

/-- The answer to a request: its completion word, or the engine that reserved. -/
def State.reqAnswer (s : State) (p : Nat) (r : PoolReq) (st : Status) (cells : List Nat) : State :=
  match r.src with
  | .agent q =>
    let s := if st = Status.ok ∧ !cells.isEmpty then s.write q.sheet r.result (cells.flatMap (leBytes 8)) else s
    s.complete q.sheet r.doneAddr r.tag st
  | src => if st = Status.ok then (s.engineAnswer p src (cells.headD 0)).exchOps else s

/-- Whether a request is for a pool's cells: for bytes of them, or for a semaphore word in them. -/
def Pool.frameFor (x : Pool) (f : Frame) (write : Bool) : Bool :=
  let hits := fun a n : Nat => n != 0 && decide (x.base < a + n) && decide (a < x.base + x.size)
  let n := frameSpan f
  f.kind == 0 && f.dstSheet.toNat == x.sheet &&
    ((f.op == 8 && hits (uAt f.payload 0 8 % 2 ^ 44) 8) || ((n.2 || !write) && hits f.addr.toNat n.1))

/-- Whether a frame that has arrived and not executed writes into a pool's cells (step 2 of Table 5.7). -/
def State.framesInto (s : State) (x : Pool) : Bool :=
  (s.ep.rx.any fun e => e.2.held.any fun f => x.frameFor f true) || s.hubs.frames.any fun r => x.frameFor r.frame true

/-- Whether step 2 of a pool's STOPPING has ended, from where requests for its cells are not executed (R170). -/
def State.poolShut (s : State) (x : Pool) : Bool :=
  x.life.st == .stopping && (x.life.step == 2 || s.elapsed x.life.since (msTicks 50))

/-- Step 2 of Table 5.7 has ended for the pools that no frame writes into any more. -/
def State.poolsDrained (s : State) : State :=
  { s with pools := s.pools.mapVals fun _ x =>
      if x.life.st = .stopping ∧ x.life.step ≠ 2 ∧ !s.framesInto x then { x with life := { x.life with step := 2 } } else x }

/-- Step 1 of Table 5.7: every queued and waiting request completes with TORN_DOWN; step 2 ends at once where no frame is on its way into the cells. -/
def State.poolStop1 (s : State) (p : Nat) : State :=
  let x := s.pool p
  let s := s.setPool p { x with waitCtl := [], waitReq := [] }
  ((x.waitCtl ++ x.waitReq).foldl (fun s r => s.reqAnswer p r .tornDown []) s).poolsDrained

/-- A pool's STOPPING begins for its sheet's or its job's end, without a command that is owed a reply (Table 5.6). -/
def State.poolStop (s : State) (p : Nat) : State :=
  let x := s.pool p
  match x.life.st with
  | .starting => (s.setPool p { x with life := { x.life with st := .stopping, step := 0, enable := none, since := s.datum } }).tornDown x.life.enable.toList
  | .on => (s.setPool p { x with life := { x.life with st := .stopping, step := 0, since := s.datum } }).poolStop1 p
  | _ => s

/-- POOL_DESTROY (R155, R170). -/
def bodyPoolDestroy : CmdBody := fun s o h p =>
    match firstFail ([lenIs p 8, needSheet h, (decide (uAt p 0 1 ≤ 63), .badP 0), (zeros p 1 7, .badP 1)] ++ s.poolNamed h p false) with
    | some a => (s, a)
    | none =>
      let i := uAt p 0 1
      let x := s.pool i
      let r := x.life.doDisable o .poolAbsent s.datum
      let s := s.setPool i { x with life := r.1 }
      let s := if r.2.2.2 then s.poolStop1 i else s
      (s.tornDown r.2.2.1, r.2.1)
def execPoolDestroy (h : CmdHdr) (p : List Byte) (s : State) : Res := .next (s.command 0x0405 h p bodyPoolDestroy)

/-- STARTING is done (Table 5.6): every cell free, the counts zero; POOL_CREATE replies OK. -/
def execPoolStartingComplete (i : Fin 64) (s : State) : Res :=
  let x := s.pool i
  .next (match x.life.st with
    | .starting =>
      let s := s.setPool i { x with life := x.life.started s.datum, tab := [], bufs := [], cursor := 0, level := .normal }
      s.finals (x.life.enable.toList.map fun o => (o, Status.ok))
    | _ => s)

/-- A deferred POOL_CREATE begins after STOPPING (R170, R472). -/
def State.poolDeferred (s : State) (pkt : Packet) : State :=
  let r := s.poolBegin pkt true
  match r.2 with
  | .done st d q => r.1.final pkt.owed st d q
  | _ => r.1

/-- Whether the pool's free, allocated, quarantined and in-flight cells do not make up its capacity (R171, R172). -/
def Pool.misclosed (x : Pool) : Bool := x.free + x.allocated + x.quarantined + x.inFlight != x.capacity

/-- Whether a key lies in the bytes of a pool. -/
def State.poolKeys (s : State) (x : Pool) (k : Nat) : Bool :=
  if x.xd then
    let a := keyXd (s.poolOct x) (x.base % 2 ^ 26)
    decide (a ≤ k) && decide (k < a + x.size)
  else
    -- the HBM offset that a hub's byte stands for (R288)
    let hubs := 2 * (s.sheet x.sheet).m
    let h := k / 2 ^ 36
    let h0 := 2 * s.physOct x.sheet 0
    let a := k % 2 ^ 36
    let off := (a / 4096 * hubs + (h - h0)) * 4096 + a % 4096
    decide (k < 2 ^ 40) && decide (h0 ≤ h) && decide (h < h0 + hubs) && decide (x.base ≤ off) && decide (off < x.base + x.size)

/-- Steps 3 to 5 of Table 5.7: the cells zeroized, the pool's link entries and bytes released, the closure check, the replies. -/
def State.poolFinish (s : State) (p : Nat) : State :=
  let x := s.pool p
  let s := s.zeroize (s.poolKeys x)
  let bad := x.misclosed
  let s := if bad then (s.misclosure 1 p [x.free, x.allocated, x.quarantined] x.job (some x.sheet)).jobMisclosure x.job else s
  let r := x.life.stopped
  let s := s.setPool p Pool.off
  let s := s.finals (r.2.1.map fun e => (e.1, if bad ∧ e.2 = Status.ok then .misclosure else e.2))
  match r.2.2 with
  | some pkt => s.poolDeferred pkt
  | none => s

/-- Steps 3 to 5 follow a step 2 of Table 5.7 that has ended because no frame writes into the pool's cells any more. -/
def execPoolStoppingDrained (i : Fin 64) (s : State) : Res :=
  .next (if (s.pool i).life.st = .stopping ∧ !s.framesInto (s.pool i) then s.poolFinish i else s)

/-- The teardown timeout of 50 ms ends step 2 of Table 5.7. -/
def execPoolTeardownTimeout (i : Fin 64) (s : State) : Res :=
  .next (if (s.pool i).life.st = .stopping ∧ s.elapsed (s.pool i).life.since (msTicks 50) then s.poolFinish i else s)

/-! Requests. -/

/-- The head of engine queue q of physical octant k taken out, and stores that waited for room let in (R27). -/
def State.popQueue (s : State) (k q : Nat) : State :=
  let l := s.ep.queues.getD (k, q) []
  { s with ep := { s.ep with queues := s.ep.queues.put (k, q) (l.drop 1) } }

/-- Table 5.3 and the ranges of Table 5.4. -/
def poolReqOk (q : QDesc) : Bool :=
  let d := q.desc
  let op := dAt d 0 1
  let n := dAt d 4 4
  let ptr := dAt d 8 8
  decide (1 ≤ op ∧ op ≤ 7) && decide (dAt d 1 1 ≤ 63) && decide (dAt d 2 1 < 4) && dAt d 3 1 == 0 &&
  (!bitOf (dAt d 2 1) 1 || decide (256 ≤ q.agent)) &&
  (if op == 1 then decide (1 ≤ n ∧ n ≤ 4096) else if op == 2 then decide (1 ≤ n ∧ n ≤ 1048576) else if op == 3 then n == 1
    else if op == 6 then decide (1 ≤ n ∧ n ≤ 1048576) else n == 0) &&
  (!(op == 1 || op == 2 || op == 6) || ptr == 0) && dAt d 16 8 % 8 == 0 && dAt d 24 8 == 0 && dAt d 32 8 == 0 && dAt d 40 8 == 0 &&
  dAt d 48 8 % 8 == 0 && decide (dAt d 48 8 < 2 ^ 44) && dAt d 60 4 == 0

/-- The checks of R162 in their order. -/
def State.poolReqCheck (s : State) (q : QDesc) : Option Status :=
  let d := q.desc
  let op := dAt d 0 1
  let x := s.pool (dAt d 1 1)
  firstFail [
    (poolReqOk q, .descFormat),
    (!x.present || x.sheet == q.sheet, .accessDenied),
    (x.life.st == .on, .poolAbsent),
    (x.sized == decide (6 ≤ op), .poolMode),
    (s.inData q.sheet (dAt d 16 8) (resultBytes op (dAt d 4 4)), .addressRange)]

/-- A request of operation op at the head of octant k's pool queue (R162, R163). -/
def State.poolRequest (s : State) (k op : Nat) : State :=
  match s.ep.queues.getD (k, 3) [] with
  | [] => s
  | q :: _ =>
    let d := q.desc
    -- an op that no row names is refused by whichever row takes it
    if dAt d 0 1 ≠ op ∧ 1 ≤ dAt d 0 1 ∧ dAt d 0 1 ≤ 7 then s
    else
      let s := s.popQueue k 3
      let p := dAt d 1 1
      let r : PoolReq := ⟨s.nextReq, .agent q, op, bitOf (dAt d 2 1) 0, bitOf (dAt d 2 1) 1, dAt d 4 4, dAt d 8 8, dAt d 16 8, dAt d 48 8,
        dAt d 56 4, none⟩
      let s := { s with nextReq := s.nextReq + 1 }
      match s.poolReqCheck q with
      | some st => s.reqAnswer p r st []
      | none =>
        let x := s.pool p
        if (op = 3 ∨ op = 4 ∨ op = 5 ∨ op = 7) ∧ x.badPtr op r.ptr then (s.badPointer p op r.ptr q.agent).reqAnswer p r .badPointer []
        else if takesCells op then
          match (if (x.waiting r.control).isEmpty then s.poolTry p r else none) with
          | some (s, cells) => s.reqAnswer p r .ok cells
          | none => if r.noWait then s.reqAnswer p r .poolEmpty [] else s.poolWait p r
        else
          let a := s.poolNoCells p op r.ptr
          a.1.reqAnswer p r a.2 []

/-- ALLOC_CHAIN at the head of octant k's pool queue. -/
def execAllocChain (k : Fin 8) (s : State) : Res := .next (s.poolRequest k 1)
/-- ALLOC_EXTENT. -/
def execAllocExtent (k : Fin 8) (s : State) : Res := .next (s.poolRequest k 2)
/-- APPEND. -/
def execAppend (k : Fin 8) (s : State) : Res := .next (s.poolRequest k 3)
/-- ACQUIRE. -/
def execAcquire (k : Fin 8) (s : State) : Res := .next (s.poolRequest k 4)
/-- RELEASE. -/
def execRelease (k : Fin 8) (s : State) : Res := .next (s.poolRequest k 5)
/-- ALLOC_SIZED. -/
def execAllocSized (k : Fin 8) (s : State) : Res := .next (s.poolRequest k 6)
/-- FREE_SIZED. -/
def execFreeSized (k : Fin 8) (s : State) : Res := .next (s.poolRequest k 7)

/-- A waiting request at the head of its queue is served once its cells are there (R163). An APPEND's pointer is checked when the
request is served: what it named may have changed while it waited. -/
def execPoolRequestServed (i : Fin 64) (ctl : Bool) (s : State) : Res :=
  let x := s.pool i
  .next (match x.waiting ctl with
    | [] => s
    | r :: _ =>
      if r.op = 3 ∧ x.badPtr 3 r.ptr then
        let agent := match r.src with
          | .agent q => q.agent
          | _ => 0
        ((s.poolShift i ctl).badPointer i 3 r.ptr agent).reqAnswer i r .badPointer []
      else match s.poolTry i r with
        | none => s
        | some (s, cells) => (s.poolShift i ctl).reqAnswer i r .ok cells)

/-- A descriptor's request that has waited op_timeout at its queue's head completes with POOL_EMPTY (R163). -/
def execPoolRequestTimeout (i : Fin 64) (ctl : Bool) (s : State) : Res :=
  .next (match (s.pool i).waiting ctl with
    | ⟨_, .agent q, op, nw, c, n, ptr, res, done, tag, some t⟩ :: _ =>
      if s.elapsed t s.opTimeout then
        (s.poolShift i ctl).reqAnswer i ⟨0, .agent q, op, nw, c, n, ptr, res, done, tag, none⟩ .poolEmpty []
      else s
    | _ => s)

/-! Registers. -/

/-- A read of BPM_POOL_COUNT0 captures the four counts (R172); a capture that does not sum to capacity is a misclosure. -/
def State.poolCapture (s : State) (i : Nat) : State :=
  let x := s.pool i
  let s := s.setPool i { x with captured := (x.free, x.allocated, x.quarantined, x.inFlight) }
  if x.present then
    (if x.misclosed then s.misclosure 1 i [x.free, x.allocated, x.quarantined] x.job (some x.sheet) else s) else s
def execBpmPoolCount0 (i : Fin 64) (s : State) : Res := .next (s.poolCapture i)

/-- A write of BPM_POOL_THRESH acts as POOL_SET_THRESH; one that breaks R156 leaves the register as it is and writes the
DESC_FORMAT event (Table 5.13). -/
def State.threshWrite (s : State) (p : Nat) (w : Word) : State :=
  let t := leBytes 8 (fld w 31 0)
  let x := s.pool p
  if x.life.st ≠ .on then s
  else if (firstFail (pctChecks t 0)).isNone && pctsOrdered (pcts t 0) then s.setThresh p (pcts t 0)
  else s.regRefused 7 (s.poolOct x)

/-- The Chartroom writes BPM_POOL_THRESH of a pool. -/
def execBpmPoolThresh (i : Fin 64) (w : Word) (s : State) : Res := .next (s.threshWrite i w)

/-- A write to BPM_BADPTR_INFO of octant k's page. -/
def execBpmBadptrInfo (k : Fin 8) (w : Word) (s : State) : Res := .next (s.rearm ⟨.BPM_BADPTR_INFO, k, 0⟩ w)

end Sys2Proof.Machine
end

