-- ==== Sys2Proof/Machine/Exchange.lean ====
section
/-! DEFINITION. The commands of chapter 4, and of chapter 3's census and grants. -/

namespace Sys2Proof.Machine

/-! Censuses and grants. -/

/-- A Strict round that a RECEIVE computes next, with its layer. -/
def State.strictRound (s : State) (i id : Nat) : Option (Recv × LayerRec × Nat × Nat) :=
  match s.recv? i id with
  | none => none
  | some r =>
    match s.recvRec r with
    | none => none
    | some l => if r.ended || !r.begun || !r.strict || !r.placing.isEmpty then none else (r.nextRound l).map fun w => (r, l, w.1, w.2)

/-- GRANT_COMPUTE: RECEIVE number id of sheet i holds every census of its next round, or the quorum's (R102, R104, R350). -/
def execGrantCompute (i : Fin 8) (id : Nat) (s : State) : Res :=
  .next (match s.strictRound i id with
    | some (r, l, w, k) => if s.roundReady r l w k then (s.computeRound r l w k).exchOps else s
    | none => s)

/-- CENSUS_TIMEOUT of a round (R102): the grants go to the sources present; each missing source is reported. -/
def execCensusTimeout (i : Fin 8) (id : Nat) (s : State) : Res :=
  .next (match s.strictRound i id with
    | some (r, l, w, k) =>
      match minOf ((r.censuses.filter fun c => c.wave == w && c.round == k).map CensusRec.first) with
      | some t =>
        if s.elapsed t (s.censusTimeout r.oct) && !s.roundReady r l w k then
          let have_ := (r.present w k).map (·.src)
          let missing := (s.plist i l).filter fun p => !have_.contains p && !r.gone.contains p
          let s := missing.foldl (fun s p => s.jobError r.job { code := .timeout, sheet := some i.val, status := some .timeout, unit := r.oct, params := [p] }) s
          (s.computeRound r l w k).exchOps
        else s
      | none => s
    | none => s)

/-- A grant or landing record that a source takes, or discards as late (R108). -/
def State.grantRecord (s : State) (i : Nat) (h : RecHdr) (f : Frame) : State :=
  let last := bitOf h.flags 0
  let o := s.coordOct i h.layer
  match s.awaiting? i h with
  | some (b, w) =>
    if h.round ≠ b.round then (if last then s.bump F.TRV_LATE_CNT_late o 0 1 else s)
    else
      let s := if h.kind = 2 && bitOf h.flags 2 && last then s.bump F.TRV_LATE_CNT_late o 0 1 else s
      s.grantFrame b w f
  | none => if last then s.bump F.TRV_LATE_CNT_late o 0 1 else s

/-- A landing record: the answer of a relay to a manifest (R151), or the second half of a grant (R132). -/
def State.landingRecord (s : State) (i : Nat) (h : RecHdr) (f : Frame) : State :=
  let exts := (recEntries 16 [f]).map fun e => leNat e % 2 ^ 44
  let x := s.exchOf i
  match x.batches.find? fun b => b.step == h.step && b.layer == h.layer && b.epoch == h.epoch && b.manifests.any fun m => m.1 == h.sender && m.2.1 == h.wave with
  | some b =>
    match b.manifests.find? fun m => m.1 == h.sender && m.2.1 == h.wave with
    | some m => s.placeParts b h.sender h.wave m.2.2 exts
    | none => s
  | none =>
    match x.rets.find? fun r => r.step == h.step && r.layer == h.layer && r.wave == h.wave && r.manifests.any fun m => m.1 == h.sender with
    | some r =>
      match r.manifests.find? fun m => m.1 == h.sender with
      | some m =>
        let s := s.setRet { r with manifests := r.manifests.filterMap fun y =>
          if y.1 == h.sender then (dropPlaced exts.length y.2).map fun l => (h.sender, l) else some y }
        ((m.2.zip exts).foldl (fun (s : State) e =>
          ((r.groups.filter fun g => g.relay.isSome && g.domain == e.1.1).foldl (fun (a : State × Nat) g =>
            (a.1.sendGroupRelay r g h.sender a.2, a.2 + g.bytes)) (s, e.2)).1) s)
      | none => s
    | none =>
      match x.relays.find? fun r => r.step == h.step && r.layer == h.layer && r.wave == h.wave && !r.remote && r.asked && !r.sent &&
          s.peerRelay r == some h.sender with
      | some r => s.relaySend r h.sender (exts.headD 0)
      | none => s.grantRecord i h f

/-- GRANT_TIMEOUT: batch id of sheet i has no complete grant of a destination within the wave timeout (R108). -/
def execGrantTimeout (i : Fin 8) (id : Nat) (dest : Nat) (s : State) : Res :=
  .next (match s.batch? i id with
    | none => s
    | some b =>
      match b.awaiting.find? fun w => w.dest == dest, s.batchRec b with
      | some w, some l =>
        if s.elapsed w.since (s.waveTimeout b.oct) && !b.ended && !b.cancel then
          let s := s.jobError b.job { code := .timeout, sheet := some i.val, status := some .timeout, unit := b.oct, params := [dest] }
          let r := s.refused { b with awaiting := b.awaiting.filter fun x => x.dest != dest } l (w.asked.flatMap (·.2))
          (r.1.afterAnswer r.2).exchOps
        else s
      | _, _ => s)

/-- A pool's waiting requests without those that satisfy p. -/
def State.dropWaiting (s : State) (p : Nat) (f : PoolReq → Bool) : State :=
  let x := s.pool p
  let l := x.waitReq.filter fun r => !f r
  let l := match l with
    | r :: t => (if r.head.isNone then { r with head := some s.datum } else r) :: t
    | [] => []
  s.setPool p { x with waitReq := l }

/-- RESERVATION_TIMEOUT: request id of pool p, which a Traverse engine made, has waited for the wave timeout (R104, R135, R149): the
reservation fails and POOL_EXHAUSTED is reported. -/
def execReservationTimeout (p : Fin 64) (id : Nat) (s : State) : Res :=
  let i := (s.pool p).sheet
  .next (match (s.pool p).waitReq.find? fun r => r.id == id with
    | none => s
    | some q =>
      match q.src with
      | .agent _ => s
      | .landing pid =>
        match (s.exchOf i).recvs.findSome? fun r : Recv => (r.placing.find? fun x => x.id == pid).map fun x => (r, x) with
        | some (r, x) =>
          if s.elapsed x.since (s.waveTimeout r.oct) then
            let s := s.dropWaiting p fun y => y.src == .landing pid
            let s := x.grants.foldl (fun s g => match g.2.2.2.2 with
              | some e => s.engineFree p e
              | none => s) s
            (s.putRecv { r with placing := r.placing.filter fun y => y.id != pid }).exhausted i r.job r.oct
          else s
        | none => s.dropWaiting p fun y => y.id == id
      | .combine cid =>
        match s.part? i cid with
        | some (b, x) => if s.elapsed x.since (s.waveTimeout (b.partOct x)) then (s.dropWaiting p fun y => y.id == id).exhausted i b.job (b.partOct x) else s
        | none => s.dropWaiting p fun y => y.id == id
      | .relay aid =>
        match (s.exchOf i).relayAns.find? fun a => a.id == aid with
        | some a => if s.elapsed a.since (s.waveTimeout a.oct) then (s.dropWaiting p fun y => y.src == .relay aid).exhausted i a.job a.oct else s
        | none => s.dropWaiting p fun y => y.id == id)

/-! Traverse descriptors. -/

/-- Tables 4.4 to 4.6, 4.11 and 4.13 with R124 and R125. -/
def trvFormatOk (d : BitVec 512) : Bool :=
  let op := dAt d 0 1
  let z := fun o n : Nat => dAt d o n == 0
  let noLayer := z 1 1
  dAt d 2 2 / 2 ^ 12 == 0 && dAt d 48 8 % 8 == 0 && decide (dAt d 48 8 < 2 ^ 44) &&
  (match op with
    | 1 => noLayer && z 2 2 && z 16 32 && z 60 4
    | 2 => decide (1 ≤ dAt d 8 1 ∧ dAt d 8 1 ≤ 64) && decide (dAt d 9 1 ≤ 2) && decide (dAt d 10 1 < 8) && z 11 5 && dAt d 60 4 % 16 == 0
    | 3 => z 2 2 && decide (1 ≤ dAt d 24 4 ∧ dAt d 24 4 ≤ 1048576) && decide (16 ≤ dAt d 28 4 ∧ dAt d 28 4 ≤ 65536) && dAt d 28 4 % 16 == 0 &&
        z 32 16 && z 60 4
    | 4 => z 2 2 && dAt d 24 4 % 16 == 0 && decide (dAt d 28 1 % 16 ≤ 8) && decide (dAt d 28 1 / 16 ≤ 4) &&
        (decide (3 ≤ dAt d 28 1 / 16) || z 29 1) && z 30 2 && z 32 16 && z 60 4
    | 5 => noLayer && z 8 40 && z 60 4
    | 6 => noLayer && z 8 40 && z 60 4
    | 7 => bitsOf (dAt d 8 4) 23 20 == 0 && decide (bitsOf (dAt d 8 4) 27 24 ≤ 2) && bitsOf (dAt d 8 4) 31 28 == 0 &&
        decide (1 ≤ dAt d 12 4 ∧ dAt d 12 4 + dAt d 8 4 % 2 ^ 20 ≤ 2 ^ 20) && dAt d 60 4 % 16 == 0
    | _ => false)

/-- R586: the checks in their order; octant o took the descriptor. -/
def State.trvCheck (s : State) (o : Nat) (q : QDesc) : Option Status :=
  let d := q.desc
  let op := dAt d 0 1
  let i := q.sheet
  let layer := dAt d 1 1
  let step := dAt d 4 4
  let e := dAt d 2 2 % 2 ^ 12
  let named := op == 2 || op == 3 || op == 4 || op == 7
  let r := s.routingOf i
  let x := s.epochAt i e
  firstFail [(trvFormatOk d, .descFormat), (!named || o == s.coordOct i layer, .wrongOctant), (!named || (r.select step).isSome, .stepRetired),
    (!named || (r.layerAt step layer).isSome, .layerInvalid),
    (if op == 2 || op == 7 then s.epochOpen i e step else if op == 5 || op == 6 then x.st == .open_ && x.step == step else true, .epochInvalid)]

/-- The descriptor at the head of octant o's Traverse queue taken, if it is of operation op; one of no operation of Table 4.4 is refused by
whichever row takes it. -/
def State.trvTake (s : State) (o op : Nat) (g : State → QDesc → State) : State :=
  match s.ep.queues.getD (o, 2) [] with
  | [] => s
  | q :: _ =>
    let d := q.desc
    if dAt d 0 1 ≠ op ∧ 1 ≤ dAt d 0 1 ∧ dAt d 0 1 ≤ 7 then s
    else
      let s := s.popEngine o 2
      -- EPOCH_OPEN, EPOCH_CLOSE and CANCEL are completed by local octant 0 (R125)
      let at_ := if dAt d 0 1 = 1 ∨ dAt d 0 1 = 5 ∨ dAt d 0 1 = 6 then s.physOct q.sheet 0 else o
      match s.trvCheck o q with
      | some st => s.trvDone at_ q.sheet (dAt d 1 1) (dAt d 48 8) (dAt d 56 4) st
      | none => (g s q).exchOps

/-- EPOCH_OPEN (R115). -/
def execEpochOpen (o : Fin 8) (s : State) : Res :=
  .next (s.trvTake o 1 fun s q =>
    let d := q.desc
    let i := q.sheet
    match (List.range 4096).find? fun e => (s.epochAt i e).st == .free with
    | none => s.trvDone (s.physOct i 0) i 0 (dAt d 48 8) (dAt d 56 4) .epochExhausted
    | some e =>
      let s := s.setEpoch i e { Epoch.free with st := .open_, step := dAt d 4 4, job := q.job, since := s.datum }
      (s.writeN i (dAt d 8 8) 8 e).trvDone (s.physOct i 0) i 0 (dAt d 48 8) (dAt d 56 4) .ok)

/-- A new batch of a descriptor d. -/
def State.newBatch (s : State) (o : Nat) (q : QDesc) (replay : Bool) : State × Batch :=
  let d := q.desc
  let i := q.sheet
  let x := s.exchId i
  let fl := dAt d 10 1
  (x.1, {
    id := x.2, sheet := i, job := q.job, own := s.ownNum i q.job, oct := o, key := (dAt d 4 4, dAt d 1 1, dAt d 2 2 % 2 ^ 12), replay := replay
    plotN := if replay then 0 else dAt d 8 1
    fmt := if replay then bitsOf (dAt d 8 4) 27 24 else dAt d 9 1
    resid := !replay && bitOf fl 0, relay := if replay then dAt d 40 8 != 0 else bitOf fl 1, log := !replay && bitOf fl 2
    result := dAt d 16 8, residA := dAt d 24 8, logA := dAt d 32 8, relayA := dAt d 40 8, payload := dAt d 24 8, stride := dAt d 60 4, pool := 0
    tokFirst := dAt d 8 4 % 2 ^ 20, tokCount := dAt d 12 4, done := dAt d 48 8, tag := dAt d 56 4, since := s.datum
    started := false, ended := false, sending := false, cancel := false, late := false, wave := 0, round := 0, half := false, outBytes := 0
    fails := [], plots := [], asgs := [], awaiting := [], cont := [], told := [], parts := [], spares := [], written := []
    k := 0, strict := true, table := [], manifests := [] })

def State.addBatch (s : State) (b : Batch) : State := s.updExch b.sheet fun x => { x with batches := x.batches ++ [b] }

/-- EXCHANGE (R126): the batch, with the key counts and failure notices that have come for it. -/
def execExchangeDesc (o : Fin 8) (s : State) : Res :=
  .next (s.trvTake o 2 fun s q =>
    let x := s.newBatch o q false
    let s := x.1
    let b := x.2
    if (s.exchOf b.sheet).batches.any fun y => y.key == b.key && !y.replay then s.trvDone o b.sheet b.layer b.done b.tag .rangeOverlap
    else
      let l := (s.exchOf b.sheet).counts.filter fun d => d.key == b.key
      let s := s.updExch b.sheet fun y => { y with counts := y.counts.filter fun d => d.key != b.key }
      l.foldl (fun s d => s.takeDelivery b.sheet d) (s.addBatch b))

/-- RECEIVE (R129). -/
def execReceiveDesc (o : Fin 8) (s : State) : Res :=
  .next (s.trvTake o 3 fun s q =>
    let d := q.desc
    let i := q.sheet
    let x := s.exchId i
    let r : Recv := {
      id := x.2, sheet := i, job := q.job, own := s.ownNum i q.job, oct := o, layer := dAt d 1 1, step := dAt d 4 4, arrival := dAt d 8 8
      list := dAt d 16 8, cap := dAt d 24 4, outBytes := dAt d 28 4, done := dAt d 48 8, tag := dAt d 56 4, bound := [], took := [], gone := []
      strict := true, begun := false, used := [], censuses := [], computed := [], final := [], cont := [], full := [], served := [], again := []
      lists := [], placing := [], ended := false }
    (x.1.updExch i fun y => { y with recvs := y.recvs ++ [r] }).offerHeld i r.step r.layer)

/-- RETURN (R137): the oldest RECEIVE of its (step, layer), and the range's checks. -/
def execReturnDesc (o : Fin 8) (s : State) : Res :=
  .next (s.trvTake o 4 fun s q =>
    let d := q.desc
    let i := q.sheet
    let fin := fun st => s.trvDone o i (dAt d 1 1) (dAt d 48 8) (dAt d 56 4) st
    match (s.armed i (dAt d 4 4) (dAt d 1 1)).head?, s.layerAt i (dAt d 4 4) (dAt d 1 1) with
    | some v, some l =>
      let top := dAt d 8 4 + dAt d 12 4
      if v.cap < top ∨ dAt d 24 4 < v.outBytes then fin .descFormat
      else if dAt d 12 4 ≠ 0 ∧ (v.lists.getD (dAt d 28 1 % 16) []).length < top then fin .addressRange
      else s.doReturn q v l
    | _, _ => fin .addressRange)

/-- EPOCH_CLOSE (R118). -/
def execEpochClose (o : Fin 8) (s : State) : Res :=
  .next (s.trvTake o 5 fun s q =>
    let d := q.desc
    let i := q.sheet
    let e := dAt d 2 2 % 2 ^ 12
    if (s.exchOf i).batches.any fun b => b.epoch == e && !b.ended then s.trvDone (s.physOct i 0) i 0 (dAt d 48 8) (dAt d 56 4) .epochBusy
    else (s.adjEpoch i e fun x => { x with st := .closing, since := s.datum, close := some (dAt d 48 8, dAt d 56 4) }).settleEpoch i e)

/-- CANCEL (R144). -/
def execCancel (o : Fin 8) (s : State) : Res :=
  .next (s.trvTake o 6 fun s q => s.cancelBegin q.sheet (q.desc.toNat / 2 ^ 16 % 2 ^ 12) (.desc (dAt q.desc 48 8) (dAt q.desc 56 4)))

/-- A record of a replay from its route log entry (R147 to R149): granted records are asked for again, in their wave, of the replica
that the step's half gives. -/
def replayAsg (h : Half) (l : LayerRec) (plist : List Nat) (epoch : Nat) (b : List Byte) : Asg :=
  let tag := uAt b 0 8 % 2 ^ 52 + epoch * 2 ^ 52
  let w := uAt b 8 4
  let a : Asg := ⟨tag, w % 2 ^ 20, uAt b 12 4, 0, 0, 0, .none, bitsOf w 27 24, [], 0, 0⟩
  if bitsOf w 23 20 ≠ 0 then a
  else match h.replica a.expert tag l.seed with
    | some (d, sl) => if plist.contains d then { a with dest := d, slot := sl, st := .open_ } else { a with st := .folded }
    | none => { a with st := .folded }

/-- REPLAY (R148, R149). -/
def execReplayDesc (o : Fin 8) (s : State) : Res :=
  .next (s.trvTake o 7 fun s q =>
    let x := s.newBatch o q true
    let s := x.1
    let b := x.2
    match (s.routingOf b.sheet).select b.step, s.batchRec b with
    | some hb, some l =>
      let h := (s.routingOf b.sheet).half hb
      let n := b.tokCount * l.k
      let raw := s.rdFree b.sheet (b.logA + b.tokFirst * l.k * 16) (16 * n)
      let asgs := (List.range n).map fun j => replayAsg h l (s.plist b.sheet l) b.epoch (bytesAt raw (16 * j) 16)
      let valid := (asgs.filter fun a => a.st != .none).length
      let lost := (asgs.filter fun a => a.st == .folded).length
      let s := s.draw.adjEpoch b.sheet b.epoch fun y => { y with issued := y.issued + valid }
      (s.countFold b.sheet b.epoch b.oct lost).addBatch { b with asgs := asgs }
    | _, _ => s)

/-- CANCEL_BATCH (R144). -/
def bodyCancelBatch : CmdBody := fun s o h p =>
    let i := h.sheet.toNat
    let e := uAt p 0 2
    match firstFail [lenIs p 8, needSheet h, needJob h, (decide (e < 4096), .badP 0), (zeros p 2 6, .badP 2),
        ((s.epochAt i e).st == .open_, .st .epochInvalid)] with
    | some a => (s, a)
    | none =>
      -- the reply is owed before the cancellation can go through
      ((s.owe o true).cancelBegin i e (.packet o) |>.exchOps, .sent)
def execCancelBatch (h : CmdHdr) (p : List Byte) (s : State) : Res := .next (s.command 0x0302 h p bodyCancelBatch)

/-! Plotting. -/

/-- The Plotting descriptor at the head of octant o's queue. -/
def execPlottingDescriptor (o : Fin 8) (s : State) : Res := .next (s.plotTake o)
/-- The Plotting engine of octant o has finished. -/
def execPlottingComplete (o : Fin 8) (s : State) : Res := .next (s.plotComplete o)

/-- The first delivery to octant o's Traverse engine, if it is of the right sort. -/
def State.deliverNext (s : State) (o : Nat) (ok : Delivered → Bool) : State :=
  match s.deliveries.getD o [], s.octSheet o with
  | d :: l, some i =>
    if ok d.what then ({ s with deliveries := s.deliveries.put o l }.takeDelivery i d).exchOps else s
  | _, _ => s

/-- Key counts reach the coordinating octant (R123). -/
def execKeyCounts (o : Fin 8) (s : State) : Res :=
  .next (s.deliverNext o fun d => match d with
    | .counts _ => true
    | .failed _ => false)
/-- A failure notice reaches it (R585). -/
def execFailureNotice (o : Fin 8) (s : State) : Res :=
  .next (s.deliverNext o fun d => match d with
    | .counts _ => false
    | .failed _ => true)

/-! Waves. -/

/-- WAVE_0_START: batch id of sheet i has every key count and an armed RECEIVE of its own (R126). -/
def execWave0Start (i : Fin 8) (id : Nat) (s : State) : Res :=
  .next (match s.batch? i id with
    | none => s
    | some b =>
      match (s.armed i b.step b.layer).head?, s.batchRec b with
      | some v, some l =>
        if !b.started && !b.ended && !b.cancel && b.plots.length == b.plotN then (s.startBatch b v l).exchOps else s
      | _, _ => s)

/-- EXCHANGE_TIMEOUT: batch id lacks key counts, or an armed RECEIVE, a wave timeout after its acceptance (R126). -/
def execExchangeTimeout (i : Fin 8) (id : Nat) (s : State) : Res :=
  .next (match s.batch? i id with
    | none => s
    | some b =>
      let noRecv := (s.armed i b.step b.layer).isEmpty
      if !b.started && !b.ended && s.elapsed b.since (s.waveTimeout b.oct) && (b.plots.length != b.plotN || noRecv) then
        let s := if noRecv then s.event { code := .receiveMissing, job := some b.job, sheet := some i.val, unit := b.oct } else s
        s.abandon b .timeout
      else s)

/-- RECEIVE_MISSING: censuses of a (step, layer) have been held for the wave timeout, and no RECEIVE is armed for it (R130). A census whose frames
are not all there is answered once they are. -/
def execReceiveMissing (i : Fin 8) (step : Nat) (layer : Nat) (s : State) : Res :=
  let o := s.coordOct i layer
  let mine := (s.exchOf i).held.filter fun c => c.step == step && c.layer == layer && !c.zero
  .next (match minOf (mine.map CensusRec.first) with
    | none => s
    | some t =>
      if s.elapsed t (s.waveTimeout o) && (s.armed i step layer).isEmpty then
        let now := mine.filter CensusRec.complete
        let s := s.updExch i fun x => { x with
          held := (x.held.filter fun c => !(c.step == step && c.layer == layer && !c.zero && c.complete)).map fun c =>
            if c.step = step ∧ c.layer = layer then { c with zero := true } else c }
        let s := now.foldl (fun s c => s.answerZero c true) s
        (s.event { code := .receiveMissing, job := (mine.head?).map CensusRec.job, sheet := some i.val, unit := o, report := true }).exchOps
      else s)

/-- PART_SEND: part id of sheet i reserves its combine extent, and is sent once it has it (R135). -/
def execPartSend (i : Fin 8) (id : Nat) (s : State) : Res :=
  .next (match s.part? i id with
    | some (b, p) => if p.st = .waiting ∧ !b.cancel then (s.reservePart b p).exchOps else s
    | none => s)

/-- RETURN_TIMEOUT: part id of sheet i has not returned a wave timeout after its send was acknowledged (R142). -/
def execReturnTimeout (i : Fin 8) (id : Nat) (s : State) : Res :=
  .next (match s.part? i id with
    | some (b, p) => if p.st = .acked ∧ s.elapsed p.since (s.waveTimeout b.oct) then (s.partLost b p).exchOps else s
    | none => s)

/-- The combine extents that an epoch's parts still hold quarantined (R116). -/
def State.quarantineEpoch (s : State) (i e : Nat) : State :=
  (s.exchOf i).batches.foldl (fun s b =>
    if b.epoch = e then (b.parts.filterMap fun p => p.comb).foldl (fun s c => match (s.pool b.pool).cellOf c with
      | some j => s.quarantineChain b.pool j
      | none => s) s
    else s) s

/-- REUSE_INTERVAL_EXPIRY: epoch e of sheet i becomes FREE without its balance (R116): the misclosure, and its combine extents
quarantined. -/
def execReuseIntervalExpiry (i : Fin 8) (e : Fin 4096) (s : State) : Res :=
  let x := s.epochAt i e
  .next (if (x.st = .closing ∨ x.st = .cancelled) ∧ s.elapsed x.since (2 * s.waveTimeout (s.physOct i 0)) then
    let s := s.misclosure 2 (e.val + 2 ^ 12 * i.val) [x.granted, x.returned, x.stale] (some x.job) (some i.val)
    (s.quarantineEpoch i e).freeEpoch i e .misclosure
  else s)

/-! Relays. -/

/-- RELAY_FORWARD: transfer id of sheet i holds every manifest and part (R151). -/
def execRelayForward (i : Fin 8) (id : Nat) (s : State) : Res :=
  .next (match (s.exchOf i).relays.find? fun r => r.id == id with
    | some r => if !r.asked && !r.sent && (s.relayLacks r).isEmpty then (s.relayGo r).exchOps else s
    | none => s)

/-- RELAY_TIMEOUT: it forwards what it holds, and names each missing source (R151). -/
def execRelayTimeout (i : Fin 8) (id : Nat) (s : State) : Res :=
  .next (match (s.exchOf i).relays.find? fun r => r.id == id with
    | some r =>
      let lacks := dedup (s.relayLacks r)
      if !r.asked && !r.sent && !lacks.isEmpty && s.elapsed r.since (s.waveTimeout r.oct) then
        let s := lacks.foldl (fun s p => s.jobError r.job { code := .timeout, sheet := some i.val, status := some .timeout, unit := r.oct, params := [p] }) s
        let s := s.setRelay { r with force := true }
        (s.relayGo { r with force := true }).exchOps
      else s
    | none => s)

/-! Registers. -/

/-- A write to TRV_FAULT_INFO. -/
def execTrvFaultInfo (o : Fin 8) (w : Word) (s : State) : Res := .next (s.rearm ⟨.TRV_FAULT_INFO, o, 0⟩ w)
/-- A write to PLT_FAULT_INFO. -/
def execPltFaultInfo (o : Fin 8) (w : Word) (s : State) : Res := .next (s.rearm ⟨.PLT_FAULT_INFO, o, 0⟩ w)

end Sys2Proof.Machine
end

