-- ==== Sys2Proof/Machine/CoreScalar.lean ====
section
/-! DEFINITION. The scalar instructions as commands (R210 to R213). The sender names the home position c of the virtual core that
issues the instruction, and bits [55:0] of the instruction (log 21). -/

namespace Sys2Proof.Machine

/-- The other virtual core that the runner of c holds a register context for, if any (R200). -/
def State.partner (s : State) (c : Nat) : Option Nat :=
  if s.boot.fused.contains c then some (s.runner c)
  else
    let g := c / 8 * 8 + (c % 8 + 7) % 8
    if s.boot.fused.contains g then some g else none

/-- Whether the virtual core whose home is c may issue: a hosting core issues from one register context at a time, the other issues nothing until a
switch (R201), and one whose store a full queue or quantizer has not accepted stalls (R27, R269). -/
def State.selected (s : State) (c : Nat) : Bool :=
  !s.quantHeld.any (fun e => e.2.1 == c) && !s.storeHeld (s.core c).kern.sheet (s.core c).kern.vindex &&
  (match s.partner c with
  | none => true
  | some p => !((s.core p).run == .running) || (s.guestOn.contains (s.runner c) == s.boot.fused.contains c))

/-- The fetch of the instruction at the PC (R236): CODE_RANGE outside the kernel's code, or the status of the read. -/
def State.fetch (s : State) (x : CoreCtx) : State × Status :=
  if targetOk x x.pc then s.access x.kern.sheet x.kern.job x.kern.logical [(x.pc, 8, false)] else (s, .codeRange)

/-- An instruction issued by the virtual core whose home is c: it has no effect unless the core is executing; a fetch that fails faults (R236); the rest is
the instruction's own effect. -/
def State.issueStep (s : State) (c : Nat) (k : State → CoreCtx → State) : State :=
  let x := s.core c
  if x.run = .running ∧ s.selected c then
    let r := s.fetch x
    if r.2 = Status.ok then k r.1 (r.1.core c) else r.1.coreFault c r.2
  else s

/-- An instruction that changes its register context alone (R203, R233). -/
def State.coreStep (s : State) (c : Nat) (g : CoreCtx → CoreRes) : State :=
  s.issueStep c fun s x => match g x with
    | .ok y => s.setCore c y
    | .fault st => s.coreFault c st
    | .stall => s

/-! Table 7.3. -/

/-- NOP: none (R210). -/
def execNop (c : Fin 256) (f : BitVec 56) (s : State) : Res := .next (s.coreStep c (aluNop f))

/-- ADD: d = a + b (R210). -/
def execAdd (c : Fin 256) (f : BitVec 56) (s : State) : Res := .next (s.coreStep c (aluAB (fun a b => a + b) f))

/-- SUB: d = a − b (R210). -/
def execSub (c : Fin 256) (f : BitVec 56) (s : State) : Res := .next (s.coreStep c (aluAB (fun a b => a - b) f))

/-- MUL: d = low 64 bits of a × b (R210). -/
def execMul (c : Fin 256) (f : BitVec 56) (s : State) : Res := .next (s.coreStep c (aluAB (fun a b => a * b) f))

/-- MULHU: d = high 64 bits of the unsigned product (R210). -/
def execMulhu (c : Fin 256) (f : BitVec 56) (s : State) : Res := .next (s.coreStep c (aluAB (hiU) f))

/-- MULHS: d = high 64 bits of the signed product (R210). -/
def execMulhs (c : Fin 256) (f : BitVec 56) (s : State) : Res := .next (s.coreStep c (aluAB (hiS) f))

/-- DIVU: d = a / b unsigned; b = 0 gives 2^64 − 1 (R210). -/
def execDivu (c : Fin 256) (f : BitVec 56) (s : State) : Res := .next (s.coreStep c (aluAB (divU) f))

/-- REMU: d = a mod b unsigned; b = 0 gives a (R210). -/
def execRemu (c : Fin 256) (f : BitVec 56) (s : State) : Res := .next (s.coreStep c (aluAB (remU) f))

/-- DIVS: d = a / b signed, toward zero; b = 0 gives −1 (R210). -/
def execDivs (c : Fin 256) (f : BitVec 56) (s : State) : Res := .next (s.coreStep c (aluAB (divS) f))

/-- REMS: signed remainder with the sign of a; b = 0 gives a (R210). -/
def execRems (c : Fin 256) (f : BitVec 56) (s : State) : Res := .next (s.coreStep c (aluAB (remS) f))

/-- AND: d = a AND b (R210). -/
def execAndInstr (c : Fin 256) (f : BitVec 56) (s : State) : Res := .next (s.coreStep c (aluAB (fun a b => a &&& b) f))

/-- OR: d = a OR b (R210). -/
def execOrInstr (c : Fin 256) (f : BitVec 56) (s : State) : Res := .next (s.coreStep c (aluAB (fun a b => a ||| b) f))

/-- XOR: d = a XOR b (R210). -/
def execXorInstr (c : Fin 256) (f : BitVec 56) (s : State) : Res := .next (s.coreStep c (aluAB (fun a b => a ^^^ b) f))

/-- SHL: d = a shifted left by b[5:0] (R210). -/
def execShl (c : Fin 256) (f : BitVec 56) (s : State) : Res := .next (s.coreStep c (aluAB (fun a b => a <<< shAmt b) f))

/-- SHR: d = a shifted right logically by b[5:0] (R210). -/
def execShr (c : Fin 256) (f : BitVec 56) (s : State) : Res := .next (s.coreStep c (aluAB (fun a b => a >>> shAmt b) f))

/-- SAR: d = a shifted right by b[5:0], filled with the sign bit (R210). -/
def execSar (c : Fin 256) (f : BitVec 56) (s : State) : Res := .next (s.coreStep c (aluAB (fun a b => a.sshiftRight (shAmt b)) f))

/-- MINU: unsigned minimum (R210). -/
def execMinu (c : Fin 256) (f : BitVec 56) (s : State) : Res := .next (s.coreStep c (aluAB (fun a b => if a.ult b then a else b) f))

/-- MAXU: unsigned maximum (R210). -/
def execMaxu (c : Fin 256) (f : BitVec 56) (s : State) : Res := .next (s.coreStep c (aluAB (fun a b => if a.ult b then b else a) f))

/-- MINS: signed minimum (R210). -/
def execMins (c : Fin 256) (f : BitVec 56) (s : State) : Res := .next (s.coreStep c (aluAB (fun a b => if a.slt b then a else b) f))

/-- MAXS: signed maximum (R210). -/
def execMaxs (c : Fin 256) (f : BitVec 56) (s : State) : Res := .next (s.coreStep c (aluAB (fun a b => if a.slt b then b else a) f))

/-- SLTU: d = 1 if a < b unsigned, else 0 (R210). -/
def execSltu (c : Fin 256) (f : BitVec 56) (s : State) : Res := .next (s.coreStep c (aluAB (fun a b => ofBool (a.ult b)) f))

/-- SLTS: d = 1 if a < b signed, else 0 (R210). -/
def execSlts (c : Fin 256) (f : BitVec 56) (s : State) : Res := .next (s.coreStep c (aluAB (fun a b => ofBool (a.slt b)) f))

/-- SEQ: d = 1 if a = b, else 0 (R210). -/
def execSeq (c : Fin 256) (f : BitVec 56) (s : State) : Res := .next (s.coreStep c (aluAB (fun a b => ofBool (a == b)) f))

/-- SEL: d = a if c is not zero, else b (R210). -/
def execSel (c : Fin 256) (f : BitVec 56) (s : State) : Res := .next (s.coreStep c (aluSel f))

/-- ADDI: d = a + imm, sign-extended (R210). -/
def execAddi (c : Fin 256) (f : BitVec 56) (s : State) : Res := .next (s.coreStep c (aluI (fun _ => true) (fun a i => a + simm i) f))

/-- ANDI: d = a AND imm, sign-extended (R210). -/
def execAndi (c : Fin 256) (f : BitVec 56) (s : State) : Res := .next (s.coreStep c (aluI (fun _ => true) (fun a i => a &&& simm i) f))

/-- ORI: d = a OR imm, sign-extended (R210). -/
def execOri (c : Fin 256) (f : BitVec 56) (s : State) : Res := .next (s.coreStep c (aluI (fun _ => true) (fun a i => a ||| simm i) f))

/-- XORI: d = a XOR imm, sign-extended (R210). -/
def execXori (c : Fin 256) (f : BitVec 56) (s : State) : Res := .next (s.coreStep c (aluI (fun _ => true) (fun a i => a ^^^ simm i) f))

/-- SHLI: a shifted left by imm32[5:0] (R210). -/
def execShli (c : Fin 256) (f : BitVec 56) (s : State) : Res := .next (s.coreStep c (aluI (fun i => decide (i < 64)) (fun a i => a <<< i) f))

/-- SHRI: a shifted right logically by imm32[5:0] (R210). -/
def execShri (c : Fin 256) (f : BitVec 56) (s : State) : Res := .next (s.coreStep c (aluI (fun i => decide (i < 64)) (fun a i => a >>> i) f))

/-- SARI: a shifted right, filled with the sign bit by imm32[5:0] (R210). -/
def execSari (c : Fin 256) (f : BitVec 56) (s : State) : Res := .next (s.coreStep c (aluI (fun i => decide (i < 64)) (fun a i => a.sshiftRight i) f))

/-- LDI (R210). -/
def execLdi (c : Fin 256) (f : BitVec 56) (s : State) : Res := .next (s.coreStep c (aluLdi f))

/-! Table 7.4. -/

/-- FADD (R211). -/
def execFadd (c : Fin 256) (f : BitVec 56) (s : State) : Res := .next (s.coreStep c (fpAB (fAdd fp32) f))

/-- FSUB (R211). -/
def execFsub (c : Fin 256) (f : BitVec 56) (s : State) : Res := .next (s.coreStep c (fpAB (fSub fp32) f))

/-- FMUL (R211). -/
def execFmul (c : Fin 256) (f : BitVec 56) (s : State) : Res := .next (s.coreStep c (fpAB (fMul fp32) f))

/-- FMIN (R211). -/
def execFmin (c : Fin 256) (f : BitVec 56) (s : State) : Res := .next (s.coreStep c (fpAB (fMinMax fp32 false) f))

/-- FMAX (R211). -/
def execFmax (c : Fin 256) (f : BitVec 56) (s : State) : Res := .next (s.coreStep c (fpAB (fMinMax fp32 true) f))

/-- FFMA: a × b + c with one rounding (R211). -/
def execFfma (c : Fin 256) (f : BitVec 56) (s : State) : Res := .next (s.coreStep c (fpFma f))

/-- FCMP (R211). -/
def execFcmp (c : Fin 256) (f : BitVec 56) (s : State) : Res := .next (s.coreStep c (fpCmp f))

/-- FCVT (R211). -/
def execFcvt (c : Fin 256) (f : BitVec 56) (s : State) : Res := .next (s.coreStep c (fpCvt f))

/-! Table 7.5. -/

/-- BEQ: branch if a = b (R212). -/
def execBeq (c : Fin 256) (f : BitVec 56) (s : State) : Res := .next (s.coreStep c (aluBranch (fun a b => a == b) f))

/-- BNE: branch if a ≠ b (R212). -/
def execBne (c : Fin 256) (f : BitVec 56) (s : State) : Res := .next (s.coreStep c (aluBranch (fun a b => a != b) f))

/-- BLTS: branch if a < b signed (R212). -/
def execBlts (c : Fin 256) (f : BitVec 56) (s : State) : Res := .next (s.coreStep c (aluBranch (fun a b => a.slt b) f))

/-- BGES: branch if a ≥ b signed (R212). -/
def execBges (c : Fin 256) (f : BitVec 56) (s : State) : Res := .next (s.coreStep c (aluBranch (fun a b => !a.slt b) f))

/-- BLTU: branch if a < b unsigned (R212). -/
def execBltu (c : Fin 256) (f : BitVec 56) (s : State) : Res := .next (s.coreStep c (aluBranch (fun a b => a.ult b) f))

/-- BGEU: branch if a ≥ b unsigned (R212). -/
def execBgeu (c : Fin 256) (f : BitVec 56) (s : State) : Res := .next (s.coreStep c (aluBranch (fun a b => !a.ult b) f))

/-- CALL (R212). -/
def execCall (c : Fin 256) (f : BitVec 56) (s : State) : Res := .next (s.coreStep c (aluCall f))

/-- JR (R212). -/
def execJr (c : Fin 256) (f : BitVec 56) (s : State) : Res := .next (s.coreStep c (aluJr f))

/-! Table 7.6. -/

/-- POPC: ones of a (R213). -/
def execPopc (c : Fin 256) (f : BitVec 56) (s : State) : Res := .next (s.coreStep c (aluA (fun a => BitVec.ofNat 64 (popCount 64 a.toNat)) f))

/-- CLZ: leading zeros of a; 64 for 0 (R213). -/
def execClz (c : Fin 256) (f : BitVec 56) (s : State) : Res := .next (s.coreStep c (aluA (fun a => BitVec.ofNat 64 (64 - bitLen a.toNat)) f))

/-- CTZ: trailing zeros of a; 64 for 0 (R213). -/
def execCtz (c : Fin 256) (f : BitVec 56) (s : State) : Res := .next (s.coreStep c (aluA (fun a => BitVec.ofNat 64 (ctzBits 64 a.toNat)) f))

/-- ROTR: a rotated right by b[5:0] (R213). -/
def execRotr (c : Fin 256) (f : BitVec 56) (s : State) : Res := .next (s.coreStep c (aluAB (fun a b => a.rotateRight (shAmt b)) f))

/-- BEXT (R213). -/
def execBext (c : Fin 256) (f : BitVec 56) (s : State) : Res := .next (s.coreStep c (aluBext f))

/-- BINS (R213). -/
def execBins (c : Fin 256) (f : BitVec 56) (s : State) : Res := .next (s.coreStep c (aluBins f))

/-- BSWAP: bytes of a reversed (R213). -/
def execBswap (c : Fin 256) (f : BitVec 56) (s : State) : Res := .next (s.coreStep c (aluA (fun a => BitVec.ofNat 64 (leNat (leBytes 8 a.toNat).reverse)) f))

/-- HASH: gz_hash of a and b (R78, R213). -/
def execHash (c : Fin 256) (f : BitVec 56) (s : State) : Res := .next (s.coreStep c (aluAB gzHash f))

/-- BREV: bits of a reversed (R213). -/
def execBrev (c : Fin 256) (f : BitVec 56) (s : State) : Res := .next (s.coreStep c (aluA (fun a => BitVec.ofNat 64 (revBits 64 a.toNat)) f))

end Sys2Proof.Machine
end

