-- ==== Sys2Proof/Machine/CoreVector.lean ====
section
/-! DEFINITION. The scratchpad and vector instructions as commands (R214 to R217, R256). -/

namespace Sys2Proof.Machine

/-! Table 7.7: the scratchpad of the issuing virtual core. -/

/-- The scratchpad offset of an I-form access: a + imm32 modulo 2^64. -/
def scrOff (x : CoreCtx) (f : BitVec 56) : Nat := (x.rs (rA f) + simm (iImm f)).toNat

/-- R214: the fault of an access of n bytes at offset o with alignment al, if any. -/
def scrFault (o n al : Nat) : Option Status :=
  if 2 ^ 24 < o + n then some .addressRange else if o % al ≠ 0 then some .alignment else none

/-- An instruction that reads or writes the scratchpad: its gate, then its access. -/
def State.memStep (s : State) (c : Nat) (legal : Bool) (srcs vregs : List Nat) (k : State → CoreCtx → State) : State :=
  s.issueStep c fun s x => match vgate legal srcs vregs .ok x with
    | .ok _ => k s x
    | .fault st => s.coreFault c st
    | .stall => s

/-- Reads by an instruction that an uncorrectable error faults (R174), offset and length of each, then the instruction. -/
def State.scrLoad (s : State) (c : Nat) (l : List (Nat × Nat)) (k : State → State) : State :=
  let r := s.scrReads c l
  match r.2 with
  | some st => r.1.coreFault c st
  | none => k r.1

/-- The offset of activation row r of a pass, modulo 2^64 (R220). -/
def rowOff (a stride r : Nat) : Nat := (a + r * stride) % 2 ^ 64

/-- The places that a weight load reads (R219): the tile, its metadata and its scales. -/
def wldReads (fmt sp a b c : Nat) : List (Nat × Nat) :=
  (a, 128 * rowBytes fmt) :: ((if sp = 0 then [] else [(b, 128 * metaRow fmt)]) ++
    if (matFmt fmt).mx then [(c, 128 * (denseK fmt sp / 32))] else [])

/-- The streamed elements of one row of a pass over weights of format w and sparsity mode sp (R178, R220). -/
def passK (w sp : Nat) (transpose : Bool) : Nat := if transpose then 128 * halves w else denseK w sp

/-- The places that a pass of m rows reads: its rows, and their scales. -/
def passReads (fmt w sp a stride c m : Nat) (transpose : Bool) : List (Nat × Nat) :=
  (List.range m).map (fun r => (rowOff a stride r, passK w sp transpose * (matFmt fmt).bits / 8)) ++
    if (matFmt fmt).mx then [(c, m * (denseK w sp / 32))] else []

/-- What queued matrix instructions have still to read (R205), given the format and the sparsity mode of the active and of the shadow tile. -/
def mqReads (active shadow : Option (Nat × Nat)) : List (Nat × MqEntry) → List (Nat × Nat)
  | [] => []
  | (_, .wld fmt sp _ a b c) :: l => wldReads fmt sp a b c ++ mqReads active (some (fmt, sp)) l
  | (_, .mpass fmt a stride c _ swap _ transpose m) :: l =>
    let t := if swap then shadow else active
    (match t with
      | some (w, sp) => passReads fmt w sp a stride c m transpose
      | none => []) ++ mqReads t shadow l
  | _ :: l => mqReads active shadow l

/-- R205: a write to n bytes at o waits for queued matrix instructions that have still to read them. -/
def mqHolds (x : CoreCtx) (o n : Nat) : Bool :=
  let kind := fun t : WTile => (t.fmt, t.sp)
  (mqReads (x.active.map kind) ((x.load.or x.shadow).map kind) x.mq).any fun r => decide (r.1 < o + n) && decide (o < r.1 + r.2)

/-- LDS (R174, R207, R214): an uncorrectable error sets poison on d. -/
def execLds (c : Fin 256) (f : BitVec 56) (s : State) : Res :=
  .next (s.memStep c (decide (iX12 f < 8)) [rA f] [] fun s x =>
    let n := 2 ^ (iX12 f % 4)
    match scrFault (scrOff x f) n n with
    | some st => s.coreFault c st
    | none =>
      let r := s.scrReads c [(scrOff x f, n)]
      let v := leNat (r.1.scrRd c (scrOff x f) n)
      r.1.setCore c (if r.2.isSome then (x.wpoison (rD f)).adv
        else (x.ws (rD f) (if bitOf (iX12 f) 2 then sext64 (8 * n) v else BitVec.ofNat 64 v)).adv))

/-- STS (R214). -/
def execSts (c : Fin 256) (f : BitVec 56) (s : State) : Res :=
  .next (s.memStep c (decide (iX12 f < 4)) [rA f, rD f] [] fun s x =>
    let n := 2 ^ (iX12 f % 4)
    match scrFault (scrOff x f) n n with
    | some st => s.coreFault c st
    | none =>
      if mqHolds x (scrOff x f) n then s
      else ((s.scrPoke c (scrOff x f) (leBytes n (x.rs (rD f)).toNat)).setCore c x.adv).wake)

/-- The bytes that a vector access moves: 4,096, 2,048 or 1,024 for n = 0, 1, 2 (R214). -/
def vBytes (n : Nat) : Nat := 4096 / 2 ^ n
/-- R214: the length code and the part are in range. -/
def partOk (n p : Nat) : Bool := decide (n < 3) && decide (p < 4096 / vBytes n)

/-- Bytes o to o + n − 1 of a vector register replaced. -/
def vPut (v : VReg) (o : Nat) (bs : List Byte) : VReg :=
  BitVec.ofNat 32768 (setBits v.toNat (8 * (o + bs.length) - 1) (8 * o) (leNat bs))
/-- Bytes o to o + n − 1 of a vector register. -/
def vTake (v : VReg) (o n : Nat) : List Byte := leBytes n (v.toNat / 2 ^ (8 * o))

/-- VLD (R214). -/
def execVld (c : Fin 256) (f : BitVec 56) (s : State) : Res :=
  let n := bitsOf (iX12 f) 1 0
  let p := bitsOf (iX12 f) 3 2
  .next (s.memStep c (decide (iX12 f < 16) && partOk n p && vOk (rD f)) [rA f] [rD f] fun s x =>
    match scrFault (scrOff x f) (vBytes n) 64 with
    | some st => s.coreFault c st
    | none => s.scrLoad c [(scrOff x f, vBytes n)] fun s =>
      s.setCore c ((x.wv (rD f) (vPut (x.rv (rD f)) (p * vBytes n) (s.scrRd c (scrOff x f) (vBytes n)))).adv))

/-- VST (R214). -/
def execVst (c : Fin 256) (f : BitVec 56) (s : State) : Res :=
  let n := bitsOf (iX12 f) 1 0
  let p := bitsOf (iX12 f) 3 2
  .next (s.memStep c (decide (iX12 f < 16) && partOk n p && vOk (rD f)) [rA f] [rD f] fun s x =>
    match scrFault (scrOff x f) (vBytes n) 64 with
    | some st => s.coreFault c st
    | none =>
      if mqHolds x (scrOff x f) (vBytes n) then s
      else ((s.scrPoke c (scrOff x f) (vTake (x.rv (rD f)) (p * vBytes n) (vBytes n))).setCore c x.adv).wake)

/-- The offsets of the 8 segments of a strided access, modulo 2^64 (R214). -/
def segOffs (x : CoreCtx) (f : BitVec 56) : List Nat := (List.range 8).map fun j => ((x.rs (rA f)) + BitVec.ofNat 64 j * x.rs (rB f)).toNat
/-- The first fault of the segments, in order. -/
def segFault (x : CoreCtx) (f : BitVec 56) (n : Nat) : Option Status := (segOffs x f).findSome? fun o => scrFault o n 64
def segLegal (f : BitVec 56) : Bool :=
  partOk (bitsOf (rX f) 1 0) (bitsOf (rX f) 3 2) && vOk (rD f) && rC f == 0 && !rPn f && rPr f == 0 && rFmt f == 0 && xOnly f 15

/-- VLDS (R214). -/
def execVlds (c : Fin 256) (f : BitVec 56) (s : State) : Res :=
  let n := vBytes (bitsOf (rX f) 1 0)
  .next (s.memStep c (segLegal f) [rA f, rB f] [rD f] fun s x =>
    match segFault x f (n / 8) with
    | some st => s.coreFault c st
    | none => s.scrLoad c ((segOffs x f).map fun o => (o, n / 8)) fun s =>
      let bs := ((segOffs x f).map fun o => s.scrRd c o (n / 8)).flatten
      s.setCore c ((x.wv (rD f) (vPut (x.rv (rD f)) (bitsOf (rX f) 3 2 * n) bs)).adv))

/-- VSTS (R214). -/
def execVsts (c : Fin 256) (f : BitVec 56) (s : State) : Res :=
  let n := vBytes (bitsOf (rX f) 1 0)
  .next (s.memStep c (segLegal f) [rA f, rB f] [rD f] fun s x =>
    match segFault x f (n / 8) with
    | some st => s.coreFault c st
    | none =>
      if (segOffs x f).any fun o => mqHolds x o (n / 8) then s
      else
        let bs := vTake (x.rv (rD f)) (bitsOf (rX f) 3 2 * n) n
        let s := ((segOffs x f).zipIdx).foldl (fun s e => s.scrPoke c e.1 ((bs.drop (n / 8 * e.2)).take (n / 8))) s
        (s.setCore c x.adv).wake)

/-! Table 7.8. -/

/-- VADD (R216). -/
def execVadd (c : Fin 256) (f : BitVec 56) (s : State) : Res := .next (s.coreStep c (vecAB fmt03 eAdd f))

/-- VSUB (R216). -/
def execVsub (c : Fin 256) (f : BitVec 56) (s : State) : Res := .next (s.coreStep c (vecAB fmt03 eSub f))

/-- VMUL (R216). -/
def execVmul (c : Fin 256) (f : BitVec 56) (s : State) : Res := .next (s.coreStep c (vecAB fmt03 eMul f))

/-- VMIN (R216). -/
def execVmin (c : Fin 256) (f : BitVec 56) (s : State) : Res := .next (s.coreStep c (vecAB fmt03 (eMinMax false) f))

/-- VMAX (R216). -/
def execVmax (c : Fin 256) (f : BitVec 56) (s : State) : Res := .next (s.coreStep c (vecAB fmt03 (eMinMax true) f))

/-- VFMA: a × b + c with one rounding (R216). -/
def execVfma (c : Fin 256) (f : BitVec 56) (s : State) : Res := .next (s.coreStep c (vecFma f))

/-- VABS: the sign cleared (R216). -/
def execVabs (c : Fin 256) (f : BitVec 56) (s : State) : Res := .next (s.coreStep c (vecA fmt03 (eSign false) f))

/-- VNEG: the sign inverted (R216). -/
def execVneg (c : Fin 256) (f : BitVec 56) (s : State) : Res := .next (s.coreStep c (vecA fmt03 (eSign true) f))

/-- VCMP (R216). -/
def execVcmp (c : Fin 256) (f : BitVec 56) (s : State) : Res := .next (s.coreStep c (vecCmp f))

/-- VSEL (R216). -/
def execVsel (c : Fin 256) (f : BitVec 56) (s : State) : Res := .next (s.coreStep c (vecSel f))

/-- VCVT (R216). -/
def execVcvt (c : Fin 256) (f : BitVec 56) (s : State) : Res := .next (s.coreStep c (vecCvt f))

/-- VBC (R216). -/
def execVbc (c : Fin 256) (f : BitVec 56) (s : State) : Res := .next (s.coreStep c (vecBc f))

/-- VIOTA (R216). -/
def execViota (c : Fin 256) (f : BitVec 56) (s : State) : Res := .next (s.coreStep c (vecIota f))

/-- PCNT (R216). -/
def execPcnt (c : Fin 256) (f : BitVec 56) (s : State) : Res := .next (s.coreStep c (vecPcnt f))

/-- PLOG (R216). -/
def execPlog (c : Fin 256) (f : BitVec 56) (s : State) : Res := .next (s.coreStep c (vecPlog f))

/-- VEXTR (R216): the element that an index past the last one reads is a free value (log 22). -/
def execVextr (c : Fin 256) (f : BitVec 56) (s : State) : Res := .next (s.coreStep c (vecExtr f))

/-- VEXP (R216, R256, R260). -/
def execVexp (c : Fin 256) (f : BitVec 56) (s : State) : Res := .next (s.coreStep c (vecT .exp f))

/-- VLOG (R216, R256, R260). -/
def execVlog (c : Fin 256) (f : BitVec 56) (s : State) : Res := .next (s.coreStep c (vecT .log f))

/-- VRCP (R216, R256, R260). -/
def execVrcp (c : Fin 256) (f : BitVec 56) (s : State) : Res := .next (s.coreStep c (vecT .rcp f))

/-- VRSQRT (R216, R256, R260). -/
def execVrsqrt (c : Fin 256) (f : BitVec 56) (s : State) : Res := .next (s.coreStep c (vecT .rsqrt f))

/-- VSIGM (R216, R256, R260). -/
def execVsigm (c : Fin 256) (f : BitVec 56) (s : State) : Res := .next (s.coreStep c (vecT .sigm f))

/-- VTANH (R216, R256, R260). -/
def execVtanh (c : Fin 256) (f : BitVec 56) (s : State) : Res := .next (s.coreStep c (vecT .tanh f))

/-- VERF (R216, R256, R260). -/
def execVerf (c : Fin 256) (f : BitVec 56) (s : State) : Res := .next (s.coreStep c (vecT .erf f))

/-- VSQRT (R216, R256, R260). -/
def execVsqrt (c : Fin 256) (f : BitVec 56) (s : State) : Res := .next (s.coreStep c (vecT .sqrt f))

/-- VRSUM (R217). -/
def execVrsum (c : Fin 256) (f : BitVec 56) (s : State) : Res := .next (s.coreStep c (vecReduce 0 f))

/-- VRMAX (R217). -/
def execVrmax (c : Fin 256) (f : BitVec 56) (s : State) : Res := .next (s.coreStep c (vecReduce 1 f))

/-- VRMIN (R217). -/
def execVrmin (c : Fin 256) (f : BitVec 56) (s : State) : Res := .next (s.coreStep c (vecReduce 2 f))

/-- VAND: bitwise (R216). -/
def execVand (c : Fin 256) (f : BitVec 56) (s : State) : Res := .next (s.coreStep c (vecAB fmt3 (fun _ a b => (Nat.land a b, 0)) f))

/-- VOR: bitwise (R216). -/
def execVor (c : Fin 256) (f : BitVec 56) (s : State) : Res := .next (s.coreStep c (vecAB fmt3 (fun _ a b => (Nat.lor a b, 0)) f))

/-- VXOR: bitwise (R216). -/
def execVxor (c : Fin 256) (f : BitVec 56) (s : State) : Res := .next (s.coreStep c (vecAB fmt3 (fun _ a b => (Nat.xor a b, 0)) f))

/-- VSHIFT (R216). -/
def execVshift (c : Fin 256) (f : BitVec 56) (s : State) : Res := .next (s.coreStep c (vecShift f))

end Sys2Proof.Machine
end

