-- ==== Sys2Proof/Machine/CoreMatrix.lean ====
section
/-! DEFINITION. The matrix instructions and the matrix queue as commands (R176 to R188, R218 to R222, R244, R248 to R255). -/

namespace Sys2Proof.Machine

/-- The place of a block of n bytes at offset o aligned to 64 B in the scratchpad (R219). -/
def blockFault (o n : Nat) : Option Status := if 2 ^ 24 < o + n then some .addressRange else if o % 64 ≠ 0 then some .alignment else none

/-- An instruction enters the matrix queue of 4 entries (R204), or stalls while it is full. -/
def State.enqueue (s : State) (c : Nat) (legal : Bool) (srcs vregs : List Nat) (g : CoreCtx → Option Status × MqEntry) : State :=
  s.memStep c legal srcs vregs fun s x =>
    if 4 ≤ x.mq.length then s
    else match g x with
      | (some st, _) => s.coreFault c st
      | (none, e) => s.setCore c ({ x with mq := x.mq ++ [(x.pc, e)] }.adv)

def matLegal (f : BitVec 56) (mask : Nat) : Bool := !rPn f && rPr f == 0 && decide (rFmt f < 14) && xOnly f mask
/-- ACCRD and ACCZ have no format: a field that is not used is zero (R209). -/
def accLegal (f : BitVec 56) : Bool := matLegal f 3 && rFmt f == 0

/-- WLD (R179, R187, R219): operands are read, and their places checked, at issue. -/
def execWld (c : Fin 256) (f : BitVec 56) (s : State) : Res :=
  let sp := bitsOf (rX f) 1 0
  let fmt := rFmt f
  let mx := (matFmt fmt).mx
  .next (s.enqueue c (matLegal f 0x1FFF && rD f == 0 && (sp != 0 || rB f == 0) && (mx || rC f == 0))
    ([rA f] ++ (if sp = 0 then [] else [rB f]) ++ (if mx then [rC f] else [])) [] fun x =>
      let a := (x.rs (rA f)).toNat
      let b := (x.rs (rB f)).toNat
      let c := (x.rs (rC f)).toNat
      let bad := (blockFault a (128 * rowBytes fmt)).or
        ((if sp = 0 then none else blockFault b (128 * metaRow fmt)).or
          (if mx then blockFault c (128 * (denseK fmt sp / 32)) else none))
      (bad, .wld fmt sp (bitsOf (rX f) 12 2) a b c))

/-- MPASS (R220). -/
def execMpass (c : Fin 256) (f : BitVec 56) (s : State) : Res :=
  let mx := (matFmt (rFmt f)).mx
  let x24 := rX f
  .next (s.enqueue c (matLegal f 0xFFF && rD f == 0 && (mx || rC f == 0)) ([rA f, rB f] ++ (if mx then [rC f] else [])) [] fun x =>
    (none, .mpass (rFmt f) (x.rs (rA f)).toNat (x.rs (rB f)).toNat (x.rs (rC f)).toNat (bitsOf x24 1 0) (bitOf x24 2) (bitOf x24 3)
      (bitOf x24 4) (bitsOf x24 11 5 + 1)))

/-- ACCRD (R222). -/
def execAccrd (c : Fin 256) (f : BitVec 56) (s : State) : Res :=
  .next (s.enqueue c (accLegal f && vOk (rD f) && rC f == 0) [rA f, rB f] [rD f] fun x =>
    (none, .accrd (rD f) ((x.rs (rA f)).toNat % 16) (x.rs (rB f)).toInt (bitsOf (rX f) 1 0)))

/-- ACCZ (R218). -/
def execAccz (c : Fin 256) (f : BitVec 56) (s : State) : Res :=
  .next (s.enqueue c (accLegal f && rD f == 0 && rA f == 0 && rB f == 0 && rC f == 0) [] [] fun _ =>
    (none, .accz (bitsOf (rX f) 1 0)))

/-- A weight load reads its tile, metadata and scales (R179, R219, R244). -/
def State.readTile (s : State) (c pc fmt sp kext a b sc : Nat) : WTile :=
  let t : WTile := ⟨fmt, sp, kext, s.scrRd c a (128 * rowBytes fmt), if sp = 0 then [] else s.scrRd c b (128 * metaRow fmt),
    if (matFmt fmt).mx then s.scrRd c sc (128 * (denseK fmt sp / 32)) else [], none, pc⟩
  { t with viol := tileViol t }

/-- A queued pass that faults: its context stops, or, where it has stopped already, the fault is only captured and what follows in the
queue does not run. -/
def State.passFault (s : State) (c pc : Nat) (st : Status) (info : Nat := 0) : State :=
  match (s.core c).run with
  | .draining _ _ => ((s.captureFault c st info pc).setCore c { s.core c with mq := [], load := none }).drainAll
  | _ => s.coreFault c st info (some pc)

/-- The reasons of MATRIX_MODE for a pass (R178, R183, R220, R248, R250, Table 8.7), and otherwise its kind. -/
def passKind (reproj : Bool) (tile : AccTile) (t : WTile) (fmt : Nat) (transpose write : Bool) : Option AccKind :=
  match matPair reproj fmt t.fmt with
  | none => none
  | some (kind, limit) =>
    let k := passK t.fmt t.sp transpose
    let isCol := match kind with
      | .col _ => true
      | _ => false
    let fp8 := reproj && (fmt == 1 || fmt == 2)
    let bad := (reproj && (t.sp != 0 || (matFmt t.fmt).two || (matFmt t.fmt).mx))
      || (transpose && (t.sp != 0 || !(isCol || fp8 || fmt == 12 || fmt == 13)))
      || (!write && !sameKind tile.kind kind)
      || (isCol && decide (limit < (if write then 0 else tile.kcount) + k))
    if bad then none else some kind

/-- A pass that streams (R176, R220): the accumulator tile, the flags and the counters. -/
def State.runPass (s : State) (c : Nat) (x : CoreCtx) (t : WTile) (kind : AccKind) (fmt a stride sc n m : Nat) (write transpose : Bool) :
    State :=
  let k := passK t.fmt t.sp transpose
  let rb := k * (matFmt fmt).bits / 8
  let nb := denseK t.fmt t.sp / 32
  let rows := (List.range m).map fun r =>
    (s.scrRd c (rowOff a stride r) rb, if (matFmt fmt).mx then s.scrRd c (sc + r * nb) nb else [])
  let tile := x.acc.getD n AccTile.fresh
  let mixed := match tile.kind, kind with
    | .col f, .col g => !write && f != g
    | _, _ => false
  let r := passWords x.kern.reproj kind fmt t transpose write tile rows
  let words := if mixed then (List.range (128 * m)).foldl (fun ws i =>
      let w := ws.getD i AccWord.zero
      ws.put i { w with w := Config.openWord [2, i, (tile.words.getD i AccWord.zero).w.toNat, w.w.toNat] }) r.words
    else r.words
  let tile' : AccTile := ⟨kind, (if write then 0 else tile.kcount) + k, words⟩
  let p := s.runner c
  let s := s.bump F.CORE_MAC_CNT_macs p 0 r.macs
  let s := if s.get F.CORE_CTL_zero_gate p = 1 then s.bump F.CORE_ZERO_GATED_CNT_gated p 0 r.gated else s
  s.setCore c ({ x with acc := x.acc.put n tile' }.orFl r.fl)

/-- An MPASS at the head of the queue (R174, R180, R188, R220, R244). -/
def State.startPass (s : State) (c pc : Nat) (x : CoreCtx) (fmt a stride sc n : Nat) (swap write transpose : Bool) (m : Nat) : State :=
  match (if swap then x.shadow else x.active) with
  | none => s.passFault c pc .matrixMode
  | some t =>
    match (if swap then t.viol else none) with
    | some (w, col, kind) => s.passFault c pc .sparseMeta (w * 2 ^ 40 + col * 2 ^ 33 + kind * 2 ^ 31)
    | none =>
      match passKind x.kern.reproj (x.acc.getD n AccTile.fresh) t fmt transpose write with
      | none => s.passFault c pc .matrixMode
      | some kind =>
        let rb := passK t.fmt t.sp transpose * (matFmt fmt).bits / 8
        let rowBad := (List.range m).any fun r => decide (2 ^ 24 < rowOff a stride r + rb)
        let scBad := if (matFmt fmt).mx then blockFault sc (m * (denseK t.fmt t.sp / 32)) else none
        match (if rowBad then some Status.addressRange else scBad) with
        | some st => s.passFault c pc st
        | none =>
          let r := s.scrReads c (passReads fmt t.fmt t.sp a stride sc m transpose)
          match r.2 with
          | some st => r.1.passFault c pc st
          | none => r.1.runPass c { x with active := some t } t kind fmt a stride sc n m write transpose

/-- MATRIX_QUEUE_START (R218): the entry at the head of a context's queue starts once its interlocks allow (R181). What a stopped context
had queued before its stop is left to finish (R233). -/
def execMatrixQueueStart (c : Fin 256) (s : State) : Res :=
  let x := s.core c
  let alive := match x.run with
    | .running => true
    | .blocked _ => true
    | .draining _ _ => true
    | _ => false
  let s : State := match alive, x.mq with
    | true, (pc, e) :: rest =>
      let y := { x with mq := rest }
      match e with
      | .wld fmt sp kext a b sc =>
        if x.load.isSome then s
        else
          let r := s.scrReads c (wldReads fmt sp a b sc)
          match r.2 with
          | some st => r.1.passFault c pc st
          | none => r.1.setCore c { y with load := some (r.1.readTile c pc fmt sp kext a b sc) }
      | .mpass fmt a stride sc n swap write transpose m =>
        if swap && x.load.isSome then s else s.startPass c pc y fmt a stride sc n swap write transpose m
      | .accrd d g b n =>
        let tile := x.acc.getD n AccTile.fresh
        let r := (List.range 1024).map fun l => accRead tile.kind b (tile.words.getD ((8 * g + l / 128) * 128 + l % 128) AccWord.zero)
        s.setCore c ((y.wv d (vOfList 32 (r.map (·.1)))).orFl (r.foldl (fun fl e => fl ||| e.2) 0))
      | .accz n => s.setCore c { y with acc := y.acc.put n AccTile.fresh }
    | _, _ => s
  .next (s.drainStep c)

/-- WEIGHT_LOAD_COMPLETE (R187, R188): the loaded tile becomes the shadow tile; a violation is captured and counted. -/
def execWeightLoadComplete (c : Fin 256) (s : State) : Res :=
  let x := s.core c
  let s : State := match x.load with
    | none => s
    | some t =>
      let s := s.setCore c { x with load := none, shadow := some t }
      match t.viol with
      | none => s
      | some (w, col, kind) =>
        let s := s.captureFault c .sparseMeta (w * 2 ^ 40 + col * 2 ^ 33 + kind * 2 ^ 31) t.pc
        s.bump F.CORE_SPARSE_META_CNT_bad_tiles (s.runner c) 0 1
  .next (s.drainStep c)

end Sys2Proof.Machine
end

