-- ==== Sys2Proof/Machine/CoreSystem.lean ====
section
/-! DEFINITION. The remote, wait, semaphore, engine, mover and system instructions as commands (R223 to R232). -/

namespace Sys2Proof.Machine

def plainLegal (f : BitVec 56) (mask : Nat) : Bool := !rPn f && rPr f == 0 && rFmt f == 0 && xOnly f mask

/-- A memory-class instruction that is not a vector one. -/
def State.sysStep (s : State) (c : Nat) (legal : Bool) (srcs : List Nat) (k : State → CoreCtx → State) : State :=
  s.memStep c legal srcs [] k

/-! Table 7.11. -/

/-- A checked remote operation: issued, or stalled under R43 or behind its agent's earlier work. -/
def State.remoteIssue (s : State) (c : Nat) (x : CoreCtx) (r : CoreRemote) : State :=
  let k : StreamKey := ⟨x.kern.sheet, x.kern.vindex, x.kern.job, fld r.addr 63 44⟩
  if s.coreHeld x.kern.sheet x.kern.vindex || decide (65536 ≤ (s.stream k).unacked) then
    s.setCore c { x with run := .blocked (.issue r) }
  else (s.setCore c x.adv).issueCore c r

/-- The address of a remote instruction: register a, or with x[4] a local offset of the core's own logical device (R223). -/
def remoteAddr (x : CoreCtx) (f : BitVec 56) : Word :=
  let a := x.rs (rA f)
  if bitOf (rX f) 4 && decide (a.toNat < 2 ^ 44) then BitVec.ofNat 64 (x.kern.logical * 2 ^ 44 + a.toNat) else a

/-- A local offset of 2^44 or more lies outside every window (R23). -/
def remoteBad (x : CoreCtx) (f : BitVec 56) : Bool := bitOf (rX f) 4 && decide (2 ^ 44 ≤ (x.rs (rA f)).toNat)

/-- A remote instruction behind its own checks: size and alignment fault at issue (R31, R223); an offset outside every window, or a scratchpad
place beyond the slot, fails as an operation (R23). -/
def State.remoteGo (s : State) (c : Nat) (x : CoreCtx) (f : BitVec 56) (sizeOk : Bool) (r : CoreRemote) : State :=
  if !sizeOk || fld r.addr 43 0 % r.size != 0 then s.coreFault c .alignment
  else s.remoteIssue c x { r with bad := if remoteBad x f then some .addressRange else r.bad }

/-- A wide access beyond the slot. -/
def slotBad (wide : Bool) (o sz : Nat) : Option Status := if wide && decide (2 ^ 24 < o + 2 ^ sz) then some .addressRange else none

/-- RLD (R223). -/
def execRld (c : Fin 256) (f : BitVec 56) (s : State) : Res :=
  let sz := bitsOf (rX f) 3 0
  let wide := decide (4 ≤ sz)
  .next (s.sysStep c (plainLegal f 0x7F && rC f == 0 && (if wide then rD f == 0 else rB f == 0)) ([rA f] ++ if wide then [rB f] else []) fun s x =>
    s.remoteGo c x f (decide (sz ≤ 8)) ⟨1, remoteAddr x f, 2 ^ sz, if wide then none else some (rD f), (x.rs (rB f)).toNat, bitOf (rX f) 5,
      bitOf (rX f) 6 && !wide, [], 0, 0, false, slotBad wide (x.rs (rB f)).toNat sz⟩)

/-- RST (R223, R224). A scratchpad source beyond the slot lies outside every window (R23). -/
def execRst (c : Fin 256) (f : BitVec 56) (s : State) : Res :=
  let sz := bitsOf (rX f) 3 0
  let wide := decide (4 ≤ sz)
  .next (s.sysStep c (plainLegal f 0x1F && rC f == 0 && rD f == 0) [rA f, rB f] fun s x =>
    let o := (x.rs (rB f)).toNat
    let r := if wide && (slotBad wide o sz).isNone then s.scrReads c [(o, 2 ^ sz)] else (s, none)
    r.1.remoteGo c x f (decide (sz ≤ 8)) ⟨2, remoteAddr x f, 2 ^ sz, none, 0, false, false, if wide then r.1.scrRd c o (2 ^ sz) else leBytes (2 ^ sz) o,
      0, 0, false, (slotBad wide o sz).or r.2⟩)

/-- RATOM (R223, Table 2.5). -/
def execRatom (c : Fin 256) (f : BitVec 56) (s : State) : Res :=
  let sz := bitsOf (rX f) 3 0
  let code := bitsOf (rX f) 11 8
  let ret := bitOf (rX f) 7
  .next (s.sysStep c (plainLegal f 0xF9F && decide (code ≤ 10) && (ret || rD f == 0) && (code == 9 || rC f == 0))
    ([rA f, rB f] ++ if code = 9 then [rC f] else []) fun s x =>
    s.remoteGo c x f ((sz == 2 || sz == 3) && !(code == 10 && sz == 3)) ⟨3, remoteAddr x f, 2 ^ sz, if ret then some (rD f) else none, 0, false,
      false, leBytes 8 (x.rs (rB f)).toNat, code, x.rs (rC f), ret, none⟩)

/-- FENCE (R50 to R53, R226). -/
def execFence (c : Fin 256) (f : BitVec 56) (s : State) : Res :=
  let dest := bitOf (rX f) 0
  .next (s.sysStep c (plainLegal f 3 && rB f == 0 && rC f == 0 && (dest || rA f == 0)) [rA f] fun s x =>
    if s.coreHeld x.kern.sheet x.kern.vindex then s
    else
      let id := s.ep.nextId
      let s := s.setCore c { x with run := .blocked (.fence id (rD f)) }
      (s.addFence x.kern.sheet x.kern.vindex x.kern.job (if dest then some (x.rs (rA f)).toNat else none) (bitOf (rX f) 1)
        (.instr c (rD f))).settle)

/-! Table 7.12. -/

/-- WAITGE and WAITNE (R227). -/
def State.waitOp (s : State) (c : Nat) (f : BitVec 56) (ne : Bool) : State :=
  s.sysStep c (plainLegal f 0xFFFF && rC f == 0) [rA f, rB f] fun s x =>
    let a := (x.rs (rA f)).toNat
    if a % 8 ≠ 0 then s.coreFault c .alignment
    else if !s.inData x.kern.sheet a 8 then s.coreFault c .addressRange
    else if s.waitHolds x a (x.rs (rB f)) ne then s.setCore c ((x.ws (rD f) 1).adv)
    else
      let us := bitsOf (rX f) 15 0
      s.setCore c { x with run := .blocked (.wait a (x.rs (rB f)) ne (rD f) (if us = 0 then none else some (s.datum + usTicks us))) }
def execWaitge (c : Fin 256) (f : BitVec 56) (s : State) : Res := .next (s.waitOp c f false)
def execWaitne (c : Fin 256) (f : BitVec 56) (s : State) : Res := .next (s.waitOp c f true)

/-- WAIT_TIMEOUT (R227): the limit has passed and the wait completes with 0. -/
def execWaitTimeout (c : Fin 256) (s : State) : Res :=
  let x := s.core c
  .next (match x.run with
    | .blocked (.wait _ _ _ d (some t)) => if t ≤ s.datum then s.setCore c (({ x with run := .running }.ws d 0).adv) else s
    | _ => s)

/-- SACQ (R228, R382). -/
def execSacq (c : Fin 256) (f : BitVec 56) (s : State) : Res :=
  let n := bitsOf (rX f) 7 0
  .next (s.sysStep c (plainLegal f 0xFF && rD f == 0 && rA f == 0 && rB f == 0 && rC f == 0) [] fun s x =>
    match s.sems.find (x.kern.sheet, n) with
    | none => ({ s with sems := s.sems.put (x.kern.sheet, n) ⟨x.kern.ctxIdx, c, s.datum⟩ }.setCore c x.adv).keepLifts x.kern.sheet
    | some m =>
      if m.ctx = x.kern.ctxIdx ∧ m.core = c then s.setCore c x.adv
      else (s.setCore c { x with run := .blocked (.sacq n) }).keepLifts x.kern.sheet)

/-- SREL (R228). -/
def execSrel (c : Fin 256) (f : BitVec 56) (s : State) : Res :=
  let n := bitsOf (rX f) 7 0
  .next (s.sysStep c (plainLegal f 0xFF && rD f == 0 && rA f == 0 && rB f == 0 && rC f == 0) [] fun s x =>
    match s.sems.find (x.kern.sheet, n) with
    | some m =>
      if m.ctx = x.kern.ctxIdx ∧ m.core = c then (s.setCore c x.adv).semRelease x.kern.sheet n
      else s.coreFault c .semNotHeld
    | none => s.coreFault c .semNotHeld)

/-- SUBMIT (R229): one STORE of 64 B to the queue page of the core's own local octant; the core waits for its acceptance. -/
def execSubmit (c : Fin 256) (f : BitVec 56) (s : State) : Res :=
  let q := bitsOf (rX f) 2 0
  .next (s.sysStep c (plainLegal f 7 && decide (q < 5) && rD f == 0 && rB f == 0 && rC f == 0) [rA f] fun s x =>
    let a := (x.rs (rA f)).toNat
    if a % 64 ≠ 0 then s.coreFault c .alignment
    else if 2 ^ 24 < a + 64 then s.coreFault c .addressRange
    else
      let k : StreamKey := ⟨x.kern.sheet, x.kern.vindex, x.kern.job, x.kern.logical⟩
      if s.coreHeld k.sheet k.agent || decide (65536 ≤ (s.stream k).unacked) then s
      else s.scrLoad c [(a, 64)] fun s =>
        let target := 0x20000000000 + x.kern.vindex / 32 * 2 ^ 20 + q * 2 ^ 16
        let s := s.setCore c { x with run := .blocked .submit }
        (s.issue k (BitVec.ofNat 64 (k.dst * 2 ^ 44 + target)) { OpEnd.none with owner := some (1, c) } fun w =>
          [⟨{ s.reqFrame k.sheet k.agent k.job w 2 1 with
              addr := BitVec.ofNat 44 target, spec := 6, last := true, payload := s.scrRd c a 64 }, none, none⟩]).settleOwners)

/-- The lowest-numbered idle mover of a virtual core, or the one named (R230). -/
def State.moverFor (s : State) (c sel : Nat) : Option Nat :=
  if sel < 4 then (if s.movers.has (c, sel) then none else some sel)
  else (List.range 4).find? fun j => !s.movers.has (c, j)

/-- A mover started on the descriptor at scratchpad offset off (R230); one that reads with an uncorrectable error ends with it (R174). -/
def State.startMover (s : State) (c off j d : Nat) : State :=
  let x := s.core c
  let r := s.scrReads c [(off, 64)]
  let desc : BitVec 512 := BitVec.ofNat 512 (leNat (s.scrRd c off 64))
  { r.1 with movers := s.movers.put (c, j) ⟨desc, c, r.2⟩ }.setCore c (({ x with run := .running }.ws d (BitVec.ofNat 64 j)).adv)

/-- MVI (R230). -/
def execMvi (c : Fin 256) (f : BitVec 56) (s : State) : Res :=
  let sel := bitsOf (rX f) 2 0
  .next (s.sysStep c (plainLegal f 7 && decide (sel < 5) && rB f == 0 && rC f == 0) [rA f] fun s x =>
    let a := (x.rs (rA f)).toNat
    if a % 64 ≠ 0 then s.coreFault c .alignment
    else if 2 ^ 24 < a + 64 then s.coreFault c .addressRange
    else match s.moverFor c sel with
      | some j => s.startMover c a j (rD f)
      | none => s.setCore c { x with run := .blocked (.mvi a sel (rD f)) })

/-- Whether every mover of a mask is idle. -/
def State.moversFree (s : State) (c mask : Nat) : Bool := (List.range 4).all fun j => !bitOf mask j || !s.movers.has (c, j)

/-- MVWAIT (R230). -/
def execMvwait (c : Fin 256) (f : BitVec 56) (s : State) : Res :=
  let m := bitsOf (rX f) 3 0
  .next (s.sysStep c (plainLegal f 0xF && rD f == 0 && rA f == 0 && rB f == 0 && rC f == 0) [] fun s x =>
    if s.moversFree c m then s.setCore c x.adv else s.setCore c { x with run := .blocked (.mvwait m) })

/-! Table 7.13. -/

/-- END (R232). It does not issue before the matrix instructions ahead of it have run: a pass among them may fault (R203; DEDUCED,
log 120). -/
def execEndInstr (c : Fin 256) (f : BitVec 56) (s : State) : Res :=
  .next (s.sysStep c (f == 0) [] fun s x => if !x.mq.isEmpty || x.load.isSome then s else (s.setCore c { x with run := .blocked (.ending none) }).drainStep c)

/-- RDS (R231): code 5, the CCLK cycles since the kernel started, is a free value (log 23). -/
def State.special (s : State) (c : Nat) (x : CoreCtx) (k : Nat) : Word :=
  match k with
  | 0 => BitVec.ofNat 64 x.kern.vindex
  | 1 => BitVec.ofNat 64 (x.kern.vindex - x.kern.vfirst)
  | 2 => BitVec.ofNat 64 x.kern.logical
  | 3 => BitVec.ofNat 64 x.kern.job
  | 4 => BitVec.ofNat 64 s.datum
  | 5 => Config.freeWord s.free
  | 6 => x.fl.zeroExtend 64
  | _ => BitVec.ofNat 64 (s.runner c)
def execRds (c : Fin 256) (f : BitVec 56) (s : State) : Res :=
  let k := bitsOf (rX f) 3 0
  .next ((s.sysStep c (plainLegal f 0xF && decide (k < 8) && rA f == 0 && rB f == 0 && rC f == 0) [] fun s x =>
    s.setCore c ((x.ws (rD f) (s.special c x k)).adv)).draw)

/-- WRS (R231). -/
def execWrs (c : Fin 256) (f : BitVec 56) (s : State) : Res :=
  .next (s.sysStep c (plainLegal f 0xF && bitsOf (rX f) 3 0 == 6 && rD f == 0 && rB f == 0 && rC f == 0) [rA f] fun s x =>
    s.setCore c ({ x with fl := (x.rs (rA f)).truncate 5 }.adv))

/-- BREAK (R231): faults with SW_TRAP, carrying x[15:0]. -/
def execBreakInstr (c : Fin 256) (f : BitVec 56) (s : State) : Res :=
  .next (s.sysStep c (plainLegal f 0xFFFF && rD f == 0 && rA f == 0 && rB f == 0 && rC f == 0) [] fun s _ =>
    s.coreFault c .swTrap (bitsOf (rX f) 15 0 * 2 ^ 32))

end Sys2Proof.Machine
end

