-- ==== Sys2Proof/Machine/Movers.lean ====
section
/-! DEFINITION. The tile movers and the activation predictor (R189 to R198), completion of a mover (R190, R230, R232), the two
W1C captures of chapter 6 and the guest switch (R201). -/

namespace Sys2Proof.Machine

/-- The fields of Table 6.6. -/
structure MoverDesc where
  op : Nat
  elem : Nat
  rows : Nat
  rowBytes : Nat
  param : Nat
  src : Nat
  dst : Nat
  sst : Nat
  dstr : Nat
  aux : Nat
  done : Nat
  tag : Nat

def moverDesc (d : BitVec 512) : MoverDesc :=
  ⟨dAt d 0 1, dAt d 1 1, dAt d 4 4, dAt d 8 4, dAt d 12 4, dAt d 16 8, dAt d 24 8, dAt d 32 4, dAt d 36 4, dAt d 40 8, dAt d 48 8, dAt d 56 4⟩

/-- Tables 6.6 and 6.7: the ranges of the fields and the zero fields. -/
def moverFormatOk (d : BitVec 512) : Bool :=
  let m := moverDesc d
  decide (1 ≤ m.op ∧ m.op ≤ 7) && decide (m.elem ≤ 2) && dAt d 2 2 == 0 && dAt d 60 4 == 0 &&
  decide (1 ≤ m.rows ∧ m.rows ≤ 65536) && m.rowBytes % 8 == 0 && decide (8 ≤ m.rowBytes ∧ m.rowBytes ≤ 65536) &&
  (m.op == 3 || m.op == 6 || m.param == 0) && (!(m.op == 1 || m.op == 5) || m.aux == 0)

/-- The status of a list of accesses by virtual core c (R189). -/
def State.accessCheck (s : State) (c : Nat) (l : List Access1) : State × Status :=
  let k := (s.core c).kern
  s.access k.sheet k.job k.logical l

/-- Bytes written by a mover, counted (Table 6.21). -/
def State.moverPut (s : State) (c a : Nat) (bs : List Byte) : State :=
  (s.write (s.core c).kern.sheet a bs).bump F.MOV_BYTES_CNT_bytes c 0 bs.length

/-- The effect of the operation that mover j of core c holds, if it is operation op and has not run: the format check of R189,
then g, which answers the state and the completion status. -/
def State.moverRun (s : State) (c j op : Nat) (g : State → MoverDesc → State × Status) : State :=
  match s.movers.find (c, j) with
  | some ⟨d, h, none⟩ =>
    if dAt d 0 1 ≠ op then s
    else
      let r := if moverFormatOk d then g s (moverDesc d) else (s, .descFormat)
      { r.1 with movers := r.1.movers.put (c, j) ⟨d, h, some r.2⟩ }
  | _ => s

/-- Rows read from the source and written to the destination one after another. -/
def State.moveRows (s : State) (c : Nat) (rows : List (Nat × Nat × Nat)) : State :=
  rows.foldl (fun s r => s.moverPut c r.2.1 (s.rd (s.core c).kern.sheet r.1 r.2.2)) s

/-- The addresses of a descriptor, the completion word's among them, lie in data windows of their sheet (R189). COPY and DECOMPRESS have no aux. -/
def State.moverAddrs (s : State) (c : Nat) (m : MoverDesc) : Bool :=
  let i := (s.core c).kern.sheet
  s.inData i m.src 1 && s.inData i m.dst 1 && (m.op == 1 || m.op == 5 || s.inData i m.aux 1) && (m.done == 0 || s.inData i m.done 8)

/-- The addresses of a descriptor and its accesses checked (R189), then an effect. -/
def State.checked (s : State) (c : Nat) (m : MoverDesc) (l : List Access1) (g : State → State × Status) : State × Status :=
  if !s.moverAddrs c m then (s, .addressRange)
  else
    let r := s.accessCheck c l
    if r.2 = Status.ok then g r.1 else r

/-- COPY (R189, Table 6.7). -/
def execCopyDesc (c : Fin 256) (j : Fin 4) (s : State) : Res :=
  .next (s.moverRun c j 1 fun s m =>
    let rows := (List.range m.rows).map fun r => (m.src + r * m.sst, m.dst + r * m.dstr, m.rowBytes)
    s.checked c m (rows.map (fun r => (r.1, r.2.2, false)) ++ rows.map fun r => (r.2.1, r.2.2, true)) fun s => (s.moveRows c rows, .ok))

/-- The u16 index list at aux. -/
def State.indexList (s : State) (c a n : Nat) : List Nat := (List.range n).map fun j => s.rdN (s.core c).kern.sheet (a + 2 * j) 2

/-- GATHER_ROWS (Table 6.7): row j of the destination is row index[j] of the source. -/
def execGatherRows (c : Fin 256) (j : Fin 4) (s : State) : Res :=
  .next (s.moverRun c j 2 fun s m =>
    let idx := s.indexList c m.aux m.rows
    let rows := idx.zipIdx.map fun e => (m.src + e.1 * m.sst, m.dst + e.2 * m.dstr, m.rowBytes)
    s.checked c m ((m.aux, 2 * m.rows, false) :: rows.map (fun r => (r.1, r.2.2, false)) ++ rows.map fun r => (r.2.1, r.2.2, true))
      fun s => (s.moveRows c rows, .ok))

/-- GATHER_COLS (Table 6.7). An index past the row's last element names no element: its bytes are free values (log 25). -/
def execGatherCols (c : Fin 256) (j : Fin 4) (s : State) : Res :=
  .next (s.moverRun c j 3 fun s m =>
    let w := 2 ^ m.elem
    let idx := s.indexList c m.aux m.param
    let i := (s.core c).kern.sheet
    let rows := List.range m.rows
    s.checked c m ((m.aux, 2 * m.param, false) :: rows.map (fun r => (m.src + r * m.sst, m.rowBytes, false)) ++
        rows.map fun r => (m.dst + r * m.dstr, m.param * w, true)) fun s =>
      let s' := rows.foldl (fun t r =>
        let row := t.rd i (m.src + r * m.sst) m.rowBytes
        let bs := (idx.map fun e =>
          if e * w < m.rowBytes then bytesAt row (e * w) w else leBytes w (Config.openWord ([3, w, e] ++ row.map (·.toNat))).toNat).flatten
        t.moverPut c (m.dst + r * m.dstr) bs) s
      (s', .ok))

/-- COMPRESS (R191): one tile for each row, packed back to back; the total goes to the word at aux. -/
def execCompress (c : Fin 256) (j : Fin 4) (s : State) : Res :=
  .next (s.moverRun c j 4 fun s m =>
    let i := (s.core c).kern.sheet
    let srcs := (List.range m.rows).map fun r => (m.src + r * m.sst, m.rowBytes, false)
    let tiles := (List.range m.rows).map fun r => compressTile m.elem (s.rd i (m.src + r * m.sst) m.rowBytes)
    let out := (tiles.map (·.1)).flatten
    s.checked c m (srcs ++ [(m.dst, out.length, true), (m.aux, 8, true)]) fun s =>
      let s := (s.moverPut c m.dst out).moverPut c m.aux (leBytes 8 out.length)
      let s := s.bump F.MOV_COMP_IN_CNT_bytes c 0 (m.rows * m.rowBytes)
      let s := s.bump F.MOV_COMP_OUT_CNT_bytes c 0 out.length
      (s.bump F.MOV_DENSE_CNT_tiles c 0 ((tiles.filter (·.2)).length), .ok))

/-- Tiles expanded from address a on: the rows, whether every legend was good (R192), and where the last byte read ends: of a tile that is
not good its legend is read. -/
def State.expandRows (s : State) (i rb : Nat) : Nat → Nat → List (List Byte) × Bool × Nat
  | 0, a => ([], true, a)
  | n + 1, a =>
    match expandTile rb (s.rd i a (rb + rb / 8 + 48)) with
    | none => ([], false, a + 8)
    | some (row, len) =>
      let r := State.expandRows s i rb n (a + len)
      (row :: r.1, r.2)

/-- DECOMPRESS (R192): rows before a bad tile are written. -/
def execDecompress (c : Fin 256) (j : Fin 4) (s : State) : Res :=
  .next (s.moverRun c j 5 fun s m =>
    let i := (s.core c).kern.sheet
    let r := s.expandRows i m.rowBytes m.rows m.src
    s.checked c m ((m.src, r.2.2 - m.src, false) :: (List.range r.1.length).map fun k => (m.dst + k * m.dstr, m.rowBytes, true)) fun s =>
      let s := r.1.zipIdx.foldl (fun s e => s.moverPut c (m.dst + e.2 * m.dstr) e.1) s
      (s, if r.2.1 then .ok else .tileFormat))

/-! The predictor. -/

def predMode (cfg : Nat) : Nat := bitsOf cfg 1 0
def predSample (cfg : Nat) : Nat := bitsOf cfg 23 8

/-- A row is sampled: VERIFY, and its token index is a multiple of sample_n (R195). -/
def rowSampled (cfg tag : Nat) : Bool := predMode cfg == 2 && bitsOf tag 23 4 % max 1 (predSample cfg) == 0

/-- SELECT's output: counts, active neurons padded to 8 B, sampled rows (R195). -/
def selectOut (active sampled : List Nat) : List Byte :=
  let a := (active.map fun n => leBytes 2 n).flatten
  leBytes 4 active.length ++ leBytes 4 sampled.length ++ a ++ List.replicate (alignUp a.length 8 - a.length) 0 ++
    (sampled.map fun n => leBytes 2 n).flatten

/-- SELECT (R194, R195). -/
def execSelectDesc (c : Fin 256) (j : Fin 4) (s : State) : Res :=
  .next (s.moverRun c j 6 fun s m =>
    let k := (s.core c).kern
    if predMode k.predCfg = 0 then (s, .predOff)
    else
      let i := k.sheet
      let rows := List.range m.rows
      let samp := fun r => rowSampled k.predCfg (s.rdN i (m.aux + r * m.dstr) 8)
      let score := fun r h => s.rdN i (m.src + r * m.sst + 4 * h) 4
      let rest := rows.filter fun r => !samp r
      let active := (List.range (m.rowBytes / 4)).filter fun h => rest.any fun r => (fCmp fp32 2 m.param (score r h)).1
      let sampled := rows.filter samp
      let out := selectOut active sampled
      s.checked c m (rows.map (fun r => (m.src + r * m.sst, m.rowBytes, false)) ++ rows.map (fun r => (m.aux + r * m.dstr, 8, false)) ++
          [(m.dst, out.length, true)]) fun s =>
        ((s.moverPut c m.dst out).bump F.CORE_PRED_SAMPLE_CNT_samples c 0 sampled.length, .ok))

/-- PRED_CHECK (R196): non-zero elements of the sampled rows whose neuron the SELECT output at aux does not list. -/
def execPredCheck (c : Fin 256) (j : Fin 4) (s : State) : Res :=
  .next (s.moverRun c j 7 fun s m =>
    let k := (s.core c).kern
    if predMode k.predCfg = 0 then (s, .predOff)
    else
      let i := k.sheet
      let na := s.rdN i m.aux 4
      let ns := s.rdN i (m.aux + 4) 4
      let w := 2 ^ m.elem
      let active := (List.range na).map fun n => s.rdN i (m.aux + 8 + 2 * n) 2
      let miss := sumOf (List.range ns) fun r => ((List.range (m.rowBytes / w)).filter fun h =>
        s.rdN i (m.src + r * m.sst + w * h) w % 2 ^ (8 * w - 1) != 0 && !active.contains h).length
      s.checked c m ([(m.aux, 8 + 2 * na, false)] ++ (List.range ns).map fun r => (m.src + r * m.sst, m.rowBytes, false)) fun s =>
        (s.bump F.CORE_PRED_MISS_CNT_misses c 0 miss, .ok))

/-- A core that waits for its movers looks again (R230). -/
def State.moverWake (s : State) (c : Nat) : State :=
  let x := s.core c
  match x.run with
  | .blocked (.mvi off sel d) =>
    match s.moverFor c sel with
    | some j => s.startMover c off j d
    | none => s
  | .blocked (.mvwait m) => if s.moversFree c m then s.setCore c { x with run := .running }.adv else s
  | _ => s

/-- MOVER_COMPLETE (R189, R190): the completion word, the capture of a status other than OK, and the waits that end. A descriptor
whose op is in no row of Table 6.7 completes with DESC_FORMAT. -/
def execMoverComplete (c : Fin 256) (j : Fin 4) (s : State) : Res :=
  .next (match s.movers.find (c.val, j.val) with
    | none => s
    | some m =>
      let op := dAt m.desc 0 1
      match (if op = 0 ∨ 7 < op then some Status.descFormat else m.done) with
      | none => s
      | some st =>
        let tag := dAt m.desc 56 4
        let s := { s with movers := s.movers.del (c.val, j.val) }
        let s := if st = Status.ok then s
          else s.capture ⟨.MOV_FAULT_INFO, c, 0⟩ (j * 2 ^ 48 + tag * 2 ^ 16 + st.code) []
        let s := s.complete (s.core c).kern.sheet (dAt m.desc 48 8) tag st
        (s.moverWake c).drainAll)

/-- A W1C write of MOV_FAULT_INFO re-arms the capture (Table 6.25). -/
def execMovFaultInfo (c : Fin 256) (w : Word) (s : State) : Res := .next (s.rearm ⟨.MOV_FAULT_INFO, c, 0⟩ w)

/-- A W1C write of CORE_FAULT_INFO re-arms the capture (Table 6.13). -/
def execCoreFaultInfo (c : Fin 256) (w : Word) (s : State) : Res := .next (s.rearm ⟨.CORE_FAULT_INFO, c, 0⟩ w)

/-- GUEST_CONTEXT_SWITCH (R201): a hosting core issues from its other register context. -/
def execGuestContextSwitch (p : Fin 256) (s : State) : Res :=
  let q := p.val
  let hosts := s.boot.fused.contains (q / 8 * 8 + (q % 8 + 7) % 8)
  .next (if hosts then
      { s with guestOn := if s.guestOn.contains q then s.guestOn.filter (· ≠ q) else q :: s.guestOn }
    else s)

end Sys2Proof.Machine
end

