-- ==== Sys2Proof/Machine/JobOps.lean ====
section
/-! DEFINITION. The admission of a job (R483 to R486) and its teardown (R539 to R544, Table 20.5). -/

namespace Sys2Proof.Machine

/-! Data in parts (R483). -/

/-- The part header and the order of a part. While the data is incomplete the answer is the part's own; the last part gives the data. -/
def State.takePart (s : State) (op : Nat) (src : Source) (p : List Byte) : State × Except Ans (List Byte) :=
  let total := uAt p 0 4
  let off := uAt p 4 4
  let n := uAt p 8 4
  let old := s.sec.parts.find? fun x => x.src == src && x.op == op
  let rest := s.sec.parts.filter fun x => !(x.src == src && x.op == op)
  let put := fun (l : List Parts) => { s with sec := { s.sec with parts := l } }
  match firstFail [(decide (16 ≤ p.length), Ans.bad 2), (decide (total ≤ 65536), .badP 0), (p.length == 16 + n, .badP 8), (zeros p 12 4, .badP 12)] with
  | some a => (s, .error a)
  | none =>
    let got := match old with
      | some x => x.data.length
      | none => 0
    let same := match old with
      | some x => x.total == total
      | none => true
    if off ≠ got ∨ !same ∨ total < off + n then (put rest, .error (.st .partOrder))
    else
      let data := (match old with
        | some x => x.data
        | none => []) ++ p.drop 16
      if data.length = total then (put rest, .ok data) else (put (⟨src, op, total, data⟩ :: rest), .error .ok)

/-! Admission. -/

/-- The manifest body in the data of JOB_ADMIT: the envelope begins behind the preamble. The model writes the body in clear where the
envelope holds its ciphertext. -/
def manifestBody (d : List Byte) : List Byte := bytesAt d 1752 (uAt d 1748 4)

/-- Table 18.3 with the preamble of R484. -/
def envelopeOk (d : List Byte) : Bool :=
  decide (1768 ≤ d.length) && uAt d 0 8 / 2 ^ 23 == 0 && uAt d 8 1 == 1 && zeros d 9 7 && zeros d 161 7 && d.length == 1768 + uAt d 1748 4

/-- Table 18.4. -/
def bodyOk (b : List Byte) : Bool :=
  let n := uAt b 64 1
  uAt b 0 1 == 1 && decide (uAt b 1 1 < 8) && decide (1 ≤ uAt b 4 4 ∧ uAt b 4 4 ≤ 1048576) && decide (n ≤ 16) && zeros b 65 7 &&
  b.length == 160 + 52 * n + 96 + 4627 &&
  (!bitOf (uAt b 1 1) 2 || (List.range 7).all fun k => recipeOk (uAt b (72 + 8 * k) 8) && uAt b (72 + 8 * k) 8 == recipeBits (uAt b (72 + 8 * k) 8))

/-- Jobs that hold a slot of the job table. -/
def State.jobCountNow (s : State) : Nat := (s.jobs.filter fun e => e.2.life.st != .off).length

/-- The measurements of a Chartroom die (R478, R479). -/
def State.measures (s : State) (die : Nat) : List (List Byte) := if die = 0 then s.sec.measures0 else s.sec.measures1

/-- The digest that a manifest's fw_digest names (R485 check 5). -/
def State.fwDigest (s : State) : List Byte := sha384 (((s.measures s.chtDie).take 5).flatMap id)

/-- Checks 1 to 3 of R485 and the format of the body; ok is the outcome of decryption and signatures. -/
def State.admitAuth (s : State) (d : List Byte) (ok : Bool) : Option Ans :=
  firstFail [
    (envelopeOk d, .badP 16),
    (!s.sec.owners.isEmpty, .st .ownerAbsent),
    (bytesAt d 16 48 == s.sec.target, .st .manifestTarget),
    (ok, .st .manifestAuth),
    (bodyOk (manifestBody d), .badP 16)]

/-- Checks 4 to 8 of R485. -/
def State.admitRest (s : State) (b : List Byte) : Option Ans :=
  let flags := uAt b 1 1
  firstFail [
    (decide (s.sec.minSerial ≤ uAt b 8 8), .st .manifestRevoked),
    (bytesAt b 16 48 == s.fwDigest, .st .attestMismatch),
    (s.sec.debug == 0 || (s.sec.debug == 1 && bitOf flags 1), .st .debugConflict),
    ((s.job (uAt b 2 2)).life.st == .off, .st .jobExists),
    (decide (s.jobCountNow < 64), .st .jobTableFull),
    (!bitOf flags 0 || s.get F.DGC_CTL_strict == 1, .st .strictRequired)]

/-- A refusal of JOB_ADMIT or PEER_ATTEST, counted (Table 18.13). -/
def State.admitRefused (s : State) (a : Ans) : State × Ans := (s.bump F.CTC_FAIL_CNT_admit s.chtDie 0 1, a)
/-- The answer to a part that is not the last, or is refused. -/
def State.partAnswer (s : State) (a : Ans) : State × Ans := if a = .ok then (s, a) else s.admitRefused a

/-- The job admitted (R485, R486). -/
def State.admitJob (s : State) (d : List Byte) : State :=
  let b := manifestBody d
  let j := uAt b 2 2
  let own := uAt d 0 8 % 2 ^ 20
  let i := uAt d 0 8 / 2 ^ 20 % 8
  let flags := uAt b 1 1
  let x : Job := { Job.off with
    life := Life.off.started s.datum
    n := uAt b 4 4
    own := own
    sheet := i
    strict := bitOf flags 0
    faultDebug := bitOf flags 1
    images := (List.range (uAt b 64 1)).map fun k => (uAt b (160 + 52 * k) 4, bytesAt b (164 + 52 * k) 48)
    key := if own = 0 then some s.free else none
    dataKey := some (bytesAt b 128 32)
    digest := sha384 b }
  let s := if own = 0 then s.draw else s
  let s := if bitOf flags 2 then (List.range 7).foldl (fun s k => s.setRecipe i k (uAt b (72 + 8 * k) 8)) s else s.resetRecipes i
  let s := { s with ev := { s.ev with jobErr := s.ev.jobErr.del j } }
  s.setJob j x

/-- STARTING of a job: its checks, and its end at once. -/
def State.admitBegin (s : State) (d : List Byte) : State × Ans :=
  match s.admitRest (manifestBody d) with
  | some a => s.admitRefused a
  | none => (s.admitJob d, .ok)

/-! Teardown: step 2. -/

def State.ctxsOfJob (s : State) (j : Nat) : List (Nat × Nat) := (s.ctxs.filter fun e => e.2.job == j).map (·.1)

/-- A context held for its job's teardown: it stops, and is freed at step 5. -/
def State.ctxHold (s : State) (k : Nat × Nat) : State :=
  match s.ctx? k.1 k.2 with
  | some x => if x.life.st = .on then (s.setCtx k.1 k.2 { x with life := { x.life with st := .stopping, step := 1 } }).ctxStop k.1 k.2 else s
  | none => s

def State.coreJob (s : State) (c : Nat) : Option Nat := (s.cores.find c).map fun x => x.kern.job

/-- A mover's or quantizer's descriptor ends with TORN_DOWN. -/
def State.moversTear (s : State) (j : Nat) : State :=
  let l := s.movers.filter fun e => s.coreJob e.1.1 == some j
  let s := l.foldl (fun s e =>
    let tag := dAt e.2.desc 56 4
    let s := { s with movers := s.movers.del e.1 }
    let s := s.capture ⟨.MOV_FAULT_INFO, e.1.1, 0⟩ (e.1.2 * 2 ^ 48 + tag * 2 ^ 16 + Status.tornDown.code) []
    s.complete (s.core e.1.1).kern.sheet (dAt e.2.desc 48 8) tag .tornDown) s
  let s := { s with quantHeld := s.quantHeld.filter fun e => s.coreJob e.2.1 != some j }
  s.quant.foldl (fun s e =>
    let gone := e.2.filter fun m => m.kern.job == j
    let s := { s with quant := if gone.length = e.2.length then s.quant.del e.1 else s.quant.put e.1 (e.2.filter fun m => m.kern.job != j) }
    gone.foldl (fun s m =>
      let tag := dAt m.desc 56 4
      let s := s.capture ⟨.MOV_QNT_STATUS, e.1, 0⟩ (tag * 2 ^ 16 + Status.tornDown.code) []
      s.complete m.kern.sheet (dAt m.desc 48 8) tag .tornDown) s) s

/-- A queued engine descriptor ends with TORN_DOWN: o and q are its octant and queue. -/
def State.queueTear (s : State) (o q : Nat) (d : QDesc) : State :=
  let layer := dAt d.desc 1 1
  let done := dAt d.desc 48 8
  let tag := dAt d.desc 56 4
  match q with
  | 0 => s.svyDone o d.sheet layer done tag .tornDown
  | 1 => s.pltDone o d.sheet layer done tag .tornDown
  | 2 => s.trvDone o d.sheet layer done tag .tornDown
  | _ => s.complete d.sheet done tag .tornDown

/-- Engine work that belongs to a job: queued, waiting in pools or in the endpoint, and in the Survey and Plotting units. -/
def State.enginesTear (s : State) (j : Nat) : State :=
  let s := s.ep.queues.foldl (fun s e =>
    let s := { s with ep := { s.ep with queues := s.ep.queues.put e.1 (e.2.filter fun d => d.job != j) } }
    (e.2.filter fun d => d.job == j).foldl (fun s d => s.queueTear e.1.1 e.1.2 d) s) s
  let mine := fun (r : PoolReq) => match r.src with
    | .agent q => q.job == j
    | _ => false
  let s := s.pools.foldl (fun s e =>
    let x := e.2
    let s := s.setPool e.1 { x with waitCtl := x.waitCtl.filter (fun r => !mine r), waitReq := x.waitReq.filter fun r => !mine r }
    ((x.waitCtl ++ x.waitReq).filter mine).foldl (fun s r => s.reqAnswer e.1 r .tornDown []) s) s
  let w := s.ep.waiting.filter fun q => q.job == j
  let s := { s with ep := { s.ep with waiting := s.ep.waiting.filter fun q => q.job != j } }
  let s := w.foldl (fun s q => s.queueTear 0 4 q) s
  let s := s.surveys.foldl (fun s e =>
    if e.2.job = j then ({ s with surveys := s.surveys.del e.1 }).svyDone e.1 e.2.sheet e.2.layer e.2.done e.2.tag .tornDown else s) s
  s.plotRuns.foldl (fun s e =>
    if e.2.job = j then ({ s with plotRuns := s.plotRuns.del e.1 }).pltDone e.1 e.2.sheet e.2.layer e.2.done e.2.tag .tornDown else s) s

/-- The exchange work of a job on sheet i: every open descriptor ends with TORN_DOWN, and its open epochs become CANCELLED without cancel
records. -/
def State.exchTear (s : State) (i j : Nat) : State :=
  let x := s.exchOf i
  let bs := x.batches.filter fun b => b.job == j
  let rs := x.recvs.filter fun r => r.job == j
  let ts := x.rets.filter fun r => r.job == j
  let es := x.epochs.filter fun e => e.2.job == j && e.2.st != .free
  let mine := fun (k : BKey) => es.any fun e => e.1 == k.2.2
  let s := s.setExch i { x with
    batches := x.batches.filter fun b => b.job != j
    recvs := x.recvs.filter fun r => r.job != j
    rets := x.rets.filter fun r => r.job != j
    relays := x.relays.filter fun r => r.job != j
    relayAns := x.relayAns.filter fun r => r.job != j
    held := x.held.filter fun c => c.job != j
    counts := x.counts.filter fun d => !mine d.key
    epochs := x.epochs.map fun e => if e.2.job = j ∧ e.2.st ≠ .free then (e.1, { e.2 with st := .cancelled, since := s.datum, close := none, cancels := [] }) else e }
  let m := (s.sheet i).m
  let s := (List.range m).foldl (fun s k =>
    let o := s.physOct i k
    { s with deliveries := s.deliveries.put o ((s.deliveries.getD o []).filter fun d => !mine d.key) }) s
  let s := bs.foldl (fun s b => if b.ended then s else s.trvDone b.oct i b.layer b.done b.tag .tornDown) s
  let s := rs.foldl (fun s r => if r.ended then s else s.trvDone r.oct i r.layer r.done r.tag .tornDown) s
  let s := ts.foldl (fun s r => s.trvDone r.oct i r.layer r.done r.tag .tornDown) s
  es.foldl (fun s e =>
    let s := match e.2.close with
      | some (d, t) => s.trvDone (s.physOct i 0) i 0 d t .tornDown
      | none => s
    e.2.cancels.foldl (fun s w => match w with
      | .desc d t => s.trvDone (s.physOct i 0) i 0 d t .tornDown
      | .packet o => s.final o .tornDown) s) s

/-- Bytes added to what a job's teardown has zeroized. -/
def State.zeroed (s : State) (j n : Nat) : State :=
  let x := s.job j
  s.setJob j { x with counts := (x.counts.1, x.counts.2.1, x.counts.2.2.1 + n, x.counts.2.2.2) }

/-- The teardown of a job begins: steps 1 and 2 of Table 20.5, for whoever is owed the reply. -/
def State.jobStop (s : State) (j : Nat) (owed : List Owed) : State :=
  let x := s.job j
  let s := s.setJob j { x with
    life := { x.life with st := .stopping, step := 2, enable := none, disables := x.life.disables ++ owed, since := s.datum }
    counts := (0, 0, 0, 0, 0) }
  let s := s.launchTear (Timed.namesJob j)
  let mine := s.ctxsOfJob j
  let s := mine.foldl State.ctxHold s
  let s := s.moversTear j
  let s := s.enginesTear j
  let s := s.exch.foldl (fun s e => s.exchTear e.1 j) s
  let s := s.zeroed j (sumOf (s.coll.slots.filter fun e => e.2.l.job == j) fun e => s.collChunks e.2.l.sheet * 2 ^ 20)
  let s := s.collTear fun l => l.job == j
  let s := s.treeTear fun t => t.job == j
  -- the halts of the job's sheets end (R281)
  let halts := dedup (x.sheet :: mine.map (·.1))
  let s := s.set F.HCH_STATUS_halted 0 0 (maskOf 8 fun i => s.halted i && !halts.contains i)
  s.drainAll

/-! Steps 3 to 8. -/

/-- Step 3: every operation of the job that has not completed ends with TORN_DOWN. -/
def State.opsTear (s : State) (j : Nat) : State :=
  let mine := fun (o : RemoteOp) => o.key.job == j
  let n := (s.ep.ops.filter mine).length
  -- requests of the job that have arrived and not executed never do (R542)
  let s := { s with ep := { s.ep with
    rx := s.ep.rx.mapVals fun k x => if k.job = j then { x with held := [] } else x
    stalled := s.ep.stalled.filter fun f => f.job.toNat != j } }
  -- a REGION_SET whose INVALIDATE still waits completes with them
  let regions := s.ep.regionWaits.filter fun w => w.job == j
  let s := { s with ep := { s.ep with regionWaits := s.ep.regionWaits.filter fun w => w.job != j } }
  let s := regions.foldl (fun s w => s.final w.owed .tornDown) s
  let s := { s with ep := { s.ep with ops := s.ep.ops.map fun o => if mine o then { o with todo := [], fin := { o.fin with notify := none } } else o } }
  let s := (s.ep.replay.filter fun e => e.key.job == j).foldl (fun s e => s.resolve e .tornDown []) s
  let s := (s.ep.ops.filter mine).foldl (fun s o => s.opDone { o with status := some .tornDown } []) s
  let x := s.job j
  let s := s.setJob j { x with counts := (x.counts.1 + n, x.counts.2) }
  (((s.settle).exchOps).collOps).treeOps

/-- The HBM offset within its sheet's window that a key stands for, if it lies in sheet i's HBM (R288). -/
def State.hbmOff (s : State) (i k : Nat) : Option Nat :=
  let hubs := 2 * (s.sheet i).m
  let h := k / 2 ^ 36
  let h0 := 2 * s.physOct i 0
  if k < 2 ^ 40 ∧ h0 ≤ h ∧ h < h0 + hubs then
    let a := k % 2 ^ 36
    some ((a / 4096 * hubs + (h - h0)) * 4096 + a % 4096)
  else none

/-- A region of sheet i zeroized and set to NONE. -/
def State.regionFree (s : State) (i r : Nat) (zero : Bool) : State :=
  let s := { s with ep := { s.ep with regions := s.ep.regions.del (i, r) } }
  if zero then
    (s.zeroize fun k => match s.hbmOff i k with
      | some o => o / 2 ^ 21 == r
      | none => false).freshUnits i (r * 2 ^ 21) (2 ^ 21)
  else s

/-- The scratchpads of sheet i's cores that are not collective, zeroized. -/
def State.scrZero (s : State) (i : Nat) : State :=
  let lo := keyScr (s.homeCore i 0) 0
  s.zeroize fun k => decide (lo ≤ k ∧ k < lo + s.collFirst i * 2 ^ 24)

/-- Step 4: every accepted frame of the job commits, and is acknowledged (R44, R315). -/
def State.commitJob (s : State) (j : Nat) : State :=
  (s.hubs.frames.filter fun f => f.job == j).foldl (fun s f =>
    let q := s.raccCommit f
    (q.1).acked f.frame q.2) s

/-- Step 5: pools to STOPPING, the rest of the job's memory zeroized (R539), its regions, cached lines and contexts gone. -/
def State.jobMemory (s : State) (j : Nat) : State :=
  let ps := s.pools.filter fun e => e.2.job == some j && e.2.present
  let rs := s.ep.regions.filter fun e => fld e.2 37 22 == j && fld e.2 1 0 != 0
  let big := rs.filter fun e => decide (2 ≤ fld e.2 1 0)
  let cs := s.ctxsOfJob j
  let sh := (List.range 8).filter fun i => match (s.sheet i).last with
    | some c => cs.contains (i, c)
    | none => false
  let bytes := sumOf ps (fun e => e.2.size) + sumOf (s.hubs.buckets.filter fun e => e.1.1 == j) (fun e => e.2.spillBytes) +
    big.length * 2 ^ 21 + sumOf sh (fun i => s.collFirst i * 2 ^ 24) +
    sumOf cs (fun k => match s.ctx? k.1 k.2 with
      | some x => x.saveMib * 2 ^ 20 * s.collFirst k.1
      | none => 0) + 8 * (s.job j).n
  let s := s.zeroed j bytes
  let s := ps.foldl (fun s e => s.poolStop e.1) s
  let s := rs.foldl (fun s e => s.regionFree e.1.1 e.1.2 (decide (2 ≤ fld e.2 1 0))) s
  let s := sh.foldl State.scrZero s
  let s := s.setLines (s.ep.lines.filter fun l => l.job != j)
  let s := { s with gw := s.gw.mapVals fun _ g => { g with blocks := g.blocks.filter fun b => b.job != j } }
  cs.foldl (fun s k => match s.ctx? k.1 k.2 with
    | some x => (s.setCtx k.1 k.2 { x with life := { x.life with step := 0 } }).ctxEnd k.1 k.2
    | none => s) s

/-- What step 5 still waits for: pools and contexts of the job. -/
def State.jobWaits (s : State) (j : Nat) : Nat :=
  (s.pools.filter fun e => e.2.job == some j && e.2.present).length + (s.ctxsOfJob j).length

/-- Step 6: the job's keys destroyed (R498). -/
def State.jobKeys (s : State) (j : Nat) : State := s.setJob j { s.job j with key := none, dataKey := none }

/-- Step 7: the closure check over the job's streams and open reduction contexts (R315, R545, R546); its pools have been captured at their end (R170). -/
def State.jobClosure (s : State) (j : Nat) : State :=
  let s := (s.hubs.ctxs.filter fun c => c.job == j).foldl (fun s c =>
    if c.accepted = c.committed then s
    else (s.misclosure 3 c.inst (s.ctxCounts c) (some j) ((s.bucket? j c.bucket).map Bucket.sheet)).jobMisclosure (some j)) s
  (s.ep.streams.filter fun e => e.1.job == j).foldl (fun s e =>
    let x := e.2
    if x.issued - x.acked - x.failed = (s.ep.replay.filter fun r => r.key == e.1).length ∧ x.acked + x.failed ≤ x.issued then s
    else (s.misclosure 5 (e.1.agent + e.1.sheet * 2 ^ 9 + e.1.dst * 2 ^ 12) [x.issued, x.acked, x.failed] (some j) (some e.1.sheet)).jobMisclosure (some j)) s

/-- Step 8: device map, groups, buckets and job slot freed; TEARDOWN_DONE and the reply (R544), then a deferred JOB_ADMIT. -/
def State.jobFree (s : State) (j : Nat) : State :=
  let s := (s.dropBuckets fun k _ => k.1 == j).1
  let s := { s with coll := { s.coll with
    groups := s.coll.groups.filter fun e => e.1.1 != j
    early := s.coll.early.filter fun e => e.1 != j } }
  let s := s.exch.foldl (fun s e => s.setExch e.1 { e.2 with epochs := e.2.epochs.filter fun x => x.2.job != j }) s
  let s := { s with ep := { s.ep with
    streams := s.ep.streams.filter fun e => e.1.job != j
    failures := s.ep.failures.filter fun e => e.key.job != j
    rx := s.ep.rx.filter fun e => e.1.job != j
    lost := s.ep.lost.filter fun e => e.1 != j } }
  let x := s.job j
  let c : Nat × Nat × Nat × Nat × Nat := x.counts
  let s := { s with jobs := s.jobs.del j }
  let s := s.bump F.EVT_TEARDOWN_CNT_teardowns 0 0 1
  let s := s.event { code := .teardownDone, job := some j, params := [c.1, c.2.1, c.2.2.1, c.2.2.2.1], report := true }
  let bad := decide (c.2.2.2.1 ≠ 0 ∨ c.2.2.2.2 ≠ 0)
  let rep := leBytes 4 c.1 ++ leBytes 4 c.2.1 ++ leBytes 8 c.2.2.1 ++ leBytes 4 c.2.2.2.1 ++ leBytes 4 c.2.2.2.2
  let s := (x.life.enable.toList).foldl (fun s o => s.final o .tornDown) s
  let s := x.life.disables.foldl (fun s o => if o.op = 0x0301 then s.final o (if bad then .misclosure else .ok) noDetail rep else s) s
  match x.life.deferred with
  | some pkt =>
    let r := s.admitBegin pkt.params
    match r.2 with
    | .done st d q => r.1.final pkt.owed st d q
    | _ => r.1
  | none => s

/-- The step of Table 20.5 that follows: its work, and its number. -/
def State.jobStep (s : State) (j : Nat) : State :=
  let x := s.job j
  let at_ := fun (s : State) n => s.setJob j { s.job j with life := { (s.job j).life with step := n, since := s.datum } }
  match x.life.step with
  | 2 => at_ (s.opsTear j) 3
  | 3 => at_ (s.commitJob j) 4
  | 4 => (at_ s 5).jobMemory j
  | 5 => at_ (s.jobKeys j) 6
  | 6 => at_ (s.jobClosure j) 7
  | _ => s.jobFree j

/-- A step that waits for nothing more goes on. -/
def State.jobGo (s : State) (j : Nat) : State :=
  let x := s.job j
  if x.life.st ≠ .stopping then s
  else if x.life.step = 5 ∧ s.jobWaits j ≠ 0 then s
  else s.jobStep j

/-- The wait limit of R543. -/
def State.teardownMs (s : State) : Nat := msTicks (max 1 (s.get F.EVT_CTL_teardown_ms))

/-- The wait of step 5 has reached the limit: what it waited for is abandoned. -/
def State.jobAbandon (s : State) (j : Nat) : State :=
  let x := s.job j
  if x.life.st ≠ .stopping ∨ x.life.step ≠ 5 ∨ s.jobWaits j = 0 ∨ !s.elapsed x.life.since s.teardownMs then s
  else
    let s := s.setJob j { x with counts := (x.counts.1, x.counts.2.1, x.counts.2.2.1, x.counts.2.2.2.1, x.counts.2.2.2.2 + s.jobWaits j) }
    let s := (s.pools.filter fun e => e.2.job == some j && e.2.present).foldl (fun s e => s.poolFinish e.1) s
    let s := (s.ctxsOfJob j).foldl (fun (s : State) (k : Nat × Nat) =>
      let s := match (s.ctx? k.1 k.2).bind fun x => x.kernel with
        | some n => (s.kernelCores k.1 n).foldl (fun (s : State) c => { s with cores := s.cores.del c }) s
        | none => s
      (s.ctxFree k.1 k.2).schedule k.1) s
    s.jobStep j

end Sys2Proof.Machine
end

