-- ==== Sys2Proof/Machine/Ports.lean ====
section
/-! DEFINITION. The commands of chapter 15: the states of a port (R413 to R416, R424, R428, R429), the control blocks of the NATIVE link (R418 to
R423, R427) and fault injection (R430, R431). -/

namespace Sys2Proof.Machine

/-! Enabling and disabling. -/

/-- Whether laser input n of FD d reads 16.0 dBm or more, and whether it reads within the range of Table 22.9. -/
def State.lit (s : State) (d n : Nat) : Bool := !s.pw.dark.contains (8 * d + n)
def State.inRange (s : State) (d n : Nat) : Bool := !s.pw.out.contains (8 * d + n)
/-- A spare of FD d that no port uses and that reads within range, the lower-numbered first (R579). -/
def State.freeSpare (s : State) (d : Nat) : Option Nat :=
  [0, 1].find? fun k => s.inRange d (6 + k) && !((List.range 6).any fun j => s.pw.spare.find (6 * d + j) == some k)
/-- The laser input that a port takes on leaving OFF (R579). -/
def State.pickLaser (s : State) (p : Nat) : State :=
  let d := p / 6
  let s := { s with pw := { s.pw with spare := s.pw.spare.del p } }
  if s.inRange d (p % 6) then s
  else match s.freeSpare d with
    | some k => { s with pw := { s.pw with spare := s.pw.spare.put p k } }
    | none => s
def State.portLit (s : State) (p : Nat) : Bool :=
  s.lit (p / 6) (match s.pw.spare.find p with
    | some k => 6 + k
    | none => p % 6)

/-- TRAINING begins (R413): the mode is written first (R414). -/
def State.startTraining (s : State) (p : Nat) (l : Life) (mode : Option Nat) (laser : Bool) : State :=
  let s := match mode with
    | some m => s.set F.FPT_CTL_mode p 0 m
    | none => s
  let s := if laser then s.pickLaser p else s
  let x := s.port p
  (s.set F.FPT_STATUS_fail_reason p 0 0).portTo p { x with life := l, sub := .training, known := false, resume := false, handshake := false, viols := [] } 0

/-- The fields of R414, mode within a bound, and the FD of Table 21.3. -/
def State.portChecks (s : State) (p : List Byte) (modes : Nat) : Option Ans :=
  firstFail [lenIs p 8, (decide (uAt p 0 1 ≤ 35), .badP 0), (decide (uAt p 1 1 < modes), .badP 1), (zeros p 2 6, .badP 2),
    (s.fdWorks (uAt p 0 1 / 6), .st .levelUnavailable)]

/-- PORT_ENABLE (R411, R413 to R415). The FD of the named port must work
(Table 21.3). A port of a tripped photonic engine stays OFF (R515), as does every port after a fatal-to-device error (R537): DEVICE_BUSY (DESIGN
CHOICE, log 44). -/
def bodyPortEnable : CmdBody := fun s _ h p =>
    match s.portChecks p 2 with
    | some a => (s, a)
    | none =>
      let n := uAt p 0 1
      let x := s.port n
      if (s.pw.fdTrip.contains (n / 6) || s.boot.halted) && x.life.st == .off then (s, .st .deviceBusy)
      else
        match x.life.doEnable (mkPacket h 0x0500 p) .deviceBusy s.datum with
        | (l, a, true) => (s.startTraining n l (some (uAt p 1 1)) true, a)
        | (l, a, false) => (s.setPort n { x with life := l }, a)
def execPortEnable (h : CmdHdr) (p : List Byte) (s : State) : Res := .next (s.command 0x0500 h p bodyPortEnable)

/-- STOPPING begins (Table 15.3 step 1): the port takes no more frames. -/
def State.portStop (s : State) (n : Nat) (l : Life) : State := let x := s.port n; s.portTo n { x with life := l, handshake := false } 0

/-- PORT_DISABLE (R413). -/
def bodyPortDisable : CmdBody := fun s o _ p =>
    match s.portChecks p 1 with
    | some a => (s, a)
    | none =>
      let n := uAt p 0 1
      let x := s.port n
      match x.life.doDisable o .ok s.datum with
      | (l, a, torn, true) => ((s.portStop n l).tornDown torn, a)
      | (l, a, torn, false) => ((s.setPort n { x with life := l }).tornDown torn, a)
def execPortDisable (h : CmdHdr) (p : List Byte) (s : State) : Res := .next (s.command 0x0501 h p bodyPortDisable)

/-- PORT_RETRAIN (R414): a FAILED port goes back to TRAINING. -/
def bodyPortRetrain : CmdBody := fun s _ _ p =>
    match s.portChecks p 1 with
    | some a => (s, a)
    | none =>
      let n := uAt p 0 1
      let x := s.port n
      if x.life.st = .on ∧ x.sub = .failed then (s.startTraining n { x.life with st := .starting, since := s.datum } none false, .ok) else (s, .ok)
def execPortRetrain (h : CmdHdr) (p : List Byte) (s : State) : Res := .next (s.command 0x0502 h p bodyPortRetrain)

/-- PORT_UNQUARANTINE (R429): the window is cleared and the handshake begins. -/
def bodyPortUnquarantine : CmdBody := fun s _ _ p =>
    match s.portChecks p 1 with
    | some a => (s, a)
    | none =>
      let n := uAt p 0 1
      let x := s.port n
      if x.life.st = .on ∧ x.sub = .quarantined then
        ((s.setPort n { x with viols := [], handshake := true, known := false, since := s.datum }).set F.FPT_VIOL_CNT1_window n 0 0, .ok)
      else (s, .ok)
def execPortUnquarantine (h : CmdHdr) (p : List Byte) (s : State) : Res := .next (s.command 0x0503 h p bodyPortUnquarantine)

/-- PORT_INJECT (R414, R430, R431). -/
def bodyPortInject : CmdBody := fun s _ _ p =>
    let kind := uAt p 1 1
    let prob := uAt p 3 1
    let sel := uAt p 4 4
    match firstFail [lenIs p 16, (decide (uAt p 0 1 ≤ 35), .badP 0), (decide (kind ≤ 3), .badP 1), (decide (prob ≤ 1), .badP 3),
        (decide ((prob = 1 ∨ 1 ≤ sel) ∧ sel < 2 ^ 24), .badP 4), (!zeros p 8 4, .badP 8), (zeros p 12 4, .badP 12), (s.fdWorks (uAt p 0 1 / 6), .st .levelUnavailable), (s.sec.debug != 0, .st .debugLocked)] with
    | some a => (s, a)
    | none =>
      let n := uAt p 0 1
      if kind = 0 then
        (s.disarm n, .ok)
      else
        let s := (((s.set F.FPT_INJ_CFG_select n 0 sel).set F.FPT_INJ_CFG_use_prob n 0 prob).set F.FPT_INJ_CFG_tc_mask n 0 (uAt p 2 1)).set F.FPT_INJ_CFG_kind n 0 kind
        let x := s.port n
        ((s.setPort n { x with injSeen := 0, lfsr := uAt p 8 4 }).event { code := .faultInject, unit := n, params := [n, kind, sel] }, .ok)
def execPortInject (h : CmdHdr) (p : List Byte) (s : State) : Res := .next (s.command 0x0504 h p bodyPortInject)

/-! Training. -/

/-- A retraining that Contour began (R526) has ended: its outcome is the state that the port has come to. -/
def State.contourPort (s : State) (n : Nat) : State :=
  if s.pw.contour = some n then
    ({ s with pw := { s.pw with contour := none } } : State).event { code := .contourRetrain, unit := n, params := [n, (s.port n).code] }
  else s

def Port.inTraining (x : Port) : Bool := x.life.st == .starting || (x.life.st == .on && x.sub == .training)

/-- The reply that a PORT_ENABLE is owed once the port is ON: UP or FAILED (R413, log 42). -/
def State.portOn (s : State) (owed : Option Owed) : State :=
  match owed with
  | some o => s.final o .ok
  | none => s

/-- UP: the credit handshake of a NATIVE link is done (R419), and every lane holds lock. -/
def State.portGoUp (s : State) (n : Nat) : State :=
  let owed := (s.port n).life.enable
  let s := s.set F.FPT_STATUS_lanes_locked n 0 255
  let s := if s.native n then s.handshakeDone n else s
  let x := s.port n
  ((s.portTo n { x with life := x.life.started s.datum, sub := .up, handshake := false, keyed := s.native n } 0)).portOn owed

def State.portTrainFail (s : State) (n reason : Nat) : State :=
  let owed := (s.port n).life.enable
  (s.portFail n reason).portOn owed

/-- TRAINING_COMPLETE (R413): lanes equalised and locked; a NATIVE link also knows its partner. -/
def execTrainingComplete (p : Fin 36) (s : State) : Res :=
  .next (
    let x := s.port p.val
    if x.inTraining && !s.elapsed x.since (msTicks 250) && s.portLit p.val && (!s.native p.val || x.known) then s.portGoUp p.val else s)

/-- TRAINING_TIMEOUT (R413): 250 ms in TRAINING. -/
def execTrainingTimeout (p : Fin 36) (s : State) : Res :=
  .next (let x := s.port p.val; if x.inTraining && s.elapsed x.since (msTicks 250) then s.portTrainFail p.val 1 else s)

/-- TRAIN (R415, R425, R429, R489): the partner's identity, whether its protocol version is this one, and whether its chain and owner checks
hold. In TRAINING the port then knows its partner; after PORT_UNQUARANTINE it returns to UP. -/
def execTrainMsg (p : Fin 36) (dev : BitVec 20) (port : BitVec 6) (version trusted : Bool) (s : State) : Res :=
  .next (
    let n := p.val
    let x := s.port n
    let again := x.life.st == .on && x.sub == .quarantined && x.handshake
    if !s.native n || !(x.inTraining || again) || s.elapsed x.since (msTicks 250) then s
    else
      let s := (s.set F.FPT_STATUS_partner_dev n 0 dev.toNat).set F.FPT_STATUS_partner_port n 0 port.toNat
      if s.get F.FPT_PARTNER_check n = 1 ∧ (s.get F.FPT_PARTNER_dev n ≠ dev.toNat ∨ s.get F.FPT_PARTNER_port n ≠ port.toNat) then s.portTrainFail n 2
      else if !version then s.portTrainFail n 3
      else if !trusted then (s.portTrainFail n 5).event { code := .linkAttestFail, unit := n }
      else if again then s.portGoUp n
      else s.setPort n { x with known := true })

/-- LANE_LOCK_LOSS (R424): lanes that still hold lock; a lane has lost it, or too many codewords failed. -/
def execLaneLockLoss (p : Fin 36) (locked : BitVec 8) (s : State) : Res :=
  .next (if s.portUp p.val then (s.set F.FPT_STATUS_lanes_locked p.val 0 locked.toNat).retrain p.val else s)

/-- RETRAINING_COMPLETE (R424): lock regained within 100 ms; each end sends ACK with its expected number. -/
def execRetrainingComplete (p : Fin 36) (s : State) : Res :=
  .next (
    let n := p.val
    let x := s.port n
    if x.life.st == .on && x.sub == .retraining && !s.elapsed x.since (msTicks 100) && s.portLit n then
      let nat := s.native n
      let s := (s.set F.FPT_STATUS_lanes_locked n 0 255).portTo n { x with sub := .up, resume := nat, asks := (0, 0), again := (0, 0) } 0
      (if nat then s.linkAck n else s).contourPort n
    else s)

/-- RETRAINING_TIMEOUT (R413): 100 ms in RETRAINING. -/
def execRetrainingTimeout (p : Fin 36) (s : State) : Res :=
  .next (
    let x := s.port p.val
    if x.life.st == .on && x.sub == .retraining && s.elapsed x.since (msTicks 100) then (s.portFail p.val 4).contourPort p.val else s)

/-- UNQUARANTINE_HANDSHAKE_TIMEOUT (R429). -/
def execUnquarantineHandshakeTimeout (p : Fin 36) (s : State) : Res :=
  .next (
    let x := s.port p.val
    if x.life.st == .on && x.sub == .quarantined && x.handshake && s.elapsed x.since (msTicks 250) then s.portFail p.val 5 else s)

/-- PORT_STOPPING_DRAINED (Table 15.3 steps 2 to 4): the link replay buffer is acknowledged, or 2 ms have passed. A deferred PORT_ENABLE
then begins. -/
def execPortStoppingDrained (p : Fin 36) (s : State) : Res :=
  .next (
    let n := p.val
    let x := s.port n
    if x.life.st != .stopping || !(x.buffer.isEmpty || s.elapsed x.since (msTicks 2)) then s
    else
      let s := if s.native n && x.sub != .training && x.sub != .failed then s.block n 9 0 [] else s
      let r := x.life.stopped
      let s := ((s.set F.FPT_STATUS_lanes_locked n 0 0).portTo n Port.off 0).finals r.2.1
      match r.2.2 with
      | none => s
      | some k => s.startTraining n { Life.off with st := .starting, enable := some k.owed, since := s.datum } (some (uAt k.params 1 1)) true)

/-! Control blocks (R418). -/

/-- A control block received on a linked port: its CRC (a line error is dropped), its MAC tag, its reserved fields; a quarantined port takes
KEEPALIVE and TRAIN alone (R428). -/
def State.blockIn (s : State) (p kind : Nat) (b : Block) (g : State → State) : State :=
  let x := s.port p
  if !s.native p || !x.linked || !b.crcOk then s
  else if x.sub == .quarantined && kind != 7 then s.bump F.FPT_VIOL_CNT1_refused p 0 1
  else
    if !b.macOk then s.violation p .badMac 0 0 kind b.linkSeq.toNat
    else
      let s := s.setPort p { x with rxCount := nextCount x.rxCount b.txCount.toNat }
      if !b.resvOk then s.violation p .badControl 0 0 kind b.linkSeq.toNat
      else g s

/-- The (class and lane, cells) entries of a CREDIT block: class, lane and cells in turn. -/
def creditEntries : List Nat → List (Nat × Nat)
  | c :: l :: n :: t => (4 * (c % 8) + l % 4, n % 65536) :: creditEntries t
  | _ => []

/-- The most credit that a (class, lane) can hold (R398, R399). -/
def creditLimit (k : Nat) : Nat := if isPriv (k / 4) then 2048 else 8192

/-- CREDIT (R419). Credits that would pass what R398 and R399 let the receiver issue are BAD_CONTROL. -/
def execCreditBlock (p : Fin 36) (b : Block) (s : State) : Res :=
  .next (s.blockIn p.val 1 b fun s =>
    let x := s.port p.val
    let r := (creditEntries b.fields).foldl (fun (c : Credits) e => c.add e.1 e.2) x.received
    let y : Port := { x with received := r }
    if (List.range 32).all fun k => decide (y.available k ≤ creditLimit k) then s.setPort p.val y
    else s.violation p.val .badControl 0 0 1 b.linkSeq.toNat)

/-- ACK (R422): frames up to the named number leave the link replay buffer; the first one after RETRAINING says where to go on (R424). -/
def execAckBlock (p : Fin 36) (b : Block) (s : State) : Res :=
  .next (s.blockIn p.val 2 b fun s =>
    let n := b.linkSeq.toNat
    let x := s.port p.val
    let s := s.setPort p.val { x with buffer := x.buffer.filter fun e => seqBefore n e.seq, resume := false }
    if x.resume then s.resendFrom p.val ((n + 1) % 2 ^ 20) else s)

/-- RETRY_REQ (R422, R424). -/
def execRetryReq (p : Fin 36) (b : Block) (s : State) : Res :=
  .next (s.blockIn p.val 3 b fun s =>
    let n := b.linkSeq.toNat
    let x := s.port p.val
    let a := countAgain x.again n
    let s := (s.setPort p.val { x with again := a }).bump F.FPT_LINK_CNT1_retries p.val 0 1
    if max 1 (s.get F.FPT_CTL_retry_limit p.val) < a.2 then s.retrain p.val else s.resendFrom p.val n)

/-- VIOL_NACK (R427): the refused frame counts as received, and its source resends it end to end; nothing else changes here. -/
def execViolNack (p : Fin 36) (b : Block) (s : State) : Res := .next (s.blockIn p.val 4 b fun s => s)

def State.creditSel (s : State) (p : Nat) : Nat := 4 * s.get F.FPT_CREDIT_SEL_tc p + s.get F.FPT_CREDIT_SEL_lane p

/-- An audit begins (R420): spent is captured and the mark sent. -/
def State.auditStart (s : State) (p key : Nat) (owed : Option Owed) : State :=
  let x := s.port p
  let s := s.setPort p { x with audit := some ⟨key, x.spent.at key, owed, s.datum⟩ }
  (((s.set F.FPT_AUDIT_done p 0 0).set F.FPT_AUDIT_mismatch p 0 0).set F.FPT_CREDIT_SNAP1_spent p 0 (x.spent.at key)).block p 5 0 []

/-- FPT_AUDIT_START (R420): a write of FPT_AUDIT. An audit that owes a reply goes on (log 425). -/
def State.auditWrite (s : State) (p : Nat) (w : Word) : State :=
  if w.getLsbD 63 && s.native p && (s.port p).isUp && ((s.port p).audit.bind Audit.owed).isNone then s.auditStart p (s.creditSel p) none else s
def execFptAuditStart (p : Fin 36) (w : Word) (s : State) : Res := .next (s.auditWrite p.val w)

/-- AUDIT_MARK (R420): consumed and issued are captured, and the return carries them. -/
def execAuditMark (p : Fin 36) (b : Block) (s : State) : Res :=
  .next (s.blockIn p.val 5 b fun s =>
    let n := p.val
    let x := s.port n
    let k := s.creditSel n
    ((s.set F.FPT_CREDIT_SNAP0_consumed n 0 (x.consumed.at k)).set F.FPT_CREDIT_SNAP0_issued n 0 (x.issued.at k)).block n 6 0 [x.consumed.at k, x.issued.at k])

/-- The instance of Table 20.9 for link credits. -/
def linkInstance (p key : Nat) : Nat := p + key / 4 * 2 ^ 8 + key % 4 * 2 ^ 12

/-- AUDIT_RETURN (R420, R547): consumed and issued at the mark are compared; a difference is a misclosure. -/
def execAuditReturn (p : Fin 36) (b : Block) (s : State) : Res :=
  .next (s.blockIn p.val 6 b fun s =>
    let n := p.val
    let x := s.port n
    match x.audit with
    | none => s
    | some a =>
      let consumed := b.fields.getD 0 0
      let issued := b.fields.getD 1 0
      let got := x.received.at a.key
      let bad := a.spent != consumed || got != issued
      let s := s.setPort n { x with audit := none }
      let s := ((s.set F.FPT_CREDIT_SNAP1_received n 0 got).set F.FPT_AUDIT_done n 0 1).set F.FPT_AUDIT_mismatch n 0 (b2n bad)
      let counts := [a.spent, consumed, got, issued]
      let s := if bad then s.misclosure 0 (linkInstance n a.key) counts none none else s
      match a.owed with
      | some o => s.final o .ok noDetail (leBytes 1 (if bad then 2 else 0) ++ List.replicate 7 0 ++ counts.flatMap (leBytes 8))
      | none => s)

/-- KEEPALIVE (R428): nothing but its transmission count is taken. -/
def execKeepalive (p : Fin 36) (b : Block) (s : State) : Res := .next (s.blockIn p.val 7 b fun s => s)
/-- DISABLE (R413): Table 15.2 changes no state for it. -/
def execDisableMsg (p : Fin 36) (b : Block) (s : State) : Res := .next (s.blockIn p.val 9 b fun s => s)

/-- LINK_ACK_TIMER (R418): an acknowledgement each 1 µs; a quarantined port sends KEEPALIVE alone (R428). -/
def execLinkAckTimer (p : Fin 36) (s : State) : Res :=
  .next (
    let n := p.val
    let x := s.port n
    if !s.native n || !x.linked || !s.elapsed x.ackAt (usTicks 1) then s
    else if x.sub == .quarantined then (s.setPort n { x with ackAt := s.datum }).block n 7 0 []
    else s.linkAck n)

/-! Register writes. -/

/-- FPT_CTL (R411): the limits are written; a mode change while the port is not OFF is ignored with an event. -/
def State.writeFptCtl (s : State) (p : Nat) (w : Word) : State :=
  let s' := (s.set F.FPT_CTL_viol_thresh p 0 (fld w 31 16)).set F.FPT_CTL_retry_limit p 0 (fld w 15 8)
  if fld w 0 0 = s.get F.FPT_CTL_mode p then s'
  else if (s.port p).life.st = .off then s'.set F.FPT_CTL_mode p 0 (fld w 0 0)
  else s'.regRefused 14 p
def execFptCtl (p : Fin 36) (w : Word) (s : State) : Res := .next (s.writeFptCtl p.val w)

/-- FPT_VIOL_INFO, written (R427). -/
def execFptViolInfo (p : Fin 36) (w : Word) (s : State) : Res := .next (s.rearm ⟨.FPT_VIOL_INFO, p.val, 0⟩ w)

end Sys2Proof.Machine
end

