-- ==== Sys2Proof/Machine/SheetOps.lean ====
section
/-! DEFINITION. The lifecycle of a sheet (R365 to R367, Table 13.4), its end by a fatal-to-sheet event (R538) and its reset (R561). -/

namespace Sys2Proof.Machine

/-! STARTING. -/

/-- gaz_entries of Table 13.3, resolved. -/
def gazWanted (p : List Byte) : Nat := if uAt p 12 4 = 0 then 8388608 * uAt p 1 1 else uAt p 12 4

/-- The aligned places at which an allotment of n entries lies beside those of the other sheets (R76, R366). -/
def State.gazPlaces (s : State) (i n : Nat) : List Nat :=
  ((List.range (2 ^ 26 / n)).map (· * n)).filter fun b =>
    !(s.sheets.any fun e => e.1 != i && decide (e.2.gazBase < b + n) && decide (b < e.2.gazBase + e.2.gazEntries))

/-- The octants of a sheet of size m. -/
def octsOf (i m : Nat) : List Nat := (List.range m).map fun k => i * m + k

/-- SHEET_CREATE when STARTING begins: the conditions of R366, then the sheet. Which of the places its Gazetteer allotment takes, and how
much of its HBM is usable (R25), the spec does not say: free values. -/
def State.sheetBegin (s : State) (i : Nat) (pkt : Packet) (l : Life) : State × Ans :=
  let p := pkt.params
  let m := uAt p 1 1
  let d := fun v x => if v = 0 then x else v
  let n := gazWanted p
  let places := s.gazPlaces i n
  match firstFail [
      (decide (i * m < 8) && !(s.sheets.any fun e => e.1 != i && e.2.m != m), Status.sheetShape),
      ((octsOf i m).all fun o => !s.boot.octDown.contains o, .octantUnavailable),
      (!places.isEmpty, .reservedFull)] with
  | some st => (s, .st st)
  | none =>
    let x : Sheet := { Sheet.off with
      life := l
      m := m
      coll := d (uAt p 2 1) 2
      quantumUs := d (uAt p 4 4) 2000
      watchMs := d (uAt p 8 2) 100
      holdMs := d (uAt p 10 2) 10
      gazEntries := n
      gazBase := places.getD ((Config.freeWord s.free).toNat % places.length) 0
      usable := (Config.freeWord (s.free + 1)).toNat % (m * 2 ^ 37 + 1)
      params := p }
    ((s.draw).draw.setSheet i x, .later true)

/-- A creation that waited for STOPPING to end: a deferred SHEET_CREATE, or the second half of a SHEET_RESET. -/
def State.sheetDeferred (s : State) (i : Nat) (pkt : Packet) : State :=
  let r := (Life.off).doEnable pkt .sheetExists s.datum
  let b := s.sheetBegin i pkt r.1
  match b.2 with
  | .done st d q => b.1.final pkt.owed st d q
  | _ => b.1

/-- STARTING is done: the sheet has a key (R494) and the state of a new sheet, and is ON. -/
def State.sheetStarted (s : State) (i : Nat) : State :=
  let x := s.sheet i
  let s := s.setSheet i { x with life := x.life.started s.datum, key := some s.free, last := none }
  let s := s.draw
  let s := (s.resetRecipes i)
  let reset := x.life.enable.any fun o => o.op == 0x0207
  let s := if reset then (s.event { code := .resetDone, sheet := some i, params := [2, (Config.freeWord s.free).toNat] }).draw else s
  s.finals (x.life.enable.toList.map fun o => (o, Status.ok))

/-! STOPPING. -/

/-- Whether a register instance belongs to sheet i (Table 2.3). MHB_STATUS stands: stacks are not retrained (Table 21.7). -/
def State.sheetReg (s : State) (i : Nat) (r : RegId) : Bool :=
  let m := (s.sheet i).m
  let lo := i * m
  let b := (regRow r.name).blk
  let within := fun k => decide (k * lo ≤ r.inst) && decide (r.inst < k * (lo + m))
  if b = 1 ∨ b = 2 then within 32
  else if 3 ≤ b ∧ b ≤ 7 then within 1
  else if b = 8 ∨ b = 9 then within 2 && r.name != .MHB_STATUS
  else false

def State.resetSheetRegs (s : State) (i : Nat) : State := { s with regs := s.regs.filter fun e => !s.sheetReg i e.1 }

/-- Whether a memory key lies in sheet i's scratchpads, XD SRAM or HBM; a FAILED stack is skipped (R538). -/
def State.sheetKey (s : State) (i k : Nat) : Bool :=
  let m := (s.sheet i).m
  let lo := i * m
  if k < 2 ^ 40 then decide (2 * lo ≤ k / 2 ^ 36) && decide (k / 2 ^ 36 < 2 * (lo + m)) && s.get F.MHB_STATUS_state (k / 2 ^ 36) != 3
  else if k < 2 ^ 41 then decide (keyScr (32 * lo) 0 ≤ k) && decide (k < keyScr (32 * (lo + m)) 0)
  else decide (keyXd lo 0 ≤ k) && decide (k < keyXd (lo + m) 0)

/-- Steps 3 and 4 of Table 13.4: everything of the sheet zeroized, its cached lines dropped, its units and registers as reset. -/
def State.sheetClear (s : State) (i : Nat) : State :=
  let m := (s.sheet i).m
  let lo := i * m
  let mine := fun o => decide (lo ≤ o) && decide (o < lo + m)
  let s := s.collTear fun l => l.sheet == i
  let s := s.treeTear fun t => t.sheet == i
  let s := (s.dropBuckets fun _ b => b.sheet == i).1
  let s := s.zeroize (s.sheetKey i)
  let s := { s with marks := s.marks.filter fun x => !(mine (x.1 / 2) && s.get F.MHB_STATUS_state x.1 != 3) }
  let s := s.setLines (s.ep.lines.filter fun l => l.sheet != i)
  let s := { s with gw := s.gw.mapVals fun _ g => { g with blocks := g.blocks.filter fun b => b.sheet != i } }
  let s := { s with
    ep := { s.ep with
      regions := s.ep.regions.filter fun e => e.1.1 != i
      queues := s.ep.queues.filter fun e => !mine e.1.1
      waiting := s.ep.waiting.filter fun q => q.sheet != i
      rx := s.ep.rx.mapVals fun k x => if k.dstSheet = i then { x with held := [] } else x
      stalled := s.ep.stalled.filter fun f => f.dstSheet.toNat != i }
    routing := s.routing.del i
    exch := s.exch.del i
    surveys := s.surveys.filter fun e => !mine e.1
    svyCache := s.svyCache.filter fun e => !mine e.1
    plotRuns := s.plotRuns.filter fun e => !mine e.1
    deliveries := s.deliveries.filter fun e => !mine e.1
    quantHeld := s.quantHeld.filter fun e => !mine (e.1 / 32)
    quant := (s.quant.mapVals fun _ l => l.filter fun m => m.kern.sheet != i).filter fun e => !e.2.isEmpty
    sems := s.sems.filter fun e => e.1.1 != i
    hch := ⟨s.hch.reports.filter (fun e => e.1.1 != i), s.hch.layers.filter (fun e => e.1.1 != i), s.hch.below.del i⟩ }
  s.resetSheetRegs i

/-- Step 1 and the start of step 2 of Table 13.4. -/
def State.sheetStop1 (s : State) (i : Nat) : State :=
  let s := s.launchTear (Timed.namesSheet i)
  (s.pools.filter fun e => e.2.sheet == i && e.2.present).foldl (fun s e => s.poolStop e.1) s

/-- The jobs with a context on sheet i, or a pool of it (R538). -/
def State.sheetJobs (s : State) (i : Nat) : List Nat :=
  let l := ((s.ctxs.filter fun e => e.1.1 == i).map fun e => e.2.job) ++
    ((s.pools.filter fun e => e.2.sheet == i && e.2.present).filterMap fun e => e.2.job)
  (dedup l).filter fun j => (s.job j).life.st == .on

/-- A sheet's STOPPING begun without a SHEET_DESTROY: its jobs torn down, then steps 1 and 2. A creation under way ends with TORN_DOWN. -/
def State.sheetEnd (s : State) (i : Nat) : State :=
  let s := (s.sheetJobs i).foldl (fun s j => s.jobStop j []) s
  let x := s.sheet i
  match x.life.st with
  | .off | .stopping => s
  | _ =>
    let s := s.setSheet i { x with life := { x.life with st := .stopping, step := 0, enable := none, since := s.datum }, serve := none }
    (s.tornDown x.life.enable.toList).sheetStop1 i

/-- R538. -/
def State.sheetFatal (s : State) (i : Nat) : State :=
  let x := s.sheet i
  if x.life.st = .off ∨ x.failed then s
  else
    let s := s.setSheet i { x with failed := true }
    let s := s.sheetEnd i
    let s := s.event { code := .sheetFailed, sheet := some i }
    (s.octFail (octsOf i x.m)).relevel

/-- The sheets that fatal-to-sheet events have named, ended (R538). -/
def State.sweepFatal (s : State) : State :=
  let l := dedup s.ev.fatal
  l.foldl State.sheetFatal { s with ev := { s.ev with fatal := [] } }

/-- Steps 2 and 3 of Table 13.4 wait for the sheet's pools, and a sheet ended by R538 or R561 for its contexts too. -/
def State.sheetWaits (s : State) (i : Nat) : Bool :=
  (s.pools.any fun e => e.2.sheet == i && e.2.present) || (s.ctxs.any fun e => e.1.1 == i)

/-- Steps 3 to 5 of Table 13.4. -/
def State.sheetStopped (s : State) (i : Nat) : State :=
  let s := s.sheetClear i
  let x := s.sheet i
  let r := x.life.stopped
  let s := { s with sheets := s.sheets.del i }
  let s := s.finals r.2.1
  match r.2.2 with
  | some pkt => s.sheetDeferred i pkt
  | none => s

end Sys2Proof.Machine
end

