-- ==== Sys2Proof/Machine/BootOps.lean ====
section
/-! DEFINITION. Resets (R559 to R562), the loss of power (R506, R512, R515), failed dies (R553, R537), the choice of the active die (R452) and
takeover (R454 to R456). -/

namespace Sys2Proof.Machine

def State.pin (s : State) (name : String) (level : Bool) : State := s.send (.pin name level)

/-- What every reset but a cold one keeps, over the reset state: fuses, the SPI flash, the standby log (Table 21.7), and what is the model's own. A
cold reset loses the standby log. -/
def State.wiped (s : State) (cold : Bool) : State :=
  let b := s.boot
  let c := s.sec
  { State.reset with
    free := s.free, out := s.out, pending := s.pending
    boot := { Boot.reset with fused := b.fused, grade := b.grade, config := b.config, charged := b.mainReq || b.charged }
    sec := { Sec.reset with target := c.target, owners := c.owners, jtagKill := c.jtagKill, svn := c.svn, minSerial := c.minSerial, fmKeys := c.fmKeys,
                            slotA := c.slotA, slotB := c.slotB, activated := c.activated }
    pw := { Power.reset with stored := s.pw.stored, active := s.pw.stored }
    ev := { Events.reset with log := if cold then [] else s.ev.log } }

/-- Both boot ROMs start at step 1 (R550): the fuses are read and the keys derived. -/
def State.bootStart (s : State) : State :=
  let s := (s.set F.CTC_STATUS_boot_step 0 0 1).set F.CTC_STATUS_boot_step 1 0 1
  { s with boot := { s.boot with standby := true, rom0 := .run, rom1 := .run, step := 1, since := s.datum, begun := s.datum, late := false, triedA := [], ready := [],
                                 verified := [] } }

/-- RESET_DONE (Table 21.8) with the reset's kind. The spec gives the cause no codes: a free value. -/
def State.resetDone (s : State) (kind : Nat) : State :=
  (s.event { code := .resetDone, params := [kind, (Config.freeWord s.free).toNat] }).draw

/-- A device reset (Table 21.7, R567): boot restarts at step 1. -/
def State.deviceReset (s : State) : State :=
  let s := s.pin "MAIN_REQ" false
  (((if s.pw.tripPin then s.pin "THERMTRIP_N" true else s).wiped false).bootStart).resetDone 1

/-- Power removed from every bus, with no restart of its own (R512). -/
def State.powerOff (s : State) : State :=
  let s := (s.pin "MAIN_REQ" false).wiped false
  { s with boot := { s.boot with standby := true }, pw := { s.pw with cut := true } }

/-- A fatal-to-device error that is not of the power (R537): every port is held OFF and every core is stopped. -/
def State.haltDevice (s : State) : State :=
  let s := (List.range 36).foldl (fun s p => if (s.port p).life.st = .off then s else
    s.portTo p { s.port p with life := { (s.port p).life with st := .stopping } } 0) s
  { s with boot := { s.boot with halted := true }, cores := [] }

/-- A failed die (R553, Table 20.2): held in reset, its octant unavailable; an XD's record is fatal-to-device. A sheet over the octant ends. -/
def State.dieFail (s : State) (d : Nat) : State :=
  if s.dieDead d then s
  else
    let oct := dieOctant d
    let sh := oct.bind s.octSheet
    let v := decide (48 ≤ d ∧ d < 56)
    let s := { s with boot := { s.boot with dead := s.boot.dead ++ [d] } }
    let s := s.event { code := .dieFailed, cls := if v then some 5 else none, sheet := sh, die := d, unit := d }
    let s := match sh with
      | some i => s.sheetFatal i
      | none => s
    let s := s.octFail oct.toList
    (if v then s.haltDevice else s).relevel

/-! Roles. -/

def State.setRole (s : State) (die : Nat) (r : Role) : State :=
  if die = 0 then { s with cht := { s.cht with role0 := r } } else { s with cht := { s.cht with role1 := r } }

/-- A die becomes active at step 4 (R452): the standby log is copied (R535), and Level 0 is reported (R557). An image that an update activated has now
booted to Level 0, and the fuse svn advances to its SVN (R480). -/
def State.activate (s : State) (die : Nat) : State :=
  let s := (s.set F.CTC_STATUS_boot_step die 0 5).setRole die .active
  let svn := if s.sec.activated = some (s.boot.triedA.contains die) then max s.sec.svn (s.get F.CTC_SVN_running die) else s.sec.svn
  let act := if s.sec.activated = some (s.boot.triedA.contains die) then none else s.sec.activated
  let s := { s with boot := { s.boot with step := 4, since := s.datum, reason := s.reasonNow }, sec := { s.sec with deviceKey := some s.free, svn := svn, activated := act } }.draw
  let copy := s.ev.log.zipIdx.map fun e => { e.1 with standby := true, seq := s.ev.nextSeq + e.2, reported := false, lost := 0 }
  let s := { s with ev := { s.ev with ring := s.ev.ring ++ copy, nextSeq := s.ev.nextSeq + copy.length, log := [] } }
  s.event { code := .levelReached, params := [0, s.reasonNow, s.octMask, s.stackMask] }

def State.romSt (s : State) (die : Nat) : RomSt := if die = 0 then s.boot.rom0 else s.boot.rom1

/-- A die's boot ends with a code of CTC_STATUS.boot_fail (R478). -/
def State.romFail (s : State) (die code : Nat) : State :=
  let s := s.set F.CTC_STATUS_boot_fail die 0 code
  if die = 0 then { s with boot := { s.boot with rom0 := .failed } } else { s with boot := { s.boot with rom1 := .failed } }

/-- The die that has not become active joins as the standby, unless measurements 1 to 6 differ (Table 18.2 step 5). -/
def State.standBy (s : State) (die : Nat) : State :=
  if (s.measures 0).take 6 = (s.measures 1).take 6 then (s.set F.CTC_STATUS_boot_step die 0 5).setRole die .standby
  else ((s.romFail die 3).setRole die .failed).event { code := .bootMismatch, unit := die, die := dieCh die }

/-- The roles of the dies that are ready (R452): CH0 first; CH1 when CH0 has ended its boot, or when the time of R552 is over. -/
def State.chooseActive (s : State) : State :=
  let r := s.boot.ready
  let wants := fun d : Nat => r.contains d && s.role d == .booting
  if s.chtActive then
    let s := if wants 0 then s.standBy 0 else s
    if r.contains 1 && s.role 1 == .booting then s.standBy 1 else s
  else if wants 0 then
    let s := s.activate 0
    if r.contains 1 then s.standBy 1 else s
  else if wants 1 && (s.boot.rom0 == .failed || s.boot.late) then s.activate 1
  else s

/-- Takeover by the standby (R454 to R456): commands not committed are answered CHARTROOM_FAILOVER, and replies held for the failed die go out
again; the sampling interval, which the journal holds (R453), goes on. Causes: 1 heartbeat, 2 fatal error, 3 command. -/
def State.takeover (s : State) (cause : Nat) : State :=
  let old := s.chtDie
  let new := 1 - old
  let s := (s.setRole old .failed).setRole new .active
  let s := (s.set F.CHT_FAILOVER_cause new 0 cause).bumpMod F.CHT_FAILOVER_count new 0 1
  let s := s.set F.CHT_TELEM_sample_us new 0 (s.get F.CHT_TELEM_sample_us old)
  let s := s.event { code := .chartroomFailover, params := [cause], unit := new, report := true }
  let lost := s.cht.open_.filter fun e => !e.2
  let s := s.finals (lost.map fun e => (e.1, .chartroomFailover))
  let held := s.cht.held
  let s := held.foldl (fun s e => s.deliver e.1 e.2) { s with cht := { s.cht with held := [], heard := s.datum, beat := s.datum } }
  s.relevel

def State.standbyWorks (s : State) : Bool := s.role (1 - s.chtDie) == .standby

/-- A command ring disabled (R461): packets not read are dropped, and replies owed to it are discarded and counted. -/
def State.ringOff (s : State) (die : Fin 2) (n : Fin 16) : State :=
  let src := Source.ring die n
  let held := s.cht.held.filter fun e => e.1.src == src
  let owed := (s.cht.open_.filter fun e => e.1.src == src).map (·.1)
  let s := { s with cht := { s.cht with held := s.cht.held.filter (fun e => e.1.src != src), dropped := s.cht.dropped ++ owed } }
  let s := s.bump F.CHT_CMD_CNT_lost_replies s.chtDie 0 held.length
  s.set F.CHT_RING_STATUS_cmd_head die n (s.get F.CHT_RING_DB_cmd_tail die n)

/-- A function reset (R562): the 16 ring pairs of a die's function are disabled and take their reset values. -/
def State.functionReset (s : State) (die : Fin 2) : State :=
  let s := (List.finRange 16).foldl (fun s n => if s.ringOn die n then s.ringOff die n else s) s
  let ring := fun r : RegId => r.inst == die.val && (r.name == .CHT_RING_CMD || r.name == .CHT_RING_RPL || r.name == .CHT_RING_WB ||
    r.name == .CHT_RING_CFG || r.name == .CHT_RING_DB || r.name == .CHT_RING_STATUS)
  ({ s with regs := s.regs.filter fun e => !ring e.1 }).resetDone 3

end Sys2Proof.Machine
end

