-- ==== Sys2Proof/Machine/Cipher.lean ====
section
/-! DEFINITION. The ciphers that the spec names for frames and host transfers (R390, R490 to R492, R496, R497): HMAC and HKDF over SHA-384 (RFC 2104,
RFC 5869), AES-256 (FIPS 197) in GCM (SP 800-38D), and the CRC-32 of a frame. -/

namespace Sys2Proof.Machine

def xorBytes (a b : List Byte) : List Byte := (a.zip b).map fun e => e.1 ^^^ e.2

/-! HMAC and HKDF. -/

/-- HMAC-SHA-384. -/
def hmac384 (key p : List Byte) : List Byte :=
  let k := if 128 < key.length then sha384 key else key
  let k := k ++ List.replicate (128 - k.length) 0
  sha384 (k.map (· ^^^ 0x5C) ++ sha384 (k.map (· ^^^ 0x36) ++ p))

/-- HKDF-Expand-SHA-384(HKDF-Extract(48 zero bytes, key), info, 32) (R490): 32 bytes are less than one block. -/
def hkdf32 (key info : List Byte) : List Byte := (hmac384 (hmac384 (List.replicate 48 0) key) (info ++ [1])).take 32

/-! AES-256. -/

/-- Multiplication by x, and of two elements, in the field of AES. -/
def aesX (a : Byte) : Byte := (a <<< 1) ^^^ (if a.msb then 0x1B else 0)
def aesMul (a b : Byte) : Byte := (List.range 8).foldl (fun r k => aesX r ^^^ (if b.getMsbD k then a else 0)) 0
/-- The 254th power: the inverse, and zero of zero. -/
def aesInv (a : Byte) : Byte :=
  ((List.range 7).foldl (fun (p : Byte × Byte) _ => (aesMul p.1 p.1, aesMul p.2 (aesMul p.1 p.1))) (a, 1)).2
/-- The S-box. -/
def aesSub (a : Byte) : Byte :=
  let b := aesInv a
  b ^^^ b.rotateLeft 1 ^^^ b.rotateLeft 2 ^^^ b.rotateLeft 3 ^^^ b.rotateLeft 4 ^^^ 0x63

/-- The next word of the key schedule before those of w, newest first: the word i of the expansion of an 8-word key. -/
def aesKeyWord (w : List (List Byte)) (i : Nat) : List Byte :=
  let t := w.getD 0 []
  let t := if i % 8 = 0 then
      xorBytes ((t.rotateLeft 1).map aesSub) [(List.range (i / 8 - 1)).foldl (fun r _ => aesX r) 1, 0, 0, 0]
    else if i % 8 = 4 then t.map aesSub
    else t
  xorBytes (w.getD 7 []) t
/-- The 15 round keys of a 32-byte key. -/
def aesKeys (key : List Byte) : List (List Byte) :=
  let w := ((List.range 52).foldl (fun w j => aesKeyWord w (j + 8) :: w) ((List.range 8).map fun j => bytesAt key (4 * j) 4).reverse).reverse
  (List.range 15).map fun r => ((w.drop (4 * r)).take 4).flatten

def aesShiftRows (s : List Byte) : List Byte := (List.range 16).map fun j => s.getD (j % 4 + 4 * ((j / 4 + j % 4) % 4)) 0
def aesMixColumns (s : List Byte) : List Byte :=
  (List.range 16).map fun j =>
    let a := fun k => s.getD (4 * (j / 4) + (j + k) % 4) 0
    aesX (a 0) ^^^ aesX (a 1) ^^^ a 1 ^^^ a 2 ^^^ a 3

/-- One block of 16 bytes enciphered under the round keys. -/
def aesBlock (keys : List (List Byte)) (p : List Byte) : List Byte :=
  let rk := fun r => keys.getD r []
  let s := (List.range 13).foldl (fun s r => xorBytes (aesMixColumns (aesShiftRows (s.map aesSub))) (rk (r + 1))) (xorBytes p (rk 0))
  xorBytes (aesShiftRows (s.map aesSub)) (rk 14)

/-! GCM. -/

/-- A block as an element of the field of GHASH, the first bit of the first byte most significant. -/
def gcmElem (p : List Byte) : BitVec 128 :=
  BitVec.ofNat 128 (leNat (p ++ List.replicate (16 - p.length) 0).reverse)
def gcmMul (x y : BitVec 128) : BitVec 128 :=
  ((List.range 128).foldl (fun (p : BitVec 128 × BitVec 128) k =>
    (if x.getMsbD k then p.1 ^^^ p.2 else p.1, (p.2 >>> 1) ^^^ (if p.2.getLsbD 0 then (0xE1#128 <<< 120) else 0))) (0, y)).1
/-- GHASH of padded pieces. -/
def gcmHash (h y : BitVec 128) (p : List Byte) : BitVec 128 :=
  (List.range ((p.length + 15) / 16)).foldl (fun y j => gcmMul (y ^^^ gcmElem ((p.drop (16 * j)).take 16)) h) y

/-- The key stream's effect on a text, from the counter block after the first. -/
def gcmText (keys : List (List Byte)) (nonce p : List Byte) : List Byte :=
  (List.range ((p.length + 15) / 16)).flatMap fun j => xorBytes ((p.drop (16 * j)).take 16) (aesBlock keys (nonce ++ beBytes 4 (j + 2)))
/-- The tag of additional data and ciphertext. -/
def gcmTag (keys : List (List Byte)) (nonce aad c : List Byte) : List Byte :=
  let h := gcmElem (aesBlock keys (List.replicate 16 0))
  let y := gcmHash h (gcmHash h 0 aad) c
  let y := gcmHash h y (beBytes 8 (8 * aad.length) ++ beBytes 8 (8 * c.length))
  xorBytes (beBytes 16 y.toNat) (aesBlock keys (nonce ++ beBytes 4 1))

/-- AES-256-GCM with a 96-bit nonce: ciphertext and tag. -/
def gcmSeal (key nonce aad p : List Byte) : List Byte × List Byte :=
  let k := aesKeys key
  let c := gcmText k nonce p
  (c, gcmTag k nonce aad c)
/-- The text of a ciphertext whose tag verifies. -/
def gcmOpen (key nonce aad c tag : List Byte) : Option (List Byte) :=
  let k := aesKeys key
  if gcmTag k nonce aad c = tag then some (gcmText k nonce c) else none

/-! CRC-32. -/

/-- CRC-32 with the polynomial of IEEE 802.3, reflected, which the spec does not name (PRESUMED, log 423). -/
def crc32 (p : List Byte) : BitVec 32 :=
  ~~~ p.foldl (fun c b => (List.range 8).foldl (fun c _ => (c >>> 1) ^^^ (if c.getLsbD 0 then 0xEDB88320 else 0)) (c ^^^ b.setWidth 32)) (0xFFFFFFFF : BitVec 32)

end Sys2Proof.Machine
end

