-- ==== Sys2Proof/Machine/Seal.lean ====
section
/-! DEFINITION. A frame as bytes (R390): its header, the keys of a job's senders (R490), the nonce (R491), and the payload, tag and CRC that stand on the
fabric (R491, R492). -/

namespace Sys2Proof.Machine

/-- The 32 bytes of a header (Table 14.2). -/
def headerBytes (f : Frame) : List Byte :=
  leBytes 1 (f.version.toNat + 16 * f.kind.toNat) ++
  leBytes 1 (f.tc.toNat + 8 * b2n f.comp + 16 * b2n f.last + 32 * b2n f.ackv + 64 * f.opflag.toNat) ++
  leBytes 2 (f.payload.length + 2 ^ 13 * f.hops.toNat) ++
  leBytes 4 (f.dstDev.toNat + 2 ^ 20 * f.dstSheet.toNat + 2 ^ 23 * b2n f.resv4 + 2 ^ 24 * f.op.toNat) ++
  leBytes 4 (f.srcDev.toNat + 2 ^ 20 * f.srcSheet.toNat + 2 ^ 23 * f.agent.toNat) ++ leBytes 2 f.job.toNat ++ leBytes 2 f.spec.toNat ++
  leBytes 4 f.seq.toNat ++ leBytes 4 f.ackThrough.toNat ++ leBytes 8 (f.addr.toNat + 2 ^ 44 * f.ext.toNat)

/-- What the tag covers beside the payload: the header with hops zero. -/
def tagHeader (f : Frame) : List Byte := headerBytes { f with hops := 0 }

/-- The info of R490: a label, the job ID, and the sender's device ID and sheet. -/
def keyInfo (label : String) (job dev sheet : Nat) : List Byte :=
  label.toList.map (fun c => BitVec.ofNat 8 c.toNat) ++ leBytes 2 job ++ leBytes 4 (dev + 2 ^ 20 * sheet)

/-- The 256-bit job key (R486), which the origin's Cartouche draws. -/
def State.jobKey (s : State) (job : Nat) : Option (List Byte) := (s.job job).key.map fun n => (List.range 32).map (Config.freeByte n)
/-- The sealing key and the control key of a sender (R490). -/
def State.sealingKey (s : State) (job dev sheet : Nat) : Option (List Byte) := (s.jobKey job).map fun k => hkdf32 k (keyInfo "q64 frame" job dev sheet)
def State.controlKey (s : State) (job dev sheet : Nat) : Option (List Byte) := (s.jobKey job).map fun k => hkdf32 k (keyInfo "q64 ctrl" job dev sheet)

/-- The frame nonce (Table 18.6), most significant byte first. -/
def frameNonce (f : Frame) (wrap : Nat) : List Byte :=
  beBytes 12 (f.kind.toNat * 2 ^ 92 + f.agent.toNat * 2 ^ 83 + f.dstDev.toNat * 2 ^ 63 + f.dstSheet.toNat * 2 ^ 60 + wrap % 2 ^ 28 * 2 ^ 32 + f.seq.toNat)

/-- The request that a frame is, or that it answers. -/
def asRequest (f : Frame) : Frame :=
  if f.kind = 1 then { f with srcDev := f.dstDev, srcSheet := f.dstSheet, dstDev := f.srcDev, dstSheet := f.srcSheet } else f

/-- The replay entry of a frame of this device. -/
def State.sentEntry (s : State) (f : Frame) : Option ReplayEntry :=
  if f.srcDev.toNat = s.sw.devId then
    s.ep.replay.find? fun e => e.frame.kind == f.kind && e.frame.srcSheet == f.srcSheet && e.frame.agent == f.agent && e.frame.job == f.job &&
      e.frame.dstDev == f.dstDev && e.frame.dstSheet == f.dstSheet && e.frame.seq == f.seq
  else none

/-- How often the 32-bit sequence number of a frame's stream has wrapped (R491): known of the frame's own stream, inferred of another device's. -/
def State.wrapOf (s : State) (f : Frame) : Nat :=
  match s.sentEntry (asRequest f) with
  | some e => e.seq / 2 ^ 32
  | none => fullSeq (s.rx (rxKeyOf (asRequest f))).expected f.seq.toNat / 2 ^ 32

/-- The payload and the tag of a frame as they stand on the fabric (R491, R492). What only another device or session can seal, and a frame whose tag does
not verify, is a free value (log 203). -/
def State.sealed (s : State) (f : Frame) : State × List Byte × List Byte :=
  let n := f.payload.length
  let free := fun (s : State) n => s.freeBytes (n + 16)
  let unknown := (fun r : State × List Byte => (r.1, r.2.take n, r.2.drop n)) (free s n)
  let here := f.srcDev.toNat == s.sw.devId || f.dstDev.toNat == s.sw.devId
  let kind := f.kind.toNat
  if kind = 6 then (s, f.payload, List.replicate 16 0)
  else if kind = 2 ∨ kind = 3 ∨ kind = 7 then
    match f.tagOk, s.controlKey f.job.toNat f.srcDev.toNat f.srcSheet.toNat with
    | true, some k => (s, f.payload, (hmac384 k (tagHeader f ++ f.payload)).take 16)
    | _, _ => let r := free s 0; (r.1, f.payload, r.2)
  else if kind = 5 then unknown
  else
    match f.tagOk && here, s.sealingKey f.job.toNat f.srcDev.toNat f.srcSheet.toNat with
    | true, some k =>
      let r := gcmSeal k (frameNonce f (s.wrapOf f)) (tagHeader f) f.payload
      (s, r.1, r.2)
    | _, _ => unknown

/-- A whole frame as bytes: header, payload, tag and CRC-32 (R390). -/
def State.wireFrame (s : State) (f : Frame) : State × List Byte :=
  let r := s.sealed f
  let b := headerBytes f ++ r.2.1 ++ r.2.2
  (r.1, b ++ leBytes 4 (crc32 b).toNat)

end Sys2Proof.Machine
end

