-- ==== Sys2Proof/Machine/Telem.lean ====
section
/-! DEFINITION. The telemetry ring (R473): records of 16 MiB in all, the oldest overwritten. -/

namespace Sys2Proof.Machine

/-- Records without the oldest that must go for the rest to fit in the room, and how many go. -/
def telemFit (room : Nat) : List TelemRec → Nat → List TelemRec × Nat
  | [], _ => ([], 0)
  | r :: l, used => if used ≤ room then (r :: l, 0) else
      let x := telemFit room l (used - r.bytes.length)
      (x.1, x.2 + 1)

def telemRing : Nat := 16777216

/-- A record of type kind written to the ring behind its header (R473); overwritten records are counted (R474). -/
def State.telemetry (s : State) (kind : Nat) (body : List Byte) : State :=
  let n := s.cht.telemSeq
  let b := leBytes 1 kind ++ leBytes 1 0 ++ leBytes 2 (16 + body.length) ++ leBytes 4 n ++ leBytes 8 s.datum ++ body
  let l := s.cht.telem ++ [⟨n, b⟩]
  let x := telemFit telemRing l (sumOf l fun r => r.bytes.length)
  ({ s with cht := { s.cht with telem := x.1, telemSeq := n + 1 } }).bump F.CHT_TELEM_lost s.chtDie 0 x.2

end Sys2Proof.Machine
end

