-- ==== Sys2Proof/Machine/Switch.lean ====
section
/-! DEFINITION. The commands of chapter 14: a frame entering the switch core (R392 to R399, R407 to R409), arbitration (R400 to R402, R405)
and the switch tables (R403, R404, R406). -/

namespace Sys2Proof.Machine

/-! The header. -/

/-- A header as Tables 14.2 and 14.3 allow it. -/
def headerOk (f : Frame) : Bool :=
  let n := f.payload.length
  let sp := f.spec.toNat
  let plain := f.op == 0 && f.opflag == 0 && f.spec == 0 && f.ext == 0
  f.version == 1 && !f.resv4 && decide (n ≤ 4096) &&
  match f.kind.toNat with
  | 0 =>
    match f.op.toNat with
    | 1 => decide (f.opflag.toNat ≤ 1 ∧ sp < 16) && f.ext == 0 && n == 0
    | 2 => f.opflag == 0 && decide (sp < 16) && f.ext == 0
    | 3 => decide (f.opflag.toNat ≤ 1) && bitsOf sp 7 4 == 0 && bitsOf sp 15 12 == 0 && f.ext == 0 && n == 16
    | 4 => decide (f.opflag.toNat ≤ 1) && decide (f.ext.toNat < 2 ^ 16)
    | 5 => f.ext == 0 && ((f.opflag == 0 && sp == 0) || (f.opflag == 1 && decide (1 ≤ sp ∧ sp ≤ 4096) && n == 0))
    | 6 => f.opflag == 0 && sp == 0 && f.ext == 0 && n == 8
    | 8 => f.opflag == 0 && sp == 0 && f.ext == 0 && decide (16 ≤ n)
    | _ => false
  | 1 => f.op == 0 && decide (f.opflag.toNat ≤ 1) && f.ext == 0
  | 2 => f.op == 0 && f.opflag == 0 && decide (f.ext.toNat < 2 ^ 16) && n == 0
  | 3 => f.op == 0 && f.opflag == 0 && f.ext == 0 && n == 0
  | 4 => plain
  | 5 => plain
  | 6 => plain && n == 48
  | 7 => plain && n == 4
  | _ => false

/-! Lookup (R393 to R396). -/

/-- The local octant of the slot that an address of the scratchpad, XD SRAM or engine-queue window names. -/
def slotOctant (a : Nat) : Option Nat :=
  if 2 ^ 40 ≤ a ∧ a < 2 ^ 40 + 2 ^ 32 then some ((a - 2 ^ 40) / 2 ^ 24 / 32)
  else if 0x18000000000 ≤ a ∧ a < 0x18020000000 then some ((a - 0x18000000000) / 2 ^ 26)
  else if 0x20000000000 ≤ a ∧ a < 0x20000800000 then some ((a - 0x20000000000) / 2 ^ 20)
  else none

/-- The octant of Table 14.4. A slot past the sheet's octants, and an address in no window, go to local octant 0 (log 424). -/
def State.frameOctant (s : State) (f : Frame) : Nat :=
  let i := f.dstSheet.toNat
  let a := f.addr.toNat
  let local_ := fun k => s.physOct i (if k < (s.sheet i).m then k else 0)
  let o := match f.kind.toNat with
    | 0 => if a < 2 ^ 40 then s.hubOf i a / 2 else local_ ((slotOctant a).getD 0)
    | 1 => local_ (agentOctant f.agent.toNat)
    | 2 => local_ (agentOctant f.agent.toNat)
    | 3 => local_ (agentOctant f.agent.toNat)
    | _ => s.physOct i 0
  o % 8

/-- The port fields of a coordinate table entry, and its candidates (Table 14.5). -/
def entryFields (w : Word) : List Nat := [fld w 5 0, fld w 11 6, fld w 17 12, fld w 23 18]
def entryPorts (w : Word) : List Nat := (entryFields w).take (fld w 26 24)

/-- The candidates whose port is UP. -/
def State.upCandidates (s : State) (w : Word) : List Nat := (entryPorts w).filter fun p => decide (p < 36) && s.portUp p

/-- The entry that serves a frame: the lowest-indexed exception that matches, or the position or domain entry. -/
def State.tableEntry (s : State) (f : Frame) : Word :=
  let d := f.dstDev.toNat
  let hit := fun (_ : Nat) (e : Word × Word) => e.1.getLsbD 31 && fld e.1 19 0 == d && bitOf (fld e.1 27 20) f.tc.toNat
  let l := s.sw.exc.sel hit
  match minOf l.keys with
  | some i => (s.sw.exc.getD i (0, 0)).2
  | none => if d / 256 = s.sw.devId / 256 then s.sw.pos.getD (d % 256) 0 else s.sw.dom.getD (d / 256) 0

/-- An internal input presents a frame of TC0 to TC5 to the arbiter and holds no cell for it (R400). -/
def SwFrame.held (q : SwFrame) : Bool := decide (q.inPort < 36) || isPriv q.frame.tc.toNat

/-- Cells of a class queued for an output. -/
def State.outCells (s : State) (out c : Nat) : Nat :=
  sumOf (s.sw.queue.filter fun q => q.outPort == out && q.frame.tc.toNat == c && q.held) fun q => cellsOf q.frame

/-- The choice of R395 among UP candidates. -/
def State.pick (s : State) (f : Frame) (l : List Nat) : Option Nat :=
  let c := f.tc.toNat
  if c = 0 ∨ c = 4 ∨ c = 5 then (sortBy (fun p => s.outCells p c) l).head?
  else
    let key := (f.srcDev.toNat * 2 ^ 44) ||| (f.srcSheet.toNat * 2 ^ 41) ||| (f.agent.toNat * 2 ^ 32) ||| (f.dstDev.toNat * 8) ||| f.dstSheet.toNat
    l[hashOf key 0 % max 1 l.length]?

/-- What a lookup finds: an output, an entry that drops although it has a candidate whose port is UP, or no such candidate. -/
inductive Lookup where
  | out (p : Nat)
  | drop
  | down
  deriving DecidableEq, Repr

/-- R393: an internal port for a frame of this device, else a candidate of the entry. -/
def State.lookup (s : State) (f : Frame) : Lookup :=
  if f.dstDev.toNat = s.sw.devId ∧ s.sw.devId / 256 ≠ 4095 then .out (36 + s.frameOctant f / 2)
  else
    let w := s.tableEntry f
    match s.pick f (s.upCandidates w) with
    | none => .down
    | some p => if w.getLsbD 27 then .drop else .out p

def State.maxHops (s : State) : Nat := let h := s.get F.SWC_CTL_max_hops; if h = 0 then 1 else min h 4

/-! Drops (R407) and mirroring (R408). -/

inductive DropReason where
  | noRoute | hopLimit | portDown | bufferUe
  deriving DecidableEq, Repr
def DropReason.code : DropReason → Nat
  | .noRoute => 0
  | .hopLimit => 1
  | .portDown => 2
  | .bufferUe => 3
def DropReason.status : DropReason → Status
  | .noRoute => .noRoute
  | .hopLimit => .hopLimit
  | .portDown => .portDown
  | .bufferUe => .bufferUe
def DropReason.field : DropReason → Field
  | .noRoute => F.SWC_DROP_CNT0_no_route
  | .hopLimit => F.SWC_DROP_CNT0_hop_limit
  | .portDown => F.SWC_DROP_CNT1_port_down
  | .bufferUe => F.SWC_DROP_CNT2_buffer_ue

/-- A frame dropped: counted, captured with its destination, and one event per arming; its input's cells are free again. -/
def State.swDrop (s : State) (r : DropReason) (inPort gen : Nat) (f : Frame) : State :=
  let armed := !(s.reg ⟨.SWC_DROP_INFO, 0, 0⟩).getLsbD 63
  let s := s.bump r.field 0 0 1
  let s := s.capture ⟨.SWC_DROP_INFO, 0, 0⟩
    (r.code * 2 ^ 24 + f.tc.toNat * 2 ^ 21 + inPort * 2 ^ 15 + f.hops.toNat * 2 ^ 12 + f.kind.toNat * 2 ^ 8 + gen % 256)
    [(⟨.SWC_DROP_DST, 0, 0⟩, f.dstSheet.toNat * 2 ^ 36 + f.dstDev.toNat * 2 ^ 16 + f.job.toNat)]
  let s := if armed then s.event { code := .swcDrop, unit := inPort, status := some r.status, params := [r.code] } else s
  s.leaveInput inPort f

/-- R408: a matching frame is counted at lookup, and every N-th is copied as it stands on the fabric; out is 0x3F for a dropped frame. -/
def State.mirror (s : State) (inPort out : Nat) (f : Frame) : State :=
  let want := s.get F.SWC_MIRROR_CFG_in_port
  if s.get F.SWC_MIRROR_CFG_enable = 0 ∨ !bitOf (s.get F.SWC_MIRROR_CFG_tc_mask) f.tc.toNat ∨ (want ≠ 0x7F ∧ want ≠ inPort) then s
  else
    let n := s.sw.mirrored + 1
    if n < s.get F.SWC_MIRROR_CFG_n_m1 + 1 then { s with sw := { s.sw with mirrored := n } }
    else
      let r := ({ s with sw := { s.sw with mirrored := 0 } }).wireFrame f
      let body := leBytes 8 s.datum ++ leBytes 1 inPort ++ leBytes 1 out ++ leBytes 1 (s.sw.gen % 256) ++ leBytes 1 0 ++ leBytes 2 (wireBytes f) ++
        leBytes 2 0 ++ bytesAt r.2 0 128
      (r.1.telemetry 1 body).bump F.SWC_MIRROR_CNT_copied 0 0 1

/-! Entering the switch. -/

/-- A frame that an input holds is looked up once, mirrored, and queued or dropped (R393, R396, R407). -/
def State.switchIn (s : State) (p : Nat) (f : Frame) : State :=
  match s.lookup f with
  | .out out =>
    if out < 36 ∧ s.maxHops ≤ f.hops.toNat then (s.mirror p 0x3F f).swDrop .hopLimit p s.sw.gen f
    else
      let s := s.mirror p out f
      { s with sw := { s.sw with queue := s.sw.queue ++ [⟨f, p, out, s.sw.gen, false⟩] } }
  | _ => (s.mirror p 0x3F f).swDrop .noRoute p s.sw.gen f

/-- A frame received whole on a NATIVE port (R392, R419, R421, R422, R426, R427). -/
def State.linkIn (s : State) (p : Nat) (e : Envelope) (f : Frame) : State :=
  let x := s.port p
  let n := e.linkSeq.toNat
  let s := s.bump F.FPT_LINK_CNT0_fec_corrected p 0 e.corrected.toNat
  if x.sub == .quarantined then s.bump F.FPT_VIOL_CNT1_refused p 0 1
  else if e.error ≠ 0 then
    let s := if e.error = 1 then s.bump F.FPT_LINK_CNT0_fec_uncorrectable p 0 1 else s.bump F.FPT_LINK_CNT1_crc_errors p 0 1
    if !x.asked || n == x.rxSeq then s.askRetry p else s
  else
    let s := if e.macOk then s.setPort p { x with rxCount := nextCount x.rxCount e.txCount.toNat } else s
    let k := 4 * e.tc.toNat + e.lane.toNat
    let viol := fun (s : State) (v : Viol) => s.violation p v e.tc.toNat e.lane.toNat f.kind.toNat n
    if !e.macOk then
      let c := min (cellsOf f) (x.outstanding k)
      viol (if n = x.rxSeq then ((s.linkTook p).consume p k c).issueCredit p k c else s) .badMac
    else if n ≠ x.rxSeq ∧ !seqBefore x.rxSeq n then s
    else if n ≠ x.rxSeq then if x.asked then s else (viol s .badSequence).askRetry p
    else
      let s := s.linkTook p
      let c := cellsOf f
      if x.outstanding k < c then viol s .creditOverflow
      else
        let s := s.consume p k c
        if !e.lenOk || !headerOk f || f.tc != e.tc || f.hops == 0 || heldLane f != e.lane.toNat then
          viol (s.issueCredit p k c) .malformed
        else s.switchIn p f

/-- FRAME_INGRESS (R392): on a fabric port in NATIVE mode, or from the endpoint at an internal port, where a frame of TC6 or TC7 waits for
room in the privileged memory (R399, R400). -/
def execFrameIngress (p : Fin 40) (e : Envelope) (f : Frame) (s : State) : Res :=
  let p := p.val
  .next (
    if p < 36 then (if s.native p && (s.port p).linked then s.linkIn p e f else s)
    else if headerOk f && (!isPriv f.tc.toNat || decide (cellsOf f ≤ s.room p (4 * f.tc.toNat))) then s.switchIn p f
    else s)

/-! Arbitration (R402). -/

/-- The first frame of each virtual output queue of an output, in order of arrival (R401). -/
def queueHeads : List SwFrame → List (Nat × Nat) → List SwFrame
  | [], _ => []
  | q :: l, seen =>
    let k := (q.inPort, q.frame.tc.toNat)
    if seen.contains k then queueHeads l seen else q :: queueHeads l (k :: seen)
def State.headsFor (s : State) (out : Nat) : List SwFrame := queueHeads (s.sw.queue.filter fun q => q.outPort == out) []

/-- A queue without the first copy of a frame. -/
def State.unqueue (s : State) (q : SwFrame) : State := { s with sw := { s.sw with queue := s.sw.queue.erase q } }

/-- The output may send this frame now: on a NATIVE link, against credit and with room in the link replay buffer (R419, R422); to a gateway,
when its function has taken the last one; an unassigned device sends nothing of TC0 to TC6 (R433). -/
def State.sendable (s : State) (out : Nat) (f : Frame) : Bool :=
  if 36 ≤ out then true
  else if s.sw.devId / 256 = 4095 ∧ f.tc ≠ 7 then false
  else if s.native out then
    let x := s.port out
    decide (cellsOf f ≤ x.available (4 * f.tc.toNat + f.hops.toNat)) && x.fits f
  else (s.gw.getD out Gateway.fresh).inq.isEmpty

/-- Of heads of one class, the next input in round-robin order after the one served last. -/
def nextInput (last : Nat) (l : List SwFrame) : Option SwFrame := (sortBy (fun q => (q.inPort + 39 - last) % 40) l).head?

def drrOrder : List Nat := [0, 1, 3, 4, 5]
def State.weight (s : State) (c : Nat) : Nat :=
  max 1 (match c with
    | 0 => s.get F.SWC_ARB_WEIGHT_tc0
    | 1 => s.get F.SWC_ARB_WEIGHT_tc1
    | 3 => s.get F.SWC_ARB_WEIGHT_tc3
    | 4 => s.get F.SWC_ARB_WEIGHT_tc4
    | _ => s.get F.SWC_ARB_WEIGHT_tc5)

/-- The served input, deficit and pointer tables of an output. Class 8 holds the place in drrOrder, class 9 whether its quantum is spent. -/
def State.servedOf (s : State) (out c : Nat) : Nat := s.sw.served.getD (out, c) (if c < 8 then 39 else 0)
def State.setServed (s : State) (out c v : Nat) : State := { s with sw := { s.sw with served := s.sw.served.put (out, c) v } }
def State.setDeficit (s : State) (out c v : Nat) : State := { s with sw := { s.sw with deficit := s.sw.deficit.put (out, c) v } }

/-- Deficit round robin over the heads that may be sent; waiting holds every head. Each visit of a class adds its quantum once. -/
def State.drr (s : State) (out : Nat) (waiting ready : List SwFrame) : Nat → State × Option SwFrame
  | 0 => (s, none)
  | fuel + 1 =>
    let at_ := s.servedOf out 8
    let c := drrOrder.getD at_ 0
    let move := fun s : State => (s.setServed out 8 ((at_ + 1) % 5)).setServed out 9 0
    if !(waiting.any fun q => q.frame.tc.toNat == c) then (move (s.setDeficit out c 0)).drr out waiting ready fuel
    else
      match nextInput (s.servedOf out c) (ready.filter fun q => q.frame.tc.toNat == c) with
      | none => (move s).drr out waiting ready fuel
      | some q =>
        let d := s.sw.deficit.getD (out, c) 0 + (if s.servedOf out 9 = 0 then 256 * s.weight c else 0)
        if wireBytes q.frame ≤ d then (((s.setDeficit out c (d - wireBytes q.frame)).setServed out 9 1), some q)
        else (move (s.setDeficit out c d)).drr out waiting ready fuel

/-- TC6 has taken more than its share of the output's bytes of the last 10 µs in which TC0 to TC5 waited. -/
def State.tc6Over (s : State) (out : Nat) : Bool :=
  let l := s.sw.sent.filter fun e => e.1 == out && decide (s.datum < e.2.1 + usTicks 10) && e.2.2.2.2
  let all := sumOf l fun e => e.2.2.2.1
  let tc6 := sumOf (l.filter fun e => e.2.2.1 == 6) fun e => e.2.2.2.1
  decide (max 1 (s.get F.SWC_CTL_priv_limit_pct) * all < 100 * tc6)

/-- The choice of R402. -/
def State.chooseFrame (s : State) (out : Nat) : State × Option SwFrame :=
  let all := s.headsFor out
  let ready := all.filter fun q => s.sendable out q.frame
  let of := fun c => nextInput (s.servedOf out c) (ready.filter fun q => q.frame.tc.toNat == c)
  match of 7, of 6, of 2 with
  | some q, _, _ => (s, some q)
  | none, tc6, tc2 =>
    if tc6.isSome && !s.tc6Over out then (s, tc6)
    else if tc2.isSome then (s, tc2)
    else
      let bulk := fun q : SwFrame => drrOrder.contains q.frame.tc.toNat
      if ready.any bulk then s.drr out (all.filter bulk) (ready.filter bulk) 128 else (s, tc6)

/-- A frame leaves through its output: on a link with hops raised (R396), into a gateway function, or to the endpoint, where a tree
keepalive is taken at once. -/
def State.transmit (s : State) (out : Nat) (q : SwFrame) (waiting : Bool) : State :=
  let f := q.frame
  let n := wireBytes f
  let s := s.unqueue q
  let sent := (s.sw.sent.filter fun e => decide (s.datum < e.2.1 + usTicks 10)) ++ [(out, s.datum, f.tc.toNat, n, waiting)]
  let s := { s with sw := { s.sw with sent := sent, txBytes := s.sw.txBytes.put out (s.sw.txBytes.getD out 0 + n) } }
  let s := s.setServed out f.tc.toNat q.inPort
  let up : Frame := { f with hops := f.hops + 1 }
  let s := if 36 ≤ out then (let s := s.send (.inbound out f); if f.kind = 7 then s.keepaliveIn f else s)
    else if s.native out then (if f.srcDev.toNat = s.sw.devId ∧ orderedClass f then s.orderedFlush f.dstDev.toNat else s).linkSend out up
    else
      let g := s.gw.getD out Gateway.fresh
      { s with gw := s.gw.put out { g with inq := g.inq ++ [up] } }
  s.leaveInput q.inPort f

/-- The head that R405 looks up again, because its output has left UP. An entry without a candidate whose port is UP drops it as PORT_DOWN,
even one with drop set (DEDUCED, log 428). -/
def State.relookup (s : State) (q : SwFrame) : State :=
  let s := s.unqueue q
  match s.lookup q.frame with
  | .down => s.swDrop .portDown q.inPort q.gen q.frame
  | .drop => s.swDrop .noRoute q.inPort s.sw.gen q.frame
  | .out out =>
    if out < 36 ∧ s.maxHops ≤ q.frame.hops.toNat then s.swDrop .hopLimit q.inPort s.sw.gen q.frame
    else
      let s := s.bump F.SWC_DROP_CNT1_relookup 0 0 1
      { s with sw := { s.sw with queue := s.sw.queue ++ [{ q with outPort := out, gen := s.sw.gen, moved := true }] } }

/-- A queued frame as its input presents it (R400): an internal input reads a put's data when the arbiter grants its frame. -/
def State.present (s : State) (q : SwFrame) : SwFrame :=
  match q.held, s.sentEntry q.frame with
  | false, some e => { q with frame := s.withData { q.frame with comp := e.frame.comp } e.put }
  | _, _ => q
def State.presented (s : State) : State := { s with sw := { s.sw with queue := s.sw.queue.map s.present } }

/-- OUTPUT_ARBITRATION (R402) of one output; ecc says how the frame reads from its buffer: whole, corrected, or unreadable (R536). -/
def execOutputArbitration (p : Fin 40) (ecc : Fin 3) (s : State) : Res :=
  let out := p.val
  .next (
    if out < 36 ∧ !s.portUp out then
      match (s.headsFor out).head? with
      | some q => s.relookup q
      | none => s
    else
      let r := s.presented.chooseFrame out
      let s := r.1
      match r.2 with
      | none => s
      | some q =>
        if q.held && ecc == 2 then
          ((s.unqueue q).event { code := .sramUe, unit := 13 * 65536 + q.inPort, status := some .bufferUe }).swDrop .bufferUe q.inPort q.gen q.frame
        else
          let s := if q.held && ecc == 1 then s.event { code := .sramCe, unit := 13 * 65536 + q.inPort } else s
          s.transmit out q ((s.headsFor out).any fun h => !isPriv h.frame.tc.toNat))

/-! The tables (R403, R404, R406). -/

def entryOk (w : Word) : Bool := fld w 63 28 == 0 && decide (fld w 26 24 ≤ 4) && ((entryFields w).all fun p => decide (p < 36))
def wordAt (p : List Byte) (o : Nat) : Word := BitVec.ofNat 64 (uAt p o 8)

/-- SWITCH_TABLE_WRITE (R404). -/
def bodySwitchTableWrite : CmdBody := fun s _ _ p =>
    let tb := uAt p 0 1
    let first := uAt p 4 4
    let n := uAt p 8 4
    let es := (List.range n).map fun j => wordAt p (16 + 8 * j)
    match firstFail [(decide (16 ≤ p.length), Ans.bad 2), (decide (tb ≤ 1), .badP 0), (zeros p 1 3, .badP 1), (decide (1 ≤ n ∧ n ≤ 510), .badP 8),
        (zeros p 12 4, .badP 12), (p.length == 16 + 8 * n, .bad 2)],
      (es.zipIdx.find? fun e => !entryOk e.1) with
    | some a, _ => (s, a)
    | none, some e => (s, .badP (16 + 8 * e.2))
    | none, none =>
      if (if tb = 0 then 256 else 4096) < first + n then (s, .st .addressRange)
      else if s.sw.copying.isSome then (s, .st .tableBusy)
      else
        let put := fun (t : Tbl Nat Word) => es.zipIdx.foldl (fun (t : Tbl Nat Word) e => t.put (first + e.2) e.1) t
        ({ s with sw := if tb = 0 then { s.sw with posS := put s.sw.posS } else { s.sw with domS := put s.sw.domS } }, .ok)
def execSwitchTableWrite (h : CmdHdr) (p : List Byte) (s : State) : Res := .next (s.command 0x0505 h p bodySwitchTableWrite)

/-- SWITCH_EXC_WRITE (R404). -/
def bodySwitchExcWrite : CmdBody := fun s _ _ p =>
    let first := uAt p 0 4
    let n := uAt p 4 4
    let es := (List.range n).map fun j => (wordAt p (16 + 16 * j), wordAt p (24 + 16 * j))
    match firstFail [(decide (16 ≤ p.length), Ans.bad 2), (decide (first ≤ 1023), .badP 0), (decide (1 ≤ n ∧ n ≤ 255), .badP 4), (zeros p 8 8, .badP 8),
        (p.length == 16 + 16 * n, .bad 2)],
      (es.zipIdx.find? fun e => !(fld e.1.1 30 28 == 0 && fld e.1.1 63 32 == 0 && entryOk e.1.2)) with
    | some a, _ => (s, a)
    | none, some e => (s, .badP (16 + 16 * e.2))
    | none, none =>
      if 1024 < first + n then (s, .st .addressRange)
      else if s.sw.copying.isSome then (s, .st .tableBusy)
      else
        let t := es.zipIdx.foldl (fun (t : Tbl Nat (Word × Word)) e => t.put (first + e.2) e.1) s.sw.excS
        ({ s with sw := { s.sw with excS := t } }, .ok)
def execSwitchExcWrite (h : CmdHdr) (p : List Byte) (s : State) : Res := .next (s.command 0x0506 h p bodySwitchExcWrite)

/-- A commit of the shadow tables, 2 µs ahead (R403); one commit waits at a time. Only the fabric manager may give it. -/
def State.commitSwitch (s : State) (o : Owed) (drain : Bool) : State × Ans :=
  match s.trueSrc o.src with
  | .fm _ =>
    if s.sw.copying.isSome || s.sw.commit.isSome then (s, .st .tableBusy)
    else ({ s with sw := { s.sw with commit := some (s.datum + usTicks 2, o, drain) } }, .later true)
  | _ => (s, .st .accessDenied)

/-- The parameters of TABLE_COMMIT (R77), either table. -/
def State.tableCommit (s : State) (o : Owed) (h : CmdHdr) (p : List Byte) : State × Ans :=
  let tb := uAt p 0 1
  let fl := uAt p 1 1
  match firstFail [lenIs p 8, (decide (tb ≤ 1), Ans.badP 0), (decide (fl ≤ tb), .badP 1), (zeros p 2 2, .badP 2),
      (tb == 0 || zeros p 4 4, .badP 4), (tb == 1 || h.sheetValid, .bad 17)] with
  | some a => (s, a)
  | none => if tb = 0 then s.commitRouting h.sheet.toNat (uAt p 4 4) else s.commitSwitch o (fl == 1)

def bodyTableCommit : CmdBody := fun s o h p => s.tableCommit o h p
/-- TABLE_COMMIT of the routing table (R74, R77). -/
def execTableCommit (h : CmdHdr) (p : List Byte) (s : State) : Res := .next (s.command 0x0704 h p bodyTableCommit)
/-- TABLE_COMMIT of the switch tables (R403, R77). -/
def execTableCommitSwitch (h : CmdHdr) (p : List Byte) (s : State) : Res := .next (s.command 0x0704 h p fun s o h p => s.tableCommit o h p)

/-- Queued frames of an older generation than g. -/
def State.olderFrames (s : State) (g : Nat) : Nat := (s.sw.queue.filter fun q => decide (q.gen < g)).length

/-- SWITCH_TABLE_ACTIVATION (R403): at the chosen Datum the shadow tables become active, and the copy back begins. A commit without wait_drain
replies; one with it waits under R406. -/
def execSwitchTableActivation (s : State) : Res :=
  .next (match s.sw.commit with
    | none => s
    | some (t, o, drain) =>
      if s.datum < t then s
      else
        let w := s.sw
        let g := w.gen + 1
        let w := { w with pos := w.posS, dom := w.domS, exc := w.excS, gen := g, commit := none, copying := some s.datum }
        if drain then { s with sw := { w with drains := w.drains ++ [(o, g, s.datum)] } } else ({ s with sw := w }).final o .ok)

/-- SHADOW_COPY_COMPLETE (R403). -/
def execShadowCopyComplete (s : State) : Res :=
  .next (match s.sw.copying with
    | none => s
    | some _ => { s with sw := { s.sw with posS := s.sw.pos, domS := s.sw.dom, excS := s.sw.exc, copying := none } })

/-- Commits whose wait p ends, each with this status. -/
def State.endDrains (s : State) (st : Status) (p : Owed × Nat × Nat → Bool) : State :=
  let l := s.sw.drains.filter p
  (({ s with sw := { s.sw with drains := s.sw.drains.filter fun d => !p d } }) : State).finals (l.map fun d => (d.1, st))

/-- DRAIN_COMPLETE (R406). -/
def execDrainComplete (s : State) : Res := .next (s.endDrains .ok fun d => s.olderFrames d.2.1 == 0)
/-- DRAIN_TIMEOUT (R406): a wait past SWC_CTL.drain_us. -/
def execDrainTimeout (s : State) : Res :=
  .next (s.endDrains .drainTimeout fun d => s.elapsed d.2.2 (usTicks (max 1 (s.get F.SWC_CTL_drain_us))) && s.olderFrames d.2.1 != 0)

/-- SWC_DROP_INFO, written (R407). -/
def execSwcDropInfo (w : Word) (s : State) : Res := .next (s.rearm ⟨.SWC_DROP_INFO, 0, 0⟩ w)

end Sys2Proof.Machine
end

