-- ==== Sys2Proof/Machine/Chartroom.lean ====
section
/-! DEFINITION. The commands of chapter 17: NOP, DEVICE_INFO, failover and device reset (R452 to R456, R560), telemetry (R473, R474) and the host's
ring registers (R461 to R463). -/

namespace Sys2Proof.Machine

/-! Live registers of the Chartroom page. -/

/-- CHT_ID: the grade is the fuse map's (Table 17.11). -/
def State.chtId (s : State) : Word := BitVec.ofNat 64 (setBits (s.reg ⟨.CHT_ID, 0, 0⟩).toNat 55 48 s.boot.grade)
/-- CHT_STATUS of a die (Table 17.13). -/
def State.chtStatus (s : State) (die : Nat) : Word :=
  BitVec.ofNat 64 (Config.fwVersion.toNat * 2 ^ 32 + s.boot.level * 2 ^ 24 + (s.role (1 - die)).code * 4 + (s.role die).code)

/-- The level record of Table 21.5. -/
def State.levelRecord (s : State) : List Byte :=
  leBytes 1 s.boot.level ++ leBytes 1 s.reasonNow ++ leBytes 1 s.boot.step ++ leBytes 1 (b2n s.boot.complete) ++ leBytes 1 s.octMask ++
  leBytes 1 (maskOf 6 s.fdWorks + 64 * maskOf 2 s.chWorks) ++ leBytes 2 s.stackMask ++ leBytes 8 (maskOf 36 s.portUp)

/-- Cores of CD c that the fuse map enables: 8 less the fused ones. -/
def State.enabledCores (s : State) (c : Nat) : Nat := 8 - (s.boot.fused.filter fun k => k / 8 == c).length

/-- NOP (R468): the spec gives it no parameters. -/
def bodyNop : CmdBody := fun s _ _ p => (s, match firstFail [lenIs p 0] with
  | some a => a
  | none => .ok)
def execNopCommand (h : CmdHdr) (p : List Byte) (s : State) : Res := .next (s.command 0x0100 h p bodyNop)

/-- DEVICE_INFO (R468). -/
def bodyDeviceInfo : CmdBody := fun s _ _ p => (s, match firstFail [lenIs p 0] with
  | some a => a
  | none => .data (leBytes 8 s.chtId.toNat ++ leBytes 8 (s.chtStatus s.chtDie).toNat ++ ((List.range 32).flatMap fun c => leBytes 1 (s.enabledCores c)) ++
      s.levelRecord))
def execDeviceInfo (h : CmdHdr) (p : List Byte) (s : State) : Res := .next (s.command 0x0101 h p bodyDeviceInfo)

/-- CHARTROOM_FAILOVER (R454). -/
def bodyChartroomFailover : CmdBody := fun s _ _ p =>
    match firstFail [lenIs p 0, (s.standbyWorks, Ans.st .levelUnavailable)] with
    | some a => (s, a)
    | none => (s.takeover 3, .ok)
def execChartroomFailover (h : CmdHdr) (p : List Byte) (s : State) : Res := .next (s.command 0x0105 h p bodyChartroomFailover)

/-- DEVICE_RESET (R560): mode 0 replies and resets 1 ms later; mode 1 first tears down every admitted job. -/
def bodyDeviceReset : CmdBody := fun s o _ p =>
    match firstFail [lenIs p 8, (decide (uAt p 0 1 ≤ 1), Ans.badP 0), (zeros p 1 7, .badP 1)] with
    | some a => (s, a)
    | none =>
      if uAt p 0 1 = 0 then ({ s with cht := { s.cht with resetAt := some s.datum } }, .ok)
      else
        let l := (s.jobs.sel fun _ x => x.life.st == .on).keys
        let s := l.foldl (fun s j => s.jobStop j []) s
        ({ s with cht := { s.cht with resetOwed := some (o, l.length) } }, .later true)
def execDeviceReset (h : CmdHdr) (p : List Byte) (s : State) : Res := .next (s.command 0x0106 h p bodyDeviceReset)

/-- No STOPPING sequence is in progress. -/
def State.noneStopping (s : State) : Bool :=
  !(s.jobs.any fun e => e.2.life.st == .stopping) && !(s.sheets.any fun e => e.2.life.st == .stopping) && !(s.ctxs.any fun e => e.2.life.st == .stopping) &&
  !(s.pools.any fun e => e.2.life.st == .stopping) && !(s.ports.any fun e => e.2.life.st == .stopping)

/-- DEVICE_RESET_BEGIN (R560): 1 ms after a reply in mode 0 and with no STOPPING in progress; in mode 1 when the jobs are down, with the reply of
their number as a u32 (the spec gives its width nowhere: log 46). -/
def execDeviceResetBegin (s : State) : Res :=
  .next (match s.cht.resetAt, s.cht.resetOwed with
    | some t, _ => if s.elapsed t (msTicks 1) && s.noneStopping then s.deviceReset else s
    | none, some (o, n) => if s.jobs.any fun e => e.2.life.st == .stopping then s else (s.final o .ok noDetail (leBytes 4 n)).deviceReset
    | none, none => s)

/-! Telemetry (R473, R474). -/

/-- TELEMETRY_SET. -/
def bodyTelemetrySet : CmdBody := fun s _ _ p =>
    let v := uAt p 0 4
    match firstFail [lenIs p 4, (decide (v = 0 ∨ (10 ≤ v ∧ v ≤ 1000000)), Ans.badP 0)] with
    | some a => (s, a)
    | none => ({ s.set F.CHT_TELEM_sample_us s.chtDie 0 v with cht := { s.cht with lastSample := s.datum } }, .ok)
def execTelemetrySet (h : CmdHdr) (p : List Byte) (s : State) : Res := .next (s.command 0x0B00 h p bodyTelemetrySet)

/-- Whole records that fit in n bytes. -/
def fitRecs {α : Type} (bytes : α → Nat) : Nat → List α → List α
  | _, [] => []
  | n, r :: l => if bytes r ≤ n then r :: fitRecs bytes (n - bytes r) l else []

/-- TELEMETRY_READ. -/
def bodyTelemetryRead : CmdBody := fun s o _ p =>
    match firstFail [lenIs p 0] with
    | some a => (s, a)
    | none =>
      let src := s.trueSrc o.src
      let x := s.src src
      let lost := s.cht.telemSeq - s.cht.telem.length
      let l := fitRecs (fun r : TelemRec => r.bytes.length) 4088 (s.cht.telem.filter fun r => decide (x.telem ≤ r.seq))
      let cur := match l.getLast? with
        | some r => r.seq + 1
        | none => max x.telem (match s.cht.telem.head? with
          | some r => r.seq
          | none => x.telem)
      (s.setSrc src { x with telem := cur, telemLost := lost }, .data (leBytes 4 (lost - x.telemLost) ++ leBytes 4 0 ++ l.flatMap fun r => r.bytes))
def execTelemetryRead (h : CmdHdr) (p : List Byte) (s : State) : Res := .next (s.command 0x0B01 h p bodyTelemetryRead)

/-- LEVEL_READ: the latest level sample; before the first the spec gives none, and 64 free bytes stand in its place. -/
def bodyLevelRead : CmdBody := fun s _ _ p =>
    match firstFail [lenIs p 0] with
    | some a => (s, a)
    | none =>
      if s.cht.level.isEmpty then let r := s.freeBytes 64; (r.1, .data r.2) else (s, .data s.cht.level)
def execLevelRead (h : CmdHdr) (p : List Byte) (s : State) : Res := .next (s.command 0x0B02 h p bodyLevelRead)

/-- LEVEL_SAMPLE (R473). The bytes that the hubs moved are not counted by the model: a free value. -/
def execLevelSample (s : State) : Res :=
  .next (
    let us := s.get F.CHT_TELEM_sample_us s.chtDie
    if us = 0 ∨ !s.elapsed s.cht.lastSample (usTicks us) ∨ !s.chtActive then s
    else
      let nat := (List.range 36).filter fun p => s.portUp p && s.native p
      let gws := (List.range 36).filter s.gwRole
      let b := s.cht.base
      let tx := fun l : List Nat => sumOf l fun p => s.sw.txBytes.getD p 0 - b.tx.getD p 0
      let stall := sumOf nat fun p => s.sw.stallUs.getD p 0 - b.stall.getD p 0
      let again := sumOf (List.range 36) fun p => s.get F.GWY_DGRAM_CNT_retransmitted p
      let out := gws.foldl (fun n p => max n (sumOf (List.range 8) (s.outCells p))) 0
      let body := leBytes 8 (Config.freeWord s.free).toNat ++ leBytes 8 (tx nat) ++ leBytes 8 (tx gws) ++
        leBytes 4 ((s.datum - s.cht.lastSample) / 1000) ++ leBytes 4 stall ++ leBytes 4 out ++ leBytes 4 (again - b.again) ++
        leBytes 1 nat.length ++ leBytes 1 gws.length ++ List.replicate 6 0
      let s := (s.draw).telemetry 2 body
      { s with cht := { s.cht with lastSample := s.datum, base := ⟨s.sw.txBytes, s.sw.stallUs, again⟩, level := match s.cht.telem.getLast? with
        | some r => r.bytes
        | none => [] } })

/-! Heartbeats (R454). -/

/-- CHARTROOM_HEARTBEAT: each 100 µs. -/
def execChartroomHeartbeat (s : State) : Res :=
  .next (
    if s.chtActive && s.elapsed s.cht.beat (usTicks 100) && !s.dieDead (dieCh s.chtDie) then
      { s with cht := { s.cht with beat := s.datum, heard := if s.standbyWorks then s.datum else s.cht.heard } }
    else s)

/-- HEARTBEAT_TIMEOUT: the standby has heard nothing for hb_timeout_us. -/
def execHeartbeatTimeout (s : State) : Res :=
  .next (
    if s.chtActive && s.standbyWorks && s.elapsed s.cht.heard (usTicks (max 200 (s.get F.CHT_CTL_hb_timeout_us s.chtDie))) then s.takeover 1 else s)

/-! The host's ring registers. -/

/-- A write of CHT_RING_CFG (R461): enabling zeroes heads and tails and begins the ring's sequence (R466); clearing enable drops what is unread. -/
def State.ringCfg (s : State) (die : Fin 2) (n : Fin 16) (w : Word) : State :=
  let s0 := s.set F.CHT_RING_CFG_vector die n (fld w 12 8)
  let was := s.ringOn die n
  let now := w.getLsbD 0
  if !was && now then
    let s := ((s0.set F.CHT_RING_CFG_enable die n 1).setReg ⟨.CHT_RING_DB, die, n⟩ 0).setReg ⟨.CHT_RING_STATUS, die, n⟩ 0
    s.setSrc (.ring die n) { s.src (.ring die n) with expected := none, kept := [] }
  else if was && !now then (s0.ringOff die n).set F.CHT_RING_CFG_enable die n 0
  else s0
def execChtRingCfg (die : Fin 2) (n : Fin 16) (w : Word) (s : State) : Res := .next (s.ringCfg die n w)

/-- CMD_TAIL (R462): the packets up to the tail may be taken. -/
def State.cmdTail (s : State) (die : Fin 2) (n : Fin 16) (v : Nat) : State := s.set F.CHT_RING_DB_cmd_tail die n v
def execCmdTail (die : Fin 2) (n : Fin 16) (v : BitVec 32) (s : State) : Res := .next (s.cmdTail die n v.toNat)

/-- REPLY_HEAD (R463): freed slots take the replies that wait. -/
def State.replyHead (s : State) (die : Fin 2) (n : Fin 16) (v : Nat) : State :=
  let s := s.set F.CHT_RING_DB_reply_head die n v
  s.cht.held.foldl (fun s e => match e.1.src with
    | .ring d k => if (s.replyDie d).1 = die.val ∧ k = n then releaseHeld (.ring d k) die n s.cht.held s else s
    | _ => s) s
def execReplyHead (die : Fin 2) (n : Fin 16) (v : BitVec 32) (s : State) : Res := .next (s.replyHead die n v.toNat)

end Sys2Proof.Machine
end

