-- ==== Sys2Proof/Machine/Gateway.lean ====
section
/-! DEFINITION. The commands of chapter 16: device IDs and the job device map (R432 to R438), and the gateways (R439 to R450). -/

namespace Sys2Proof.Machine

/-- DEVICE_ID_SET (R432). -/
def bodyDeviceIdSet : CmdBody := fun s _ _ p =>
    let v := uAt p 0 4
    match firstFail [lenIs p 8, (decide (v < 2 ^ 20), Ans.badP 0), (zeros p 4 4, .badP 4), (!s.anyAdmitted, .st .deviceBusy)] with
    | some a => (s, a)
    | none => ({ s with sw := { s.sw with devId := v } }, .ok)
def execDeviceIdSet (h : CmdHdr) (p : List Byte) (s : State) : Res := .next (s.command 0x0507 h p bodyDeviceIdSet)

/-- JOBMAP_WRITE (R436). A rewritten number's lines leave the cache (R66), and operations of the job to it are tried again (R55). -/
def bodyJobmapWrite : CmdBody := fun s _ _ p =>
    let j := uAt p 0 2
    let first := uAt p 4 4
    let n := uAt p 8 4
    let es := (List.range n).map fun k => wordAt p (16 + 8 * k)
    match firstFail [(decide (16 ≤ p.length), Ans.bad 2), (zeros p 2 2, .badP 2), (decide (first < 2 ^ 20), .badP 4), (decide (1 ≤ n ∧ n ≤ 510), .badP 8),
        (zeros p 12 4, .badP 12), (p.length == 16 + 8 * n, .bad 2)],
      (es.zipIdx.find? fun e => !(fld e.1 63 26 == 0 && !e.1.getLsbD 23)) with
    | some a, _ => (s, a)
    | none, some e => (s, .badP (16 + 8 * e.2))
    | none, none =>
      let x := s.job j
      if !s.admitted j then (s, .st .jobUnknown)
      else if x.life.st = .stopping then (s, .st .tornDown)
      else if x.n < first + n then (s, .st .addressRange)
      else
        let map := es.zipIdx.foldl (fun (m : Tbl Nat (Word × Option Nat)) e => m.put (first + e.2) (e.1, some s.datum)) x.map
        let s := s.setJob j { x with map := map }
        let s := { s with ep := { s.ep with lost := s.ep.lost.filter fun k => !(k.1 == j && decide (first ≤ k.2 ∧ k.2 < first + n)) } }
        (s.dropLines fun _ job home _ => job == j && decide (first ≤ home ∧ home < first + n), .ok)
def execJobmapWrite (h : CmdHdr) (p : List Byte) (s : State) : Res := .next (s.command 0x0304 h p bodyJobmapWrite)

/-- GATEWAY_SET (R439, Tables 17.7 and 17.8). -/
def bodyGatewaySet : CmdBody := fun s _ _ p =>
    let n := uAt p 0 1
    let en := uAt p 1 1
    let xp := wordAt p 16
    match firstFail [lenIs p 32, (decide (n ≤ 35), Ans.badP 0), (decide (en ≤ 1) && (en == 0 || s.get F.FPT_CTL_mode n == 1), .badP 1),
        (decide (4228 ≤ uAt p 4 2 ∧ uAt p 4 2 ≤ 9194), .badP 4), (zeros p 12 4, .badP 12), (decide (1 ≤ fld xp 15 0 ∧ fld xp 15 0 ≤ 2000), .badP 16),
        (zeros p 30 2, .badP 30), (s.fdWorks (n / 6), .st .levelUnavailable), (!(en == 1 && s.get F.GWY_CTL_enable n == 1), .st .deviceBusy)] with
    | some a => (s, a)
    | none =>
      let s := if en = 0 ∧ s.gwRole n then s.gwStop n else s
      let s := ((s.set F.GWY_CTL_enable n 0 en).set F.GWY_CTL_udp_port n 0 (uAt p 2 2)).set F.GWY_CTL_mtu n 0 (uAt p 4 2)
      let s := (s.set F.GWY_WC_CFG_timeout_us n 0 (uAt p 6 2)).set F.GWY_WC_CFG_rb_hold_us n 0 (uAt p 8 4)
      ((s.setReg ⟨.GWY_XPORT_CFG, n, 0⟩ xp).setReg ⟨.GWY_DSCP, n, 0⟩ (wordAt p 24), .ok)
def execGatewaySet (h : CmdHdr) (p : List Byte) (s : State) : Res := .next (s.command 0x0508 h p bodyGatewaySet)

/-- A peer table entry (Table 16.5) that R441 takes. -/
def peerOk (b : List Byte) : Bool :=
  let c := uAt b 4 1
  decide (uAt b 0 4 < 2 ^ 20) && decide (c % 8 ≤ 6) && decide (c / 16 = 0) && (c % 8 == 0 || uAt b 5 1 != 0) && zeros b 8 8

/-- PEER_WRITE (R441). -/
def bodyPeerWrite : CmdBody := fun s _ _ p =>
    let n := uAt p 0 4
    let es := (List.range n).map fun k => bytesAt p (16 + 128 * k) 128
    match firstFail [(decide (16 ≤ p.length), Ans.bad 2), (decide (1 ≤ n ∧ n ≤ 31), .badP 0), (zeros p 4 12, .badP 4), (p.length == 16 + 128 * n, .bad 2)],
      (es.zipIdx.find? fun e => !peerOk e.1) with
    | some a, _ => (s, a)
    | none, some e => (s, .badP (16 + 128 * e.2))
    | none, none =>
      let t := es.foldl (fun (t : Tbl Nat (List Byte)) b => if uAt b 4 1 % 8 = 0 then t.del (uAt b 0 4) else t.put (uAt b 0 4) b) s.peers
      if 65536 < t.length then (s, .st .reservedFull) else ({ s with peers := t }, .ok)
def execPeerWrite (h : CmdHdr) (p : List Byte) (s : State) : Res := .next (s.command 0x0509 h p bodyPeerWrite)

/-- GATEWAY_EGRESS (R440): the frame that the switch core handed over; it waits while eight datagrams of its connection are ready (DESIGN
CHOICE, log 45). -/
def execGatewayEgress (p : Fin 36) (s : State) : Res :=
  .next (
    let n := p.val
    match (s.gate n).inq with
    | [] => s
    | f :: t =>
      let full := match s.conn? n f.dstDev.toNat with
        | some c => decide (8 ≤ c.ready.length)
        | none => false
      if full && s.gwRole n then s else (s.setGate n { s.gate n with inq := t }).egress n f)

/-- WC_WINDOW_TIMEOUT (R444): windows whose first frame entered timeout_us ago. -/
def execWcWindowTimeout (p : Fin 36) (s : State) : Res :=
  .next (
    let n := p.val
    let l := (s.gate n).windows.filter fun w => s.elapsed w.first (usTicks (s.get F.GWY_WC_CFG_timeout_us n))
    l.foldl (fun s w => s.flush n w F.GWY_WC_CNT_timeout) s)

/-- READ_BUFFER_EXPIRY (R443). -/
def execReadBufferExpiry (p : Fin 36) (s : State) : Res :=
  .next (let g := s.gate p.val; s.setGate p.val { g with blocks := g.blocks.filter (s.blockLive p.val) })

/-! The transport (R446 to R449). -/

/-- An Ethernet frame at an ETH-mode port (R412): one that fails its FCS, and PAUSE and PFC, are discarded and counted; the gateway function takes
datagrams only in its role (R439). -/
def State.ethIn (s : State) (p : Nat) (m : EthRx) (g : State → State) : State :=
  if !s.portUp p || s.get F.FPT_CTL_mode p != 1 then s
  else match m with
    | .badFcs => s.bump F.FPT_ETH_CNT_fcs_errors p 0 1
    | .pause => s.bump F.FPT_ETH_CNT_pause_discarded p 0 1
    | .other => s
    | .taken => if s.gwRole p then g s else s

/-- An ACK now (R447). -/
def State.gwAck (s : State) (p dev : Nat) : State :=
  match s.conn? p dev with
  | none => s
  | some c => (s.setConn p dev { c with rxSince := 0, ackAt := s.datum }).dgram p dev 2 c 0 false []

def psnAdvance : Nat → Nat → List Nat → Nat × List Nat
  | 0, c, l => (c, l)
  | k + 1, c, l => if l.contains c then psnAdvance k (c + 1) (l.filter fun n => n != c) else (c, l)

/-- The full number nearest the expected one of a 32-bit psn. -/
def psnFull (expected low : Nat) : Nat :=
  let d := (low + 2 ^ 32 - expected % 2 ^ 32) % 2 ^ 32
  if d < 2 ^ 31 then expected + d else expected - (2 ^ 32 - d)

/-- A fabric frame taken from the transport enters the switch core with hops 0 (R440); a cacheable block is noted (R442). -/
def State.gwFrame (s : State) (n : Nat) (f : Frame) : State :=
  let f : Frame := { f with hops := 0 }
  if !headerOk f then s
  else
    let big := f.kind == 1 && f.opflag == 1 && f.payload.length == 4096 && f.dstDev.toNat == s.sw.devId
    let g := s.gate n
    let s := if big then s.setGate n { g with arrivals := takeLast 1024 (g.arrivals ++ [(f.dstSheet.toNat, f.agent.toNat, f.job.toNat, f.seq.toNat)]) } else s
    s.switchIn n f

/-- GATEWAY_DATA (R440, R447): the frames of a datagram within its window, taken once. -/
def execGatewayData (p : Fin 36) (d : Dgram) (s : State) : Res :=
  .next (s.ethIn p.val d.mac fun s =>
    let n := p.val
    let dev := d.connId.toNat
    match s.conn? n dev with
    | none => s
    | some c =>
      let psn := psnFull c.rxCum d.psn.toNat
      let old := decide (psn < c.rxCum) || c.rxAbove.contains psn
      if !c.open_ || (!old && decide (s.gwFree n < dgramCells d.frames)) then s
      else
        let a := if old then (c.rxCum, c.rxAbove) else psnAdvance (c.rxAbove.length + 1) c.rxCum (c.rxAbove ++ [psn])
        let c' : Conn := { c with
          rxCum := a.1, rxAbove := a.2, rxSince := c.rxSince + 1, rxTime := d.txTime.toNat, rxAt := s.datum, rxCe := c.rxCe + b2n d.ce
          ackAt := if c.rxSince = 0 then s.datum else c.ackAt, promised := if old then c.promised else c.promised - dgramCells d.frames }
        let s := s.setConn n dev c'
        let s := if old then s else d.frames.foldl (fun s f => s.gwFrame n f) s
        if 4 ≤ c'.rxSince then s.gwAck n dev else s)

/-- A round trip measured (R448): smoothed, and kept for 10 s. -/
def Conn.sample (c : Conn) (now rtt : Nat) : Conn :=
  let first := c.srtt == 0
  let dev := if rtt ≤ c.srtt then c.srtt - rtt else rtt - c.srtt
  { c with srtt := if first then rtt else (7 * c.srtt + rtt) / 8, rttvar := if first then rtt / 2 else (3 * c.rttvar + dev) / 4,
           rtts := (c.rtts.filter fun e => decide (now < e.1 + 10000000000)) ++ [(now, rtt)] }

/-- GATEWAY_ACK (R448): datagrams received are released, three later ones acknowledged by range bring a resend, and the round trip, window
and marks are taken. -/
def execGatewayAck (p : Fin 36) (d : Dgram) (s : State) : Res :=
  .next (s.ethIn p.val d.mac fun s =>
    let n := p.val
    let dev := d.connId.toNat
    match s.conn? n dev with
    | none => s
    | some c =>
      if !c.open_ then s
      else
        let cum := d.cumAck.toNat
        let low := fun x : Flight => x.psn % 2 ^ 32
        let done := fun x : Flight => decide ((cum + 2 ^ 32 - low x) % 2 ^ 32 - 1 < 2 ^ 31 - 1 ∧ cum ≠ low x) ||
          d.ranges.any fun r => decide (r.1.toNat ≤ low x ∧ low x ≤ r.2.toNat)
        let got := c.flights.filter done
        let left := (c.flights.filter fun x => !done x).map fun x => { x with passed := x.passed + (got.filter fun y => decide (x.psn < y.psn)).length }
        let rtt := (s.datum % 2 ^ 32 + 2 ^ 32 - d.echoTime.toNat) % 2 ^ 32 - d.delay.toNat
        let ce := if c.version = 2 then (d.ceCount.toNat + 2 ^ 32 - c.ceSeen) % 2 ^ 32 else 0
        let c := if got.isEmpty then c else c.sample s.datum rtt
        let out := sumOf left fun x => dgramCells x.frames
        let c : Conn := { c with flights := left, delivered := c.delivered + got.length, ce := c.ce + ce, ceSeen := d.ceCount.toNat,
                                 window := d.window.toNat - out }
        let s := s.setConn n dev c
        (left.filter fun x => decide (3 ≤ x.passed)).foldl (fun s x => match s.conn? n dev with
          | some c => s.resendFlight n dev c x
          | none => s) s)

/-- The highest version common to this device (1 and 2), the other end's list and the peer entry's (R441, R447). -/
def commonVersion (theirs entry : Nat) : Option Nat :=
  if bitOf theirs 2 && bitOf entry 2 then some 2 else if bitOf theirs 1 && bitOf entry 1 then some 1 else none

/-- HELLO (R447): answered with HELLO_ACK where a version is common; a new connection's receive side begins. -/
def execHello (p : Fin 36) (d : Dgram) (s : State) : Res :=
  .next (s.ethIn p.val d.mac fun s =>
    let n := p.val
    let dev := d.dev.toNat
    if !s.peers.has dev then s
    else
      match commonVersion d.versions.toNat (s.peerVersions dev) with
      | none => s.event { code := .gatewayVersion, unit := n, params := [dev] }
      | some v =>
        let s := match s.conn? n dev with
          | some _ => s
          | none => s.setConn n dev (Conn.fresh s.datum (s.get F.GWY_XPORT_CFG_start n))
        match s.conn? n dev with
        | none => s
        | some c =>
          let c : Conn := { c with version := v, open_ := true, remoteId := d.connId.toNat, window := d.window.toNat, rxCum := 0, rxAbove := [], rxSince := 0, rxCe := 0 }
          (s.setConn n dev c).dgram n dev 4 c 0 false [])

/-- HELLO_ACK (R447). -/
def execHelloAck (p : Fin 36) (d : Dgram) (s : State) : Res :=
  .next (s.ethIn p.val d.mac fun s =>
    let n := p.val
    let dev := d.dev.toNat
    match s.conn? n dev with
    | none => s
    | some c =>
      if c.open_ then s
      else
        match commonVersion d.versions.toNat (s.peerVersions dev) with
        | none => (s.connLost n dev).event { code := .gatewayVersion, unit := n, params := [dev] }
        | some v => s.setConn n dev { c with version := v, open_ := true, remoteId := d.connId.toNat, window := d.window.toNat, nextSend := s.datum })

/-- CLOSE (R447): the connection ends. -/
def execCloseMsg (p : Fin 36) (d : Dgram) (s : State) : Res := .next (s.ethIn p.val d.mac fun s => s.connLost p.val d.connId.toNat)

/-- GATEWAY_ACK_TIMER (R447): 8 µs with a datagram unacknowledged. -/
def execGatewayAckTimer (p : Fin 36) (s : State) : Res :=
  .next (
    let n := p.val
    let l := (s.gate n).conns.filter fun e => decide (0 < e.2.rxSince) && s.elapsed e.2.ackAt (usTicks 8)
    l.foldl (fun s e => s.gwAck n e.1) s)

/-- RETRANSMISSION_TIMEOUT (R448) of one datagram of a connection. -/
def execRetransmissionTimeout (p : Fin 36) (dev psn : Nat) (s : State) : Res :=
  .next (
    let n := p.val
    match s.conn? n dev with
    | none => s
    | some c =>
      match c.flights.find? fun x => x.psn == psn with
      | none => s
      | some x =>
        if !s.elapsed x.sent (s.rto n c x.expiries) then s
        else if 8 ≤ x.expiries + 1 then (s.connLost n dev).event { code := .gatewayPeerLost, unit := n, params := [dev] }
        else
          let y : Flight := { x with expiries := x.expiries + 1 }
          let c : Conn := { c with flights := c.flights.map fun z => if z.psn = psn then y else z }
          s.resendFlight n dev c y)

/-- R449's adjustment at the end of a round. -/
def Conn.adjust (c : Conn) (now targetUs step : Nat) : Nat :=
  let base := (minOf ((c.rtts.filter fun e => decide (now < e.1 + 10000000000)).map (·.2))).getD c.srtt
  let r := if c.retrans then c.rate / 2
    else if 0 < c.ce then c.rate - c.rate * c.ce / (2 * c.delivered)
    else if base + usTicks targetUs < c.srtt then c.rate - c.rate / 8
    else c.rate + step
  min (max r 1) 2000

/-- RATE_ADJUST (R449). -/
def execRateAdjust (p : Fin 36) (dev : Nat) (s : State) : Res :=
  .next (
    let n := p.val
    match s.conn? n dev with
    | none => s
    | some c =>
      if !c.open_ || c.srtt == 0 || decide (s.datum < c.roundEnd) then s
      else
        let r := c.adjust s.datum (s.get F.GWY_XPORT_CFG_delay_target_us n) (s.get F.GWY_XPORT_CFG_step n)
        s.setConn n dev { c with rate := r, ce := 0, delivered := 0, retrans := false, roundEnd := s.datum + c.srtt })

/-- A connection may send its first ready datagram now. -/
def Conn.maySend (c : Conn) (now : Nat) : Bool :=
  match c.ready with
  | [] => false
  | l :: _ => c.open_ && decide (c.nextSend ≤ now) && decide (dgramCells l ≤ c.window)

/-- The first device number after n, in cyclic order. -/
def nextAfter (n : Nat) (l : List Nat) : Option Nat := (sortBy (fun k => (k + 2 ^ 20 - n - 1) % 2 ^ 20) l).head?

/-- DATAGRAM_SEND (R449): the next connection in round-robin order that may send. A connection that has had no HELLO_ACK within the least
timeout sends HELLO again (DESIGN CHOICE, log 45). -/
def execDatagramSend (p : Fin 36) (s : State) : Res :=
  .next (
    let n := p.val
    let g := s.gate n
    if !s.gwRole n then s
    else
      match nextAfter g.rr ((g.conns.sel fun _ c => c.maySend s.datum).keys) with
      | some dev =>
        (match s.conn? n dev with
         | some c => (s.setGate n { g with rr := dev }).sendReady n dev c
         | none => s)
      | none =>
        match (g.conns.sel fun _ c => !c.open_ && s.elapsed c.helloAt (s.rto n c 0)).head? with
        | some (dev, c) => (s.setConn n dev { c with helloAt := s.datum }).hello n dev c
        | none => s)

end Sys2Proof.Machine
end

