-- ==== Sys2Proof/Machine/DatumTime.lean ====
section
/-! DEFINITION. Determinism (R346, R349) and the Datum clock (R351 to R358). -/

namespace Sys2Proof.Machine

/-- DETERMINISM_SET (R346, R347, R349). -/
def bodyDeterminismSet : CmdBody := fun s _ _ p =>
    let v := uAt p 0 1
    let q := uAt p 1 1
    match firstFail [lenIs p 8, (decide (v ≤ 1), Ans.badP 0), (decide (q ≤ 100), .badP 1), (zeros p 2 6, .badP 2),
        (v == 1 || !(s.jobs.any fun e => e.2.life.st != .off && e.2.strict), .st .strictRequired)] with
    | some a => (s, a)
    | none =>
      let was := s.get F.DGC_CTL_strict
      let s := (s.set F.DGC_CTL_strict 0 0 v).set F.DGC_CTL_quorum_pct 0 0 q
      if was = v then (s, .ok)
      else ((s.bump F.DGC_STATUS_strict_changes 0 0 1).event { code := .strictChanged, params := [v, s.datum] }, .ok)
def execDeterminismSet (h : CmdHdr) (p : List Byte) (s : State) : Res := .next (s.command 0x0103 h p bodyDeterminismSet)

/-! The exchange within a domain (R353, R354). -/

/-- The timestamps of a Datum sync frame that leaves, or that has arrived on, a port now: corrected by its delay trims (R353), in whole ticks. -/
def State.txStamp (s : State) (p : Nat) : Nat := ((s.datum : Int) + (Config.txTrim p).toInt / 1000).toNat
def State.rxStamp (s : State) (p : Nat) : Nat := ((s.datum : Int) - (Config.rxTrim p).toInt / 1000).toNat

/-- DATUM_SYNC_TIMER: each 1 ms a follower asks upstream. -/
def execDatumSyncTimer (s : State) : Res :=
  .next (
    let c := s.clock
    let t1 := s.txStamp s.upstream
    if s.isMaster || !s.portUp s.upstream || !s.native s.upstream || !(s.elapsed c.askedAt (msTicks 1)) then s
    else
      let s : State := { s with clock := { c with asked := some (c.nextSeq, t1), nextSeq := (c.nextSeq + 1) % 65536, askedAt := s.datum } }
      s.send (.datumSync s.upstream [0x10, 0, c.nextSeq, 0, t1, 0, 0, 0]))

/-- DATUM_SYNC_REQUEST: the response goes back on the same link, with the fields of Table 12.5. -/
def execDatumSyncRequest (p : Fin 36) (seq : BitVec 16) (t1 : Word) (s : State) : Res :=
  .next (
    if !s.portUp p || !s.native p then s
    else s.send (.datumSync p [0x11, if s.isMaster then 0 else s.get F.DTM_STATUS_hops, seq.toNat, s.dtmState, t1.toNat, s.rxStamp p, s.txStamp p,
      if s.isMaster then s.sw.devId else s.clock.master]))

/-- The mean of a list of integers. -/
def meanOf (l : List Int) : Int := if l.isEmpty then 0 else l.foldl (· + ·) 0 / l.length

/-- An exchange with the reference (Table 12.4): offset and link delay in ticks. -/
def State.exchanged (s : State) (off delay : Int) : State :=
  let c := s.clock
  let l := ((off, delay) :: c.exchanges).take 16
  let good := if off.natAbs ≤ 2 then c.good + 1 else 0
  let m := meanOf (l.map (·.1))
  let s : State := { s with clock := { c with exchanges := l, good := good, lastOk := s.datum } }
  let s := (s.set F.DTM_OFFSET_offset 0 0 (toBits 32 m)).set F.DTM_STATUS_link_delay 0 0 (meanOf (l.map (·.2))).toNat
  let s := if 1000000 < m.natAbs then s.setDtm 0 else if 16 ≤ good then s.setDtm 2 else if s.dtmState = 2 then s else s.setDtm 1
  let was := s.datum
  let s := s.correct (-m)
  let s : State := if s.datum = was then s else { s with clock := { s.clock with exchanges := [], good := 0, lastOk := s.datum, askedAt := s.datum } }
  s.step8

/-- DATUM_SYNC_RESPONSE: used only from a LOCKED device or the master, and with a link delay near the mean (R354). -/
def execDatumSyncResponse (p : Fin 36) (hops : BitVec 8) (seq : BitVec 16) (state : BitVec 8) (t1 t2 t3 : Word) (master : BitVec 20) (s : State) : Res :=
  .next (
    let c := s.clock
    if s.isMaster || p.val != s.upstream || !s.portUp p || c.asked != some (seq.toNat, t1.toNat) then s
    else
      let s : State := { s with clock := { c with asked := none } }
      let a : Int := t1.toNat
      let b : Int := t2.toNat
      let d : Int := t3.toNat
      let e : Int := s.rxStamp p
      let off := ((a - b) + (e - d)) / 2
      let delay := ((e - a) - (d - b)) / 2
      if !(state == 2 || hops == 0) then s
      else if !c.exchanges.isEmpty && decide (20 < (delay - meanOf (c.exchanges.map (·.2))).natAbs) then s
      else
        let s := s.set F.DTM_STATUS_hops 0 0 (hops.toNat + 1)
        ({ s with clock := { s.clock with master := master.toNat } } : State).exchanged off delay)

/-- How long a reference may be silent before it is lost (Table 12.4, R354): a follower's 10 ms; a master's pulse or Sync, which comes each second, 10 ms past
its time (DEDUCED, log 421). -/
def State.silence (s : State) : Nat := if s.isMaster then msTicks 1010 else msTicks 10
/-- Whether the device has a reference to lose: an upstream port, or the source of a master that follows one. -/
def State.hasReference (s : State) : Bool := !s.isMaster || (s.get F.DTM_CTL_source != 0 && (s.dtmState == 1 || s.dtmState == 2))

/-- DATUM_HOLDOVER: no usable response, or no valid exchange of a master with its source, for so long. -/
def execDatumHoldover (s : State) : Res := .next (if s.hasReference && s.elapsed s.clock.lastOk s.silence then s.loseReference else s)

/-- HOLDOVER_TIMEOUT: more than 1 s without a reference. -/
def execHoldoverTimeout (s : State) : Res := .next (if s.dtmState = 3 ∧ s.elapsed s.clock.heldAt (msTicks 1000 + 1) then s.setDtm 0 else s)

/-! The domain master's reference (R356 to R358). -/

/-- Whether the master's ordinary clock runs (R356): on an ETH-mode port that is UP, in a domain of 0 to 127. -/
def State.ptpOn (s : State) : Bool :=
  let p := s.get F.DTM_PTP_CFG_port
  s.isMaster && !s.native p && s.portUp p && decide (s.get F.DTM_PTP_CFG_domain < 128)

/-- The PTP time that the Datum stands for (R357). -/
def State.ptpNow (s : State) : Nat := s.datum + s.get F.DTM_PTP_ORIGIN_origin

/-- The offset of the Datum from the grandmaster is known. Under PTP the master follows it; under PTP_PPS it takes the whole seconds from it, and the phase
from the pulse (R357). -/
def State.ptpOffset (s : State) (off delay : Int) : State :=
  match s.get F.DTM_CTL_source with
  | 2 => s.exchanged off delay
  | 3 => { s with clock := { s.clock with secs := some ((off + 500000000) / 1000000000) } }
  | _ => s

/-- The number by which the best master clock algorithm compares clocks, the better one lower: priority1, quality, priority2, identity. -/
def ptpRank (prio1 : BitVec 8) (quality : BitVec 32) (prio2 : BitVec 8) (identity : BitVec 64) : Nat :=
  ((prio1.toNat * 2 ^ 32 + quality.toNat) * 2 ^ 8 + prio2.toNat) * 2 ^ 64 + identity.toNat
def State.ptpOwn (s : State) : Nat :=
  ptpRank (BitVec.ofNat 8 (s.get F.DTM_PTP_CFG_priority1)) Config.ptpQuality (BitVec.ofNat 8 (s.get F.DTM_PTP_CFG_priority2)) Config.ptpIdentity

/-- The role of the ordinary clock by the best foreign master that it knows (R356). -/
def State.ptpRole (s : State) (gm : Option (Nat × Nat)) : State :=
  { s with clock := { s.clock with gm := gm, ptpSlave := s.get F.DTM_PTP_CFG_slave_only == 1 || gm.any fun g => decide (g.1 < s.ptpOwn) } }

/-- An Announce: the better of the clock known and the one that announces itself, or its own last word. -/
def State.ptpAnnounce (s : State) (r : Nat) : State :=
  s.ptpRole (match s.clock.gm with
    | some g => if r ≤ g.1 ∨ r % 2 ^ 64 = g.1 % 2 ^ 64 then some (r, s.datum) else some g
    | none => some (r, s.datum))

/-- A PTP message sent: the transport (1: UDP/IPv4, 0: UDP/IPv6), the domain, then its type, sequence number and fields. -/
def State.ptpSend (s : State) (l : List Nat) : State := s.send (.ptp ([s.get F.DTM_PTP_CFG_ipv4, s.get F.DTM_PTP_CFG_domain] ++ l))

/-- A Sync's origin and arrival are known: the slave asks for the delay. -/
def State.ptpSync (s : State) (seq t1 t2 : Nat) : State :=
  ({ s with clock := { s.clock with sync := none, delay := some (seq, t1, t2, s.ptpNow) } } : State).ptpSend [1, seq, s.ptpNow]

/-- PTP_MESSAGE (R356): a message received on a port over UDP/IPv4 (v4) or UDP/IPv6, by the IEEE 1588 message type (0 Sync, 1 Delay_Req, 8 Follow_Up, 9
Delay_Resp, 11 Announce), its domain, two-step flag, sequence number and timestamp; and what an Announce says. -/
def execPtpMessage (p : Fin 36) (v4 : Bool) (ty : BitVec 4) (dom : BitVec 8) (two : Bool) (seq : BitVec 16) (t : Word) (ann : PtpAnnounce)
    (s : State) : Res :=
  .next (
    let n := seq.toNat
    if !s.ptpOn || p.val != s.get F.DTM_PTP_CFG_port || (s.get F.DTM_PTP_CFG_ipv4 == 1) != v4 then s
    else if !([0, 1, 8, 9, 11] : List Nat).contains ty.toNat then s.bump F.DTM_PTP_CFG_ignored 0 0 1
    else if dom.toNat ≠ s.get F.DTM_PTP_CFG_domain then s
    else if ty = 11 then s.ptpAnnounce (ptpRank ann.prio1 ann.quality ann.prio2 ann.identity)
    else if ty = 1 then
      if s.clock.ptpSlave || s.get F.DTM_PTP_CFG_slave_only == 1 then s else s.ptpSend [9, n, s.ptpNow]
    else if !s.clock.ptpSlave then s
    else if ty = 0 then
      if two then { s with clock := { s.clock with sync := some (n, s.ptpNow) } } else s.ptpSync n t.toNat s.ptpNow
    else if ty = 8 then
      match s.clock.sync with
      | some (m, t2) => if m = n then s.ptpSync n t.toNat t2 else s
      | none => s
    else match s.clock.delay with
      | some (m, t1, t2, t3) =>
        if m = n then
          let s : State := { s with clock := { s.clock with delay := none } }
          let a : Int := t1
          let b : Int := t2
          let c : Int := t3
          let e : Int := t.toNat
          s.ptpOffset (((b - a) - (e - c)) / 2) (((b - a) + (e - c)) / 2)
        else s
      | none => s)

/-- How far the Datum is from the nearest multiple of 10^9. -/
def secondError (t : Nat) : Int := ((t : Int) + 500000000) % 1000000000 - 500000000

/-- An edge at DATUM_PPS_IN steers a master (R357, R358): the Datum is to be a multiple of 10^9, under PTP_PPS the one that PTP gives, without which the edge is
no exchange with the reference. -/
def State.ppsEdge (s : State) : State :=
  let phase := secondError s.datum
  match s.get F.DTM_CTL_source, s.clock.secs with
  | 1, _ => s.exchanged phase 0
  | 3, some n =>
    let was := s.datum
    let s := s.exchanged (phase + n * 1000000000) 0
    if s.datum = was then s else { s with clock := { s.clock with secs := none } }
  | 3, none => s.correct (-phase)
  | _, _ => s

/-- DATUM_PPS_IN (R358): the Datum is latched; the master steers by the edge under PPS and PTP_PPS. -/
def execDatumPpsIn (s : State) : Res :=
  .next (
    let s := s.setReg ⟨.DTM_PPS_CAPTURE, 0, 0⟩ (BitVec.ofNat 64 s.datum)
    if s.isMaster then s.ppsEdge else s)

/-- DATUM_PPS_OUT (R358): the Datum reaches a multiple of 10^9 (a slewing count may pass it by one tick). -/
def execDatumPpsOut (s : State) : Res :=
  .next (
    if s.get F.DTM_CTL_pps_out = 1 ∧ s.clock.ppsHigh = none ∧ s.datum % 1000000000 ≤ 1 then
      ({ s with clock := { s.clock with ppsHigh := some (s.datum / 1000000000 * 1000000000) } } : State).pin "DATUM_PPS_OUT" true
    else s)

/-- PPS_OUT_FALL (R358): after 100,000 ticks. -/
def execPpsOutFall (s : State) : Res :=
  .next (match s.clock.ppsHigh with
    | some t => if s.elapsed t 100000 then ({ s with clock := { s.clock with ppsHigh := none } } : State).pin "DATUM_PPS_OUT" false else s
    | none => s)

end Sys2Proof.Machine
end

