-- ==== Sys2Proof/Machine/Errors.lean ====
section
/-! DEFINITION. The commands of chapter 20: closure checks (R546 to R548), the readers of the event ring and of the diagnostic objects (R534, R549), the
queue to the fabric manager (R533) and the scrub of a stack (R291). -/

namespace Sys2Proof.Machine

/-- An event record (Table 20.3). -/
def EventRec.bytes (e : EventRec) : List Byte :=
  leBytes 8 e.datum ++ leBytes 8 e.seq ++ leBytes 2 e.code.code ++ leBytes 1 e.cls ++
  leBytes 1 (b2n e.job.isSome + 2 * b2n e.sheet.isSome + 4 * b2n e.standby + 8 * b2n e.reported) ++ leBytes 2 e.lost ++ leBytes 1 e.die ++
  leBytes 1 (e.sheet.getD 0) ++ leBytes 2 (e.job.getD 0) ++ leBytes 2 (match e.status with
    | some st => st.code
    | none => 0) ++ leBytes 4 e.unit ++ (List.range 4).flatMap fun k => leBytes 8 (e.params.getD k 0)

/-! Closure checks. -/

/-- A verdict of R546 by its two tests. -/
def verdict (balanced inFlight : Bool) : Nat := if balanced then 0 else if inFlight then 1 else 2

/-- The verdict and the captured counts of a quantity other than link credits (Table 20.8), with the sheet that it belongs to; none where the object of
Table 20.9 is not in use. -/
def State.closure (s : State) (q n job : Nat) : Option (Nat × List Nat × Option Nat) :=
  match q with
  | 1 =>
    let x := s.pool n
    if decide (n < 64) && x.present then
      some (verdict (!x.misclosed) false, [x.free, x.allocated, x.quarantined, x.inFlight, x.capacity], some x.sheet)
    else none
  | 2 =>
    let i := n / 4096
    let x := s.epochAt i (n % 4096)
    if decide (i < 8) && x.st != .free then
      some (verdict (x.issued == x.granted + x.folded + x.held && x.returned + x.stale == x.granted)
        (decide (x.granted + x.folded + x.held ≤ x.issued) && decide (x.returned + x.stale ≤ x.granted)),
        [x.issued, x.granted, x.folded, x.held, x.returned, x.stale], some i)
    else none
  | 3 =>
    let h := n % 16
    match if n < 1024 then s.hubs.ctxs.find? fun c => c.hub == h && c.slot == some (n / 16) else none with
    | none => none
    | some c =>
      match s.bucket? c.job c.bucket with
      | none => none
      | some x => some (verdict (c.accepted == c.committed) (!s.ctxBroken c), s.ctxCounts c, some x.sheet)
  | 4 =>
    match if n < 8 then s.coll.slots.find n else none with
    | none => none
    | some x =>
      let sent := sumOf x.tx TxPeer.next
      let acked := sumOf x.tx TxPeer.acked
      some (verdict (sent == acked && (!x.complete || x.done == x.count)) (decide (acked ≤ sent) && (!x.complete || x.done == x.count)),
        [sent, acked, x.done, x.count], some x.l.sheet)
  | 5 =>
    let k : StreamKey := ⟨n / 512 % 8, n % 512, job, n / 4096⟩
    match if n < 2 ^ 32 then s.ep.streams.find k else none with
    | none => none
    | some x =>
      let un := x.issued - x.acked - x.failed
      let entries := (s.ep.replay.filter fun r => r.key == k).length
      some (verdict (un == entries && decide (x.acked + x.failed ≤ x.issued)) false, [x.issued, x.acked, x.failed, un, entries], some k.sheet)
  | _ => none

/-- CLOSURE_CHECK (R546, R547). For link credits the reply waits for AUDIT_RETURN. -/
def bodyClosureCheck : CmdBody := fun s o h p =>
    let q := uAt p 0 1
    let n := uAt p 8 8
    match firstFail [needJob h, lenIs p 16, (decide (q ≤ 5), Ans.badP 0), (zeros p 1 7, .badP 1)] with
    | some a => (s, a)
    | none =>
      if q = 0 then
        let port := n % 64
        let key := 4 * (n / 256 % 8) + n / 4096 % 4
        if 36 ≤ port ∨ n ≠ linkInstance port key ∨ !s.native port ∨ !s.portUp port then (s, .st .addressRange)
        else if (s.port port).audit.isSome then (s, .st .deviceBusy)
        else (s.auditStart port key (some o), .later true)
      else match s.closure q n h.job.toNat with
        | none => (s, .st .addressRange)
        | some (v, counts, sh) =>
          let s := if v = 2 then
              s.misclosure q n (if q = 2 then (counts.drop 1).take 1 ++ (counts.drop 4) else counts) (some h.job.toNat) sh
            else s
          (s, .data (leBytes 1 v ++ List.replicate 7 0 ++ counts.flatMap (leBytes 8)))
def execClosureCheck (h : CmdHdr) (p : List Byte) (s : State) : Res := .next (s.command 0x0A02 h p bodyClosureCheck)

/-- The CLOSURE_CHECK of a port whose audit has had no return within 1 ms (R547) gets TIMEOUT; the audit is over. -/
def State.auditExpire (s : State) (p : Nat) : State :=
  let x := s.port p
  match x.audit with
  | some a =>
    match a.owed with
    | some o => if s.elapsed a.since (msTicks 1) then (s.setPort p { x with audit := none }).final o .timeout else s
    | none => s
  | none => s

/-! Readers. -/

/-- EVENT_READ (R534). -/
def bodyEventRead : CmdBody := fun s o _ p =>
    match firstFail [lenIs p 0] with
    | some a => (s, a)
    | none =>
      let src := s.trueSrc o.src
      let x := s.src src
      let lost := s.get F.EVT_LOST_CNT_overwritten
      let l := (s.ev.ring.filter fun r => decide (x.evt ≤ r.seq)).take 63
      let cur := match l.getLast? with
        | some r => r.seq + 1
        | none => x.evt
      (s.setSrc src { x with evt := cur, evtLost := lost }, .data (leBytes 4 (lost - x.evtLost) ++ leBytes 4 0 ++ l.flatMap EventRec.bytes))
def execEventRead (h : CmdHdr) (p : List Byte) (s : State) : Res := .next (s.command 0x0A03 h p bodyEventRead)

/-- The error record of a job (Table 20.10, object 0). -/
def JobErr.bytes (e : JobErr) : List Byte :=
  ((List.range 4).flatMap fun k => leBytes 4 (min (e.cls.getD k 0) (2 ^ 32 - 1))) ++ leBytes 4 (min e.errors (2 ^ 32 - 1)) ++ leBytes 2 (match e.first with
    | some c => c.code
    | none => 0) ++ List.replicate 10 0

/-- An entry of the pointer quarantine log (Table 20.10, object 1). -/
def BadPtr.bytes (e : BadPtr) : List Byte := leBytes 8 e.ptr ++ leBytes 1 e.op ++ leBytes 1 0 ++ leBytes 2 e.agent ++ leBytes 4 0

/-- The entries of a diagnostic object (Table 20.10); none where the index names nothing. -/
def State.diagEntries (s : State) (obj idx : Nat) : Option (List (List Byte)) :=
  match obj with
  | 0 => if (s.ev.jobErr.find idx).isSome || (s.job idx).life.st != .off then some [(s.ev.jobErr.getD idx JobErr.fresh).bytes] else none
  | 1 => if decide (idx < 64) && (s.pool idx).present then some ((s.pool idx).log.map BadPtr.bytes) else none
  | 2 => if idx < 16 then some ((s.markedOf idx).map fun l => leBytes 8 (l * 256)) else none
  | _ => if idx = 0 then some (s.ev.log.map EventRec.bytes) else none

/-- DIAG_READ (R549): the entries from the start entry that fit in 4,088 B. -/
def bodyDiagRead : CmdBody := fun s _ _ p =>
    let obj := uAt p 0 1
    match firstFail [lenIs p 12, (decide (obj ≤ 3), Ans.badP 0), (zeros p 1 3, .badP 1)] with
    | some a => (s, a)
    | none => match s.diagEntries obj (uAt p 4 4) with
      | none => (s, .st .addressRange)
      | some l =>
        let l := l.drop (uAt p 8 4)
        let l := l.take (4088 / max 1 ((l.headD []).length))
        (s, .data (leBytes 4 l.length ++ l.flatMap id))
def execDiagRead (h : CmdHdr) (p : List Byte) (s : State) : Res := .next (s.command 0x0A00 h p bodyDiagRead)

/-- FM_REPORT_SEND (R533): with a session open the waiting records go, in order, with reported set. -/
def execFmReportSend (s : State) : Res :=
  .next (
    if s.fmSession.isNone then s
    else
      let q := s.ev.fmQueue
      let sent := q.map EventRec.seq
      let s : State := { s with ev := { s.ev with fmQueue := [], ring := s.ev.ring.map fun r => if sent.contains r.seq then { r with reported := true } else r } }
      q.foldl (fun s e => s.send (.report { e with reported := true })) s)

/-- SCRUB (R291, R292, R293): line l of hub h is read and checked. A line that is marked, or in which an error has come about, is met as every read meets it;
of another the sender says what the read finds: 0 nothing, 1 an error that is corrected and written back, 2 an uncorrectable one, which is marked and
reported. -/
def execScrub (h : Fin 16) (l : Nat) (r : Fin 3) (s : State) : Res :=
  .next (
    if s.get F.MHB_CTL_scrub_enable h = 0 ∨ !s.stackReady h ∨ 2 ^ 28 ≤ l then s
    else
      let u := keyHbm h (l * 256)
      if (s.upsets.find u).isSome ∨ s.lineMarked u then (s.readUnit u 3).1.sweepFatal
      else if r = 1 then s.lineCe h l
      else if r = 2 then (s.lineUe h l 3).sweepFatal
      else s)

end Sys2Proof.Machine
end

