-- ==== Sys2Proof/Machine/Hubs.lean ====
section
/-! DEFINITION. The commands of chapter 10: buckets (R295 to R297), the commitment of contributions and the completion of rounds (R306 to
R311), the captures of the hubs' registers, refresh and recalibration (R290, R291) and hard repair (R286). -/

namespace Sys2Proof.Machine

/-- The bucket that BUCKET_DEFINE names (Table 10.2). -/
def bucketOf (i : Nat) (p : List Byte) : Bucket :=
  ⟨i, uAt p 6 1, uAt p 7 1 == 1, uAt p 8 1 == 1, uAt p 12 4, uAt p 16 4, uAt p 24 8, uAt p 32 8, uAt p 40 8, 0, [], [], []⟩

/-- BUCKET_DEFINE (R296). The job of the parameters is the header's (log 37). -/
def bodyBucketDefine : CmdBody := fun s _ h p =>
    let i := h.sheet.toNat
    let x := bucketOf i p
    let j := uAt p 4 2
    let b := uAt p 0 4
    let clash := s.hubs.buckets.any fun e => e.2.sheet == i && decide (e.2.base < x.base + x.bytes ∧ x.base < e.2.base + e.2.bytes)
    match firstFail [lenIs p 48, needSheet h, needJob h, (j == h.job.toNat, .badP 4), (decide (uAt p 6 1 ≤ 1), .badP 6),
        (decide (uAt p 7 1 ≤ 1), .badP 7), (decide (uAt p 8 1 ≤ 1), .badP 8), (zeros p 9 3, .badP 9),
        (decide (1 ≤ x.expected ∧ x.expected ≤ 65535), .badP 12), (decide (1 ≤ x.elements ∧ x.elements ≤ 67108864), .badP 16),
        (zeros p 20 4, .badP 20), (x.base % 4096 == 0, .badP 24), (x.sem % 8 == 0, .badP 32), (x.status % 8 == 0, .badP 40),
        (decide (x.base + x.bytes ≤ (s.sheet i).usable) && s.wordIn i x.sem && s.wordIn i x.status, .st .addressRange),
        ((s.bucket? j b).isNone, .st .bucketExists),
        (!clash, .st .bucketOverlap),
        (decide (s.hubs.buckets.length < 131072), .st .bucketTableFull)] with
    | some a => (s, a)
    | none =>
      if x.exact && !Config.placed s.free (40 * x.elements) then (s.draw, .st .reservedFull)
      else ((if x.exact then s.draw else s).setBucket j b x, .ok)
/-- BUCKET_DEFINE. -/
def execBucketDefine (h : CmdHdr) (p : List Byte) (s : State) : Res := .next (s.command 0x0406 h p bodyBucketDefine)

/-- BUCKET_UNDEFINE (R297): the bucket has no open context. -/
def bodyBucketUndefine : CmdBody := fun s _ _ p =>
    let b := uAt p 0 4
    let j := uAt p 4 2
    match firstFail [lenIs p 8, (!s.stoppingJob j, .st .tornDown), (zeros p 6 2, .badP 6), ((s.bucket? j b).isSome, .st .bucketUnknown),
        (!(s.hubs.ctxs.any fun c => c.job == j && c.bucket == b), .st .bucketBusy)] with
    | some a => (s, a)
    | none => ((s.dropBuckets fun k _ => k == (j, b)).1, .ok)
/-- BUCKET_UNDEFINE. -/
def execBucketUndefine (h : CmdHdr) (p : List Byte) (s : State) : Res := .next (s.command 0x0407 h p bodyBucketUndefine)

/-- HBM_REPAIR: hard post-package repair (Table 10.1). The spec gives its parameters no layout; what they name is repaired (log 38). -/
def bodyHbmRepair : CmdBody := fun s _ _ p => ({ s with hubs := { s.hubs with repairs := s.hubs.repairs ++ [p] } }, .ok)
/-- HBM_REPAIR. -/
def execHbmRepair (h : CmdHdr) (p : List Byte) (s : State) : Res := .next (s.command 0x0A01 h p bodyHbmRepair)

/-- PART_DONE: the part-done message that comes next to coordinating hub h (R308). -/
def execPartDone (h : Fin 16) (s : State) : Res := .next (s.partArrives h)

/-- BUCKET_STALLED: the context of hub h for a bucket has been open for stall_ms (R311). -/
def execBucketStalled (h : Fin 16) (j : Nat) (b : Nat) (s : State) : Res :=
  .next (match s.rctx? h j b, s.bucket? j b with
    | some c, some x =>
      if c.stalled = false ∧ s.elapsed c.opened (msTicks (max 1 (s.get F.NMA_CTL_stall_ms h))) = true then
        (s.setRctx { c with stalled := true }).event
          { code := .bucketStalled, job := some j, sheet := some x.sheet, unit := h,
            params := [j, b, c.round, c.accepted, x.expected * s.partSize x h] }
      else s
    | _, _ => s)

/-- The context in the slot that NMA_CTX_SEL selects. -/
def State.selCtx (s : State) (h : Nat) : Option RCtx := (s.hubCtxs h).find? fun c => c.slot == some (s.get F.NMA_CTX_SEL_slot h)

/-- NMA_CTX_ACCEPTED: the read captures both counts; counts that break their bounds are a misclosure (R314). -/
def State.ctxCapture (s : State) (h : Nat) : State :=
  match s.selCtx h with
  | none => (s.set F.NMA_CTX_ACCEPTED_accepted h 0 0).set F.NMA_CTX_COMMITTED_committed h 0 0
  | some c =>
    let s := (s.set F.NMA_CTX_ACCEPTED_accepted h 0 c.accepted).set F.NMA_CTX_COMMITTED_committed h 0 c.committed
    if s.ctxBroken c then s.misclosure 3 c.inst (s.ctxCounts c) (some c.job) ((s.bucket? c.job c.bucket).map Bucket.sheet) else s
def execNmaCtxAccepted (h : Fin 16) (s : State) : Res := .next (s.ctxCapture h)

/-- NMA_ERR_INFO re-armed. -/
def execNmaErrInfo (h : Fin 16) (w : Word) (s : State) : Res := .next (s.rearm ⟨.NMA_ERR_INFO, h, 0⟩ w)

/-- MHB_UE_INFO re-armed. -/
def execMhbUeInfo (h : Fin 16) (w : Word) (s : State) : Res := .next (s.rearm ⟨.MHB_UE_INFO, h, 0⟩ w)

/-- Self refresh: while the stack's octant is in no sheet, and at service Level 0 (Table 10.1). -/
def State.selfRefresh (s : State) (h : Nat) : Bool := (s.octSheet (h / 2)).isNone || s.levelNow == 0

/-- PER_BANK_REFRESH: in service, outside self refresh (Table 10.1, R290). -/
def execPerBankRefresh (h : Fin 16) (s : State) : Res :=
  .next (if s.stackReady h && !s.selfRefresh h then s.setStack h { s.stack h with refreshed := s.datum } else s)

/-- RECALIBRATION: the next channel of the stack, every recal_interval seconds (R291). It changes time only. -/
def execRecalibration (h : Fin 16) (s : State) : Res :=
  let x := s.stack h
  .next (if s.stackReady h && s.elapsed x.recalAt (max 1 (s.get F.MHB_CTL_recal_interval h) * 1000000000) then
    s.setStack h { x with recalAt := s.datum, recalCh := (x.recalCh + 1) % 32 } else s)

end Sys2Proof.Machine
end

