-- ==== Sys2Proof/Machine/Startup.lean ====
section
/-! DEFINITION. The boot sequence (R478, R550 to R554, R568, R569) and the resets (R559 to R562). -/

namespace Sys2Proof.Machine

/-- STANDBY_POWER_VALID (R550): the boot ROMs of both dies start; it ends a cold reset (Table 21.7). -/
def execStandbyPowerValid (s : State) : Res := .next (if s.boot.standby then s else s.bootStart.resetDone 0)

/-! The boot ROM and the firmware (Table 18.2). -/

/-- A measurement extended by the digest of an item. -/
def extend (m digest : List Byte) : List Byte := sha384 (m ++ digest)

def State.setMeasures (s : State) (die : Nat) (l : List (List Byte)) : State :=
  if die = 0 then { s with sec := { s.sec with measures0 := l } } else { s with sec := { s.sec with measures1 := l } }
/-- Measurement k (from 1) of a die extended. -/
def State.measure (s : State) (die k : Nat) (digest : List Byte) : State :=
  let l := s.measures die
  s.setMeasures die (listSet l (k - 1) (extend (l.getD (k - 1) zero48) digest))

/-- The debug state is measured (R479); the bytes that stand for it are not given: free values. -/
def State.measureDebug (s : State) (die : Nat) : State :=
  let r := s.freeBytes 48
  r.1.measure die 7 r.2

/-- Steps 4 and 5 of Table 18.2 on a die that has verified its image and has main power. -/
def State.firmware (s : State) (die : Nat) : State :=
  match s.boot.verified.find die with
  | none => s
  | some (items, bench) =>
    let s : State := { s with boot := { s.boot with verified := s.boot.verified.del die } }
    if !bench then s.romFail die 1
    else
      let s := s.measure die 3 (items.getD 2 zero48)
      let s := match s.pw.active with
        | some o => s.measure die 4 (sha384 o)
        | none => s
      let s := ((s.measure die 5 (items.getD 4 zero48)).measure die 6 (items.getD 5 zero48)).measureDebug die
      let s := s.set F.CTC_STATUS_boot_step die 0 4
      { s with boot := { s.boot with ready := s.boot.ready ++ [die] } }

/-- Main power is requested at step 3 (R567), once the main rail has discharged (R569). -/
def State.requestMain (s : State) : State :=
  if s.boot.mainReq ∨ s.boot.charged ∨ s.boot.verified.isEmpty then s
  else ({ s with boot := { s.boot with mainReq := true, reqAt := s.datum } } : State).pin "MAIN_REQ" true

/-- The dies that wait for main power go on while it is there. -/
def State.mainSteps (s : State) : State :=
  if s.boot.mainOk then (([0, 1].foldl State.firmware s).chooseActive).relevel else s.requestMain

/-- BOOT_IMAGE_VERIFIED (R478 steps 1 to 3, R480): a boot ROM has read an image slot (false: A) with its SVN, and whether the signatures verify; behind
it the digests of the items of measurements 1 to 6 and whether the Benchmark table of the flash verifies. -/
def execBootImageVerified (die : Fin 2) (slot : Bool) (svn : BitVec 8) (ok : Bool) (items : List (List Byte)) (bench : Bool) (s : State) : Res :=
  .next (
    let d := die.val
    let tried := s.boot.triedA.contains d
    if s.romSt d != .run ∨ s.get F.CTC_STATUS_boot_step d ≠ 1 ∨ slot ≠ tried then s
    else if ok ∧ s.sec.svn ≤ svn.toNat then
      let s := (s.set F.CTC_STATUS_boot_step d 0 2).set F.CTC_SVN_running d 0 svn.toNat
      let s := (s.measure d 1 (items.getD 0 zero48)).measure d 2 (items.getD 1 zero48)
      ({ s with boot := { s.boot with verified := s.boot.verified.put d (items, bench), step := max 2 s.boot.step } } : State).mainSteps
    else if !slot then { s with boot := { s.boot with triedA := s.boot.triedA ++ [d] } }
    else (s.romFail d (if ok then 2 else 1)).chooseActive)

/-- The input has failed (R506, R568): the record in the standby log, every bus cut, and the restart. -/
def State.mainCut (s : State) : State := (s.event { code := .inputUndervolt, cls := some 5 }).deviceReset

/-- MAIN_OK (R568): it rises behind MAIN_REQ and the firmware starts, or it falls. -/
def execMainOk (level : Bool) (s : State) : Res :=
  .next (
    if level then
      if s.boot.mainReq && !s.boot.mainOk then
        ({ s with boot := { s.boot with mainOk := true, step := max 3 s.boot.step } } : State).mainSteps
      else s
    else if s.boot.mainReq && s.boot.mainOk then s.mainCut
    else { s with boot := { s.boot with mainOk := false } })

/-- MAIN_OK_TIMEOUT (R568): 50 ms after MAIN_REQ. -/
def execMainOkTimeout (s : State) : Res :=
  .next (
    if s.boot.mainReq && !s.boot.mainOk && s.elapsed s.boot.reqAt (msTicks 50) then
      let s := s.pin "MAIN_REQ" false
      let s := (s.set F.CTC_STATUS_boot_step 0 0 2).set F.CTC_STATUS_boot_step 1 0 2
      { s with boot := { s.boot with mainReq := false, charged := true, rom0 := .failed, rom1 := .failed, verified := [] } }
    else s)

/-- MAIN_RAIL_DISCHARGED (R569): VIN12_SNS has read below 1.0 V for 10 ms. -/
def execMainRailDischarged (s : State) : Res :=
  .next (if s.boot.mainReq then s else ({ s with boot := { s.boot with charged := false } } : State).requestMain)

/-- LEVEL_0_DEADLINE (R452, R552): 1 s after standby power. -/
def execLevel0Deadline (s : State) : Res :=
  .next (
    if s.boot.standby && !s.boot.late && s.elapsed s.boot.begun (msTicks 1000) then
      ({ s with boot := { s.boot with late := true } } : State).chooseActive
    else s)

/-! Die discovery and training (Table 21.1 steps 5 to 7). -/

/-- BOOT_STEP_FAIL (Table 21.8); the spec does not say which status it carries: a free value. -/
def State.stepFail (s : State) (step die : Nat) : State :=
  (s.event { code := .bootStepFail, die := die, params := [step, die, (Config.freeWord s.free).toNat % 65536] }).draw

/-- Every die of step 5 has answered or failed: the stacks of the working hubs train, all in parallel. -/
def State.discovered (s : State) : State :=
  if s.boot.step = 4 ∧ (List.range 62).all (fun d => s.boot.seen.contains d || s.dieDead d) then
    let s := (List.range 16).foldl (fun s h => if s.dieDead (dieMh h) then s else s.set F.MHB_STATUS_state h 0 1) s
    ({ s with boot := { s.boot with step := 5, since := s.datum } } : State).set F.CLK_STATUS_pll_lock 0 0 127
  else s

/-- DIE_DISCOVERY_REPORT (R553): identity and stepping as the fuse map has them, the self-test, and the enabled cores of a CD. -/
def execDieDiscoveryReport (d : Fin 64) (same selfTest coresOk : Bool) (s : State) : Res :=
  .next (
    if s.boot.step ≠ 4 ∨ !s.chtActive ∨ 62 ≤ d.val ∨ s.boot.seen.contains d.val ∨ s.dieDead d then s
    else
      let s : State := { s with boot := { s.boot with seen := s.boot.seen ++ [d.val] } }
      (if same && selfTest && (coresOk || decide (32 ≤ d.val)) then s else (s.dieFail d).stepFail 5 d).discovered)

/-- When the bus of a die came up, after step 4: octant buses one at a time, 2 ms each (Table 21.1). -/
def busUp (d : Nat) : Nat := match dieOctant d with
  | some k => 2 * (k + 1)
  | none => 0

/-- DIE_DISCOVERY_TIMEOUT (R553): no answer within 5 ms of the die's bus coming up. -/
def execDieDiscoveryTimeout (d : Fin 64) (s : State) : Res :=
  .next (
    if s.boot.step ≠ 4 ∨ !s.chtActive ∨ 62 ≤ d.val ∨ s.boot.seen.contains d.val ∨ s.dieDead d ∨ !s.elapsed s.boot.since (msTicks (busUp d + 5)) then s
    else ((s.dieFail d).stepFail 5 d).discovered)

/-- Step 7 (R554): the reserved pools are created in sized mode once every stack has trained or failed, or 120 ms after step 5: nothing waits for a
stack that falls back. -/
def State.bootPools (s : State) : State :=
  if s.boot.step = 5 ∧ ((List.range 16).all (fun h => s.get F.MHB_STATUS_state h ≠ 1) ∨ s.elapsed s.boot.since (msTicks 120)) then
    ({ s with boot := { s.boot with step := 7, since := s.datum, pools := some false } } : State).step8
  else s

/-- Soft post-package repair at retraining (Table 10.1): what the stack's code has been correcting stands repaired (DEDUCED, log 418). -/
def State.softRepair (s : State) (h : Nat) : State := { s with upsets := s.upsets.filter fun e => !(e.2 == false && decide (e.1 < 2 ^ 40) && e.1 / 2 ^ 36 == h) }

/-- HBM_TRAINING_COMPLETE (R287, R526): the rate reached (3 for 8.0, 2 for 6.4 and 1 for 4.8 Gb/s; 0 for none). A FAILED stack takes its octant. -/
def execHbmTrainingComplete (h : Fin 16) (rate : Fin 4) (s : State) : Res :=
  .next (
    let n := h.val
    if s.get F.MHB_STATUS_state n ≠ 1 then s
    else
      let again := s.pw.retry.contains n
      let s : State := { s with pw := { s.pw with retry := s.pw.retry.erase n } }
      let s := if 0 < rate.val then
          let s := if again then s.softRepair n else s
          let s := ((s.set F.MHB_STATUS_state n 0 2).set F.MHB_STATUS_rate n 0 rate).setStack n { s.stack n with refreshed := s.datum, recalAt := s.datum }
          if rate.val < 3 then s.event { code := .hbmDegraded, unit := n, die := dieMh n, params := [rate] } else s
        else
          let sh := s.octSheet (n / 2)
          let s := (s.set F.MHB_STATUS_state n 0 3).set F.MHB_STATUS_rate n 0 0
          let s := s.event { code := .hbmFailed, sheet := sh, unit := n, die := dieMh n }
          let s := if again then s else s.stepFail 6 (dieMh n)
          let s := s.octFail [n / 2]
          match sh with
          | some i => ({ s with ev := { s.ev with fatal := s.ev.fatal ++ [i] } } : State).sweepFatal
          | none => s
      let s := if again then s.event { code := .contourRetrain, unit := n, die := dieMh n, params := [rate] } else s
      (s.bootPools).relevel)

/-- The ports that step 6 enables, and those in ETH mode (Table 21.2). -/
def State.bootPorts (s : State) : Nat × Nat := s.boot.config.getD (2 ^ 36 - 1, 0)

/-- PHOTONIC_SELF_TEST_COMPLETE (R550 step 6): an FD has brought its engine up and looped its lanes back; PORT_ENABLE is issued for its boot ports. -/
def execPhotonicSelfTestComplete (n : Fin 6) (ok : Bool) (s : State) : Res :=
  .next (
    let d := n.val
    if s.boot.step < 5 ∨ s.boot.photonic.contains d ∨ !s.fdWorks d ∨ s.boot.halted then s
    else if !ok then s.stepFail 6 (dieFd d)
    else
      let s : State := { s with boot := { s.boot with photonic := s.boot.photonic ++ [d] } }
      ((List.range 6).map fun k => 6 * d + k).foldl (fun s p =>
        if bitOf s.bootPorts.1 p && (s.port p).life.st == .off then
          s.startTraining p { Life.off with st := .starting, since := s.datum } (some (b2n (bitOf s.bootPorts.2 p))) true
        else s) s)

/-- A hub that holds a link table line which read back wrong fails (R554, R293). -/
def State.linkTableBad (s : State) (h l : Nat) : State :=
  let sh := s.octSheet (h / 2)
  let s := (s.lineUe h l ((Config.freeWord s.free).toNat % 256)).draw
  let s := (s.set F.MHB_STATUS_state h 0 3).event { code := .hbmFailed, sheet := sh, unit := h, die := dieMh h }
  (s.stepFail 9 (dieMh h)).octFail [h / 2]

/-- The link table entries of one more reserved pool in chain mode: its sized layout of 2 · 1 MiB, 16 · 64 KiB, 256 · 4 KiB and 512 · 512 B holds 1,088 cells of
4 KiB (DEDUCED, log 415). -/
def State.reservedLinks (s : State) : State :=
  match s.linkPlace 64 1088 with
  | some b => ({ s with boot := { s.boot with links := s.boot.links ++ [(b, 1088)] } } : State).draw
  | none => s

/-- LINK_TABLE_VERIFY (R554): 2 ms after step 8 the link table's entries have been written and read back, all right but those in the listed lines of
hubs; the reserved pools go to chain mode and boot is complete. -/
def execLinkTableVerify (bad : List (Fin 16 × BitVec 28)) (s : State) : Res :=
  .next (
    if s.boot.step ≠ 8 ∨ s.boot.complete ∨ !s.elapsed s.boot.since (msTicks 2) then s
    else
      let s := bad.foldl (fun s e => s.linkTableBad e.1 e.2.toNat) s
      let s : State := { s with boot := { s.boot with step := 9, since := s.datum, complete := true, pools := some true, links := [] } }
      let s := ((List.range 8).filter fun o => !s.boot.octDown.contains o).foldl (fun s _ => s.reservedLinks) s
      (s.event { code := .bootComplete, params := [s.get F.DTM_STATUS_state] }).relevel)

/-! Resets. -/

/-- RESET_N (R569): a low pulse of so many µs. -/
def execResetN (us : Nat) (s : State) : Res := .next (if 100 ≤ us ∧ s.boot.standby then s.deviceReset else s)

/-- PERST (R562): PERST# of one die's port. -/
def execPerst (die : Fin 2) (s : State) : Res := .next (s.functionReset die)

/-- FUNCTION_LEVEL_RESET (R562). -/
def execFunctionLevelReset (die : Fin 2) (s : State) : Res := .next (s.functionReset die)

/-- COLD_RESET (Table 21.7): 3.3 V standby is lost. -/
def execColdReset (s : State) : Res := .next (s.wiped true)

/-- The level of ALERT_N (R570): low while the level is below 3, the power manager holds stage 4 or 5, a die is lowered under R514, or an event of class
fatal-to-device has occurred since the last device reset. -/
def State.alertN (s : State) : Bool :=
  !(decide (s.boot.level < 3) || decide (4 ≤ s.get F.PWR_STATUS_stage) || !s.pw.heat.isEmpty ||
    !s.pw.caps.isEmpty || decide (0 < s.get F.EVT_CLASS_CNT_events 0 5))

end Sys2Proof.Machine
end

