-- ==== Sys2Proof/Machine/Power.lean ====
section
/-! DEFINITION. The power manager (R505 to R512), heat (R290, R513 to R515), the overlay (R518 to R521), Contour (R522 to R526) and the laser inputs (R579). -/

namespace Sys2Proof.Machine

/-! The overlay (R519 to R521). -/

/-- The range of an overlay parameter on B1 and its number of indices (Table 19.8). -/
def overlayParam (id : Nat) : Option (Int × Int × Nat) :=
  match id with
  | 1 => some (-12, 20, 32)
  | 2 => some (-600, 0, 32)
  | 3 => some (-20, 0, 6)
  | 4 => some (-3, 3, 36)
  | 5 => some (0, 1, 16)
  | _ => none

/-- A delta clamped to the published range (R519). -/
def clampTo (r : Int × Int) (x : Int) : Int := max r.1 (min r.2 x)

/-- The entries of an overlay: parameter, index and delta. -/
def overlayEntries (o : List Byte) : List (Nat × Nat × Int) :=
  (List.range (uAt o 2 2)).map fun k => (uAt o (64 + 8 * k) 1, uAt o (65 + 8 * k) 1, sInt 32 (uAt o (68 + 8 * k) 4))

/-- The serial of an overlay. -/
def overlaySerial (o : List Byte) : Nat := uAt o 8 8

def clampedEntry (e : Nat × Nat × Int) : Int :=
  match overlayParam e.1 with
  | some (lo, hi, _) => clampTo (lo, hi) e.2.2
  | none => 0

/-- How many deltas of an overlay the clamp changes. -/
def overlayClamped (o : List Byte) : Nat := ((overlayEntries o).filter fun e => clampedEntry e != e.2.2).length

/-- The delta in force for a parameter (R519, R521); the last entry of an overlay that names it twice. -/
def State.overlay (s : State) (id idx : Nat) : Int :=
  match s.pw.active with
  | none => 0
  | some o => match ((overlayEntries o).filter fun e => e.1 == id && e.2.1 == idx).getLast? with
    | some e => clampedEntry e
    | none => 0

/-- The data of OVERLAY_LOAD keep R520 and Table 19.8. -/
def overlayOk (d : List Byte) : Bool :=
  let n := uAt d 2 2
  decide (64 ≤ d.length) && uAt d 0 1 == 1 && zeros d 1 1 && decide (n ≤ 256) && zeros d 4 4 && d.length == 64 + 8 * n + 96 + 4627 &&
  (List.range n).all fun k => zeros d (66 + 8 * k) 2 && match overlayParam (uAt d (64 + 8 * k) 1) with
    | some (_, _, m) => decide (uAt d (65 + 8 * k) 1 < m) && (uAt d (64 + 8 * k) 1 != 2 || decide (sInt 32 (uAt d (68 + 8 * k) 4) % 25 = 0))
    | none => false

/-- OVERLAY_LOAD (R520, R521); sig is whether both signatures verify. -/
def bodyOverlayLoad (sig : Bool) : CmdBody := fun s o _ p =>
    match s.takePart 0x0801 (s.trueSrc o.src) p with
    | (s, .error a) => (s, a)
    | (s, .ok d) =>
      match firstFail [(overlayOk d, Ans.badP 16), (!s.sec.owners.isEmpty, .st .ownerAbsent), (bytesAt d 16 48 == s.sec.target, .st .manifestTarget),
          (sig, .st .tokenInvalid), (match s.pw.stored with
            | some x => decide (overlaySerial x < overlaySerial d)
            | none => true, .st .manifestRevoked)] with
      | some a => (s, a)
      | none => ({ s with pw := { s.pw with stored := some d } }, .data (leBytes 2 (overlayClamped d)))
def execOverlayLoad (h : CmdHdr) (p : List Byte) (sig : Bool) (s : State) : Res := .next (s.command 0x0801 h p (bodyOverlayLoad sig))

/-- OVERLAY_CLEAR (R521). -/
def bodyOverlayClear : CmdBody := fun s _ _ p =>
    match firstFail [lenIs p 0] with
    | some a => (s, a)
    | none => ({ s with pw := { s.pw with stored := none } }, .ok)
def execOverlayClear (h : CmdHdr) (p : List Byte) (s : State) : Res := .next (s.command 0x0802 h p bodyOverlayClear)

/-! Voltages and the CCLK (R519). -/

def State.agedOf (s : State) (d : Nat) : Aged := s.pw.aged.getD d ⟨0, 0, 0, 0⟩
def State.setAged (s : State) (d : Nat) (x : Aged) : State := { s with pw := { s.pw with aged := s.pw.aged.put d x } }

/-- The effective fmax of a die: the factory's and the overlay's, less Contour's derating. -/
def State.fmax (s : State) (d : Nat) : Nat := ((Config.factoryFmax d : Int) + (if d < 32 then s.overlay 2 d else 0)).toNat - (s.agedOf d).derate

/-- The voltage that a CD would take at f MHz with a Contour guardband of g units of 1.25 mV, in units of 1.25 mV, rounded up, before the limit. -/
def State.wantUnits (s : State) (d f g : Nat) : Nat :=
  ceilDiv ((Config.vfCurve d f : Int) + Config.guardband d + s.overlay 1 d * 1250 + g * 1250).toNat 1250
/-- The limit of 0.950 V in the same units. -/
def maxUnits : Nat := 760

/-- The lowest CCLK to which a step of stage 1 goes. -/
def State.cclkFloor (s : State) : Nat := s.get F.PWR_LIMIT_cclk_floor_mhz

/-- The CCLK of a CD: what the power manager gives every CD, within the die's fmax and what heat leaves it. -/
def State.cclkOf (s : State) (d : Nat) : Nat :=
  let f := min s.pw.common (s.fmax d)
  match s.pw.caps.find d with
  | some c => min f c
  | none => f

/-- The voltage of a CD at f MHz, in mV (R519). -/
def State.voltage (s : State) (d f : Nat) : Nat := min maxUnits (s.wantUnits d f (s.agedOf d).guard) * 5 / 4

/-- The registers of every CD's clock follow. -/
def State.reclock (s : State) : State :=
  (List.range 32).foldl (fun s d =>
    let f := s.cclkOf d
    ((s.set F.CLK_CCLK_cclk_mhz 0 d f).set F.CLK_CCLK_mv 0 d (s.voltage d f)).set F.CLK_CCLK_thermal 0 d
      (b2n (s.pw.caps.has d))) s

/-- The stage of Table 19.2 that the clocks stand at. -/
def State.stageNow (s : State) : Nat :=
  if s.pw.halved then 5
  else if s.pw.common < s.cclkFloor then 4
  else if s.get F.CLK_STATUS_hclk_mhz < 1000 then 3
  else if s.get F.CLK_STATUS_xclk_mhz < 1200 then 2
  else if s.pw.common < 1500 then 1
  else 0
def State.restage (s : State) : State := s.reclock.set F.PWR_STATUS_stage 0 0 s.stageNow

/-! Power. -/

/-- The effective sustained and excursion limits (R505), at the input voltage last sampled. -/
def State.sustained (s : State) : Nat := min (s.get F.PWR_LIMIT_limit_w) (400 * s.get F.PWR_STATUS_input_mv / 1000)
def State.excLimit (s : State) : Nat := min 4900 (400 * s.get F.PWR_STATUS_input_mv / 1000)

/-- One clock lowered a step, in stage order (Table 19.2), and the stage reached. -/
def State.lowerOne (s : State) : State × Nat :=
  let s : State := { s with pw := { s.pw with lowered := s.datum } }
  let x := s.get F.CLK_STATUS_xclk_mhz
  let h := s.get F.CLK_STATUS_hclk_mhz
  let r := if s.cclkFloor < s.pw.common then ({ s with pw := { s.pw with common := max s.cclkFloor (s.pw.common - 25) } }, 1)
    else if 900 < x then (s.set F.CLK_STATUS_xclk_mhz 0 0 (max 900 (x - 100)), 2)
    else if 800 < h then (s.set F.CLK_STATUS_hclk_mhz 0 0 (max 800 (h - 100)), 3)
    else if 600 < s.pw.common then ({ s with pw := { s.pw with common := max 600 (s.pw.common - 25) } }, 4)
    else ({ s with pw := { s.pw with halved := true } }, 5)
  (r.1.restage, r.2)

/-- A throttling episode begins with its first step (R509): POWER_THROTTLE names the cause, for which the spec gives no codes (a free value), and the
stage. -/
def State.throttle (s : State) (limit : Nat) : State :=
  match s.pw.throttling with
  | some _ => { s with pw := { s.pw with throttling := some limit } }
  | none =>
    let r := ({ s with pw := { s.pw with throttling := some limit } } : State).lowerOne
    ((r.1.bump F.PWR_THROTTLE_CNT_power 0 0 1).event { code := .powerThrottle, params := [(Config.freeWord s.free).toNat, r.2] }).draw

/-- No excursion is in progress from now on, and the next may begin 100 ms later (R508). -/
def State.excursionOver (s : State) : State :=
  ({ s with pw := { s.pw with excursion := none, readyAt := s.datum + msTicks 100 } } : State).set F.PWR_STATUS_excursion 0 0 0

/-- Limits that POWER_LIMIT_SET has left for this sample (R507). -/
def State.newLimits (s : State) : State :=
  match s.pw.next with
  | none => s
  | some (w, e, f) =>
    (((({ s with pw := { s.pw with next := none } } : State).set F.PWR_LIMIT_limit_w 0 0 w).set F.PWR_LIMIT_excursion_ms 0 0 e).set F.PWR_LIMIT_cclk_floor_mhz 0 0 f)

/-- POWER_SAMPLE (R505, R507 to R509): the 10 µs averages of power, input voltage and input current. -/
def execPowerSample (w mv : BitVec 16) (a : BitVec 10) (s : State) : Res :=
  .next (
    let s := s.newLimits
    let s := ((s.set F.PWR_STATUS_power_w 0 0 w.toNat).set F.PWR_STATUS_input_mv 0 0 mv.toNat).set F.PWR_STATUS_input_a 0 0 a.toNat
    let s := s.restage
    let n := w.toNat
    if n ≤ s.sustained then
      let s := if s.pw.excursion.isSome || s.pw.throttling.isSome then s.excursionOver else s
      { s with pw := { s.pw with throttling := none } }
    else match s.pw.excursion with
      | some _ =>
        let s : State := match s.pw.throttling with
          | some l => if n ≤ l then { s with pw := { s.pw with throttling := none } } else s
          | none => s
        if s.excLimit ≤ n then s.throttle s.excLimit else s
      | none =>
        if s.pw.throttling.isNone && decide (s.pw.readyAt ≤ s.datum) && decide (0 < s.get F.PWR_LIMIT_excursion_ms) then
          let s := ({ s with pw := { s.pw with excursion := some s.datum } } : State).set F.PWR_STATUS_excursion 0 0 1
          if s.excLimit ≤ n then s.throttle s.excLimit else s
        else s.excursionOver.throttle s.sustained)

/-- EXCURSION_END (R508): excursion_ms have passed; throttling begins if the power is still over. -/
def execExcursionEnd (s : State) : Res :=
  .next (match s.pw.excursion with
    | some t =>
      if s.elapsed t (msTicks (s.get F.PWR_LIMIT_excursion_ms)) then
        let s := s.excursionOver
        if s.sustained < s.get F.PWR_STATUS_power_w then s.throttle s.sustained else s
      else s
    | none => s)

/-- THROTTLE_STEP (R509): every 10 µs of an episode, while the last average exceeds the limit enforced. -/
def execThrottleStep (s : State) : Res :=
  .next (match s.pw.throttling with
    | some l => if s.elapsed s.pw.lowered (usTicks 10) && decide (l < s.get F.PWR_STATUS_power_w) then s.lowerOne.1 else s
    | none => s)

/-- CLOCK_RAISE (R510): the reverse order of Table 19.2, one step per 100 µs with headroom. -/
def execClockRaise (s : State) : Res :=
  .next (
    let x := s.get F.CLK_STATUS_xclk_mhz
    let h := s.get F.CLK_STATUS_hclk_mhz
    let top := (List.range 32).foldl (fun m d => if s.dieDead d then m else max m (min 1800 (s.fmax d))) 0
    let room := fun (stage mhz : Nat) => decide (s.get F.PWR_STATUS_power_w + Config.sensitivity stage mhz + s.get F.PWR_LIMIT_hyst_w ≤ s.sustained)
    let hot := fun (lo hi : Nat) => s.pw.heat.any fun d => decide (lo ≤ d ∧ d < hi)
    if s.pw.throttling.isSome || !s.elapsed s.pw.raised (usTicks 100) || !s.elapsed s.pw.lowered (usTicks 100) then s
    else
      let r : Option State :=
        if s.pw.halved then if room 5 s.pw.common then some { s with pw := { s.pw with halved := false } } else none
        else if s.pw.common < s.cclkFloor then
          if room 4 s.pw.common then some { s with pw := { s.pw with common := min s.cclkFloor (s.pw.common + 25) } } else none
        else if h < 1000 ∧ !hot 32 48 then if room 3 h then some (s.set F.CLK_STATUS_hclk_mhz 0 0 (min 1000 (h + 100))) else none
        else if x < 1200 ∧ !hot 48 56 then if room 2 x then some (s.set F.CLK_STATUS_xclk_mhz 0 0 (min 1200 (x + 100))) else none
        else if s.pw.common < top then if room 1 s.pw.common then some { s with pw := { s.pw with common := min top (s.pw.common + 25) } } else none
        else none
      match r with
      | some s => ({ s with pw := { s.pw with raised := s.datum } } : State).restage
      | none => s)

/-- INPUT_UNDERVOLT (R506): below 10.8 V for 100 µs, every clock goes to its bound of stages 1 to 4. -/
def execInputUndervolt (s : State) : Res :=
  .next (
    let s : State := { s with pw := { s.pw with common := min s.pw.common 600, lowered := s.datum } }
    let s := (s.set F.CLK_STATUS_xclk_mhz 0 0 (min 900 (s.get F.CLK_STATUS_xclk_mhz))).set F.CLK_STATUS_hclk_mhz 0 0 (min 800 (s.get F.CLK_STATUS_hclk_mhz))
    s.restage.event { code := .inputUndervolt })

/-- MAIN_POWER_CUT (R506): below 10.5 V for 1 ms. -/
def execMainPowerCut (s : State) : Res := .next (if s.boot.mainOk then s.mainCut else s)

/-- OVERCURRENT (R512, R571): the stages cut every bus in hardware. -/
def execOvercurrent (s : State) : Res :=
  .next (
    if !s.boot.mainOk then s
    else
      let s := ((s.event { code := .overcurrent }).pin "THERMTRIP_N" false).powerOff
      { s with pw := { s.pw with tripPin := true } })

/-- POWER_LIMIT_SET (R507). -/
def bodyPowerLimitSet : CmdBody := fun s _ _ p =>
    let w := uAt p 0 4
    let e := uAt p 4 2
    let f := uAt p 6 2
    match firstFail [lenIs p 8, (decide (w = 0 ∨ (1000 ≤ w ∧ w ≤ 4600)), Ans.badP 0), (decide (e ≤ 10), .badP 4),
        (decide (600 ≤ f ∧ f ≤ 1500 ∧ f % 25 = 0), .badP 6)] with
    | some a => (s, a)
    | none => ({ s with pw := { s.pw with next := some (if w = 0 then 4200 else w, e, f) } }, .ok)
def execPowerLimitSet (h : CmdHdr) (p : List Byte) (s : State) : Res := .next (s.command 0x0800 h p bodyPowerLimitSet)

/-! Heat. -/

/-- The kind of a die for the limits of Table 19.8: CD, XD, MH, FD logic, photonic engine (64 + n of FD n), CH. -/
def heatKind (d : Nat) : Nat := if d < 32 then 0 else if d < 48 then 2 else if d < 56 then 1 else if d < 62 then 3 else if d < 64 then 5 else 4
/-- The effective limits of Table 19.5, in °C. -/
def State.throttleC (s : State) (d : Nat) : Nat := ((if heatKind d = 4 then 70 else 100 : Int) + s.overlay 3 (heatKind d)).toNat
def tripC (d : Nat) : Nat := if heatKind d = 4 then 80 else 115

/-- The CCLK of CD d lowered by heat, to a bound. -/
def State.coolCd (s : State) (d bound : Nat) : State :=
  { s with pw := { s.pw with caps := s.pw.caps.put d (max (min bound (s.cclkOf d)) (s.cclkOf d - 25)) } }
def State.coolOctant (s : State) (o bound : Nat) : State := (List.range 4).foldl (fun s c => s.coolCd (4 * o + c) bound) s

/-- THERMAL_THROTTLE on entry (R514). -/
def State.heatEvent (s : State) (d : Nat) : State := (s.bump F.PWR_THROTTLE_CNT_thermal 0 0 1).event { code := .thermalThrottle, unit := d, die := d }

/-- Whether an XD, an MH or a stack of octant o acts under R514. -/
def State.octantHot (s : State) (o : Nat) : Bool :=
  s.pw.heat.any (fun d => dieOctant d == some o) || (List.range 2).any fun h => (s.stack (2 * o + h)).hot

/-- A port that stops without a PORT_DISABLE (R515): the enable that STARTING owes is answered TORN_DOWN. -/
def State.portHalt (s : State) (p : Nat) : State :=
  let l := (s.port p).life
  match l.st with
  | .off => s
  | .stopping => s
  | _ => (s.portStop p { l with st := .stopping, step := 0, enable := none, since := s.datum }).tornDown l.enable.toList

/-- The photonic engine of FD n at t °C (R514, R515). -/
def State.photonicHeat (s : State) (n t : Nat) : State :=
  let lim := s.throttleC (64 + n)
  let was := s.pw.fdHot.contains n
  if t < lim then { s with pw := { s.pw with fdHot := s.pw.fdHot.erase n, fdTrip := s.pw.fdTrip.erase n } }
  else
    let s := if was then s else ({ s with pw := { s.pw with fdHot := s.pw.fdHot ++ [n] } } : State).event { code := .photonicHot, unit := n, die := dieFd n }
    if t < tripC (64 + n) ∨ s.pw.fdTrip.contains n then s
    else
      let s := ({ s with pw := { s.pw with fdTrip := s.pw.fdTrip ++ [n] } } : State).event { code := .thermalTrip, unit := n, die := dieFd n }
      (List.range 6).foldl (fun s k => s.portHalt (6 * n + k)) s

/-- An XD, MH or CH at t °C (R514): the clock of its kind, and the CCLK of its octant's CDs. -/
def State.kindHeat (s : State) (d t : Nat) : State :=
  let lim := s.throttleC d
  if lim ≤ t then
    let s := if s.pw.heat.contains d then s else ({ s with pw := { s.pw with heat := s.pw.heat ++ [d] } } : State).heatEvent d
    let s := if 48 ≤ d ∧ d < 56 then s.set F.CLK_STATUS_xclk_mhz 0 0 (max 900 (s.get F.CLK_STATUS_xclk_mhz - 100))
      else if d < 48 then s.set F.CLK_STATUS_hclk_mhz 0 0 (max 800 (s.get F.CLK_STATUS_hclk_mhz - 100))
      else s
    (match dieOctant d with
      | some o => s.coolOctant o s.cclkFloor
      | none => s).restage
  else if t + 5 < lim then { s with pw := { s.pw with heat := s.pw.heat.erase d } }
  else s

/-- A CD at t °C (R514). -/
def State.cdHeat (s : State) (d t : Nat) : State :=
  let lim := s.throttleC d
  if lim ≤ t then
    ((if s.pw.caps.has d then s else s.heatEvent d).coolCd d 600).restage
  else match s.pw.caps.find d with
    | some c =>
      if t + 5 < lim ∧ !s.octantHot (d / 4) then
        (if min s.pw.common (s.fmax d) ≤ c + 25 then { s with pw := { s.pw with caps := s.pw.caps.del d } } else { s with pw := { s.pw with caps := s.pw.caps.put d (c + 25) } } : State).restage
      else s
    | none => s

/-- THERMAL_SAMPLE (R513 to R515): the hottest sensor of a die in the order of R525, or of the photonic engine of FD n as 64 + n. -/
def execThermalSample (d : Fin 70) (t : BitVec 8) (s : State) : Res :=
  .next (
    let n := d.val
    let c := t.toNat
    let s : State := { s with pw := { s.pw with temps := s.pw.temps.put n (c, max c (s.pw.temps.getD n (0, 0)).2) } }
    if !s.boot.mainOk then s
    else if 64 ≤ n then s.photonicHeat (n - 64) c
    else if tripC n ≤ c then
      let s := (((s.event { code := .thermalTrip, cls := some 5, unit := n, die := n }).deviceReset).pin "THERMTRIP_N" false)
      { s with pw := { s.pw with tripPin := true } }
    else if n < 32 then s.cdHeat n c
    else if 56 ≤ n ∧ n < 62 then s
    else s.kindHeat n c)

/-- HBM_TEMPERATURE_READ (R290, R514): the hottest DRAM die of stack h. -/
def execHbmTemperatureRead (h : Fin 16) (d : BitVec 8) (s : State) : Res :=
  .next (
    let n := h.val
    let t := d.toNat
    if !s.stackReady n then s
    else
      let x := s.stack n
      let s := s.set F.MHB_STATUS_dram_temp n 0 t
      let hot := decide (95 < t) || (x.hot && decide (90 ≤ t))
      let s := s.setStack n { x with double := decide (85 < t), hot := hot }
      let s := if hot && !x.hot then (s.event { code := .hbmHot, unit := n, die := dieMh n }).heatEvent (dieMh n) else s
      if hot then (s.coolOctant (n / 2) 600).restage else s)

/-! Contour. -/

/-- Readings of a die: degradation and slack. -/
def State.readDie (s : State) (d degr : Nat) (slack : Int) : State := s.setAged d { s.agedOf d with degr := degr, slack := slack }

/-- A CD's slack is below 5 ps (R523). -/
def State.marginLow (s : State) (d : Nat) : State :=
  let x := s.agedOf d
  let s := if s.wantUnits d (s.fmax d) (x.guard + 8) ≤ maxUnits then s.setAged d { x with guard := x.guard + 8 } else s.setAged d { x with derate := x.derate + 25 }
  s.reclock.event { code := .contourMarginLow, unit := d, die := d }

/-- CONTOUR_SAMPLE (R522, R523): degradation and slack of dies, and the eyes (height, width) of lanes of ports. -/
def execContourSample (dies : List (Fin 56 × BitVec 32 × BitVec 16)) (eyes : List (Fin 36 × Fin 8 × BitVec 16 × BitVec 16)) (s : State) : Res :=
  .next (
    if s.get F.CTR_CTL_enable = 0 ∨ !s.elapsed s.pw.sampled (max 1 (s.get F.CTR_CTL_sample_s) * 1000000000) then s
    else
      let s : State := { s with pw := { s.pw with sampled := s.datum } }
      let s := eyes.foldl (fun s e => if s.portUp e.1 then
          s.setReg ⟨.FPT_LANE_MARGIN, e.1.val, e.2.1.val⟩ (BitVec.ofNat 64 (e.2.2.1.toNat * 2 ^ 16 + e.2.2.2.toNat))
        else s) s
      dies.foldl (fun s e => if s.dieDead e.1 then s else
        let s := s.readDie e.1 e.2.1.toNat e.2.2.toInt
        if e.1.val < 32 ∧ e.2.2.toInt < 5 then s.marginLow e.1 else s) s)

/-- fmax lowered in steps of 25 MHz until the voltage at it fits (R524). -/
def State.derateTo (s : State) (d : Nat) : Nat → State
  | 0 => s
  | n + 1 => if s.wantUnits d (s.fmax d) (s.agedOf d).guard ≤ maxUnits then s else (s.setAged d { s.agedOf d with derate := (s.agedOf d).derate + 25 }).derateTo d n

/-- One CD re-planned (R524). -/
def State.replanCd (s : State) (d : Nat) : State :=
  let x := s.agedOf d
  let want := ceilDiv (Config.guardband d * x.degr * s.get F.CTR_CTL_gain) (1000000 * 256 * 1250)
  if want ≤ x.guard then s
  else
    let s := s.setAged d { x with guard := min want (x.guard + 4) }
    let f := s.fmax d
    let s := s.derateTo d 80
    if s.fmax d < f then s.event { code := .contourDerate, unit := d, die := d, params := [d, s.fmax d] } else s

/-- CONTOUR_REPLAN (R524): a raise applies at once at the frequency that the die has; the power manager follows a lowered fmax at its next sample. -/
def execContourReplan (s : State) : Res :=
  .next (
    if s.get F.CTR_CTL_enable = 0 ∨ !s.elapsed s.pw.planned (max 3600 (s.get F.CTR_CTL_replan_s) * 1000000000) then s
    else
      let s := (({ s with pw := { s.pw with planned := s.datum } } : State).bump F.CTR_STATUS_replans 0 0 1)
      (List.range 32).foldl (fun s d => if s.dieDead d then s else
        let s := s.replanCd d
        s.set F.CLK_CCLK_mv 0 d (s.voltage d (s.get F.CLK_CCLK_cclk_mhz 0 d))) s)

/-- A port with a lane below its Benchmark threshold, and a stack with more than 16 corrected lines in an hour (R526). -/
def State.portFlagged (s : State) (p : Nat) : Bool :=
  (List.range 8).any fun l => match s.regs.find ⟨.FPT_LANE_MARGIN, p, l⟩ with
    | some w => decide (fld w 31 16 < Config.eyeHeight p l) || decide (fld w 15 0 < Config.eyeWidth p l)
    | none => false
def State.stackFlagged (s : State) (h : Nat) : Bool := decide (16 < ((s.stack h).corrected.filter fun t => decide (s.datum < t + 3600 * 1000000000)).length)

/-- The projected margin of a die: more than 655 years before a sample has found any degradation. -/
def State.dieYears (s : State) (d : Nat) : Nat :=
  let x := s.agedOf d
  if x.degr = 0 then 0xFFFF else (Config.years d x.degr x.guard).toNat

/-- The age map (R525). The smallest eye of a port stands in the form of FPT_LANE_MARGIN. -/
def State.ageMap (s : State) : List Byte :=
  ((List.range 64).flatMap fun d =>
    let x := s.agedOf d
    leBytes 4 (min x.degr (2 ^ 32 - 1)) ++ leBytes 2 (toBits 16 x.slack) ++ leBytes 2 x.guard ++ leBytes 2 (s.fmax d) ++ leBytes 2 (s.dieYears d) ++ List.replicate 4 0) ++
  ((List.range 36).flatMap fun p =>
    let lanes := (List.range 8).map fun l => s.reg ⟨.FPT_LANE_MARGIN, p, l⟩
    let least := fun (hi lo : Nat) => lanes.foldl (fun m w => min m (fld w hi lo)) 65535
    leBytes 8 (least 31 16 * 2 ^ 16 + least 15 0))

/-- CONTOUR_REPORT (R525). -/
def bodyContourReport : CmdBody := fun s _ _ p =>
    match firstFail [lenIs p 0] with
    | some a => (s, a)
    | none => (s, .data s.ageMap)
def execContourReport (h : CmdHdr) (p : List Byte) (s : State) : Res := .next (s.command 0x0803 h p bodyContourReport)

/-- RETRAIN_SCHEDULE (R526). -/
def bodyRetrainSchedule : CmdBody := fun s _ _ p =>
    match firstFail [lenIs p 22, (decide (uAt p 12 8 < 2 ^ 36), Ans.badP 12)] with
    | some a => (s, a)
    | none => ({ s with pw := { s.pw with window := some (uAt p 0 8, uAt p 8 4, uAt p 12 8, uAt p 20 2) } }, .ok)
def execRetrainSchedule (h : CmdHdr) (p : List Byte) (s : State) : Res := .next (s.command 0x0804 h p bodyRetrainSchedule)

/-- RETRAIN_WINDOW (R526): within the window, the next flagged UP port of its mask goes to RETRAINING once none that Contour moved is there, and each
flagged stack of its mask whose octant is in no sheet is trained. -/
def execRetrainWindow (s : State) : Res :=
  .next (match s.pw.window with
    | none => s
    | some (t, ms, pm, hm) =>
      if s.datum < t ∨ t + msTicks ms ≤ s.datum ∨ s.get F.CTR_CTL_enable = 0 then s
      else
        let hs := (List.range 16).filter fun h => bitOf hm h && s.stackFlagged h && s.stackReady h && (s.octSheet (h / 2)).isNone
        let s := hs.foldl (fun s h => (s.set F.MHB_STATUS_state h 0 1).setStack h { s.stack h with corrected := [] }) s
        let port := if s.pw.contour.isSome then none else (List.range 36).find? fun p => bitOf pm p && s.portUp p && s.portFlagged p
        let s : State := { s with pw := { s.pw with retry := s.pw.retry ++ hs, contour := port.or s.pw.contour, window := some (t, ms, (match port with
          | some p => setBits pm p p 0
          | none => pm), hm - sumOf hs fun h => 2 ^ h) } }
        (match port with
          | some p => s.retrain p
          | none => s).relevel)

/-- LASER_INPUT_LOW (R579): the inputs of FD n that have read below 16.0 dBm for 10 ms, and those outside the range of Table 22.9. Ports that lose their
input take a spare, the lower-numbered first, and retrain. -/
def execLaserInputLow (n : Fin 6) (low out : BitVec 8) (s : State) : Res :=
  .next (
    let d := n.val
    let others := fun (l : List Nat) => l.filter fun k => k / 8 != d
    let mine := fun (m : BitVec 8) => ((List.range 8).filter fun k => m.getLsbD k).map fun k => 8 * d + k
    let s : State := { s with pw := { s.pw with dark := others s.pw.dark ++ mine low, out := others s.pw.out ++ mine (low ||| out) } }
    (List.range 6).foldl (fun s k =>
      let p := 6 * d + k
      if (s.port p).life.st == .off || s.portLit p then s
      else
        let s : State := match s.freeSpare d with
          | some j => { s with pw := { s.pw with spare := s.pw.spare.put p j } }
          | none => s
        s.retrain p) s)

end Sys2Proof.Machine
end

