-- ==== Sys2Proof/Machine/Sheets.lean ====
section
/-! DEFINITION. The commands of chapter 13: sheets, contexts, the switch of a sheet's cores, watchdogs, semaphores and the serving
step composer; and SHEET_RESET of chapter 21. -/

namespace Sys2Proof.Machine

/-- A command that names a sheet which is not ON (log 40). -/
def State.needOn (s : State) (h : CmdHdr) : Bool × Ans := (s.sheetOn h.sheet.toNat, .bad 16)

def isPow2 (n : Nat) : Bool := n != 0 && n &&& (n - 1) == 0

/-! Sheets. -/

/-- SHEET_CREATE (R366, Table 13.3). -/
def bodySheetCreate : CmdBody := fun s _ h p =>
    let i := uAt p 0 1
    let q := uAt p 4 4
    let g := uAt p 12 4
    match firstFail [lenIs p 16, (decide (i < 8), .badP 0), ([1, 2, 4, 8].contains (uAt p 1 1), .badP 1), (decide (uAt p 2 1 ≤ 4), .badP 2),
        (zeros p 3 1, .badP 3), (q == 0 || (decide (100 ≤ q ∧ q ≤ 1000000)), .badP 4), (decide (uAt p 8 2 ≤ 60000), .badP 8),
        (decide (uAt p 10 2 ≤ 60000), .badP 10), (g == 0 || (isPow2 g && decide (g ≤ 2 ^ 26)), .badP 12)] with
    | some a => (s, a)
    | none =>
      let x := s.sheet i
      let r := x.life.doEnable (mkPacket h 0x0200 p) .sheetExists s.datum
      match x.life.st with
      | .off => s.sheetBegin i (mkPacket h 0x0200 p) r.1
      | _ => (s.setSheet i { x with life := r.1 }, r.2.1)
def execSheetCreate (h : CmdHdr) (p : List Byte) (s : State) : Res := .next (s.command 0x0200 h p bodySheetCreate)

/-- SHEET_DESTROY (R367). -/
def bodySheetDestroy : CmdBody := fun s o h p =>
    let i := h.sheet.toNat
    match firstFail [lenIs p 0, needSheet h, ((s.ctxsOf i).isEmpty, .st .sheetBusy)] with
    | some a => (s, a)
    | none =>
      let x := s.sheet i
      if x.life.st = .off then (s, .ok)
      else
        let r := x.life.doDisable o .ok s.datum
        let s := s.setSheet i { x with life := r.1, serve := if r.2.2.2 then none else x.serve }
        let s := s.tornDown r.2.2.1
        (if r.2.2.2 then s.sheetStop1 i else s, r.2.1)
def execSheetDestroy (h : CmdHdr) (p : List Byte) (s : State) : Res := .next (s.command 0x0201 h p bodySheetDestroy)

/-- STARTING is done. -/
def execSheetStartingComplete (i : Fin 8) (s : State) : Res := .next (if (s.sheet i).life.st = .starting then s.sheetStarted i else s)

/-- STOPPING is done: the sheet's pools are OFF and everything of it is zeroized. -/
def execSheetStoppingComplete (i : Fin 8) (s : State) : Res :=
  .next (if (s.sheet i).life.st = .stopping ∧ !s.sheetWaits i then s.sheetStopped i else s)

/-- SHEET_RESET (R561): STOPPING, with the sheet's own last creation behind it. -/
def bodySheetReset : CmdBody := fun s _ h p =>
    let i := h.sheet.toNat
    let x := s.sheet i
    match firstFail [lenIs p 0, needSheet h, (x.life.st != LifeSt.off, .bad 16), (x.life.deferred.isNone, .st .deferPending)] with
    | some a => (s, a)
    | none =>
      let s := s.sheetEnd i
      let y := s.sheet i
      (s.setSheet i { y with life := { y.life with deferred := some (mkPacket h 0x0207 x.params) } }, .later true)
def execSheetReset (h : CmdHdr) (p : List Byte) (s : State) : Res := .next (s.command 0x0207 h p bodySheetReset)

/-! Contexts. -/

/-- CONTEXT_CREATE (R368, Table 13.5). -/
def bodyContextCreate : CmdBody := fun s _ h p =>
    let i := h.sheet.toNat
    let c := uAt p 0 1
    let n := uAt p 4 4
    let a := uAt p 8 8
    let q := uAt p 16 4
    match firstFail [lenIs p 24, needSheet h, s.needOn h, (decide (c < 16), .badP 0), (decide (uAt p 1 1 < 16), .badP 1),
        (decide (1 ≤ n ∧ n ≤ 65536), .badP 4), (a % 64 == 0 && decide (a + 64 + 8 * n ≤ (s.sheet i).usable), .badP 8),
        (q == 0 || decide (100 ≤ q ∧ q ≤ 1000000), .badP 16), (decide (uAt p 20 2 ≤ 16), .badP 20), (decide (uAt p 22 2 ≤ 60000), .badP 22)] with
    | some a => (s, a)
    | none =>
      match s.ctx? i c with
      | none => s.ctxBegin i (mkPacket h 0x0202 p)
      | some x =>
        let r := x.life.doEnable (mkPacket h 0x0202 p) .contextExists s.datum
        (s.setCtx i c { x with life := r.1 }, r.2.1)
def execContextCreate (h : CmdHdr) (p : List Byte) (s : State) : Res := .next (s.command 0x0202 h p bodyContextCreate)

/-- R373: a u8 context index in use on the sheet, and 7 B of zero. -/
def State.ctxNamed (s : State) (h : CmdHdr) (p : List Byte) : List (Bool × Ans) :=
  [lenIs p 8, needSheet h, (decide (uAt p 0 1 < 16) && (s.ctx? h.sheet.toNat (uAt p 0 1)).isSome, .badP 0), (zeros p 1 7, .badP 1)]

/-- CONTEXT_DESTROY (R372). -/
def bodyContextDestroy : CmdBody := fun s o h p =>
    let i := h.sheet.toNat
    let c := uAt p 0 1
    match firstFail (s.ctxNamed h p), s.ctx? i c with
    | none, some x =>
      let r := x.life.doDisable o .ok s.datum
      let s := s.setCtx i c { x with life := r.1 }
      let s := s.tornDown r.2.2.1
      if r.2.2.2 then (((s.owe o true).ctxStop i c).drainAll, .sent) else (s, r.2.1)
    | some a, _ => (s, a)
    | none, none => (s, .badP 0)
def execContextDestroy (h : CmdHdr) (p : List Byte) (s : State) : Res := .next (s.command 0x0203 h p bodyContextDestroy)

/-- The scheduler looks at a sheet outside a boundary (R369, R374): it chooses where no context runs, and goes on with a kernel group that
waits for its next member. -/
def State.kick (s : State) (i : Nat) : State :=
  match (s.sheet i).run with
  | none => s.schedule i
  | some c =>
    match s.ctx? i c with
    | some x => if x.kernel.isNone && x.group.isSome && s.ringPending i x then State.runNext schedFuel s i c else s
    | none => s

/-- CONTEXT_RESUME (R373). -/
def bodyContextResume : CmdBody := fun s _ h p =>
    let i := h.sheet.toNat
    let c := uAt p 0 1
    match firstFail (s.ctxNamed h p), s.ctx? i c with
    | none, some x => (if x.st = .faulted then (s.setCtx i c { x with st := .idle }).kick i else s, .ok)
    | some a, _ => (s, a)
    | none, none => (s, .badP 0)
def execContextResume (h : CmdHdr) (p : List Byte) (s : State) : Res := .next (s.command 0x0204 h p bodyContextResume)

/-- KERNEL_DOORBELL (R369, R373). -/
def bodyKernelDoorbell : CmdBody := fun s _ h p =>
    let i := h.sheet.toNat
    match firstFail (s.ctxNamed h p) with
    | some a => (s, a)
    | none => ((s.readTail i (uAt p 0 1)).kick i, .ok)
def execKernelDoorbell (h : CmdHdr) (p : List Byte) (s : State) : Res := .next (s.command 0x0205 h p bodyKernelDoorbell)

/-! Switching (R378, R379). -/

/-- Whether engine work of the sheet that names a scratchpad byte is not complete (R378), or a core's remote operation has not been issued yet. -/
def State.scratchWork (s : State) (i : Nat) : Bool :=
  let x := s.exchOf i
  (s.ep.queues.any fun e => e.2.any fun q => q.sheet == i && if e.1.2 < 4 then namesScratch e.1.2 q.desc else decide (q.agent < s.collFirst i)) ||
  (s.surveys.any fun e => e.2.sheet == i && e.2.scr) || (s.plotRuns.any fun e => e.2.sheet == i && e.2.scr) ||
  (x.epochs.any fun e => (e.2.close.any fun d => inScratch d.1) || e.2.cancels.any fun w => match w with
    | .desc d _ => inScratch d
    | .packet _ => false) ||
  (x.batches.any fun b => !b.ended && [b.result, b.residA, b.logA, b.relayA, b.payload, b.done].any inScratch) ||
  (x.recvs.any fun r => !r.ended && [r.arrival, r.list, r.done].any inScratch) ||
  (x.rets.any fun r => inScratch r.done || r.groups.any fun g => g.status.isNone && g.data.any fun p => match p with
    | .mem _ a _ => inScratch a
    | .lit _ => false) ||
  (s.pools.any fun e => e.2.sheet == i && (e.2.waitCtl ++ e.2.waitReq).any fun r => inScratch r.result || inScratch r.doneAddr)

/-- The save may begin: no engine work names the scratchpads (R378), and no quantizer operation of the outgoing context is left
(R273). The incoming context is RUNNING from here (Table 13.6), the outgoing one until the switch is done (log 420). -/
def execContextSwitchStart (i : Fin 8) (s : State) : Res :=
  let x := s.sheet i
  .next (match x.switch with
    | some (out, c, false) =>
      if s.scratchWork i || s.quant.any (fun e => e.2.any fun m => m.kern.sheet == i) then s
      else
        let s := match s.ctx? i c with
          | some y => if y.st = CtxState.ready then s.setCtx i c { y with st := .running } else s
          | none => s
        s.setSheet i { x with switch := some (out, c, true) }
    | _ => s)

/-- Whether a key lies in the live-out bytes of a context's last kernel. -/
def State.liveKey (s : State) (i : Nat) (x : Context) (k : Nat) : Bool :=
  let c0 := s.homeCore i x.liveV.1
  decide (keyScr c0 0 ≤ k) && decide (k < keyScr (c0 + x.liveV.2) 0) && x.live.any fun e => decide (e.1 ≤ k % 2 ^ 24) && decide (k % 2 ^ 24 < e.1 + e.2)

/-- The bytes that a context's live-out map covers. -/
def Context.liveBytes (x : Context) : Nat := livePages x.live * 4096 * x.liveV.2

/-- Table 13.7 from the save on: saved, zeroed, restored, and the incoming context's next kernel starts. -/
def State.switchDone (s : State) (i : Nat) (out : Option Nat) (c : Nat) : State :=
  let old := out.bind fun o => (s.ctx? i o).map fun x => (o, x)
  let s1 := match old with
    | some (o, x) => s.setCtx i o { x with saved := s.mem.filter fun e => s.liveKey i x e.1 }
    | none => s
  let n1 := match old with
    | some (_, x) => x.liveBytes
    | none => 0
  let s := ((s1.switchedOut i out).scrZero i).bump F.SCH_SWITCH_CNT_switches 0 0 1
  match s.ctx? i c with
  | none =>
    let s := s.bump F.SCH_SAVE_BYTES_CNT_bytes 0 0 n1
    (s.setSheet i { s.sheet i with switch := none, last := none, run := none }).schedule i
  | some x =>
    let s := s.bump F.SCH_SAVE_BYTES_CNT_bytes 0 0 (n1 + x.liveBytes)
    let s := { s with mem := s.mem.setAll x.saved }
    let s := s.setCtx i c { x with saved := [] }
    if x.st = .running then
      State.runNext schedFuel (s.setSheet i { s.sheet i with switch := none, last := some c, run := some c, runSince := s.datum }) i c
    else (s.setSheet i { s.sheet i with switch := none, last := some c, run := none }).schedule i

/-- Save, zeroing and restore are done. -/
def execContextSwitchComplete (i : Fin 8) (s : State) : Res :=
  .next (match (s.sheet i).switch with
    | some (out, c, true) => s.switchDone i out c
    | _ => s)

/-! Watchdogs and semaphores (R376, R384). -/

/-- A core of a kernel that has neither completed END nor stopped. -/
def RunState.stoppable : RunState → Bool
  | .running => true
  | .blocked _ => true
  | _ => false

/-- A core stopped by the scheduler with a status, under R233. -/
def State.coreKill (s : State) (st : Status) (c : Nat) : State :=
  let x := s.core c
  if x.run.stoppable then
    let s := s.captureFault c st 0 x.pc
    let s := { s with ep := { s.ep with fences := s.ep.fences.filter fun f => match f.who with
      | .instr c' _ => c' != c
      | _ => true } }
    let id := match x.run with
      | .blocked (.ending id) => id
      | _ => none
    let s := s.setCore c { x with run := .draining id (some st) }
    s.noteFault x.kern.sheet x.kern.ctxIdx x.kern.vindex st
  else s

/-- A kernel of context c of sheet i, or its kernel group, has run for longer than its watchdog. -/
def State.overdue (s : State) (x : Context) : Bool :=
  (match x.kernel with
    | some k => s.elapsed k.started (msTicks k.watchMs + 1)
    | none => false) ||
  (match x.group with
    | some g => s.elapsed g.1 (msTicks g.2 + 1)
    | none => false)

def State.watchdogEvent (s : State) (i c : Nat) (x : Context) : State :=
  (s.bump F.SCH_WATCHDOG_CNT_expiries 0 0 1).event
    { code := .kernelWatchdog, job := some x.job, sheet := some i, status := some .watchdogExpired, unit := c }

/-- R376. -/
def execKernelWatchdog (i : Fin 8) (c : Fin 16) (s : State) : Res :=
  .next (match s.ctx? i c with
    | none => s
    | some x =>
      if !s.overdue x then s
      else match x.kernel with
        | some k =>
          let cs := s.kernelCores i k
          if cs.any fun c => (s.core c).run.stoppable then ((cs.foldl (fun s c => s.coreKill .watchdogExpired c) s).watchdogEvent i c x).drainAll
          else s
        | none =>
          -- a group between two members
          let s := s.setCtx i c { x with st := .faulted, group := none }
          (s.watchdogEvent i c x).schedule i)

/-- R384. -/
def execSemHoldExpired (i : Fin 8) (n : Fin 256) (s : State) : Res :=
  .next (match s.sems.find (i.val, n.val) with
    | none => s
    | some m =>
      if !s.elapsed m.since (msTicks (s.sheet i).holdMs + 1) then s
      else
        let s := s.semRelease i n
        let s := (s.bump F.SCH_SEM_FORCE_CNT_releases 0 0 1).event
          { code := .semHoldExpired, sheet := some i.val, status := some .semHoldExpired, unit := m.ctx, params := [i.val, n.val, m.ctx] }
        match s.ctx? i m.ctx with
        | none => s
        | some x =>
          if x.kernel.isSome then
            let y := s.core m.core
            let s := if y.run.stoppable ∧ y.kern.sheet = i.val ∧ y.kern.ctxIdx = m.ctx then s.coreKill .semHoldExpired m.core
              else s.noteFault i m.ctx (s.vindexOf i m.core) .semHoldExpired
            (s.stopKernel i m.ctx).drainAll
          else
            let s := s.setCtx i m.ctx { x with st := .faulted, group := none }
            if (s.sheet i).run = some m.ctx then s.schedule i else s)

/-! The serving step composer (R385 to R388). -/

/-- SERVE_SET (Table 13.9). -/
def bodyServeSet : CmdBody := fun s _ h p =>
    let i := h.sheet.toNat
    let budget := uAt p 0 4
    let n := uAt p 8 4
    let seqA := uAt p 16 8
    let planA := uAt p 24 8
    let slots := uAt p 7 1
    let lim := (s.sheet i).usable
    match firstFail [lenIs p 36, needSheet h, s.needOn h, (decide (budget ≤ 65536), .badP 0), (decide (uAt p 6 1 < 64), .badP 6),
        (decide (2 ≤ slots ∧ slots ≤ 16), .badP 7), (decide (1 ≤ n ∧ n ≤ 65536), .badP 8),
        (seqA % 32 == 0 && decide (seqA + 32 * n ≤ lim), .badP 16),
        (planA % 64 == 0 && decide (planA + 64 + slots * (64 + 8 * budget) ≤ lim), .badP 24), (decide (uAt p 32 4 ≤ 1000), .badP 32)] with
    | some a => (s, a)
    | none =>
      let x := s.sheet i
      if budget = 0 then (s.setSheet i { x with serve := none }, .ok)
      else if x.serve.isSome then (s, .st .deviceBusy)
      else
        let d := fun v e => if v = 0 then e else v
        let v : Serve := ⟨budget, d (uAt p 4 2) 512, uAt p 6 1, slots, n, uAt p 12 4, seqA, planA, d (uAt p 32 4) 20, s.datum, h.job.toNat⟩
        (s.setSheet i { x with serve := some v }, .ok)
def execServeSet (h : CmdHdr) (p : List Byte) (s : State) : Res := .next (s.command 0x0206 h p bodyServeSet)

/-- A sequence table entry (Table 13.10): index, state, ready, prompt_left, arrival, position. -/
structure SeqRow where
  idx : Nat
  st : Nat
  ready : Bool
  prompt : Nat
  arrival : Nat
  pos : Nat
  deriving DecidableEq, Repr

def State.seqRows (s : State) (i : Nat) (v : Serve) : List SeqRow :=
  (List.range v.seqCount).map fun n =>
    let a := v.seqAddr + 32 * n
    ⟨n, s.rdN i a 1, bitOf (s.rdN i (a + 1) 1) 0, s.rdN i (a + 4) 4, s.rdN i (a + 8) 8, s.rdN i (a + 16) 4⟩

/-- The prefill pass: chunks in order while the budget lasts (R386). -/
def takeChunks (limit : Nat) : List SeqRow → Nat → List (SeqRow × Nat)
  | [], _ => []
  | r :: l, left =>
    let n := min r.prompt (min limit left)
    if left = 0 then [] else (r, n) :: takeChunks limit l (left - n)

/-- A plan: its decode entries, then its chunks (R386, R387). -/
def planOf (v : Serve) (level : PLevel) (rows : List SeqRow) : List (SeqRow × Nat) × List (SeqRow × Nat) :=
  let order := sortBy (fun r => r.arrival * 65536 + r.idx)
  let dec := ((order (rows.filter fun r => r.st == 2 && r.ready)).take v.budget).map fun r => (r, 1)
  let pre := rows.filter fun r => r.st == 1 && r.prompt != 0 && level != .critical && !(level == .stop && r.pos == 0)
  (dec, takeChunks v.chunk (order pre) (v.budget - dec.length))

/-- The sequence table entry of a taken entry, advanced. -/
def State.seqAdvance (s : State) (i : Nat) (v : Serve) (e : SeqRow × Nat) : State :=
  let a := v.seqAddr + 32 * e.1.idx
  let s := s.writeN i (a + 16) 4 (e.1.pos + e.2)
  if e.1.st = 2 then s.writeN i (a + 1) 1 0
  else
    let s := s.writeN i (a + 4) 4 (e.1.prompt - e.2)
    if e.1.prompt = e.2 then s.write i a [2, 0] else s

/-- The composer composes if a slot is free and the plan holds a token (R388). -/
def State.compose (s : State) (i : Nat) : State :=
  match (s.sheet i).serve with
  | none => s
  | some v =>
    let produced := s.rdN i v.planAddr 8
    let consumed := s.rdN i (v.planAddr + 8) 8
    if v.slots ≤ (produced + 2 ^ 64 - consumed) % 2 ^ 64 then s
    else
      let pl := planOf v (s.pool v.kvPool).level (s.seqRows i v)
      let all := pl.1 ++ pl.2
      if all.isEmpty then s
      else
        let s := all.foldl (fun s e => s.seqAdvance i v e) s
        let slot := v.planAddr + 64 + produced % v.slots * (64 + 8 * v.budget)
        let head := leBytes 4 v.step ++ leBytes 4 (sumOf all (·.2)) ++ leBytes 4 pl.1.length ++ leBytes 4 all.length ++ List.replicate 48 0
        let s := s.write i slot (head ++ all.flatMap fun e => leBytes 8 (e.1.pos * 2 ^ 32 + e.2 * 2 ^ 16 + e.1.idx))
        let s := s.writeN i v.planAddr 8 (produced + 1)
        s.setSheet i { s.sheet i with serve := some { v with step := (v.step + 1) % 2 ^ 32 } }

/-- The composer looks every poll_us. -/
def execComposerPoll (i : Fin 8) (s : State) : Res :=
  .next (match (s.sheet i).serve with
    | some v =>
      if s.elapsed v.last (usTicks v.pollUs) then (s.setSheet i { s.sheet i with serve := some { v with last := s.datum } }).compose i else s
    | none => s)

end Sys2Proof.Machine
end

