-- ==== Sys2Proof/Machine/Tick.lean ====
section
/-! DEFINITION. One tick of the device with no command waiting: the Datum (R351, R352), the 1 ms of R547, the boot steps that end by time alone (R550, R554), the
stall time of Table 14.20, sheets that a fatal-to-sheet event has left due (R538), and what a PTP master sends of itself (R356). -/

namespace Sys2Proof.Machine

/-- A class of TC0 to TC5 for which the input has no credit outstanding in any lane: its sender can send nothing of it. -/
def Port.starved (x : Port) : Bool := (List.range 6).any fun c => (List.range 4).all fun l => x.outstanding (4 * c + l) == 0

/-- Each µs, the ports that stall. -/
def State.stallTick (s : State) : State :=
  if s.datum % 1000 ≠ 0 then s
  else
    let l := (List.range 36).filter fun p => s.portUp p && s.native p && (s.port p).starved
    { s with sw := { s.sw with stallUs := l.foldl (fun t p => t.upd p 0 (· + 1)) s.sw.stallUs } }

/-- A PTP master sends a two-step Sync with its Follow_Up each second and an Announce each 2 s, the intervals of the default profile; a clock whose best
foreign master has announced nothing for three of them knows it no more (R356). -/
def State.ptpTick (s : State) : State :=
  if !s.ptpOn then s
  else
    let s := if (s.clock.gm.any fun g => s.elapsed g.2 6000000000) then s.ptpRole none else s
    if s.clock.ptpSlave || s.get F.DTM_PTP_CFG_slave_only == 1 || s.datum % 1000000000 != 0 then s
    else
      let n := s.datum / 1000000000 % 65536
      let s := (s.ptpSend [0, n, 0]).ptpSend [8, n, s.ptpNow]
      if s.datum % 2000000000 = 0 then
        s.ptpSend [11, n, s.get F.DTM_PTP_CFG_priority1, Config.ptpQuality.toNat, s.get F.DTM_PTP_CFG_priority2, Config.ptpIdentity.toNat]
      else s

/-- An error comes about in a unit of memory, or none (R174, R292, R536; DESIGN CHOICE, log 416). One that has come about already and is not corrected stays
so. -/
def upsetInto (t : Tbl Nat Bool) : Option (Nat × Bool) → Tbl Nat Bool
  | some (k, bad) => t.upd (unitOf k) false fun b => b || bad
  | none => t
def State.upsetTick (s : State) : State := { s with upsets := upsetInto s.upsets (Config.upset s.free), free := s.free + 1 }

/-- One tick. -/
def State.tick (s : State) : State :=
  let s := s.advance.upsetTick
  let s := (s.step8).bootPools
  let s := (List.range 36).foldl State.auditExpire s
  ((s.stallTick).ptpTick).sweepFatal

end Sys2Proof.Machine
end

