-- ==== Sys2Proof/Machine/RegRead.lean ====
section
/-! DEFINITION. What a register reads as (R6, R7, Tables 2.12 to 20.16): the fields that show live state are formed here from that state;
every other register reads as stored. -/

namespace Sys2Proof.Machine

/-- A word with fields set. -/
def packF (w : Word) (l : List (Field × Nat)) : Word :=
  BitVec.ofNat 64 (l.foldl (fun x e => setBits x e.1.hi e.1.lo (e.2 % 2 ^ (e.1.hi + 1 - e.1.lo))) w.toNat)

/-- A word with a 1 at every bit of a field of the register. -/
def fieldMask (n : RegName) : Nat := (regRow n).fields.foldl (fun x f => setBits x f.hi f.lo (2 ^ (f.hi + 1 - f.lo) - 1)) 0

def State.queueUsed (s : State) (o q : Nat) : Nat := (s.ep.queues.getD (o, q) []).length
/-- Octant o is the first of its sheet. -/
def State.firstOct (s : State) (o : Nat) : Bool := match s.octSheet o with
  | some i => s.physOct i 0 == o
  | none => false
/-- The epoch that TRV_LET_SEL of octant o selects. -/
def State.letSel (s : State) (o : Nat) : Epoch := match s.octSheet o with
  | some i => if s.firstOct o then s.epochAt i (s.get F.TRV_LET_SEL_epoch o) else Epoch.free
  | none => Epoch.free
def State.octRouting (s : State) (o : Nat) : Routing := match s.octSheet o with
  | some i => s.routingOf i
  | none => Routing.reset

/-- The home position whose virtual core physical core p hosts beside its own (R200), if it lies in a sheet. -/
def State.guestOf (s : State) (p : Nat) : Option Nat :=
  (s.boot.fused.filter fun c => s.runner c == p && c != p && (s.octSheet (c / 32)).isSome).head?
/-- The register context that physical core p issues from. -/
def State.issuing (s : State) (p : Nat) : CoreCtx := match s.guestOf p with
  | some g => if s.guestOn.contains p || s.boot.fused.contains p then s.core g else s.core p
  | none => s.core p
def CoreCtx.inKernel (x : CoreCtx) : Bool := match x.run with
  | .idle => false
  | .ended _ => false
  | _ => true

def State.coreStatus (s : State) (p : Nat) : Word :=
  let x := s.issuing p
  let own := (s.core p).inKernel || (match s.guestOf p with
    | some g => (s.core g).inKernel
    | none => false)
  packF 0 [
    (F.CORE_STATUS_acc_busy, maskOf 4 fun t => x.mq.any fun e => match e.2 with
      | .mpass _ _ _ _ tile _ _ _ _ => tile == t
      | _ => false),
    (F.CORE_STATUS_shadow_invalid, b2n ((x.shadow.map fun t => t.viol.isSome).getD false)),
    (F.CORE_STATUS_load_busy, b2n x.load.isSome), (F.CORE_STATUS_hosting, b2n (s.guestOf p).isSome), (F.CORE_STATUS_running, b2n own)]

def State.coreGraticule (s : State) (p : Nat) : Word :=
  packF 0 [
    (F.CORE_GRATICULE_fused, b2n (s.boot.fused.contains p)), (F.CORE_GRATICULE_host, s.runner p),
    (F.CORE_GRATICULE_guest_valid, b2n (s.guestOf p).isSome),
    (F.CORE_GRATICULE_guest, match s.guestOf p with
      | some g => (match s.octSheet (g / 32) with
        | some i => s.vindexOf i g
        | none => 0)
      | none => 0),
    (F.CORE_GRATICULE_vindex, match s.octSheet (p / 32) with
      | some i => s.vindexOf i p
      | none => 0)]

/-- A pool's register on the page of octant o, the octant where it is homed. -/
def State.poolOn (s : State) (o p : Nat) : Option Pool :=
  let x := s.pool p
  if x.present ∧ s.poolOct x = o then some x else none

def LifeSt.code : LifeSt → Nat
  | .off => 0
  | .starting => 1
  | .on => 2
  | .stopping => 3

def State.poolCfg (s : State) (o p : Nat) : Word := match s.poolOn o p with
  | none => 0
  | some x => packF 0 [
      (F.BPM_POOL_CFG_link_base, x.linkBase), (F.BPM_POOL_CFG_level, x.level.code), (F.BPM_POOL_CFG_state, x.life.st.code),
      (F.BPM_POOL_CFG_cell_code, x.code), (F.BPM_POOL_CFG_location, b2n x.xd), (F.BPM_POOL_CFG_mode, b2n x.sized), (F.BPM_POOL_CFG_sheet, x.sheet)]
/-- A pool that is absent has no home page, and the register reads as at reset (DESIGN CHOICE, log 414). -/
def State.poolThresh (s : State) (o p : Nat) (w : Word) : Word := match s.poolOn o p with
  | none => if (s.pool p).present then 0 else w
  | some x => packF w [
      (F.BPM_POOL_THRESH_capacity, x.capacity), (F.BPM_POOL_THRESH_hyst_pct, x.hyst), (F.BPM_POOL_THRESH_crit_pct, x.crit),
      (F.BPM_POOL_THRESH_stop_pct, x.stop), (F.BPM_POOL_THRESH_warn_pct, x.warn)]

def State.nmaStatus (s : State) (h : Nat) : Word :=
  let l := s.hubCtxs h
  packF 0 [
    (F.NMA_STATUS_parked, (l.filter fun c => c.slot.isNone).length), (F.NMA_STATUS_spilled, (l.filter fun c => c.slot.isSome && c.spilled).length),
    (F.NMA_STATUS_resident, (l.filter fun c => c.slot.isSome && !c.spilled).length), (F.NMA_STATUS_staging_free, s.stagingFree h / 1024)]

def State.nmaInfo (s : State) (h : Nat) : Word := match s.selCtx h with
  | none => 0
  | some c => packF 0 [
      (F.NMA_CTX_INFO_state, if c.spilled then 2 else 1), (F.NMA_CTX_INFO_mode, b2n c.exact), (F.NMA_CTX_INFO_nan_seen, b2n c.nan.isSome),
      (F.NMA_CTX_INFO_nan_source, c.nan.getD 0), (F.NMA_CTX_INFO_round, c.round)]

def State.sheetCfg (s : State) (i : Nat) : Word :=
  let x := s.sheet i
  if x.life.st = .off then 0
  else packF 0 [
    (F.SHT_CFG_coll_cores, x.coll), (F.SHT_CFG_octant_mask, maskOf 8 fun k => decide (i * x.m ≤ k ∧ k < i * x.m + x.m)), (F.SHT_CFG_octants, x.m),
    (F.SHT_CFG_state, x.life.st.code)]

def Context.code (x : Context) : Nat := match x.life.st, x.st with
  | .starting, _ => 5
  | .stopping, _ => 6
  | .off, _ => 0
  | .on, .idle => 1
  | .on, .ready => 2
  | .on, .running => 3
  | .on, .faulted => 4

def State.ctxStateReg (s : State) (i c : Nat) : Word := match s.ctx? i c with
  | none => 0
  | some x => packF 0 [
      (F.SCH_CTX_STATE_job, x.job), (F.SCH_CTX_STATE_sems_held, (s.semsHeld i c).length), (F.SCH_CTX_STATE_eff_priority, s.effPrio i c),
      (F.SCH_CTX_STATE_priority, x.prio), (F.SCH_CTX_STATE_reprojection, b2n x.reproj), (F.SCH_CTX_STATE_state, x.code)]

def State.switchStatus (s : State) : Word :=
  packF 0 [
    (F.SWC_STATUS_device_id, s.sw.devId), (F.SWC_STATUS_table_state, if s.sw.copying.isSome then 1 else if s.sw.drains.isEmpty then 0 else 2),
    (F.SWC_STATUS_old_frames, s.olderFrames s.sw.gen), (F.SWC_STATUS_generation, s.sw.gen)]

/-- The connections of a gateway port are shown in the order of their peers (DESIGN CHOICE, log 45). -/
def State.connInfo (s : State) (p : Nat) : Word := match ((s.gate p).conns)[s.get F.GWY_CONN_SEL_conn p]? with
  | none => 0
  | some (dev, c) => packF 0 [
      (F.GWY_CONN_INFO_peer, dev), (F.GWY_CONN_INFO_version, c.version), (F.GWY_CONN_INFO_srtt_us, min 65535 (c.srtt / 1000)), (F.GWY_CONN_INFO_rate, min 65535 c.rate)]

/-- Seconds, or µs, until a Datum: parts count whole. -/
def State.until (s : State) (t unit : Nat) : Nat := ceilDiv (t - s.datum) unit

/-- The bytes of the factory table, and its words (Tables 19.20 to 19.22). -/
def benchWord (n : Nat) : Word :=
  let bytes := fld (Config.benchmark 0) 31 0
  if bytes ≤ 8 * n then 0 else BitVec.ofNat 64 ((Config.benchmark (1 + n)).toNat % 2 ^ (8 * min 8 (bytes - 8 * n)))

/-- What a register reads as. -/
def State.regView (s : State) (id : RegId) : Word :=
  let w := s.reg id
  let i := id.inst
  let k := id.idx
  let on := b2n (s.octSheet i).isSome
  match id.name with
  | .RMO_HBM_WINDOW => BitVec.ofNat 64 (if (s.sheet k).life.st = .off then 0 else (s.sheet k).usable)
  | .SVY_CTL => packF w [(F.SVY_CTL_enable, on)]
  | .SVY_STATUS => packF w [(F.SVY_STATUS_queue_used, s.queueUsed i 0)]
  | .GAZ_GEN_STATUS =>
    let r := s.octRouting i
    let sync := decide (r.h0.st = .syncing ∨ r.h1.st = .syncing)
    packF 0 [
      (F.GAZ_GEN_STATUS_sync_remaining, if sync then fld (Config.freeWordAt s.free 0) 31 0 else 0),
      (F.GAZ_GEN_STATUS_h1_state, r.h1.st.code), (F.GAZ_GEN_STATUS_h0_state, r.h0.st.code)]
  | .GAZ_HALF_TARGET =>
    let h := if k = 0 then (s.octRouting i).h0 else (s.octRouting i).h1
    packF 0 [(F.GAZ_HALF_TARGET_valid, b2n h.valid), (F.GAZ_HALF_TARGET_target_step, h.target)]
  | .GAZ_STEP_SEEN =>
    let x := (s.octRouting i).seen
    packF 0 [(F.GAZ_STEP_SEEN_valid, b2n x.isSome), (F.GAZ_STEP_SEEN_step, x.getD 0)]
  | .PLT_CTL => packF w [(F.PLT_CTL_enable, on)]
  | .PLT_STATUS => packF w [(F.PLT_STATUS_queue_used, s.queueUsed i 1)]
  | .TRV_CTL => packF w [(F.TRV_CTL_enable, on)]
  | .TRV_STATUS =>
    let x := (s.octSheet i).map s.exchOf
    packF w [
      (F.TRV_STATUS_queue_used, s.queueUsed i 2),
      (F.TRV_STATUS_epochs_open, match x with
        | some x => if s.firstOct i then (x.epochs.filter fun e => e.2.st != .free).length else 0
        | none => 0),
      (F.TRV_STATUS_receives_armed, match x with
        | some x => (x.recvs.filter fun r => r.oct == i && !r.ended).length
        | none => 0)]
  | .TRV_LET_SEL => if s.firstOct i then w else 0
  | .TRV_LET_INFO => packF 0 [(F.TRV_LET_INFO_state, (s.letSel i).st.code), (F.TRV_LET_INFO_step, (s.letSel i).step)]
  | .TRV_LET_BAL0 => packF 0 [(F.TRV_LET_BAL0_issued, (s.letSel i).issued), (F.TRV_LET_BAL0_granted, (s.letSel i).granted)]
  | .TRV_LET_BAL1 => packF 0 [(F.TRV_LET_BAL1_folded, (s.letSel i).folded), (F.TRV_LET_BAL1_held, (s.letSel i).held)]
  | .TRV_LET_BAL2 => packF 0 [(F.TRV_LET_BAL2_returned, (s.letSel i).returned), (F.TRV_LET_BAL2_stale, (s.letSel i).stale)]
  | .BPM_CTL => packF w [(F.BPM_CTL_enable, on)]
  | .BPM_STATUS => packF w [
      (F.BPM_STATUS_queue_used, s.queueUsed i 3), (F.BPM_STATUS_pools_homed, ((List.range 64).filter fun p => (s.poolOn i p).isSome).length)]
  | .BPM_POOL_CFG => s.poolCfg i k
  | .BPM_POOL_BASE => BitVec.ofNat 64 (((s.poolOn i k).map Pool.base).getD 0)
  | .BPM_POOL_THRESH => s.poolThresh i k w
  | .BPM_POOL_COUNT0 => match s.poolOn i k with
    | some x => packF 0 [(F.BPM_POOL_COUNT0_allocated, x.allocated), (F.BPM_POOL_COUNT0_free, x.free)]
    | none => 0
  | .BPM_POOL_COUNT1 => match s.poolOn i k with
    | some x => packF 0 [(F.BPM_POOL_COUNT1_quarantined, x.captured.2.2.1), (F.BPM_POOL_COUNT1_in_flight, x.captured.2.2.2)]
    | none => 0
  | .CORE_STATUS => s.coreStatus i
  | .CORE_GRATICULE => s.coreGraticule i
  | .MOV_STATUS => packF w [(F.MOV_STATUS_busy, maskOf 4 fun j => s.movers.has (i, j))]
  | .HCH_LAYER_STATE => match s.hch.layers.find (s.get F.HCH_SEL_sheet, s.get F.HCH_SEL_layer) with
    | some x => packF 0 [(F.HCH_LAYER_STATE_high_run, x.high), (F.HCH_LAYER_STATE_low_run, x.low), (F.HCH_LAYER_STATE_step, x.step)]
    | none => 0
  | .HCH_LAYER_RATIO => match s.hch.layers.find (s.get F.HCH_SEL_sheet, s.get F.HCH_SEL_layer) with
    | some x => packF 0 [(F.HCH_LAYER_RATIO_valid, 1), (F.HCH_LAYER_RATIO_ratio, x.ratio)]
    | none => 0
  | .MHB_STATUS => packF w [(F.MHB_STATUS_hub_temp, (s.pw.temps.getD (dieMh i) (0, 0)).1)]
  | .MHB_MARKED => packF 0 [(F.MHB_MARKED_lines, (s.markedOf i).length)]
  | .NMA_CTL => packF w [(F.NMA_CTL_enable, b2n (s.octSheet (i / 2)).isSome)]
  | .NMA_STATUS => s.nmaStatus i
  | .NMA_CTX_KEY => match s.selCtx i with
    | some c => packF 0 [(F.NMA_CTX_KEY_job, c.job), (F.NMA_CTX_KEY_bucket, c.bucket)]
    | none => 0
  | .NMA_CTX_INFO => s.nmaInfo i
  | .DGC_STATUS => packF w [(F.DGC_STATUS_strict_required, b2n (s.jobs.any fun e => e.2.life.st != .off && e.2.strict))]
  | .DTM_NOW => BitVec.ofNat 64 s.datum
  | .DTM_OFFSET => packF w [
      (F.DTM_OFFSET_rate_ppb, toBits 32 (if s.clock.slew = 0 then 0 else if 0 < s.clock.slew then 200000 else -200000))]
  | .DTM_LAUNCH_STATUS => packF w [(F.DTM_LAUNCH_STATUS_pending, s.cht.timed.length)]
  | .SHT_CFG => s.sheetCfg k
  | .SHT_TIMING =>
    let x := s.sheet k
    packF 0 [(F.SHT_TIMING_hold_ms, x.holdMs), (F.SHT_TIMING_watchdog_ms, x.watchMs), (F.SHT_TIMING_quantum_us, x.quantumUs)]
  | .SHT_SERVE => match (s.sheet k).serve with
    | some v => packF 0 [(F.SHT_SERVE_chunk_limit, v.chunk), (F.SHT_SERVE_budget, v.budget)]
    | none => w
  | .SCH_CTX_STATE => s.ctxStateReg (s.get F.SCH_CTX_SEL_sheet) (s.get F.SCH_CTX_SEL_context)
  | .SCH_RUNNING =>
    let x := s.sheet k
    packF 0 [(F.SCH_RUNNING_switching, b2n x.switch.isSome), (F.SCH_RUNNING_valid, b2n x.run.isSome), (F.SCH_RUNNING_context, x.run.getD 0)]
  | .SWC_STATUS => s.switchStatus
  | .SWC_PORT_QUEUE =>
    let p := s.get F.SWC_PORT_SEL_port
    packF 0 [
      (F.SWC_PORT_QUEUE_priv_cells, s.outCells p 6 + s.outCells p 7), (F.SWC_PORT_QUEUE_cells, sumOf [0, 1, 2, 3, 4, 5] (s.outCells p))]
  | .SWC_PORT_STAT =>
    let p := s.get F.SWC_PORT_SEL_port
    packF 0 [
      (F.SWC_PORT_STAT_stall_us, min (2 ^ 32 - 1) (s.sw.stallUs.getD p 0)), (F.SWC_PORT_STAT_tx_mib, min (2 ^ 32 - 1) (s.sw.txBytes.getD p 0 / 2 ^ 20))]
  | .FPT_VIOL_CNT1 => packF w [(F.FPT_VIOL_CNT1_window, min 65535 (recentViols s.datum (s.port i).viols).length)]
  | .GWY_STATUS =>
    let g := s.gate i
    packF w [
      (F.GWY_STATUS_conns, (g.conns.filter fun e => e.2.open_).length), (F.GWY_STATUS_windows, g.windows.length), (F.GWY_STATUS_role, b2n (s.gwRole i))]
  | .GWY_CONN_INFO => s.connInfo i
  | .CHT_ID => s.chtId
  | .CHT_STATUS => s.chtStatus i
  | .CTC_STATUS => packF w [
      (F.CTC_STATUS_jobs, (s.jobs.filter fun e => s.admitted e.1).length),
      (F.CTC_STATUS_sheets_keyed, maskOf 8 fun n => (s.sheet n).key.isSome), (F.CTC_STATUS_owner_slots, s.sec.owners.length), (F.CTC_STATUS_debug, s.sec.debug)]
  | .CTC_SVN => packF w [(F.CTC_SVN_fused, s.sec.svn)]
  | .CTC_DEBUG => packF w [(F.CTC_DEBUG_remaining_s, if s.sec.debug = 0 then 0 else s.until s.sec.debugEnd 1000000000)]
  | .PWR_STATUS => packF w [(F.PWR_STATUS_next_excursion_us, min (2 ^ 18 - 1) (s.until s.pw.readyAt 1000))]
  | .PWR_TEMP =>
    let d := s.get F.PWR_TEMP_SEL_die
    let t := s.pw.temps.getD d (0, 0)
    packF 0 [(F.PWR_TEMP_trip_c, tripC d), (F.PWR_TEMP_throttle_c, s.throttleC d), (F.PWR_TEMP_peak_c, t.2), (F.PWR_TEMP_temp_c, t.1)]
  | .CLK_CCLK => packF w [(F.CLK_CCLK_fmax_mhz, s.fmax k)]
  | .CTR_STATUS => packF w [
      (F.CTR_STATUS_flagged_ports, ((List.range 36).filter s.portFlagged).length), (F.CTR_STATUS_flagged_stacks, maskOf 16 s.stackFlagged)]
  | .CTR_DIE =>
    let d := s.get F.CTR_SEL_die
    let x := s.agedOf d
    packF 0 [
      (F.CTR_DIE_years, s.dieYears d), (F.CTR_DIE_guard, x.guard), (F.CTR_DIE_slack_ps, toBits 16 x.slack), (F.CTR_DIE_degradation, min 65535 x.degr)]
  | .BMK_HDR => BitVec.ofNat 64 ((Config.benchmark 0).toNat &&& fieldMask .BMK_HDR)
  | .BMK_DATA => benchWord (s.get F.BMK_SEL_offset)
  | .BMK_OVERLAY => match s.pw.active with
    | some o => packF 0 [
        (F.BMK_OVERLAY_serial, overlaySerial o), (F.BMK_OVERLAY_clamped, overlayClamped o), (F.BMK_OVERLAY_entries, (overlayEntries o).length)]
    | none => 0
  | .EVT_STATUS => packF 0 [
      (F.EVT_STATUS_next_seq, s.ev.nextSeq), (F.EVT_STATUS_fm_queue, min 255 (ceilDiv s.ev.fmQueue.length 16)), (F.EVT_STATUS_stby_records, s.ev.log.length),
      (F.EVT_STATUS_jobs_stopping, (s.jobs.filter fun e => e.2.life.st == .stopping).length)]
  | _ => w

/-- A read of a register (R7): its value, and the captures that the reads of BPM_POOL_COUNT0 (R172) and NMA_CTX_ACCEPTED (R314) make. What is left of a
SYNCING copy is a free value, drawn at each read. -/
def State.regRead (s : State) (id : RegId) : State × Word :=
  match id.name with
  | .BPM_POOL_COUNT0 => if (s.poolOn id.inst id.idx).isSome then (s.poolCapture id.idx, s.regView id) else (s, 0)
  | .NMA_CTX_ACCEPTED => let s := s.ctxCapture id.inst; (s, s.reg id)
  | .GAZ_GEN_STATUS => (s.draw, s.regView id)
  | _ => (s, s.regView id)

end Sys2Proof.Machine
end

