-- ==== Sys2Proof/Machine/RegWrite.lean ====
section
/-! DEFINITION. What a write to a register does (R7, R28, R29, R460, R461, R469), and the commands that write registers without a row of their own. -/

namespace Sys2Proof.Machine

/-- A write by the access codes of Table 0.4 alone: RW fields store, W1C fields clear, every other field ignores it. -/
def State.writePlain (s : State) (id : RegId) (w : Word) : State :=
  let old := (s.reg id).toNat
  let v := (regRow id.name).fields.foldl (fun x f => match f.acc with
    | .RW | .RWL => setBits x f.hi f.lo (fld w f.hi f.lo)
    | .W1C => setBits x f.hi f.lo (bitsOf old f.hi f.lo - (bitsOf old f.hi f.lo &&& fld w f.hi f.lo))
    | _ => x) old
  s.setReg id (BitVec.ofNat 64 v)

/-- RLC_CTL.flush drops every line (R66), and with the lines the blocks of the read buffers (R443). -/
def State.flushRlc (s : State) : State := s.dropLines fun _ _ _ _ => true

/-- An address register of a ring pair (R461): discarded while the ring is enabled, and counted where the host wrote it. -/
def State.ringAddr (s : State) (id : RegId) (w : Word) (host : Bool) : State :=
  if s.ringOn id.inst id.idx then (if host then s.bump F.CHT_HOST_DENIED_CNT_writes id.inst 0 1 else s) else s.writePlain id w

/-- A write of CHT_RING_DB: both fields. -/
def State.ringDb (s : State) (die : Fin 2) (n : Fin 16) (w : Word) : State := (s.cmdTail die n (fld w 31 0)).replyHead die n (fld w 63 32)

/-- A write of GWY_CTL (R439): clearing enable on a port in gateway role runs the role's STOPPING. -/
def State.gwyCtl (s : State) (p : Nat) (w : Word) : State :=
  (if !w.getLsbD 0 && s.gwRole p then s.gwStop p else s).writePlain ⟨.GWY_CTL, p, 0⟩ w

/-- A write of one register by an allowed writer: `by_` is the home position of a core that writes, and `host` says that the host does. DGC_CTL changes by
DETERMINISM_SET alone (R346). -/
def State.regWrite (s : State) (id : RegId) (w : Word) (by_ : Option Nat) (host : Bool) : State :=
  let i := id.inst
  let k := id.idx
  let plain := s.writePlain id w
  match id.name with
  | .RLC_CTL => if w.getLsbD 8 then plain.flushRlc else plain
  | .SVY_CTL => if w.getLsbD 16 then plain.flushGvc i else plain
  | .GAZ_CTL => if w.getLsbD 8 then plain.flushGaz i else plain
  | .TRV_LET_SEL => if s.firstOct i then plain else s
  | .HCH_CTL => if w.getLsbD 8 then plain.evalNow else plain
  | .HCH_STATUS => s.haltWrite w
  | .HCH_RECIPE => if k % 8 < 7 then s.recipeWrite (k / 8) (k % 8) w else s
  | .MOV_QNT_SUBMIT => match by_ with
    | some u => s.qntSubmit i u w
    | none => s
  | .BPM_POOL_THRESH => if (s.poolOn i k).isSome then s.threshWrite k w else s
  | .FPT_CTL => s.writeFptCtl i w
  | .FPT_AUDIT => s.auditWrite i w
  | .GWY_CTL => s.gwyCtl i w
  | .DTM_CTL => plain.step8
  | .DGC_CTL => s
  | .CHT_RING_CMD => s.ringAddr id w host
  | .CHT_RING_RPL => s.ringAddr id w host
  | .CHT_RING_WB => s.ringAddr id w host
  | .CHT_RING_CFG => s.ringCfg (Fin.ofNat 2 i) (Fin.ofNat 16 k) w
  | .CHT_RING_DB => s.ringDb (Fin.ofNat 2 i) (Fin.ofNat 16 k) w
  | _ => plain

/-! Access (R29). -/

/-- The octant that page i of block b belongs to; none for a page of the whole device (Table 2.3). -/
def pageOctant (b i : Nat) : Option Nat :=
  if b = 1 ∨ b = 2 then some (i / 32)
  else if (3 ≤ b ∧ b ≤ 7) ∨ b = 11 then some i
  else if b = 8 ∨ b = 9 then some (i / 2)
  else none

/-- Whether the cores of sheet i may read, or write, page n of block b: every page but CTC_ to read, and their own sheet's instances of the blocks
that Table 2.3 lets them write (R29). -/
def State.coreMay (s : State) (i b n : Nat) (write : Bool) : Bool :=
  if write then [1, 2, 3, 5, 6].contains b && (pageOctant b n).bind s.octSheet == some i else b != 17

/-- An access of n bytes to page p of block b at offset o by a core of sheet i. -/
def State.regCheck (s : State) (i b p o n : Nat) (write : Bool) : Status :=
  if !s.coreMay i b p write then .accessDenied
  else if n ≠ 8 ∨ o % 8 ≠ 0 then .alignment
  else .ok

/-- A core's store of a register: where no register stands nothing changes. -/
def State.coreRegWrite (s : State) (u b p o : Nat) (w : Word) : State := match regAt b p o with
  | some id => s.regWrite id w (some u) false
  | none => s

/-- Whether a core's store of this register has to wait for a place (R269). -/
def State.regFull (s : State) (b p o : Nat) (w : Word) : Bool := match regAt b p o with
  | some id => id.name == .MOV_QNT_SUBMIT && fld w 63 24 == 0 && fld w 5 0 == 0 && decide (8 ≤ (s.quant.getD p []).length)
  | none => false

/-- The page of an offset of the register window: block, page and offset in the page. -/
def regPlace (a : Nat) : Option (Nat × Nat × Nat) :=
  if 0x30000000000 ≤ a ∧ a < 0x3001B000000 then
    let o := a - 0x30000000000
    some (o / 2 ^ 24, o / 2 ^ 16 % 256, o % 2 ^ 16)
  else none

/-! Commands. -/

/-- A host write (R460): only the ring registers of its own die's page; every other is discarded and counted. -/
def State.hostWrite (s : State) (die : Fin 2) (a n : Nat) (w : Word) : State :=
  match regPlace a with
  | some (16, p, o) =>
    match regAt 16 p o with
    | some id => if p = die.val ∧ 0x1000 ≤ o ∧ n = 8 then s.regWrite id w none true else s.bump F.CHT_HOST_DENIED_CNT_writes die.val 0 1
    | none => s.bump F.CHT_HOST_DENIED_CNT_writes die.val 0 1
  | _ => s.bump F.CHT_HOST_DENIED_CNT_writes die.val 0 1

/-- REGISTER_WRITE: n bytes at local offset a by the Chartroom, the host, or a core with home position u. -/
def execRegisterWrite (x : Writer) (a : BitVec 44) (n : BitVec 16) (w : Word) (s : State) : Res :=
  .next (match x with
    | .host die => s.hostWrite die a.toNat n.toNat w
    | .chartroom => (match regPlace a.toNat with
      | some (b, p, o) => if n.toNat = 8 then (match regAt b p o with
        | some id => s.regWrite id w none false
        | none => s) else s
      | none => s)
    | .core u => (match regPlace a.toNat, s.octSheet (u / 32) with
      | some (b, p, o), some i => if s.regCheck i b p o n.toNat true = .ok then s.coreRegWrite u b p o w else s
      | _, _ => s))

/-- Pages and registers that REG_WRITE may not write (R469). -/
def regWriteDenied (b : Nat) (id : Option RegId) : Bool :=
  match id with
  | some r => if r.name = .PWR_TEMP_SEL ∨ r.name = .BMK_SEL then false else r.name == .HCH_RECIPE || [0, 17, 18, 19, 22].contains b
  | none => [0, 17, 18, 19, 22].contains b

/-- REG_WRITE (R469). -/
def bodyRegWrite : CmdBody := fun s _ _ p =>
    let a := uAt p 0 8
    match firstFail [lenIs p 16, (a % 8 == 0, Ans.badP 0)] with
    | some x => (s, x)
    | none => match regPlace a with
      | none => (s, .st .addressRange)
      | some (b, n, o) =>
        let id := regAt b n o
        if regWriteDenied b id then (s, .st .accessDenied)
        else match id with
          | some r => (s.regWrite r (BitVec.ofNat 64 (uAt p 8 8)) none false, .ok)
          | none => (s, .ok)
def execRegWrite (h : CmdHdr) (p : List Byte) (s : State) : Res := .next (s.command 0x0102 h p bodyRegWrite)

/-- RLC_CTL.flush written. -/
def execRlcCtlFlush (s : State) : Res := .next s.flushRlc
/-- RMO_FAULT_INFO of sheet i, written (R53). -/
def execRmoFaultInfo (i : Fin 8) (w : Word) (s : State) : Res := .next (s.rearm ⟨.RMO_FAULT_INFO, 0, i⟩ w)
/-- RGD_VIOL_INFO, written (R68). -/
def execRgdViolInfo (w : Word) (s : State) : Res := .next (s.rearm ⟨.RGD_VIOL_INFO, 0, 0⟩ w)

end Sys2Proof.Machine
end

