-- ==== Sys2Proof/Machine/Target.lean ====
section
/-! DEFINITION. The destination of the eight operations: where a request goes (R23 to R32), what it meets there (R68, R169, R294, R318,
R380), its effect, and the order in which a stream's frames execute (R40, R45). -/

namespace Sys2Proof.Machine

/-- What becomes of a request at its destination: executed, with its acknowledgement or its response; refused with a NACK; or kept, by a
queue that is full (R27) or by a hub until the contribution has committed (R44). -/
inductive Done where
  | ack (st : Status)
  | resp (st : Status) (cacheable : Bool) (data : List Byte)
  | nack (st : Status)
  | stall
  | hub
  deriving DecidableEq, Repr

/-- What follows when frames have executed or operations have ended: fences, engines, collectives and trees, the sheets that a fatal
error has named (R538), and pools in STOPPING (R170). -/
def State.after (s : State) : State := ((((s.settle).exchOps).collOps).treeOps).sweepFatal.poolsDrained

/-! Frames. -/

/-- A frame that comes from another logical device than this. -/
def State.foreign (s : State) (f : Frame) : Bool := f.srcDev.toNat != s.sw.devId || f.srcSheet != f.dstSheet
/-- A failed or refused request's answer: a response for a LOAD, an ATOMIC or a get, an acknowledgement for the rest (R44). -/
def failDone (f : Frame) (st : Status) : Done := if f.op = 1 ∨ f.op = 3 ∨ isGet f then .resp st false [] else .ack st

/-! Checks. -/

/-- R380: a scratchpad slot of no collective core, while a switch is in progress, and while no context of the job runs on the sheet (log 51). -/
def State.switchHolds (s : State) (i job a : Nat) : Bool :=
  match s.locate i a with
  | some (.scr v _) => decide (v < s.collFirst i) && ((s.sheet i).switch.isSome ||
      !(s.ctxsOf i).any fun c => c.2.job == job && c.2.st == .running)
  | _ => false

/-- One place that a request touches: local address, length, whether it writes. -/
abbrev Touch := Nat × Nat × Bool

/-- The windows of a request's places: none for a data window, otherwise its answer (R23, R26, R29, R32, R318, R380). A chunk that comes for a
slot of a job whose collectives have ended is TORN_DOWN (Table 20.6). -/
def State.windowCheck (s : State) (f : Frame) (src : Nat) (l : List Touch) : Option Done :=
  let i := f.dstSheet.toNat
  let job := f.job.toNat
  let put := f.op == 5 && !isGet f
  if l.any fun t => match s.locate i t.1 with
      | some (.queue _ _ _) => true
      | some (.reg _ _ _) => true
      | _ => false then some (failDone f .accessDenied)
  else if !(l.all fun t => s.inData i t.1 t.2.1) then some (failDone f .addressRange)
  else if l.any fun t => s.collAccess i t.1 job src f.agent.toNat put == some false then
    some (failDone f (if put && s.stoppingJob job then .tornDown else .accessDenied))
  else if l.any fun t => s.switchHolds i job t.1 then some (.nack .retry)
  else none

/-- The Region Directory (R68) and uncorrectable errors (R174, R293, R294): what refuses the places of a request. -/
def State.homeCheck (s : State) (f : Frame) (src : Nat) (l : List Touch) : State × Option Done :=
  let i := f.dstSheet.toNat
  match l.findSome? fun t => s.regionRefuses i t.1 t.2.1 t.2.2 f.job.toNat src with
  | some a => (s.regionViol i a f.op.toNat src, some (failDone f .regionDenied))
  | none =>
    let r := s.meets i 1 l
    (r.1, r.2.map (failDone f))

/-- Both checks, then the effect. -/
def State.checkedAt (s : State) (f : Frame) (src : Nat) (l : List Touch) (g : State → State × Done) : State × Done :=
  match s.windowCheck f src l with
  | some d => (s, d)
  | none => match s.homeCheck f src l with
    | (s, some d) => (s, d)
    | (s, none) => g s

/-! Engine queues and registers. -/

/-- The descriptors that the engine queue of a page of Table 2.2 holds: 64, as R86, R119 and Tables 4.24 and 5.10 say; for the remote operation queue a
free number above 0 (DESIGN CHOICE, log 53). -/
def queueRoom (page : Nat) : Nat := if page < 4 then 64 else (Config.queueDepth page).toNat + 1

/-- A store to page `page` of local octant k, at offset o in the page (R26, R27). -/
def State.queueStore (s : State) (f : Frame) (k page o : Nat) : State × Done :=
  let i := f.dstSheet.toNat
  let core := decide (f.agent.toNat < 256)
  let x := (s.physOct i k, page)
  let l := s.ep.queues.getD x []
  if f.op ≠ 2 ∨ s.foreign f ∨ (core && f.agent.toNat / 32 != k) then (s, failDone f .accessDenied)
  else if f.payload.length ≠ 64 ∨ o % 64 ≠ 0 then (s, .ack .descFormat)
  else if queueRoom page ≤ l.length then (s, .stall)
  else
    let q : QDesc := ⟨i, f.agent.toNat, f.job.toNat, BitVec.ofNat 512 (leNat f.payload)⟩
    ({ s with ep := { s.ep with queues := s.ep.queues.put x (l ++ [q]) } }, .ack .ok)

/-- An access to page p of block b at offset o (R29, R32). Only a core or the Chartroom reaches a register by a frame. A LOAD of an offset where no
register stands returns 0 (DESIGN CHOICE, log 404). -/
def State.regAccess (s : State) (f : Frame) (b p o : Nat) : State × Done :=
  let i := f.dstSheet.toNat
  let a := f.agent.toNat
  let n := if f.op = 1 then opSize f else f.payload.length
  let st := if s.foreign f ∨ (f.op ≠ 1 ∧ f.op ≠ 2) ∨ (256 ≤ a ∧ a ≠ 280) then Status.accessDenied
    else if a = 280 then (if n ≠ 8 ∨ o % 8 ≠ 0 then .alignment else .ok)
    else s.regCheck i b p o n (f.op == 2)
  if st ≠ .ok then (s, failDone f st)
  else if f.op = 1 then
    match regAt b p o with
    | some id => let r := s.regRead id; (r.1, .resp .ok false (leBytes 8 r.2.toNat))
    | none => (s, .resp .ok false (leBytes 8 0))
  else
    let w : Word := BitVec.ofNat 64 (leNat f.payload)
    if a = 280 then
      match regAt b p o with
      | some id => (s.regWrite id w none false, .ack .ok)
      | none => (s, .ack .ok)
    else if s.regFull b p o w then (s, .stall)
    else (s.coreRegWrite (s.homeCore i a) b p o w, .ack .ok)

/-! Effects. -/

/-- R369, R388, R326: a NOTIFY or an ATOMIC has written n bytes at a, and what looks at them: collectives that wait for an event, ring tails, the
composer. -/
def State.wordsWritten (s : State) (i a n : Nat) : State :=
  let hits := fun w : Nat => decide (w < a + n) && decide (a < w + 8)
  let s := s.collWord i a n
  let tails := (s.ctxsOf i).filter fun c => hits c.2.ringAddr
  let s := if tails.isEmpty then s else (tails.foldl (fun s c => s.readTail i c.1) s).kick i
  match (s.sheet i).serve with
  | some v => if hits (v.planAddr + 8) then s.compose i else s
  | none => s

/-- The n bytes of a word raised, which a combine extent may wait for too (R138). -/
def State.wordRaised (s : State) (i a n : Nat) : State := (s.exchWord i a).wordsWritten i a n

/-- LOAD (R61, R68). -/
def State.doLoad (s : State) (f : Frame) (src : Nat) : State × Done :=
  let i := f.dstSheet.toNat
  let a := f.addr.toNat
  s.checkedAt f src [(a, opSize f, false)] fun s =>
    let open_ := s.get F.RGD_CTL_enforce = 0 ∨ 2 ^ 40 ≤ a ∨ fld (s.regionAt i a) 1 0 < 2
    (s, .resp .ok (fld f.opflag 0 0 == 1 && decide open_) (s.rd i a (opSize f)))

/-- STORE. -/
def State.doStore (s : State) (f : Frame) (src : Nat) : State × Done :=
  let i := f.dstSheet.toNat
  let a := f.addr.toNat
  s.checkedAt f src [(a, f.payload.length, true)] fun s => (s.write i a f.payload, .ack .ok)

/-- The new value of an ATOMIC of n bytes (Table 2.5). -/
def atomicNew (code n old x cmp : Nat) : Nat :=
  let w := 8 * n
  match code with
  | 0 => (old + x) % 2 ^ w
  | 1 => old &&& x
  | 2 => old ||| x
  | 3 => old ^^^ x
  | 4 => min old x
  | 5 => max old x
  | 6 => if sInt w old ≤ sInt w x then old else x
  | 7 => if sInt w x ≤ sInt w old then old else x
  | 8 => x
  | 9 => if old = cmp then x else old
  | 10 => (fAdd fp32 old x).1
  | _ => old

/-- ATOMIC (R32): the response carries the prior value if the instruction asks for it. -/
def State.doAtomic (s : State) (f : Frame) (src : Nat) : State × Done :=
  let i := f.dstSheet.toNat
  let a := f.addr.toNat
  let n := opSize f
  s.checkedAt f src [(a, n, true)] fun s =>
    let old := s.rdN i a n
    let new := atomicNew (fld f.spec 11 8) n old (uAt f.payload 0 8 % 2 ^ (8 * n)) (uAt f.payload 8 8 % 2 ^ (8 * n))
    ((s.writeN i a n new).wordRaised i a n, .resp .ok false (if fld f.opflag 0 0 = 1 then leBytes 8 old else []))

/-- RACC (R298): at its hub, once the places that no hub has are refused. -/
def State.doRacc (s : State) (f : Frame) (src : Nat) : State × Done :=
  let i := f.dstSheet.toNat
  let a := f.addr.toNat
  match s.locate i a with
  | none => (s, .ack .addressRange)
  | some (.queue _ _ _) => (s, .ack .accessDenied)
  | some (.reg _ _ _) => (s, .ack .accessDenied)
  | some _ =>
    if s.collAccess i a f.job.toNat src f.agent.toNat false = some false then (s, .ack .accessDenied)
    else if s.switchHolds i f.job.toNat a then (s, .nack .retry)
    else if s.raccFull f then (s, .stall)
    else
      let r := s.raccTake f src
      (r.1, if r.2 = .ok then .hub else .ack r.2)

/-- NOTIFY (R36): every check of both places comes before either write. -/
def State.doNotify (s : State) (f : Frame) (src : Nat) : State × Done :=
  let i := f.dstSheet.toNat
  let a := f.addr.toNat
  let sem := uAt f.payload 0 8 % 2 ^ 44
  let inc := uAt f.payload 8 8
  let data := f.payload.drop 16
  let l : List Touch := (if data.isEmpty then [] else [(a, data.length, true)]) ++ [(sem, 8, true)]
  if !s.wordIn i sem then (s, .ack .addressRange)
  else s.checkedAt f src l fun s =>
    let s := if data.isEmpty then s else s.write i a data
    let s := s.writeN i sem 8 ((s.rdN i sem 8 + inc) % 2 ^ 64)
    ((if data.isEmpty then s else s.wordsWritten i a data.length).wordRaised i sem 8, .ack .ok)

/-- A pool in whose non-engine chains n bytes at local address a of sheet i lie, if its level refuses puts from other logical devices (Table 5.5). -/
def State.poolRefuses (s : State) (i a n : Nat) : Option Pool :=
  (s.pools.find? fun e : Nat × Pool =>
    let x := e.2
    x.life.st == .on && x.sheet == i && !x.sized && decide (2 ≤ x.level.code) && x.tab.any fun c =>
      !c.2.quar && !c.2.engine && decide (x.cellAddr c.1 < a + n) && decide (a < x.cellAddr c.1 + x.cellSize)).map (·.2)

/-- The refusal of n bytes put at a by another logical device, where the level of a pool is THROTTLE or above (R168). -/
def State.poolHolds (s : State) (f : Frame) (n : Nat) : Option Pool := if s.foreign f then s.poolRefuses f.dstSheet.toNat f.addr.toNat n else none

/-- The checks of a put of n bytes (R31, R168, R169), then the effect. -/
def State.putAt (s : State) (f : Frame) (src n : Nat) (g : State → State × Done) : State × Done :=
  match s.poolHolds f n with
  | some x => (s.bump F.BPM_RETRY_CNT_retries (s.poolOct x) 0 1, .nack .retry)
  | none => s.checkedAt f src [(f.addr.toNat, n, true)] g

/-- A BULK_COPY put (R193). -/
def State.doPut (s : State) (f : Frame) (src : Nat) : State × Done :=
  let i := f.dstSheet.toNat
  let a := f.addr.toNat
  match denseOf f with
  | none => (s, .ack .tileFormat)
  | some bs => s.putAt f src bs.length fun s => (((s.write i a bs).relayPut i a bs.length).collPut i a bs.length, .ack .ok)

/-- A frame of a tree, which the Chartroom of its parent puts: discarded as a duplicate (R341), refused while the chunks before it are not whole or 4 are not
verified (R337; RETRY is the model's choice, log 36), or landed, in memory under the checks of every put. -/
def State.doTree (s : State) (f : Frame) (src : Nat) : State × Done :=
  let i := f.dstSheet.toNat
  let a := f.addr.toNat
  match s.treeOf i f.job.toNat src a, denseOf f with
  | some (x, n), some bs =>
    let s := s.treeHear i f.job.toNat src
    let x := { x with heard := s.datum, orphan := false }
    if n < x.verified then (s.setTree { x with duplicates := x.duplicates + b2n (a == x.place n) }, .ack .ok)
    else if !x.takes n then (s, .nack .retry)
    else if x.staged n then (s.setTree (x.land n a bs), .ack .ok)
    else s.putAt f src bs.length fun s => ((s.setTree (x.land n a bs)).write i a bs, .ack .ok)
  | some _, none => (s, .ack .tileFormat)
  | none, _ => (s, .nack .notParent)

/-- A BULK_COPY get. -/
def State.doGet (s : State) (f : Frame) (src : Nat) : State × Done :=
  let i := f.dstSheet.toNat
  let a := f.addr.toNat
  let n := f.spec.toNat
  s.checkedAt f src [(a, n, false)] fun s => (s, .resp .ok false (s.rd i a n))

/-- INVALIDATE at a reader (R64): its lines of the job in the range drop. The frame names no home (log 54). -/
def State.doInvalidate (s : State) (f : Frame) : State × Done :=
  let a := f.addr.toNat
  let n := uAt f.payload 0 8
  (s.dropLines fun sh j _ l => sh == f.dstSheet.toNat && j == f.job.toNat && decide (l < a + n) && decide (a < l + 256), .ack .ok)

/-- The effect of a request that may execute now; one for the cells of a pool whose STOPPING is past step 2 has none (R170). -/
def State.effect (s : State) (f : Frame) (src : Nat) : State × Done :=
  let i := f.dstSheet.toNat
  if s.pools.any fun e => s.poolShut e.2 && e.2.frameFor f false then (s, .ack .tornDown)
  else match s.locate i f.addr.toNat, f.op.toNat with
  | some (.queue k page o), 1 => s.queueStore f k page o
  | some (.queue k page o), 2 => s.queueStore f k page o
  | some (.queue k page o), 3 => s.queueStore f k page o
  | some (.reg b p o), 1 => s.regAccess f b p o
  | some (.reg b p o), 2 => s.regAccess f b p o
  | some (.reg b p o), 3 => s.regAccess f b p o
  | _, 1 => s.doLoad f src
  | _, 2 => s.doStore f src
  | _, 3 => s.doAtomic f src
  | _, 4 => s.doRacc f src
  | _, 5 => if isGet f then s.doGet f src else if f.agent = 280 then s.doTree f src else s.doPut f src
  | _, 6 => s.doInvalidate f
  | _, _ => s.doNotify f src

/-! Order. -/

/-- A NACK (R45, R341). -/
def State.nacked (s : State) (f : Frame) (st : Status) : State := if st = .retry then s.refuse f else s.sendFrame (s.nackFrame f st)

/-- A request executed, and answered; whether its number has executed. -/
def State.execFrame (s : State) (f : Frame) (src : Nat) : State × Bool :=
  let r := s.effect f src
  match r.2 with
  | .ack st => (r.1.acked f st, true)
  | .resp st c d => (r.1.responded f st c d, true)
  | .nack st => (r.1.nacked f st, false)
  | .stall => ({ r.1 with ep := { r.1.ep with stalled := r.1.ep.stalled ++ [f] } }, false)
  | .hub => (r.1, false)

/-- Held frames of a stream executed in ascending order, as far as they follow one another (R40). -/
def State.drain : Nat → State → RxKey → State
  | 0, s, _ => s
  | n + 1, s, k =>
    let x := s.rx k
    match x.held.find? fun g => g.seq.toNat == x.expected % 2 ^ 32 with
    | none => s
    | some g =>
      let s := s.setRx k { x with held := x.held.erase g }
      match s.sourceOf g with
      | none => s.unknownSource g
      | some src =>
        let r := s.execFrame g src
        if r.2 then State.drain n r.1 k else r.1

/-- A stream's held frames looked at after one of its numbers has executed. -/
def State.drained (s : State) (f : Frame) : State := State.drain 1024 s (rxKeyOf f)

/-- The first kept frame that p selects and that may execute now does. -/
def State.acceptKept (s : State) (p : Frame → Bool) : State :=
  match s.ep.stalled.find? fun f => p f && (s.effect f 0).2 != .stall with
  | none => s
  | some f =>
    let s := { s with ep := { s.ep with stalled := s.ep.stalled.erase f } }
    match s.sourceOf f with
    | none => s.unknownSource f
    | some src =>
      let r := s.execFrame f src
      ((r.1.drained f).after)

/-- A copy of a frame that a full queue or a hub still keeps. -/
def State.underway (s : State) (f : Frame) : Bool :=
  let same := fun g : Frame => rxKeyOf g == rxKeyOf f && g.seq == f.seq
  s.ep.stalled.any same || s.hubs.frames.any fun r => same r.frame

/-- An arriving request of operation op (Table 2.4): admitted, put in order if its class is ordered, executed. A frame of another kind or
operation is no such request, and changes nothing. -/
def State.request (s : State) (f : Frame) (op : Nat) (ordered : Bool) : State :=
  if f.kind ≠ 0 ∨ f.op.toNat ≠ op then s
  else match s.takeIn f with
    | (s, none) => (s.drained f).after
    | (s, some src) =>
      if s.underway f then s
      else
        let r := if ordered then s.inOrder f else (s, true)
        if r.2 then
          let e := r.1.execFrame f src
          (e.1.drained f).after
        else r.1.after

end Sys2Proof.Machine
end

