-- ==== Sys2Proof/Machine/Records.lean ====
section
/-! DEFINITION. Engine records at their destination (Tables 3.7 and 4.7), and the commitment of an accepted contribution: the arrivals behind
which held frames of the same stream may follow. -/

namespace Sys2Proof.Machine

/-- An engine record of a kind that arrives at the endpoint (R96): executed, and acknowledged. A frame of another kind is no such record,
and changes nothing. -/
def State.record (s : State) (f : Frame) (kind : Nat) (g : State → Nat → RecHdr → State) : State :=
  if f.kind = 4 ∧ (recHdr f.payload).kind = kind then
    let s := s.onArrival f fun s src => (g s src (recHdr f.payload), .ok)
    (s.drained f).after
  else s

/-- CENSUS: a census frame at its destination. -/
def execCensusRecord (f : Frame) (s : State) : Res := .next (s.record f 1 fun s _ _ => s.censusFrame f)

/-- GRANT: a grant frame at its source. -/
def execGrantRecord (f : Frame) (s : State) : Res := .next (s.record f 2 fun s _ h => s.grantRecord f.dstSheet.toNat h f)

/-- LANDING_RECORD: a landing record at its source. -/
def execLandingRecord (f : Frame) (s : State) : Res := .next (s.record f 3 fun s _ h => s.landingRecord f.dstSheet.toNat h f)

/-- SKIP_RECORD (R139). -/
def State.skipRecord (s : State) (f : Frame) (h : RecHdr) : State :=
    let i := f.dstSheet.toNat
    let s := (recEntries 16 [f]).foldl (fun s e =>
      let ext := leNat e % 2 ^ 44
      let n := leNat (e.drop 8) % 2 ^ 32
      match (s.exchOf i).batches.findSome? fun b =>
          if b.epoch = h.epoch then (b.parts.find? fun p => p.comb == some ext).map fun p => (b, p) else none with
      | none => s
      | some (b, p) =>
        let s := s.adjEpoch i h.epoch fun x => { x with stale := x.stale + n }
        let s := s.engineFree b.pool ext
        let b := if p.st = .sending ∨ p.st = .acked then b.mark p.asgs .stale else b
        s.batchStep (b.setPart { p with st := .done, comb := none })) s
    s.settleEpoch i h.epoch
def execSkipRecord (f : Frame) (s : State) : Res := .next (s.record f 5 fun s _ h => s.skipRecord f h)

/-- CANCEL_RECORD (R145, R152). -/
def execCancelRecord (f : Frame) (s : State) : Res :=
  .next (s.record f 4 fun s src h =>
    let i := f.dstSheet.toNat
    (s.relayCancel i f.job.toNat src h f.payload).cancelRecord i h)

/-- RELAY_MANIFEST (R151). -/
def execRelayManifest (f : Frame) (s : State) : Res := .next (s.record f 6 fun s _ _ => s.manifestFrame f)

/-! Contributions. -/

/-- RACC_COMMIT: the oldest accepted frame of hub h reaches its EAWs or its places (R293, R306, R307), and is acknowledged (R44); a frame that
waited for it follows (R314). -/
def execRaccCommit (h : Fin 16) (s : State) : Res :=
  .next (match s.hubs.frames.find? fun f => f.hub == h.val with
    | none => s
    | some r =>
      let q := s.raccCommit r
      ((((q.1).acked r.frame q.2).drained r.frame).after).acceptKept fun f => f.op == 4 && s.hubOf f.dstSheet.toNat f.addr.toNat == h.val)

end Sys2Proof.Machine
end

