-- ==== Sys2Proof/Machine/Remote.lean ====
section
/-! DEFINITION. The commands of the remote memory endpoint (R30 to R70): descriptors of the remote operation queue, requests at their
destination, answers at their source, its timers, and REGION_SET. -/

namespace Sys2Proof.Machine

/-! Descriptors (Table 2.6). -/

/-- The descriptor at the head of octant k's remote operation queue taken, if it is of operation op; one that no row names is refused by
whichever row takes it. -/
def State.rmoTake (s : State) (k op : Nat) : State :=
  match s.ep.queues.getD (k, 4) [] with
  | [] => s
  | q :: _ =>
    let d := dAt q.desc 0 1
    if d ≠ op ∧ 4 ≤ d ∧ d ≤ 8 then s else ((s.popQueue k 4).tryDesc q).after

/-- RACC (R35). -/
def execRaccDesc (k : Fin 8) (s : State) : Res := .next (s.rmoTake k 4)
/-- BULK_COPY (R31). -/
def execBulkCopy (k : Fin 8) (s : State) : Res := .next (s.rmoTake k 5)
/-- INVALIDATE (R42, R64). -/
def execInvalidate (k : Fin 8) (s : State) : Res := .next (s.rmoTake k 6)
/-- FENCE as a descriptor (R50). -/
def execFenceDescriptor (k : Fin 8) (s : State) : Res := .next (s.rmoTake k 7)
/-- NOTIFY (R36). -/
def execNotifyDesc (k : Fin 8) (s : State) : Res := .next (s.rmoTake k 8)

/-! Requests. -/

/-- LOAD at its destination. -/
def execLoadRequest (f : Frame) (s : State) : Res := .next (s.request f 1 true)
/-- STORE at its destination. -/
def execStoreRequest (f : Frame) (s : State) : Res := .next (s.request f 2 true)
/-- ATOMIC at its destination. -/
def execAtomicRequest (f : Frame) (s : State) : Res := .next (s.request f 3 true)
/-- RACC at its hub. -/
def execRaccRequest (f : Frame) (s : State) : Res := .next (s.request f 4 true)
/-- A put frame of a BULK_COPY; a get frame is none. -/
def execBulkCopyPut (f : Frame) (s : State) : Res := .next (if isGet f then s else s.request f 5 false)
/-- A get frame of a BULK_COPY. -/
def execBulkCopyGet (f : Frame) (s : State) : Res := .next (if isGet f then s.request f 5 false else s)
/-- INVALIDATE at a reader. -/
def execInvalidateRequest (f : Frame) (s : State) : Res := .next (s.request f 6 false)
/-- NOTIFY at its destination. -/
def execNotifyRequest (f : Frame) (s : State) : Res := .next (s.request f 8 true)

/-- QUEUE_ACCEPT (R27): the first kept store whose queue has room again goes in, and is acknowledged. -/
def execQueueAccept (s : State) : Res := .next (s.acceptKept fun f => f.op != 4)

/-! Answers. -/

/-- Whether an entry of the replay buffer is the frame that an answer names. -/
def ReplayEntry.named (e : ReplayEntry) (f : Frame) : Bool :=
  e.key.sheet == f.dstSheet.toNat && e.key.agent == f.agent.toNat && e.key.job == f.job.toNat && e.frame.dstDev == f.srcDev && e.frame.dstSheet == f.srcSheet

/-- Whether an entry waits for data: a LOAD, an ATOMIC or a get. -/
def ReplayEntry.wants (e : ReplayEntry) : Bool := e.frame.kind == 0 && (e.frame.op == 1 || e.frame.op == 3 || isGet e.frame)

/-- An answer of a kind at its source: of an admitted job (R542), with its tag good (R493). -/
def State.answerIn (s : State) (f : Frame) (kind : Nat) (g : State → State) : State :=
  if f.kind.toNat ≠ kind then s
  else if !s.admitted f.job.toNat then s.bump F.EVT_TEARDOWN_CNT_late_frames 0 0 1
  else if !s.tagGood f then s.authFail f
  else (g s).after

/-- R61, R65: the line that a fill brings, installed unless the response is not cacheable or an invalidation has overtaken it. -/
def State.installFill (s : State) (e : ReplayEntry) (o : RemoteOp) (f : Frame) : State :=
  match o.fin.fill with
  | none => s
  | some (home, line) =>
    if fld f.opflag 0 0 = 0 ∨ o.overtaken then s
    else s.installLine ⟨e.key.sheet, e.key.job, home, line, bytesAt f.payload (line - e.frame.addr.toNat) 256⟩

/-- R442, R443: a cacheable 4 KiB block kept by the gateway on which its response arrived. -/
def State.keepBlock (s : State) (e : ReplayEntry) (o : Option RemoteOp) (f : Frame) : State :=
  let name := (e.key.sheet, e.key.agent, e.key.job, f.seq.toNat)
  match s.gw.find? fun g => g.2.arrivals.contains name with
  | none => s
  | some (p, g) =>
    let g := { g with arrivals := g.arrivals.erase name }
    let s := { s with gw := s.gw.put p g }
    let overtaken := (o.map RemoteOp.overtaken).getD true
    if fld f.opflag 0 0 = 0 ∨ f.payload.length ≠ 4096 ∨ overtaken ∨ s.get F.GWY_WC_CFG_rb_hold_us p = 0 then s
    else
      let b : RbBlock := ⟨e.key.sheet, e.key.job, e.key.dst, e.frame.addr.toNat, f.payload, s.datum⟩
      let same := fun y : RbBlock => y.sheet == b.sheet && y.job == b.job && y.home == b.home && y.block == b.block
      ({ s with gw := s.gw.put p { g with blocks := (b :: g.blocks.filter fun y => !same y).take 1024 } } : State).bump F.GWY_RB_CNT_fetched p 0 1

/-- RESPONSE: the data of a LOAD, ATOMIC or get (R224). A get's own write meets the checks of every write (R68, R294). -/
def execResponseFrame (f : Frame) (s : State) : Res :=
  .next (s.answerIn f 1 fun s =>
    match s.ep.replay.find? fun e => e.named f && e.seq % 2 ^ 32 == f.seq.toNat && e.wants with
    | none => s
    | some e =>
      let o := s.opOf e.op
      let st := (Status.ofCode f.spec.toNat).getD .ok
      if st ≠ .ok then s.resolve e st []
      else
        let s := s.keepBlock e o f
        let s := match o with
          | some o => s.installFill e o f
          | none => s
        match e.get with
        | some (i, a) =>
          let r := s.access i e.key.job ((s.logicalOf e.key.job s.sw.devId i).getD 0) [(a, f.payload.length, true)]
          r.1.resolve e r.2 f.payload
        | none => s.resolve e .ok f.payload)

/-- ACKNOWLEDGEMENT (R44): the numbers that it names, ending at seq. One that says OK leaves a frame that waits for data. -/
def execAcknowledgement (f : Frame) (s : State) : Res :=
  .next (s.answerIn f 2 fun s =>
    let st := (Status.ofCode (fld f.ext 15 0)).getD .ok
    (s.ep.replay.filter fun e =>
      e.named f && decide ((f.seq.toNat + 2 ^ 32 - e.seq % 2 ^ 32) % 2 ^ 32 ≤ f.spec.toNat) && !(e.wants && st == .ok)).foldl
      (fun s e => s.resolve e st []) s)

/-- NACK (R45, R341): a refused frame waits for its resend; a child that has another parent is forgotten. -/
def execNack (f : Frame) (s : State) : Res :=
  .next (s.answerIn f 3 fun s =>
    let e := s.ep.replay.find? fun e => e.named f && e.seq % 2 ^ 32 == f.seq.toNat
    if f.spec.toNat = Status.notParent.code then
      match (e.map fun e => e.key.dst).or (s.sourceOf f) with
      | some child => s.notParent f.dstSheet.toNat f.job.toNat child (e.bind fun e => s.opOf e.op)
      | none => s
    else match e with
      | none => s
      | some e => { s with ep := { s.ep with replay := s.ep.replay.map fun x => if x = e then { e with nack := some s.datum, backoff := true } else x } })

/-! Timers (R48, R54 to R57). -/

/-- The entry of a stream's frame. -/
def State.entry? (s : State) (k : StreamKey) (n : Nat) : Option ReplayEntry := s.ep.replay.find? fun e => e.key == k && e.seq == n

/-- A frame sent again, with its number and to its endpoint of the first time (R21, R48), its data read anew (R38). -/
def State.resend (s : State) (e : ReplayEntry) : State :=
  let s := { s with ep := { s.ep with replay := s.ep.replay.map fun x => if x = e then { e with last := s.datum, backoff := false } else x } }
  (s.bump F.RMO_REPLAY_CNT_replays 0 0 1).sendFrame (s.withData e.frame e.put)

def State.replayTicks (s : State) : Nat := usTicks (max 1 (s.get F.RMO_CTL_replay_interval))

/-- REPLAY_INTERVAL_EXPIRY: frame n of a stream is not acknowledged within the interval of its last send (R48, R445). -/
def execReplayIntervalExpiry (i : Fin 8) (a : Fin 512) (j : BitVec 16) (d : BitVec 20) (n : Nat) (s : State) : Res :=
  .next (match s.entry? ⟨i, a, j.toNat, d.toNat⟩ n with
    | some e => if !e.backoff && s.elapsed e.last s.replayTicks && !s.inWindow e.frame then s.resend e else s
    | none => s)

/-- RETRY_BACKOFF_EXPIRY: a frame that was refused is sent again (R48). -/
def execRetryBackoffExpiry (i : Fin 8) (a : Fin 512) (j : BitVec 16) (d : BitVec 20) (n : Nat) (s : State) : Res :=
  .next (match s.entry? ⟨i, a, j.toNat, d.toNat⟩ n with
    | some e => if e.backoff && s.elapsed (e.nack.getD 0) (usTicks (max 1 (s.get F.RMO_CTL_retry_backoff))) then s.resend e else s
    | none => s)

/-- R55: the frames of a lost pair that still wait for room are never sent. -/
def State.dropTodo (s : State) (job dst : Nat) : State :=
  (s.ep.ops.filter fun o => o.key.job == job && o.key.dst == dst && !o.todo.isEmpty && o.fin.owner.map (·.1) != some 6).foldl (fun s o =>
    let o := { o with todo := [], status := some (o.status.getD .targetLost) }
    let s := s.setOp o
    if o.left = 0 then s.opDone o [] else s) s

/-- Whether a frame belongs to a tree's operation, which R342 governs. -/
def State.treeEntry (s : State) (e : ReplayEntry) : Bool := ((s.opOf e.op).bind fun o => o.fin.owner.map (·.1)) == some 6

/-- A frame's failure after op_timeout (R54, R57); of a job in teardown nothing is reported (Table 20.6). -/
def State.timeOut (s : State) (e : ReplayEntry) : State :=
  let refusing := match e.nack with
    | some t => decide (e.first + s.opTimeout ≤ t + s.replayTicks)
    | none => false
  let first := ((s.opOf e.op).map fun o => o.status.isNone).getD true
  if refusing then
    let s := s.resolve e .retryExhausted []
    if first then s.event { code := .retryExhausted, job := some e.key.job, sheet := some e.key.sheet, unit := e.key.agent, params := [e.key.job, e.key.dst] } else s
  else
    let s := { s with ep := { s.ep with lost := if s.ep.lost.contains (e.key.job, e.key.dst) then s.ep.lost else s.ep.lost ++ [(e.key.job, e.key.dst)] } }
    let s := (s.resolve e .targetLost []).dropTodo e.key.job e.key.dst
    if first && !s.stoppingJob e.key.job then
      s.event { code := .targetLost, job := some e.key.job, sheet := some e.key.sheet, unit := e.key.agent, params := [e.key.job, e.key.dst], report := true }
    else s

/-- OP_TIMEOUT: frame n of a stream is not acknowledged within op_timeout of its first send. -/
def execOpTimeout (i : Fin 8) (a : Fin 512) (j : BitVec 16) (d : BitVec 20) (n : Nat) (s : State) : Res :=
  .next (match s.entry? ⟨i, a, j.toNat, d.toNat⟩ n with
    | some e => if s.elapsed e.first s.opTimeout && !s.treeEntry e then (s.timeOut e).after else s
    | none => s)

/-- STALLED_ISSUE_RESUME: an agent of sheet i goes on as far as its streams have room (R43). -/
def execStalledIssueResume (i : Fin 8) (a : Fin 512) (s : State) : Res :=
  let mine := fun o : RemoteOp => o.key.sheet == i.val && o.key.agent == a.val && !o.todo.isEmpty
  let s' := (s.ep.ops.filter mine).foldl (fun s o => s.pump o.id) s
  .next ((if a.val < 256 then s'.settle.resumeIssue (s'.homeCore i a) else s').after)

/-! REGION_SET (R69, Table 2.11). -/

/-- A Region Directory entry (R67). -/
def regionEntry (mode owner job : Nat) : Word := BitVec.ofNat 64 (job * 2 ^ 22 + owner * 4 + mode)

def bodyRegionSet : CmdBody := fun s o h p =>
  let i := h.sheet.toNat
  let j := h.job.toNat
  let a := uAt p 0 8
  let n := uAt p 8 4
  let owner := uAt p 12 4
  let mode := uAt p 16 1
  match firstFail [lenIs p 24, needSheet h, needJob h, (a % 2 ^ 21 == 0, Ans.badP 0), (decide (1 ≤ n ∧ n ≤ 524288), .badP 8),
      (decide (owner < 2 ^ 20), .badP 12), (decide (mode ≤ 3), .badP 16), (zeros p 17 7, .badP 17),
      (decide (a + n * 2 ^ 21 ≤ (s.sheet i).usable), .st .addressRange)] with
  | some x => (s, x)
  | none =>
    let r0 := a / 2 ^ 21
    let moved := (List.range n).any fun k => fld (s.ep.regions.getD (i, r0 + k) 0) 21 2 != owner
    let w := regionEntry mode owner j
    let put := fun (t : Tbl (Nat × Nat) Word) (k : Nat) => if w = 0 then t.del (i, r0 + k) else t.put (i, r0 + k) w
    let s := { s with ep := { s.ep with regions := (List.range n).foldl put s.ep.regions } }
    if mode < 2 ∧ !moved then (s, .ok)
    else
      -- the reply is owed before the readers can all have answered
      let s := s.owe o true
      ((s.tryRegion ⟨i, j, a, n * 2 ^ 21, s.ep.nextId, o⟩).after, .sent)
/-- REGION_SET. -/
def execRegionSet (h : CmdHdr) (p : List Byte) (s : State) : Res := .next (s.command 0x0400 h p bodyRegionSet)

end Sys2Proof.Machine
end

