-- ==== Sys2Proof/Machine/Security.lean ====
section
/-! DEFINITION. The commands of chapter 18: admission, teardown and attestation of jobs (R483 to R488, R540 to R544), debug (R499 to R501), imports and exports
(R496, R497), the SPDM responder (R481, R482) and PLDM for Firmware Update (R477, R480). Outcomes of signatures and of decryption are operands. -/

namespace Sys2Proof.Machine

/-! Jobs. -/

/-- JOB_ADMIT (R483 to R486, Table 17.8); ok is whether the envelope decrypts and both signatures verify. -/
def bodyJobAdmit (ok : Bool) : CmdBody := fun s o h p =>
    match s.takePart 0x0300 (s.trueSrc o.src) p with
    | (s, .error a) => s.partAnswer a
    | (s, .ok d) =>
      match s.admitAuth d ok with
      | some a => s.admitRefused a
      | none =>
        let j := uAt (manifestBody d) 2 2
        let x := s.job j
        if x.life.st = .stopping then
          let r := x.life.doEnable (mkPacket h 0x0300 d) .jobExists s.datum
          (s.setJob j { x with life := r.1 }, r.2.1)
        else s.admitBegin d
def execJobAdmit (h : CmdHdr) (p : List Byte) (ok : Bool) (s : State) : Res := .next (s.command 0x0300 h p (bodyJobAdmit ok))

/-- JOB_TEARDOWN (R540). -/
def bodyJobTeardown : CmdBody := fun s o h p =>
    match firstFail [needJob h, lenIs p 0] with
    | some a => (s, a)
    | none =>
      let j := h.job.toNat
      let x := s.job j
      match x.life.st with
      | .off => (s, .data (List.replicate 24 0))
      | .stopping => ((s.setJob j { x with life := (x.life.doDisable o .ok s.datum).1 }).tornDown (x.life.deferred.map Packet.owed).toList, .later true)
      | _ => (s.jobStop j [o], .later true)
def execJobTeardown (h : CmdHdr) (p : List Byte) (s : State) : Res := .next (s.command 0x0301 h p bodyJobTeardown)

/-- TEARDOWN_STEP_DONE (Table 20.5): the next step of job j runs once the present one waits for nothing. -/
def execTeardownStepDone (j : BitVec 16) (s : State) : Res := .next (s.jobGo j.toNat)

/-- TEARDOWN_WAIT_LIMIT (R543). -/
def execTeardownWaitLimit (j : BitVec 16) (s : State) : Res := .next (s.jobAbandon j.toNat)

/-! Peer attestation (R487, R488). -/

/-- An item of a phase body. -/
def attItem (t : Nat) (v : List Byte) : List Byte := leBytes 2 t ++ leBytes 2 0 ++ leBytes 4 v.length ++ v ++ List.replicate (alignUp v.length 8 - v.length) 0

/-- The value of the first item of a type in a body; n bounds the items looked at. -/
def itemOf (t : Nat) : Nat → List Byte → Option (List Byte)
  | 0, _ => none
  | n + 1, b =>
    if b.length < 8 then none
    else
      let len := uAt b 4 4
      if uAt b 0 2 = t then (if b.length < 8 + len then none else some (bytesAt b 8 len)) else itemOf t n (b.drop (8 + alignUp len 8))

/-- The items that a device puts in a body, in ascending order of type. Keys, nonces, ciphertexts and signatures are free values, of the lengths that
their algorithms have; the wrapped key of item 10 is the job key under GCM. -/
def State.attBody (s : State) (j : Nat) (items : List Nat) : State × List Byte :=
  items.foldl (fun (r : State × List Byte) t =>
    let free := fun n => let q := r.1.freeBytes n; (q.1, r.2 ++ attItem t q.2)
    match t with
    | 1 => (r.1, r.2 ++ attItem 1 (Config.certChain 0))
    | 2 => (r.1, r.2 ++ attItem 2 (Config.certChain 1))
    | 3 => free 32
    | 4 => free 97
    | 5 => free 1568
    | 6 => (r.1, r.2 ++ attItem 6 ((r.1.measures r.1.chtDie).flatMap id))
    | 7 => (r.1, r.2 ++ attItem 7 (r.1.job j).digest)
    | 8 => free 96
    | 9 => free 4627
    | _ => free 60) (s, [])

/-- A phase sent to a device: the phase, the job and the sender's logical number, and the items. -/
def State.sendPhase (s : State) (dev phase j : Nat) (items : List Nat) : State :=
  let r := s.attBody j items
  r.1.send (.mgmt dev (leBytes 1 phase ++ leBytes 1 0 ++ leBytes 2 j ++ leBytes 4 (s.job j).own ++ r.2))

def State.setAttest (s : State) (j peer : Nat) (x : Option Attest) : State :=
  let y := s.job j
  s.setJob j { y with attests := (y.attests.filter fun a => a.peer != peer) ++ x.toList }

/-- PEER_ATTEST (R487): phase 0 from the fabric manager, which names the origin as the peer. -/
def bodyPeerAttest : CmdBody := fun s o h p =>
    match s.takePart 0x0900 (s.trueSrc o.src) p with
    | (s, .error a) => s.partAnswer a
    | (s, .ok d) =>
      let j := h.job.toNat
      let peer := uAt d 4 4
      match firstFail [needJob h, (d.length == 8, Ans.badP 0), (uAt d 0 1 == 0, .badP 16), (zeros d 1 1, .badP 17), (uAt d 2 2 == j, .badP 18), (peer == 0, .badP 20),
          (!(s.job j).attests.any (fun a => a.peer == peer), .st .deviceBusy)] with
      | some a => s.admitRefused a
      | none => match s.mapEntry j peer with
        | none => s.admitRefused (.st .unmappedDevice)
        | some w => ((s.setAttest j peer (some ⟨peer, 1, some o⟩)).sendPhase (fld w 19 0) 1 j [1, 2, 3, 4], .later true)
def execPeerAttest (h : CmdHdr) (p : List Byte) (s : State) : Res := .next (s.command 0x0900 h p bodyPeerAttest)

/-- R488 over what a body shows: ok is the outcome for chains, owner slots, signatures and the debug state that measurement 7 shows. -/
def State.peerOk (s : State) (j : Nat) (b : List Byte) (ok : Bool) : Bool :=
  ok && (match itemOf 6 16 b with
    | some m => m.length == 336 && sha384 (m.take 240) == s.fwDigest
    | none => false) && itemOf 7 16 b == some (s.job j).digest

/-- The exchange stops (R488): the member answers phase 0, the origin reports to the fabric manager. -/
def State.untrusted (s : State) (j peer : Nat) (owed : Option Owed) : State :=
  let s := (s.setAttest j peer none).bump F.CTC_FAIL_CNT_admit s.chtDie 0 1
  let s := s.event { code := .peerUntrusted, job := some j, params := [peer], report := owed.isNone }
  match owed with
  | some o => s.final o .peerUntrusted
  | none => s

/-- PEER_ATTEST_PHASE (R487, R488, Table 18.5): phases 1 to 4 from the device dev, with data d; anything else is discarded. -/
def execPeerAttestPhase (dev : BitVec 20) (d : List Byte) (ok : Bool) (s : State) : Res :=
  .next (
    let phase := uAt d 0 1
    let j := uAt d 2 2
    let peer := uAt d 4 4
    let b := d.drop 8
    let known := match s.mapEntry j peer with
      | some w => fld w 19 0 == dev.toNat
      | none => false
    if !known || !s.admitted j || !s.chtActive then s
    else
      let at_ := (s.job j).attests.find? fun a => a.peer == peer
      let origin := (s.job j).own == 0
      match phase, at_ with
      | 1, none =>
        if origin && [1, 2, 3, 4].all fun t => (itemOf t 16 b).isSome then
          (s.setAttest j peer (some ⟨peer, 2, none⟩)).sendPhase dev.toNat 2 j [1, 2, 3, 4, 5, 6, 7, 8, 9]
        else s
      | 2, some a =>
        if a.phase ≠ 1 ∨ a.owed.isNone then s
        else if s.peerOk j b ok then (s.setAttest j peer (some { a with phase := 3 })).sendPhase dev.toNat 3 j [6, 7, 8, 9]
        else s.untrusted j peer a.owed
      | 3, some a =>
        if a.phase ≠ 2 ∨ !origin then s
        else if s.peerOk j b ok then (s.setAttest j peer none).sendPhase dev.toNat 4 j [10]
        else s.untrusted j peer none
      | 4, some a =>
        if a.phase ≠ 3 then s
        else if ok && (itemOf 10 16 b).isSome then
          let s := s.setAttest j peer none
          let s := (s.setJob j { s.job j with key := some s.free }).draw
          match a.owed with
          | some o => s.final o .ok
          | none => s
        else s.untrusted j peer a.owed
      | _, _ => s)

/-! Debug. -/

/-- A change of debug state (R500): measurement 7 of each die, and DEBUG_STATE; at the end of debug what PORT_INJECT has armed is disarmed. -/
def State.setDebug (s : State) (d : Nat) : State :=
  if s.sec.debug = d then s
  else
    let s : State := { s with sec := { s.sec with debug := d } }
    let s := (s.measureDebug 0).measureDebug 1
    let s := s.event { code := .debugState, params := [d] }
    if d = 0 then s.disarmAll else s

/-- Table 18.10's token of R499: its fixed part. -/
def tokenOk (d : List Byte) : Bool :=
  d.length == 4819 && uAt d 0 1 == 1 && (uAt d 1 1 == 1 || uAt d 1 1 == 2) && zeros d 2 6 && zeros d 12 4

/-- R500: no admitted job forbids scope FAULT; no job is admitted and every sheet is OFF for FULL. -/
def State.debugAllowed (s : State) (scope : Nat) : Bool :=
  if scope = 1 then s.jobs.all fun e => e.2.life.st == .off || e.2.faultDebug
  else s.jobs.all (fun e => e.2.life.st == .off) && s.sheets.all fun e => e.2.life.st == .off

/-- DEBUG_UNLOCK (R499); sig is whether both owner signatures verify. -/
def bodyDebugUnlock (sig : Bool) : CmdBody := fun s o _ p =>
    match s.takePart 0x0901 (s.trueSrc o.src) p with
    | (s, .error a) => (s, a)
    | (s, .ok d) =>
      if d.isEmpty then
        let r := s.freeBytes 32
        ({ r.1 with sec := { r.1.sec with challenge := some r.2 } }, .data r.2)
      else
        let was := s.sec.challenge
        let s : State := { s with sec := { s.sec with challenge := none } }
        let scope := uAt d 1 1
        match firstFail [(tokenOk d, Ans.badP 16), (was == some (bytesAt d 16 32), .st .tokenInvalid), (bytesAt d 48 48 == s.sec.target, .st .tokenInvalid),
            (sig && !s.sec.owners.isEmpty, .st .tokenInvalid), (!s.sec.jtagKill || scope == 1, .st .tokenInvalid), (s.debugAllowed scope, .st .debugConflict)] with
        | some a => (s, a)
        | none =>
          let s : State := { s with sec := { s.sec with debugEnd := s.datum + uAt d 8 4 * 1000000000 } }
          ((s.bump F.CTC_DEBUG_unlocks s.chtDie 0 1).setDebug scope, .ok)
def execDebugUnlock (h : CmdHdr) (p : List Byte) (sig : Bool) (s : State) : Res := .next (s.command 0x0901 h p (bodyDebugUnlock sig))

/-- DEBUG_LOCK (R501). -/
def bodyDebugLock : CmdBody := fun s _ _ p =>
    match firstFail [lenIs p 0] with
    | some a => (s, a)
    | none => (s.setDebug 0, .ok)
def execDebugLock (h : CmdHdr) (p : List Byte) (s : State) : Res := .next (s.command 0x0902 h p bodyDebugLock)

/-- DEBUG_TOKEN_EXPIRY (R501). -/
def execDebugTokenExpiry (s : State) : Res := .next (if s.sec.debugEnd ≤ s.datum then s.setDebug 0 else s)

/-- CERT_READ (R476): a part of the chain of slot 0 or 1, in the part format of R483. The spec does not lay out the data of the command; here it is the slot
(u8), 3 B of zero and the offset (u32) at which the part begins (DESIGN CHOICE, log 260). -/
def bodyCertRead : CmdBody := fun s o _ p =>
    match s.takePart 0x0903 (s.trueSrc o.src) p with
    | (s, .error a) => (s, a)
    | (s, .ok d) =>
      match firstFail [(d.length == 8, Ans.badP 0), (decide (uAt d 0 1 ≤ 1), .badP 16), (zeros d 1 3, .badP 17)] with
      | some a => (s, a)
      | none =>
        let c := Config.certChain (uAt d 0 1)
        let b := (c.drop (uAt d 4 4)).take 4072
        (s, .data (leBytes 4 c.length ++ leBytes 4 (uAt d 4 4) ++ leBytes 4 b.length ++ leBytes 4 0 ++ b))
def execCertRead (h : CmdHdr) (p : List Byte) (s : State) : Res := .next (s.command 0x0903 h p bodyCertRead)

/-! Imports and exports (R496, R497). -/

/-- The Chartroom function whose host memory a command means: that of its ring, else the active die's. -/
def State.hostDie (s : State) (x : Source) : Nat := match s.trueSrc x with
  | .ring d _ => d.val
  | _ => s.chtDie

/-- What both transfers check: a sheet that is ON, the job's data_key, and a range of the sheet's HBM window. -/
def State.transferChecks (s : State) (h : CmdHdr) (a n : Nat) : List (Bool × Ans) :=
  [needSheet h, needJob h, (decide (n ≤ 2 ^ 22), Ans.badP 16), (s.sheetOn h.sheet.toNat, .bad 16), ((s.job h.job.toNat).dataKey.isSome, .st .keyAbsent),
   (decide (a + n ≤ (s.sheet h.sheet.toNat).usable), .st .addressRange)]

/-- The additional data of a transfer: the job ID, six bytes of zero, the offset and the length. -/
def transferAad (h : CmdHdr) (a n : Nat) : List Byte := leBytes 2 h.job.toNat ++ List.replicate 6 0 ++ leBytes 8 a ++ leBytes 8 n

/-- The n bytes from address a of a host memory that holds `mem` from address base on, and zeros elsewhere. -/
def hostBytes (base : Nat) (mem : List Byte) (a n : Nat) : List Byte := bytesAt (List.replicate (min (base - a) n) 0 ++ mem) (a - base) n

/-- MEM_IMPORT (R496): the host's memory, by address and length, gives the chunk at the address named, which the device decrypts under the data_key. -/
def bodyMemImport (host : Nat → Nat → List Byte) : CmdBody := fun s _ h p =>
    let i := h.sheet.toNat
    let a := uAt p 0 8
    let n := uAt p 16 4
    match firstFail ([lenIs p 52, (decide (n % 16 = 0), Ans.badP 16), (zeros p 20 4, .badP 20), (zeros p 24 4, .badP 24)] ++ s.transferChecks h a n),
      gcmOpen ((s.job h.job.toNat).dataKey.getD []) (bytesAt p 24 12) (transferAad h a n) (host (uAt p 8 8) n) (bytesAt p 36 16) with
    | some x, _ => (s, x)
    | none, none => (s, .st .importAuth)
    | none, some b => match s.meets i 2 [(a, n, true)] with
      | (s, some st) => (s, .st st)
      | (s, none) => (s.write i a b, .ok)
/-- MEM_IMPORT, with what the host's memory holds from address base on. -/
def execMemImport (h : CmdHdr) (p : List Byte) (base : Word) (mem : List Byte) (s : State) : Res :=
  .next (s.command 0x0408 h p (bodyMemImport (hostBytes base.toNat mem)))

/-- MEM_EXPORT (R497). The nonce is 0x0000_0001 and the counter, each in the byte order of R2. -/
def bodyMemExport : CmdBody := fun s o h p =>
    let i := h.sheet.toNat
    let a := uAt p 0 8
    let n := uAt p 16 4
    match firstFail (lenIs p 20 :: s.transferChecks h a n) with
    | some x => (s, x)
    | none => match s.meets i 2 [(a, n, false)] with
     | (s, some st) => (s, .st st)
     | (s, none) =>
      let j := s.job h.job.toNat
      let nonce := leBytes 4 1 ++ leBytes 8 j.exports
      let r := gcmSeal (j.dataKey.getD []) nonce (transferAad h a n) (s.rd i a n)
      let s := s.setJob h.job.toNat { j with exports := j.exports + 1 }
      (s.send (.host (s.hostDie o.src) (uAt p 8 8) r.1), .data (nonce ++ r.2))
def execMemExport (h : CmdHdr) (p : List Byte) (s : State) : Res := .next (s.command 0x0409 h p bodyMemExport)

/-! PLDM for Firmware Update. -/

/-- OWNER_RECORD (R477): the digest of the owner's two keys, the digests of fabric manager keys, min_serial and jtag_kill, and whether the signatures of R477
verify. -/
def execOwnerRecord (owner : List Byte) (fms : List (List Byte)) (serial : BitVec 64) (kill ok : Bool) (s : State) : Res :=
  .next (
    let fresh := s.sec.owners.getLast? != some owner
    if !ok || decide (4 < fms.length) || (fresh && decide (8 ≤ s.sec.owners.length)) then s.event { code := .ownerRefused }
    else { s with sec := { s.sec with owners := if fresh then s.sec.owners ++ [owner] else s.sec.owners, fmKeys := fms, minSerial := serial.toNat,
                                      jtagKill := s.sec.jtagKill || kill } })

/-- The boot configuration that a record gives (Table 21.2). -/
def bootConfig (r : List Byte) : Option (Nat × Nat) :=
  if r.length == 32 && uAt r 0 1 == 1 && zeros r 1 7 && decide (uAt r 8 8 < 2 ^ 36) && decide (uAt r 16 8 < 2 ^ 36) && zeros r 24 8 then some (uAt r 8 8, uAt r 16 8) else none

/-- PLDM_FIRMWARE_UPDATE (R480, Table 21.2): 0 writes an image of a SVN to a slot (false: A), 1 activates the image of a slot, 2 writes the boot
configuration record. They take effect at the next boot. -/
def execPldmFirmwareUpdate (what : Fin 3) (slot : Bool) (svn : BitVec 8) (record : List Byte) (s : State) : Res :=
  .next (
    if !s.boot.standby then s
    else if what = 0 then
      { s with sec := (if slot then { s.sec with slotB := some svn.toNat } else { s.sec with slotA := some svn.toNat }) }
    else if what = 1 then { s with sec := { s.sec with activated := some slot } }
    else { s with boot := { s.boot with config := bootConfig record } })

/-! The SPDM responder (R481, R482). Codes of messages are those of SPDM 1.3. -/

def State.spdm (s : State) (x : Source) (code : Nat) (b : List Byte) : State := s.send (.spdm x code b)
def State.spdmError (s : State) (x : Source) : State := s.spdm x 0x7F []

/-- A request that needs the algorithms negotiated. -/
def State.spdmAt (s : State) (x : Source) (n : Nat) (f : State → State) : State := if s.sec.negotiated < n then s.spdmError x else f s

/-- Signature and ML-DSA-87 OpaqueData of a signed response: free values. -/
def State.signed (s : State) (x : Source) (code : Nat) (b : List Byte) : State :=
  let r := s.freeBytes (96 + 4627)
  r.1.spdm x code (b ++ r.2)

/-- GET_VERSION: the negotiation begins anew. -/
def execGetVersion (x : Source) (s : State) : Res := .next (({ s with sec := { s.sec with negotiated := 1 } } : State).spdm x 0x04 (leBytes 2 0x1300))
/-- GET_CAPABILITIES. -/
def execGetCapabilities (x : Source) (s : State) : Res :=
  .next (s.spdmAt x 1 fun s => ({ s with sec := { s.sec with negotiated := max 2 s.sec.negotiated } } : State).spdm x 0x61 [])
/-- NEGOTIATE_ALGORITHMS. -/
def execNegotiateAlgorithms (x : Source) (s : State) : Res :=
  .next (s.spdmAt x 2 fun s => ({ s with sec := { s.sec with negotiated := 3 } } : State).spdm x 0x63 [])
/-- GET_DIGESTS: the SHA-384 of both chains. -/
def execGetDigests (x : Source) (s : State) : Res :=
  .next (s.spdmAt x 3 fun s => s.spdm x 0x01 (sha384 (Config.certChain 0) ++ sha384 (Config.certChain 1)))
/-- GET_CERTIFICATE: n bytes of the chain of a slot from an offset. -/
def execGetCertificate (x : Source) (slot : Fin 2) (off n : BitVec 16) (s : State) : Res :=
  .next (s.spdmAt x 3 fun s => s.spdm x 0x02 (((Config.certChain slot).drop off.toNat).take n.toNat))
/-- CHALLENGE, signed with both keys. -/
def execChallengeMsg (x : Source) (nonce : List Byte) (s : State) : Res :=
  .next (s.spdmAt x 3 fun s => s.signed x 0x03 (sha384 (Config.certChain 0) ++ nonce))
/-- GET_MEASUREMENTS: blocks 1 to 7. -/
def execGetMeasurements (x : Source) (s : State) : Res :=
  .next (s.spdmAt x 3 fun s => s.signed x 0x60 ((s.measures s.chtDie).flatMap id))

/-- A session destroyed with its keys (R498); the fabric manager's session ends with it (R482). -/
def State.endSession (s : State) (id : Nat) : State :=
  match s.sec.sessions.find id with
  | none => s
  | some x =>
    let s : State := { s with sec := { s.sec with sessions := s.sec.sessions.del id } }
    if x.fm then { s with fmSession := none } else s

/-- KEY_EXCHANGE: session id of requester x. -/
def execKeyExchange (x : Source) (id : BitVec 32) (s : State) : Res :=
  .next (s.spdmAt x 3 fun s =>
    if s.sec.sessions.has id.toNat then s.spdmError x
    else ({ s with sec := { s.sec with sessions := s.sec.sessions.put id.toNat ⟨x, false, false, s.datum⟩ } } : State).signed x 0x64 ((s.measures s.chtDie).flatMap fun l => l))

/-- FINISH with mutual authentication: key is the digest of the requester's public key, and ok the outcome. A fabric manager endpoint with a key of the owner
record has its session open from now on (R482). -/
def execFinishMsg (x : Source) (id : BitVec 32) (key : List Byte) (ok : Bool) (s : State) : Res :=
  .next (match s.sec.sessions.find id.toNat with
    | none => s.spdmError x
    | some y =>
      if y.src ≠ x ∨ y.ready then s.spdmError x
      else if !ok then (s.endSession id.toNat).spdmError x
      else
        let fm := match x with
          | .fm e => if s.sec.fmKeys.contains key then some e else none
          | _ => none
        let s : State := { s with sec := { s.sec with sessions := s.sec.sessions.put id.toNat { y with ready := true, fm := fm.isSome, heard := s.datum } },
                                  fmSession := fm.or s.fmSession }
        s.spdm x 0x65 [])

/-- A request inside a ready session. -/
def State.inSession (s : State) (x : Source) (id : Nat) (code : Nat) : State :=
  match s.sec.sessions.find id with
  | some y =>
    if y.src = x ∧ y.ready then ({ s with sec := { s.sec with sessions := s.sec.sessions.put id { y with heard := s.datum } } } : State).spdm x code [] else s.spdmError x
  | none => s.spdmError x

/-- HEARTBEAT. -/
def execHeartbeatMsg (x : Source) (id : BitVec 32) (s : State) : Res := .next (s.inSession x id.toNat 0x68)
/-- KEY_UPDATE. -/
def execKeyUpdate (x : Source) (id : BitVec 32) (s : State) : Res := .next (s.inSession x id.toNat 0x69)
/-- END_SESSION: the session's keys are destroyed. -/
def execEndSession (x : Source) (id : BitVec 32) (s : State) : Res :=
  .next (match s.sec.sessions.find id.toNat with
    | some y => if y.src = x then (s.endSession id.toNat).spdm x 0x6C [] else s.spdmError x
    | none => s.spdmError x)

/-- SPDM_SESSION_TIMEOUT (R498). -/
def execSpdmSessionTimeout (id : BitVec 32) (s : State) : Res := .next (s.endSession id.toNat)

/-- CTC_FAIL_INFO: a write of 1 re-arms the capture (R493). -/
def execCtcFailInfo (die : Fin 2) (w : Word) (s : State) : Res := .next (s.rearm ⟨.CTC_FAIL_INFO, die, 0⟩ w)

end Sys2Proof.Machine
end

