-- ==== Sys2Proof/Machine/Packets.lean ====
section
/-! DEFINITION. Wrapped commands: LAUNCH_AT and the launches that it holds (R359 to R362). -/

namespace Sys2Proof.Machine

/-- What a command of Table 17.5 does beyond the checks of every packet. `ok` is the outcome of the check of its
signature, where it carries one, and `chunk` what the host's memory holds where it imports from. A LAUNCH_AT wraps no LAUNCH_AT. -/
def packetBody (ok : Bool) (chunk : List Byte) : Nat → Option CmdBody
  | 0x0100 => some bodyNop
  | 0x0101 => some bodyDeviceInfo
  | 0x0102 => some bodyRegWrite
  | 0x0103 => some bodyDeterminismSet
  | 0x0105 => some bodyChartroomFailover
  | 0x0106 => some bodyDeviceReset
  | 0x0200 => some bodySheetCreate
  | 0x0201 => some bodySheetDestroy
  | 0x0202 => some bodyContextCreate
  | 0x0203 => some bodyContextDestroy
  | 0x0204 => some bodyContextResume
  | 0x0205 => some bodyKernelDoorbell
  | 0x0206 => some bodyServeSet
  | 0x0207 => some bodySheetReset
  | 0x0300 => some (bodyJobAdmit ok)
  | 0x0301 => some bodyJobTeardown
  | 0x0302 => some bodyCancelBatch
  | 0x0303 => some bodyRecipeSet
  | 0x0304 => some bodyJobmapWrite
  | 0x0400 => some bodyRegionSet
  | 0x0401 => some bodyPoolCreate
  | 0x0402 => some bodyPoolSetMode
  | 0x0403 => some bodyPoolSetThresh
  | 0x0404 => some bodyPoolUnquarantine
  | 0x0405 => some bodyPoolDestroy
  | 0x0406 => some bodyBucketDefine
  | 0x0407 => some bodyBucketUndefine
  | 0x0408 => some (bodyMemImport fun _ n => bytesAt chunk 0 n)
  | 0x0409 => some bodyMemExport
  | 0x0500 => some bodyPortEnable
  | 0x0501 => some bodyPortDisable
  | 0x0502 => some bodyPortRetrain
  | 0x0503 => some bodyPortUnquarantine
  | 0x0504 => some bodyPortInject
  | 0x0505 => some bodySwitchTableWrite
  | 0x0506 => some bodySwitchExcWrite
  | 0x0507 => some bodyDeviceIdSet
  | 0x0508 => some bodyGatewaySet
  | 0x0509 => some bodyPeerWrite
  | 0x0600 => some bodyGroupDefine
  | 0x0601 => some bodyGroupUndefine
  | 0x0602 => some bodyCollectiveLaunch
  | 0x0603 => some bodyCollectiveStatus
  | 0x0604 => some bodyTreeStart
  | 0x0605 => some bodyTreeReparent
  | 0x0606 => some bodyTreeEnd
  | 0x0700 => some bodyLayerSet
  | 0x0701 => some bodyGazetteerWrite
  | 0x0702 => some bodyCsetWrite
  | 0x0703 => some bodyExpertDirWrite
  | 0x0704 => some bodyTableCommit
  | 0x0800 => some bodyPowerLimitSet
  | 0x0801 => some (bodyOverlayLoad ok)
  | 0x0802 => some bodyOverlayClear
  | 0x0803 => some bodyContourReport
  | 0x0804 => some bodyRetrainSchedule
  | 0x0900 => some bodyPeerAttest
  | 0x0901 => some (bodyDebugUnlock ok)
  | 0x0902 => some bodyDebugLock
  | 0x0903 => some bodyCertRead
  | 0x0A00 => some bodyDiagRead
  | 0x0A01 => some bodyHbmRepair
  | 0x0A02 => some bodyClosureCheck
  | 0x0A03 => some bodyEventRead
  | 0x0B00 => some bodyTelemetrySet
  | 0x0B01 => some bodyTelemetryRead
  | 0x0B02 => some bodyLevelRead
  | _ => none

/-- The header of the packet at byte o of a launch's parameters (Table 17.3), with the launch as its source. -/
def innerHdr (id : Nat) (p : List Byte) (o : Nat) : CmdHdr :=
  let f := fun (a n hi lo : Nat) => bitsOf (uAt p (o + a) n) hi lo
  { src := .launch id
    length := BitVec.ofNat 16 (uAt p (o + 2) 2)
    seq := BitVec.ofNat 32 (uAt p (o + 4) 4)
    tag := BitVec.ofNat 64 (uAt p (o + 8) 8)
    sheet := BitVec.ofNat 3 (f 16 1 2 0)
    resv16 := BitVec.ofNat 5 (f 16 1 7 3)
    sheetValid := bitOf (uAt p (o + 17) 1) 0
    jobValid := bitOf (uAt p (o + 17) 1) 1
    interrupt := bitOf (uAt p (o + 17) 1) 2
    barrier := bitOf (uAt p (o + 17) 1) 3
    resv17 := BitVec.ofNat 4 (f 17 1 7 4)
    job := BitVec.ofNat 16 (uAt p (o + 18) 2)
    logical := BitVec.ofNat 20 (f 20 4 19 0)
    resv20 := BitVec.ofNat 12 (f 20 4 31 20)
    resv24 := BitVec.ofNat 320 (uAt p (o + 24) 40) }

/-- The wrapped packet of a LAUNCH_AT (Table 12.6). -/
def innerPacket (id : Nat) (p : List Byte) : Packet := ⟨uAt p 16 2, innerHdr id p 16, p.drop 80⟩

/-- A wrapped command begins (R360): it meets the checks of a packet of its launch's source, and its reply ends the launch (R361). -/
def State.beginLaunch (s : State) (ok : Bool) (chunk : List Byte) (id : Nat) (owed : Owed) (skew : Int) (late : Bool) (x : Packet) : State :=
  let s := { s with cht := { s.cht with began := s.cht.began.put id (owed, skew, late) } }
  let o := x.owed
  match s.cmdCheck x.op { x.hdr with src := owed.src } x.params, packetBody ok chunk x.op with
  | some a, _ => s.answer o a
  | none, some b => let r := b s o x.hdr x.params; r.1.answer o r.2
  | none, none => s.answer o (.st .opcodeUnknown)

/-- DESC_FORMAT that a wrapped command would answer, by its offset; one that turns on the named sheet's state is no matter of format. -/
def State.innerBad (s : State) (ok : Bool) (chunk : List Byte) (o : Owed) (x : Packet) : Option Nat :=
  match packetBody ok chunk x.op with
  | none => none
  | some b => match (b { s with cht := { s.cht with began := s.cht.began.put s.cht.nextLaunch (o, 0, false) } } x.owed x.hdr x.params).2 with
    | .done .descFormat d _ => if d = 16 then none else some d
    | _ => none

/-- LAUNCH_AT (R359, R360). -/
def bodyLaunchAt (ok : Bool) (chunk : List Byte) : CmdBody := fun s o _ p =>
  let id := s.cht.nextLaunch
  let x := innerPacket id p
  let stamp := uAt p 0 8
  let flags := uAt p 8 4
  let bad := s.innerBad ok chunk o x
  match firstFail [(decide (80 ≤ p.length), Ans.bad 2), (flags / 4 == 0, .badP 8), (zeros p 12 4, .badP 12), (x.op != 0x0104, .badP 16),
      ((hdrBad x.hdr).isNone, .badP (16 + (hdrBad x.hdr).getD 0)), (x.hdr.length.toNat == x.params.length, .badP 18),
      ((cmdRights x.op).isSome, .st .opcodeUnknown), (sourceMay x.op o.src, .st .accessDenied),
      (bad.isNone, .badP (16 + bad.getD 0)),
      (decide (stamp ≤ s.datum + 2 ^ 36), .st .launchFar), (decide (s.cht.timed.length < 64), .st .launchFull),
      (s.get F.DTM_STATUS_state == 2 || bitOf flags 1, .st .datumUnlocked)] with
  | some a => (s, a)
  | none =>
    let s := { s with cht := { s.cht with nextLaunch := id + 1 } }
    if s.datum ≤ stamp then ({ s with cht := { s.cht with timed := s.cht.timed ++ [⟨id, o, stamp, x⟩] } }, .later true)
    else
      let skew : Int := (s.datum : Int) - stamp
      let s := s.bump F.DTM_LAUNCH_STATUS_late 0 0 1
      let s := s.owe o true
      if bitOf flags 0 then (s.beginLaunch ok chunk id o skew true x, .sent) else (s.launchReply o skew true .late, .sent)
def execLaunchAt (h : CmdHdr) (p : List Byte) (ok : Bool) (chunk : List Byte) (s : State) : Res :=
  .next (s.command 0x0104 h p (bodyLaunchAt ok chunk))

/-- The held launch that begins next: the earliest stamp, and of equal stamps the lowest sequence number. -/
def State.dueLaunch (s : State) : Option Timed :=
  (sortBy (fun t : Timed => t.stamp * 2 ^ 32 + t.owed.seq.toNat) (s.cht.timed.filter fun t => decide (t.stamp ≤ s.datum))).head?

/-- LAUNCH_AT_STAMP: the Datum has reached a held launch's stamp (R360). -/
def execLaunchAtStamp (ok : Bool) (chunk : List Byte) (s : State) : Res :=
  .next (match s.dueLaunch with
    | some t =>
      if s.chtActive then
        let s := { s with cht := { s.cht with timed := s.cht.timed.filter fun x => x.id != t.id } }
        s.beginLaunch ok chunk t.id t.owed ((s.datum : Int) - t.stamp) false t.inner
      else s
    | none => s)

end Sys2Proof.Machine
end

