-- ==== Sys2Proof/Machine/Dispatch.lean ====
section
/-! DEFINITION. The dispatch of commands to their meanings. -/

namespace Sys2Proof.Machine

def exec (i : Instr) (s : State) : Host.Outcome State Fault Refusal :=
  match i with
  | .rld c f => Sys2Proof.Machine.execRld c f s
  | .rst c f => Sys2Proof.Machine.execRst c f s
  | .ratom c f => Sys2Proof.Machine.execRatom c f s
  | .fence c f => Sys2Proof.Machine.execFence c f s
  | .raccDesc k => Sys2Proof.Machine.execRaccDesc k s
  | .bulkCopy k => Sys2Proof.Machine.execBulkCopy k s
  | .invalidate k => Sys2Proof.Machine.execInvalidate k s
  | .fenceDescriptor k => Sys2Proof.Machine.execFenceDescriptor k s
  | .notifyDesc k => Sys2Proof.Machine.execNotifyDesc k s
  | .loadRequest f => Sys2Proof.Machine.execLoadRequest f s
  | .storeRequest f => Sys2Proof.Machine.execStoreRequest f s
  | .atomicRequest f => Sys2Proof.Machine.execAtomicRequest f s
  | .raccRequest f => Sys2Proof.Machine.execRaccRequest f s
  | .bulkCopyPut f => Sys2Proof.Machine.execBulkCopyPut f s
  | .bulkCopyGet f => Sys2Proof.Machine.execBulkCopyGet f s
  | .invalidateRequest f => Sys2Proof.Machine.execInvalidateRequest f s
  | .notifyRequest f => Sys2Proof.Machine.execNotifyRequest f s
  | .responseFrame f => Sys2Proof.Machine.execResponseFrame f s
  | .acknowledgement f => Sys2Proof.Machine.execAcknowledgement f s
  | .nack f => Sys2Proof.Machine.execNack f s
  | .replayIntervalExpiry b a j d n => Sys2Proof.Machine.execReplayIntervalExpiry b a j d n s
  | .retryBackoffExpiry b a j d n => Sys2Proof.Machine.execRetryBackoffExpiry b a j d n s
  | .opTimeout b a j d n => Sys2Proof.Machine.execOpTimeout b a j d n s
  | .stalledIssueResume n0 a => Sys2Proof.Machine.execStalledIssueResume n0 a s
  | .queueAccept => Sys2Proof.Machine.execQueueAccept s
  | .regionSet h p => Sys2Proof.Machine.execRegionSet h p s
  | .rlcCtlFlush => Sys2Proof.Machine.execRlcCtlFlush s
  | .rmoFaultInfo n0 w => Sys2Proof.Machine.execRmoFaultInfo n0 w s
  | .rgdViolInfo w => Sys2Proof.Machine.execRgdViolInfo w s
  | .registerWrite x a n w => Sys2Proof.Machine.execRegisterWrite x a n w s
  | .layerSet h p => Sys2Proof.Machine.execLayerSet h p s
  | .gazetteerWrite h p => Sys2Proof.Machine.execGazetteerWrite h p s
  | .csetWrite h p => Sys2Proof.Machine.execCsetWrite h p s
  | .expertDirWrite h p => Sys2Proof.Machine.execExpertDirWrite h p s
  | .tableCommit h p => Sys2Proof.Machine.execTableCommit h p s
  | .tableCommitSwitch h p => Sys2Proof.Machine.execTableCommitSwitch h p s
  | .drainingComplete n0 => Sys2Proof.Machine.execDrainingComplete n0 s
  | .syncingComplete n0 => Sys2Proof.Machine.execSyncingComplete n0 s
  | .surveySubmission o => Sys2Proof.Machine.execSurveySubmission o s
  | .surveyComplete o => Sys2Proof.Machine.execSurveyComplete o s
  | .svyCtlFlushGvc o => Sys2Proof.Machine.execSvyCtlFlushGvc o s
  | .gazCtlFlush o => Sys2Proof.Machine.execGazCtlFlush o s
  | .svyFaultInfo o w => Sys2Proof.Machine.execSvyFaultInfo o w s
  | .censusRecord f => Sys2Proof.Machine.execCensusRecord f s
  | .censusTimeout n0 id => Sys2Proof.Machine.execCensusTimeout n0 id s
  | .grantCompute n0 id => Sys2Proof.Machine.execGrantCompute n0 id s
  | .grantRecord f => Sys2Proof.Machine.execGrantRecord f s
  | .landingRecord f => Sys2Proof.Machine.execLandingRecord f s
  | .grantTimeout n0 id dest => Sys2Proof.Machine.execGrantTimeout n0 id dest s
  | .reservationTimeout p id => Sys2Proof.Machine.execReservationTimeout p id s
  | .epochOpen o => Sys2Proof.Machine.execEpochOpen o s
  | .exchangeDesc o => Sys2Proof.Machine.execExchangeDesc o s
  | .receiveDesc o => Sys2Proof.Machine.execReceiveDesc o s
  | .returnDesc o => Sys2Proof.Machine.execReturnDesc o s
  | .epochClose o => Sys2Proof.Machine.execEpochClose o s
  | .cancel o => Sys2Proof.Machine.execCancel o s
  | .replayDesc o => Sys2Proof.Machine.execReplayDesc o s
  | .cancelBatch h p => Sys2Proof.Machine.execCancelBatch h p s
  | .plottingDescriptor o => Sys2Proof.Machine.execPlottingDescriptor o s
  | .plottingComplete o => Sys2Proof.Machine.execPlottingComplete o s
  | .keyCounts o => Sys2Proof.Machine.execKeyCounts o s
  | .failureNotice o => Sys2Proof.Machine.execFailureNotice o s
  | .wave0Start n0 id => Sys2Proof.Machine.execWave0Start n0 id s
  | .exchangeTimeout n0 id => Sys2Proof.Machine.execExchangeTimeout n0 id s
  | .receiveMissing n0 step layer => Sys2Proof.Machine.execReceiveMissing n0 step layer s
  | .partSend n0 id => Sys2Proof.Machine.execPartSend n0 id s
  | .skipRecord f => Sys2Proof.Machine.execSkipRecord f s
  | .cancelRecord f => Sys2Proof.Machine.execCancelRecord f s
  | .returnTimeout n0 id => Sys2Proof.Machine.execReturnTimeout n0 id s
  | .reuseIntervalExpiry n0 e => Sys2Proof.Machine.execReuseIntervalExpiry n0 e s
  | .relayManifest f => Sys2Proof.Machine.execRelayManifest f s
  | .relayForward n0 id => Sys2Proof.Machine.execRelayForward n0 id s
  | .relayTimeout n0 id => Sys2Proof.Machine.execRelayTimeout n0 id s
  | .trvFaultInfo o w => Sys2Proof.Machine.execTrvFaultInfo o w s
  | .pltFaultInfo o w => Sys2Proof.Machine.execPltFaultInfo o w s
  | .poolCreate h p => Sys2Proof.Machine.execPoolCreate h p s
  | .poolSetMode h p => Sys2Proof.Machine.execPoolSetMode h p s
  | .poolSetThresh h p => Sys2Proof.Machine.execPoolSetThresh h p s
  | .poolUnquarantine h p => Sys2Proof.Machine.execPoolUnquarantine h p s
  | .poolDestroy h p => Sys2Proof.Machine.execPoolDestroy h p s
  | .poolStartingComplete n0 => Sys2Proof.Machine.execPoolStartingComplete n0 s
  | .poolStoppingDrained n0 => Sys2Proof.Machine.execPoolStoppingDrained n0 s
  | .poolTeardownTimeout n0 => Sys2Proof.Machine.execPoolTeardownTimeout n0 s
  | .allocChain k => Sys2Proof.Machine.execAllocChain k s
  | .allocExtent k => Sys2Proof.Machine.execAllocExtent k s
  | .append k => Sys2Proof.Machine.execAppend k s
  | .acquire k => Sys2Proof.Machine.execAcquire k s
  | .release k => Sys2Proof.Machine.execRelease k s
  | .allocSized k => Sys2Proof.Machine.execAllocSized k s
  | .freeSized k => Sys2Proof.Machine.execFreeSized k s
  | .poolRequestServed n0 ctl => Sys2Proof.Machine.execPoolRequestServed n0 ctl s
  | .poolRequestTimeout n0 ctl => Sys2Proof.Machine.execPoolRequestTimeout n0 ctl s
  | .bpmPoolCount0 n0 => Sys2Proof.Machine.execBpmPoolCount0 n0 s
  | .bpmPoolThresh n0 w => Sys2Proof.Machine.execBpmPoolThresh n0 w s
  | .bpmBadptrInfo k w => Sys2Proof.Machine.execBpmBadptrInfo k w s
  | .copyDesc c j => Sys2Proof.Machine.execCopyDesc c j s
  | .gatherRows c j => Sys2Proof.Machine.execGatherRows c j s
  | .gatherCols c j => Sys2Proof.Machine.execGatherCols c j s
  | .compress c j => Sys2Proof.Machine.execCompress c j s
  | .decompress c j => Sys2Proof.Machine.execDecompress c j s
  | .selectDesc c j => Sys2Proof.Machine.execSelectDesc c j s
  | .predCheck c j => Sys2Proof.Machine.execPredCheck c j s
  | .movFaultInfo c w => Sys2Proof.Machine.execMovFaultInfo c w s
  | .coreFaultInfo c w => Sys2Proof.Machine.execCoreFaultInfo c w s
  | .guestContextSwitch p => Sys2Proof.Machine.execGuestContextSwitch p s
  | .nop c f => Sys2Proof.Machine.execNop c f s
  | .add c f => Sys2Proof.Machine.execAdd c f s
  | .sub c f => Sys2Proof.Machine.execSub c f s
  | .mul c f => Sys2Proof.Machine.execMul c f s
  | .mulhu c f => Sys2Proof.Machine.execMulhu c f s
  | .mulhs c f => Sys2Proof.Machine.execMulhs c f s
  | .divu c f => Sys2Proof.Machine.execDivu c f s
  | .remu c f => Sys2Proof.Machine.execRemu c f s
  | .divs c f => Sys2Proof.Machine.execDivs c f s
  | .rems c f => Sys2Proof.Machine.execRems c f s
  | .andInstr c f => Sys2Proof.Machine.execAndInstr c f s
  | .orInstr c f => Sys2Proof.Machine.execOrInstr c f s
  | .xorInstr c f => Sys2Proof.Machine.execXorInstr c f s
  | .shl c f => Sys2Proof.Machine.execShl c f s
  | .shr c f => Sys2Proof.Machine.execShr c f s
  | .sar c f => Sys2Proof.Machine.execSar c f s
  | .minu c f => Sys2Proof.Machine.execMinu c f s
  | .maxu c f => Sys2Proof.Machine.execMaxu c f s
  | .mins c f => Sys2Proof.Machine.execMins c f s
  | .maxs c f => Sys2Proof.Machine.execMaxs c f s
  | .sltu c f => Sys2Proof.Machine.execSltu c f s
  | .slts c f => Sys2Proof.Machine.execSlts c f s
  | .seq c f => Sys2Proof.Machine.execSeq c f s
  | .sel c f => Sys2Proof.Machine.execSel c f s
  | .addi c f => Sys2Proof.Machine.execAddi c f s
  | .andi c f => Sys2Proof.Machine.execAndi c f s
  | .ori c f => Sys2Proof.Machine.execOri c f s
  | .xori c f => Sys2Proof.Machine.execXori c f s
  | .shli c f => Sys2Proof.Machine.execShli c f s
  | .shri c f => Sys2Proof.Machine.execShri c f s
  | .sari c f => Sys2Proof.Machine.execSari c f s
  | .ldi c f => Sys2Proof.Machine.execLdi c f s
  | .fadd c f => Sys2Proof.Machine.execFadd c f s
  | .fsub c f => Sys2Proof.Machine.execFsub c f s
  | .fmul c f => Sys2Proof.Machine.execFmul c f s
  | .ffma c f => Sys2Proof.Machine.execFfma c f s
  | .fmin c f => Sys2Proof.Machine.execFmin c f s
  | .fmax c f => Sys2Proof.Machine.execFmax c f s
  | .fcmp c f => Sys2Proof.Machine.execFcmp c f s
  | .fcvt c f => Sys2Proof.Machine.execFcvt c f s
  | .beq c f => Sys2Proof.Machine.execBeq c f s
  | .bne c f => Sys2Proof.Machine.execBne c f s
  | .blts c f => Sys2Proof.Machine.execBlts c f s
  | .bges c f => Sys2Proof.Machine.execBges c f s
  | .bltu c f => Sys2Proof.Machine.execBltu c f s
  | .bgeu c f => Sys2Proof.Machine.execBgeu c f s
  | .call c f => Sys2Proof.Machine.execCall c f s
  | .jr c f => Sys2Proof.Machine.execJr c f s
  | .popc c f => Sys2Proof.Machine.execPopc c f s
  | .clz c f => Sys2Proof.Machine.execClz c f s
  | .ctz c f => Sys2Proof.Machine.execCtz c f s
  | .rotr c f => Sys2Proof.Machine.execRotr c f s
  | .bext c f => Sys2Proof.Machine.execBext c f s
  | .bins c f => Sys2Proof.Machine.execBins c f s
  | .bswap c f => Sys2Proof.Machine.execBswap c f s
  | .hash c f => Sys2Proof.Machine.execHash c f s
  | .brev c f => Sys2Proof.Machine.execBrev c f s
  | .lds c f => Sys2Proof.Machine.execLds c f s
  | .sts c f => Sys2Proof.Machine.execSts c f s
  | .vld c f => Sys2Proof.Machine.execVld c f s
  | .vst c f => Sys2Proof.Machine.execVst c f s
  | .vlds c f => Sys2Proof.Machine.execVlds c f s
  | .vsts c f => Sys2Proof.Machine.execVsts c f s
  | .vadd c f => Sys2Proof.Machine.execVadd c f s
  | .vsub c f => Sys2Proof.Machine.execVsub c f s
  | .vmul c f => Sys2Proof.Machine.execVmul c f s
  | .vfma c f => Sys2Proof.Machine.execVfma c f s
  | .vmin c f => Sys2Proof.Machine.execVmin c f s
  | .vmax c f => Sys2Proof.Machine.execVmax c f s
  | .vabs c f => Sys2Proof.Machine.execVabs c f s
  | .vneg c f => Sys2Proof.Machine.execVneg c f s
  | .vcmp c f => Sys2Proof.Machine.execVcmp c f s
  | .vsel c f => Sys2Proof.Machine.execVsel c f s
  | .vcvt c f => Sys2Proof.Machine.execVcvt c f s
  | .vbc c f => Sys2Proof.Machine.execVbc c f s
  | .viota c f => Sys2Proof.Machine.execViota c f s
  | .vextr c f => Sys2Proof.Machine.execVextr c f s
  | .pcnt c f => Sys2Proof.Machine.execPcnt c f s
  | .plog c f => Sys2Proof.Machine.execPlog c f s
  | .vexp c f => Sys2Proof.Machine.execVexp c f s
  | .vlog c f => Sys2Proof.Machine.execVlog c f s
  | .vrcp c f => Sys2Proof.Machine.execVrcp c f s
  | .vrsqrt c f => Sys2Proof.Machine.execVrsqrt c f s
  | .vsigm c f => Sys2Proof.Machine.execVsigm c f s
  | .vtanh c f => Sys2Proof.Machine.execVtanh c f s
  | .verf c f => Sys2Proof.Machine.execVerf c f s
  | .vsqrt c f => Sys2Proof.Machine.execVsqrt c f s
  | .vrsum c f => Sys2Proof.Machine.execVrsum c f s
  | .vrmax c f => Sys2Proof.Machine.execVrmax c f s
  | .vrmin c f => Sys2Proof.Machine.execVrmin c f s
  | .vand c f => Sys2Proof.Machine.execVand c f s
  | .vor c f => Sys2Proof.Machine.execVor c f s
  | .vxor c f => Sys2Proof.Machine.execVxor c f s
  | .vshift c f => Sys2Proof.Machine.execVshift c f s
  | .wld c f => Sys2Proof.Machine.execWld c f s
  | .mpass c f => Sys2Proof.Machine.execMpass c f s
  | .accrd c f => Sys2Proof.Machine.execAccrd c f s
  | .accz c f => Sys2Proof.Machine.execAccz c f s
  | .waitge c f => Sys2Proof.Machine.execWaitge c f s
  | .waitne c f => Sys2Proof.Machine.execWaitne c f s
  | .waitTimeout c => Sys2Proof.Machine.execWaitTimeout c s
  | .sacq c f => Sys2Proof.Machine.execSacq c f s
  | .srel c f => Sys2Proof.Machine.execSrel c f s
  | .submit c f => Sys2Proof.Machine.execSubmit c f s
  | .mvi c f => Sys2Proof.Machine.execMvi c f s
  | .mvwait c f => Sys2Proof.Machine.execMvwait c f s
  | .endInstr c f => Sys2Proof.Machine.execEndInstr c f s
  | .rds c f => Sys2Proof.Machine.execRds c f s
  | .wrs c f => Sys2Proof.Machine.execWrs c f s
  | .breakInstr c f => Sys2Proof.Machine.execBreakInstr c f s
  | .quantize c => Sys2Proof.Machine.execQuantize c s
  | .updateDesc c => Sys2Proof.Machine.execUpdateDesc c s
  | .prune c => Sys2Proof.Machine.execPrune c s
  | .movQntSubmit c u w => Sys2Proof.Machine.execMovQntSubmit c u w s
  | .movQntStatus c w => Sys2Proof.Machine.execMovQntStatus c w s
  | .recipeSet h p => Sys2Proof.Machine.execRecipeSet h p s
  | .hchRecipe n0 k w => Sys2Proof.Machine.execHchRecipe n0 k w s
  | .hchCtlEvalNow => Sys2Proof.Machine.execHchCtlEvalNow s
  | .hchStatus w => Sys2Proof.Machine.execHchStatus w s
  | .bucketDefine h p => Sys2Proof.Machine.execBucketDefine h p s
  | .bucketUndefine h p => Sys2Proof.Machine.execBucketUndefine h p s
  | .hbmRepair h p => Sys2Proof.Machine.execHbmRepair h p s
  | .raccCommit h => Sys2Proof.Machine.execRaccCommit h s
  | .partDone h => Sys2Proof.Machine.execPartDone h s
  | .bucketStalled h j b => Sys2Proof.Machine.execBucketStalled h j b s
  | .nmaCtxAccepted h => Sys2Proof.Machine.execNmaCtxAccepted h s
  | .nmaErrInfo h w => Sys2Proof.Machine.execNmaErrInfo h w s
  | .mhbUeInfo h w => Sys2Proof.Machine.execMhbUeInfo h w s
  | .hbmTemperatureRead h d => Sys2Proof.Machine.execHbmTemperatureRead h d s
  | .perBankRefresh h => Sys2Proof.Machine.execPerBankRefresh h s
  | .scrub h l r => Sys2Proof.Machine.execScrub h l r s
  | .recalibration h => Sys2Proof.Machine.execRecalibration h s
  | .groupDefine h p => Sys2Proof.Machine.execGroupDefine h p s
  | .groupUndefine h p => Sys2Proof.Machine.execGroupUndefine h p s
  | .collectiveLaunch h p => Sys2Proof.Machine.execCollectiveLaunch h p s
  | .collectiveStatus h p => Sys2Proof.Machine.execCollectiveStatus h p s
  | .collectiveAdmit => Sys2Proof.Machine.execCollectiveAdmit s
  | .pendingLaunchTimeout j g q => Sys2Proof.Machine.execPendingLaunchTimeout j g q s
  | .atDatumTrigger k => Sys2Proof.Machine.execAtDatumTrigger k s
  | .collectiveCredit j g q r a => Sys2Proof.Machine.execCollectiveCredit j g q r a s
  | .collectiveChunk k r => Sys2Proof.Machine.execCollectiveChunk k r s
  | .collectiveTimeout k r => Sys2Proof.Machine.execCollectiveTimeout k r s
  | .treeStart h p => Sys2Proof.Machine.execTreeStart h p s
  | .treeReparent h p => Sys2Proof.Machine.execTreeReparent h p s
  | .treeEnd h p => Sys2Proof.Machine.execTreeEnd h p s
  | .treeChunkComplete n0 m c => Sys2Proof.Machine.execTreeChunkComplete n0 m c s
  | .treeKeepalive n0 m c => Sys2Proof.Machine.execTreeKeepalive n0 m c s
  | .orphaned n0 m => Sys2Proof.Machine.execOrphaned n0 m s
  | .resumeRecord n0 m c hi => Sys2Proof.Machine.execResumeRecord n0 m c hi s
  | .childLost n0 m c => Sys2Proof.Machine.execChildLost n0 m c s
  | .determinismSet h p => Sys2Proof.Machine.execDeterminismSet h p s
  | .launchAt h p ok chunk => Sys2Proof.Machine.execLaunchAt h p ok chunk s
  | .launchAtStamp ok chunk => Sys2Proof.Machine.execLaunchAtStamp ok chunk s
  | .datumSyncTimer => Sys2Proof.Machine.execDatumSyncTimer s
  | .datumSyncRequest p seq t1 => Sys2Proof.Machine.execDatumSyncRequest p seq t1 s
  | .datumSyncResponse p hops seq state t1 t2 t3 master => Sys2Proof.Machine.execDatumSyncResponse p hops seq state t1 t2 t3 master s
  | .datumHoldover => Sys2Proof.Machine.execDatumHoldover s
  | .holdoverTimeout => Sys2Proof.Machine.execHoldoverTimeout s
  | .ptpMessage p v4 ty dom two seq t ann => Sys2Proof.Machine.execPtpMessage p v4 ty dom two seq t ann s
  | .datumPpsIn => Sys2Proof.Machine.execDatumPpsIn s
  | .datumPpsOut => Sys2Proof.Machine.execDatumPpsOut s
  | .ppsOutFall => Sys2Proof.Machine.execPpsOutFall s
  | .sheetCreate h p => Sys2Proof.Machine.execSheetCreate h p s
  | .sheetDestroy h p => Sys2Proof.Machine.execSheetDestroy h p s
  | .sheetStartingComplete n0 => Sys2Proof.Machine.execSheetStartingComplete n0 s
  | .sheetStoppingComplete n0 => Sys2Proof.Machine.execSheetStoppingComplete n0 s
  | .contextCreate h p => Sys2Proof.Machine.execContextCreate h p s
  | .contextDestroy h p => Sys2Proof.Machine.execContextDestroy h p s
  | .contextResume h p => Sys2Proof.Machine.execContextResume h p s
  | .kernelDoorbell h p => Sys2Proof.Machine.execKernelDoorbell h p s
  | .serveSet h p => Sys2Proof.Machine.execServeSet h p s
  | .contextSwitchStart n0 => Sys2Proof.Machine.execContextSwitchStart n0 s
  | .contextSwitchComplete n0 => Sys2Proof.Machine.execContextSwitchComplete n0 s
  | .kernelWatchdog n0 c => Sys2Proof.Machine.execKernelWatchdog n0 c s
  | .semHoldExpired n0 n => Sys2Proof.Machine.execSemHoldExpired n0 n s
  | .composerPoll n0 => Sys2Proof.Machine.execComposerPoll n0 s
  | .frameIngress p e f => Sys2Proof.Machine.execFrameIngress p e f s
  | .outputArbitration p ecc => Sys2Proof.Machine.execOutputArbitration p ecc s
  | .switchTableWrite h p => Sys2Proof.Machine.execSwitchTableWrite h p s
  | .switchExcWrite h p => Sys2Proof.Machine.execSwitchExcWrite h p s
  | .switchTableActivation => Sys2Proof.Machine.execSwitchTableActivation s
  | .shadowCopyComplete => Sys2Proof.Machine.execShadowCopyComplete s
  | .drainComplete => Sys2Proof.Machine.execDrainComplete s
  | .drainTimeout => Sys2Proof.Machine.execDrainTimeout s
  | .swcDropInfo w => Sys2Proof.Machine.execSwcDropInfo w s
  | .portEnable h p => Sys2Proof.Machine.execPortEnable h p s
  | .portDisable h p => Sys2Proof.Machine.execPortDisable h p s
  | .portRetrain h p => Sys2Proof.Machine.execPortRetrain h p s
  | .portUnquarantine h p => Sys2Proof.Machine.execPortUnquarantine h p s
  | .portInject h p => Sys2Proof.Machine.execPortInject h p s
  | .trainingComplete p => Sys2Proof.Machine.execTrainingComplete p s
  | .trainingTimeout p => Sys2Proof.Machine.execTrainingTimeout p s
  | .laneLockLoss p locked => Sys2Proof.Machine.execLaneLockLoss p locked s
  | .retrainingComplete p => Sys2Proof.Machine.execRetrainingComplete p s
  | .retrainingTimeout p => Sys2Proof.Machine.execRetrainingTimeout p s
  | .portStoppingDrained p => Sys2Proof.Machine.execPortStoppingDrained p s
  | .creditBlock p b => Sys2Proof.Machine.execCreditBlock p b s
  | .ackBlock p b => Sys2Proof.Machine.execAckBlock p b s
  | .retryReq p b => Sys2Proof.Machine.execRetryReq p b s
  | .violNack p b => Sys2Proof.Machine.execViolNack p b s
  | .auditMark p b => Sys2Proof.Machine.execAuditMark p b s
  | .auditReturn p b => Sys2Proof.Machine.execAuditReturn p b s
  | .keepalive p b => Sys2Proof.Machine.execKeepalive p b s
  | .trainMsg p dev port version trusted => Sys2Proof.Machine.execTrainMsg p dev port version trusted s
  | .disableMsg p b => Sys2Proof.Machine.execDisableMsg p b s
  | .linkAckTimer p => Sys2Proof.Machine.execLinkAckTimer p s
  | .fptAuditStart p w => Sys2Proof.Machine.execFptAuditStart p w s
  | .fptCtl p w => Sys2Proof.Machine.execFptCtl p w s
  | .fptViolInfo p w => Sys2Proof.Machine.execFptViolInfo p w s
  | .deviceIdSet h p => Sys2Proof.Machine.execDeviceIdSet h p s
  | .jobmapWrite h p => Sys2Proof.Machine.execJobmapWrite h p s
  | .gatewaySet h p => Sys2Proof.Machine.execGatewaySet h p s
  | .peerWrite h p => Sys2Proof.Machine.execPeerWrite h p s
  | .gatewayEgress p => Sys2Proof.Machine.execGatewayEgress p s
  | .wcWindowTimeout p => Sys2Proof.Machine.execWcWindowTimeout p s
  | .readBufferExpiry p => Sys2Proof.Machine.execReadBufferExpiry p s
  | .gatewayData p d => Sys2Proof.Machine.execGatewayData p d s
  | .gatewayAck p d => Sys2Proof.Machine.execGatewayAck p d s
  | .hello p d => Sys2Proof.Machine.execHello p d s
  | .helloAck p d => Sys2Proof.Machine.execHelloAck p d s
  | .closeMsg p d => Sys2Proof.Machine.execCloseMsg p d s
  | .gatewayAckTimer p => Sys2Proof.Machine.execGatewayAckTimer p s
  | .retransmissionTimeout p dev psn => Sys2Proof.Machine.execRetransmissionTimeout p dev psn s
  | .rateAdjust p dev => Sys2Proof.Machine.execRateAdjust p dev s
  | .datagramSend p => Sys2Proof.Machine.execDatagramSend p s
  | .nopCommand h p => Sys2Proof.Machine.execNopCommand h p s
  | .deviceInfo h p => Sys2Proof.Machine.execDeviceInfo h p s
  | .regWrite h p => Sys2Proof.Machine.execRegWrite h p s
  | .chartroomFailover h p => Sys2Proof.Machine.execChartroomFailover h p s
  | .deviceReset h p => Sys2Proof.Machine.execDeviceReset h p s
  | .deviceResetBegin => Sys2Proof.Machine.execDeviceResetBegin s
  | .sheetReset h p => Sys2Proof.Machine.execSheetReset h p s
  | .telemetrySet h p => Sys2Proof.Machine.execTelemetrySet h p s
  | .telemetryRead h p => Sys2Proof.Machine.execTelemetryRead h p s
  | .levelRead h p => Sys2Proof.Machine.execLevelRead h p s
  | .levelSample => Sys2Proof.Machine.execLevelSample s
  | .chartroomHeartbeat => Sys2Proof.Machine.execChartroomHeartbeat s
  | .heartbeatTimeout => Sys2Proof.Machine.execHeartbeatTimeout s
  | .chtRingCfg die n w => Sys2Proof.Machine.execChtRingCfg die n w s
  | .cmdTail die n v => Sys2Proof.Machine.execCmdTail die n v s
  | .replyHead die n v => Sys2Proof.Machine.execReplyHead die n v s
  | .jobAdmit h p ok => Sys2Proof.Machine.execJobAdmit h p ok s
  | .jobTeardown h p => Sys2Proof.Machine.execJobTeardown h p s
  | .teardownStepDone j => Sys2Proof.Machine.execTeardownStepDone j s
  | .teardownWaitLimit j => Sys2Proof.Machine.execTeardownWaitLimit j s
  | .peerAttest h p => Sys2Proof.Machine.execPeerAttest h p s
  | .peerAttestPhase dev d ok => Sys2Proof.Machine.execPeerAttestPhase dev d ok s
  | .debugUnlock h p sig => Sys2Proof.Machine.execDebugUnlock h p sig s
  | .debugLock h p => Sys2Proof.Machine.execDebugLock h p s
  | .debugTokenExpiry => Sys2Proof.Machine.execDebugTokenExpiry s
  | .certRead h p => Sys2Proof.Machine.execCertRead h p s
  | .memImport h p base mem => Sys2Proof.Machine.execMemImport h p base mem s
  | .memExport h p => Sys2Proof.Machine.execMemExport h p s
  | .ownerRecord owner fms serial kill ok => Sys2Proof.Machine.execOwnerRecord owner fms serial kill ok s
  | .getVersion x => Sys2Proof.Machine.execGetVersion x s
  | .getCapabilities x => Sys2Proof.Machine.execGetCapabilities x s
  | .negotiateAlgorithms x => Sys2Proof.Machine.execNegotiateAlgorithms x s
  | .getDigests x => Sys2Proof.Machine.execGetDigests x s
  | .getCertificate x slot off n => Sys2Proof.Machine.execGetCertificate x slot off n s
  | .challengeMsg x nonce => Sys2Proof.Machine.execChallengeMsg x nonce s
  | .getMeasurements x => Sys2Proof.Machine.execGetMeasurements x s
  | .keyExchange x id => Sys2Proof.Machine.execKeyExchange x id s
  | .finishMsg x id key ok => Sys2Proof.Machine.execFinishMsg x id key ok s
  | .heartbeatMsg x id => Sys2Proof.Machine.execHeartbeatMsg x id s
  | .keyUpdate x id => Sys2Proof.Machine.execKeyUpdate x id s
  | .endSession x id => Sys2Proof.Machine.execEndSession x id s
  | .ctcFailInfo die w => Sys2Proof.Machine.execCtcFailInfo die w s
  | .powerLimitSet h p => Sys2Proof.Machine.execPowerLimitSet h p s
  | .overlayLoad h p sig => Sys2Proof.Machine.execOverlayLoad h p sig s
  | .overlayClear h p => Sys2Proof.Machine.execOverlayClear h p s
  | .contourReport h p => Sys2Proof.Machine.execContourReport h p s
  | .retrainSchedule h p => Sys2Proof.Machine.execRetrainSchedule h p s
  | .powerSample w mv a => Sys2Proof.Machine.execPowerSample w mv a s
  | .excursionEnd => Sys2Proof.Machine.execExcursionEnd s
  | .throttleStep => Sys2Proof.Machine.execThrottleStep s
  | .clockRaise => Sys2Proof.Machine.execClockRaise s
  | .inputUndervolt => Sys2Proof.Machine.execInputUndervolt s
  | .mainPowerCut => Sys2Proof.Machine.execMainPowerCut s
  | .overcurrent => Sys2Proof.Machine.execOvercurrent s
  | .thermalSample d t => Sys2Proof.Machine.execThermalSample d t s
  | .contourSample dies eyes => Sys2Proof.Machine.execContourSample dies eyes s
  | .contourReplan => Sys2Proof.Machine.execContourReplan s
  | .retrainWindow => Sys2Proof.Machine.execRetrainWindow s
  | .laserInputLow n low out => Sys2Proof.Machine.execLaserInputLow n low out s
  | .closureCheck h p => Sys2Proof.Machine.execClosureCheck h p s
  | .eventRead h p => Sys2Proof.Machine.execEventRead h p s
  | .diagRead h p => Sys2Proof.Machine.execDiagRead h p s
  | .fmReportSend => Sys2Proof.Machine.execFmReportSend s
  | .standbyPowerValid => Sys2Proof.Machine.execStandbyPowerValid s
  | .mainOk level => Sys2Proof.Machine.execMainOk level s
  | .mainOkTimeout => Sys2Proof.Machine.execMainOkTimeout s
  | .mainRailDischarged => Sys2Proof.Machine.execMainRailDischarged s
  | .dieDiscoveryTimeout d => Sys2Proof.Machine.execDieDiscoveryTimeout d s
  | .hbmTrainingComplete h rate => Sys2Proof.Machine.execHbmTrainingComplete h rate s
  | .linkTableVerify bad => Sys2Proof.Machine.execLinkTableVerify bad s
  | .level0Deadline => Sys2Proof.Machine.execLevel0Deadline s
  | .resetN us => Sys2Proof.Machine.execResetN us s
  | .perst die => Sys2Proof.Machine.execPerst die s
  | .functionLevelReset die => Sys2Proof.Machine.execFunctionLevelReset die s
  | .coldReset => Sys2Proof.Machine.execColdReset s
  | .matrixQueueStart c => Sys2Proof.Machine.execMatrixQueueStart c s
  | .weightLoadComplete c => Sys2Proof.Machine.execWeightLoadComplete c s
  | .moverComplete c j => Sys2Proof.Machine.execMoverComplete c j s
  | .quantizerComplete c => Sys2Proof.Machine.execQuantizerComplete c s
  | .unquarantineHandshakeTimeout p => Sys2Proof.Machine.execUnquarantineHandshakeTimeout p s
  | .spdmSessionTimeout id => Sys2Proof.Machine.execSpdmSessionTimeout id s
  | .pldmFirmwareUpdate what slot svn record => Sys2Proof.Machine.execPldmFirmwareUpdate what slot svn record s
  | .bootImageVerified die slot svn ok items bench => Sys2Proof.Machine.execBootImageVerified die slot svn ok items bench s
  | .photonicSelfTestComplete n ok => Sys2Proof.Machine.execPhotonicSelfTestComplete n ok s
  | .dieDiscoveryReport d same selfTest coresOk => Sys2Proof.Machine.execDieDiscoveryReport d same selfTest coresOk s

end Sys2Proof.Machine
end

