-- ==== Sys2Proof/Safety.lean ====
section
/-! DEFINITION. What counts as a safe run, and the conditions in terms of which the claims speak: when a core's instruction issues, when the
Chartroom takes a command packet, and what a request frame meets at its destination. -/

namespace Sys2Proof

/-- n steps from s all answer a next state. -/
def safeFor : Nat → Machine.State → Prop
  | 0, _ => True
  | n + 1, s => ∃ s', Machine.step s = .next s' ∧ safeFor n s'

/-- The parameters of a packet: as many bytes as its header says (R461). -/
def CmdHdr.params (h : CmdHdr) (p : List Byte) : List Byte := Machine.bytesAt p 0 h.length.toNat

namespace Machine

/-! Cores (R200, R201, R203, R207, R224, R236). -/

/-- The virtual core whose home is c issues its next instruction: it executes, its core issues from its register context, and the fetch at its PC, which
lies in its kernel's code, succeeds and finds nothing to correct. -/
def State.issues (s : State) (c : Nat) : Prop :=
  (s.core c).run = .running ∧ s.selected c = true ∧ targetOk (s.core c) (s.core c).pc = true ∧ s.fetch (s.core c) = (s, .ok)

/-- None of the scalar registers waits for a response (R224) or is poisoned (R207). -/
def CoreCtx.ready (x : CoreCtx) (regs : List Nat) : Prop := ∀ n ∈ regs, n ∉ x.loading ∧ n ∉ x.poison

/-- None of the vector registers waits for an ACCRD that is queued (R203). -/
def CoreCtx.vready (x : CoreCtx) (regs : List Nat) : Prop := ∀ n ∈ regs, n ∉ x.vPending

/-! Command packets (R461 to R467, R555). -/

/-- The state in which the rules of a command of its own apply: the packet copied from its ring, its number taken, and counted as accepted. -/
def State.taken (s : State) (h : CmdHdr) : State :=
  let s := (s.advanceHead h.src h.length.toNat).setSrc h.src ((s.src h.src).take h.seq.toNat)
  s.bumpMod F.CHT_CMD_CNT_accepted s.chtDie 0 1

/-- A packet of opcode op is taken and passes the checks that every packet meets: its session is open, the Chartroom accepts it (R467), its
sequence number is the source's next (R466), and its header, source, level, job and map entry are good. -/
def State.takes (s : State) (op : Nat) (h : CmdHdr) (p : List Byte) : Prop :=
  s.outsideSession h.src = false ∧ s.acceptable h = true ∧
  ((s.src h.src).expected = none ∨ (s.src h.src).expected = some h.seq.toNat) ∧
  ((s.advanceHead h.src h.length.toNat).setSrc h.src ((s.src h.src).take h.seq.toNat)).cmdCheck op h (h.params p) = none

/-- Every check of a list holds. -/
def pass {α : Type} (l : List (Bool × α)) : Prop := ∀ e ∈ l, e.1 = true

/-! Engine queues (R27) and frames (R40, R44, R45). -/

/-- The descriptor at the head of queue q of octant k. -/
def State.headOf (s : State) (k q : Nat) (d : QDesc) : Prop := (s.ep.queues.getD (k, q) []).head? = some d

/-- A request frame of operation op from logical device src that its endpoint executes now: admitted, of a known source, not executed before, not
underway, and, where its class is ordered, the next of its stream. -/
def State.executes (s : State) (f : Frame) (op src : Nat) (ordered : Bool) : Prop :=
  f.kind = 0 ∧ f.op.toNat = op ∧ (s.takeIn f).2 = some src ∧ (s.takeIn f).1.underway f = false ∧
  (ordered = true → fullSeq ((s.takeIn f).1.rx (rxKeyOf f)).expected f.seq.toNat = ((s.takeIn f).1.rx (rxKeyOf f)).expected)

/-- The state in which the effect of such a frame happens. -/
def State.arrived (s : State) (f : Frame) : State := (s.takeIn f).1

/-- What follows an executed request: its acknowledgement or its response, the frames that waited for it, and what depends on them. -/
def State.acknowledges (s : State) (f : Frame) (st : Status) : State := ((s.acked f st).drained f).after
def State.responds (s : State) (f : Frame) (st : Status) (cacheable : Bool) (data : List Byte) : State :=
  ((s.responded f st cacheable data).drained f).after

end Machine

end Sys2Proof
end

