-- ==== Sys2Proof/WellFormed.lean ====
section
/-! DEFINITION. Which commands are well formed: what their carriers can bring at all. A packet ring, a link or a datagram fixes these forms, so a
command that breaks one cannot arrive. What a carrier can bring and a rule refuses is well formed: its refusal is the command's meaning. -/

namespace Sys2Proof

/-- A command packet comes from a ring, a session or the management controller and is followed by exactly `length` bytes of parameters (Table 17.3, R464). -/
def packetWf (h : CmdHdr) (p : List Byte) : Bool :=
  decide (h.length.toNat = p.length) && match h.src with
    | .launch _ => false
    | _ => true

/-- A frame's payload: at most 4,096 B (Table 14.2). -/
def frameWf (f : Frame) : Bool := decide (f.payload.length ≤ 4096)

/-- A datagram's frames are frames (Table 16.6). -/
def dgramWf (d : Dgram) : Bool := d.frames.all frameWf

/-- A control block has five entries; those after the last one given are zero (Table 15.5). -/
def blockWf (b : Block) : Bool := decide (b.fields.length ≤ 5)

/-- An SPDM message comes from a fabric manager endpoint or the management controller (R481, R482), or the host's rings. -/
def sourceWf (x : Source) : Bool :=
  match x with
  | .launch _ => false
  | _ => true

/-- A SHA-384 digest has 48 bytes. -/
def digestWf (d : List Byte) : Bool := decide (d.length = 48)

/-- Whether a command is well formed. -/
def wf (i : Instr) : Bool :=
  match i with
  | .rld _ _ => true
  | .rst _ _ => true
  | .ratom _ _ => true
  | .fence _ _ => true
  | .raccDesc _ => true
  | .bulkCopy _ => true
  | .invalidate _ => true
  | .fenceDescriptor _ => true
  | .notifyDesc _ => true
  | .loadRequest f => frameWf f
  | .storeRequest f => frameWf f
  | .atomicRequest f => frameWf f
  | .raccRequest f => frameWf f
  | .bulkCopyPut f => frameWf f
  | .bulkCopyGet f => frameWf f
  | .invalidateRequest f => frameWf f
  | .notifyRequest f => frameWf f
  | .responseFrame f => frameWf f
  | .acknowledgement f => frameWf f
  | .nack f => frameWf f
  | .replayIntervalExpiry _ _ _ _ _ => true
  | .retryBackoffExpiry _ _ _ _ _ => true
  | .opTimeout _ _ _ _ _ => true
  | .stalledIssueResume _ _ => true
  | .queueAccept => true
  | .regionSet h p => packetWf h p
  | .rlcCtlFlush => true
  | .rmoFaultInfo _ _ => true
  | .rgdViolInfo _ => true
  | .registerWrite _ _ _ _ => true
  | .layerSet h p => packetWf h p
  | .gazetteerWrite h p => packetWf h p
  | .csetWrite h p => packetWf h p
  | .expertDirWrite h p => packetWf h p
  | .tableCommit h p => packetWf h p
  | .tableCommitSwitch h p => packetWf h p
  | .drainingComplete _ => true
  | .syncingComplete _ => true
  | .surveySubmission _ => true
  | .surveyComplete _ => true
  | .svyCtlFlushGvc _ => true
  | .gazCtlFlush _ => true
  | .svyFaultInfo _ _ => true
  | .censusRecord f => frameWf f
  | .censusTimeout _ _ => true
  | .grantCompute _ _ => true
  | .grantRecord f => frameWf f
  | .landingRecord f => frameWf f
  | .grantTimeout _ _ _ => true
  | .reservationTimeout _ _ => true
  | .epochOpen _ => true
  | .exchangeDesc _ => true
  | .receiveDesc _ => true
  | .returnDesc _ => true
  | .epochClose _ => true
  | .cancel _ => true
  | .replayDesc _ => true
  | .cancelBatch h p => packetWf h p
  | .plottingDescriptor _ => true
  | .plottingComplete _ => true
  | .keyCounts _ => true
  | .failureNotice _ => true
  | .wave0Start _ _ => true
  | .exchangeTimeout _ _ => true
  | .receiveMissing _ _ _ => true
  | .partSend _ _ => true
  | .skipRecord f => frameWf f
  | .cancelRecord f => frameWf f
  | .returnTimeout _ _ => true
  | .reuseIntervalExpiry _ _ => true
  | .relayManifest f => frameWf f
  | .relayForward _ _ => true
  | .relayTimeout _ _ => true
  | .trvFaultInfo _ _ => true
  | .pltFaultInfo _ _ => true
  | .poolCreate h p => packetWf h p
  | .poolSetMode h p => packetWf h p
  | .poolSetThresh h p => packetWf h p
  | .poolUnquarantine h p => packetWf h p
  | .poolDestroy h p => packetWf h p
  | .poolStartingComplete _ => true
  | .poolStoppingDrained _ => true
  | .poolTeardownTimeout _ => true
  | .allocChain _ => true
  | .allocExtent _ => true
  | .append _ => true
  | .acquire _ => true
  | .release _ => true
  | .allocSized _ => true
  | .freeSized _ => true
  | .poolRequestServed _ _ => true
  | .poolRequestTimeout _ _ => true
  | .bpmPoolCount0 _ => true
  | .bpmPoolThresh _ _ => true
  | .bpmBadptrInfo _ _ => true
  | .copyDesc _ _ => true
  | .gatherRows _ _ => true
  | .gatherCols _ _ => true
  | .compress _ _ => true
  | .decompress _ _ => true
  | .selectDesc _ _ => true
  | .predCheck _ _ => true
  | .movFaultInfo _ _ => true
  | .coreFaultInfo _ _ => true
  | .guestContextSwitch _ => true
  | .nop _ _ => true
  | .add _ _ => true
  | .sub _ _ => true
  | .mul _ _ => true
  | .mulhu _ _ => true
  | .mulhs _ _ => true
  | .divu _ _ => true
  | .remu _ _ => true
  | .divs _ _ => true
  | .rems _ _ => true
  | .andInstr _ _ => true
  | .orInstr _ _ => true
  | .xorInstr _ _ => true
  | .shl _ _ => true
  | .shr _ _ => true
  | .sar _ _ => true
  | .minu _ _ => true
  | .maxu _ _ => true
  | .mins _ _ => true
  | .maxs _ _ => true
  | .sltu _ _ => true
  | .slts _ _ => true
  | .seq _ _ => true
  | .sel _ _ => true
  | .addi _ _ => true
  | .andi _ _ => true
  | .ori _ _ => true
  | .xori _ _ => true
  | .shli _ _ => true
  | .shri _ _ => true
  | .sari _ _ => true
  | .ldi _ _ => true
  | .fadd _ _ => true
  | .fsub _ _ => true
  | .fmul _ _ => true
  | .ffma _ _ => true
  | .fmin _ _ => true
  | .fmax _ _ => true
  | .fcmp _ _ => true
  | .fcvt _ _ => true
  | .beq _ _ => true
  | .bne _ _ => true
  | .blts _ _ => true
  | .bges _ _ => true
  | .bltu _ _ => true
  | .bgeu _ _ => true
  | .call _ _ => true
  | .jr _ _ => true
  | .popc _ _ => true
  | .clz _ _ => true
  | .ctz _ _ => true
  | .rotr _ _ => true
  | .bext _ _ => true
  | .bins _ _ => true
  | .bswap _ _ => true
  | .hash _ _ => true
  | .brev _ _ => true
  | .lds _ _ => true
  | .sts _ _ => true
  | .vld _ _ => true
  | .vst _ _ => true
  | .vlds _ _ => true
  | .vsts _ _ => true
  | .vadd _ _ => true
  | .vsub _ _ => true
  | .vmul _ _ => true
  | .vfma _ _ => true
  | .vmin _ _ => true
  | .vmax _ _ => true
  | .vabs _ _ => true
  | .vneg _ _ => true
  | .vcmp _ _ => true
  | .vsel _ _ => true
  | .vcvt _ _ => true
  | .vbc _ _ => true
  | .viota _ _ => true
  | .vextr _ _ => true
  | .pcnt _ _ => true
  | .plog _ _ => true
  | .vexp _ _ => true
  | .vlog _ _ => true
  | .vrcp _ _ => true
  | .vrsqrt _ _ => true
  | .vsigm _ _ => true
  | .vtanh _ _ => true
  | .verf _ _ => true
  | .vsqrt _ _ => true
  | .vrsum _ _ => true
  | .vrmax _ _ => true
  | .vrmin _ _ => true
  | .vand _ _ => true
  | .vor _ _ => true
  | .vxor _ _ => true
  | .vshift _ _ => true
  | .wld _ _ => true
  | .mpass _ _ => true
  | .accrd _ _ => true
  | .accz _ _ => true
  | .waitge _ _ => true
  | .waitne _ _ => true
  | .waitTimeout _ => true
  | .sacq _ _ => true
  | .srel _ _ => true
  | .submit _ _ => true
  | .mvi _ _ => true
  | .mvwait _ _ => true
  | .endInstr _ _ => true
  | .rds _ _ => true
  | .wrs _ _ => true
  | .breakInstr _ _ => true
  | .quantize _ => true
  | .updateDesc _ => true
  | .prune _ => true
  | .movQntSubmit _ _ _ => true
  | .movQntStatus _ _ => true
  | .recipeSet h p => packetWf h p
  | .hchRecipe _ _ _ => true
  | .hchCtlEvalNow => true
  | .hchStatus _ => true
  | .bucketDefine h p => packetWf h p
  | .bucketUndefine h p => packetWf h p
  | .hbmRepair h p => packetWf h p
  | .raccCommit _ => true
  | .partDone _ => true
  | .bucketStalled _ _ _ => true
  | .nmaCtxAccepted _ => true
  | .nmaErrInfo _ _ => true
  | .mhbUeInfo _ _ => true
  | .hbmTemperatureRead _ _ => true
  | .perBankRefresh _ => true
  | .scrub _ _ _ => true
  | .recalibration _ => true
  | .groupDefine h p => packetWf h p
  | .groupUndefine h p => packetWf h p
  | .collectiveLaunch h p => packetWf h p
  | .collectiveStatus h p => packetWf h p
  | .collectiveAdmit => true
  | .pendingLaunchTimeout _ _ _ => true
  | .atDatumTrigger _ => true
  | .collectiveCredit _ _ _ _ _ => true
  | .collectiveChunk _ _ => true
  | .collectiveTimeout _ _ => true
  | .treeStart h p => packetWf h p
  | .treeReparent h p => packetWf h p
  | .treeEnd h p => packetWf h p
  | .treeChunkComplete _ _ _ => true
  | .treeKeepalive _ _ _ => true
  | .orphaned _ _ => true
  | .resumeRecord _ _ _ _ => true
  | .childLost _ _ _ => true
  | .determinismSet h p => packetWf h p
  | .launchAt h p _ _ => packetWf h p
  | .launchAtStamp _ _ => true
  | .datumSyncTimer => true
  | .datumSyncRequest _ _ _ => true
  | .datumSyncResponse _ _ _ _ _ _ _ _ => true
  | .datumHoldover => true
  | .holdoverTimeout => true
  | .ptpMessage _ _ _ _ _ _ _ _ => true
  | .datumPpsIn => true
  | .datumPpsOut => true
  | .ppsOutFall => true
  | .sheetCreate h p => packetWf h p
  | .sheetDestroy h p => packetWf h p
  | .sheetStartingComplete _ => true
  | .sheetStoppingComplete _ => true
  | .contextCreate h p => packetWf h p
  | .contextDestroy h p => packetWf h p
  | .contextResume h p => packetWf h p
  | .kernelDoorbell h p => packetWf h p
  | .serveSet h p => packetWf h p
  | .contextSwitchStart _ => true
  | .contextSwitchComplete _ => true
  | .kernelWatchdog _ _ => true
  | .semHoldExpired _ _ => true
  | .composerPoll _ => true
  | .frameIngress _ _ f => frameWf f
  | .outputArbitration _ _ => true
  | .switchTableWrite h p => packetWf h p
  | .switchExcWrite h p => packetWf h p
  | .switchTableActivation => true
  | .shadowCopyComplete => true
  | .drainComplete => true
  | .drainTimeout => true
  | .swcDropInfo _ => true
  | .portEnable h p => packetWf h p
  | .portDisable h p => packetWf h p
  | .portRetrain h p => packetWf h p
  | .portUnquarantine h p => packetWf h p
  | .portInject h p => packetWf h p
  | .trainingComplete _ => true
  | .trainingTimeout _ => true
  | .laneLockLoss _ _ => true
  | .retrainingComplete _ => true
  | .retrainingTimeout _ => true
  | .portStoppingDrained _ => true
  | .creditBlock _ b => blockWf b
  | .ackBlock _ b => blockWf b
  | .retryReq _ b => blockWf b
  | .violNack _ b => blockWf b
  | .auditMark _ b => blockWf b
  | .auditReturn _ b => blockWf b
  | .keepalive _ b => blockWf b
  | .trainMsg _ _ _ _ _ => true
  | .disableMsg _ b => blockWf b
  | .linkAckTimer _ => true
  | .fptAuditStart _ _ => true
  | .fptCtl _ _ => true
  | .fptViolInfo _ _ => true
  | .deviceIdSet h p => packetWf h p
  | .jobmapWrite h p => packetWf h p
  | .gatewaySet h p => packetWf h p
  | .peerWrite h p => packetWf h p
  | .gatewayEgress _ => true
  | .wcWindowTimeout _ => true
  | .readBufferExpiry _ => true
  | .gatewayData _ d => dgramWf d
  | .gatewayAck _ d => dgramWf d
  | .hello _ d => dgramWf d
  | .helloAck _ d => dgramWf d
  | .closeMsg _ d => dgramWf d
  | .gatewayAckTimer _ => true
  | .retransmissionTimeout _ _ _ => true
  | .rateAdjust _ _ => true
  | .datagramSend _ => true
  | .nopCommand h p => packetWf h p
  | .deviceInfo h p => packetWf h p
  | .regWrite h p => packetWf h p
  | .chartroomFailover h p => packetWf h p
  | .deviceReset h p => packetWf h p
  | .deviceResetBegin => true
  | .sheetReset h p => packetWf h p
  | .telemetrySet h p => packetWf h p
  | .telemetryRead h p => packetWf h p
  | .levelRead h p => packetWf h p
  | .levelSample => true
  | .chartroomHeartbeat => true
  | .heartbeatTimeout => true
  | .chtRingCfg _ _ _ => true
  | .cmdTail _ _ _ => true
  | .replyHead _ _ _ => true
  | .jobAdmit h p _ => packetWf h p
  | .jobTeardown h p => packetWf h p
  | .teardownStepDone _ => true
  | .teardownWaitLimit _ => true
  | .peerAttest h p => packetWf h p
  | .peerAttestPhase _ _ _ => true
  | .debugUnlock h p _ => packetWf h p
  | .debugLock h p => packetWf h p
  | .debugTokenExpiry => true
  | .certRead h p => packetWf h p
  | .memImport h p _ _ => packetWf h p
  | .memExport h p => packetWf h p
  | .ownerRecord owner fms _ _ _ => digestWf owner && fms.all digestWf
  | .getVersion x => sourceWf x
  | .getCapabilities x => sourceWf x
  | .negotiateAlgorithms x => sourceWf x
  | .getDigests x => sourceWf x
  | .getCertificate x _ _ _ => sourceWf x
  | .challengeMsg x nonce => sourceWf x && decide (nonce.length = 32)
  | .getMeasurements x => sourceWf x
  | .keyExchange x _ => sourceWf x
  | .finishMsg x _ _ _ => sourceWf x
  | .heartbeatMsg x _ => sourceWf x
  | .keyUpdate x _ => sourceWf x
  | .endSession x _ => sourceWf x
  | .ctcFailInfo _ _ => true
  | .powerLimitSet h p => packetWf h p
  | .overlayLoad h p _ => packetWf h p
  | .overlayClear h p => packetWf h p
  | .contourReport h p => packetWf h p
  | .retrainSchedule h p => packetWf h p
  | .powerSample _ _ _ => true
  | .excursionEnd => true
  | .throttleStep => true
  | .clockRaise => true
  | .inputUndervolt => true
  | .mainPowerCut => true
  | .overcurrent => true
  | .thermalSample _ _ => true
  | .contourSample _ _ => true
  | .contourReplan => true
  | .retrainWindow => true
  | .laserInputLow _ _ _ => true
  | .closureCheck h p => packetWf h p
  | .eventRead h p => packetWf h p
  | .diagRead h p => packetWf h p
  | .fmReportSend => true
  | .standbyPowerValid => true
  | .mainOk _ => true
  | .mainOkTimeout => true
  | .mainRailDischarged => true
  | .dieDiscoveryTimeout _ => true
  | .hbmTrainingComplete _ _ => true
  | .linkTableVerify _ => true
  | .level0Deadline => true
  | .resetN _ => true
  | .perst _ => true
  | .functionLevelReset _ => true
  | .coldReset => true
  | .matrixQueueStart _ => true
  | .weightLoadComplete _ => true
  | .moverComplete _ _ => true
  | .quantizerComplete _ => true
  | .unquarantineHandshakeTimeout _ => true
  | .spdmSessionTimeout _ => true
  | .pldmFirmwareUpdate _ _ _ _ => true
  | .bootImageVerified _ _ _ _ items _ => items.all digestWf
  | .photonicSelfTestComplete _ _ => true
  | .dieDiscoveryReport _ _ _ _ => true

end Sys2Proof
end

