-- ==== Sys2Proof/Certificates/Slice0/Obligations.lean ====
section
/-! DEFINITION. The statements about the device, each with the rules of the spec that it formalises. -/

open Sys2Proof Sys2Proof.Machine

/-! Cores. -/

/-- R210 (Table 7.3), R213 (Table 7.6): an R-form integer instruction that issues with its registers ready writes d, moves the PC on by 8, and changes nothing
else. Arithmetic wraps modulo 2^64; a division by zero gives what the table says. -/
def Obligations.ScalarTwoSource : Prop :=
  ∀ (s : State) (c : Fin 256) (f : BitVec 56), s.issues c → rOk f true true true false 0 = true → (s.core c).ready [rA f, rB f] →
    let x := s.core c
    let a := x.rs (rA f)
    let b := x.rs (rB f)
    let t : Word → Res := fun w => .next (s.setCore c (x.ws (rD f) w).adv)
    exec (.add c f) s = t (a + b) ∧ exec (.sub c f) s = t (a - b) ∧ exec (.mul c f) s = t (a * b) ∧
    exec (.mulhu c f) s = t (BitVec.ofNat 64 (a.toNat * b.toNat / 2 ^ 64)) ∧
    exec (.mulhs c f) s = t (BitVec.ofInt 64 (a.toInt * b.toInt / 2 ^ 64)) ∧
    exec (.divu c f) s = t (if b = 0 then BitVec.allOnes 64 else BitVec.ofNat 64 (a.toNat / b.toNat)) ∧
    exec (.remu c f) s = t (if b = 0 then a else BitVec.ofNat 64 (a.toNat % b.toNat)) ∧
    exec (.divs c f) s = t (if b = 0 then BitVec.allOnes 64 else BitVec.ofInt 64 (a.toInt.tdiv b.toInt)) ∧
    exec (.rems c f) s = t (if b = 0 then a else BitVec.ofInt 64 (a.toInt.tmod b.toInt)) ∧
    exec (.andInstr c f) s = t (a &&& b) ∧ exec (.orInstr c f) s = t (a ||| b) ∧ exec (.xorInstr c f) s = t (a ^^^ b) ∧
    exec (.shl c f) s = t (a <<< (b.toNat % 64)) ∧ exec (.shr c f) s = t (a >>> (b.toNat % 64)) ∧
    exec (.sar c f) s = t (a.sshiftRight (b.toNat % 64)) ∧
    exec (.minu c f) s = t (BitVec.ofNat 64 (min a.toNat b.toNat)) ∧ exec (.maxu c f) s = t (BitVec.ofNat 64 (max a.toNat b.toNat)) ∧
    exec (.mins c f) s = t (BitVec.ofInt 64 (min a.toInt b.toInt)) ∧ exec (.maxs c f) s = t (BitVec.ofInt 64 (max a.toInt b.toInt)) ∧
    exec (.sltu c f) s = t (if a.toNat < b.toNat then 1 else 0) ∧ exec (.slts c f) s = t (if a.toInt < b.toInt then 1 else 0) ∧
    exec (.seq c f) s = t (if a = b then 1 else 0) ∧
    exec (.rotr c f) s = t (a.rotateRight (b.toNat % 64)) ∧ exec (.hash c f) s = t (gzHash a b)

/-- R210 (Table 7.3), R213 (Table 7.6): the other integer forms, each behind the encoding that R208 and R209 ask of it: immediates, one source, a selection, a
load of an immediate, and bit fields. -/
def Obligations.ScalarOther : Prop :=
  ∀ (s : State) (c : Fin 256) (f : BitVec 56), s.issues c →
    let x := s.core c
    let a := x.rs (rA f)
    let b := x.rs (rB f)
    let i : Word := BitVec.ofInt 64 (sInt 32 (iImm f))
    let n := iImm f
    let t : Word → Res := fun w => .next (s.setCore c (x.ws (rD f) w).adv)
    (f = 0 → exec (.nop c f) s = .next (s.setCore c x.adv)) ∧
    (rOk f true true true true 0 = true → x.ready [rA f, rB f, rC f] → exec (.sel c f) s = t (if x.rs (rC f) = 0 then b else a)) ∧
    (iX12 f = 0 → x.ready [rA f] →
      exec (.addi c f) s = t (a + i) ∧ exec (.andi c f) s = t (a &&& i) ∧ exec (.ori c f) s = t (a ||| i) ∧ exec (.xori c f) s = t (a ^^^ i) ∧
      (n < 64 → exec (.shli c f) s = t (a <<< n) ∧ exec (.shri c f) s = t (a >>> n) ∧ exec (.sari c f) s = t (a.sshiftRight n))) ∧
    (lResv f = false → lHi f = false → exec (.ldi c f) s = t (BitVec.ofInt 64 (sInt 48 (lImm f)))) ∧
    (lResv f = false → lHi f = true → lImm f < 2 ^ 16 → x.ready [rD f] →
      exec (.ldi c f) s = t (BitVec.ofNat 64 ((x.rs (rD f)).toNat % 2 ^ 48 + lImm f * 2 ^ 48))) ∧
    (rOk f true true false false 0 = true → x.ready [rA f] →
      exec (.popc c f) s = t (BitVec.ofNat 64 (((List.range 64).filter a.getLsbD).length)) ∧
      exec (.clz c f) s = t (BitVec.ofNat 64 (64 - bitLen a.toNat)) ∧
      exec (.ctz c f) s = t (BitVec.ofNat 64 (ctzBits 64 a.toNat)) ∧
      exec (.bswap c f) s = t (BitVec.ofNat 64 (leNat (leBytes 8 a.toNat).reverse)) ∧
      exec (.brev c f) s = t (BitVec.ofNat 64 (revBits 64 a.toNat))) ∧
    (rOk f true true false false 0xFFF = true → x.ready [rA f] →
      exec (.bext c f) s = t (BitVec.ofNat 64 (a.toNat / 2 ^ bitsOf (rX f) 5 0 % 2 ^ bfLen (rX f)))) ∧
    (rOk f true true true false 0xFFF = true → bitsOf (rX f) 5 0 + bfLen (rX f) ≤ 64 → x.ready [rA f, rB f] →
      exec (.bins c f) s = t (BitVec.ofNat 64 (setBits a.toNat (bitsOf (rX f) 5 0 + bfLen (rX f) - 1) (bitsOf (rX f) 5 0) b.toNat)))

/-- R211 (Table 7.4): the FP32 instructions work on bits [31:0], write zero above them, and set the sticky flags that they raise. -/
def Obligations.ScalarFloat : Prop :=
  ∀ (s : State) (c : Fin 256) (f : BitVec 56), s.issues c → (s.core c).ready [rA f, rB f, rC f] →
    let x := s.core c
    let lo : Word → Nat := fun w => w.toNat % 2 ^ 32
    let a := lo (x.rs (rA f))
    let b := lo (x.rs (rB f))
    let d := lo (x.rs (rC f))
    let t : Nat × FFlags → Res := fun r => .next (s.setCore c ((x.ws (rD f) (BitVec.ofNat 64 r.1)).orFl r.2).adv)
    (rOk f true true true false 0 = true →
      exec (.fadd c f) s = t (fAdd fp32 a b) ∧ exec (.fsub c f) s = t (fSub fp32 a b) ∧ exec (.fmul c f) s = t (fMul fp32 a b) ∧
      exec (.fmin c f) s = t (fMinMax fp32 false a b) ∧ exec (.fmax c f) s = t (fMinMax fp32 true a b)) ∧
    (rOk f true true true true 0 = true → exec (.ffma c f) s = t (fFma fp32 a b d)) ∧
    (rOk f true true true false 3 = true → exec (.fcmp c f) s = t (b2n (fCmp fp32 (rX f) a b).1, (fCmp fp32 (rX f) a b).2)) ∧
    (rOk f true true false false 3 = true → rX f < 3 →
      exec (.fcvt c f) s = t ((cvtScalar (rX f) (x.rs (rA f))).1.toNat, (cvtScalar (rX f) (x.rs (rA f))).2))

/-- R212 (Table 7.5): a branch whose condition holds goes to the PC plus 8 × off32, which lies in the kernel's code, and falls through where it does not; CALL
and JR leave the address of the instruction after them. -/
def Obligations.Branches : Prop :=
  ∀ (s : State) (c : Fin 256) (f : BitVec 56), s.issues c →
    let x := s.core c
    let a := x.rs (bA f)
    let b := x.rs (bB f)
    let to_ := (x.pc : Int) + 8 * sInt 32 (fld f 31 0)
    let t : Bool → Res := fun k => .next (s.setCore c { x with pc := if k then to_.toNat else x.pc + 8 })
    (bResv f = 0 → targetOk x to_ = true → x.ready [bA f, bB f] →
      exec (.beq c f) s = t (decide (a = b)) ∧ exec (.bne c f) s = t (decide (a ≠ b)) ∧
      exec (.blts c f) s = t (decide (a.toInt < b.toInt)) ∧ exec (.bges c f) s = t (decide (b.toInt ≤ a.toInt)) ∧
      exec (.bltu c f) s = t (decide (a.toNat < b.toNat)) ∧ exec (.bgeu c f) s = t (decide (b.toNat ≤ a.toNat))) ∧
    (bResv f = 0 → bA f = 0 → bB f = 0 → targetOk x to_ = true →
      exec (.call c f) s = .next (s.setCore c { x.ws 63 (BitVec.ofNat 64 (x.pc + 8)) with pc := to_.toNat })) ∧
    (rOk f true true false false 0 = true → x.ready [rA f] → targetOk x (x.rs (rA f)).toNat = true →
      exec (.jr c f) s = .next (s.setCore c { x.ws (rD f) (BitVec.ofNat 64 (x.pc + 8)) with pc := (x.rs (rA f)).toNat }))

/-- R174, R205, R207, R214 (Table 7.7): loads and stores of the scratchpad at an offset within its 16 MiB and aligned as the table says. A load reads through
the error correction of the scratchpad: LDS of an uncorrectable error sets poison on d, and VLD faults. A store goes ahead where no queued matrix instruction
has still to read its bytes. -/
def Obligations.ScratchpadAccess : Prop :=
  ∀ (s : State) (c : Fin 256) (f : BitVec 56), s.issues c →
    let x := s.core c
    let o := (x.rs (rA f) + BitVec.ofInt 64 (sInt 32 (iImm f))).toNat
    let k := iX12 f
    let n := 2 ^ (k % 4)
    let vn := 4096 / 2 ^ (k % 4)
    let vp := k / 4 * vn
    let segs := (List.range 8).map fun j => (x.rs (rA f) + BitVec.ofNat 64 j * x.rs (rB f)).toNat
    let sn := 4096 / 2 ^ (rX f % 4)
    let sp := rX f / 4 * sn
    (k < 8 → x.ready [rA f] → o % n = 0 → o + n ≤ 2 ^ 24 →
      let u := (s.scrReads c [(o, n)]).1
      let w : Nat := leNat (u.scrRd c o n)
      exec (.lds c f) s = .next (u.setCore c (if (s.scrReads c [(o, n)]).2.isSome then (x.wpoison (rD f)).adv
        else (x.ws (rD f) (if 4 ≤ k then BitVec.ofInt 64 (sInt (8 * n) w) else BitVec.ofNat 64 w)).adv))) ∧
    (k < 4 → x.ready [rA f, rD f] → o % n = 0 → o + n ≤ 2 ^ 24 → mqHolds x o n = false →
      exec (.sts c f) s = .next ((s.scrPoke c o (leBytes n (x.rs (rD f)).toNat)).setCore c x.adv).wake) ∧
    (k < 16 → partOk (k % 4) (k / 4) = true → rD f < 32 → x.ready [rA f] → x.vready [rD f] → o % 64 = 0 → o + vn ≤ 2 ^ 24 →
      (∀ u, s.scrReads c [(o, vn)] = (u, none) → exec (.vld c f) s = .next (u.setCore c (x.wv (rD f) (vPut (x.rv (rD f)) vp (u.scrRd c o vn))).adv)) ∧
      (∀ u st, s.scrReads c [(o, vn)] = (u, some st) → exec (.vld c f) s = .next (u.coreFault c st)) ∧
      (mqHolds x o vn = false → exec (.vst c f) s = .next ((s.scrPoke c o (vTake (x.rv (rD f)) vp vn)).setCore c x.adv).wake)) ∧
    (segLegal f = true → x.ready [rA f, rB f] → x.vready [rD f] → (∀ q ∈ segs, q % 64 = 0 ∧ q + sn / 8 ≤ 2 ^ 24) →
      (∀ u, s.scrReads c (segs.map fun q => (q, sn / 8)) = (u, none) →
        exec (.vlds c f) s = .next (u.setCore c (x.wv (rD f) (vPut (x.rv (rD f)) sp (segs.map fun q => u.scrRd c q (sn / 8)).flatten)).adv)) ∧
      ((∀ q ∈ segs, mqHolds x q (sn / 8) = false) →
        exec (.vsts c f) s = .next (((segs.zipIdx.foldl (fun s e =>
          s.scrPoke c e.1 (((vTake (x.rv (rD f)) sp sn).drop (sn / 8 * e.2)).take (sn / 8))) s).setCore c x.adv).wake)))

/-- R216 (Table 7.8): an element-wise instruction of a legal encoding whose registers are ready writes the active lanes of d, keeps the others, sets the flags
of the active elements, and changes nothing else of its context. -/
def Obligations.VectorElementwise : Prop :=
  ∀ (s : State) (c : Fin 256) (f : BitVec 56), s.issues c → vOk (rD f) = true → vOk (rA f) = true →
    (bs f = true ∨ vOk (rB f) = true) → (s.core c).ready [rA f, rB f] → (s.core c).vready [rD f, rA f, rB f, rC f] →
    let x := s.core c
    let m := rFmt f
    let w := vWidth m
    let a : Nat → Nat := vGet (x.rv (rA f)) w
    let b : Nat → Nat := vB x f w
    let t : (Nat → Nat × FFlags) → Res := fun g =>
      .next (s.setCore c (((x.wv (rD f) (vMap w (laneOn x f) (x.rv (rD f)) g).1).orFl (vMap w (laneOn x f) (x.rv (rD f)) g).2).adv))
    (m < 4 → rC f = 0 → xOnly f 1 = true →
      exec (.vadd c f) s = t (fun i => if m = 3 then ((a i + b i) % 2 ^ 32, 0) else fAdd (vFmt m) (a i) (b i)) ∧
      exec (.vsub c f) s = t (fun i => if m = 3 then ((a i + (2 ^ 32 - b i)) % 2 ^ 32, 0) else fSub (vFmt m) (a i) (b i)) ∧
      exec (.vmul c f) s = t (fun i => if m = 3 then (a i * b i % 2 ^ 32, 0) else fMul (vFmt m) (a i) (b i)) ∧
      exec (.vmin c f) s = t (fun i => eMinMax false m (a i) (b i)) ∧ exec (.vmax c f) s = t (fun i => eMinMax true m (a i) (b i))) ∧
    (m < 3 → vOk (rC f) = true → xOnly f 1 = true → exec (.vfma c f) s = t (fun i => fFma (vFmt m) (a i) (b i) (vGet (x.rv (rC f)) w i))) ∧
    (m < 4 → rB f = 0 → rC f = 0 → xOnly f 0 = true →
      exec (.vabs c f) s = t (fun i => eSign false m (a i)) ∧ exec (.vneg c f) s = t (fun i => eSign true m (a i))) ∧
    (m = 3 → rC f = 0 → xOnly f 1 = true →
      exec (.vand c f) s = t (fun i => (a i &&& b i, 0)) ∧ exec (.vor c f) s = t (fun i => (a i ||| b i, 0)) ∧
      exec (.vxor c f) s = t (fun i => (a i ^^^ b i, 0))) ∧
    (m = 3 → rC f = 0 → xOnly f 7 = true → bitsOf (rX f) 2 1 < 3 →
      exec (.vshift c f) s = t (fun i => (eShift (bitsOf (rX f) 2 1) (a i) (b i), 0))) ∧
    (m = 0 → rB f = 0 → rC f = 0 → xOnly f 0 = true →
      let e : TFun → Nat → Nat × FFlags := fun g i => tEvalMode x.kern.reproj g (a i)
      exec (.vexp c f) s = t (e .exp) ∧ exec (.vlog c f) s = t (e .log) ∧ exec (.vrcp c f) s = t (e .rcp) ∧
      exec (.vrsqrt c f) s = t (e .rsqrt) ∧ exec (.vsigm c f) s = t (e .sigm) ∧ exec (.vtanh c f) s = t (e .tanh) ∧
      exec (.verf c f) s = t (e .erf) ∧ exec (.vsqrt c f) s = t (e .sqrt))

/-- R216 (Table 7.8), R217: comparisons into a predicate, selection, conversion, broadcast, index, extraction, predicate logic and reductions. -/
def Obligations.VectorOther : Prop :=
  ∀ (s : State) (c : Fin 256) (f : BitVec 56), s.issues c → (s.core c).ready [rA f, rB f] → (s.core c).vready [rD f, rA f, rB f, rC f] →
    let x := s.core c
    let m := rFmt f
    let w := vWidth m
    let a : Nat → Nat := vGet (x.rv (rA f)) w
    let v : Nat → (Nat → Nat × FFlags) → Res := fun w g =>
      .next (s.setCore c (((x.wv (rD f) (vMap w (laneOn x f) (x.rv (rD f)) g).1).orFl (vMap w (laneOn x f) (x.rv (rD f)) g).2).adv))
    (m = 0 ∨ m = 3 → rD f < 8 → vOk (rA f) = true → bOk f = true → rC f = 0 → xOnly f 15 = true → bitsOf (rX f) 3 1 < 7 →
      let r : Nat → Bool × FFlags := fun l => eCmp m (bitsOf (rX f) 3 1) (vGet (x.rv (rA f)) 32 l) (vB x f 32 l)
      exec (.vcmp c f) s = .next (s.setCore c ((x.wp (rD f) (pMap (laneOn x f) (x.rp (rD f)) fun l => (r l).1)).orFl
        ((List.range 1024).foldl (fun a l => if laneOn x f l then a ||| (r l).2 else a) 0)).adv)) ∧
    (m < 4 → vOk (rD f) = true → vOk (rA f) = true → bOk f = true → rC f < 8 → xOnly f 1 = true →
      exec (.vsel c f) s = .next (s.setCore c (x.wv (rD f) (vMap w (laneOn x f) (x.rv (rD f)) fun i =>
        (if (x.rp (rC f)).getLsbD (i * w / 32) then a i else vB x f w i, 0)).1).adv)) ∧
    (m < 4 → vOk (rD f) = true → vOk (rA f) = true → rC f = 0 → xOnly f 0x3F0 = true →
      let k := bitsOf (rX f) 7 4
      let part := bitsOf (rX f) 9 8
      let tw := cvtWidth k
      let s0 := if w = 32 then 0 else 1024 * part
      let d0 := if tw = 32 then 0 else 1024 * part
      k < 7 → (w = 32 → tw = 32 → part = 0) → (w ≠ 32 → part < 32 / w) → (tw ≠ 32 → part < 32 / tw) →
      exec (.vcvt c f) s = v tw (fun i => if d0 ≤ i ∧ i < d0 + 1024 then cvtTo k ((cvtSrc m (a (s0 + (i - d0)))).scale (x.rs (rB f)).toInt)
        else (vGet (x.rv (rD f)) tw i, 0))) ∧
    (m < 4 → vOk (rD f) = true → rB f = 0 → rC f = 0 → xOnly f 0 = true →
      exec (.vbc c f) s = .next (s.setCore c (x.wv (rD f) (vMap w (laneOn x f) (x.rv (rD f)) fun _ => ((x.rs (rA f)).toNat % 2 ^ w, 0)).1).adv)) ∧
    (m = 3 → vOk (rD f) = true → rA f = 0 → rB f = 0 → rC f = 0 → xOnly f 0 = true →
      exec (.viota c f) s = .next (s.setCore c (x.wv (rD f) (vMap 32 (laneOn x f) (x.rv (rD f)) fun i => (i, 0)).1).adv)) ∧
    (m < 4 → vOk (rA f) = true → rC f = 0 → xOnly f 0 = true → rPn f = false → rPr f = 0 → (x.rs (rB f)).toNat < 32768 / w →
      exec (.vextr c f) s = .next (s.setCore c (x.ws (rD f) (BitVec.ofNat 64 (a (x.rs (rB f)).toNat))).adv)) ∧
    (m = 0 → rA f < 8 → rB f = 0 → rC f = 0 → xOnly f 0 = true → rPn f = false → rPr f = 0 →
      exec (.pcnt c f) s = .next (s.setCore c (x.ws (rD f) (BitVec.ofNat 64 (((List.range 1024).filter (x.rp (rA f)).getLsbD).length))).adv)) ∧
    (m = 0 → rD f < 8 → rA f < 8 → rB f < 8 → rC f = 0 → xOnly f 3 = true →
      let p := x.rp (rA f)
      let q := x.rp (rB f)
      exec (.plog c f) s = .next (s.setCore c (x.wp (rD f) (pMap (laneOn x f) (x.rp (rD f))
        (if rX f = 0 then p &&& q else if rX f = 1 then p ||| q else if rX f = 2 then p ^^^ q else p &&& ~~~q).getLsbD)).adv)) ∧
    (m = 0 ∨ m = 3 → vOk (rA f) = true → rB f = 0 → rC f = 0 → xOnly f 0 = true →
      let l : Nat → List Nat := fun z => (List.range 1024).map fun i => if laneOn x f i then vGet (x.rv (rA f)) 32 i else z
      let t : (Nat → Nat → Nat × FFlags) → Nat → Res := fun g z => .next (s.setCore c
        ((x.ws (rD f) (BitVec.ofNat 64 ((treeReduce g 10 (l z) 0).1.headD 0))).orFl (treeReduce g 10 (l z) 0).2).adv)
      exec (.vrsum c f) s = t (eAdd m) (if m = 3 then 0 else 2 ^ 31) ∧
      exec (.vrmax c f) s = t (eMinMax true m) (if m = 3 then 2 ^ 31 else 0xFF800000) ∧
      exec (.vrmin c f) s = t (eMinMax false m) (if m = 3 then 2 ^ 31 - 1 else 0x7F800000))

/-- R204, R218 to R222 (Table 7.9): a matrix instruction that is legal, finds room in the queue of 4 and, for WLD, its places good, enters the queue with its
operands; the entry at the head of the queue runs when the array lets it, and a weight load that ends gives the shadow tile. -/
def Obligations.MatrixQueue : Prop :=
  ∀ (s : State) (c : Fin 256) (f : BitVec 56),
    let x := s.core c
    let q : MqEntry → Res := fun e => .next (s.setCore c { x with mq := x.mq ++ [(x.pc, e)] }.adv)
    let n : Nat → Nat := fun r => (x.rs r).toNat
    let mx := (matFmt (rFmt f)).mx
    let sp := bitsOf (rX f) 1 0
    (s.issues c → x.ready [rA f, rB f, rC f] → x.vready [rD f] → x.mq.length < 4 →
      (matLegal f 0x1FFF = true → rD f = 0 → (sp = 0 → rB f = 0) → (mx = false → rC f = 0) →
        blockFault (n (rA f)) (128 * rowBytes (rFmt f)) = none → (sp ≠ 0 → blockFault (n (rB f)) (128 * metaRow (rFmt f)) = none) →
        (mx = true → blockFault (n (rC f)) (128 * (denseK (rFmt f) sp / 32)) = none) →
        exec (.wld c f) s = q (.wld (rFmt f) sp (bitsOf (rX f) 12 2) (n (rA f)) (n (rB f)) (n (rC f)))) ∧
      (matLegal f 0xFFF = true → rD f = 0 → (mx = false → rC f = 0) →
        exec (.mpass c f) s = q (.mpass (rFmt f) (n (rA f)) (n (rB f)) (n (rC f)) (bitsOf (rX f) 1 0) (bitOf (rX f) 2) (bitOf (rX f) 3)
          (bitOf (rX f) 4) (bitsOf (rX f) 11 5 + 1))) ∧
      (accLegal f = true → rD f < 32 → rC f = 0 →
        exec (.accrd c f) s = q (.accrd (rD f) (n (rA f) % 16) (x.rs (rB f)).toInt (bitsOf (rX f) 1 0))) ∧
      (accLegal f = true → rD f = 0 → rA f = 0 → rB f = 0 → rC f = 0 → exec (.accz c f) s = q (.accz (bitsOf (rX f) 1 0)))) ∧
    (∀ pc k rest, x.run = .running → x.mq = (pc, .accz k) :: rest →
      exec (.matrixQueueStart c) s = .next ((s.setCore c { x with mq := rest, acc := x.acc.put k AccTile.fresh }).drainStep c)) ∧
    (∀ pc m z ke a b d rest u, x.run = .running → x.mq = (pc, .wld m z ke a b d) :: rest → x.load = none → s.scrReads c (wldReads m z a b d) = (u, none) →
      exec (.matrixQueueStart c) s = .next ((u.setCore c { x with mq := rest, load := some (u.readTile c pc m z ke a b d) }).drainStep c)) ∧
    (∀ pc m ad st sc k sw wr tr n rest, x.run = .running → x.mq = (pc, .mpass m ad st sc k sw wr tr n) :: rest → sw = false ∨ x.load = none →
      exec (.matrixQueueStart c) s = .next ((s.startPass c pc { x with mq := rest } m ad st sc k sw wr tr n).drainStep c)) ∧
    (∀ pc d g b k rest, x.run = .running → x.mq = (pc, .accrd d g b k) :: rest →
      let tile := x.acc.getD k AccTile.fresh
      let r : List (Nat × FFlags) := (List.range 1024).map fun l => accRead tile.kind b (tile.words.getD ((8 * g + l / 128) * 128 + l % 128) AccWord.zero)
      exec (.matrixQueueStart c) s = .next ((s.setCore c
        ((({ x with mq := rest } : CoreCtx).wv d (vOfList 32 (r.map (·.1)))).orFl (r.foldl (fun fl e => fl ||| e.2) 0))).drainStep c)) ∧
    (∀ t, x.load = some t →
      let s' := s.setCore c { x with load := none, shadow := some t }
      exec (.weightLoadComplete c) s = .next ((match t.viol with
        | none => s'
        | some (i, col, kind) => (s'.captureFault c .sparseMeta (i * 2 ^ 40 + col * 2 ^ 33 + kind * 2 ^ 31) t.pc).bump
            F.CORE_SPARSE_META_CNT_bad_tiles (s.runner c) 0 1).drainStep c))

/-- R50, R223 to R226 (Table 7.11): a remote instruction of a legal encoding, with its operands ready and its address aligned to its size, issues its operation
and moves on where its agent is free to issue and its stream is below the limit of R43; otherwise it holds its core with that operation. One whose local
offset, or whose scratchpad place, lies outside every window issues as an operation that fails with ADDRESS_RANGE (R23). FENCE holds its core at the
instruction with a fence recorded. -/
def Obligations.RemoteInstructions : Prop :=
  ∀ (s : State) (c : Fin 256) (f : BitVec 56), s.issues c → (s.core c).ready [rA f, rB f, rC f] →
    let x := s.core c
    let sz := bitsOf (rX f) 3 0
    let b := (x.rs (rB f)).toNat
    let code := bitsOf (rX f) 11 8
    let ret := bitOf (rX f) 7
    let a := remoteAddr x f
    let far : Option Status → Option Status := fun o => if remoteBad x f then some .addressRange else o
    let slot : Option Status := if 4 ≤ sz ∧ 2 ^ 24 < b + 2 ^ sz then some .addressRange else none
    let t : State → CoreRemote → Res := fun s r =>
      .next (if s.coreHeld x.kern.sheet x.kern.vindex = true ∨
          65536 ≤ (s.stream ⟨x.kern.sheet, x.kern.vindex, x.kern.job, fld r.addr 63 44⟩).unacked
        then s.setCore c { x with run := .blocked (.issue r) } else (s.setCore c x.adv).issueCore c r)
    (fld a 43 0 % 2 ^ sz = 0 → sz ≤ 8 →
      (plainLegal f 0x7F = true → rC f = 0 → (sz < 4 → rB f = 0) → (4 ≤ sz → rD f = 0) →
        exec (.rld c f) s = t s ⟨1, a, 2 ^ sz, if 4 ≤ sz then none else some (rD f), b, bitOf (rX f) 5, bitOf (rX f) 6 && decide (sz < 4), [], 0, 0, false, far slot⟩) ∧
      (plainLegal f 0x1F = true → rC f = 0 → rD f = 0 → sz < 4 →
        exec (.rst c f) s = t s ⟨2, a, 2 ^ sz, none, 0, false, false, leBytes (2 ^ sz) b, 0, 0, false, far none⟩) ∧
      (plainLegal f 0x1F = true → rC f = 0 → rD f = 0 → 4 ≤ sz → b + 2 ^ sz ≤ 2 ^ 24 →
        let r := s.scrReads c [(b, 2 ^ sz)]
        exec (.rst c f) s = t r.1 ⟨2, a, 2 ^ sz, none, 0, false, false, r.1.scrRd c b (2 ^ sz), 0, 0, false, far r.2⟩) ∧
      (plainLegal f 0xF9F = true → code ≤ 10 → (ret = false → rD f = 0) → code = 9 ∨ rC f = 0 → sz = 2 ∨ sz = 3 → (code = 10 → sz = 2) →
        exec (.ratom c f) s = t s ⟨3, a, 2 ^ sz, if ret then some (rD f) else none, 0, false, false, leBytes 8 b, code, x.rs (rC f), ret, far none⟩)) ∧
    (plainLegal f 3 = true → rB f = 0 → rC f = 0 → rA f = 0 ∨ bitOf (rX f) 0 = true → s.coreHeld x.kern.sheet x.kern.vindex = false →
      exec (.fence c f) s = .next ((s.setCore c { x with run := .blocked (.fence s.ep.nextId (rD f)) }).addFence x.kern.sheet x.kern.vindex x.kern.job
        (if bitOf (rX f) 0 then some (x.rs (rA f)).toNat else none) (bitOf (rX f) 1) (.instr c (rD f))).settle)

/-- R227 to R232 (Tables 7.12 and 7.13): waits whose word satisfies them, semaphores, movers and the system instructions; a wait that runs out of time
completes with 0 (R227). -/
def Obligations.SystemInstructions : Prop :=
  ∀ (s : State) (c : Fin 256) (f : BitVec 56),
    let x := s.core c
    let a := x.rs (rA f)
    let k := x.kern
    let zero := rD f = 0 ∧ rA f = 0 ∧ rB f = 0 ∧ rC f = 0
    let go : CoreCtx → Res := fun y => .next (s.setCore c y.adv)
    (s.issues c → x.ready [rA f, rB f] →
      (plainLegal f 0xFFFF = true → rC f = 0 → a.toNat % 8 = 0 → s.inData k.sheet a.toNat 8 = true →
        let us := bitsOf (rX f) 15 0
        let hold : Bool → Res := fun ne => .next (s.setCore c
          { x with run := .blocked (.wait a.toNat (x.rs (rB f)) ne (rD f) (if us = 0 then none else some (s.datum + 1000 * us))) })
        exec (.waitge c f) s = (if (x.rs (rB f)).toNat ≤ s.rdN k.sheet a.toNat 8 then go (x.ws (rD f) 1) else hold false) ∧
        exec (.waitne c f) s = (if s.rdN k.sheet a.toNat 8 ≠ (x.rs (rB f)).toNat then go (x.ws (rD f) 1) else hold true)) ∧
      (plainLegal f 0xFF = true → zero →
        (s.sems.find (k.sheet, bitsOf (rX f) 7 0) = none →
          exec (.sacq c f) s = .next (({ s with sems := s.sems.put (k.sheet, bitsOf (rX f) 7 0) ⟨k.ctxIdx, c, s.datum⟩ }.setCore c x.adv).keepLifts k.sheet)) ∧
        (∀ m, s.sems.find (k.sheet, bitsOf (rX f) 7 0) = some m → exec (.sacq c f) s =
          (if m.ctx = k.ctxIdx ∧ m.core = c then go x else .next ((s.setCore c { x with run := .blocked (.sacq (bitsOf (rX f) 7 0)) }).keepLifts k.sheet))) ∧
        (∀ d, s.sems.find (k.sheet, bitsOf (rX f) 7 0) = some ⟨k.ctxIdx, c, d⟩ →
          exec (.srel c f) s = .next ((s.setCore c x.adv).semRelease k.sheet (bitsOf (rX f) 7 0)))) ∧
      (plainLegal f 7 = true → rB f = 0 → rC f = 0 → a.toNat % 64 = 0 → a.toNat + 64 ≤ 2 ^ 24 →
        let v := s.scrReads c [(a.toNat, 64)]
        (∀ j, bitsOf (rX f) 2 0 < 5 → s.moverFor c (bitsOf (rX f) 2 0) = some j →
          exec (.mvi c f) s = .next ({ v.1 with movers := s.movers.put (c.val, j) ⟨BitVec.ofNat 512 (leNat (s.scrRd c a.toNat 64)), c, v.2⟩ }.setCore c
            ({ x with run := .running }.ws (rD f) (BitVec.ofNat 64 j)).adv)) ∧
        (rD f = 0 → bitsOf (rX f) 2 0 < 5 → s.coreHeld k.sheet k.vindex = false → (s.stream ⟨k.sheet, k.vindex, k.job, k.logical⟩).unacked < 65536 → v.2 = none →
          let u := v.1.setCore c { x with run := .blocked .submit }
          let page := 0x20000000000 + k.vindex / 32 * 2 ^ 20 + bitsOf (rX f) 2 0 * 2 ^ 16
          exec (.submit c f) s = .next ((u.issue ⟨k.sheet, k.vindex, k.job, k.logical⟩ (BitVec.ofNat 64 (k.logical * 2 ^ 44 + page))
            { OpEnd.none with owner := some (1, c.val) } fun e => [⟨{ u.reqFrame k.sheet k.vindex k.job e 2 1 with
              addr := BitVec.ofNat 44 page, spec := 6, last := true, payload := u.scrRd c a.toNat 64 }, none, none⟩]).settleOwners))) ∧
      (plainLegal f 0xF = true → zero → s.moversFree c (bitsOf (rX f) 3 0) = true → exec (.mvwait c f) s = go x) ∧
      (plainLegal f 0xF = true → rA f = 0 → rB f = 0 → rC f = 0 → bitsOf (rX f) 3 0 < 8 →
        exec (.rds c f) s = .next (s.setCore c (x.ws (rD f)
          ([BitVec.ofNat 64 k.vindex, BitVec.ofNat 64 (k.vindex - k.vfirst), BitVec.ofNat 64 k.logical, BitVec.ofNat 64 k.job, BitVec.ofNat 64 s.datum,
            Config.freeWord s.free, x.fl.zeroExtend 64, BitVec.ofNat 64 (s.runner c)].getD (bitsOf (rX f) 3 0) 0)).adv).draw) ∧
      (plainLegal f 0xF = true → bitsOf (rX f) 3 0 = 6 → rD f = 0 → rB f = 0 → rC f = 0 →
        exec (.wrs c f) s = go { x with fl := a.truncate 5 }) ∧
      (plainLegal f 0xFFFF = true → zero → exec (.breakInstr c f) s = .next (s.coreFault c .swTrap (bitsOf (rX f) 15 0 * 2 ^ 32))) ∧
      (f = 0 → x.mq = [] → x.load = none →
        exec (.endInstr c f) s = .next ((s.setCore c { x with run := .blocked (.ending none) }).drainStep c))) ∧
    (∀ w b ne d t, x.run = .blocked (.wait w b ne d (some t)) → t ≤ s.datum →
      exec (.waitTimeout c) s = .next (s.setCore c ({ x with run := .running }.ws d 0).adv))

/-! Remote memory. -/

/-- R33 to R37, R42, R50, R64, R583 (Table 2.6): an operation descriptor at the head of the queue of a sheet's remote memory endpoint leaves the queue. It waits
while its agent may not issue, and an INVALIDATE waits until no operation of its agent is outstanding; one that fails a check of R33 fails with its status;
RACC, BULK_COPY and NOTIFY issue their frames, INVALIDATE issues one operation for each reader of its list, and FENCE records its fence and answers at once if
all that it recorded has completed. -/
def Obligations.EndpointDescriptors : Prop :=
  ∀ (s : State) (k : Fin 8) (q : QDesc), s.headOf k 4 q →
    let t := s.popQueue k 4
    let op := dAt q.desc 0 1
    let own := (t.logicalOf q.job t.sw.devId q.sheet).getD (2 ^ 20)
    let each : (Nat → State → Prop) → Prop := fun P =>
      (op = 4 → ∃ u, exec (.raccDesc k) s = .next u ∧ P 4 u) ∧ (op = 5 → ∃ u, exec (.bulkCopy k) s = .next u ∧ P 5 u) ∧
      (op = 6 → ∃ u, exec (.invalidate k) s = .next u ∧ P 6 u) ∧ (op = 7 → ∃ u, exec (.fenceDescriptor k) s = .next u ∧ P 7 u) ∧
      (op = 8 → ∃ u, exec (.notifyDesc k) s = .next u ∧ P 8 u)
    let fl := dAt q.desc 2 2
    let a := dAt q.desc 8 8
    let wait : State := { t with ep := { t.ep with waiting := t.ep.waiting ++ [q] } }
    (t.agentHeld q.sheet q.agent = true → each fun _ u => u = wait.after) ∧
    (t.agentHeld q.sheet q.agent = false → ∀ st, t.rmoCheck q.sheet own q.desc = some st → each fun _ u => u = (t.descFails q own st).after) ∧
    (t.agentHeld q.sheet q.agent = false → t.rmoCheck q.sheet own q.desc = none →
      (t.agentBusy q.sheet q.agent = true → each fun o u => o = 6 → u = wait.after) ∧
      (∀ v, t.meets q.sheet 2 (descReads q.desc) = (v, none) →
        let g : OpGroup := ⟨0, none, q.sheet, dAt q.desc 48 8, dAt q.desc 28 4, none, v.datum⟩
        let readers := (List.range (dAt q.desc 56 4)).map fun j => v.rdN q.sheet (dAt q.desc 16 8 % 2 ^ 44 + 4 * j) 4
        each fun o u =>
          (o = 4 ∨ o = 5 ∨ o = 8 → u = (v.issueDesc q own).after) ∧
          (o = 6 → t.agentBusy q.sheet q.agent = false → u = (v.issueInvals q.sheet q.agent q.job readers (a % 2 ^ 44) (dAt q.desc 24 4) g).after)) ∧
      (let v := t.addFence q.sheet q.agent q.job (if bitOf fl 3 then some (a / 2 ^ 44) else none) (bitOf fl 2) (.desc (dAt q.desc 48 8) (dAt q.desc 28 4));
        ∀ f, v.ep.fences.find? (fun f => f.id == t.ep.nextId) = some f →
          each fun o u => o = 7 → u = (if v.fenceMet f then (v.endFence f).1.fenceAnswer f (v.endFence f).2 else v).after))

/-- R23 to R26, R30 to R32, R36, R44, R68, R293, R298 (Table 2.4): a request whose turn it is, and whose places lie in a data window, in regions that let its
source in, and meet no uncorrectable error, has its effect on memory and is answered: LOAD and a get answer the bytes, an ATOMIC the prior value where it asks
for it, STORE, a put, NOTIFY and INVALIDATE an acknowledgement. A contribution is handed to its hub, which answers later, or waits while its context has as
much to commit as R314 allows. -/
def Obligations.RemoteRequests : Prop :=
  ∀ (s : State) (f : Frame) (src : Nat) (v : State),
    let r := s.arrived f
    let i := f.dstSheet.toNat
    let a := f.addr.toNat
    let z := opSize f
    let flag := fld f.opflag 0 0
    let free : List (Nat × Nat × Bool) → Prop := fun l => r.windowCheck f src l = none ∧
      (∀ e ∈ l, r.regionRefuses i e.1 e.2.1 e.2.2 f.job.toNat src = none) ∧ r.meets i 1 l = (v, none)
    let open_ : Prop := (r.pools.any fun e => r.poolShut e.2 && e.2.frameFor f false) = false
    let data : Prop := (∀ k p o, r.locate i a ≠ some (.queue k p o)) ∧ ∀ b p o, r.locate i a ≠ some (.reg b p o)
    let old := v.rdN i a z
    let new := atomicNew (fld f.spec 11 8) z old (uAt f.payload 0 8 % 2 ^ (8 * z)) (uAt f.payload 8 8 % 2 ^ (8 * z))
    let sem := uAt f.payload 0 8 % 2 ^ 44
    open_ → data →
    (s.executes f 1 src true → free [(a, z, false)] → exec (.loadRequest f) s =
      .next (v.responds f .ok (flag == 1 && decide (v.get F.RGD_CTL_enforce = 0 ∨ 2 ^ 40 ≤ a ∨ fld (v.regionAt i a) 1 0 < 2)) (v.rd i a z))) ∧
    (s.executes f 2 src true → free [(a, f.payload.length, true)] → exec (.storeRequest f) s = .next ((v.write i a f.payload).acknowledges f .ok)) ∧
    (s.executes f 3 src true → free [(a, z, true)] → exec (.atomicRequest f) s =
      .next (((v.writeN i a z new).wordRaised i a z).responds f .ok false (if flag = 1 then leBytes 8 old else []))) ∧
    (s.executes f 4 src true → (∃ x, r.locate i a = some (.hbm x)) → r.collAccess i a f.job.toNat src f.agent.toNat false ≠ some false →
      (r.raccFull f = false → exec (.raccRequest f) s = .next (if (r.raccTake f src).2 = .ok then ((r.raccTake f src).1.drained f).after
        else (r.raccTake f src).1.acknowledges f (r.raccTake f src).2)) ∧
      (r.raccFull f = true → exec (.raccRequest f) s = .next ((({ r with ep := { r.ep with stalled := r.ep.stalled ++ [f] } } : State).drained f).after))) ∧
    (s.executes f 5 src false → isGet f = true → free [(a, f.spec.toNat, false)] → exec (.bulkCopyGet f) s =
      .next (v.responds f .ok false (v.rd i a f.spec.toNat))) ∧
    (s.executes f 5 src false → isGet f = false → f.agent ≠ 280 → ∀ bs, denseOf f = some bs → r.poolHolds f bs.length = none → free [(a, bs.length, true)] →
      exec (.bulkCopyPut f) s = .next ((((v.write i a bs).relayPut i a bs.length).collPut i a bs.length).acknowledges f .ok)) ∧
    (s.executes f 6 src false → exec (.invalidateRequest f) s =
      .next ((r.dropLines fun sh j _ l => sh == i && j == f.job.toNat && decide (l < a + uAt f.payload 0 8) && decide (a < l + 256)).acknowledges f .ok)) ∧
    (s.executes f 8 src true → f.payload.length ≤ 16 → r.wordIn i sem = true → free [(sem, 8, true)] → exec (.notifyRequest f) s =
      .next (((v.writeN i sem 8 ((v.rdN i sem 8 + uAt f.payload 8 8) % 2 ^ 64)).wordRaised i sem 8).acknowledges f .ok)) ∧
    (s.executes f 8 src true → 16 < f.payload.length → r.wordIn i sem = true →
      let n := f.payload.length - 16
      let w := v.write i a (f.payload.drop 16)
      free [(a, n, true), (sem, 8, true)] → exec (.notifyRequest f) s =
        .next ((((w.writeN i sem 8 ((w.rdN i sem 8 + uAt f.payload 8 8) % 2 ^ 64)).wordsWritten i a n).wordRaised i sem 8).acknowledges f .ok))

/-- R26, R27, R45: a store of 64 bytes to a page of an engine queue of the requester's own device adds its descriptor to the queue when that has room; a full
queue keeps the frame, and the frame executes once the queue has room. -/
def Obligations.EngineQueues : Prop :=
  ∀ (s : State) (f : Frame) (src k page o : Nat),
    let r := s.arrived f
    let i := f.dstSheet.toNat
    let x := (r.physOct i k, page)
    let l := r.ep.queues.getD x []
    let d : QDesc := ⟨i, f.agent.toNat, f.job.toNat, BitVec.ofNat 512 (leNat f.payload)⟩
    (s.executes f 2 src true → (r.pools.any fun e => r.poolShut e.2 && e.2.frameFor f false) = false →
      r.locate i f.addr.toNat = some (.queue k page o) → r.foreign f = false → f.agent.toNat < 256 → f.agent.toNat / 32 = k →
      f.payload.length = 64 → o % 64 = 0 →
      (l.length < queueRoom page → exec (.storeRequest f) s =
        .next (({ r with ep := { r.ep with queues := r.ep.queues.put x (l ++ [d]) } } : State).acknowledges f .ok)) ∧
      (queueRoom page ≤ l.length → ∃ t, exec (.storeRequest f) s = .next t ∧
        t = ((({ r with ep := { r.ep with stalled := r.ep.stalled ++ [f] } } : State).drained f).after))) ∧
    (s.ep.stalled.find? (fun g => g.op != 4 && (s.effect g 0).2 != .stall) = some f → s.sourceOf f = some src →
      exec .queueAccept s = .next (((({ s with ep := { s.ep with stalled := s.ep.stalled.erase f } } : State).execFrame f src).1.drained f).after))

/-- R43 to R48, R54, R57: an answer whose job is admitted and whose tag holds ends the operation of the entry it names: a response gives its bytes to it, an
acknowledgement ends every entry of the numbers it covers, a NACK makes the entry wait for its backoff. An entry whose interval or backoff has passed is sent
again and counted; one that is older than op_timeout fails; an agent's stalled operation goes on. -/
def Obligations.RemoteAnswersAndTimers : Prop :=
  ∀ (s : State) (f : Frame) (e : ReplayEntry) (i : Fin 8) (a : Fin 512) (j : BitVec 16) (d : BitVec 20) (n : Nat),
    let good : Nat → Prop := fun k => f.kind.toNat = k ∧ s.admitted f.job.toNat = true ∧ s.tagGood f = true
    let names : ReplayEntry → Bool := fun x => x.named f && x.seq % 2 ^ 32 == f.seq.toNat
    let code := (Status.ofCode f.spec.toNat).getD .ok
    let st := (Status.ofCode (fld f.ext 15 0)).getD .ok
    let kept := s.keepBlock e (s.opOf e.op) f
    let filled := match s.opOf e.op with
      | some o => kept.installFill e o f
      | none => kept
    let at_ := s.entry? ⟨i, a, j.toNat, d.toNat⟩ n = some e
    let retried : Endpoint := { s.ep with replay := s.ep.replay.map fun x => if x = e then { e with nack := some s.datum, backoff := true } else x }
    let sent : Endpoint := { s.ep with replay := s.ep.replay.map fun x => if x = e then { e with last := s.datum, backoff := false } else x }
    let t : State := { s with ep := sent }
    let again := (t.bump F.RMO_REPLAY_CNT_replays 0 0 1).sendFrame (t.withData e.frame e.put)
    (good 1 → s.ep.replay.find? (fun x => names x && x.wants) = some e → e.get = none →
      exec (.responseFrame f) s = .next (if code = .ok then filled.resolve e .ok f.payload else s.resolve e code []).after) ∧
    (∀ p, good 1 → s.ep.replay.find? (fun x => names x && x.wants) = some e → e.get = some p → code = .ok →
      let w := filled.access p.1 e.key.job ((filled.logicalOf e.key.job filled.sw.devId p.1).getD 0) [(p.2, f.payload.length, true)]
      exec (.responseFrame f) s = .next (w.1.resolve e w.2 f.payload).after) ∧
    (good 2 → exec (.acknowledgement f) s = .next ((s.ep.replay.filter fun x => x.named f &&
      decide ((f.seq.toNat + 2 ^ 32 - x.seq % 2 ^ 32) % 2 ^ 32 ≤ f.spec.toNat) && !(x.wants && st == .ok)).foldl (fun s x => s.resolve x st []) s).after) ∧
    (good 3 → f.spec.toNat ≠ Status.notParent.code → s.ep.replay.find? names = some e →
      exec (.nack f) s = .next ({ s with ep := retried } : State).after) ∧
    (at_ → e.backoff = false → e.last + usTicks (max 1 (s.get F.RMO_CTL_replay_interval)) ≤ s.datum → s.inWindow e.frame = false →
      exec (.replayIntervalExpiry i a j d n) s = .next again) ∧
    (at_ → e.backoff = true → e.nack.getD 0 + usTicks (max 1 (s.get F.RMO_CTL_retry_backoff)) ≤ s.datum →
      exec (.retryBackoffExpiry i a j d n) s = .next again) ∧
    (at_ → e.first + usTicks (max 100 (s.get F.RMO_TIMEOUT_op_timeout)) ≤ s.datum → s.treeEntry e = false →
      exec (.opTimeout i a j d n) s = .next (s.timeOut e).after) ∧
    (let u := (s.ep.ops.filter fun o => o.key.sheet == i.val && o.key.agent == a.val && !o.todo.isEmpty).foldl (fun s o => s.pump o.id) s;
      exec (.stalledIssueResume i a) s = .next ((if a.val < 256 then u.settle.resumeIssue (u.homeCore i a) else u).after))

/-- R7, R28, R66, R67, R69 (Table 2.11): REGION_SET gives each region of its range its mode, owner and job, and asks the readers of the job to drop what they
hold where a region changes owner; a flush of the Remote Line Cache empties it; a one written to the valid bit of a captured fault arms it again; a register
write from the Chartroom writes its register. -/
def Obligations.RegionsAndRegisters : Prop :=
  ∀ (s : State) (h : CmdHdr) (p : List Byte) (i : Fin 8) (w : Word) (x : BitVec 44) (id : RegId),
    let t := s.taken h
    let q := h.params p
    let a := uAt q 0 8
    let n := uAt q 8 4
    let owner := uAt q 12 4
    let mode := uAt q 16 1
    let k := h.sheet.toNat
    let r0 := a / 2 ^ 21
    let v := regionEntry mode owner h.job.toNat
    let moved := (List.range n).any fun y => fld (t.ep.regions.getD (k, r0 + y) 0) 21 2 != owner
    let put : Tbl (Nat × Nat) Word → Nat → Tbl (Nat × Nat) Word := fun l y => if v = 0 then l.del (k, r0 + y) else l.put (k, r0 + y) v
    let t' : State := { t with ep := { t.ep with regions := (List.range n).foldl put t.ep.regions } }
    (s.takes 0x0400 h p → q.length = 24 → h.sheetValid = true → h.jobValid = true → a % 2 ^ 21 = 0 → 1 ≤ n → n ≤ 524288 → owner < 2 ^ 20 → mode ≤ 3 →
      uAt q 17 7 = 0 → a + n * 2 ^ 21 ≤ (t.sheet k).usable →
      (mode < 2 → moved = false → exec (.regionSet h p) s = .next (t'.answer (hdrOwed h 0x0400) .ok)) ∧
      (2 ≤ mode ∨ moved = true →
        let o := hdrOwed h 0x0400
        let u := t'.owe o true
        exec (.regionSet h p) s = .next ((u.tryRegion ⟨k, h.job.toNat, a, n * 2 ^ 21, u.ep.nextId, o⟩).after))) ∧
    (∃ u, exec .rlcCtlFlush s = .next u ∧ u = s.dropLines (fun _ _ _ _ => true) ∧ u.ep.lines = []) ∧
    (w.getLsbD 63 = true →
      exec (.rmoFaultInfo i w) s = .next (s.setReg ⟨.RMO_FAULT_INFO, 0, i⟩ (BitVec.ofNat 64 ((s.reg ⟨.RMO_FAULT_INFO, 0, i⟩).toNat % 2 ^ 63))) ∧
      exec (.rgdViolInfo w) s = .next (s.setReg ⟨.RGD_VIOL_INFO, 0, 0⟩ (BitVec.ofNat 64 ((s.reg ⟨.RGD_VIOL_INFO, 0, 0⟩).toNat % 2 ^ 63)))) ∧
    (∀ b pg o, regPlace x.toNat = some (b, pg, o) → regAt b pg o = some id →
      exec (.registerWrite .chartroom x 8 w) s = .next (s.regWrite id w none false))

/-! Routing. -/

/-- R71 to R77 (Tables 3.1 and 3.2): a table write with good parameters goes to the half that is SPARE or PENDING and is refused with TABLE_BUSY where no half
is; TABLE_COMMIT makes that half PENDING for its target step and refuses one that the steps have passed; a half with no work below it drains, and a draining
half is made a copy of the other. -/
def Obligations.RoutingTables : Prop :=
  ∀ (s : State) (h : CmdHdr) (p : List Byte),
    let t := s.taken h
    let q := h.params p
    let i := h.sheet.toNat
    let r := t.routingOf i
    let w : Nat → (Half → Half) → Res := fun op g => .next (match r.writable with
      | none => t.answer (hdrOwed h op) (.st .tableBusy)
      | some b => (t.setRouting i (r.setHalf b (g (r.half b)))).answer (hdrOwed h op) .ok)
    let n := uAt q 4 4
    let z := (t.sheet i).gazEntries
    let rc := layerRec (q.drop 8)
    let mem := uAt q 0 1 == 1
    let m := uAt q 8 4
    let e := if mem then 4 else 8
    (s.takes 0x0700 h p → h.sheetValid = true → q.length = 136 → pass (layerChecks q) → rc.mode = 255 ∨ rc.segment + 2 ^ rc.sizeLog2 ≤ z →
      exec (.layerSet h p) s = w 0x0700 fun x => { x with layers := x.layers.put (uAt q 0 1) (q.drop 8) }) ∧
    (s.takes 0x0701 h p → h.sheetValid = true → 1 ≤ n → n ≤ 510 → q.length = 16 + 8 * n → uAt q 8 8 = 0 →
      (∀ j < n, bitsOf (uAt q (16 + 8 * j) 8) 62 20 = 0) → uAt q 0 4 + n ≤ z →
      exec (.gazetteerWrite h p) s = w 0x0701 fun x =>
        { x with gaz := (List.range n).foldl (fun l j => l.put (uAt q 0 4 + j) (BitVec.ofNat 64 (uAt q (16 + 8 * j) 8))) x.gaz }) ∧
    (s.takes 0x0702 h p → h.sheetValid = true → uAt q 0 1 ≤ 1 → uAt q 1 3 = 0 → 1 ≤ m → m ≤ (if mem then 1020 else 510) → q.length = 16 + e * m → uAt q 12 4 = 0 →
      (∀ j < m, if mem then uAt q (16 + e * j) 4 < 2 ^ 20
        else uAt q (16 + e * j) 8 < 2 ^ 33 ∧ 1 ≤ bitsOf (uAt q (16 + e * j) 8) 32 24 ∧ bitsOf (uAt q (16 + e * j) 8) 32 24 ≤ 256) →
      n + m ≤ (if mem then 16777216 else 1048576) →
      exec (.csetWrite h p) s = w 0x0702 fun x =>
        if mem then { x with member := (List.range m).foldl (fun l j => l.put (n + j) (uAt q (16 + 4 * j) 4)) x.member }
        else { x with cset := (List.range m).foldl (fun l j => l.put (n + j) (BitVec.ofNat 64 (uAt q (16 + 8 * j) 8))) x.cset }) ∧
    (s.takes 0x0703 h p → h.sheetValid = true → 1 ≤ n → n ≤ 63 → q.length = 16 + 64 * n → uAt q 8 8 = 0 →
      (∀ j < n, uAt q (16 + 64 * j) 1 ≤ 8 ∧ uAt q (16 + 64 * j + 1) 7 = 0 ∧ uAt q (16 + 64 * j + 40) 24 = 0) → uAt q 0 4 + n ≤ 1048576 →
      exec (.expertDirWrite h p) s = w 0x0703 fun x =>
        { x with dir := (List.range n).foldl (fun l j => l.put (uAt q 0 4 + j) (bytesAt q (16 + 64 * j) 64)) x.dir }) ∧
    (s.takes 0x0704 h p → q.length = 8 → uAt q 0 1 = 0 → uAt q 1 1 = 0 → uAt q 2 2 = 0 → h.sheetValid = true →
      let late := match r.seen with
        | some k => decide (n ≤ k)
        | none => false
      exec (.tableCommit h p) s = .next (match r.writable with
        | none => t.answer (hdrOwed h 0x0704) (.st .tableBusy)
        | some b => if late then t.answer (hdrOwed h 0x0704) (.st .stepPassed)
          else (t.setRouting i { r.setHalf b { r.half b with st := .pending, target := n, valid := true, order := r.commits + 1 } with
            commits := r.commits + 1 }).answer (hdrOwed h 0x0704) .ok)) ∧
    (∀ (k : Fin 8) (b : Bool), let y := s.routingOf k
      ((y.half b).st = .draining → (y.half (!b)).st ≠ .draining → s.workBelow k (y.half (!b)).target = false → exec (.drainingComplete k) s =
        .next (s.setRouting k { y.setHalf b { y.half b with st := .syncing, valid := false } with retired := (y.half (!b)).target })) ∧
      ((y.half b).st = .syncing → (y.half (!b)).st ≠ .syncing → exec (.syncingComplete k) s =
        .next (s.setRouting k (y.setHalf b { y.half (!b) with st := .spare, valid := false, target := 0, order := 0 }))))

/-- R73, R86 to R89, R95 (Table 3.4): the Survey unit takes the submission at the head of its queue when it works on none, and judges it in R87's order: one of a
wrong format, of a halted sheet, of a retired step, of a layer not in use or of an epoch that is not open for the step ends with its status. Any other is accepted
(svyAccept) and its tokens are scored (svyScore), unless the step boundary halts the sheet first. When the unit completes, the list is written, the tokens are counted and the
completion word follows. A flush empties its cache, and a one written to the valid bit of SVY_FAULT_INFO clears it. -/
def Obligations.Survey : Prop :=
  ∀ (s : State) (o : Fin 8) (q : QDesc) (w : Word),
    let d := q.desc
    let i := q.sheet
    let r := s.routingOf i
    let step := dAt d 8 4
    let layer := dAt d 1 1
    let epoch := dAt d 2 2 % 2 ^ 12
    let u := s.popEngine o 0
    let ended : Status → Prop := fun st => exec (.surveySubmission o) s = .next (u.svyDone o i layer (dAt d 48 8) (dAt d 56 4) st)
    let good := svyFormatOk d (r.layerAt step layer) = true
    (s.headOf o 0 q → s.surveys.find o.val = none →
      (¬ good → ended .descFormat) ∧
      (good → u.halted i = true → ended .trainingHalted) ∧
      (good → u.halted i = false → r.select step = none → ended .stepRetired) ∧
      (good → u.halted i = false → (r.select step).isSome = true → r.layerAt step layer = none → ended .layerInvalid) ∧
      (good → u.halted i = false → (r.layerAt step layer).isSome = true → u.epochOpen i epoch step = false → ended .epochInvalid) ∧
      (∀ x, good → u.halted i = false → r.layerAt step layer = some x → u.epochOpen i epoch step = true →
        let v := if (match r.seen with
          | some n => decide (n < step)
          | none => true) then u.hchBoundary i step else u
        let y := v.svyAccept o i layer step
        let b := ((y.routingOf i).select step).getD false
        v.halted i = false →
          exec (.surveySubmission o) s = .next (y.svyScore ⟨o, i, q.job, y.ownNum i q.job, layer, x, b, (y.routingOf i).half b⟩ d) ∧
          ∃ run, (y.svyScore ⟨o, i, q.job, y.ownNum i q.job, layer, x, b, (y.routingOf i).half b⟩ d).surveys.find o.val = some run ∧ run.sheet = i ∧
            run.layer = layer ∧ run.step = step ∧ run.done = dAt d 48 8 ∧ run.tag = dAt d 56 4)) ∧
    (∀ x, s.surveys.find o.val = some x →
      let t := ((({ s with surveys := s.surveys.del o.val } : State).write x.sheet x.out x.bytes).bump F.SVY_TOKEN_CNT_tokens o 0 x.tokens).bump
        F.SVY_ASSIGN_CNT_assignments o 0 (if x.status = Status.ok then x.assigns else 0)
      exec (.surveyComplete o) s = .next (t.svyDone o x.sheet x.layer x.done x.tag x.status)) ∧
    exec (.svyCtlFlushGvc o) s = .next (s.setSvy o { s.svyOf o with gvc := [] }) ∧
    exec (.gazCtlFlush o) s = .next (s.setSvy o { s.svyOf o with gaz := [] }) ∧
    (w.getLsbD 63 = true →
      exec (.svyFaultInfo o w) s = .next (s.setReg ⟨.SVY_FAULT_INFO, o, 0⟩ (BitVec.ofNat 64 ((s.reg ⟨.SVY_FAULT_INFO, o, 0⟩).toNat % 2 ^ 63))))

/-! Exchange. -/

/-- R115, R118, R125, R126, R129, R137, R144, R148, R586 (Table 4.4): a Traverse descriptor at the head of its queue is checked in the order of R586: one that
fails ends with its status; EPOCH_OPEN takes the lowest free epoch and writes its number, EXCHANGE adds a batch of a new key with the
counts that have come for it, RECEIVE arms a receive, RETURN
serves the oldest armed receive of its step and layer, EPOCH_CLOSE closes an epoch with no batch open, CANCEL begins a cancellation, REPLAY adds a batch from
the route log. CANCEL_BATCH does what CANCEL does, from a command packet. -/
def Obligations.TraverseDescriptors : Prop :=
  ∀ (s : State) (o : Fin 8) (q : QDesc),
    let d := q.desc
    let i := q.sheet
    let op := dAt d 0 1
    let layer := dAt d 1 1
    let e := dAt d 2 2 % 2 ^ 12
    let step := dAt d 4 4
    let done := dAt d 48 8
    let tag := dAt d 56 4
    let u := s.popEngine o 2
    let o0 := u.physOct i 0
    let run : Nat → Instr → State → Prop := fun k c t => op = k → exec c s = .next t.exchOps
    let nb := u.newBatch o q false
    let rb := u.newBatch o q true
    (s.headOf o 2 q → (∀ st, u.trvCheck o q = some st →
        let t := u.trvDone (if op = 1 ∨ op = 5 ∨ op = 6 then o0 else o) i layer done tag st
        (op = 1 → exec (.epochOpen o) s = .next t) ∧ (op = 2 → exec (.exchangeDesc o) s = .next t) ∧ (op = 3 → exec (.receiveDesc o) s = .next t) ∧
        (op = 4 → exec (.returnDesc o) s = .next t) ∧ (op = 5 → exec (.epochClose o) s = .next t) ∧ (op = 6 → exec (.cancel o) s = .next t) ∧
        (op = 7 → exec (.replayDesc o) s = .next t)) ∧
      (u.trvCheck o q = none →
        (∀ n, (List.range 4096).find? (fun e => (u.epochAt i e).st == .free) = some n → run 1 (.epochOpen o)
          (((u.setEpoch i n { Epoch.free with st := .open_, step := step, job := q.job, since := u.datum }).writeN i (dAt d 8 8) 8 n).trvDone o0 i 0 done tag .ok)) ∧
        ((List.range 4096).find? (fun e => (u.epochAt i e).st == .free) = none → run 1 (.epochOpen o) (u.trvDone o0 i 0 done tag .epochExhausted)) ∧
        (((nb.1.exchOf i).batches.any fun y => y.key == (step, layer, e) && !y.replay) = true →
          run 2 (.exchangeDesc o) (nb.1.trvDone o i layer done tag .rangeOverlap)) ∧
        (((nb.1.exchOf i).batches.any fun y => y.key == (step, layer, e) && !y.replay) = false →
          run 2 (.exchangeDesc o) (((nb.1.exchOf i).counts.filter fun x => x.key == (step, layer, e)).foldl (fun t x => t.takeDelivery i x)
            ((nb.1.updExch i fun y => { y with counts := y.counts.filter fun x => x.key != (step, layer, e) }).addBatch nb.2))) ∧
        (∃ r : Recv, r.sheet = i ∧ r.step = step ∧ r.layer = layer ∧ r.arrival = dAt d 8 8 ∧ r.list = dAt d 16 8 ∧ r.cap = dAt d 24 4 ∧
          r.outBytes = dAt d 28 4 ∧ r.done = done ∧ r.tag = tag ∧ r.begun = false ∧ r.ended = false ∧
          run 3 (.receiveDesc o) (((u.exchId i).1.updExch i fun y => { y with recvs := y.recvs ++ [r] }).offerHeld i step layer)) ∧
        (∀ v l, (u.armed i step layer).head? = some v → u.layerAt i step layer = some l →
          let top := dAt d 8 4 + dAt d 12 4
          run 4 (.returnDesc o) (if v.cap < top ∨ dAt d 24 4 < v.outBytes then u.trvDone o i layer done tag .descFormat
            else if dAt d 12 4 ≠ 0 ∧ (v.lists.getD (dAt d 28 1 % 16) []).length < top then u.trvDone o i layer done tag .addressRange else u.doReturn q v l)) ∧
        ((u.armed i step layer).head? = none → run 4 (.returnDesc o) (u.trvDone o i layer done tag .addressRange)) ∧
        (run 5 (.epochClose o) (if (u.exchOf i).batches.any fun b => b.epoch == e && !b.ended then u.trvDone o0 i 0 done tag .epochBusy
          else (u.adjEpoch i e fun x => { x with st := .closing, since := u.datum, close := some (done, tag) }).settleEpoch i e)) ∧
        (run 6 (.cancel o) (u.cancelBegin i (d.toNat / 2 ^ 16 % 2 ^ 12) (.desc done tag))) ∧
        (∀ hb l, (rb.1.routingOf i).select step = some hb → rb.1.batchRec rb.2 = some l →
          let n := dAt d 12 4 * l.k
          let raw := rb.1.rdFree i (dAt d 32 8 + (dAt d 8 4 % 2 ^ 20) * l.k * 16) (16 * n)
          let asgs := (List.range n).map fun j => replayAsg ((rb.1.routingOf i).half hb) l (rb.1.plist i l) e (bytesAt raw (16 * j) 16)
          run 7 (.replayDesc o) (((rb.1.draw.adjEpoch i e fun y => { y with issued := y.issued + (asgs.filter fun a => a.st != .none).length }).countFold i e o
            (asgs.filter fun a => a.st == .folded).length).addBatch { rb.2 with asgs := asgs })))) ∧
    (∀ h p, s.takes 0x0302 h p → (h.params p).length = 8 → h.sheetValid = true → h.jobValid = true → uAt (h.params p) 0 2 < 4096 → uAt (h.params p) 2 6 = 0 →
      ((s.taken h).epochAt h.sheet.toNat (uAt (h.params p) 0 2)).st = .open_ → exec (.cancelBatch h p) s =
        .next ((((s.taken h).owe (hdrOwed h 0x0302) true).cancelBegin h.sheet.toNat (uAt (h.params p) 0 2) (.packet (hdrOwed h 0x0302))).exchOps))

/-- R96, R99, R108, R132, R139, R145, R151 (Tables 3.7 and 4.7): an engine record that its endpoint takes in has the effect of its kind and is acknowledged;
one that it does not take in has none of it. -/
def Obligations.EngineRecords : Prop :=
  ∀ (s : State) (f : Frame), f.kind = 4 →
    let r := (s.takeIn f).1
    let i := f.dstSheet.toNat
    let h := recHdr f.payload
    let did : (Nat → State) → Res := fun g => .next (match (s.takeIn f).2 with
      | some src => (g src).acknowledges f .ok
      | none => (r.drained f).after)
    (h.kind = 1 → exec (.censusRecord f) s = did fun _ => r.censusFrame f) ∧
    (h.kind = 2 → exec (.grantRecord f) s = did fun _ => r.grantRecord i h f) ∧
    (h.kind = 3 → exec (.landingRecord f) s = did fun _ => r.landingRecord i h f) ∧
    (h.kind = 4 → exec (.cancelRecord f) s = did fun src => (r.relayCancel i f.job.toNat src h f.payload).cancelRecord i h) ∧
    (h.kind = 5 → exec (.skipRecord f) s = did fun _ => r.skipRecord f h) ∧
    (h.kind = 6 → exec (.relayManifest f) s = did fun _ => r.manifestFrame f)

/-- R119 to R123, R126, R130, R585 (Table 4.3): an idle Plotting engine takes the descriptor at the head of its queue: one that fails a check ends with its
status, and any other starts a run. When the run completes, its run area and key table are written, or left undefined where it failed, and its counts or its
failure go to the coordinating octant, where the oldest delivery is taken. A batch with all its key counts and an armed receive starts; one without them ends
after the wave timeout. A one written to the valid bit of a fault capture clears it. -/
def Obligations.PlottingAndWaves : Prop :=
  ∀ (s : State) (o i : Fin 8) (id : Nat) (w : Word),
    (∀ q, s.headOf o 1 q → s.plotRuns.find o.val = none → pltFormatOk q.desc ((s.routingOf q.sheet).layerAt (dAt q.desc 4 4) (dAt q.desc 1 1)) = false →
      exec (.plottingDescriptor o) s = .next ((s.popEngine o 1).pltDone o q.sheet (dAt q.desc 1 1) (dAt q.desc 48 8) (dAt q.desc 56 4) .descFormat)) ∧
    (∀ q l, let d := q.desc
      s.headOf o 1 q → s.plotRuns.find o.val = none → (s.routingOf q.sheet).layerAt (dAt d 4 4) (dAt d 1 1) = some l → pltFormatOk d (some l) = true →
      let u := s.popEngine o 1
      let ended : Status → Prop := fun st => exec (.plottingDescriptor o) s = .next (u.pltDone o q.sheet (dAt d 1 1) (dAt d 48 8) (dAt d 56 4) st)
      (u.epochOpen q.sheet (dAt d 2 2 % 2 ^ 12) (dAt d 4 4) = false → ended .epochInvalid) ∧
      (∀ b, u.epochOpen q.sheet (dAt d 2 2 % 2 ^ 12) (dAt d 4 4) = true → (s.routingOf q.sheet).select (dAt d 4 4) = some b →
        let t := u.plotStart o q l ((s.routingOf q.sheet).half b)
        exec (.plottingDescriptor o) s = .next t ∧ ∃ run, t.plotRuns.find o.val = some run ∧ run.sheet = q.sheet ∧
        run.key = (dAt d 4 4, dAt d 1 1, dAt d 2 2 % 2 ^ 12) ∧ run.count = dAt d 8 4 ∧ run.done = dAt d 48 8 ∧ run.tag = dAt d 56 4)) ∧
    (∀ q, let d := q.desc
      s.headOf o 1 q → s.plotRuns.find o.val = none → pltFormatOk d none = true → (s.routingOf q.sheet).layerAt (dAt d 4 4) (dAt d 1 1) = none →
      exec (.plottingDescriptor o) s = .next ((s.popEngine o 1).pltDone o q.sheet (dAt d 1 1) (dAt d 48 8) (dAt d 56 4)
        (if ((s.routingOf q.sheet).select (dAt d 4 4)).isSome then .layerInvalid else .stepRetired))) ∧
    (∀ p, s.plotRuns.find o.val = some p → p.status = .ok →
      let u := (({ s with plotRuns := s.plotRuns.del o } : State).write p.sheet p.runAddr p.run).write p.sheet (p.runAddr + 16 * p.count) p.keys
      let c := u.coordOct p.sheet p.layer
      let t := ((u.set F.PLT_STATUS_keys_last o 0 p.nkeys).bump F.PLT_ASSIGN_CNT_assignments o 0 (p.valid - p.nodest)).bump F.PLT_NODEST_CNT_folds o 0 p.nodest
      exec (.plottingComplete o) s = .next (({ t with deliveries := t.deliveries.put c (t.deliveries.getD c [] ++ [⟨p.key, .counts p.plot⟩]) } : State).pltDone
        o p.sheet p.layer p.done p.tag .ok)) ∧
    (∀ p, s.plotRuns.find o.val = some p → p.status ≠ .ok →
      let v : State := { s with plotRuns := s.plotRuns.del o }
      let u := v.undefine p.sheet p.job (v.ownNum p.sheet p.job) p.runAddr (16 * p.count + 16 * (min p.count 65536 + 1))
      let c := u.coordOct p.sheet p.layer
      let t := u.countFold p.sheet p.key.2.2 c p.valid
      exec (.plottingComplete o) s = .next (({ t with deliveries := t.deliveries.put c (t.deliveries.getD c [] ++ [⟨p.key, .failed p.status⟩]) } : State).pltDone
        o p.sheet p.layer p.done p.tag p.status)) ∧
    (∀ d l k, s.deliveries.getD o.val [] = d :: l → s.octSheet o = some k →
      let t := (({ s with deliveries := s.deliveries.put o.val l } : State).takeDelivery k d).exchOps
      (∀ p, d.what = .counts p → exec (.keyCounts o) s = .next t) ∧ (∀ st, d.what = .failed st → exec (.failureNotice o) s = .next t)) ∧
    (∀ b, s.batch? i id = some b → b.started = false → b.ended = false →
      (∀ v l, (s.armed i b.step b.layer).head? = some v → s.batchRec b = some l → b.cancel = false → b.plots.length = b.plotN →
        exec (.wave0Start i id) s = .next (s.startBatch b v l).exchOps) ∧
      (b.since + s.waveTimeout b.oct ≤ s.datum → s.armed i b.step b.layer ≠ [] → b.plots.length ≠ b.plotN →
        exec (.exchangeTimeout i id) s = .next (s.abandon b .timeout)) ∧
      (b.since + s.waveTimeout b.oct ≤ s.datum → s.armed i b.step b.layer = [] → exec (.exchangeTimeout i id) s =
        .next ((s.event { code := .receiveMissing, job := some b.job, sheet := some i.val, unit := b.oct }).abandon b .timeout))) ∧
    (w.getLsbD 63 = true →
      exec (.trvFaultInfo o w) s = .next (s.setReg ⟨.TRV_FAULT_INFO, o, 0⟩ (BitVec.ofNat 64 ((s.reg ⟨.TRV_FAULT_INFO, o, 0⟩).toNat % 2 ^ 63))) ∧
      exec (.pltFaultInfo o w) s = .next (s.setReg ⟨.PLT_FAULT_INFO, o, 0⟩ (BitVec.ofNat 64 ((s.reg ⟨.PLT_FAULT_INFO, o, 0⟩).toNat % 2 ^ 63))))

/-- R102, R104, R108, R116, R130, R135, R142, R149, R151, R350: what the engines of the exchange do when a round is complete or an interval has passed: a
round is computed, with an error for each source that a census timeout leaves out; a grant that does not come refuses its records; a waiting reservation
fails; held censuses of a missing receive are answered; a part reserves its extent, and is lost when it does not return; an epoch that does not balance
becomes free with a misclosure, and the extents of its parts are quarantined; a relay forwards. -/
def Obligations.ExchangeTimers : Prop :=
  ∀ (s : State) (i : Fin 8) (id : Nat),
    let err : Nat → Nat → State → Nat → State := fun job unit s p =>
      s.jobError job { code := .timeout, sheet := some i.val, status := some .timeout, unit := unit, params := [p] }
    (∀ r l w k, s.strictRound i id = some (r, l, w, k) →
      (s.roundReady r l w k = true → exec (.grantCompute i id) s = .next (s.computeRound r l w k).exchOps) ∧
      (∀ t, s.roundReady r l w k = false → minOf ((r.censuses.filter fun c => c.wave == w && c.round == k).map CensusRec.first) = some t →
        t + s.censusTimeout r.oct ≤ s.datum →
        exec (.censusTimeout i id) s = .next ((((s.plist i l).filter fun p => !((r.present w k).map (·.src)).contains p && !r.gone.contains p).foldl
          (err r.job r.oct) s).computeRound r l w k).exchOps)) ∧
    (∀ b w l dest, s.batch? i id = some b → b.awaiting.find? (fun w => w.dest == dest) = some w → s.batchRec b = some l → w.since + s.waveTimeout b.oct ≤ s.datum →
      b.ended = false → b.cancel = false →
      let r := (err b.job b.oct s dest).refused { b with awaiting := b.awaiting.filter fun x => x.dest != dest } l (w.asked.flatMap (·.2))
      exec (.grantTimeout i id dest) s = .next (r.1.afterAnswer r.2).exchOps) ∧
    (∀ (p : Fin 64) r cid b x, (s.pool p).waitReq.find? (fun r => r.id == id) = some r → r.src = .combine cid → s.part? (s.pool p).sheet cid = some (b, x) →
      x.since + s.waveTimeout (b.partOct x) ≤ s.datum →
      exec (.reservationTimeout p id) s = .next ((s.dropWaiting p fun y => y.id == id).exhausted (s.pool p).sheet b.job (b.partOct x))) ∧
    (∀ (p : Fin 64) r a x, (s.pool p).waitReq.find? (fun r => r.id == id) = some r → r.src = .relay a →
      (s.exchOf (s.pool p).sheet).relayAns.find? (fun y => y.id == a) = some x → x.since + s.waveTimeout x.oct ≤ s.datum →
      exec (.reservationTimeout p id) s = .next ((s.dropWaiting p fun y => y.src == .relay a).exhausted (s.pool p).sheet x.job x.oct)) ∧
    (∀ (p : Fin 64) q a r x, (s.pool p).waitReq.find? (fun r => r.id == id) = some q → q.src = .landing a →
      (s.exchOf (s.pool p).sheet).recvs.findSome? (fun r : Recv => (r.placing.find? fun x => x.id == a).map fun x => (r, x)) = some (r, x) →
      x.since + s.waveTimeout r.oct ≤ s.datum →
      let t := (x.grants.filterMap fun g => g.2.2.2.2).foldl (fun t e => t.engineFree p e) (s.dropWaiting p fun y => y.src == .landing a)
      exec (.reservationTimeout p id) s = .next ((t.putRecv { r with placing := r.placing.filter fun y => y.id != a }).exhausted (s.pool p).sheet r.job r.oct)) ∧
    (∀ step layer t, let mine := (s.exchOf i).held.filter fun c => c.step == step && c.layer == layer && !c.zero
      minOf (mine.map CensusRec.first) = some t → t + s.waveTimeout (s.coordOct i layer) ≤ s.datum → s.armed i step layer = [] →
      exec (.receiveMissing i step layer) s = .next (((mine.filter CensusRec.complete).foldl (fun s c => s.answerZero c true)
        (s.updExch i fun x => { x with
          held := (x.held.filter fun c => !(c.step == step && c.layer == layer && !c.zero && c.complete)).map fun c =>
            if c.step = step ∧ c.layer = layer then { c with zero := true } else c })).event
        { code := .receiveMissing, job := (mine.head?).map CensusRec.job, sheet := some i.val, unit := s.coordOct i layer, report := true }).exchOps) ∧
    (∀ b p, s.part? i id = some (b, p) →
      (p.st = .waiting → b.cancel = false → exec (.partSend i id) s = .next (s.reservePart b p).exchOps) ∧
      (p.st = .acked → p.since + s.waveTimeout b.oct ≤ s.datum → exec (.returnTimeout i id) s = .next (s.partLost b p).exchOps)) ∧
    (∀ e : Fin 4096, let x := s.epochAt i e
      (x.st = .closing ∨ x.st = .cancelled) → x.since + 2 * s.waveTimeout (s.physOct i 0) ≤ s.datum →
      let t := s.misclosure 2 (e.val + 2 ^ 12 * i.val) [x.granted, x.returned, x.stale] (some x.job) (some i.val)
      exec (.reuseIntervalExpiry i e) s = .next ((t.quarantineEpoch i e).freeEpoch i e .misclosure)) ∧
    (∀ r, (s.exchOf i).relays.find? (fun r => r.id == id) = some r → r.asked = false → r.sent = false →
      (s.relayLacks r = [] → exec (.relayForward i id) s = .next (s.relayGo r).exchOps) ∧
      (s.relayLacks r ≠ [] → r.since + s.waveTimeout r.oct ≤ s.datum → exec (.relayTimeout i id) s =
        .next ((((dedup (s.relayLacks r)).foldl (err r.job r.oct) s).setRelay { r with force := true }).relayGo { r with force := true }).exchOps))

/-! Pools and movers. -/

/-- R155, R156, R161, R170, R172 (Tables 5.1, 5.6, 5.7 and 17.8): the pool commands with good parameters. POOL_CREATE of an OFF pool that fits puts it in
STARTING and replies when STARTING ends, with every cell free; POOL_DESTROY of a pool that is ON begins STOPPING with step 1 of Table 5.7, and steps 3
to 5 follow once its frames are drained or 50 ms have passed. A read of BPM_POOL_COUNT0 captures the counts, a good write of BPM_POOL_THRESH sets the thresholds,
and a one written to the valid bit of BPM_BADPTR_INFO clears it. -/
def Obligations.PoolLifecycle : Prop :=
  ∀ (s : State) (h : CmdHdr) (p : List Byte) (i : Fin 64) (w : Word) (k : Fin 8),
    let t := s.taken h
    let q := h.params p
    let n := uAt q 0 1
    let x := t.pool n
    let named := h.sheetValid = true ∧ n ≤ 63 ∧ (x.life.st = .off ∨ x.sheet = h.sheet.toNat)
    let z := s.pool i
    (s.takes 0x0401 h p → h.sheetValid = true → n ≤ 63 → q.length = 48 → uAt q 1 1 = h.sheet.toNat → uAt q 2 1 < 8 → pass (layoutChecks q) →
      (∀ y, x.life.st = .off → t.poolPlace n (poolOf h q) = .ok y → exec (.poolCreate h p) s =
        .next ((t.draw.setPool n { y with life := { Life.off with st := .starting, enable := some (hdrOwed h 0x0401), since := t.datum } }).answer
          (hdrOwed h 0x0401) (.later true))) ∧
      (∀ st, x.life.st = .off → t.poolPlace n (poolOf h q) = .error st → exec (.poolCreate h p) s = .next (t.answer (hdrOwed h 0x0401) (.st st))) ∧
      (x.life.st = .on ∨ x.life.st = .starting →
        exec (.poolCreate h p) s = .next ((t.setPool n x).answer (hdrOwed h 0x0401) (.st .poolBusy)))) ∧
    (∀ y, s.takes 0x0402 h p → named → x.life.st = .on → q.length = 48 → uAt q 1 1 < 8 → uAt q 2 1 < 8 → pass (layoutChecks q) → uAt q 1 1 = x.sheet → uAt q 2 1 = x.home →
      (poolOf h q).xd = x.xd → x.occupied + x.inFlight = 0 → t.poolPlace n (poolOf h q) = .ok y → exec (.poolSetMode h p) s =
        .next ((t.draw.putPool n { y with life := x.life, job := x.job, level := x.level, log := x.log, waitCtl := x.waitCtl, waitReq := x.waitReq, captured := x.captured }).answer
          (hdrOwed h 0x0402) .ok)) ∧
    (s.takes 0x0403 h p → named → x.life.st = .on → q.length = 8 → pass (pctChecks q 1) → uAt q 5 3 = 0 → pctsOrdered (pcts q 1) = true →
      exec (.poolSetThresh h p) s = .next ((t.setThresh n (pcts q 1)).answer (hdrOwed h 0x0403) .ok)) ∧
    (s.takes 0x0404 h p → named → x.life.st = .on → q.length = 8 → uAt q 1 7 = 0 → exec (.poolUnquarantine h p) s =
      .next ((t.putPool n { x with tab := x.tab.filter fun e => !e.2.quar }).answer (hdrOwed h 0x0404) .ok)) ∧
    (s.takes 0x0405 h p → named → q.length = 8 → uAt q 1 7 = 0 →
      (x.life.st = .off → exec (.poolDestroy h p) s = .next ((t.setPool n x).answer (hdrOwed h 0x0405) (.st .poolAbsent))) ∧
      (x.life.st = .on → exec (.poolDestroy h p) s =
        .next (((t.setPool n { x with life := { x.life with st := .stopping, step := 0, disables := [hdrOwed h 0x0405], since := t.datum } }).poolStop1 n).answer
          (hdrOwed h 0x0405) (.later true)))) ∧
    (z.life.st = .starting → exec (.poolStartingComplete i) s =
      .next ((s.setPool i { z with life := { z.life with st := .on, step := 0, enable := none, since := s.datum }, tab := [], bufs := [], cursor := 0, level := .normal }).finals
        (z.life.enable.toList.map fun o => (o, Status.ok)))) ∧
    (z.life.st = .stopping →
      (s.framesInto z = false → exec (.poolStoppingDrained i) s = .next (s.poolFinish i)) ∧
      (z.life.since + msTicks 50 ≤ s.datum → exec (.poolTeardownTimeout i) s = .next (s.poolFinish i))) ∧
    (∃ u, exec (.bpmPoolCount0 i) s = .next u ∧ u = s.poolCapture i) ∧
    (z.life.st = .on → pass (pctChecks (leBytes 8 (fld w 31 0)) 0) → pctsOrdered (pcts (leBytes 8 (fld w 31 0)) 0) = true →
      exec (.bpmPoolThresh i w) s = .next (s.setThresh i (pcts (leBytes 8 (fld w 31 0)) 0))) ∧
    (w.getLsbD 63 = true →
      exec (.bpmBadptrInfo k w) s = .next (s.setReg ⟨.BPM_BADPTR_INFO, k, 0⟩ (BitVec.ofNat 64 ((s.reg ⟨.BPM_BADPTR_INFO, k, 0⟩).toNat % 2 ^ 63))))

/-- R162 to R166 (Tables 5.3 and 5.4): a pool request at the head of its queue is checked, in the order of R162, and answered with its first failure; a bad
pointer answers BAD_POINTER; an allocation whose cells are there is answered with them, and otherwise waits, or answers POOL_EMPTY where it may not wait;
ACQUIRE, RELEASE and FREE_SIZED are answered at once. The request at the head of a pool's waiting list is served when its cells are there, and ends with
POOL_EMPTY after op_timeout. -/
def Obligations.PoolRequests : Prop :=
  ∀ (s : State) (k : Fin 8) (q : QDesc) (i : Fin 64) (ctl : Bool),
    let d := q.desc
    let op := dAt d 0 1
    let p := dAt d 1 1
    let o := s.popQueue k 3
    let u : State := { o with nextReq := o.nextReq + 1 }
    let r : PoolReq := ⟨o.nextReq, .agent q, op, bitOf (dAt d 2 1) 0, bitOf (dAt d 2 1) 1, dAt d 4 4, dAt d 8 8, dAt d 16 8, dAt d 48 8, dAt d 56 4, none⟩
    let bad := (u.pool p).badPtr op r.ptr
    let all : State → Prop := fun t =>
      (op = 1 → exec (.allocChain k) s = .next t) ∧ (op = 2 → exec (.allocExtent k) s = .next t) ∧ (op = 3 → exec (.append k) s = .next t) ∧
      (op = 4 → exec (.acquire k) s = .next t) ∧ (op = 5 → exec (.release k) s = .next t) ∧ (op = 6 → exec (.allocSized k) s = .next t) ∧
      (op = 7 → exec (.freeSized k) s = .next t)
    (s.headOf k 3 q →
      (∀ st, u.poolReqCheck q = some st → all (u.reqAnswer p r st [])) ∧
      (u.poolReqCheck q = none →
        (op = 3 ∨ op = 4 ∨ op = 5 ∨ op = 7 → bad = true → all ((u.badPointer p op r.ptr q.agent).reqAnswer p r .badPointer [])) ∧
        (op = 1 ∨ op = 2 ∨ op = 6 ∨ (op = 3 ∧ bad = false) →
          (∀ v cells, (u.pool p).waiting r.control = [] → u.poolTry p r = some (v, cells) → all (v.reqAnswer p r .ok cells)) ∧
          ((u.pool p).waiting r.control ≠ [] ∨ u.poolTry p r = none → all (if r.noWait then u.reqAnswer p r .poolEmpty [] else u.poolWait p r))) ∧
        ((op = 4 ∨ op = 5 ∨ op = 7) → bad = false → all ((u.poolNoCells p op r.ptr).1.reqAnswer p r (u.poolNoCells p op r.ptr).2 [])))) ∧
    (∀ y l, (s.pool i).waiting ctl = y :: l →
      (∀ v cells, y.op ≠ 3 ∨ (s.pool i).badPtr 3 y.ptr = false → s.poolTry i y = some (v, cells) →
        exec (.poolRequestServed i ctl) s = .next ((v.poolShift i ctl).reqAnswer i y .ok cells)) ∧
      (∀ a b, y.src = .agent a → y.head = some b → b + usTicks (max 100 (s.get F.RMO_TIMEOUT_op_timeout)) ≤ s.datum → ∃ y', y'.src = y.src ∧ y'.doneAddr = y.doneAddr ∧
        y'.tag = y.tag ∧ exec (.poolRequestTimeout i ctl) s = .next ((s.poolShift i ctl).reqAnswer i y' .poolEmpty [])))

/-- R189 to R195 (Tables 6.6 and 6.7): what the operation of a mover does once its descriptor, its places and its windows are good, and the status that it
ends with then and with a bad descriptor or a bad address. What an element past its row's end reads as is a free value (log 25). -/
def Obligations.MoverOperations : Prop :=
  ∀ (s : State) (c : Fin 256) (j : Fin 4) (d : BitVec 512) (hold : Nat), s.movers.find (c.val, j.val) = some ⟨d, hold, none⟩ →
    let m := moverDesc d
    let k := (s.core c).kern
    let i := k.sheet
    let rows := List.range m.rows
    let w := 2 ^ m.elem
    let is : Nat → Instr → State → Status → Prop := fun op x u st => m.op = op → exec x s = .next { u with movers := u.movers.put (c.val, j.val) ⟨d, hold, some st⟩ }
    let ok : List (Nat × Nat × Bool) → State → Prop := fun l u => moverFormatOk d = true ∧ s.moverAddrs c m = true ∧ s.accessCheck c l = (u, .ok)
    let reads := rows.map fun r => (m.src + r * m.sst, m.rowBytes, false)
    let writes : Nat → List (Nat × Nat × Bool) := fun n => rows.map fun r => (m.dst + r * m.dstr, n, true)
    (moverFormatOk d = false →
      is 1 (.copyDesc c j) s .descFormat ∧ is 2 (.gatherRows c j) s .descFormat ∧ is 3 (.gatherCols c j) s .descFormat ∧ is 4 (.compress c j) s .descFormat ∧
      is 5 (.decompress c j) s .descFormat ∧ is 6 (.selectDesc c j) s .descFormat ∧ is 7 (.predCheck c j) s .descFormat) ∧
    (moverFormatOk d = true → s.moverAddrs c m = false →
      is 1 (.copyDesc c j) s .addressRange ∧ is 2 (.gatherRows c j) s .addressRange ∧ is 3 (.gatherCols c j) s .addressRange ∧
      is 4 (.compress c j) s .addressRange ∧ is 5 (.decompress c j) s .addressRange ∧
      (predMode k.predCfg ≠ 0 → is 6 (.selectDesc c j) s .addressRange ∧ is 7 (.predCheck c j) s .addressRange)) ∧
    (∀ u, ok (reads ++ writes m.rowBytes) u →
      is 1 (.copyDesc c j) (u.moveRows c (rows.map fun r => (m.src + r * m.sst, m.dst + r * m.dstr, m.rowBytes))) .ok) ∧
    (∀ u, let g := (s.indexList c m.aux m.rows).zipIdx.map fun e => (m.src + e.1 * m.sst, m.dst + e.2 * m.dstr, m.rowBytes)
      ok ((m.aux, 2 * m.rows, false) :: g.map (fun r => (r.1, r.2.2, false)) ++ g.map fun r => (r.2.1, r.2.2, true)) u →
      is 2 (.gatherRows c j) (u.moveRows c g) .ok) ∧
    (∀ u, let idx := s.indexList c m.aux m.param
      ok ((m.aux, 2 * m.param, false) :: reads ++ writes (m.param * w)) u →
      is 3 (.gatherCols c j) (rows.foldl (fun t r =>
        let row := t.rd i (m.src + r * m.sst) m.rowBytes
        t.moverPut c (m.dst + r * m.dstr) (idx.map fun e =>
          if e * w < m.rowBytes then bytesAt row (e * w) w else leBytes w (Config.openWord ([3, w, e] ++ row.map (·.toNat))).toNat).flatten) u) .ok) ∧
    (∀ u, let tiles := rows.map fun r => compressTile m.elem (s.rd i (m.src + r * m.sst) m.rowBytes)
      let out := (tiles.map (·.1)).flatten
      ok (reads ++ [(m.dst, out.length, true), (m.aux, 8, true)]) u →
      is 4 (.compress c j) (((((u.moverPut c m.dst out).moverPut c m.aux (leBytes 8 out.length)).bump F.MOV_COMP_IN_CNT_bytes c 0 (m.rows * m.rowBytes)).bump
        F.MOV_COMP_OUT_CNT_bytes c 0 out.length).bump F.MOV_DENSE_CNT_tiles c 0 ((tiles.filter (·.2)).length)) .ok) ∧
    (∀ u, let r := s.expandRows i m.rowBytes m.rows m.src
      ok ((m.src, r.2.2 - m.src, false) :: (List.range r.1.length).map fun k => (m.dst + k * m.dstr, m.rowBytes, true)) u →
      is 5 (.decompress c j) (r.1.zipIdx.foldl (fun s e => s.moverPut c (m.dst + e.2 * m.dstr) e.1) u) (if r.2.1 then .ok else .tileFormat)) ∧
    (moverFormatOk d = true → predMode k.predCfg = 0 → is 6 (.selectDesc c j) s .predOff ∧ is 7 (.predCheck c j) s .predOff) ∧
    (∀ u, predMode k.predCfg ≠ 0 →
      let samp := fun r => rowSampled k.predCfg (s.rdN i (m.aux + r * m.dstr) 8)
      let active := (List.range (m.rowBytes / 4)).filter fun h =>
        (rows.filter fun r => !samp r).any fun r => (fCmp fp32 2 m.param (s.rdN i (m.src + r * m.sst + 4 * h) 4)).1
      let out := selectOut active (rows.filter samp)
      ok (reads ++ rows.map (fun r => (m.aux + r * m.dstr, 8, false)) ++ [(m.dst, out.length, true)]) u →
      is 6 (.selectDesc c j) ((u.moverPut c m.dst out).bump F.CORE_PRED_SAMPLE_CNT_samples c 0 (rows.filter samp).length) .ok) ∧
    (∀ u, predMode k.predCfg ≠ 0 →
      let na := s.rdN i m.aux 4
      let ns := s.rdN i (m.aux + 4) 4
      let active := (List.range na).map fun n => s.rdN i (m.aux + 8 + 2 * n) 2
      ok ([(m.aux, 8 + 2 * na, false)] ++ (List.range ns).map fun r => (m.src + r * m.sst, m.rowBytes, false)) u →
      is 7 (.predCheck c j) (u.bump F.CORE_PRED_MISS_CNT_misses c 0 (sumOf (List.range ns) fun r => ((List.range (m.rowBytes / w)).filter fun h =>
        s.rdN i (m.src + r * m.sst + w * h) w % 2 ^ (8 * w - 1) != 0 && !active.contains h).length)) .ok)

/-- R189, R201 (Table 6.6): a mover that has ended gives its status in its completion word, captures a failure, and wakes what waits for it; a one in the
valid bit arms a capture of a core or a mover again; the two guests of a hosting core's slot change places. -/
def Obligations.MoverCompletion : Prop :=
  ∀ (s : State) (c : Fin 256) (j : Fin 4) (w : Word),
    (∀ d hold st, s.movers.find (c.val, j.val) = some ⟨d, hold, some st⟩ → 1 ≤ dAt d 0 1 → dAt d 0 1 ≤ 7 →
      let tag := dAt d 56 4
      let u : State := { s with movers := s.movers.del (c.val, j.val) }
      let v := if st = .ok then u else u.capture ⟨.MOV_FAULT_INFO, c, 0⟩ (j * 2 ^ 48 + tag * 2 ^ 16 + st.code) []
      exec (.moverComplete c j) s = .next (((v.complete (v.core c).kern.sheet (dAt d 48 8) tag st).moverWake c).drainAll)) ∧
    (w.getLsbD 63 = true →
      exec (.movFaultInfo c w) s = .next (s.setReg ⟨.MOV_FAULT_INFO, c, 0⟩ (BitVec.ofNat 64 ((s.reg ⟨.MOV_FAULT_INFO, c, 0⟩).toNat % 2 ^ 63))) ∧
      exec (.coreFaultInfo c w) s = .next (s.setReg ⟨.CORE_FAULT_INFO, c, 0⟩ (BitVec.ofNat 64 ((s.reg ⟨.CORE_FAULT_INFO, c, 0⟩).toNat % 2 ^ 63)))) ∧
    (s.boot.fused.contains (c.val / 8 * 8 + (c.val % 8 + 7) % 8) = true → exec (.guestContextSwitch c) s =
      .next { s with guestOn := if s.guestOn.contains c.val then s.guestOn.filter (· ≠ c.val) else c.val :: s.guestOn })

/-! Training and hubs. -/

/-- R265 to R270, R274, R275, R277, R283 to R285 (Tables 9.4 and 9.5): the operation at the head of a quantizer's list. One of a wrong format ends with
DESC_FORMAT, and one with an address outside its sheet with ADDRESS_RANGE; with its places good, QUANTIZE writes the codes and scales of its rows and counts their losses, UPDATE writes the new weights and residues
element by element, and PRUNE ends with OK, or with SPARSE_META where it keeps metadata that is not legal. -/
def Obligations.QuantizerOperations : Prop :=
  ∀ (s : State) (c : Fin 256) (d : BitVec 512) (home : Nat) (k : CoreKernel) (l : List QuantOp), s.quant.getD c.val [] = ⟨d, home, k, none⟩ :: l →
    let q := qntDesc d
    let i := k.sheet
    let r := s.recipe i (if q.op = 1 then q.sel else 0)
    let is : Nat → Instr → State → Status → Prop := fun op x u st => q.op = op → exec x s = .next { u with quant := u.quant.put c.val (⟨d, home, k, some st⟩ :: l) }
    let ok : List (Nat × Nat × Bool) → State → Prop := fun a u => qntFormatOk d r = true ∧ s.qntAddrs i d = true ∧ s.access i k.job k.logical a = (u, .ok)
    (qntFormatOk d r = false → is 1 (.quantize c) s .descFormat ∧ is 2 (.updateDesc c) s .descFormat ∧ is 3 (.prune c) s .descFormat) ∧
    (qntFormatOk d r = true → s.qntAddrs i d = false →
      is 1 (.quantize c) s .addressRange ∧ is 2 (.updateDesc c) s .addressRange ∧ is 3 (.prune c) s .addressRange) ∧
    (∀ u, let bs := quantBlocks r (s.qntRows i q)
      let codes := runsOf q.elems (bs.flatMap fun b => b.2.1)
      let sc := quantScales r bs
      let n := packedRow r.fmt q.elems
      ok ((List.range q.rows).flatMap (fun j => [(q.src + j * q.sst, (if q.bf then 2 else 4) * q.elems, false), (q.dst + j * q.dstr, n, true)]) ++
        [(q.aux, sc.length, true)]) u →
      let row := fun e : List Nat × Nat => packBits (elemBits r.fmt) e.1 ++
        (List.range (n - (packBits (elemBits r.fmt) e.1).length)).map fun j => (Config.openWord (4 :: j :: e.1)).truncate 8
      is 1 (.quantize c) (((codes.zipIdx.foldl (fun t e => t.write i (q.dst + e.2 * q.dstr) (row e)) u).write i q.aux sc).countLoss i q.sel
        (bs.flatMap fun b => b.2.2.1) (bs.filter fun b => b.2.2.2).length) .ok) ∧
    (∀ u, let rows := (List.range q.rows).map fun r => (List.range q.elems).map fun j =>
        (s.rdN i (q.dst + r * q.dstr + 2 * j) 2, s.rdN i (q.aux + r * (q.dstr / 2) + j) 1, s.rdN i (q.src + r * q.sst + 4 * j) 4)
      let outs := rows.map fun r => r.map fun e => updateElem e.1 e.2.1 e.2.2
      ok ((List.range q.rows).flatMap fun j => [(q.src + j * q.sst, 4 * q.elems, false), (q.dst + j * q.dstr, 2 * q.elems, false),
        (q.dst + j * q.dstr, 2 * q.elems, true), (q.aux + j * (q.dstr / 2), q.elems, false), (q.aux + j * (q.dstr / 2), q.elems, true)]) u →
      let t := (outs.zipIdx.foldl (fun s e => (s.write i (q.dst + e.2 * q.dstr) (e.1.flatMap fun o => leBytes 2 o.1)).write i (q.aux + e.2 * (q.dstr / 2))
        (e.1.map fun o => BitVec.ofNat 8 o.2.1)) u).bump F.HCH_Q_OVERFLOW_overflows 0 (8 * i) (sumOf outs fun r => (r.filter fun o => o.2.2).length)
      is 2 (.updateDesc c) (if q.report then t.hchReport i q.sel q.step (reportOf (rows.flatten.map fun e => (e.1, e.2.2))) else t) .ok) ∧
    (∀ u, let m := (matCode r.fmt).getD 0
      let dk := denseK m q.sp
      let tiles := (List.range (q.elems / 128)).flatMap fun nt => (List.range (q.rows / dk)).map fun kt => (kt, nt)
      let fresh := q.regen || (q.period != 0 && q.step % max 1 q.period == 0)
      let n := tiles.length * metaTile m
      let kept := fun x : Nat × Nat =>
        ({ fmt := m, sp := q.sp, kext := 0, data := [], metaB := s.rd i (q.aux + (x.2 * (q.rows / dk) + x.1) * metaTile m) (metaTile m), scale := [], viol := none, pc := 0 } : WTile)
      ok ((List.range q.rows).map (fun r => (q.src + r * q.sst, 2 * q.elems, false)) ++
        (if fresh then [(q.aux, n + 4, true)] else [(q.aux, n, false), (q.aux + n, 4, true)]) ++ [(q.dst, tiles.length * (128 * rowBytes m), true)]) u →
      (fresh = true ∨ (∀ x ∈ tiles, tileViol (kept x) = none) → ∃ t, is 3 (.prune c) t .ok) ∧
      (fresh = false → (∃ x ∈ tiles, tileViol (kept x) ≠ none) → is 3 (.prune c) u .sparseMeta))

/-- R264, R270, R278 to R281 (Tables 9.1 and 9.3): recipes are set for the kinds of the mask; a write of a recipe that is not legal is refused; a submission
with good fields joins a quantizer's list while it holds fewer than 8, and is kept otherwise; a completed operation gives its completion word, and the oldest
kept submission follows; an evaluation covers every sheet; a one written to a halt bit clears it, and one written to the valid bit of MOV_QNT_STATUS that bit. -/
def Obligations.TrainingControls : Prop :=
  ∀ (s : State) (h : CmdHdr) (p : List Byte) (c u : Fin 256) (i : Fin 8) (k : Fin 7) (w : Word),
    let q := h.params p
    let rec_ := fun k => uAt q (8 + 8 * k) 8
    let l := s.quant.getD c.val []
    (s.takes 0x0303 h p → h.sheetValid = true → q.length = 64 → uAt q 0 1 < 128 → uAt q 1 7 = 0 →
      (∀ k < 7, if bitOf (uAt q 0 1) k then recipeOk (rec_ k) = true ∧ rec_ k = recipeBits (rec_ k) else rec_ k = 0) →
      exec (.recipeSet h p) s = .next ((((List.range 7).filter (bitOf (uAt q 0 1))).foldl (fun s k => s.setRecipe h.sheet.toNat k (rec_ k)) (s.taken h)).answer
        (hdrOwed h 0x0303) .ok)) ∧
    (exec (.hchRecipe i k w) s = .next (if recipeOk w.toNat then s.setReg ⟨.HCH_RECIPE, 0, 8 * i + k⟩ (BitVec.ofNat 64 (recipeBits w.toNat))
      else s.regRefused 25 0)) ∧
    (s.octSheet (c / 32) = s.octSheet (u / 32) → (s.octSheet (u / 32)).isSome = true → (s.core u).run ≠ .idle → fld w 63 24 = 0 → fld w 5 0 = 0 →
      (8 ≤ l.length → exec (.movQntSubmit c u w) s = .next { s with quantHeld := s.quantHeld ++ [(c.val, u.val, w)] }) ∧
      (l.length < 8 → let r := s.scrReads u [(fld w 23 0, 64)]
        exec (.movQntSubmit c u w) s = .next { r.1 with
          quant := r.1.quant.put c (l ++ [⟨BitVec.ofNat 512 (leNat (s.scrRd u (fld w 23 0) 64)), u, (s.core u).kern, r.2⟩]) })) ∧
    (∀ d x y st rest, l = ⟨d, x, y, some st⟩ :: rest → 1 ≤ dAt d 0 1 → dAt d 0 1 ≤ 3 →
      let t : State := { s with quant := if rest.isEmpty then s.quant.del c.val else s.quant.put c.val rest }
      let v := if st = .ok then t else t.capture ⟨.MOV_QNT_STATUS, c, 0⟩ (dAt d 56 4 * 2 ^ 16 + st.code) []
      exec (.quantizerComplete c) s = .next ((v.complete y.sheet (dAt d 48 8) (dAt d 56 4) st).qntAccept c)) ∧
    (w.getLsbD 63 = true → exec (.movQntStatus c w) s =
      .next (s.setReg ⟨.MOV_QNT_STATUS, c, 0⟩ (BitVec.ofNat 64 ((s.reg ⟨.MOV_QNT_STATUS, c, 0⟩).toNat % 2 ^ 63)))) ∧
    exec .hchCtlEvalNow s = .next ((List.range 8).foldl (fun s i => s.hchEval i (2 ^ 32)) s) ∧
    exec (.hchStatus w) s = .next (s.set F.HCH_STATUS_halted 0 0 (s.get F.HCH_STATUS_halted &&& (255 - fld w 7 0)))

/-- R295, R296, R302 (Table 10.2): BUCKET_DEFINE adds a bucket that clashes with none, BUCKET_UNDEFINE takes one out that no context works for, and each is
refused where it must not. -/
def Obligations.Buckets : Prop :=
  ∀ (s : State) (h : CmdHdr) (p : List Byte),
    let t := s.taken h
    let q := h.params p
    let i := h.sheet.toNat
    let x := bucketOf i q
    let b := uAt q 0 4
    let j := uAt q 4 2
    let clash := t.hubs.buckets.any fun e => e.2.sheet == i && decide (e.2.base < x.base + x.bytes ∧ x.base < e.2.base + e.2.bytes)
    let o := hdrOwed h 0x0406
    (s.takes 0x0406 h p → q.length = 48 → h.sheetValid = true → h.jobValid = true → j = h.job.toNat → uAt q 6 1 ≤ 1 → uAt q 7 1 ≤ 1 → uAt q 8 1 ≤ 1 → uAt q 9 3 = 0 →
      1 ≤ x.expected → x.expected ≤ 65535 → 1 ≤ x.elements → x.elements ≤ 67108864 → uAt q 20 4 = 0 → x.base % 4096 = 0 → x.sem % 8 = 0 → x.status % 8 = 0 →
      x.base + x.bytes ≤ (t.sheet i).usable → t.wordIn i x.sem = true → t.wordIn i x.status = true →
      ((t.bucket? j b).isSome = true → exec (.bucketDefine h p) s = .next (t.answer o (.st .bucketExists))) ∧
      (t.bucket? j b = none → clash = true → exec (.bucketDefine h p) s = .next (t.answer o (.st .bucketOverlap))) ∧
      (t.bucket? j b = none → clash = false → t.hubs.buckets.length < 131072 → x.exact = false →
        exec (.bucketDefine h p) s = .next ((t.setBucket j b x).answer o .ok)) ∧
      (t.bucket? j b = none → clash = false → t.hubs.buckets.length < 131072 → x.exact = true → exec (.bucketDefine h p) s =
        .next (if Config.placed t.free (40 * x.elements) then (t.draw.setBucket j b x).answer o .ok else t.draw.answer o (.st .reservedFull)))) ∧
    (s.takes 0x0407 h p → q.length = 8 → t.stoppingJob j = false → uAt q 6 2 = 0 →
      (t.bucket? j b = none → exec (.bucketUndefine h p) s = .next (t.answer (hdrOwed h 0x0407) (.st .bucketUnknown))) ∧
      ((t.bucket? j b).isSome = true → (t.hubs.ctxs.any fun c => c.job == j && c.bucket == b) = true →
        exec (.bucketUndefine h p) s = .next (t.answer (hdrOwed h 0x0407) (.st .bucketBusy))) ∧
      ((t.bucket? j b).isSome = true → (t.hubs.ctxs.any fun c => c.job == j && c.bucket == b) = false → exec (.bucketUndefine h p) s =
        .next ((t.dropBuckets fun k _ => k == (j, b)).1.answer (hdrOwed h 0x0407) .ok)))

/-- R286, R287, R290 to R293, R298, R306, R308, R311 (Table 10.1): an accepted contribution commits and is acknowledged with its status; a part of a round
comes to the bucket's first hub; a context that does not end in its time is reported, if it has not been; a memory stack that is ready takes a temperature, a
refresh, a scrub result and a recalibration; HBM_REPAIR keeps its parameters (log 38); a read of the context counters captures them, with a misclosure where they
break their bounds; a one written to the valid bit of a fault capture clears it. -/
def Obligations.HubEvents : Prop :=
  ∀ (s : State) (n : Fin 16) (h : CmdHdr) (p : List Byte) (w : Word),
    (∀ f, s.hubs.frames.find? (fun f => f.hub == n.val) = some f →
      exec (.raccCommit n) s = .next (((((s.raccCommit f).1.acked f.frame (s.raccCommit f).2).drained f.frame).after).acceptKept fun g =>
        g.op == 4 && s.hubOf g.dstSheet.toNat g.addr.toNat == n.val)) ∧
    (∀ j b x m l, s.hubs.buckets.find? (fun e => s.bucketHub e.2 0 == n.val && !e.2.sent.isEmpty) = some ((j, b), x) → x.sent = m :: l →
      let t := s.setBucket j b { x with sent := l, held := x.held ++ [m] }
      exec (.partDone n) s = .next (if t.stoppingJob j then t else t.bucketComplete j b)) ∧
    (∀ j b c x, s.rctx? n j b = some c → s.bucket? j b = some x → c.stalled = false → c.opened + msTicks (max 1 (s.get F.NMA_CTL_stall_ms n)) ≤ s.datum →
      let ps := [j, b, c.round, c.accepted, x.expected * s.partSize x n]
      exec (.bucketStalled n j b) s =
        .next ((s.setRctx { c with stalled := true }).event { code := .bucketStalled, job := some j, sheet := some x.sheet, unit := n, params := ps })) ∧
    (let at_ : Nat → Nat → State := fun a b => (s.set F.NMA_CTX_ACCEPTED_accepted n 0 a).set F.NMA_CTX_COMMITTED_committed n 0 b;
      (s.selCtx n = none → exec (.nmaCtxAccepted n) s = .next (at_ 0 0)) ∧
      (∀ c, s.selCtx n = some c → let t := at_ c.accepted c.committed
        exec (.nmaCtxAccepted n) s = .next (if t.ctxBroken c then
          t.misclosure 3 c.inst (t.ctxCounts c) (some c.job) ((t.bucket? c.job c.bucket).map Bucket.sheet) else t))) ∧
    (s.takes 0x0A01 h p → let t := s.taken h
      exec (.hbmRepair h p) s = .next (({ t with hubs := { t.hubs with repairs := t.hubs.repairs ++ [h.params p] } } : State).answer (hdrOwed h 0x0A01) .ok)) ∧
    (w.getLsbD 63 = true →
      exec (.nmaErrInfo n w) s = .next (s.setReg ⟨.NMA_ERR_INFO, n, 0⟩ (BitVec.ofNat 64 ((s.reg ⟨.NMA_ERR_INFO, n, 0⟩).toNat % 2 ^ 63))) ∧
      exec (.mhbUeInfo n w) s = .next (s.setReg ⟨.MHB_UE_INFO, n, 0⟩ (BitVec.ofNat 64 ((s.reg ⟨.MHB_UE_INFO, n, 0⟩).toNat % 2 ^ 63)))) ∧
    (s.stackReady n = true →
      (∀ d : BitVec 8, let x := s.stack n
        let at_ : Bool → State := fun hot => (s.set F.MHB_STATUS_dram_temp n 0 d.toNat).setStack n { x with double := decide (85 < d.toNat), hot := hot }
        (d.toNat < 90 ∨ (d.toNat ≤ 95 ∧ x.hot = false) → exec (.hbmTemperatureRead n d) s = .next (at_ false)) ∧
        (90 ≤ d.toNat → x.hot = true → exec (.hbmTemperatureRead n d) s = .next ((at_ true).coolOctant (n / 2) 600).restage) ∧
        (95 < d.toNat → x.hot = false → exec (.hbmTemperatureRead n d) s =
          .next (((((at_ true).event { code := .hbmHot, unit := n, die := dieMh n }).heatEvent (dieMh n)).coolOctant (n / 2) 600).restage))) ∧
      (s.selfRefresh n = false → exec (.perBankRefresh n) s = .next (s.setStack n { s.stack n with refreshed := s.datum })) ∧
      (∀ l < 2 ^ 28, s.get F.MHB_CTL_scrub_enable n ≠ 0 → let u := keyHbm n (l * 256)
        ((s.upsets.find u).isSome = true ∨ s.lineMarked u = true → ∀ r, exec (.scrub n l r) s = .next (s.readUnit u 3).1.sweepFatal) ∧
        (s.upsets.find u = none → s.lineMarked u = false →
          exec (.scrub n l 0) s = .next s ∧ exec (.scrub n l 1) s = .next (s.lineCe n l) ∧ exec (.scrub n l 2) s = .next (s.lineUe n l 3).sweepFatal)) ∧
      ((s.stack n).recalAt + max 1 (s.get F.MHB_CTL_recal_interval n) * 1000000000 ≤ s.datum → exec (.recalibration n) s =
        .next (s.setStack n { s.stack n with recalAt := s.datum, recalCh := ((s.stack n).recalCh + 1) % 32 })))

/-! Collectives and triangulation. -/

/-- R319 to R326, R328, R334 (Tables 11.2 to 11.4): groups are defined and undefined; a launch that is the next of its group is admitted to a free slot, and
another waits among at most 8, for its timeout; COLLECTIVE_STATUS lists the slots and what waits. An admitted collective starts at its Datum, takes credits, of
which one that comes early is kept, and whole chunks, and ends with COLLECTIVE_TIMEOUT when a peer has kept it waiting for longer than its timeout. -/
def Obligations.Collectives : Prop :=
  ∀ (s : State) (h : CmdHdr) (p : List Byte) (k : Fin 8),
    let t := s.taken h
    let q := h.params p
    let j := uAt q 2 2
    let n := uAt q 4 4
    let g := uAt q 0 2
    let l := groupMembers q
    let ans : Nat → State → Ans → Res := fun op u a => .next (u.answer (hdrOwed h op) a)
    (s.takes 0x0600 h p → h.sheetValid = true → h.jobValid = true → j = h.job.toNat → 1 ≤ n → n ≤ 1020 → q.length = 8 + 4 * n → (∀ d ∈ l, d < 2 ^ 20) → dedup l = l →
      h.logical.toNat ∈ l →
      ((t.group? j g).isSome = true → exec (.groupDefine h p) s = ans 0x0600 t (.st .groupExists)) ∧
      (t.group? j g = none → t.coll.groups.length < 256 →
        exec (.groupDefine h p) s = ans 0x0600 { t with coll := { t.coll with groups := t.coll.groups.put (j, g) ⟨l, 0, 0⟩ } } .ok)) ∧
    (s.takes 0x0601 h p → q.length = 8 → t.stoppingJob j = false → uAt q 4 4 = 0 →
      (t.group? j g = none → exec (.groupUndefine h p) s = ans 0x0601 t (.st .groupUnknown)) ∧
      ((t.group? j g).isSome = true → t.groupBusy j g = true → exec (.groupUndefine h p) s = ans 0x0601 t (.st .collectiveBusy)) ∧
      ((t.group? j g).isSome = true → t.groupBusy j g = false →
        exec (.groupUndefine h p) s = ans 0x0601 { t with coll := { t.coll with groups := t.coll.groups.del (j, g) } } .ok)) ∧
    (s.takes 0x0602 h p → q.length = 96 → h.sheetValid = true → h.jobValid = true →
      let l := launchOf q h (hdrOwed h 0x0602) t.datum
      ∀ y, t.group? l.job l.group = some y → l.logical ∈ y.members → pass (t.launchChecks l q (y.members.idxOf l.logical) y.members.length) → y.next ≤ l.seq → y.stamp ≤ l.stamp →
      (∀ m, t.launchDue l = true → t.freeSlotNo = some m → exec (.collectiveLaunch h p) s = ans 0x0602 ((t.noteStamp l).admitLaunch m l) (t.admitAns l)) ∧
      (t.launchDue l = false ∨ t.freeSlotNo = none →
        let u := t.noteStamp l
        exec (.collectiveLaunch h p) s = if t.coll.waiting.length < 8 then
          ans 0x0602 { u with coll := { u.coll with waiting := insertBy launchKey l u.coll.waiting } } (.later true) else ans 0x0602 t (.st .collectiveBusy))) ∧
    (s.takes 0x0603 h p → q.length = 0 → exec (.collectiveStatus h p) s = ans 0x0603 t (.data (((List.range 8).flatMap fun k => match t.slot? k with
        | some x => collRecord x.l.group (if x.running then 3 else 2) k x.l.seq x.done x.l.job x.mode
        | none => collRecord 0 0 k 0 0 0 0) ++ t.coll.waiting.flatMap fun l => collRecord l.group 1 255 l.seq 0 l.job l.mode))) ∧
    (∀ m l, s.freeSlotNo = some m → s.coll.waiting.find? s.launchDue = some l →
      exec .collectiveAdmit s = .next ((s.answer l.owed (s.admitAns l)).admitLaunch m l)) ∧
    (∀ j g q l, s.coll.waiting.find? (fun l => l.job == j && l.group == g && l.seq == q) = some l → s.launchDue l = false → l.since + l.timeout ≤ s.datum →
      let ps := [g, q, ((s.group? j g).map Group.next).getD 0]
      exec (.pendingLaunchTimeout j g q) s = .next ((({ s with coll := { s.coll with waiting := s.coll.waiting.erase l } } : State).final l.owed .collectiveSeq).event
        { code := .collectiveTimeout, job := some j, sheet := some l.sheet, status := some .collectiveSeq, params := ps })) ∧
    (∀ x, s.slot? k = some x →
      (x.running = false → x.l.trigger = 1 → x.l.atDatum ≤ s.datum → exec (.atDatumTrigger k) s = .next (s.collStart k).collOps) ∧
      (∀ r y c rest, x.rx.find? (fun y => y.rank == r) = some y → y.places = c :: rest → x.running = true → x.bytes y.next ≤ x.landed.getD c 0 →
        exec (.collectiveChunk k r) s = .next ((s.serveBefore k x).takeChunk k x y c).collPumps.collOps) ∧
      (∀ r, x.running = true → (x.waitsFor r).any (fun y => decide (y + (x.l.timeout + 1) ≤ s.datum)) = true →
        let ps := [x.l.group, x.l.seq, r]
        exec (.collectiveTimeout k r) s = .next (((s.collWordDone k x false .collectiveTimeout).jobError x.l.job
          { code := .collectiveTimeout, sheet := some x.l.sheet, status := some .collectiveTimeout, unit := k, params := ps }).freeSlot k))) ∧
    (∀ j g q r a m x, s.coll.slots.find? (fun e => e.2.l.job == j && e.2.l.group == g && e.2.l.seq == q) = some (m, x) →
      exec (.collectiveCredit j g q r a) s = .next ((s.setSlot m { x with
        tx := x.tx.map fun y => if y.rank = r then { y with credits := y.credits ++ [a] } else y }).collPumps).collOps) ∧
    (∀ j g q r a y, s.coll.slots.find? (fun e => e.2.l.job == j && e.2.l.group == g && e.2.l.seq == q) = none → s.group? j g = some y → y.next ≤ q → s.admitted j = true →
      exec (.collectiveCredit j g q r a) s = .next { s with coll := { s.coll with early := s.coll.early ++ [(j, g, q, r, a)] } })

/-- R336 to R343 (Table 11.5): TREE_START makes a node, and its reply is owed; TREE_REPARENT and TREE_END change it; a whole chunk whose digest is
good is verified (treeVerified), and another is not (treeBad); a child is kept alive, taken up again where its RESUME record says, and lost when a chunk to it is
not acknowledged; a node that hears nothing from its parent becomes an orphan. -/
def Obligations.TriangulationTrees : Prop :=
  ∀ (s : State) (h : CmdHdr) (p : List Byte) (i : Fin 8) (m c : Nat),
    let t := s.taken h
    let q := h.params p
    let k := h.sheet.toNat
    let ans : Nat → State → Ans → Res := fun op u a => .next (u.answer (hdrOwed h op) a)
    let z := treeNodeOf k q (hdrOwed h 0x0604) t.datum
    let n := uAt q 7 1
    (s.takes 0x0604 h p → q.length = 72 → h.sheetValid = true → h.jobValid = true → z.job = h.job.toNat → uAt q 6 1 ≤ 1 → n ≤ 8 → 2 ≤ z.chunks → z.chunks ≤ (if z.routing then 257 else 65537) →
      devOrNone z.parent = true → devOrNone z.alternate = true → (if z.routing then z.dst == 0 else t.inData k z.dst (treeChunk * (z.chunks - 1))) = true →
      (if z.isRoot then t.inData k z.src (treeChunk * z.chunks) else z.src == 0) = true →
      (∀ j < 8, if j < n then uAt q (40 + 4 * j) 4 < 2 ^ 20 else uAt q (40 + 4 * j) 4 = treeNone) →
      ((t.tree? k z.image).isSome = true → exec (.treeStart h p) s = ans 0x0604 t (.st .treeExists)) ∧
      (t.tree? k z.image = none → z.routing = false →
        exec (.treeStart h p) s = ans 0x0604 { t with coll := { t.coll with trees := t.coll.trees ++ [z] } } (.later true)) ∧
      (t.tree? k z.image = none → z.routing = true → exec (.treeStart h p) s = if Config.placed t.free (treeChunk * z.chunks)
        then ans 0x0604 { t.draw with coll := { t.coll with trees := t.coll.trees ++ [z] } } (.later true) else ans 0x0604 t.draw (.st .reservedFull))) ∧
    (∀ x, s.takes 0x0605 h p → q.length = 24 → h.sheetValid = true → t.stoppingJob (uAt q 4 2) = false → uAt q 6 1 ≤ 1 → uAt q 7 1 = 0 → uAt q 8 4 < 2 ^ 20 → uAt q 12 4 < 2 ^ 20 → uAt q 16 8 = 0 →
      t.tree? k (uAt q 0 4) = some x → x.job = uAt q 4 2 →
      (uAt q 6 1 = 0 → exec (.treeReparent h p) s = ans 0x0605 ((t.setTree { x with
        parent := uAt q 12 4, heard := t.datum, orphan := false }).send
          (.treeRecord x.job (uAt q 0 4) (uAt q 12 4) x.high)) .ok) ∧
      (uAt q 6 1 = 1 → exec (.treeReparent h p) s = ans 0x0605 (t.setTree { x with
        children := (x.children.filter fun y => y.logical != uAt q 8 4) ++ [⟨uAt q 8 4, x.chunks, false, t.datum, t.datum, false, false⟩] }) .ok)) ∧
    (s.takes 0x0606 h p → q.length = 8 → h.sheetValid = true → t.stoppingJob (uAt q 4 2) = false → uAt q 6 2 = 0 →
      (t.tree? k (uAt q 0 4) = none → exec (.treeEnd h p) s = ans 0x0606 t .ok) ∧
      (∀ x, t.tree? k (uAt q 0 4) = some x → x.job = uAt q 4 2 →
        ((x.children.any fun c => !c.done && !c.lost) = true → exec (.treeEnd h p) s = ans 0x0606 t (.st .collectiveBusy)) ∧
        ((x.children.any fun c => !c.done && !c.lost) = false →
          exec (.treeEnd h p) s = ans 0x0606 (t.treeTear fun y => y.sheet == k && y.image == x.image) .ok))) ∧
    (∀ x, s.tree? i m = some x →
      (x.ready = true → let b := s.treeBytes x
        exec (.treeChunkComplete i m x.verified) s = .next (if s.treeDigestOk x b then (s.treeVerified x b).treeOps else s.treeBad x)) ∧
      (x.isRoot = false → x.orphan = false → x.verified < x.chunks → x.heard + msTicks x.timeoutMs ≤ s.datum → exec (.orphaned i m) s = .next (s.treeOrphan x)) ∧
      (∀ y, x.children.find? (fun y => y.logical == c) = some y →
        (∀ w, s.mapEntry x.job c = some w → y.done = false → y.lost = false → max y.at_ y.kept + msTicks 10 ≤ s.datum →
          exec (.treeKeepalive i m c) s = .next ((s.setTree (x.setChild { y with kept := s.datum })).sendFrame
            { s.reqFrame i 280 x.job w 0 5 with kind := 7, last := true, payload := leBytes 4 x.high })) ∧
        (∀ e, e + 1 = x.chunks → exec (.resumeRecord i m c e) s =
          .next (((s.treeStale (x.owner c)).setTree (x.setChild { y with done := true, sending := false })).treeDone i m)) ∧
        (∀ e, e + 1 ≠ x.chunks → exec (.resumeRecord i m c e) s =
          .next (((s.treeStale (x.owner c)).setTree (x.setChild
            { y with next := if e = treeNone then 0 else e + 1, sending := false, lost := false })).treeSend i m).treeOps) ∧
        (y.sending = true → y.lost = false → y.at_ + usTicks (max 100 (s.get F.RMO_TIMEOUT_op_timeout)) ≤ s.datum → let ps := [m, c]
          exec (.childLost i m c) s = .next (((((s.setTree (x.setChild { y with lost := true, sending := false })).event
            { code := .childLost, job := some x.job, sheet := some i.val, params := ps, report := true }).treeStop (x.owner c) .targetLost).treeDone i m).treeOps))))

/-! Determinism and the Datum. -/

/-- R346, R347, R349, R359 to R361 (Table 12.6): DETERMINISM_SET writes the mode and the quorum and reports a change, and Relaxed is refused while a job
demands Strict. LAUNCH_AT holds a good wrapped command until its stamp; one that comes late replies LATE, and runs its command only where it is asked to. At
its stamp the launch begins with its skew. -/
def Obligations.TimedLaunches : Prop :=
  ∀ (s : State) (h : CmdHdr) (p : List Byte) (ok : Bool) (chunk : List Byte),
    let t := s.taken h
    let q := h.params p
    let v := uAt q 0 1
    let n := uAt q 1 1
    let o := hdrOwed h 0x0104
    let id := t.cht.nextLaunch
    let x := innerPacket id q
    let stamp := uAt q 0 8
    let flags := uAt q 8 4
    let u : State := { t with cht := { t.cht with nextLaunch := id + 1 } }
    (s.takes 0x0103 h p → q.length = 8 → v ≤ 1 → n ≤ 100 → uAt q 2 6 = 0 →
      let d := (t.set F.DGC_CTL_strict 0 0 v).set F.DGC_CTL_quorum_pct 0 0 n
      (v = 0 → (t.jobs.any fun e => e.2.life.st != .off && e.2.strict) = true →
        exec (.determinismSet h p) s = .next (t.answer (hdrOwed h 0x0103) (.st .strictRequired))) ∧
      (v = 1 ∨ (t.jobs.any fun e => e.2.life.st != .off && e.2.strict) = false → exec (.determinismSet h p) s =
        .next ((if t.get F.DGC_CTL_strict = v then d
          else (d.bump F.DGC_STATUS_strict_changes 0 0 1).event { code := .strictChanged, params := [v, (d.bump F.DGC_STATUS_strict_changes 0 0 1).datum] }).answer
            (hdrOwed h 0x0103) .ok))) ∧
    (s.takes 0x0104 h p → 80 ≤ q.length → flags < 4 → uAt q 12 4 = 0 → x.op ≠ 0x0104 → hdrBad x.hdr = none → x.hdr.length.toNat = x.params.length → (cmdRights x.op).isSome = true →
      sourceMay x.op h.src = true → t.innerBad ok chunk o x = none → stamp ≤ t.datum + 2 ^ 36 → t.cht.timed.length < 64 → t.get F.DTM_STATUS_state = 2 ∨ bitOf flags 1 = true →
      (t.datum ≤ stamp → exec (.launchAt h p ok chunk) s = .next (({ u with cht := { u.cht with timed := u.cht.timed ++ [⟨id, o, stamp, x⟩] } } : State).answer o (.later true))) ∧
      (stamp < t.datum → let w := (u.bump F.DTM_LAUNCH_STATUS_late 0 0 1).owe o true
        let skew : Int := (t.datum : Int) - stamp
        exec (.launchAt h p ok chunk) s = .next (if bitOf flags 0 then w.beginLaunch ok chunk id o skew true x else w.launchReply o skew true .late))) ∧
    (∀ d, s.dueLaunch = some d → s.chtActive = true → exec (.launchAtStamp ok chunk) s =
      .next (({ s with cht := { s.cht with timed := s.cht.timed.filter fun y => y.id != d.id } } : State).beginLaunch ok chunk d.id d.owed ((s.datum : Int) - d.stamp) false d.inner))

/-- R353 to R358 (Tables 12.4 and 12.5): the exchanges that keep a follower on its master's count, with stamps corrected by the delay trims, the loss of the
reference and the end of holdover, the messages of PTP that a master takes, and the pulses. An offset is half the difference of the two ways, and a link delay
half their sum. -/
def Obligations.DatumClock : Prop :=
  ∀ (s : State) (p : Fin 36) (seq : BitVec 16) (t1 t2 t3 : Word) (hops st dom : BitVec 8) (ty : BitVec 4) (m : BitVec 20) (two v4 : Bool) (ann : PtpAnnounce),
    let c := s.clock
    let u := s.upstream
    let t : State := { s with clock := { c with asked := some (c.nextSeq, s.txStamp u), nextSeq := (c.nextSeq + 1) % 65536, askedAt := s.datum } }
    (s.isMaster = false → s.portUp u = true → s.native u = true → c.askedAt + msTicks 1 ≤ s.datum →
      exec .datumSyncTimer s = .next (t.send (.datumSync u [0x10, 0, c.nextSeq, 0, s.txStamp u, 0, 0, 0]))) ∧
    (s.portUp p = true → s.native p = true → exec (.datumSyncRequest p seq t1) s =
      .next (s.send (.datumSync p [0x11, if s.isMaster then 0 else s.get F.DTM_STATUS_hops, seq.toNat, s.dtmState, t1.toNat, s.rxStamp p, s.txStamp p,
        if s.isMaster then s.sw.devId else c.master]))) ∧
    (s.isMaster = false → p.val = u → s.portUp p = true → c.asked = some (seq.toNat, t1.toNat) →
      let w : State := { s with clock := { c with asked := none } }
      let e := s.rxStamp p
      let delay := (((e : Int) - t1.toNat) - ((t3.toNat : Int) - t2.toNat)) / 2
      let far := !c.exchanges.isEmpty && decide (20 < (delay - meanOf (c.exchanges.map (·.2))).natAbs)
      ((st ≠ 2 ∧ hops ≠ 0) ∨ far = true → exec (.datumSyncResponse p hops seq st t1 t2 t3 m) s = .next w) ∧
      (st = 2 ∨ hops = 0 → far = false → let v := w.set F.DTM_STATUS_hops 0 0 (hops.toNat + 1)
        exec (.datumSyncResponse p hops seq st t1 t2 t3 m) s = .next (({ v with clock := { v.clock with master := m.toNat } } : State).exchanged
          ((((t1.toNat : Int) - t2.toNat) + ((e : Int) - t3.toNat)) / 2) delay))) ∧
    (s.hasReference = true → c.lastOk + s.silence ≤ s.datum → exec .datumHoldover s = .next s.loseReference) ∧
    (s.dtmState = 3 → c.heldAt + (msTicks 1000 + 1) ≤ s.datum → exec .holdoverTimeout s = .next (s.setDtm 0)) ∧
    (s.ptpOn = true → p.val = s.get F.DTM_PTP_CFG_port → v4 = (s.get F.DTM_PTP_CFG_ipv4 == 1) →
      let msg := Instr.ptpMessage p v4 ty dom two seq t1 ann
      (([0, 1, 8, 9, 11] : List Nat).contains ty.toNat = false → exec msg s = .next (s.bump F.DTM_PTP_CFG_ignored 0 0 1)) ∧
      (dom.toNat = s.get F.DTM_PTP_CFG_domain →
        (ty = 11 → exec msg s = .next (s.ptpAnnounce (ptpRank ann.prio1 ann.quality ann.prio2 ann.identity))) ∧
        (ty = 1 → c.ptpSlave = false → s.get F.DTM_PTP_CFG_slave_only ≠ 1 → exec msg s = .next (s.ptpSend [9, seq.toNat, s.ptpNow])) ∧
        (ty = 0 → c.ptpSlave = true →
          exec msg s = .next (if two then { s with clock := { c with sync := some (seq.toNat, s.ptpNow) } } else s.ptpSync seq.toNat t1.toNat s.ptpNow)) ∧
        (∀ a, ty = 8 → c.ptpSlave = true → c.sync = some (seq.toNat, a) → exec msg s = .next (s.ptpSync seq.toNat t1.toNat a)) ∧
        (∀ a b e, ty = 9 → c.ptpSlave = true → c.delay = some (seq.toNat, a, b, e) → exec msg s =
          .next (({ s with clock := { c with delay := none } } : State).ptpOffset
            ((((b : Int) - a) - ((t1.toNat : Int) - e)) / 2) ((((b : Int) - a) + ((t1.toNat : Int) - e)) / 2))))) ∧
    (let v := s.setReg ⟨.DTM_PPS_CAPTURE, 0, 0⟩ (BitVec.ofNat 64 s.datum);
      (v.isMaster = false → exec .datumPpsIn s = .next v) ∧
      (v.isMaster = true →
        (v.get F.DTM_CTL_source = 1 → exec .datumPpsIn s = .next (v.exchanged (secondError v.datum) 0)) ∧
        (v.get F.DTM_CTL_source = 3 → v.clock.secs = none → exec .datumPpsIn s = .next (v.correct (-(secondError v.datum)))) ∧
        (∀ n, v.get F.DTM_CTL_source = 3 → v.clock.secs = some n → let w := v.exchanged (secondError v.datum + n * 1000000000) 0
          exec .datumPpsIn s = .next (if w.datum = v.datum then w else { w with clock := { w.clock with secs := none } })))) ∧
    (s.get F.DTM_CTL_pps_out = 1 → c.ppsHigh = none → s.datum % 1000000000 ≤ 1 → exec .datumPpsOut s =
      .next (({ s with clock := { c with ppsHigh := some (s.datum / 1000000000 * 1000000000) } } : State).send (.pin "DATUM_PPS_OUT" true))) ∧
    (∀ a, c.ppsHigh = some a → a + 100000 ≤ s.datum → exec .ppsOutFall s =
      .next (({ s with clock := { c with ppsHigh := none } } : State).send (.pin "DATUM_PPS_OUT" false)))

/-! Sheets and contexts. -/

/-- R365 to R369, R371 to R373, R472, R561 (Tables 13.3 to 13.5 and 17.8): SHEET_CREATE of an OFF sheet runs the checks of its shape and puts the sheet in
STARTING; SHEET_DESTROY of a sheet without contexts that is ON begins STOPPING; both replies come at the end. SHEET_RESET ends a sheet and creates it again. A
context is created on a sheet that is ON, destroyed by stopping its work first, resumed from its fault, and told of new kernels. -/
def Obligations.SheetsAndContexts : Prop :=
  ∀ (s : State) (h : CmdHdr) (p : List Byte) (k : Fin 8),
    let t := s.taken h
    let q := h.params p
    let i := uAt q 0 1
    let j := h.sheet.toNat
    let c := uAt q 0 1
    let ans : Nat → State → Ans → Res := fun op u a => .next (u.answer (hdrOwed h op) a)
    let x := t.sheet j
    (s.takes 0x0200 h p → q.length = 16 → i < 8 → uAt q 1 1 ∈ [1, 2, 4, 8] → uAt q 2 1 ≤ 4 → uAt q 3 1 = 0 → uAt q 4 4 = 0 ∨ (100 ≤ uAt q 4 4 ∧ uAt q 4 4 ≤ 1000000) →
      uAt q 8 2 ≤ 60000 → uAt q 10 2 ≤ 60000 → uAt q 12 4 = 0 ∨ (isPow2 (uAt q 12 4) = true ∧ uAt q 12 4 ≤ 2 ^ 26) →
      ((t.sheet i).life.st = .on ∨ (t.sheet i).life.st = .starting →
        exec (.sheetCreate h p) s = ans 0x0200 (t.setSheet i (t.sheet i)) (.st .sheetExists)) ∧
      ((t.sheet i).life.st = .off →
        let l : Life := { (t.sheet i).life with st := .starting, step := 0, enable := some (hdrOwed h 0x0200), failing := none, since := t.datum }
        let b := t.sheetBegin i (mkPacket h 0x0200 q) l
        exec (.sheetCreate h p) s = ans 0x0200 b.1 b.2)) ∧
    (s.takes 0x0201 h p → q.length = 0 → h.sheetValid = true →
      (t.ctxsOf j ≠ [] → exec (.sheetDestroy h p) s = ans 0x0201 t (.st .sheetBusy)) ∧
      (t.ctxsOf j = [] → x.life.st = .off → exec (.sheetDestroy h p) s = ans 0x0201 t .ok) ∧
      (t.ctxsOf j = [] → x.life.st = .on → exec (.sheetDestroy h p) s = ans 0x0201 ((t.setSheet j { x with
        life := { x.life with st := .stopping, step := 0, disables := [hdrOwed h 0x0201], since := t.datum }, serve := none }).sheetStop1 j) (.later true))) ∧
    (s.takes 0x0207 h p → q.length = 0 → h.sheetValid = true → x.life.st ≠ .off → x.life.deferred = none →
      let u := t.sheetEnd j
      let y := u.sheet j
      exec (.sheetReset h p) s = ans 0x0207 (u.setSheet j { y with life := { y.life with deferred := some (mkPacket h 0x0207 x.params) } }) (.later true)) ∧
    ((s.sheet k).life.st = .starting → exec (.sheetStartingComplete k) s = .next (s.sheetStarted k)) ∧
    ((s.sheet k).life.st = .stopping → s.sheetWaits k = false → exec (.sheetStoppingComplete k) s = .next (s.sheetStopped k)) ∧
    (s.takes 0x0202 h p → q.length = 24 → h.sheetValid = true → t.sheetOn j = true → c < 16 → uAt q 1 1 < 16 → 1 ≤ uAt q 4 4 → uAt q 4 4 ≤ 65536 → uAt q 8 8 % 64 = 0 →
      uAt q 8 8 + 64 + 8 * uAt q 4 4 ≤ x.usable → uAt q 16 4 = 0 ∨ (100 ≤ uAt q 16 4 ∧ uAt q 16 4 ≤ 1000000) → uAt q 20 2 ≤ 16 → uAt q 22 2 ≤ 60000 →
      (t.ctx? j c = none →
        let b := t.ctxBegin j (mkPacket h 0x0202 q)
        exec (.contextCreate h p) s = ans 0x0202 b.1 b.2) ∧
      (∀ y, t.ctx? j c = some y → y.life.st = .on → exec (.contextCreate h p) s = ans 0x0202 (t.setCtx j c y) (.st .contextExists))) ∧
    (∀ y, q.length = 8 → h.sheetValid = true → c < 16 → t.ctx? j c = some y → uAt q 1 7 = 0 →
      (s.takes 0x0203 h p → y.life.st = .on →
        let u := t.setCtx j c { y with life := { y.life with st := .stopping, step := 0, disables := [hdrOwed h 0x0203], since := t.datum } }
        exec (.contextDestroy h p) s = ans 0x0203 (((u.owe (hdrOwed h 0x0203) true).ctxStop j c).drainAll) .sent) ∧
      (s.takes 0x0204 h p → exec (.contextResume h p) s = ans 0x0204 (if y.st = .faulted then (t.setCtx j c { y with st := .idle }).kick j else t) .ok) ∧
      (s.takes 0x0205 h p → exec (.kernelDoorbell h p) s = ans 0x0205 ((t.readTail j c).kick j) .ok))

/-- R375, R376, R378, R379, R384 to R386 (Tables 13.7 and 13.9): SERVE_SET starts and stops the composer, which composes at its interval; a context switch
starts once no scratchpad work is left, from when the incoming context is RUNNING, and then completes (switchDone); a kernel past its limit is stopped with
WATCHDOG_EXPIRED; a semaphore held too long is released, and its holder stopped. -/
def Obligations.ServingAndScheduling : Prop :=
  ∀ (s : State) (h : CmdHdr) (p : List Byte) (i : Fin 8) (c : Fin 16) (n : Fin 256),
    let t := s.taken h
    let q := h.params p
    let j := h.sheet.toNat
    let x := t.sheet j
    let b := uAt q 0 4
    let slots := uAt q 7 1
    let d : Nat → Nat → Nat := fun v e => if v = 0 then e else v
    let y := s.sheet i
    (s.takes 0x0206 h p → q.length = 36 → h.sheetValid = true → t.sheetOn j = true → b ≤ 65536 → uAt q 6 1 < 64 → 2 ≤ slots → slots ≤ 16 → 1 ≤ uAt q 8 4 → uAt q 8 4 ≤ 65536 →
      uAt q 16 8 % 32 = 0 → uAt q 16 8 + 32 * uAt q 8 4 ≤ x.usable → uAt q 24 8 % 64 = 0 → uAt q 24 8 + 64 + slots * (64 + 8 * b) ≤ x.usable → uAt q 32 4 ≤ 1000 →
      (b = 0 → exec (.serveSet h p) s = .next ((t.setSheet j { x with serve := none }).answer (hdrOwed h 0x0206) .ok)) ∧
      (b ≠ 0 → x.serve.isSome = true → exec (.serveSet h p) s = .next (t.answer (hdrOwed h 0x0206) (.st .deviceBusy))) ∧
      (b ≠ 0 → x.serve = none →
        let v : Serve := ⟨b, d (uAt q 4 2) 512, uAt q 6 1, slots, uAt q 8 4, uAt q 12 4, uAt q 16 8, uAt q 24 8, d (uAt q 32 4) 20, t.datum, h.job.toNat⟩
        exec (.serveSet h p) s = .next ((t.setSheet j { x with serve := some v }).answer (hdrOwed h 0x0206) .ok))) ∧
    (∀ v, y.serve = some v → v.last + usTicks v.pollUs ≤ s.datum →
      exec (.composerPoll i) s = .next ((s.setSheet i { y with serve := some { v with last := s.datum } }).compose i)) ∧
    (∀ out m, y.switch = some (out, m, false) → s.scratchWork i = false → s.quant.any (fun e => e.2.any fun m => m.kern.sheet == i) = false →
      let u := match s.ctx? i m with
        | some z => if z.st = CtxState.ready then s.setCtx i m { z with st := .running } else s
        | none => s
      exec (.contextSwitchStart i) s = .next (u.setSheet i { y with switch := some (out, m, true) })) ∧
    (∀ out m, y.switch = some (out, m, true) → exec (.contextSwitchComplete i) s = .next (s.switchDone i out m)) ∧
    (∀ x, s.ctx? i c = some x →
      (∀ k, x.kernel = some k → k.started + (msTicks k.watchMs + 1) ≤ s.datum → (s.kernelCores i k).any (fun c => (s.core c).run.stoppable) = true →
        exec (.kernelWatchdog i c) s = .next ((((s.kernelCores i k).foldl (fun s c => s.coreKill .watchdogExpired c) s).watchdogEvent i c x).drainAll)) ∧
      (∀ g, x.kernel = none → x.group = some g → g.1 + (msTicks g.2 + 1) ≤ s.datum →
        let u := (s.setCtx i c { x with st := .faulted, group := none }).watchdogEvent i c x
        exec (.kernelWatchdog i c) s = .next (u.schedule i))) ∧
    (∀ m, s.sems.find (i.val, n.val) = some m → m.since + (msTicks y.holdMs + 1) ≤ s.datum →
      let ps := [i.val, n.val, m.ctx]
      let u := ((s.semRelease i n).bump F.SCH_SEM_FORCE_CNT_releases 0 0 1).event
        { code := .semHoldExpired, sheet := some i.val, status := some .semHoldExpired, unit := m.ctx, params := ps }
      (u.ctx? i m.ctx = none → exec (.semHoldExpired i n) s = .next u) ∧
      (∀ x, u.ctx? i m.ctx = some x → x.kernel = none → let v := u.setCtx i m.ctx { x with st := .faulted, group := none }
        exec (.semHoldExpired i n) s = .next (if (v.sheet i).run = some m.ctx then v.schedule i else v)) ∧
      (∀ x, u.ctx? i m.ctx = some x → x.kernel.isSome = true → exec (.semHoldExpired i n) s =
        .next (((if (u.core m.core).run.stoppable ∧ (u.core m.core).kern.sheet = i.val ∧ (u.core m.core).kern.ctxIdx = m.ctx then u.coreKill .semHoldExpired m.core
          else u.noteFault i m.ctx (u.vindexOf i m.core) .semHoldExpired).stopKernel i m.ctx).drainAll)))

/-! The switch and the ports. -/

/-- R392, R393, R396, R398 to R407 (Tables 14.5 and 14.6): a good frame that enters takes its place behind the frames of its output, or is dropped with its
reason; arbitration sends the frame that it chooses, and a frame whose output is down is looked up again. The tables are written in shadow, activated together
at the chosen Datum, and copied back; a commit that alone waits for its older frames ends when none is left, or with DRAIN_TIMEOUT. -/
def Obligations.Switching : Prop :=
  ∀ (s : State) (h : CmdHdr) (p : List Byte) (n : Fin 40) (e : Envelope) (f : Frame) (w : Word),
    let t := s.taken h
    let q := h.params p
    let ans : Nat → State → Ans → Res := fun op u a => .next (u.answer (hdrOwed h op) a)
    let es := (List.range (uAt q 8 4)).map fun j => wordAt q (16 + 8 * j)
    let xs := (List.range (uAt q 4 4)).map fun j => (wordAt q (16 + 16 * j), wordAt q (24 + 16 * j))
    let ups : Tbl Nat Word → Tbl Nat Word := fun l => es.zipIdx.foldl (fun l e => l.put (uAt q 4 4 + e.2) e.1) l
    let upx := xs.zipIdx.foldl (fun (l : Tbl Nat (Word × Word)) e => l.put (uAt q 0 4 + e.2) e.1) t.sw.excS
    let x := s.port n
    let c := cellsOf f
    let k := 4 * e.tc.toNat + e.lane.toNat
    let enter : State → Res := fun s => .next (match s.lookup f with
      | .out out => if out < 36 ∧ s.maxHops ≤ f.hops.toNat then (s.mirror n 0x3F f).swDrop .hopLimit n s.sw.gen f
        else let u := s.mirror n out f
          { u with sw := { u.sw with queue := u.sw.queue ++ [⟨f, n, out, u.sw.gen, false⟩] } }
      | .drop => (s.mirror n 0x3F f).swDrop .noRoute n s.sw.gen f
      | .down => (s.mirror n 0x3F f).swDrop .noRoute n s.sw.gen f)
    (n.val < 36 → s.native n = true → x.linked = true → x.sub ≠ .quarantined → e.error = 0 → e.macOk = true → e.linkSeq.toNat = x.rxSeq → c ≤ x.outstanding k →
      e.lenOk = true → headerOk f = true → f.tc = e.tc → f.hops ≠ 0 → heldLane f = e.lane.toNat → exec (.frameIngress n e f) s = enter
        ((((s.bump F.FPT_LINK_CNT0_fec_corrected n 0 e.corrected.toNat).setPort n { x with rxCount := nextCount x.rxCount e.txCount.toNat }).linkTook n).consume n k c)) ∧
    (36 ≤ n.val → headerOk f = true → isPriv f.tc.toNat = false ∨ c ≤ s.room n (4 * f.tc.toNat) → exec (.frameIngress n e f) s = enter s) ∧
    (∀ ecc y, n.val < 36 → s.portUp n = false → (s.headsFor n).head? = some y →
      let u := s.unqueue y
      exec (.outputArbitration n ecc) s = .next (match u.lookup y.frame with
        | .down => u.swDrop .portDown y.inPort y.gen y.frame
        | .drop => u.swDrop .noRoute y.inPort u.sw.gen y.frame
        | .out out => if out < 36 ∧ u.maxHops ≤ y.frame.hops.toNat then u.swDrop .hopLimit y.inPort u.sw.gen y.frame
          else let v := u.bump F.SWC_DROP_CNT1_relookup 0 0 1
            { v with sw := { v.sw with queue := v.sw.queue ++ [{ y with outPort := out, gen := v.sw.gen, moved := true }] } })) ∧
    (∀ ecc y, 36 ≤ n.val ∨ s.portUp n = true → (s.presented.chooseFrame n).2 = some y →
      let u := (s.presented.chooseFrame n).1
      let held := y.held
      let ce : State → State := fun u => if held && ecc == 1 then u.event { code := .sramCe, unit := 13 * 65536 + y.inPort } else u
      exec (.outputArbitration n ecc) s = .next (if held && ecc == 2
        then ((u.unqueue y).event { code := .sramUe, unit := 13 * 65536 + y.inPort, status := some .bufferUe }).swDrop .bufferUe y.inPort y.gen y.frame
        else (ce u).transmit n y (((ce u).headsFor n).any fun h => !isPriv h.frame.tc.toNat))) ∧
    (s.takes 0x0505 h p → uAt q 0 1 ≤ 1 → uAt q 1 3 = 0 → 1 ≤ uAt q 8 4 → uAt q 8 4 ≤ 510 → uAt q 12 4 = 0 → q.length = 16 + 8 * uAt q 8 4 → (∀ w ∈ es, entryOk w = true) →
      uAt q 4 4 + uAt q 8 4 ≤ (if uAt q 0 1 = 0 then 256 else 4096) →
      (t.sw.copying.isSome = true → exec (.switchTableWrite h p) s = ans 0x0505 t (.st .tableBusy)) ∧
      (t.sw.copying = none → exec (.switchTableWrite h p) s = ans 0x0505
        { t with sw := if uAt q 0 1 = 0 then { t.sw with posS := ups t.sw.posS } else { t.sw with domS := ups t.sw.domS } } .ok)) ∧
    (s.takes 0x0506 h p → uAt q 0 4 ≤ 1023 → 1 ≤ uAt q 4 4 → uAt q 4 4 ≤ 255 → uAt q 8 8 = 0 → q.length = 16 + 16 * uAt q 4 4 →
      (∀ e ∈ xs, fld e.1 30 28 = 0 ∧ fld e.1 63 32 = 0 ∧ entryOk e.2 = true) → uAt q 0 4 + uAt q 4 4 ≤ 1024 → t.sw.copying = none →
      exec (.switchExcWrite h p) s = ans 0x0506 { t with sw := { t.sw with excS := upx } } .ok) ∧
    (s.takes 0x0704 h p → q.length = 8 → uAt q 0 1 = 1 → uAt q 1 1 ≤ 1 → uAt q 2 2 = 0 → uAt q 4 4 = 0 →
      (∀ m, h.src = .fm m → t.sw.copying = none → t.sw.commit = none → exec (.tableCommitSwitch h p) s = ans 0x0704
        { t with sw := { t.sw with commit := some (t.datum + usTicks 2, hdrOwed h 0x0704, uAt q 1 1 == 1) } } (.later true)) ∧
      (∀ m, h.src = .fm m → t.sw.copying.isSome = true ∨ t.sw.commit.isSome = true → exec (.tableCommitSwitch h p) s = ans 0x0704 t (.st .tableBusy)) ∧
      (∀ a b, h.src = .ring a b → exec (.tableCommitSwitch h p) s = ans 0x0704 t (.st .accessDenied))) ∧
    (∀ a o, let v : Switch := { s.sw with pos := s.sw.posS, dom := s.sw.domS, exc := s.sw.excS, gen := s.sw.gen + 1, commit := none, copying := some s.datum }
      (s.sw.commit = some (a, o, false) → a ≤ s.datum → exec .switchTableActivation s = .next (({ s with sw := v } : State).final o .ok)) ∧
      (s.sw.commit = some (a, o, true) → a ≤ s.datum →
        exec .switchTableActivation s = .next { s with sw := { v with drains := v.drains ++ [(o, s.sw.gen + 1, s.datum)] } })) ∧
    (s.sw.copying.isSome = true → exec .shadowCopyComplete s =
      .next { s with sw := { s.sw with posS := s.sw.pos, domS := s.sw.dom, excS := s.sw.exc, copying := none } }) ∧
    (∀ o g a, s.sw.drains = [(o, g, a)] →
      (s.olderFrames g = 0 → exec .drainComplete s = .next (({ s with sw := { s.sw with drains := [] } } : State).final o .ok)) ∧
      (s.olderFrames g ≠ 0 → a + usTicks (max 1 (s.get F.SWC_CTL_drain_us)) ≤ s.datum →
        exec .drainTimeout s = .next (({ s with sw := { s.sw with drains := [] } } : State).final o .drainTimeout))) ∧
    (w.getLsbD 63 = true →
      exec (.swcDropInfo w) s = .next (s.setReg ⟨.SWC_DROP_INFO, 0, 0⟩ (BitVec.ofNat 64 ((s.reg ⟨.SWC_DROP_INFO, 0, 0⟩).toNat % 2 ^ 63))))

/-- R411, R413 to R416, R424, R428 to R431, R472 (Tables 15.1 to 15.3): a port that is enabled trains, and is up or failed within 250 ms; it trains again when
it loses a lane, within 100 ms; it is disabled once its buffer is empty or 2 ms have passed. PORT_RETRAIN trains a failed port, PORT_UNQUARANTINE asks the
partner of a quarantined one, and PORT_INJECT arms or disarms the fault injection of a device whose debug is unlocked. -/
def Obligations.PortLifecycle : Prop :=
  ∀ (s : State) (h : CmdHdr) (p : List Byte) (m : Fin 36) (w : Word) (locked : BitVec 8),
    let t := s.taken h
    let q := h.params p
    let n := uAt q 0 1
    let x := t.port n
    let y := s.port m
    let good : Nat → Prop := fun op => s.takes op h p ∧ q.length = 8 ∧ n ≤ 35 ∧ uAt q 2 6 = 0 ∧ t.fdWorks (n / 6) = true
    let ans : Nat → State → Ans → Res := fun op u a => .next (u.answer (hdrOwed h op) a)
    let age : Nat → Prop := fun k => y.since + msTicks k ≤ s.datum
    (good 0x0500 → uAt q 1 1 < 2 →
      (x.life.st = .off → t.pw.fdTrip.contains (n / 6) = true ∨ t.boot.halted = true → exec (.portEnable h p) s = ans 0x0500 t (.st .deviceBusy)) ∧
      (x.life.st = .off → t.pw.fdTrip.contains (n / 6) = false → t.boot.halted = false → exec (.portEnable h p) s = ans 0x0500 (t.startTraining n
        { x.life with st := .starting, step := 0, enable := some (hdrOwed h 0x0500), failing := none, since := t.datum } (some (uAt q 1 1)) true) (.later true)) ∧
      (x.life.st = .on ∨ x.life.st = .starting → exec (.portEnable h p) s = ans 0x0500 (t.setPort n x) (.st .deviceBusy))) ∧
    (good 0x0501 → uAt q 1 1 = 0 →
      (x.life.st = .off → exec (.portDisable h p) s = ans 0x0501 (t.setPort n x) .ok) ∧
      (x.life.st = .on → exec (.portDisable h p) s = ans 0x0501 (t.portStop n
        { x.life with st := .stopping, step := 0, disables := [hdrOwed h 0x0501], since := t.datum }) (.later true))) ∧
    (good 0x0502 → uAt q 1 1 = 0 → exec (.portRetrain h p) s = ans 0x0502
      (if x.life.st = .on ∧ x.sub = .failed then t.startTraining n { x.life with st := .starting, since := t.datum } none false else t) .ok) ∧
    (good 0x0503 → uAt q 1 1 = 0 → exec (.portUnquarantine h p) s = ans 0x0503 (if x.life.st = .on ∧ x.sub = .quarantined
      then (t.setPort n { x with viols := [], handshake := true, known := false, since := t.datum }).set F.FPT_VIOL_CNT1_window n 0 0 else t) .ok) ∧
    (s.takes 0x0504 h p → q.length = 16 → n ≤ 35 → t.fdWorks (n / 6) = true → uAt q 1 1 ≤ 3 → uAt q 3 1 ≤ 1 → uAt q 3 1 = 1 ∨ 1 ≤ uAt q 4 4 → uAt q 4 4 < 2 ^ 24 →
      uAt q 8 4 ≠ 0 → uAt q 12 4 = 0 →
      let v := (((t.set F.FPT_INJ_CFG_select n 0 (uAt q 4 4)).set F.FPT_INJ_CFG_use_prob n 0 (uAt q 3 1)).set F.FPT_INJ_CFG_tc_mask n 0 (uAt q 2 1)).set
        F.FPT_INJ_CFG_kind n 0 (uAt q 1 1)
      (t.sec.debug = 0 → exec (.portInject h p) s = ans 0x0504 t (.st .debugLocked)) ∧
      (t.sec.debug ≠ 0 → uAt q 1 1 ≠ 0 → exec (.portInject h p) s = ans 0x0504
        ((v.setPort n { v.port n with injSeen := 0, lfsr := uAt q 8 4 }).event { code := .faultInject, unit := n, params := [n, uAt q 1 1, uAt q 4 4] }) .ok) ∧
      (t.sec.debug ≠ 0 → uAt q 1 1 = 0 → exec (.portInject h p) s = ans 0x0504 (t.disarm n) .ok)) ∧
    (y.inTraining = true →
      (¬ age 250 → s.portLit m = true → s.native m = false ∨ y.known = true → exec (.trainingComplete m) s = .next (s.portGoUp m)) ∧
      (age 250 → exec (.trainingTimeout m) s = .next (s.portTrainFail m 1))) ∧
    (s.portUp m = true → exec (.laneLockLoss m locked) s = .next ((s.set F.FPT_STATUS_lanes_locked m 0 locked.toNat).retrain m)) ∧
    (y.life.st = .on → y.sub = .retraining →
      (¬ age 100 → s.portLit m = true →
        let u := (s.set F.FPT_STATUS_lanes_locked m 0 255).portTo m { y with sub := .up, resume := s.native m, asks := (0, 0), again := (0, 0) } 0
        exec (.retrainingComplete m) s = .next ((if s.native m then u.linkAck m else u).contourPort m)) ∧
      (age 100 → exec (.retrainingTimeout m) s = .next ((s.portFail m 4).contourPort m))) ∧
    (y.life.st = .on → y.sub = .quarantined → y.handshake = true → age 250 → exec (.unquarantineHandshakeTimeout m) s = .next (s.portFail m 5)) ∧
    (y.life.st = .stopping → y.life.deferred = none → y.buffer = [] ∨ age 2 →
      let u := if s.native m && y.sub != .training && y.sub != .failed then s.block m 9 0 [] else s
      exec (.portStoppingDrained m) s = .next (((u.set F.FPT_STATUS_lanes_locked m 0 0).portTo m Port.off 0).finals y.life.stopped.2.1)) ∧
    (w.getLsbD 63 = true → s.native m = true → y.isUp = true → (y.audit.bind Audit.owed) = none → exec (.fptAuditStart m w) s = .next (s.auditStart m (s.creditSel m) none)) ∧
    (let u := (s.set F.FPT_CTL_viol_thresh m 0 (fld w 31 16)).set F.FPT_CTL_retry_limit m 0 (fld w 15 8);
      exec (.fptCtl m w) s = .next (if fld w 0 0 = s.get F.FPT_CTL_mode m then u else if y.life.st = .off then u.set F.FPT_CTL_mode m 0 (fld w 0 0)
        else u.regRefused 14 m)) ∧
    (w.getLsbD 63 = true →
      exec (.fptViolInfo m w) s = .next (s.setReg ⟨.FPT_VIOL_INFO, m, 0⟩ (BitVec.ofNat 64 ((s.reg ⟨.FPT_VIOL_INFO, m, 0⟩).toNat % 2 ^ 63))))

/-- R417 to R423, R425 to R427 (Tables 15.4, 15.5 and 15.7): what a control block does on a NATIVE port that is linked, once its CRC, its tag and its reserved
fields hold; a training message of a partner; and the timer of the acknowledgements. -/
def Obligations.LinkProtocol : Prop :=
  ∀ (s : State) (m : Fin 36) (b : Block) (dev : BitVec 20) (port : BitVec 6) (version trusted : Bool),
    let x := s.port m
    let u := s.setPort m { x with rxCount := nextCount x.rxCount b.txCount.toNat }
    let y := u.port m
    let k := b.linkSeq.toNat
    let all : (Nat → Res) → Prop := fun r =>
      exec (.creditBlock m b) s = r 1 ∧ exec (.ackBlock m b) s = r 2 ∧ exec (.retryReq m b) s = r 3 ∧ exec (.violNack m b) s = r 4 ∧ exec (.auditMark m b) s = r 5 ∧
      exec (.auditReturn m b) s = r 6 ∧ exec (.disableMsg m b) s = r 9
    (s.native m = true → x.linked = true → b.crcOk = true →
      (x.sub = .quarantined → all fun _ => .next (s.bump F.FPT_VIOL_CNT1_refused m 0 1)) ∧
      (exec (.keepalive m b) s = .next (if !b.macOk then s.violation m .badMac 0 0 7 k else if !b.resvOk then u.violation m .badControl 0 0 7 k else u)) ∧
      (x.sub ≠ .quarantined → b.macOk = false → all fun kind => .next (s.violation m .badMac 0 0 kind k)) ∧
      (x.sub ≠ .quarantined → b.macOk = true → b.resvOk = false → all fun kind => .next (u.violation m .badControl 0 0 kind k)) ∧
      (x.sub ≠ .quarantined → b.macOk = true → b.resvOk = true →
        let got := (creditEntries b.fields).foldl (fun (c : Credits) e => c.add e.1 e.2) y.received
        let z : Port := { y with received := got }
        exec (.creditBlock m b) s = .next (if (List.range 32).all fun j => decide (z.available j ≤ creditLimit j) then u.setPort m z else u.violation m .badControl 0 0 1 k) ∧
        exec (.ackBlock m b) s = .next (let v := u.setPort m { y with buffer := y.buffer.filter fun e => seqBefore k e.seq, resume := false }
          if y.resume then v.resendFrom m ((k + 1) % 2 ^ 20) else v) ∧
        exec (.retryReq m b) s = .next (let v := (u.setPort m { y with again := countAgain y.again k }).bump F.FPT_LINK_CNT1_retries m 0 1
          if max 1 (v.get F.FPT_CTL_retry_limit m) < (countAgain y.again k).2 then v.retrain m else v.resendFrom m k) ∧
        exec (.violNack m b) s = .next u ∧ exec (.disableMsg m b) s = .next u ∧
        (let j := u.creditSel m;
          exec (.auditMark m b) s = .next (((u.set F.FPT_CREDIT_SNAP0_consumed m 0 (y.consumed.at j)).set F.FPT_CREDIT_SNAP0_issued m 0 (y.issued.at j)).block m 6 0
            [y.consumed.at j, y.issued.at j])) ∧
        (y.audit = none → exec (.auditReturn m b) s = .next u) ∧
        (∀ a, y.audit = some a →
          let counts := [a.spent, b.fields.getD 0 0, y.received.at a.key, b.fields.getD 1 0]
          let bad := a.spent != b.fields.getD 0 0 || y.received.at a.key != b.fields.getD 1 0
          let v := (((u.setPort m { y with audit := none }).set F.FPT_CREDIT_SNAP1_received m 0 (y.received.at a.key)).set F.FPT_AUDIT_done m 0 1).set
            F.FPT_AUDIT_mismatch m 0 (b2n bad)
          let w := if bad then v.misclosure 0 (linkInstance m a.key) counts none none else v
          exec (.auditReturn m b) s = .next (match a.owed with
            | some o => w.final o .ok noDetail (leBytes 1 (if bad then 2 else 0) ++ List.replicate 7 0 ++ counts.flatMap (leBytes 8))
            | none => w)))) ∧
    (let again := x.life.st == .on && x.sub == .quarantined && x.handshake;
      s.native m = true → x.inTraining = true ∨ again = true → s.datum < x.since + msTicks 250 →
      let v := (s.set F.FPT_STATUS_partner_dev m 0 dev.toNat).set F.FPT_STATUS_partner_port m 0 port.toNat
      exec (.trainMsg m dev port version trusted) s = .next (
        if v.get F.FPT_PARTNER_check m = 1 ∧ (v.get F.FPT_PARTNER_dev m ≠ dev.toNat ∨ v.get F.FPT_PARTNER_port m ≠ port.toNat) then v.portTrainFail m 2
        else if !version then v.portTrainFail m 3
        else if !trusted then (v.portTrainFail m 5).event { code := .linkAttestFail, unit := m }
        else if again then v.portGoUp m
        else v.setPort m { x with known := true })) ∧
    (s.native m = true → x.linked = true → x.ackAt + usTicks 1 ≤ s.datum → exec (.linkAckTimer m) s =
      .next (if x.sub = .quarantined then (s.setPort m { x with ackAt := s.datum }).block m 7 0 [] else s.linkAck m))

/-! Names and gateways. -/

/-- R432, R434, R436, R439, R441 (Tables 16.1, 16.2 and 16.5): DEVICE_ID_SET names the device while no job is admitted on it; JOBMAP_WRITE writes the entries
of an admitted job from the current Datum on and drops the lines of the Remote Line Cache whose homes they move; GATEWAY_SET writes a port's registers and
ends the role of a port whose enable it clears; PEER_WRITE adds and removes entries of the peer table, 65,536 of them at most. -/
def Obligations.NamesAndPeers : Prop :=
  ∀ (s : State) (h : CmdHdr) (p : List Byte),
    let t := s.taken h
    let q := h.params p
    let ans : Nat → State → Ans → Res := fun op u a => .next (u.answer (hdrOwed h op) a)
    let j := uAt q 0 2
    let first := uAt q 4 4
    let k := uAt q 8 4
    let es := (List.range k).map fun i => wordAt q (16 + 8 * i)
    let x := t.job j
    let mapped : State := t.setJob j { x with map := es.zipIdx.foldl (fun (m : Tbl Nat (Word × Option Nat)) e => m.put (first + e.2) (e.1, some t.datum)) x.map }
    let n := uAt q 0 1
    let en := uAt q 1 1
    let u := if en = 0 ∧ t.gwRole n = true then t.gwStop n else t
    let v := ((u.set F.GWY_CTL_enable n 0 en).set F.GWY_CTL_udp_port n 0 (uAt q 2 2)).set F.GWY_CTL_mtu n 0 (uAt q 4 2)
    let w := (v.set F.GWY_WC_CFG_timeout_us n 0 (uAt q 6 2)).set F.GWY_WC_CFG_rb_hold_us n 0 (uAt q 8 4)
    let ps := (List.range (uAt q 0 4)).map fun i => bytesAt q (16 + 128 * i) 128
    let table := ps.foldl (fun (t : Tbl Nat (List Byte)) b => if uAt b 4 1 % 8 = 0 then t.del (uAt b 0 4) else t.put (uAt b 0 4) b) t.peers
    (s.takes 0x0507 h p → q.length = 8 → uAt q 0 4 < 2 ^ 20 → uAt q 4 4 = 0 →
      (t.anyAdmitted = true → exec (.deviceIdSet h p) s = ans 0x0507 t (.st .deviceBusy)) ∧
      (t.anyAdmitted = false → exec (.deviceIdSet h p) s = ans 0x0507 { t with sw := { t.sw with devId := uAt q 0 4 } } .ok)) ∧
    (s.takes 0x0304 h p → uAt q 2 2 = 0 → first < 2 ^ 20 → 1 ≤ k → k ≤ 510 → uAt q 12 4 = 0 → q.length = 16 + 8 * k →
      (∀ e ∈ es, fld e 63 26 = 0 ∧ e.getLsbD 23 = false) →
      (t.admitted j = false → exec (.jobmapWrite h p) s = ans 0x0304 t (.st .jobUnknown)) ∧
      (t.admitted j = true → x.life.st = .stopping → exec (.jobmapWrite h p) s = ans 0x0304 t (.st .tornDown)) ∧
      (t.admitted j = true → x.life.st ≠ .stopping → x.n < first + k → exec (.jobmapWrite h p) s = ans 0x0304 t (.st .addressRange)) ∧
      (t.admitted j = true → x.life.st ≠ .stopping → first + k ≤ x.n → exec (.jobmapWrite h p) s = ans 0x0304
        (({ mapped with ep := { mapped.ep with lost := mapped.ep.lost.filter fun e => !(e.1 == j && decide (first ≤ e.2 ∧ e.2 < first + k)) } } : State).dropLines
          fun _ job home _ => job == j && decide (first ≤ home ∧ home < first + k)) .ok)) ∧
    (s.takes 0x0508 h p → q.length = 32 → n ≤ 35 → en = 0 ∨ (en = 1 ∧ t.get F.FPT_CTL_mode n = 1) → 4228 ≤ uAt q 4 2 → uAt q 4 2 ≤ 9194 → uAt q 12 4 = 0 →
      1 ≤ fld (wordAt q 16) 15 0 → fld (wordAt q 16) 15 0 ≤ 2000 → uAt q 30 2 = 0 → t.fdWorks (n / 6) = true →
      (en = 1 → t.get F.GWY_CTL_enable n = 1 → exec (.gatewaySet h p) s = ans 0x0508 t (.st .deviceBusy)) ∧
      (en = 0 ∨ t.get F.GWY_CTL_enable n ≠ 1 →
        exec (.gatewaySet h p) s = ans 0x0508 ((w.setReg ⟨.GWY_XPORT_CFG, n, 0⟩ (wordAt q 16)).setReg ⟨.GWY_DSCP, n, 0⟩ (wordAt q 24)) .ok)) ∧
    (s.takes 0x0509 h p → 1 ≤ uAt q 0 4 → uAt q 0 4 ≤ 31 → uAt q 4 12 = 0 → q.length = 16 + 128 * uAt q 0 4 → (∀ b ∈ ps, peerOk b = true) →
      (65536 < table.length → exec (.peerWrite h p) s = ans 0x0509 t (.st .reservedFull)) ∧
      (table.length ≤ 65536 → exec (.peerWrite h p) s = ans 0x0509 { t with peers := table } .ok))

/-- R439, R440, R443, R444: a frame that leaves through a gateway whose connection has room enters it; a window of stores is flushed once its first frame has
waited its time, and a block of the read buffer lives as long as rb_hold_us says. R446 to R449 (Table 16.6): the transport of a gateway port. DATA of an open
connection advances what is acknowledged and hands its new frames to the switch; an ACK ends the flights it names; HELLO and HELLO_ACK open a connection at
the common version; a flight that is not acknowledged in time goes again, the eighth expiry loses the peer; the rate changes once per round trip; and the port
sends for its connection, or repeats its HELLO. An Ethernet frame that fails its FCS, or is PAUSE or PFC, is counted and does nothing else (R412). -/
def Obligations.GatewayTransport : Prop :=
  (∀ (s : State) (n : Fin 36) (f : Frame) (l : List Frame) (w : WcWindow),
    let g := s.gate n
    (g.inq = f :: l → s.gwRole n = false →
      exec (.gatewayEgress n) s = .next ((s.setGate n { g with inq := l }).egress n f)) ∧
    (g.inq = f :: l → s.gwRole n = true → (∀ c, s.conn? n f.dstDev.toNat = some c → c.ready.length < 8) →
      exec (.gatewayEgress n) s = .next ((s.setGate n { g with inq := l }).egress n f)) ∧
    (∀ c, g.inq = f :: l → s.gwRole n = true → s.conn? n f.dstDev.toNat = some c → 8 ≤ c.ready.length → exec (.gatewayEgress n) s = .next s) ∧
    (g.windows = [w] → w.first + usTicks (s.get F.GWY_WC_CFG_timeout_us n) ≤ s.datum →
      exec (.wcWindowTimeout n) s = .next (w.frames.foldl (fun s f => (s.sentNow f).carry n f)
        ((s.setGate n { g with windows := [] }).bump F.GWY_WC_CNT_timeout n 0 1))) ∧
    (exec (.readBufferExpiry n) s = .next (s.setGate n { g with
      blocks := g.blocks.filter fun b => decide (0 < s.get F.GWY_WC_CFG_rb_hold_us n ∧ s.datum < b.at_ + usTicks (s.get F.GWY_WC_CFG_rb_hold_us n)) }))) ∧
  ∀ (s : State) (n : Fin 36) (d : Dgram) (c : Conn) (dev psn : Nat),
    let id := d.connId.toNat
    let who := d.dev.toNat
    let full := psnFull c.rxCum d.psn.toNat
    let old : Bool := decide (full < c.rxCum) || c.rxAbove.contains full
    let a := psnAdvance (c.rxAbove.length + 1) c.rxCum (c.rxAbove ++ [full])
    let heard : Conn := { c with rxSince := c.rxSince + 1, rxTime := d.txTime.toNat, rxAt := s.datum, rxCe := c.rxCe + b2n d.ce,
                                 ackAt := if c.rxSince = 0 then s.datum else c.ackAt }
    let fresh : Conn := Conn.fresh s.datum (s.get F.GWY_XPORT_CFG_start n)
    let eth : Prop := s.portUp n = true ∧ s.get F.FPT_CTL_mode n = 1
    let dg : Prop := eth ∧ s.gwRole n = true ∧ d.mac = .taken
    let all : Res → Prop := fun r => exec (.gatewayData n d) s = r ∧ exec (.gatewayAck n d) s = r ∧ exec (.hello n d) s = r ∧ exec (.helloAck n d) s = r ∧
      exec (.closeMsg n d) s = r
    let low : Flight → Nat := fun x => x.psn % 2 ^ 32
    let done : Flight → Bool := fun x => decide ((d.cumAck.toNat + 2 ^ 32 - low x) % 2 ^ 32 - 1 < 2 ^ 31 - 1 ∧ d.cumAck.toNat ≠ low x) ||
      d.ranges.any fun r => decide (r.1.toNat ≤ low x ∧ low x ≤ r.2.toNat)
    (eth → (d.mac = .badFcs → all (.next (s.bump F.FPT_ETH_CNT_fcs_errors n 0 1))) ∧ (d.mac = .pause → all (.next (s.bump F.FPT_ETH_CNT_pause_discarded n 0 1)))) ∧
    (dg → s.conn? n id = some c → c.open_ = true →
      (old = true → exec (.gatewayData n d) s = .next (if 4 ≤ c.rxSince + 1 then (s.setConn n id heard).gwAck n id else s.setConn n id heard)) ∧
      (old = false → s.gwFree n < sumOf d.frames cellsOf → exec (.gatewayData n d) s = .next s) ∧
      (old = false → sumOf d.frames cellsOf ≤ s.gwFree n →
        let u := d.frames.foldl (fun s f => s.gwFrame n f)
          (s.setConn n id { heard with rxCum := a.1, rxAbove := a.2, promised := c.promised - sumOf d.frames cellsOf })
        exec (.gatewayData n d) s = .next (if 4 ≤ c.rxSince + 1 then u.gwAck n id else u)) ∧
      (∀ x, c.flights = [x] → done x = true →
        let rtt := (s.datum % 2 ^ 32 + 2 ^ 32 - d.echoTime.toNat) % 2 ^ 32 - d.delay.toNat
        let y := c.sample s.datum rtt
        exec (.gatewayAck n d) s = .next (s.setConn n id { y with
          flights := [], delivered := y.delivered + 1, ceSeen := d.ceCount.toNat, window := d.window.toNat,
          ce := y.ce + if c.version = 2 then (d.ceCount.toNat + 2 ^ 32 - c.ceSeen) % 2 ^ 32 else 0 }))) ∧
    (dg → s.peers.has who = true →
      (commonVersion d.versions.toNat (s.peerVersions who) = none → exec (.hello n d) s = .next (s.event { code := .gatewayVersion, unit := n, params := [who] })) ∧
      (∀ v, commonVersion d.versions.toNat (s.peerVersions who) = some v →
        let opened : Conn → Conn := fun c => { c with version := v, open_ := true, remoteId := id, window := d.window.toNat, rxCum := 0, rxAbove := [], rxSince := 0, rxCe := 0 }
        (s.conn? n who = some c → exec (.hello n d) s = .next ((s.setConn n who (opened c)).dgram n who 4 (opened c) 0 false [])) ∧
        (s.conn? n who = none →
          exec (.hello n d) s = .next (((s.setConn n who fresh).setConn n who (opened fresh)).dgram n who 4 (opened fresh) 0 false [])))) ∧
    (dg → s.conn? n who = some c → c.open_ = false →
      (commonVersion d.versions.toNat (s.peerVersions who) = none →
        exec (.helloAck n d) s = .next ((s.connLost n who).event { code := .gatewayVersion, unit := n, params := [who] })) ∧
      (∀ v, commonVersion d.versions.toNat (s.peerVersions who) = some v → exec (.helloAck n d) s =
        .next (s.setConn n who { c with version := v, open_ := true, remoteId := id, window := d.window.toNat, nextSend := s.datum }))) ∧
    (dg → s.conn? n id = some c → exec (.closeMsg n d) s = .next ((s.setGate n { s.gate n with conns := (s.gate n).conns.del id }).bump F.GWY_DISC_CNT_conn_lost n 0
      (sumOf c.flights (fun x => x.frames.length) + sumOf c.ready fun l => l.length))) ∧
    ((s.gate n).conns = [(dev, c)] → 0 < c.rxSince → c.ackAt + usTicks 8 ≤ s.datum → exec (.gatewayAckTimer n) s = .next (s.gwAck n dev)) ∧
    (∀ x, s.conn? n dev = some c → (c.flights.find? fun y => y.psn == psn) = some x → x.sent + s.rto n c x.expiries ≤ s.datum →
      (x.expiries < 7 →
        let y : Flight := { x with expiries := x.expiries + 1 }
        exec (.retransmissionTimeout n dev psn) s =
          .next (s.resendFlight n dev { c with flights := c.flights.map fun z => if z.psn = psn then y else z } y)) ∧
      (7 ≤ x.expiries →
        exec (.retransmissionTimeout n dev psn) s = .next ((s.connLost n dev).event { code := .gatewayPeerLost, unit := n, params := [dev] }))) ∧
    (s.conn? n dev = some c → c.open_ = true → c.srtt ≠ 0 → c.roundEnd ≤ s.datum → exec (.rateAdjust n dev) s = .next (s.setConn n dev { c with
      rate := c.adjust s.datum (s.get F.GWY_XPORT_CFG_delay_target_us n) (s.get F.GWY_XPORT_CFG_step n), ce := 0, delivered := 0, retrans := false, roundEnd := s.datum + c.srtt })) ∧
    (s.gwRole n = true → (s.gate n).conns = [(dev, c)] → c.maySend s.datum = true →
      exec (.datagramSend n) s = .next ((s.setGate n { s.gate n with rr := dev }).sendReady n dev c)) ∧
    (s.gwRole n = true → (s.gate n).conns = [(dev, c)] → c.maySend s.datum = false → c.open_ = false → c.helloAt + s.rto n c 0 ≤ s.datum →
      exec (.datagramSend n) s = .next ((s.setConn n dev { c with helloAt := s.datum }).dgram n dev 3
        { c with version := if bitOf (s.peerVersions dev) 2 then 2 else 1 } 0 false []))

/-! The Chartroom. -/

/-- R452 to R454, R464 to R469, R560: NOP and DEVICE_INFO answer and change nothing; REG_WRITE writes a register of the register page that is not kept from
it; CHARTROOM_FAILOVER hands over to a working standby; DEVICE_RESET of mode 0 is accepted and begins 1 ms later, and of mode 1 stops the jobs first. -/
def Obligations.DeviceCommands : Prop :=
  ∀ (s : State) (h : CmdHdr) (p : List Byte),
    let t := s.taken h
    let q := h.params p
    let a := uAt q 0 8
    let ans : Nat → State → Ans → Res := fun op u a => .next (u.answer (hdrOwed h op) a)
    (s.takes 0x0100 h p → (q.length = 0 → exec (.nopCommand h p) s = ans 0x0100 t .ok) ∧ (q.length ≠ 0 → exec (.nopCommand h p) s = ans 0x0100 t (.bad 2))) ∧
    (s.takes 0x0101 h p → q.length = 0 → exec (.deviceInfo h p) s = ans 0x0101 t (.data (leBytes 8 t.chtId.toNat ++ leBytes 8 (t.chtStatus t.chtDie).toNat ++
      ((List.range 32).flatMap fun c => leBytes 1 (t.enabledCores c)) ++ t.levelRecord))) ∧
    (s.takes 0x0102 h p → q.length = 16 → a % 8 = 0 →
      (a < 0x30000000000 ∨ 0x3001B000000 ≤ a → exec (.regWrite h p) s = ans 0x0102 t (.st .addressRange)) ∧
      (0x30000000000 ≤ a → a < 0x3001B000000 →
        let o := a - 0x30000000000
        let b := o / 2 ^ 24
        let id := regAt b (o / 2 ^ 16 % 256) (o % 2 ^ 16)
        (regWriteDenied b id = true → exec (.regWrite h p) s = ans 0x0102 t (.st .accessDenied)) ∧
        (regWriteDenied b id = false → id = none → exec (.regWrite h p) s = ans 0x0102 t .ok) ∧
        (∀ r, regWriteDenied b id = false → id = some r → exec (.regWrite h p) s = ans 0x0102 (t.regWrite r (BitVec.ofNat 64 (uAt q 8 8)) none false) .ok))) ∧
    (s.takes 0x0105 h p → q.length = 0 →
      (t.role (1 - t.chtDie) ≠ .standby → exec (.chartroomFailover h p) s = ans 0x0105 t (.st .levelUnavailable)) ∧
      (t.role (1 - t.chtDie) = .standby → exec (.chartroomFailover h p) s = ans 0x0105 (t.takeover 3) .ok)) ∧
    (s.takes 0x0106 h p → q.length = 8 → uAt q 1 7 = 0 →
      (uAt q 0 1 = 0 → exec (.deviceReset h p) s = ans 0x0106 { t with cht := { t.cht with resetAt := some t.datum } } .ok) ∧
      (uAt q 0 1 = 1 → (∀ e ∈ t.jobs, e.2.life.st ≠ .on) →
        exec (.deviceReset h p) s = ans 0x0106 { t with cht := { t.cht with resetOwed := some (hdrOwed h 0x0106, 0) } } (.later true))) ∧
    (∀ a, s.cht.resetAt = some a → a + msTicks 1 ≤ s.datum → s.noneStopping = true → exec .deviceResetBegin s = .next s.deviceReset) ∧
    (∀ o k, s.cht.resetAt = none → s.cht.resetOwed = some (o, k) → (∀ e ∈ s.jobs, e.2.life.st ≠ .stopping) →
      exec .deviceResetBegin s = .next (s.final o .ok noDetail (leBytes 4 k)).deviceReset)

/-- R454, R461 to R463, R473, R474 (Tables 17.10, 17.14 and 17.21 to 17.23): the level samples and their ring, which a source reads from its own cursor; the
heartbeat of the active Chartroom, and the takeover when it has been silent; and the registers of a ring pair. A ring that is enabled starts with an empty
ring and a new sequence space. The bytes that the hubs
moved, and the level before the first sample, are free values of the model (log 234). -/
def Obligations.TelemetryAndRings : Prop :=
  ∀ (s : State) (h : CmdHdr) (p : List Byte) (die : Fin 2) (n : Fin 16) (w : Word) (v : BitVec 32),
    let t := s.taken h
    let q := h.params p
    let ans : Nat → State → Ans → Res := fun op u a => .next (u.answer (hdrOwed h op) a)
    let o := hdrOwed h 0x0B01
    let x := t.src (t.trueSrc o.src)
    let lost := t.cht.telemSeq - t.cht.telem.length
    let m := s.set F.CHT_RING_CFG_vector die n (fld w 12 8)
    (s.takes 0x0B00 h p → q.length = 4 → uAt q 0 4 = 0 ∨ (10 ≤ uAt q 0 4 ∧ uAt q 0 4 ≤ 1000000) → exec (.telemetrySet h p) s = ans 0x0B00
      (let u := t.set F.CHT_TELEM_sample_us t.chtDie 0 (uAt q 0 4); { u with cht := { t.cht with lastSample := t.datum } }) .ok) ∧
    (s.takes 0x0B01 h p → q.length = 0 → (∀ r ∈ t.cht.telem, r.seq < x.telem) → ∀ r l, t.cht.telem = r :: l →
      exec (.telemetryRead h p) s = ans 0x0B01 (t.setSrc (t.trueSrc o.src) { x with telemLost := lost }) (.data (leBytes 4 (lost - x.telemLost) ++ leBytes 4 0))) ∧
    (∀ r, s.takes 0x0B01 h p → q.length = 0 → t.cht.telem = [r] → x.telem ≤ r.seq → r.bytes.length ≤ 4088 → exec (.telemetryRead h p) s =
      ans 0x0B01 (t.setSrc (t.trueSrc o.src) { x with telem := r.seq + 1, telemLost := lost }) (.data (leBytes 4 (lost - x.telemLost) ++ leBytes 4 0 ++ r.bytes))) ∧
    (s.takes 0x0B02 h p → q.length = 0 →
      (t.cht.level ≠ [] → exec (.levelRead h p) s = ans 0x0B02 t (.data t.cht.level)) ∧
      (t.cht.level = [] → exec (.levelRead h p) s = ans 0x0B02 t.draw (.data ((List.range 64).map (Config.freeByte t.free))))) ∧
    (s.get F.CHT_TELEM_sample_us s.chtDie ≠ 0 → s.cht.lastSample + usTicks (s.get F.CHT_TELEM_sample_us s.chtDie) ≤ s.datum → s.chtActive = true →
      let nat := (List.range 36).filter fun k => s.portUp k && s.native k
      let gws := (List.range 36).filter s.gwRole
      let tx := fun l : List Nat => sumOf l fun k => s.sw.txBytes.getD k 0 - s.cht.base.tx.getD k 0
      let stall := sumOf nat fun k => s.sw.stallUs.getD k 0 - s.cht.base.stall.getD k 0
      let again := sumOf (List.range 36) fun k => s.get F.GWY_DGRAM_CNT_retransmitted k
      let queued := gws.foldl (fun c k => max c (sumOf (List.range 8) (s.outCells k))) 0
      let u := s.draw.telemetry 2 (leBytes 8 (Config.freeWord s.free).toNat ++ leBytes 8 (tx nat) ++ leBytes 8 (tx gws) ++
        leBytes 4 ((s.datum - s.cht.lastSample) / 1000) ++ leBytes 4 stall ++ leBytes 4 queued ++ leBytes 4 (again - s.cht.base.again) ++
        leBytes 1 nat.length ++ leBytes 1 gws.length ++ List.replicate 6 0)
      exec .levelSample s = .next { u with cht := { u.cht with lastSample := u.datum, base := ⟨u.sw.txBytes, u.sw.stallUs, again⟩, level := match u.cht.telem.getLast? with
        | some r => r.bytes
        | none => [] } }) ∧
    (s.chtActive = true → s.cht.beat + usTicks 100 ≤ s.datum → s.dieDead (dieCh s.chtDie) = false → exec .chartroomHeartbeat s =
      .next { s with cht := { s.cht with beat := s.datum, heard := if s.role (1 - s.chtDie) = .standby then s.datum else s.cht.heard } }) ∧
    (s.chtActive = true → s.role (1 - s.chtDie) = .standby → s.cht.heard + usTicks (max 200 (s.get F.CHT_CTL_hb_timeout_us s.chtDie)) ≤ s.datum →
      exec .heartbeatTimeout s = .next (s.takeover 1)) ∧
    (s.ringOn die n = false → w.getLsbD 0 = true → exec (.chtRingCfg die n w) s =
      .next (let u := ((m.set F.CHT_RING_CFG_enable die n 1).setReg ⟨.CHT_RING_DB, die, n⟩ 0).setReg ⟨.CHT_RING_STATUS, die, n⟩ 0
        u.setSrc (.ring die n) { u.src (.ring die n) with expected := none, kept := [] })) ∧
    (s.ringOn die n = w.getLsbD 0 → exec (.chtRingCfg die n w) s = .next m) ∧
    (s.ringOn die n = true → w.getLsbD 0 = false → exec (.chtRingCfg die n w) s = .next ((m.ringOff die n).set F.CHT_RING_CFG_enable die n 0)) ∧
    (exec (.cmdTail die n v) s = .next (s.set F.CHT_RING_DB_cmd_tail die n v.toNat)) ∧
    (s.cht.held = [] → exec (.replyHead die n v) s = .next (s.set F.CHT_RING_DB_reply_head die n v.toNat))

/-! Trust: jobs, peers and debug. -/

/-- R472, R483 to R486, R540 to R543 (Tables 17.8, 18.3 and 20.5): JOB_ADMIT gathers its parts in order, and admits a manifest that the device's owners
signed, and counts a refusal; JOB_TEARDOWN stops a job that is ON and waits for one that is STOPPING; and the steps of a teardown
go on, or are abandoned after the limit. -/
def Obligations.JobLifecycle : Prop :=
  ∀ (s : State) (h : CmdHdr) (p d : List Byte) (ok : Bool) (n : BitVec 16),
    let t := s.taken h
    let q := h.params p
    let o := hdrOwed h 0x0300
    let ans : Nat → State → Ans → Res := fun op u a => .next (u.answer (hdrOwed h op) a)
    let src := t.trueSrc o.src
    let mine : Parts → Bool := fun x => x.src == src && x.op == 0x0300
    let had : List Byte := ((t.sec.parts.find? mine).map Parts.data).getD []
    let rest := t.sec.parts.filter fun x => !mine x
    let u : State := { t with sec := { t.sec with parts := rest } }
    let k := uAt (manifestBody d) 2 2
    let j := h.job.toNat
    let x := t.job j
    (s.takes 0x0300 h p → uAt q 0 4 ≤ 65536 → q.length = 16 + uAt q 8 4 → uAt q 12 4 = 0 → (∀ y, t.sec.parts.find? mine = some y → y.total = uAt q 0 4) →
      (uAt q 4 4 ≠ had.length ∨ uAt q 0 4 < uAt q 4 4 + uAt q 8 4 → exec (.jobAdmit h p ok) s =
        ans 0x0300 (u.bump F.CTC_FAIL_CNT_admit u.chtDie 0 1) (.st .partOrder)) ∧
      (uAt q 4 4 = had.length → had.length + uAt q 8 4 < uAt q 0 4 → exec (.jobAdmit h p ok) s =
        ans 0x0300 { t with sec := { t.sec with parts := ⟨src, 0x0300, uAt q 0 4, had ++ q.drop 16⟩ :: rest } } .ok) ∧
      (uAt q 4 4 = had.length → had.length + uAt q 8 4 = uAt q 0 4 → d = had ++ q.drop 16 →
        (∀ a, u.admitAuth d ok = some a → exec (.jobAdmit h p ok) s = ans 0x0300 (u.bump F.CTC_FAIL_CNT_admit u.chtDie 0 1) a) ∧
        (∀ a, u.admitAuth d ok = none → (u.job k).life.st ≠ .stopping → u.admitRest (manifestBody d) = some a →
          exec (.jobAdmit h p ok) s = ans 0x0300 (u.bump F.CTC_FAIL_CNT_admit u.chtDie 0 1) a) ∧
        (u.admitAuth d ok = none → (u.job k).life.st ≠ .stopping → u.admitRest (manifestBody d) = none →
          exec (.jobAdmit h p ok) s = ans 0x0300 (u.admitJob d) .ok) ∧
        (u.admitAuth d ok = none → (u.job k).life.st = .stopping → (u.job k).life.deferred = none → exec (.jobAdmit h p ok) s =
          ans 0x0300 (u.setJob k { u.job k with life := { (u.job k).life with deferred := some (mkPacket h 0x0300 d) } }) .interim))) ∧
    (s.takes 0x0301 h p → h.jobValid = true → q.length = 0 →
      (x.life.st = .on → exec (.jobTeardown h p) s = ans 0x0301 (t.jobStop j [hdrOwed h 0x0301]) (.later true)) ∧
      (x.life.st = .stopping → x.life.deferred = none → exec (.jobTeardown h p) s = ans 0x0301
        (t.setJob j { x with life := { x.life with disables := x.life.disables ++ [hdrOwed h 0x0301], deferred := none } }) (.later true))) ∧
    (let y := s.job n.toNat;
      y.life.st = .stopping → y.life.step ≠ 5 ∨ s.jobWaits n.toNat = 0 → exec (.teardownStepDone n) s = .next (s.jobStep n.toNat)) ∧
    (let y := s.job n.toNat;
      let w := s.jobWaits n.toNat;
      let z := s.setJob n.toNat { y with counts := (y.counts.1, y.counts.2.1, y.counts.2.2.1, y.counts.2.2.2.1, y.counts.2.2.2.2 + w) };
      let ended := (z.pools.filter fun e => e.2.job == some n.toNat && e.2.present).foldl (fun s e => s.poolFinish e.1) z
      let freed := (ended.ctxsOfJob n.toNat).foldl (fun s k =>
        let r : State := match (s.ctx? k.1 k.2).bind fun x => x.kernel with
          | some m => (s.kernelCores k.1 m).foldl (fun s c => { s with cores := s.cores.del c }) s
          | none => s
        (r.ctxFree k.1 k.2).schedule k.1) ended
      y.life.st = .stopping → y.life.step = 5 → w ≠ 0 →
        (s.elapsed y.life.since s.teardownMs = false → exec (.teardownWaitLimit n) s = .next s) ∧
        (s.elapsed y.life.since s.teardownMs = true → exec (.teardownWaitLimit n) s = .next (freed.jobStep n.toNat)))

/-- R483, R486 to R488, R499 to R501 (Tables 18.4 and 18.5): PEER_ATTEST and the four phases of an attestation, which the origin and the member run in turn
and which ends with the job's key at both; a debug unlock by challenge and token, which disarms what it armed when it ends; and the certificate chains. What a
key or a challenge holds is a free value of the model. -/
def Obligations.AttestationAndDebug : Prop :=
  ∀ (s : State) (h : CmdHdr) (p d : List Byte) (ok sig : Bool) (dev : BitVec 20) (op : Nat),
    let t := s.taken h
    let q := h.params p
    let o := hdrOwed h op
    let answer : State → Ans → Res := fun u a => .next (u.answer o a)
    let src := t.trueSrc o.src
    let mine : Parts → Bool := fun x => x.src == src && x.op == op
    let u : State := { t with sec := { t.sec with parts := t.sec.parts.filter fun x => !mine x } }
    let had : List Byte := ((t.sec.parts.find? mine).map Parts.data).getD []
    let whole : Prop := s.takes op h p ∧ uAt q 0 4 ≤ 65536 ∧ uAt q 4 4 = had.length ∧ had.length + uAt q 8 4 = uAt q 0 4 ∧ q.length = 16 + uAt q 8 4 ∧
      uAt q 12 4 = 0 ∧ (∀ y, t.sec.parts.find? mine = some y → y.total = uAt q 0 4) ∧ d = had ++ q.drop 16
    let j := h.job.toNat
    let peer := uAt d 4 4
    let scope := uAt d 1 1
    let v : State := { u with sec := { u.sec with challenge := none } }
    let w : State := { v with sec := { v.sec with debugEnd := v.datum + uAt d 8 4 * 1000000000 } }
    let c := Config.certChain (uAt d 0 1)
    let part := (c.drop (uAt d 4 4)).take 4072
    let i := uAt d 2 2
    let b := d.drop 8
    let told : Prop := (∃ m, s.mapEntry i peer = some m ∧ fld m 19 0 = dev.toNat) ∧ s.admitted i = true ∧ s.chtActive = true
    let at_ := (s.job i).attests.find? fun a => a.peer == peer
    (whole → op = 0x0900 → h.jobValid = true → d.length = 8 → uAt d 0 1 = 0 → uAt d 1 1 = 0 → uAt d 2 2 = j → peer = 0 → (∀ a ∈ (u.job j).attests, a.peer ≠ 0) →
      (u.mapEntry j 0 = none → exec (.peerAttest h p) s = answer (u.bump F.CTC_FAIL_CNT_admit u.chtDie 0 1) (.st .unmappedDevice)) ∧
      (∀ m, u.mapEntry j 0 = some m → exec (.peerAttest h p) s =
        answer ((u.setAttest j 0 (some ⟨0, 1, some o⟩)).sendPhase (fld m 19 0) 1 j [1, 2, 3, 4]) (.later true))) ∧
    (told →
      (uAt d 0 1 = 1 → at_ = none → (s.job i).own = 0 → (∀ k ∈ [1, 2, 3, 4], (itemOf k 16 b).isSome = true) → exec (.peerAttestPhase dev d ok) s =
        .next ((s.setAttest i peer (some ⟨peer, 2, none⟩)).sendPhase dev.toNat 2 i [1, 2, 3, 4, 5, 6, 7, 8, 9])) ∧
      (∀ a, uAt d 0 1 = 2 → at_ = some a → a.phase = 1 → a.owed.isSome = true → exec (.peerAttestPhase dev d ok) s =
        .next (if s.peerOk i b ok then (s.setAttest i peer (some { a with phase := 3 })).sendPhase dev.toNat 3 i [6, 7, 8, 9] else s.untrusted i peer a.owed)) ∧
      (∀ a, uAt d 0 1 = 3 → at_ = some a → a.phase = 2 → (s.job i).own = 0 → exec (.peerAttestPhase dev d ok) s =
        .next (if s.peerOk i b ok then (s.setAttest i peer none).sendPhase dev.toNat 4 i [10] else s.untrusted i peer none)) ∧
      (∀ a r, uAt d 0 1 = 4 → at_ = some a → a.phase = 3 → ok = true → (itemOf 10 16 b).isSome = true → a.owed = some r →
        let y := s.setAttest i peer none
        exec (.peerAttestPhase dev d ok) s = .next ((y.setJob i { y.job i with key := some s.free }).draw.final r .ok))) ∧
    (whole → op = 0x0901 →
      (d = [] → exec (.debugUnlock h p sig) s = answer { u.draw with sec := { u.sec with challenge := some ((List.range 32).map (Config.freeByte u.free)) } }
        (.data ((List.range 32).map (Config.freeByte u.free)))) ∧
      (d ≠ [] → tokenOk d = true →
        let good : Prop := u.sec.challenge = some (bytesAt d 16 32) ∧ bytesAt d 48 48 = u.sec.target ∧ sig = true ∧ u.sec.owners ≠ [] ∧ (u.sec.jtagKill = true → scope = 1)
        (¬ good → exec (.debugUnlock h p sig) s = answer v (.st .tokenInvalid)) ∧
        (good → v.debugAllowed scope = false → exec (.debugUnlock h p sig) s = answer v (.st .debugConflict)) ∧
        (good → v.debugAllowed scope = true → exec (.debugUnlock h p sig) s = answer ((w.bump F.CTC_DEBUG_unlocks w.chtDie 0 1).setDebug scope) .ok))) ∧
    (s.takes op h p → op = 0x0902 → q.length = 0 → exec (.debugLock h p) s = answer (t.setDebug 0) .ok) ∧
    (s.sec.debugEnd ≤ s.datum → exec .debugTokenExpiry s = .next (s.setDebug 0)) ∧
    (whole → op = 0x0903 → d.length = 8 → uAt d 0 1 ≤ 1 → uAt d 1 3 = 0 →
      exec (.certRead h p) s = answer u (.data (leBytes 4 c.length ++ leBytes 4 (uAt d 4 4) ++ leBytes 4 part.length ++ leBytes 4 0 ++ part)))

/-- R477, R480 to R482, R496, R497, R531: MEM_IMPORT opens what the host's memory holds under the data_key and stores it, and MEM_EXPORT sends the bytes of a
range sealed under it with the next count; the owner's record; the messages of SPDM in the order of their negotiation; a session; and a firmware update, which
standby power alone takes. -/
def Obligations.TransfersAndSessions : Prop :=
  ∀ (s : State) (h : CmdHdr) (p plain owner rec key nonce : List Byte) (fms : List (List Byte)) (serial : BitVec 64) (kill ok slot : Bool) (x : Source)
    (off n : BitVec 16) (cs die : Fin 2) (id : BitVec 32) (w base : Word) (svn : BitVec 8),
    let t := s.taken h
    let q := h.params p
    let i := h.sheet.toNat
    let j := h.job.toNat
    let a := uAt q 0 8
    let len := uAt q 16 4
    let ready : Prop := h.sheetValid = true ∧ h.jobValid = true ∧ len ≤ 2 ^ 22 ∧ t.sheetOn i = true ∧ (t.job j).dataKey.isSome = true ∧ a + len ≤ (t.sheet i).usable
    let dataKey := (t.job j).dataKey.getD []
    let aad := transferAad h a len
    let fresh : Bool := s.sec.owners.getLast? != some owner
    let bad : Prop := ok = false ∨ 4 < fms.length ∨ (fresh = true ∧ 8 ≤ s.sec.owners.length)
    let at_ : Nat → Prop := fun k => k ≤ s.sec.negotiated
    let fm : Option Nat := match x with | .fm e => if s.sec.fmKeys.contains key then some e else none | _ => none
    (s.takes 0x0408 h p → q.length = 52 → len % 16 = 0 → uAt q 20 4 = 0 → uAt q 24 4 = 0 → ready →
      let opened := gcmOpen dataKey (bytesAt q 24 12) aad (hostBytes base.toNat plain (uAt q 8 8) len) (bytesAt q 36 16)
      (opened = none → exec (.memImport h p base plain) s = .next (t.answer (hdrOwed h 0x0408) (.st .importAuth))) ∧
      (∀ b v, opened = some b → t.meets i 2 [(a, len, true)] = (v, none) → exec (.memImport h p base plain) s = .next ((v.write i a b).answer (hdrOwed h 0x0408) .ok)) ∧
      (∀ b v st, opened = some b → t.meets i 2 [(a, len, true)] = (v, some st) → exec (.memImport h p base plain) s = .next (v.answer (hdrOwed h 0x0408) (.st st)))) ∧
    (s.takes 0x0409 h p → q.length = 20 → ready →
      (∀ v, t.meets i 2 [(a, len, false)] = (v, none) →
        let y := v.job j
        let nonce := leBytes 4 1 ++ leBytes 8 y.exports
        let r := gcmSeal (y.dataKey.getD []) nonce aad (v.rd i a len)
        let u := v.setJob j { y with exports := y.exports + 1 }
        exec (.memExport h p) s = .next ((u.send (.host (u.hostDie (hdrOwed h 0x0409).src) (uAt q 8 8) r.1)).answer (hdrOwed h 0x0409) (.data (nonce ++ r.2)))) ∧
      (∀ v st, t.meets i 2 [(a, len, false)] = (v, some st) → exec (.memExport h p) s = .next (v.answer (hdrOwed h 0x0409) (.st st)))) ∧
    ((bad → exec (.ownerRecord owner fms serial kill ok) s = .next (s.event { code := .ownerRefused })) ∧
      (¬ bad → exec (.ownerRecord owner fms serial kill ok) s = .next { s with sec := { s.sec with
        owners := if fresh then s.sec.owners ++ [owner] else s.sec.owners, fmKeys := fms, minSerial := serial.toNat, jtagKill := s.sec.jtagKill || kill } })) ∧
    (let v : State := { s with sec := { s.sec with negotiated := 1 } };
      exec (.getVersion x) s = .next (v.send (.spdm x 4 [0, 0x13]))) ∧
    (at_ 1 → let v : State := { s with sec := { s.sec with negotiated := max 2 s.sec.negotiated } }
      exec (.getCapabilities x) s = .next (v.send (.spdm x 0x61 []))) ∧
    (at_ 2 → let v : State := { s with sec := { s.sec with negotiated := 3 } }
      exec (.negotiateAlgorithms x) s = .next (v.send (.spdm x 0x63 []))) ∧
    (¬ at_ 3 → exec (.getDigests x) s = .next (s.send (.spdm x 0x7F []))) ∧
    (at_ 3 → exec (.getDigests x) s = .next (s.send (.spdm x 1 (sha384 (Config.certChain 0) ++ sha384 (Config.certChain 1)))) ∧
      exec (.getCertificate x cs off n) s = .next (s.send (.spdm x 2 (((Config.certChain cs).drop off.toNat).take n.toNat))) ∧
      exec (.challengeMsg x nonce) s = .next (s.signed x 3 (sha384 (Config.certChain 0) ++ nonce)) ∧
      exec (.getMeasurements x) s = .next (s.signed x 0x60 ((s.measures s.chtDie).flatMap fun l => l)) ∧
      (s.sec.sessions.has id.toNat = false → let v : State := { s with sec := { s.sec with sessions := s.sec.sessions.put id.toNat ⟨x, false, false, s.datum⟩ } }
        exec (.keyExchange x id) s = .next (v.signed x 0x64 ((v.measures v.chtDie).flatMap fun l => l)))) ∧
    (∀ y, s.sec.sessions.find id.toNat = some y → y.src = x →
      (y.ready = false → ok = true →
        let v : State := { s with sec := { s.sec with sessions := s.sec.sessions.put id.toNat { y with ready := true, fm := fm.isSome, heard := s.datum } }, fmSession := fm.or s.fmSession }
        exec (.finishMsg x id key ok) s = .next (v.send (.spdm x 0x65 []))) ∧
      (y.ready = true →
        let v : State := { s with sec := { s.sec with sessions := s.sec.sessions.put id.toNat { y with heard := s.datum } } }
        exec (.heartbeatMsg x id) s = .next (v.send (.spdm x 0x68 [])) ∧ exec (.keyUpdate x id) s = .next (v.send (.spdm x 0x69 []))) ∧
      (let v : State := { s with sec := { s.sec with sessions := s.sec.sessions.del id.toNat }, fmSession := if y.fm then none else s.fmSession };
        exec (.endSession x id) s = .next (v.send (.spdm x 0x6C [])) ∧ exec (.spdmSessionTimeout id) s = .next v)) ∧
    (w.getLsbD 63 = true → exec (.ctcFailInfo die w) s =
      .next (s.setReg ⟨.CTC_FAIL_INFO, die, 0⟩ (BitVec.ofNat 64 ((s.reg ⟨.CTC_FAIL_INFO, die, 0⟩).toNat % 2 ^ 63)))) ∧
    (s.boot.standby = false → exec (.pldmFirmwareUpdate 0 slot svn rec) s = .next s) ∧
    (s.boot.standby = true →
      exec (.pldmFirmwareUpdate 0 slot svn rec) s = .next { s with sec := if slot then { s.sec with slotB := some svn.toNat } else { s.sec with slotA := some svn.toNat } } ∧
      exec (.pldmFirmwareUpdate 1 slot svn rec) s = .next { s with sec := { s.sec with activated := some slot } } ∧
      exec (.pldmFirmwareUpdate 2 slot svn rec) s = .next { s with boot := { s.boot with config := bootConfig rec } })

/-! Power, clocks, heat and ageing. -/

/-- R507, R520, R521, R525, R526: POWER_LIMIT_SET sets the limits of the next 10 µs average; OVERLAY_LOAD stores a signed overlay that is newer than the
stored one and answers how many deltas were clamped; OVERLAY_CLEAR drops it; CONTOUR_REPORT and RETRAIN_SCHEDULE. -/
def Obligations.PowerCommands : Prop :=
  ∀ (s : State) (h : CmdHdr) (p d : List Byte) (sig : Bool),
    let t := s.taken h
    let q := h.params p
    let o := hdrOwed h 0x0801
    let ans : Nat → State → Ans → Res := fun op u a => .next (u.answer (hdrOwed h op) a)
    let mine : Parts → Bool := fun x => x.src == t.trueSrc o.src && x.op == 0x0801
    let had : List Byte := ((t.sec.parts.find? mine).map Parts.data).getD []
    let u : State := { t with sec := { t.sec with parts := t.sec.parts.filter fun x => !mine x } }
    (s.takes 0x0800 h p → q.length = 8 → uAt q 0 4 = 0 ∨ (1000 ≤ uAt q 0 4 ∧ uAt q 0 4 ≤ 4600) → uAt q 4 2 ≤ 10 → 600 ≤ uAt q 6 2 → uAt q 6 2 ≤ 1500 → uAt q 6 2 % 25 = 0 →
      exec (.powerLimitSet h p) s = ans 0x0800
        { t with pw := { t.pw with next := some (if uAt q 0 4 = 0 then 4200 else uAt q 0 4, uAt q 4 2, uAt q 6 2) } } .ok) ∧
    (s.takes 0x0801 h p → uAt q 0 4 ≤ 65536 → uAt q 4 4 = had.length → had.length + uAt q 8 4 = uAt q 0 4 → q.length = 16 + uAt q 8 4 → uAt q 12 4 = 0 →
      (∀ y, t.sec.parts.find? mine = some y → y.total = uAt q 0 4) → d = had ++ q.drop 16 →
      overlayOk d = true → t.sec.owners ≠ [] → bytesAt d 16 48 = t.sec.target →
      (sig = false → exec (.overlayLoad h p sig) s = ans 0x0801 u (.st .tokenInvalid)) ∧
      (∀ x, sig = true → t.pw.stored = some x → overlaySerial d ≤ overlaySerial x → exec (.overlayLoad h p sig) s = ans 0x0801 u (.st .manifestRevoked)) ∧
      (sig = true → (∀ x, t.pw.stored = some x → overlaySerial x < overlaySerial d) → exec (.overlayLoad h p sig) s =
        ans 0x0801 { u with pw := { u.pw with stored := some d } } (.data (leBytes 2 (overlayClamped d))))) ∧
    (s.takes 0x0802 h p → q.length = 0 → exec (.overlayClear h p) s = ans 0x0802 { t with pw := { t.pw with stored := none } } .ok) ∧
    (s.takes 0x0803 h p → q.length = 0 → exec (.contourReport h p) s = ans 0x0803 t (.data t.ageMap)) ∧
    (s.takes 0x0804 h p → q.length = 22 → uAt q 12 8 < 2 ^ 36 → exec (.retrainSchedule h p) s = ans 0x0804
      { t with pw := { t.pw with window := some (uAt q 0 8, uAt q 8 4, uAt q 12 8, uAt q 20 2) } } .ok)

/-- R505, R506, R508 to R510, R512 (Table 19.2): an average within the sustained limit ends an excursion, one above it begins one or throttles; an excursion
ends after excursion_ms; a throttle lowers one step each 10 µs; clocks are raised one step per 100 µs while there is room; and the input's faults lower the
clocks or cut the main power. -/
def Obligations.PowerEvents : Prop :=
  ∀ (s : State) (w mv : BitVec 16) (a : BitVec 10),
    let x := s.newLimits
    let u := (((x.set F.PWR_STATUS_power_w 0 0 w.toNat).set F.PWR_STATUS_input_mv 0 0 mv.toNat).set F.PWR_STATUS_input_a 0 0 a.toNat).restage
    let v := ({ u with pw := { u.pw with excursion := some u.datum } } : State).set F.PWR_STATUS_excursion 0 0 1
    let room : Nat → Nat → Bool := fun stage mhz => decide (s.get F.PWR_STATUS_power_w + Config.sensitivity stage mhz + s.get F.PWR_LIMIT_hyst_w ≤ s.sustained)
    let hot : Nat → Nat → Bool := fun lo hi => s.pw.heat.any fun d => decide (lo ≤ d ∧ d < hi)
    let top := (List.range 32).foldl (fun m d => if s.dieDead d then m else max m (min 1800 (s.fmax d))) 0
    let raise : Bool → State → Res := fun ok u => .next (if ok then ({ u with pw := { u.pw with raised := u.datum } } : State).restage else s)
    let i : State := { s with pw := { s.pw with common := min s.pw.common 600, lowered := s.datum } }
    let c := (s.event { code := .overcurrent }).pin "THERMTRIP_N" false
    (w.toNat ≤ u.sustained → u.pw.excursion = none → u.pw.throttling = none → exec (.powerSample w mv a) s = .next u) ∧
    (w.toNat ≤ u.sustained → u.pw.excursion.isSome = true ∨ u.pw.throttling.isSome = true → exec (.powerSample w mv a) s =
      .next { u.excursionOver with pw := { u.excursionOver.pw with throttling := none } }) ∧
    (u.sustained < w.toNat → u.pw.excursion = none →
      (u.pw.throttling = none → u.pw.readyAt ≤ u.datum → 0 < u.get F.PWR_LIMIT_excursion_ms → exec (.powerSample w mv a) s =
        .next (if v.excLimit ≤ w.toNat then v.throttle v.excLimit else v)) ∧
      (u.pw.throttling.isSome = true ∨ u.datum < u.pw.readyAt ∨ u.get F.PWR_LIMIT_excursion_ms = 0 → exec (.powerSample w mv a) s =
        .next (u.excursionOver.throttle u.sustained))) ∧
    (u.sustained < w.toNat → u.pw.excursion.isSome = true → u.pw.throttling = none → exec (.powerSample w mv a) s =
      .next (if u.excLimit ≤ w.toNat then u.throttle u.excLimit else u)) ∧
    (∀ l, u.sustained < w.toNat → u.pw.excursion.isSome = true → u.pw.throttling = some l →
      let r : State := if w.toNat ≤ l then { u with pw := { u.pw with throttling := none } } else u
      exec (.powerSample w mv a) s = .next (if r.excLimit ≤ w.toNat then r.throttle r.excLimit else r)) ∧
    (∀ b, s.pw.excursion = some b → b + msTicks (s.get F.PWR_LIMIT_excursion_ms) ≤ s.datum →
      exec .excursionEnd s = .next (if s.excursionOver.sustained < s.excursionOver.get F.PWR_STATUS_power_w then s.excursionOver.throttle s.excursionOver.sustained else s.excursionOver)) ∧
    (∀ l, s.pw.throttling = some l →
      (s.pw.lowered + usTicks 10 ≤ s.datum → l < s.get F.PWR_STATUS_power_w → exec .throttleStep s = .next s.lowerOne.1) ∧
      (s.datum < s.pw.lowered + usTicks 10 ∨ s.get F.PWR_STATUS_power_w ≤ l → exec .throttleStep s = .next s) ∧
      exec .clockRaise s = .next s) ∧
    (s.pw.throttling = none → s.pw.raised + usTicks 100 ≤ s.datum → s.pw.lowered + usTicks 100 ≤ s.datum →
      (s.pw.halved = true → exec .clockRaise s = raise (room 5 s.pw.common) { s with pw := { s.pw with halved := false } }) ∧
      (s.pw.halved = false → s.pw.common < s.cclkFloor →
        exec .clockRaise s = raise (room 4 s.pw.common) { s with pw := { s.pw with common := min s.cclkFloor (s.pw.common + 25) } }) ∧
      (s.pw.halved = false → s.cclkFloor ≤ s.pw.common → s.get F.CLK_STATUS_hclk_mhz < 1000 → hot 32 48 = false →
        exec .clockRaise s = raise (room 3 (s.get F.CLK_STATUS_hclk_mhz)) (s.set F.CLK_STATUS_hclk_mhz 0 0 (min 1000 (s.get F.CLK_STATUS_hclk_mhz + 100)))) ∧
      (s.pw.halved = false → s.cclkFloor ≤ s.pw.common → 1000 ≤ s.get F.CLK_STATUS_hclk_mhz ∨ hot 32 48 = true →
        (s.get F.CLK_STATUS_xclk_mhz < 1200 → hot 48 56 = false →
          exec .clockRaise s = raise (room 2 (s.get F.CLK_STATUS_xclk_mhz)) (s.set F.CLK_STATUS_xclk_mhz 0 0 (min 1200 (s.get F.CLK_STATUS_xclk_mhz + 100)))) ∧
        (1200 ≤ s.get F.CLK_STATUS_xclk_mhz ∨ hot 48 56 = true → exec .clockRaise s =
          raise (decide (s.pw.common < top) && room 1 s.pw.common) { s with pw := { s.pw with common := min top (s.pw.common + 25) } }))) ∧
    (exec .inputUndervolt s = .next (((i.set F.CLK_STATUS_xclk_mhz 0 0 (min 900 (s.get F.CLK_STATUS_xclk_mhz))).set F.CLK_STATUS_hclk_mhz 0 0
      (min 800 (s.get F.CLK_STATUS_hclk_mhz))).restage.event { code := .inputUndervolt })) ∧
    (s.boot.mainOk = false → exec .mainPowerCut s = .next s ∧ exec .overcurrent s = .next s) ∧
    (s.boot.mainOk = true → exec .mainPowerCut s = .next s.mainCut ∧
      exec .overcurrent s = .next { c.powerOff with pw := { c.powerOff.pw with tripPin := true } })

/-- R513 to R515, R522 to R526: a thermal sample keeps its highest value, and at the trip limit of a die resets the device, or stops the ports of an FD;
Contour's samples and its plan; the retraining window, which trains one port at a time; and a photonic lane that loses its laser takes a spare or trains
again. -/
def Obligations.HeatAndAgeing : Prop :=
  ∀ (s : State) (d : Fin 70) (t : BitVec 8) (g : Fin 56) (f : BitVec 32) (k : BitVec 16) (n : Fin 6) (low out : BitVec 8) (m : Fin 36) (e : Fin 8) (eh ew : BitVec 16),
    let c := t.toNat
    let x : State := { s with pw := { s.pw with temps := s.pw.temps.put d (c, max c (s.pw.temps.getD d (0, 0)).2) } }
    let y := ((x.event { code := .thermalTrip, cls := some 5, unit := d, die := d.val }).deviceReset).pin "THERMTRIP_N" false
    let z : State := { s with pw := { s.pw with sampled := s.datum } }
    let due : Prop := s.get F.CTR_CTL_enable ≠ 0 ∧ s.pw.sampled + max 1 (s.get F.CTR_CTL_sample_s) * 1000000000 ≤ s.datum
    let r : State := { s with pw := { s.pw with planned := s.datum } }
    let mine : BitVec 8 → List Nat := fun m => ((List.range 8).filter fun k => m.getLsbD k).map fun k => 8 * n.val + k
    let dark : State := { s with pw := { s.pw with dark := (s.pw.dark.filter fun k => k / 8 != n.val) ++ mine low,
                                                   out := (s.pw.out.filter fun k => k / 8 != n.val) ++ mine (low ||| out) } }
    (s.boot.mainOk = false → exec (.thermalSample d t) s = .next x) ∧
    (s.boot.mainOk = true →
      (64 ≤ d.val → exec (.thermalSample d t) s = .next (x.photonicHeat (d - 64) c)) ∧
      (d.val < 64 → tripC d ≤ c → exec (.thermalSample d t) s = .next { y with pw := { y.pw with tripPin := true } }) ∧
      (d.val < 32 → c < tripC d → exec (.thermalSample d t) s = .next (x.cdHeat d c)) ∧
      (56 ≤ d.val → d.val < 62 → c < tripC d → exec (.thermalSample d t) s = .next x) ∧
      (32 ≤ d.val → d.val < 56 → c < tripC d → exec (.thermalSample d t) s = .next (x.kindHeat d c))) ∧
    (due →
      (s.dieDead g = true → exec (.contourSample [(g, f, k)] []) s = .next z) ∧
      (s.dieDead g = false → let u := z.readDie g f.toNat k.toInt
        exec (.contourSample [(g, f, k)] []) s = .next (if g.val < 32 ∧ k.toInt < 5 then u.marginLow g else u)) ∧
      (s.portUp m = true → exec (.contourSample [] [(m, e, eh, ew)]) s =
        .next (z.setReg ⟨.FPT_LANE_MARGIN, m, e⟩ (BitVec.ofNat 64 (eh.toNat * 2 ^ 16 + ew.toNat)))) ∧
      (s.portUp m = false → exec (.contourSample [] [(m, e, eh, ew)]) s = .next z)) ∧
    (s.get F.CTR_CTL_enable ≠ 0 → s.pw.planned + max 3600 (s.get F.CTR_CTL_replan_s) * 1000000000 ≤ s.datum →
      exec .contourReplan s = .next ((List.range 32).foldl (fun s d => if s.dieDead d then s else
        (s.replanCd d).set F.CLK_CCLK_mv 0 d ((s.replanCd d).voltage d ((s.replanCd d).get F.CLK_CCLK_cclk_mhz 0 d))) (r.bump F.CTR_STATUS_replans 0 0 1))) ∧
    (s.pw.window = none → exec .retrainWindow s = .next s) ∧
    (∀ a ms pm hm, s.pw.window = some (a, ms, pm, hm) → a ≤ s.datum → s.datum < a + msTicks ms → s.get F.CTR_CTL_enable ≠ 0 → (∀ i < 16, s.stackFlagged i = false) →
      s.pw.contour = none →
      let moved : Option Nat → Nat → State := fun c pm => { s with pw := { s.pw with contour := c, window := some (a, ms, pm, hm) } }
      match (List.range 36).find? fun p => bitOf pm p && s.portUp p && s.portFlagged p with
        | none => exec .retrainWindow s = .next (moved none pm).relevel
        | some i => exec .retrainWindow s = .next ((moved (some i) (setBits pm i i 0)).retrain i).relevel) ∧
    (exec (.laserInputLow n low out) s = .next ((List.range 6).foldl (fun s k =>
      let i := 6 * n.val + k
      if (s.port i).life.st == .off || s.portLit i then s
      else
        let v : State := match s.freeSpare n.val with
          | some j => { s with pw := { s.pw with spare := s.pw.spare.put i j } }
          | none => s
        v.retrain i) dark))

/-! Errors, start-up and resets. -/

/-- R531 to R534, R545 to R549 (Tables 20.3, 20.8 to 20.10): CLOSURE_CHECK of link credits starts an audit of a native port that is up, and of every other
quantity answers its counts, and reports a misclosure; EVENT_READ and DIAG_READ give what fits; and the reports to the fabric manager go once it has
a session. -/
def Obligations.ErrorCommands : Prop :=
  ∀ (s : State) (h : CmdHdr) (p : List Byte),
    let t := s.taken h
    let q := h.params p
    let ans : Nat → State → Ans → Res := fun op u a => .next (u.answer (hdrOwed h op) a)
    let n := uAt q 8 8
    let port := n % 64
    let key := 4 * (n / 256 % 8) + n / 4096 % 4
    let src := t.trueSrc (hdrOwed h 0x0A03).src
    let x := t.src src
    let lost := t.get F.EVT_LOST_CNT_overwritten
    (s.takes 0x0A02 h p → h.jobValid = true → q.length = 16 → uAt q 1 7 = 0 →
      (uAt q 0 1 = 0 → 36 ≤ port ∨ n ≠ linkInstance port key ∨ t.native port = false ∨ t.portUp port = false → exec (.closureCheck h p) s = ans 0x0A02 t (.st .addressRange)) ∧
      (uAt q 0 1 = 0 → port < 36 → n = linkInstance port key → t.native port = true → t.portUp port = true →
        ((t.port port).audit.isSome = true → exec (.closureCheck h p) s = ans 0x0A02 t (.st .deviceBusy)) ∧
        ((t.port port).audit = none → exec (.closureCheck h p) s = ans 0x0A02 (t.auditStart port key (some (hdrOwed h 0x0A02))) (.later true))) ∧
      (1 ≤ uAt q 0 1 → uAt q 0 1 ≤ 5 →
        (t.closure (uAt q 0 1) n h.job.toNat = none → exec (.closureCheck h p) s = ans 0x0A02 t (.st .addressRange)) ∧
        (∀ v c sh, t.closure (uAt q 0 1) n h.job.toNat = some (v, c, sh) → v ≠ 2 →
          exec (.closureCheck h p) s = ans 0x0A02 t (.data (leBytes 1 v ++ List.replicate 7 0 ++ c.flatMap (leBytes 8)))) ∧
        (∀ c sh, t.closure (uAt q 0 1) n h.job.toNat = some (2, c, sh) → exec (.closureCheck h p) s =
          ans 0x0A02 (t.misclosure (uAt q 0 1) n (if uAt q 0 1 = 2 then (c.drop 1).take 1 ++ c.drop 4 else c) (some h.job.toNat) sh) (.data (leBytes 1 2 ++ List.replicate 7 0 ++ c.flatMap (leBytes 8)))))) ∧
    (s.takes 0x0A03 h p → q.length = 0 →
      let l := (t.ev.ring.filter fun r => decide (x.evt ≤ r.seq)).take 63
      let cur := match l.getLast? with
        | some r => r.seq + 1
        | none => x.evt
      exec (.eventRead h p) s = ans 0x0A03 (t.setSrc src { x with evt := cur, evtLost := lost })
        (.data (leBytes 4 (lost - x.evtLost) ++ leBytes 4 0 ++ l.flatMap EventRec.bytes))) ∧
    (s.takes 0x0A00 h p → q.length = 12 → uAt q 0 1 ≤ 3 → uAt q 1 3 = 0 →
      (t.diagEntries (uAt q 0 1) (uAt q 4 4) = none → exec (.diagRead h p) s = ans 0x0A00 t (.st .addressRange)) ∧
      (∀ l, t.diagEntries (uAt q 0 1) (uAt q 4 4) = some l →
        let m := (l.drop (uAt q 8 4)).take (4088 / max 1 (((l.drop (uAt q 8 4)).headD []).length))
        exec (.diagRead h p) s = ans 0x0A00 t (.data (leBytes 4 m.length ++ m.flatMap id)))) ∧
    (s.fmSession = none → exec .fmReportSend s = .next s) ∧
    (s.fmSession.isSome = true → exec .fmReportSend s = .next (s.ev.fmQueue.foldl (fun s e => s.send (.report { e with reported := true }))
      { s with ev := { s.ev with fmQueue := [], ring := s.ev.ring.map fun r => if (s.ev.fmQueue.map EventRec.seq).contains r.seq then { r with reported := true } else r } }))

/-- R287, R478, R550 to R554, R557, R559, R562 (Tables 18.2, 21.1 and 21.7): standby power begins the boot; a good image of a slot goes on to main power and a
bad one is tried from the other slot, then ends the boot; main power comes within 50 ms or the request is taken back; a die that does not report, or reports a
fault, fails; the photonic engine, the stacks and the link tables end the boot; and the resets. -/
def Obligations.BootSteps : Prop :=
  ∀ (s : State) (die : Fin 2) (slot bench same test cores : Bool) (svn : BitVec 8) (items : List (List Byte)) (d : Fin 64) (n : Fin 6) (st : Fin 16) (us : Nat),
    let b := s.boot
    let tried := b.triedA.contains die.val
    let booting : Prop := s.romSt die = .run ∧ s.get F.CTC_STATUS_boot_step die = 1 ∧ slot = tried
    let i := ((((s.set F.CTC_STATUS_boot_step die 0 2).set F.CTC_SVN_running die 0 svn.toNat).measure die 1 (items.getD 0 zero48)).measure die 2 (items.getD 1 zero48))
    let off := ((s.pin "MAIN_REQ" false).set F.CTC_STATUS_boot_step 0 0 2).set F.CTC_STATUS_boot_step 1 0 2
    let waiting : Prop := b.step = 4 ∧ s.chtActive = true ∧ d.val < 62 ∧ b.seen.contains d.val = false ∧ s.dieDead d = false
    let seen : State := { s with boot := { b with seen := b.seen ++ [d.val] } }
    let k := st.val
    let linked := ((List.range 8).filter fun o => !b.octDown.contains o).foldl (fun s _ => s.reservedLinks)
      { s with boot := { b with step := 9, since := s.datum, complete := true, pools := some true, links := [] } }
    (b.standby = true → exec .standbyPowerValid s = .next s) ∧
    (b.standby = false → exec .standbyPowerValid s = .next (s.bootStart.resetDone 0)) ∧
    (booting → s.sec.svn ≤ svn.toNat → exec (.bootImageVerified die slot svn true items bench) s =
      .next ({ i with boot := { i.boot with verified := i.boot.verified.put die (items, bench), step := max 2 i.boot.step } } : State).mainSteps) ∧
    (booting → slot = false → exec (.bootImageVerified die slot svn false items bench) s = .next { s with boot := { b with triedA := b.triedA ++ [die.val] } }) ∧
    (booting → slot = true → exec (.bootImageVerified die slot svn false items bench) s = .next (s.romFail die 1).chooseActive) ∧
    (b.mainReq = true → b.mainOk = false → exec (.mainOk true) s = .next ({ s with boot := { b with mainOk := true, step := max 3 b.step } } : State).mainSteps) ∧
    (b.mainReq = true → b.mainOk = true → exec (.mainOk false) s = .next s.mainCut) ∧
    (b.mainReq = false → exec (.mainOk false) s = .next { s with boot := { b with mainOk := false } }) ∧
    (b.mainReq = true → b.mainOk = false → b.reqAt + msTicks 50 ≤ s.datum →
      exec .mainOkTimeout s = .next { off with boot := { off.boot with mainReq := false, charged := true, rom0 := .failed, rom1 := .failed, verified := [] } }) ∧
    (b.mainReq = false → exec .mainRailDischarged s = .next ({ s with boot := { b with charged := false } } : State).requestMain) ∧
    (waiting →
      exec (.dieDiscoveryReport d same test cores) s = .next
        (if same = true ∧ test = true ∧ (cores = true ∨ 32 ≤ d.val) then seen else (seen.dieFail d).stepFail 5 d).discovered ∧
      (b.since + msTicks (busUp d + 5) ≤ s.datum → exec (.dieDiscoveryTimeout d) s = .next ((s.dieFail d).stepFail 5 d).discovered) ∧
      (s.datum < b.since + msTicks (busUp d + 5) → exec (.dieDiscoveryTimeout d) s = .next s)) ∧
    (5 ≤ b.step → b.photonic.contains n.val = false → s.fdWorks n = true → b.halted = false →
      exec (.photonicSelfTestComplete n false) s = .next (s.stepFail 6 (dieFd n)) ∧
      ((∀ j < 36, bitOf s.bootPorts.1 j = false) → exec (.photonicSelfTestComplete n true) s = .next { s with boot := { b with photonic := b.photonic ++ [n.val] } })) ∧
    (s.get F.MHB_STATUS_state k = 1 → s.pw.retry.contains k = false →
      let v := (((s.set F.MHB_STATUS_state k 0 2).set F.MHB_STATUS_rate k 0 3).setStack k { s.stack k with refreshed := s.datum, recalAt := s.datum })
      exec (.hbmTrainingComplete st 3) s = .next v.bootPools.relevel) ∧
    (b.step = 8 → b.complete = false → b.since + msTicks 2 ≤ s.datum →
      exec (.linkTableVerify []) s = .next (linked.event { code := .bootComplete, params := [s.get F.DTM_STATUS_state] }).relevel) ∧
    (b.standby = true → b.late = false → b.begun + msTicks 1000 ≤ s.datum → exec .level0Deadline s = .next ({ s with boot := { b with late := true } } : State).chooseActive) ∧
    (exec (.resetN us) s = .next (if 100 ≤ us ∧ b.standby = true then s.deviceReset else s)) ∧
    (exec (.perst die) s = .next (s.functionReset die) ∧ exec (.functionLevelReset die) s = .next (s.functionReset die) ∧ exec .coldReset s = .next (s.wiped true))

/-! The machine as a whole. -/

/-- A step takes the command at the front of the queue and is exec of it with the queue's rest; with no command waiting it is one tick (the model's choice,
log 1). Every command answers a next state in every state: the device never stops (R470: what it refuses it answers). -/
def Obligations.StepRunsFront : Prop :=
  (∀ (s : State) (c : Instr) (rest : List Instr), s.pending = c :: rest → step s = exec c { s with pending := rest }) ∧
  (∀ s : State, s.pending = [] → step s = .next s.tick) ∧
  (∀ (s : State) (c : Instr), ∃ t, exec c s = .next t)

/-- What reset leaves (R8, R432, R452, R499): no command waits and nothing has been sent; there is no job, context, semaphore or core in use and no session of
a fabric manager; every port, sheet and pool is OFF, debug is locked, the device's ID is unassigned, no Chartroom is active, and the registers named here have
the values of their tables. That memory reads as zero, and that the Datum starts at 0, are the model's choices (logs 1 and 2). -/
def Obligations.ResetState : Prop :=
  let s := State.reset
  s.pending = [] ∧ s.mem = [] ∧ Memory.wf s.mem = true ∧ s.datum = 0 ∧ s.out = [] ∧ s.jobs = [] ∧ s.ctxs = [] ∧ s.cores = [] ∧ s.sems = [] ∧ s.fmSession = none ∧
  s.sec.debug = 0 ∧ s.sw.devId = 4095 * 256 ∧ s.chtActive = false ∧ (∀ n < 36, (s.port n).life.st = .off) ∧ (∀ n < 8, (s.sheet n).life.st = .off) ∧
  (∀ n < 1024, (s.pool n).life.st = .off) ∧ s.get F.DGC_CTL_strict = 0 ∧ s.get F.EVT_CTL_teardown_ms = 50 ∧ s.get F.CTR_CTL_enable = 1 ∧ s.get F.CTR_CTL_sample_s = 10 ∧
  s.get F.CTR_CTL_replan_s = 86400 ∧ s.get F.CHT_CTL_hb_timeout_us = 1000 ∧
  (∀ n < 36, s.get F.GWY_WC_CFG_timeout_us n = 20 ∧ s.get F.GWY_WC_CFG_rb_hold_us n = 100 ∧ s.get F.GWY_XPORT_CFG_rto_min_us n = 40)

/-- The memory's canonical form (keys strictly rising, no entry that reads as an unlisted byte) survives every step of every command and every tick. It is the
model's own invariant (log 2). -/
def Obligations.MemoryInvariant : Prop := ∀ s t : State, Memory.wf s.mem = true → step s = .next t → Memory.wf t.mem = true

/-- R288: "A logical device of m octants has 2m hubs, numbered j = 0 to 2m − 1 in ascending physical order. Offset o of its HBM window lies in granule g = o
>> 12. The granule is held by hub j = g mod 2m, at hub address ((g div 2m) << 12) + (o and 0xFFF)." So no two bytes of a sheet share a place: in a sheet whose
octants exist and whose hubs have room, bytes written to a data window read back, every other byte of the sheet reads as before, and so does every byte of a
sheet on other octants. -/
def Obligations.MemoryPlacement : Prop :=
  ∀ (s : State) (i : Nat) (a : Nat) (bs : List Byte),
    let m := (s.sheet i).m
    let t := s.poke i a bs
    let fits : Nat → Prop := fun j => j * (s.sheet j).m + (s.sheet j).m ≤ 8 ∧ 0 < (s.sheet j).m ∧ (s.sheet j).usable ≤ 2 * (s.sheet j).m * 2 ^ 36
    Memory.wf s.mem = true → fits i →
    (∀ o, o < (s.sheet i).usable → o < 2 ^ 40 →
      s.keyOf i o = some (keyHbm (2 * (i * m) + (o >>> 12) % (2 * m)) (((o >>> 12) / (2 * m)) <<< 12 + o % 4096)) ∧ s.hubOf i o = 2 * (i * m) + (o >>> 12) % (2 * m)) ∧
    (s.inData i a bs.length = true → t.rd i a bs.length = bs) ∧
    (s.inData i a bs.length = true → ∀ b, b < a ∨ a + bs.length ≤ b → t.rd i b 1 = s.rd i b 1) ∧
    (∀ j b, fits j → i * m + m ≤ j * (s.sheet j).m ∨ j * (s.sheet j).m + (s.sheet j).m ≤ i * m → t.rd j b 1 = s.rd j b 1) ∧
    Memory.wf t.mem = true

/-- R191 to R193: the tile of a dense row expands to the row again, whatever follows it in memory, and is never more than 8 B longer than the row. -/
def Obligations.TileRoundTrip : Prop :=
  ∀ (code : Nat) (row rest : List Byte), code ≤ 2 → 0 < row.length → row.length % 2 ^ code = 0 → row.length / 2 ^ code ≤ 65536 →
    let t := (compressTile code row).1
    expandTile row.length (t ++ rest) = some (row, t.length) ∧ t.length ≤ row.length + 8

/-- R39, R40, R47 (DEDUCED, log 20): a receiver recovers a whole sequence number from its 32 bits while the number lies within half the space of the one it
expects; executing a number marks that number and no other, and leaves the expected number the lowest one that has not executed; a report of t settles all
numbers up to t. The gateway's packet numbers (R448) are recovered the same way. -/
def Obligations.StreamNumbers : Prop :=
  (∀ e n : Nat, e ≤ n + 2 ^ 31 → n < e + 2 ^ 31 → fullSeq e (n % 2 ^ 32) = n ∧ psnFull e (n % 2 ^ 32) = n) ∧
  (∀ (x : RxStream) (n m : Nat), (x.mark n).executed m = (x.executed m || m == n) ∧ (x.mark n).expected ∉ (x.mark n).done) ∧
  (∀ (x : RxStream) (t m : Nat), (x.reported t).executed m = (x.executed m || decide (m ≤ t)) ∧ (x.reported t).expected ∉ (x.reported t).done)

/-- R258: "A contribution is an FP32 or BF16 value, converted exactly. It changes the EAW as Table 8.6 gives, whatever the order of arrival." The table cell
by cell, a finite contribution counted in units of 2^-149; and any two orders of the same contributions leave the same word. -/
def Obligations.ExactSum : Prop :=
  ∀ (f : FFmt) (n : Nat) (w : Eaw), f = fp32 ∨ f = bf16 →
    (∀ b, f.decode n = .nan b → w.add (f.decode n) = .code 3) ∧
    (∀ neg, f.decode n = .inf neg →
      w.add (f.decode n) = match w with
        | .sum _ => .code (if neg then 2 else 1)
        | .code 0 => .code (if neg then 2 else 1)
        | .code 1 => .code (if neg then 3 else 1)
        | .code 2 => .code (if neg then 2 else 3)
        | .code 3 => .code 3) ∧
    (∀ e, f.decode n = .fin true 0 e → w.add (f.decode n) = w) ∧
    (∀ neg m e, f.decode n = .fin neg m e → neg = false ∨ m ≠ 0 →
      let u : Int := (if neg then -1 else 1) * (m * 2 ^ (e + 149).toNat : Nat)
      e ≥ -149 ∧ w.add (f.decode n) = match w with
        | .sum v => .sum (v + u)
        | .code 0 => .sum u
        | .code c => .code c) ∧
    (∀ l r : List Nat, l.Perm r → (l.map f.decode).foldl Eaw.add w = (r.map f.decode).foldl Eaw.add w)

/-- R401, R402: the frame that an output's arbitration chooses is the oldest of its virtual output queue (its input, its output and its class), so the frames
of one queue leave in the order of arrival; sending it takes that frame, and no other, from the queue. -/
def Obligations.QueueOrder : Prop :=
  ∀ (s : State) (n : Nat) (y : SwFrame), (s.chooseFrame n).2 = some y →
    ∃ l r, s.sw.queue = l ++ y :: r ∧ y.outPort = n ∧ (∀ z ∈ l, z.outPort = n → z.inPort = y.inPort → z.frame.tc ≠ y.frame.tc) ∧
      (s.chooseFrame n).1.sw.queue = s.sw.queue ∧ (s.unqueue y).sw.queue = l ++ r

/-- R203, R207, R209, R210, R224, R236 (Tables 7.2 and 7.14): no core instruction does anything for a core that does not execute, or that its sheet does not
run; a PC outside the kernel's code faults with CODE_RANGE; an encoding that breaks its layout faults with ILLEGAL_OP, an operand that waits for a response
stalls, and a poisoned operand faults with POISON_USE. RDS also moves the model's counter of free values on. -/
def Obligations.CoreGates : Prop :=
  ∀ (s : State) (c : Fin 256) (f : BitVec 56),
    let x := s.core c
    let two : List Instr := [.add c f, .sub c f, .mul c f, .mulhu c f, .mulhs c f, .divu c f, .remu c f, .divs c f, .rems c f, .andInstr c f, .orInstr c f, .xorInstr c f,
      .shl c f, .shr c f, .sar c f, .minu c f, .maxu c f, .mins c f, .maxs c f, .sltu c f, .slts c f, .seq c f, .rotr c f, .hash c f]
    let all : List Instr := [
      .rld c f, .rst c f, .ratom c f, .fence c f, .nop c f, .add c f, .sub c f, .mul c f, .mulhu c f, .mulhs c f, .divu c f, .remu c f, .divs c f,
      .rems c f, .andInstr c f, .orInstr c f, .xorInstr c f, .shl c f, .shr c f, .sar c f, .minu c f, .maxu c f, .mins c f, .maxs c f, .sltu c f,
      .slts c f, .seq c f, .sel c f, .addi c f, .andi c f, .ori c f, .xori c f, .shli c f, .shri c f, .sari c f, .ldi c f, .fadd c f, .fsub c f,
      .fmul c f, .ffma c f, .fmin c f, .fmax c f, .fcmp c f, .fcvt c f, .beq c f, .bne c f, .blts c f, .bges c f, .bltu c f, .bgeu c f, .call c f,
      .jr c f, .popc c f, .clz c f, .ctz c f, .rotr c f] ++ [
      .bext c f, .bins c f, .bswap c f, .hash c f, .brev c f, .lds c f, .sts c f, .vld c f, .vst c f, .vlds c f, .vsts c f, .vadd c f, .vsub c f,
      .vmul c f, .vfma c f, .vmin c f, .vmax c f, .vabs c f, .vneg c f, .vcmp c f, .vsel c f, .vcvt c f, .vbc c f, .viota c f, .vextr c f, .pcnt c f, .plog c f,
      .vexp c f, .vlog c f, .vrcp c f, .vrsqrt c f, .vsigm c f, .vtanh c f, .verf c f, .vsqrt c f, .vrsum c f, .vrmax c f, .vrmin c f, .vand c f,
      .vor c f, .vxor c f, .vshift c f, .wld c f, .mpass c f, .accrd c f, .accz c f, .waitge c f, .waitne c f, .sacq c f, .srel c f, .submit c f,
      .mvi c f, .mvwait c f, .endInstr c f, .wrs c f, .breakInstr c f]
    let drawn : List Instr := [.rds c f]
    (x.run ≠ .running ∨ s.selected c = false → (∀ i ∈ all, exec i s = .next s) ∧ ∀ i ∈ drawn, exec i s = .next s.draw) ∧
    (x.run = .running → s.selected c = true → targetOk x x.pc = false →
      (∀ i ∈ all, exec i s = .next (s.coreFault c .codeRange)) ∧
      ∀ i ∈ drawn, exec i s = .next (s.coreFault c .codeRange).draw) ∧
    (s.issues c →
      (rOk f true true true false 0 = false → ∀ i ∈ two, exec i s = .next (s.coreFault c .illegalOp)) ∧
      (rOk f true true true false 0 = true → rA f ∈ x.loading ∨ rB f ∈ x.loading → ∀ i ∈ two, exec i s = .next s) ∧
      (rOk f true true true false 0 = true → rA f ∉ x.loading → rB f ∉ x.loading → rA f ∈ x.poison ∨ rB f ∈ x.poison →
        ∀ i ∈ two, exec i s = .next (s.coreFault c .poisonUse)))

/-- R316, R461, R464 to R468, R482, R555 (Tables 17.3 and 17.5): what every command packet meets before its own rules. Outside its session it is counted and
dropped; one that the Chartroom cannot take yet waits; a repeated number gets the kept reply again and does nothing, and any other number that is not the next
is refused; a packet whose header, source, level, job or map entry is wrong gets that status and does nothing, a source without the right ACCESS_DENIED among
them. -/
def Obligations.CommandEnvelope : Prop :=
  ∀ (s : State) (h : CmdHdr) (p plain : List Byte) (ok sig : Bool) (base : Word) (i : Instr) (op : Nat),
    let q := h.seq.toNat
    let x := s.src h.src
    let t := s.advanceHead h.src h.length.toNat
    let u := t.setSrc h.src (x.take q)
    let o := hdrOwed h op
    let taken : Prop := s.outsideSession h.src = false ∧ s.acceptable h = true
    (i, op) ∈ ([
      (.regionSet h p, 0x0400), (.layerSet h p, 0x0700), (.gazetteerWrite h p, 0x0701), (.csetWrite h p, 0x0702), (.expertDirWrite h p, 0x0703),
      (.tableCommit h p, 0x0704), (.tableCommitSwitch h p, 0x0704), (.cancelBatch h p, 0x0302), (.poolCreate h p, 0x0401),
      (.poolSetMode h p, 0x0402), (.poolSetThresh h p, 0x0403), (.poolUnquarantine h p, 0x0404), (.poolDestroy h p, 0x0405),
      (.recipeSet h p, 0x0303), (.bucketDefine h p, 0x0406), (.bucketUndefine h p, 0x0407), (.hbmRepair h p, 0x0A01), (.groupDefine h p, 0x0600),
      (.groupUndefine h p, 0x0601), (.collectiveLaunch h p, 0x0602), (.collectiveStatus h p, 0x0603), (.treeStart h p, 0x0604),
      (.treeReparent h p, 0x0605), (.treeEnd h p, 0x0606), (.determinismSet h p, 0x0103), (.launchAt h p ok plain, 0x0104),
      (.sheetCreate h p, 0x0200), (.sheetDestroy h p, 0x0201), (.contextCreate h p, 0x0202), (.contextDestroy h p, 0x0203),
      (.contextResume h p, 0x0204), (.kernelDoorbell h p, 0x0205), (.serveSet h p, 0x0206), (.switchTableWrite h p, 0x0505),
      (.switchExcWrite h p, 0x0506), (.portEnable h p, 0x0500), (.portDisable h p, 0x0501), (.portRetrain h p, 0x0502),
      (.portUnquarantine h p, 0x0503), (.portInject h p, 0x0504)] ++ [
      (.deviceIdSet h p, 0x0507), (.jobmapWrite h p, 0x0304), (.gatewaySet h p, 0x0508), (.peerWrite h p, 0x0509), (.nopCommand h p, 0x0100),
      (.deviceInfo h p, 0x0101), (.regWrite h p, 0x0102), (.chartroomFailover h p, 0x0105), (.deviceReset h p, 0x0106), (.sheetReset h p, 0x0207),
      (.telemetrySet h p, 0x0B00), (.telemetryRead h p, 0x0B01), (.levelRead h p, 0x0B02), (.jobAdmit h p ok, 0x0300), (.jobTeardown h p, 0x0301),
      (.peerAttest h p, 0x0900), (.debugUnlock h p sig, 0x0901), (.debugLock h p, 0x0902), (.certRead h p, 0x0903),
      (.memImport h p base plain, 0x0408), (.memExport h p, 0x0409), (.powerLimitSet h p, 0x0800), (.overlayLoad h p sig, 0x0801),
      (.overlayClear h p, 0x0802), (.contourReport h p, 0x0803), (.retrainSchedule h p, 0x0804), (.closureCheck h p, 0x0A02),
      (.eventRead h p, 0x0A03), (.diagRead h p, 0x0A00)] : List (Instr × Nat)) →
    (s.outsideSession h.src = true → exec i s = .next (s.bump F.CTC_FAIL_CNT_session s.chtDie 0 1)) ∧
    (s.outsideSession h.src = false → s.acceptable h = false → exec i s = .next s) ∧
    (∀ e, taken → x.expected = some e → e ≠ q →
      (∀ r, (q, r) ∈ x.kept → exec i s = .next (t.resendKept o)) ∧
      ((∀ r ∈ x.kept, r.1 ≠ q) → exec i s = .next (t.finalUnkept o .sequence))) ∧
    (taken → x.expected = none ∨ x.expected = some q →
      (∀ d, hdrBad h = some d → exec i s = .next (u.answer o (.bad d))) ∧
      (hdrBad h = none → sourceMay op h.src = false → exec i s = .next (u.answer o (.st .accessDenied))) ∧
      (hdrBad h = none → sourceMay op h.src = true → u.levelOk op h (h.params p) = false → exec i s = .next (u.answer o (.st .levelUnavailable))) ∧
      (hdrBad h = none → sourceMay op h.src = true → u.levelOk op h (h.params p) = true → h.jobValid = true → op ≠ 0x0300 → u.admitted h.job.toNat = false →
        (u.job h.job.toNat).life.st ≠ .stopping → exec i s = .next (u.answer o (.st .jobUnknown))) ∧
      (hdrBad h = none → sourceMay op h.src = true → u.levelOk op h (h.params p) = true → h.jobValid = true → op ≠ 0x0300 → op ≠ 0x0301 →
        (u.job h.job.toNat).life.st = .stopping → exec i s = .next (u.answer o (.st .tornDown))))
end

