-- ==== Sys2Proof/Laws/Command.lean ====
section
/-! SUPPORT. What a command packet does once it is taken and passes the checks of every packet, and what a request frame does once its turn has
come: the two lemmas through which every statement about a command or a request goes. -/

namespace Sys2Proof.Machine

theorem firstFail_none {α : Type} (l : List (Bool × α)) : firstFail l = none ↔ pass l := by
  induction l with
  | nil => simp [firstFail, pass]
  | cons e l ih =>
    obtain ⟨b, x⟩ := e
    cases b <;> simp_all [firstFail, pass]

theorem pass_nil {α : Type} : pass ([] : List (Bool × α)) := fun _ h => by cases h

@[simp] theorem pass_cons {α : Type} (b : Bool) (x : α) (l : List (Bool × α)) : pass ((b, x) :: l) ↔ b = true ∧ pass l := by
  simp [pass]

/-- A packet that is taken has the effect of its body, and its answer (R465). -/
theorem State.command_of_takes {s : State} {op : Nat} {h : CmdHdr} {p : List Byte} (ht : s.takes op h p) (body : CmdBody) :
    s.command op h p body =
      (body (s.taken h) (hdrOwed h op) h (h.params p)).1.answer (hdrOwed h op) (body (s.taken h) (hdrOwed h op) h (h.params p)).2 := by
  obtain ⟨h1, h2, h3, h4⟩ := ht
  have h5 : ((s.src h.src).expected.isSome && (s.src h.src).expected != some h.seq.toNat) = false := by
    rcases h3 with h3 | h3 <;> simp [h3]
  unfold State.command
  rw [if_neg (by simp [h1]), if_neg (by simp [h2])]
  simp only [h5]
  rw [if_neg (by simp)]
  show (match ((s.advanceHead h.src h.length.toNat).setSrc h.src ((s.src h.src).take h.seq.toNat)).cmdCheck op h (h.params p) with
    | some a => _
    | none => _) = _
  rw [h4]
  rfl

/-- A request whose turn has come executes, and what follows it happens (R40, R44). -/
theorem State.request_of_executes {s : State} {f : Frame} {op src : Nat} {o : Bool} (he : s.executes f op src o) :
    s.request f op o = (((s.arrived f).execFrame f src).1.drained f).after := by
  obtain ⟨e1, e2, e3, e4, e5⟩ := he
  have h1 : s.takeIn f = ((s.takeIn f).1, some src) := by rw [← e3]
  have h2 : (if o then (s.takeIn f).1.inOrder f else ((s.takeIn f).1, true)) = ((s.takeIn f).1, true) := by
    cases o
    · rfl
    · simp [State.inOrder, e5 rfl]
  unfold State.request
  rw [if_neg (by simp [e1, e2]), h1]
  simp [e4, h2, State.arrived]

end Sys2Proof.Machine
end

