-- ==== Sys2Proof/Laws/Core.lean ====
section
/-! SUPPORT. What an instruction that issues comes to (R203, R207, R224): the gates in front of the instructions, once. -/

namespace Sys2Proof.Machine

/-- No register of the list waits or is poisoned: the two scans of a gate find nothing. -/
theorem CoreCtx.ready_loading {x : CoreCtx} {l : List Nat} (h : x.ready l) : (l.any fun n => x.loading.contains n) = false := by
  simp only [List.any_eq_false, List.contains_iff_mem]
  exact fun n hn => (h n hn).1

theorem CoreCtx.ready_poison {x : CoreCtx} {l : List Nat} (h : x.ready l) : (l.any fun n => x.poison.contains n) = false := by
  simp only [List.any_eq_false, List.contains_iff_mem]
  exact fun n hn => (h n hn).2

theorem CoreCtx.vready_pending {x : CoreCtx} {l : List Nat} (h : x.vready l) : (l.any fun n => x.vPending.contains n) = false := by
  simp only [List.any_eq_false, List.contains_iff_mem]
  exact h

theorem CoreCtx.ready_mono {x : CoreCtx} {l m : List Nat} (h : x.ready m) (hs : ∀ n ∈ l, n ∈ m) : x.ready l := fun n hn => h n (hs n hn)
theorem CoreCtx.vready_mono {x : CoreCtx} {l m : List Nat} (h : x.vready m) (hs : ∀ n ∈ l, n ∈ m) : x.vready l := fun n hn => h n (hs n hn)

/-- A legal instruction whose registers are ready passes its gate. -/
theorem gate_of_ready {legal : Bool} {srcs : List Nat} {x : CoreCtx} (k : CoreCtx → CoreRes) (hl : legal = true) (hr : x.ready srcs) :
    gate legal srcs k x = k x := by
  unfold gate
  rw [hl, CoreCtx.ready_loading hr, CoreCtx.ready_poison hr]
  rfl

theorem vgate_of_ready {legal : Bool} {srcs vregs : List Nat} {x : CoreCtx} (k : CoreCtx → CoreRes) (hl : legal = true) (hr : x.ready srcs)
    (hv : x.vready vregs) : vgate legal srcs vregs k x = k x := by
  unfold vgate
  rw [gate_of_ready _ hl hr, CoreCtx.vready_pending hv]
  rfl

/-- An instruction at a core that issues: its own effect, in the state as it is. -/
theorem State.issueStep_of_issues {s : State} {c : Nat} (h : s.issues c) (k : State → CoreCtx → State) : s.issueStep c k = k s (s.core c) := by
  unfold State.issueStep
  rw [if_pos ⟨h.1, h.2.1⟩, h.2.2.2]
  rfl

/-- A core that does not execute issues nothing. -/
theorem State.issueStep_of_not_running {s : State} {c : Nat} (h : (s.core c).run ≠ .running) (k : State → CoreCtx → State) : s.issueStep c k = s := by
  unfold State.issueStep
  rw [if_neg fun e => h e.1]

/-- An instruction on the registers alone, at a core that issues: its own function decides. -/
theorem State.coreStep_of_issues {s : State} {c : Nat} (h : s.issues c) {g : CoreCtx → CoreRes} {y : CoreCtx} (hg : g (s.core c) = .ok y) :
    s.coreStep c g = s.setCore c y := by
  rw [State.coreStep, State.issueStep_of_issues h, hg]

/-- An instruction that its function refuses faults (R233). -/
theorem State.coreStep_fault {s : State} {c : Nat} (h : s.issues c) {g : CoreCtx → CoreRes} {st : Status} (hg : g (s.core c) = .fault st) :
    s.coreStep c g = s.coreFault c st := by
  rw [State.coreStep, State.issueStep_of_issues h, hg]

theorem State.coreStep_of_not_running {s : State} {c : Nat} (h : (s.core c).run ≠ .running) (g : CoreCtx → CoreRes) : s.coreStep c g = s :=
  State.issueStep_of_not_running h _

/-- An instruction that reaches memory, the endpoint or an engine, at a core that issues. -/
theorem State.memStep_of_issues {s : State} {c : Nat} (h : s.issues c) {legal : Bool} {srcs vregs : List Nat} (k : State → CoreCtx → State)
    (hl : legal = true) (hr : (s.core c).ready srcs) (hv : (s.core c).vready vregs) : s.memStep c legal srcs vregs k = k s (s.core c) := by
  rw [State.memStep, State.issueStep_of_issues h, vgate_of_ready _ hl hr hv]

theorem State.sysStep_of_issues {s : State} {c : Nat} (h : s.issues c) {legal : Bool} {srcs : List Nat} (k : State → CoreCtx → State)
    (hl : legal = true) (hr : (s.core c).ready srcs) : s.sysStep c legal srcs k = k s (s.core c) :=
  State.memStep_of_issues h k hl hr (by intro n hn; cases hn)

/-! Registers (Table 7.1). -/

@[simp] theorem CoreCtx.rs_zero (x : CoreCtx) : x.rs 0 = 0 := rfl
@[simp] theorem CoreCtx.ws_zero (x : CoreCtx) (w : Word) : x.ws 0 w = x := rfl
@[simp] theorem CoreCtx.rp_zero (x : CoreCtx) : x.rp 0 = BitVec.allOnes 1024 := rfl
@[simp] theorem CoreCtx.wp_zero (x : CoreCtx) (w : PReg) : x.wp 0 w = x := rfl
@[simp] theorem CoreCtx.ws_pc (x : CoreCtx) (n : Nat) (w : Word) : (x.ws n w).pc = x.pc := by unfold CoreCtx.ws; split <;> rfl
@[simp] theorem CoreCtx.ws_fl (x : CoreCtx) (n : Nat) (w : Word) : (x.ws n w).fl = x.fl := by unfold CoreCtx.ws; split <;> rfl
@[simp] theorem CoreCtx.ws_kern (x : CoreCtx) (n : Nat) (w : Word) : (x.ws n w).kern = x.kern := by unfold CoreCtx.ws; split <;> rfl
@[simp] theorem CoreCtx.ws_run (x : CoreCtx) (n : Nat) (w : Word) : (x.ws n w).run = x.run := by unfold CoreCtx.ws; split <;> rfl
@[simp] theorem CoreCtx.ws_v (x : CoreCtx) (n : Nat) (w : Word) : (x.ws n w).v = x.v := by unfold CoreCtx.ws; split <;> rfl
@[simp] theorem CoreCtx.ws_p (x : CoreCtx) (n : Nat) (w : Word) : (x.ws n w).p = x.p := by unfold CoreCtx.ws; split <;> rfl
@[simp] theorem CoreCtx.ws_acc (x : CoreCtx) (n : Nat) (w : Word) : (x.ws n w).acc = x.acc := by unfold CoreCtx.ws; split <;> rfl

end Sys2Proof.Machine
end

