-- ==== Sys2Proof/Laws/Memory.lean ====
section
/-! SUPPORT. The laws of memory: read after write, and that every memory operation keeps the canonical form. -/

namespace Sys2Proof.Machine

theorem Memory.get_above (m : Memory) (a : Nat) (h : Memory.above a m = true) : m.get a = 0#8 := by
  induction m with
  | nil => rfl
  | cons e m ih =>
    obtain ⟨k, b⟩ := e
    simp only [Memory.above, Bool.and_eq_true, decide_eq_true_eq] at h
    simp only [Memory.get]
    rw [if_neg (by omega), ih h.2]

theorem Memory.above_trans (m : Memory) {a b : Nat} (hab : a < b) (h : Memory.above b m = true) :
    Memory.above a m = true := by
  induction m with
  | nil => rfl
  | cons e m ih =>
    obtain ⟨k, c⟩ := e
    simp only [Memory.above, Bool.and_eq_true, decide_eq_true_eq] at h ⊢
    exact ⟨by omega, ih h.2⟩

theorem Memory.above_set (m : Memory) {k a : Nat} {b : Byte} (hk : k < a) (h : Memory.above k m = true) :
    Memory.above k (m.set a b) = true := by
  induction m with
  | nil =>
    simp only [Memory.set]
    split
    · rfl
    · simp [Memory.above, hk]
  | cons e m ih =>
    obtain ⟨k', c⟩ := e
    simp only [Memory.above, Bool.and_eq_true, decide_eq_true_eq] at h
    simp only [Memory.set]
    split
    · split <;> simp [Memory.above, h, hk]
    · split
      · split <;> simp [Memory.above, h, hk]
      · simp [Memory.above, h.1, ih h.2]

/-- A write keeps the canonical form. -/
theorem Memory.wf_set (m : Memory) (a : Nat) (b : Byte) (h : m.wf = true) : (m.set a b).wf = true := by
  induction m with
  | nil =>
    simp only [Memory.set]
    split
    · rfl
    · rename_i hb
      simp [Memory.wf, Memory.above, hb]
  | cons e m ih =>
    obtain ⟨k, c⟩ := e
    simp only [Memory.wf, Bool.and_eq_true, decide_eq_true_eq] at h
    obtain ⟨⟨hc, hab⟩, hm⟩ := h
    simp only [Memory.set]
    split
    · rename_i hak
      split
      · simp [Memory.wf, hc, hab, hm]
      · rename_i hb
        have := Memory.above_trans m hak hab
        simp [Memory.wf, Memory.above, hb, hc, hab, hm, hak, this]
    · split
      · rename_i heq
        subst heq
        split
        · exact hm
        · rename_i hb
          simp [Memory.wf, hb, hab, hm]
      · have hk : k < a := by omega
        simp [Memory.wf, hc, Memory.above_set m hk hab, ih hm]

theorem Memory.wf_setAll (l : List (Nat × Byte)) (m : Memory) (h : m.wf = true) : (m.setAll l).wf = true := by
  unfold Memory.setAll
  induction l generalizing m with
  | nil => exact h
  | cons e l ih => exact ih _ (Memory.wf_set m e.1 e.2 h)

theorem Memory.above_filter (p : Nat × Byte → Bool) (m : Memory) (a : Nat) (h : Memory.above a m = true) :
    Memory.above a (m.filter p) = true := by
  induction m with
  | nil => rfl
  | cons e m ih =>
    obtain ⟨k, c⟩ := e
    simp only [Memory.above, Bool.and_eq_true, decide_eq_true_eq] at h
    rw [List.filter_cons]
    split
    · simp [Memory.above, h.1, ih h.2]
    · exact ih h.2

/-- Zeroization keeps the canonical form. -/
theorem Memory.wf_clear (m : Memory) (p : Nat → Bool) (h : m.wf = true) : (m.clear p).wf = true := by
  unfold Memory.clear
  induction m with
  | nil => rfl
  | cons e m ih =>
    obtain ⟨k, c⟩ := e
    simp only [Memory.wf, Bool.and_eq_true, decide_eq_true_eq] at h
    rw [List.filter_cons]
    split
    · simp [Memory.wf, h.1.1, Memory.above_filter _ m k h.1.2, ih h.2]
    · exact ih h.2

/-- A read of the byte just written gives it, in canonical memory. -/
theorem Memory.get_set_same (m : Memory) (a : Nat) (b : Byte) (h : m.wf = true) : (m.set a b).get a = b := by
  induction m with
  | nil =>
    simp only [Memory.set]
    split
    · rename_i hb; simp [Memory.get, hb]
    · simp [Memory.get]
  | cons e m ih =>
    obtain ⟨k, c⟩ := e
    simp only [Memory.wf, Bool.and_eq_true, decide_eq_true_eq] at h
    obtain ⟨⟨hc, hab⟩, hm⟩ := h
    simp only [Memory.set]
    split
    · rename_i hak
      split
      · rename_i hb
        have := Memory.get_above m a (Memory.above_trans m hak hab)
        simp [Memory.get, hb, this]; omega
      · simp [Memory.get]
    · split
      · rename_i heq
        subst heq
        split
        · rename_i hb
          rw [Memory.get_above m a hab, hb]
        · simp [Memory.get]
      · rename_i hne
        simp [Memory.get, Ne.symm hne, ih hm]

/-- A write leaves every other byte alone. -/
theorem Memory.get_set_other (m : Memory) (a a' : Nat) (b : Byte) (h : a' ≠ a) : (m.set a b).get a' = m.get a' := by
  induction m with
  | nil =>
    simp only [Memory.set]
    split
    · rfl
    · simp [Memory.get, h.symm]
  | cons e m ih =>
    obtain ⟨k, c⟩ := e
    simp only [Memory.set]
    split
    · split
      · rfl
      · simp [Memory.get, h.symm]
    · split
      · rename_i heq
        subst heq
        split
        · simp [Memory.get, h.symm]
        · simp [Memory.get, h.symm]
      · simp [Memory.get, ih]

end Sys2Proof.Machine
end

