-- ==== Sys2Proof/Laws/MemoryKept.lean ====
section
/-! SUPPORT. Every operation that the commands share keeps the memory in its canonical form (Table 2.1): one lemma for each, through which a
proof about a step goes without unfolding the operation. -/

namespace Sys2Proof.Machine

/-- The state's memory has the canonical form. -/
def memWf (s : State) : Prop := Memory.wf s.mem = true

theorem memWf_ite {c : Prop} {_d : Decidable c} {a b : State} (ha : memWf a) (hb : memWf b) : memWf (if c then a else b) := by
  split <;> assumption

theorem memWf_ite_fst {α : Type} {c : Prop} {_d : Decidable c} {a b : State × α} (ha : memWf a.1) (hb : memWf b.1) :
    memWf (if c then a else b).1 := by
  split <;> assumption

theorem memWf_of_eq {α : Type} {r : State × α} {s : State} {x : α} (q : r = (s, x)) (h : memWf r.1) : memWf s := by
  subst q
  exact h

theorem memWf_pair {α : Type} {s : State} {x : α} (h : memWf s) : memWf (s, x).1 := h

theorem memWf_foldl {α : Type} {f : State → α → State} {l : List α} {s : State} (hf : ∀ s x, memWf s → memWf (f s x)) (h : memWf s) :
    memWf (l.foldl f s) := by
  induction l generalizing s with
  | nil => exact h
  | cons a l ih => exact ih (hf s a h)

theorem memWf_foldl_fst {α β : Type} {f : State × β → α → State × β} {l : List α} {s : State × β}
    (hf : ∀ s x, memWf s.1 → memWf (f s x).1) (h : memWf s.1) : memWf (l.foldl f s).1 := by
  induction l generalizing s with
  | nil => exact h
  | cons a l ih => exact ih (hf s a h)

/-- An update of any other field. -/
theorem memWf_mk {x_datum : Nat} {x_free : Nat} {x_regs : Tbl RegId Word} {x_ep : Endpoint} {x_cores : Tbl Nat CoreCtx} {x_guestOn : List
    Nat} {x_movers : Tbl (Nat × Nat) MoverOp} {x_quant : Tbl Nat (List QuantOp)} {x_quantHeld : List (Nat × Nat × Word)} {x_hch : Hachure}
    {x_routing : Tbl Nat Routing} {x_exch : Tbl Nat Exch} {x_surveys : Tbl Nat SurveyRun} {x_svyCache : Tbl Nat SvyCache} {x_plotRuns :
    Tbl Nat PlotRun} {x_deliveries : Tbl Nat (List Delivery)} {x_sheets : Tbl Nat Sheet} {x_ctxs : Tbl (Nat × Nat) Context} {x_sems : Tbl
    (Nat × Nat) Sem} {x_pools : Tbl Nat Pool} {x_nextReq : Nat} {x_marks : List (Nat × Nat)} {x_upsets : Tbl Nat Bool} {x_hubs : Hubs}
    {x_coll : Collect} {x_jobs : Tbl Nat Job} {x_fmSession : Option Nat} {x_sec : Sec} {x_cht : Chartroom} {x_boot : Boot} {x_ev : Events}
    {x_sw : Switch} {x_ports : Tbl Nat Port} {x_gw : Tbl Nat Gateway} {x_peers : Tbl Nat (List Byte)} {x_clock : Clock} {x_pw : Power}
    {x_out : List Out} {x_pending : List Instr} {s : State} (h : memWf s) :
    memWf (State.mk x_datum x_free s.mem x_regs x_ep x_cores x_guestOn x_movers x_quant x_quantHeld x_hch x_routing x_exch x_surveys
      x_svyCache x_plotRuns x_deliveries x_sheets x_ctxs x_sems x_pools x_nextReq x_marks x_upsets x_hubs x_coll x_jobs x_fmSession
      x_sec x_cht x_boot x_ev x_sw x_ports x_gw x_peers x_clock x_pw x_out x_pending) := h

/-- Cells that are cleared. -/
theorem memWf_clear {x_datum : Nat} {x_free : Nat} {x_regs : Tbl RegId Word} {x_ep : Endpoint} {x_cores : Tbl Nat CoreCtx} {x_guestOn :
    List Nat} {x_movers : Tbl (Nat × Nat) MoverOp} {x_quant : Tbl Nat (List QuantOp)} {x_quantHeld : List (Nat × Nat × Word)} {x_hch :
    Hachure} {x_routing : Tbl Nat Routing} {x_exch : Tbl Nat Exch} {x_surveys : Tbl Nat SurveyRun} {x_svyCache : Tbl Nat SvyCache}
    {x_plotRuns : Tbl Nat PlotRun} {x_deliveries : Tbl Nat (List Delivery)} {x_sheets : Tbl Nat Sheet} {x_ctxs : Tbl (Nat × Nat) Context}
    {x_sems : Tbl (Nat × Nat) Sem} {x_pools : Tbl Nat Pool} {x_nextReq : Nat} {x_marks : List (Nat × Nat)} {x_upsets : Tbl Nat Bool}
    {x_hubs : Hubs} {x_coll : Collect} {x_jobs : Tbl Nat Job} {x_fmSession : Option Nat} {x_sec : Sec} {x_cht : Chartroom} {x_boot : Boot}
    {x_ev : Events} {x_sw : Switch} {x_ports : Tbl Nat Port} {x_gw : Tbl Nat Gateway} {x_peers : Tbl Nat (List Byte)} {x_clock : Clock}
    {x_pw : Power} {x_out : List Out} {x_pending : List Instr} {s : State} {p : Nat → Bool} (h : memWf s) :
    memWf (State.mk x_datum x_free (s.mem.clear p) x_regs x_ep x_cores x_guestOn x_movers x_quant x_quantHeld x_hch x_routing x_exch
      x_surveys x_svyCache x_plotRuns x_deliveries x_sheets x_ctxs x_sems x_pools x_nextReq x_marks x_upsets x_hubs x_coll x_jobs
      x_fmSession x_sec x_cht x_boot x_ev x_sw x_ports x_gw x_peers x_clock x_pw x_out x_pending) := Memory.wf_clear _ _ h

theorem State.reset_memWf : memWf State.reset := rfl

theorem State.setReg_memWf {s : State} {id : RegId} {w : Word} (g1 : memWf s) : memWf (State.setReg s id w) := by
  unfold State.setReg
  exact memWf_mk g1

theorem State.set_memWf {s : State} {f : Field} {inst idx v : Nat} (g1 : memWf s) : memWf (State.set s f inst idx v) := by
  unfold State.set
  exact State.setReg_memWf g1

theorem State.bump_memWf {s : State} {f : Field} {inst idx n : Nat} (g1 : memWf s) : memWf (State.bump s f inst idx n) := by
  unfold State.bump
  exact State.set_memWf g1

theorem State.bumpMod_memWf {s : State} {f : Field} {inst idx n : Nat} (g1 : memWf s) : memWf (State.bumpMod s f inst idx n) := by
  unfold State.bumpMod
  exact State.set_memWf g1

theorem State.capture_memWf {s : State} {id : RegId} {w : Nat} {more : List (RegId × Nat)} (g1 : memWf s) :
    memWf (State.capture s id w more) := by
  unfold State.capture
  exact memWf_ite g1 (memWf_foldl (fun _ _ h1 => State.setReg_memWf h1) (State.setReg_memWf g1))

theorem State.rearm_memWf {s : State} {id : RegId} {w : Word} (g1 : memWf s) : memWf (State.rearm s id w) := by
  unfold State.rearm
  exact memWf_ite (State.setReg_memWf g1) g1

theorem State.poke_memWf {s : State} {i : Nat} {a : Nat} {bs : List Byte} (g1 : memWf s) : memWf (s.poke i a bs) :=
  Memory.wf_setAll _ _ g1

theorem State.pokeN_memWf {s : State} {i a n x : Nat} (g1 : memWf s) : memWf (State.pokeN s i a n x) := by
  unfold State.pokeN
  exact State.poke_memWf g1

theorem State.scrPoke_memWf {s : State} {c : Nat} {o : Nat} {bs : List Byte} (g1 : memWf s) : memWf (s.scrPoke c o bs) :=
  Memory.wf_setAll _ _ g1

theorem State.setCore_memWf {s : State} {c : Nat} {x : CoreCtx} (g1 : memWf s) : memWf (State.setCore s c x) := by
  unfold State.setCore
  exact memWf_mk g1

theorem State.wake_memWf {s : State} (g1 : memWf s) : memWf (State.wake s) := by
  unfold State.wake
  exact memWf_mk g1

theorem State.send_memWf {s : State} {o : Out} (g1 : memWf s) : memWf (State.send s o) := by
  unfold State.send
  exact memWf_mk g1

theorem State.draw_memWf {s : State} (g1 : memWf s) : memWf (State.draw s) := by
  unfold State.draw
  exact memWf_mk g1

theorem State.freeBytes_memWf {s : State} {n : Nat} (g1 : memWf s) : memWf (State.freeBytes s n).1 := by
  unfold State.freeBytes
  exact memWf_pair (State.draw_memWf g1)

theorem State.setJob_memWf {s : State} {j : Nat} {x : Job} (g1 : memWf s) : memWf (State.setJob s j x) := by
  unfold State.setJob
  exact memWf_mk g1

theorem State.toFm_memWf {s : State} {e : EventRec} (g1 : memWf s) : memWf (State.toFm s e) := by
  unfold State.toFm
  first | (extract_lets; split) | split | (dsimp only; split)
  · exact State.send_memWf g1
  · exact memWf_mk g1

theorem State.jobCount_memWf {s : State} {j : Option Nat} {cls : Nat} (g1 : memWf s) : memWf (State.jobCount s j cls) := by
  unfold State.jobCount
  first | (extract_lets; split) | split | (dsimp only; split)
  · exact memWf_ite g1 (memWf_mk g1)
  · exact g1

theorem State.event_memWf {s : State} {a : EvArgs} (g1 : memWf s) : memWf (State.event s a) := by
  unfold State.event
  refine memWf_ite ?_ ?_
  · refine memWf_ite ?_ ?_
    · exact State.toFm_memWf (memWf_mk (memWf_mk (State.bump_memWf (State.jobCount_memWf (State.bump_memWf g1)))))
    · exact memWf_mk (State.bump_memWf (State.jobCount_memWf (State.bump_memWf g1)))
  · refine memWf_ite ?_ ?_
    · refine State.toFm_memWf ?_
      exact memWf_mk (memWf_ite (State.bump_memWf (State.jobCount_memWf (State.bump_memWf g1))) (State.jobCount_memWf (State.bump_memWf g1)))
    · exact memWf_mk (memWf_ite (State.bump_memWf (State.jobCount_memWf (State.bump_memWf g1))) (State.jobCount_memWf (State.bump_memWf g1)))

theorem State.jobError_memWf {s : State} {j : Nat} {a : EvArgs} (g1 : memWf s) : memWf (State.jobError s j a) := by
  unfold State.jobError
  exact State.event_memWf (memWf_mk g1)

theorem State.regRefused_memWf {s : State} {block inst : Nat} (g1 : memWf s) : memWf (State.regRefused s block inst) := by
  unfold State.regRefused
  exact State.event_memWf g1

theorem State.misclosure_memWf {s : State} {quantity inst : Nat} {counts : List Nat} {job sheet : Option Nat} (g1 : memWf s) :
    memWf (State.misclosure s quantity inst counts job sheet) := by
  unfold State.misclosure
  exact State.event_memWf (State.bump_memWf g1)

theorem State.jobMisclosure_memWf {s : State} {j : Option Nat} (g1 : memWf s) : memWf (State.jobMisclosure s j) := by
  unfold State.jobMisclosure
  first | (extract_lets; split) | split | (dsimp only; split)
  · exact memWf_ite (State.setJob_memWf g1) g1
  · exact g1

theorem State.captureFault_memWf {s : State} {c : Nat} {st : Status} {info pcv : Nat} (g1 : memWf s) :
    memWf (State.captureFault s c st info pcv) := by
  unfold State.captureFault
  exact State.capture_memWf g1

theorem State.setStack_memWf {s : State} {h : Nat} {x : Stack} (g1 : memWf s) : memWf (State.setStack s h x) := by
  unfold State.setStack
  exact memWf_mk g1

theorem State.lineUe_memWf {s : State} {h l source : Nat} (g1 : memWf s) : memWf (State.lineUe s h l source) := by
  unfold State.lineUe
  first | (extract_lets; split) | split | (dsimp only; split)
  · refine memWf_mk ?_
    refine memWf_ite ?_ ?_
    · exact State.event_memWf (State.event_memWf (State.capture_memWf (State.bump_memWf (memWf_ite (memWf_mk g1) g1))))
    · exact State.event_memWf (State.capture_memWf (State.bump_memWf (memWf_ite (memWf_mk g1) g1)))
  · refine memWf_ite ?_ ?_
    · exact State.event_memWf (State.event_memWf (State.capture_memWf (State.bump_memWf (memWf_ite (memWf_mk g1) g1))))
    · exact State.event_memWf (State.capture_memWf (State.bump_memWf (memWf_ite (memWf_mk g1) g1)))

theorem State.lineCe_memWf {s : State} {h l : Nat} (g1 : memWf s) : memWf (State.lineCe s h l) := by
  unfold State.lineCe
  exact State.setStack_memWf (State.event_memWf (State.bump_memWf (memWf_mk g1)))

theorem State.readUnit_memWf {s : State} {u source : Nat} (g1 : memWf s) : memWf (State.readUnit s u source).1 := by
  unfold State.readUnit
  first | (extract_lets; split) | split | (dsimp only; split)
  · exact memWf_pair (memWf_ite (State.lineCe_memWf g1) (memWf_ite (State.event_memWf (memWf_mk g1)) (State.event_memWf (memWf_mk g1))))
  · exact memWf_pair (memWf_ite (State.lineUe_memWf g1) (memWf_ite (State.event_memWf (State.captureFault_memWf g1)) (State.event_memWf g1)))
  · exact memWf_ite_fst (memWf_pair (State.lineUe_memWf g1)) (memWf_pair g1)

theorem State.readUnits_memWf {s : State} {source : Nat} {l : List Nat} (g1 : memWf s) : memWf (State.readUnits s source l).1 := by
  induction l generalizing s with
  | nil => exact g1
  | cons u l ih => exact memWf_ite_fst (State.readUnit_memWf g1) (ih (State.readUnit_memWf g1))

theorem State.readBad_memWf {s : State} {source : Nat} {l : List Nat} (g1 : memWf s) : memWf (State.readBad s source l).1 := by
  unfold State.readBad
  exact memWf_ite_fst (memWf_pair g1) (memWf_foldl_fst (fun _ _ h1 => memWf_pair (State.readUnit_memWf h1)) (memWf_pair g1))

theorem State.meets_memWf {s : State} {i source : Nat} {l : List (Nat × Nat × Bool)} (g1 : memWf s) :
    memWf (State.meets s i source l).1 := by
  unfold State.meets
  exact memWf_ite_fst (memWf_pair g1) (State.readUnits_memWf g1)

theorem State.scrReads_memWf {s : State} {c : Nat} {l : List (Nat × Nat)} (g1 : memWf s) : memWf (State.scrReads s c l).1 := by
  unfold State.scrReads
  exact memWf_ite_fst (memWf_pair g1) (State.readUnits_memWf g1)

theorem State.freshUnits_memWf {s : State} {i a n : Nat} (g1 : memWf s) : memWf (State.freshUnits s i a n) := by
  unfold State.freshUnits
  exact memWf_ite g1 (memWf_mk g1)

theorem State.zeroize_memWf {s : State} {p : Nat → Bool} (g1 : memWf s) : memWf (s.zeroize p) := memWf_clear g1

theorem State.write_memWf {s : State} {i a : Nat} {bs : List Byte} (g1 : memWf s) : memWf (s.write i a bs) := by
  unfold State.write
  refine memWf_ite (State.wake_memWf (State.poke_memWf g1)) ?_
  exact State.wake_memWf (State.freshUnits_memWf (Memory.wf_setAll _ _ (State.readBad_memWf g1)))

theorem State.writeN_memWf {s : State} {i a n x : Nat} (g1 : memWf s) : memWf (State.writeN s i a n x) := by
  unfold State.writeN
  exact State.write_memWf g1

theorem State.complete_memWf {s : State} {i done tag : Nat} {st : Status} (g1 : memWf s) : memWf (State.complete s i done tag st) := by
  unfold State.complete
  exact memWf_ite g1 (State.writeN_memWf g1)

theorem State.ringReply_memWf {s : State} {die n : Nat} {o : Owed} {r : Reply} (g1 : memWf s) : memWf (State.ringReply s die n o r) := by
  unfold State.ringReply
  refine memWf_ite ?_ ?_
  · exact State.send_memWf (State.send_memWf (memWf_foldl (fun _ _ h1 => State.send_memWf h1) (State.set_memWf (State.send_memWf g1))))
  · exact State.send_memWf (memWf_foldl (fun _ _ h2 => State.send_memWf h2) (State.set_memWf (State.send_memWf g1)))

theorem State.lostReply_memWf {s : State} (g1 : memWf s) : memWf (State.lostReply s) := by
  unfold State.lostReply
  exact State.bump_memWf g1

theorem State.deliver_memWf {s : State} {o : Owed} {r : Reply} (g1 : memWf s) : memWf (State.deliver s o r) := by
  unfold State.deliver
  refine memWf_ite (State.lostReply_memWf (memWf_mk g1)) ?_
  first | (extract_lets; split) | split | (dsimp only; split)
  · exact memWf_ite (State.lostReply_memWf g1) (memWf_ite (State.ringReply_memWf g1) (memWf_mk g1))
  · exact g1
  · exact State.send_memWf g1

theorem releaseHeld_memWf {src : Source} {die n : Nat} {l : List (Owed × Reply)} {s : State} (g1 : memWf s) :
    memWf (releaseHeld src die n l s) := by
  induction l generalizing s with
  | nil => exact g1
  | cons e l ih =>
    simp only [releaseHeld]
    split
    · split
      · exact ih (memWf_mk (State.ringReply_memWf g1))
      · exact g1
    · exact ih g1

theorem State.setSrc_memWf {s : State} {x : Source} {v : SrcState} (g1 : memWf s) : memWf (State.setSrc s x v) := by
  unfold State.setSrc
  exact memWf_mk g1

theorem State.finalPacket_memWf {s : State} {o : Owed} {st : Status} {detail : Nat} {params : List Byte} (g1 : memWf s) :
    memWf (State.finalPacket s o st detail params) := by
  unfold State.finalPacket
  exact State.deliver_memWf (memWf_ite (memWf_mk (State.setSrc_memWf g1)) (State.bump_memWf (memWf_mk (State.setSrc_memWf g1))))

theorem State.launchReply_memWf {s : State} {o : Owed} {skew : Int} {late : Bool} {inner : Status} (g1 : memWf s) :
    memWf (State.launchReply s o skew late inner) := by
  unfold State.launchReply
  exact State.finalPacket_memWf g1

theorem State.final_memWf {s : State} {o : Owed} {st : Status} {detail : Nat} {params : List Byte} (g1 : memWf s) :
    memWf (State.final s o st detail params) := by
  unfold State.final
  first | (extract_lets; split) | split | (dsimp only; split)
  · first | (extract_lets; split) | split | (dsimp only; split)
    · exact State.launchReply_memWf (memWf_mk g1)
    · exact g1
  · exact State.finalPacket_memWf g1

theorem State.finalUnkept_memWf {s : State} {o : Owed} {st : Status} (g1 : memWf s) : memWf (State.finalUnkept s o st) := by
  unfold State.finalUnkept
  exact State.deliver_memWf (State.bump_memWf g1)

theorem State.resendKept_memWf {s : State} {o : Owed} (g1 : memWf s) : memWf (State.resendKept s o) := by
  unfold State.resendKept
  first | (extract_lets; split) | split | (dsimp only; split)
  · exact State.deliver_memWf g1
  · exact g1

theorem State.owe_memWf {s : State} {o : Owed} {committed : Bool} (g1 : memWf s) : memWf (State.owe s o committed) := by
  unfold State.owe
  first | (extract_lets; split) | split | (dsimp only; split)
  · exact g1
  · exact memWf_mk g1

theorem State.answer_memWf {s : State} {o : Owed} {v2 : Ans} (g1 : memWf s) : memWf (State.answer s o v2) := by
  unfold State.answer
  first | (extract_lets; split) | split | (dsimp only; split)
  · exact State.final_memWf g1
  · exact State.owe_memWf g1
  · exact g1
  · exact State.deliver_memWf (State.owe_memWf g1)

theorem State.advanceHead_memWf {s : State} {x : Source} {len : Nat} (g1 : memWf s) : memWf (State.advanceHead s x len) := by
  unfold State.advanceHead
  first | (extract_lets; split) | split | (dsimp only; split)
  · exact State.bumpMod_memWf g1
  · exact g1

theorem State.command_memWf {s : State} {op : Nat} {h : CmdHdr} {p : List Byte} {body : CmdBody} (g1 : memWf s) (g2 : ∀ y1 y2 y3 y4, memWf
    y1 → memWf (body y1 y2 y3 y4).1) :
    memWf (State.command s op h p body) := by
  unfold State.command
  refine memWf_ite (State.bump_memWf g1) ?_
  refine memWf_ite g1 ?_
  refine memWf_ite ?_ ?_
  · exact memWf_ite (State.resendKept_memWf (State.advanceHead_memWf g1)) (State.finalUnkept_memWf (State.advanceHead_memWf g1))
  · first | (extract_lets; split) | split | (dsimp only; split)
    · exact State.answer_memWf (State.setSrc_memWf (State.advanceHead_memWf g1))
    · exact State.answer_memWf (g2 _ _ _ _ (State.bumpMod_memWf (State.setSrc_memWf (State.advanceHead_memWf g1))))

theorem State.launchTear_memWf {s : State} {p : Timed → Bool} (g1 : memWf s) : memWf (State.launchTear s p) := by
  unfold State.launchTear
  exact memWf_foldl (fun _ _ h1 => State.final_memWf h1) (memWf_mk g1)

theorem State.tornDown_memWf {s : State} {l : List Owed} (g1 : memWf s) : memWf (State.tornDown s l) := by
  unfold State.tornDown
  exact memWf_foldl (fun _ _ h1 => State.final_memWf h1) g1

theorem State.finals_memWf {s : State} {l : List (Owed × Status)} (g1 : memWf s) : memWf (State.finals s l) := by
  unfold State.finals
  exact memWf_foldl (fun _ _ h1 => State.final_memWf h1) g1

theorem State.setPort_memWf {s : State} {p : Nat} {x : Port} (g1 : memWf s) : memWf (State.setPort s p x) := by
  unfold State.setPort
  exact memWf_mk g1

theorem State.step8_memWf {s : State} (g1 : memWf s) : memWf (State.step8 s) := by
  unfold State.step8
  exact memWf_ite (memWf_mk g1) g1

theorem State.relevel_memWf {s : State} (g1 : memWf s) : memWf (State.relevel s) := by
  unfold State.relevel
  exact memWf_ite g1 (State.event_memWf (memWf_mk g1))

theorem State.octFail_memWf {s : State} {l : List Nat} (g1 : memWf s) : memWf (State.octFail s l) := by
  unfold State.octFail
  exact memWf_mk g1

theorem State.setDtm_memWf {s : State} {n : Nat} (g1 : memWf s) : memWf (State.setDtm s n) := by
  unfold State.setDtm
  exact State.set_memWf g1

theorem State.loseReference_memWf {s : State} (g1 : memWf s) : memWf (State.loseReference s) := by
  unfold State.loseReference
  exact State.event_memWf (State.setDtm_memWf (memWf_mk g1))

theorem State.upstreamDown_memWf {s : State} {p : Nat} (g1 : memWf s) : memWf (State.upstreamDown s p) := by
  unfold State.upstreamDown
  exact memWf_ite (State.loseReference_memWf g1) g1

theorem State.correct_memWf {s : State} {ticks : Int} (g1 : memWf s) : memWf (State.correct s ticks) := by
  unfold State.correct
  exact memWf_ite (memWf_mk g1) (memWf_ite (State.event_memWf (memWf_mk g1)) (memWf_mk g1))

theorem State.advance_memWf {s : State} (g1 : memWf s) : memWf (State.advance s) := by
  unfold State.advance
  exact memWf_ite (memWf_mk g1) (memWf_ite (memWf_mk g1) (memWf_ite (memWf_mk g1) (memWf_mk g1)))

theorem State.portTo_memWf {s : State} {p : Nat} {x : Port} {reason : Nat} (g1 : memWf s) : memWf (State.portTo s p x reason) := by
  unfold State.portTo
  refine State.relevel_memWf ?_
  refine memWf_ite ?_ ?_
  · exact State.upstreamDown_memWf (State.event_memWf (State.set_memWf (State.setPort_memWf g1)))
  · exact memWf_ite (State.event_memWf (State.set_memWf (State.setPort_memWf g1))) (State.set_memWf (State.setPort_memWf g1))

theorem State.portFail_memWf {s : State} {p reason : Nat} (g1 : memWf s) : memWf (State.portFail s p reason) := by
  unfold State.portFail
  exact State.portTo_memWf (State.set_memWf g1)

theorem State.block_memWf {s : State} {p kind linkSeq : Nat} {fields : List Nat} (g1 : memWf s) :
    memWf (State.block s p kind linkSeq fields) := by
  unfold State.block
  exact State.send_memWf (State.setPort_memWf g1)

theorem State.issueCredit_memWf {s : State} {p k least : Nat} (g1 : memWf s) : memWf (State.issueCredit s p k least) := by
  unfold State.issueCredit
  exact memWf_ite (State.draw_memWf g1) (State.block_memWf (State.setPort_memWf (State.draw_memWf g1)))

theorem State.consume_memWf {s : State} {p k n : Nat} (g1 : memWf s) : memWf (State.consume s p k n) := by
  unfold State.consume
  exact State.setPort_memWf g1

theorem State.leaveInput_memWf {s : State} {p : Nat} {f : Frame} (g1 : memWf s) : memWf (State.leaveInput s p f) := by
  unfold State.leaveInput
  exact memWf_ite g1 (State.issueCredit_memWf g1)

theorem State.handshakeDone_memWf {s : State} {p : Nat} (g1 : memWf s) : memWf (State.handshakeDone s p) := by
  unfold State.handshakeDone
  exact memWf_foldl (fun _ _ h1 => State.issueCredit_memWf h1) (State.setPort_memWf g1)

theorem State.linkAck_memWf {s : State} {p : Nat} (g1 : memWf s) : memWf (State.linkAck s p) := by
  unfold State.linkAck
  exact State.block_memWf (State.setPort_memWf g1)

theorem State.resendFrom_memWf {s : State} {p n : Nat} (g1 : memWf s) : memWf (State.resendFrom s p n) := by
  unfold State.resendFrom
  exact memWf_foldl (fun _ _ h1 => State.send_memWf (State.setPort_memWf h1)) g1

theorem State.retrain_memWf {s : State} {p : Nat} (g1 : memWf s) : memWf (State.retrain s p) := by
  unfold State.retrain
  exact memWf_ite (State.portTo_memWf g1) g1

theorem State.askRetry_memWf {s : State} {p : Nat} (g1 : memWf s) : memWf (State.askRetry s p) := by
  unfold State.askRetry
  refine memWf_ite g1 ?_
  exact memWf_ite (State.retrain_memWf (State.block_memWf (State.setPort_memWf g1))) (State.block_memWf (State.setPort_memWf g1))

theorem State.violation_memWf {s : State} {p : Nat} {v : Viol} {tc lane kind linkSeq : Nat} (g1 : memWf s) :
    memWf (State.violation s p v tc lane kind linkSeq) := by
  unfold State.violation
  refine memWf_ite ?_ ?_
  · refine State.event_memWf ?_
    refine State.portTo_memWf ?_
    refine State.set_memWf ?_
    refine State.setPort_memWf ?_
    refine memWf_ite ?_ ?_
    · exact State.event_memWf (State.block_memWf (State.capture_memWf (State.bump_memWf g1)))
    · exact State.block_memWf (State.capture_memWf (State.bump_memWf g1))
  · refine State.set_memWf ?_
    refine State.setPort_memWf ?_
    refine memWf_ite ?_ ?_
    · exact State.event_memWf (State.block_memWf (State.capture_memWf (State.bump_memWf g1)))
    · exact State.block_memWf (State.capture_memWf (State.bump_memWf g1))

theorem State.linkTook_memWf {s : State} {p : Nat} (g1 : memWf s) : memWf (State.linkTook s p) := by
  unfold State.linkTook
  exact memWf_ite (State.linkAck_memWf (State.setPort_memWf g1)) (State.setPort_memWf g1)

theorem State.injects_memWf {s : State} {p : Nat} {f : Frame} (g1 : memWf s) : memWf (State.injects s p f).1 := by
  unfold State.injects
  refine memWf_ite_fst (memWf_pair g1) ?_
  exact memWf_ite_fst (memWf_pair (State.setPort_memWf g1)) (memWf_ite_fst (memWf_pair (State.setPort_memWf g1)) (memWf_pair (State.setPort_memWf g1)))

theorem State.linkOut_memWf {s : State} {p : Nat} {f : Frame} {corrupt : Bool} (g1 : memWf s) : memWf (State.linkOut s p f corrupt) := by
  unfold State.linkOut
  exact State.send_memWf (State.setPort_memWf g1)

theorem State.linkSend_memWf {s : State} {p : Nat} {f : Frame} (g1 : memWf s) : memWf (State.linkSend s p f) := by
  unfold State.linkSend
  first | (extract_lets; split) | split | (dsimp only; split)
  · exact State.linkOut_memWf (State.linkOut_memWf (State.setPort_memWf (State.injects_memWf g1)))
  · refine memWf_ite ?_ ?_
    · exact memWf_ite (State.bump_memWf (State.injects_memWf g1)) (State.injects_memWf g1)
    · refine memWf_ite ?_ ?_
      · exact State.setPort_memWf (memWf_ite (State.bump_memWf (State.injects_memWf g1)) (State.injects_memWf g1))
      · exact State.linkOut_memWf (memWf_ite (State.bump_memWf (State.injects_memWf g1)) (State.injects_memWf g1))

theorem State.disarm_memWf {s : State} {p : Nat} (g1 : memWf s) : memWf (State.disarm s p) := by
  unfold State.disarm
  exact memWf_ite g1 (State.event_memWf (memWf_foldl (fun _ _ h1 => State.linkOut_memWf h1) (State.setPort_memWf (State.setReg_memWf g1))))

theorem State.disarmAll_memWf {s : State} (g1 : memWf s) : memWf (State.disarmAll s) := by
  unfold State.disarmAll
  exact memWf_foldl (fun _ _ h1 => State.disarm_memWf h1) g1

theorem State.setPool_memWf {s : State} {p : Nat} {x : Pool} (g1 : memWf s) : memWf (State.setPool s p x) := by
  unfold State.setPool
  exact memWf_mk g1

theorem State.putPool_memWf {s : State} {p : Nat} {x : Pool} (g1 : memWf s) : memWf (State.putPool s p x) := by
  unfold State.putPool
  exact memWf_ite (State.setPool_memWf g1) (State.event_memWf (State.setPool_memWf g1))

theorem State.unref_memWf {s : State} {p c : Nat} (g1 : memWf s) : memWf (State.unref s p c) := by
  unfold State.unref
  first | (extract_lets; split) | split | (dsimp only; split)
  · exact memWf_ite (State.putPool_memWf g1) (State.setPool_memWf g1)
  · exact g1

theorem State.quarantineChain_memWf {s : State} {p c : Nat} (g1 : memWf s) : memWf (State.quarantineChain s p c) := by
  unfold State.quarantineChain
  exact State.putPool_memWf g1

theorem State.badPointer_memWf {s : State} {p op ptr agent : Nat} (g1 : memWf s) : memWf (State.badPointer s p op ptr agent) := by
  unfold State.badPointer
  exact State.event_memWf (State.capture_memWf (State.bump_memWf (State.setPool_memWf g1)))

theorem State.poolNoCells_memWf {s : State} {p op ptr : Nat} (g1 : memWf s) : memWf (State.poolNoCells s p op ptr).1 := by
  unfold State.poolNoCells
  refine memWf_ite_fst (memWf_pair (State.putPool_memWf g1)) ?_
  first | (extract_lets; split) | split | (dsimp only; split)
  · exact memWf_pair (State.event_memWf (State.bump_memWf g1))
  · exact memWf_ite_fst (memWf_ite_fst (memWf_pair g1) (memWf_pair (State.setPool_memWf g1))) (memWf_pair (State.unref_memWf g1))

theorem State.poolWait_memWf {s : State} {p : Nat} {r : PoolReq} (g1 : memWf s) : memWf (State.poolWait s p r) := by
  unfold State.poolWait
  exact State.setPool_memWf g1

theorem State.poolShift_memWf {s : State} {p : Nat} {ctl : Bool} (g1 : memWf s) : memWf (State.poolShift s p ctl) := by
  unfold State.poolShift
  first | (extract_lets; split) | split | (dsimp only; split)
  · exact State.setPool_memWf g1
  · exact State.setPool_memWf g1

theorem State.poolTry_memWf {s t : State} {p : Nat} {r : PoolReq} {a : List Nat} (h : s.poolTry p r = some (t, a)) (g1 : memWf s) : memWf t := by
  simp only [State.poolTry] at h
  split at h
  · cases h
  · obtain ⟨b, -, hb⟩ := Option.map_eq_some_iff.mp h
    cases hb
    exact State.putPool_memWf g1

theorem State.setGate_memWf {s : State} {p : Nat} {g : Gateway} (g1 : memWf s) : memWf (State.setGate s p g) := by
  unfold State.setGate
  exact memWf_mk g1

theorem State.setConn_memWf {s : State} {p dev : Nat} {c : Conn} (g1 : memWf s) : memWf (State.setConn s p dev c) := by
  unfold State.setConn
  exact State.setGate_memWf g1

theorem State.dgram_memWf {s : State} {p dev type : Nat} {c : Conn} {psn : Nat} {retrans : Bool} {frames : List Frame} (g1 : memWf s) :
    memWf (State.dgram s p dev type c psn retrans frames) := by
  unfold State.dgram
  refine State.send_memWf ?_
  first | (extract_lets; split) | split | (dsimp only; split)
  · exact State.setConn_memWf g1
  · exact g1

theorem State.hello_memWf {s : State} {p dev : Nat} {c : Conn} (g1 : memWf s) : memWf (State.hello s p dev c) := by
  unfold State.hello
  exact State.dgram_memWf g1

theorem State.newConn_memWf {s : State} {p dev : Nat} (g1 : memWf s) : memWf (State.newConn s p dev) := by
  unfold State.newConn
  exact State.hello_memWf (State.setConn_memWf g1)

theorem State.carry_memWf {s : State} {p : Nat} {f : Frame} (g1 : memWf s) : memWf (s.carry p f) := by
  unfold State.carry
  extract_lets dev s1
  have h : memWf s1 := by
    show memWf (match s.conn? p dev with | some _ => s | none => s.newConn p dev)
    split
    · exact g1
    · exact State.newConn_memWf g1
  clear_value s1
  refine memWf_ite (State.bump_memWf g1) ?_
  split
  · exact h
  · exact State.setConn_memWf h

theorem State.sentNow_memWf {s : State} {f : Frame} (g1 : memWf s) : memWf (State.sentNow s f) := by
  unfold State.sentNow
  exact memWf_mk g1

theorem State.flush_memWf {s : State} {p : Nat} {w : WcWindow} {cause : Field} (g1 : memWf s) : memWf (State.flush s p w cause) := by
  unfold State.flush
  exact memWf_foldl (fun _ _ h1 => State.carry_memWf (State.sentNow_memWf h1)) (State.bump_memWf (State.setGate_memWf g1))

theorem State.fenceFlush_memWf {s : State} {keys : List StreamKey} (g1 : memWf s) : memWf (State.fenceFlush s keys) := by
  unfold State.fenceFlush
  exact memWf_foldl (fun _ _ h1 => State.flush_memWf h1) g1

theorem State.wcJoin_memWf {s : State} {p : Nat} {f : Frame} (g1 : memWf s) : memWf (State.wcJoin s p f) := by
  unfold State.wcJoin
  first | (extract_lets; split) | split | (dsimp only; split)
  · refine State.setGate_memWf ?_
    refine memWf_ite ?_ g1
    first | (extract_lets; split) | split | (dsimp only; split)
    · exact State.flush_memWf g1
    · exact g1
  · refine memWf_ite ?_ ?_
    · refine State.setGate_memWf ?_
      refine memWf_ite ?_ (State.flush_memWf g1)
      first | (extract_lets; split) | split | (dsimp only; split)
      · exact State.flush_memWf (State.flush_memWf g1)
      · exact State.flush_memWf g1
    · exact memWf_ite (State.flush_memWf (State.setGate_memWf g1)) (State.setGate_memWf g1)

theorem State.orderedFlush_memWf {s : State} {dev : Nat} (g1 : memWf s) : memWf (State.orderedFlush s dev) := by
  unfold State.orderedFlush
  exact memWf_foldl (fun _ _ h1 => State.flush_memWf h1) g1

theorem State.egress_memWf {s : State} {p : Nat} {f : Frame} (g1 : memWf s) : memWf (State.egress s p f) := by
  unfold State.egress
  refine memWf_ite (State.bump_memWf g1) ?_
  exact memWf_ite (State.bump_memWf g1) (memWf_ite (State.wcJoin_memWf g1) (State.carry_memWf (memWf_ite (State.orderedFlush_memWf g1) g1)))

theorem State.connLost_memWf {s : State} {p dev : Nat} (g1 : memWf s) : memWf (State.connLost s p dev) := by
  unfold State.connLost
  first | (extract_lets; split) | split | (dsimp only; split)
  · exact g1
  · exact State.bump_memWf (State.setGate_memWf g1)

theorem State.resendFlight_memWf {s : State} {p dev : Nat} {c : Conn} {x : Flight} (g1 : memWf s) :
    memWf (State.resendFlight s p dev c x) := by
  unfold State.resendFlight
  exact State.dgram_memWf (State.bump_memWf (State.setConn_memWf g1))

theorem State.sendReady_memWf {s : State} {p dev : Nat} {c : Conn} (g1 : memWf s) : memWf (State.sendReady s p dev c) := by
  unfold State.sendReady
  first | (extract_lets; split) | split | (dsimp only; split)
  · exact g1
  · exact State.dgram_memWf (State.bump_memWf (State.setConn_memWf g1))

theorem State.gwStop_memWf {s : State} {p : Nat} (g1 : memWf s) : memWf (State.gwStop s p) := by
  unfold State.gwStop
  refine State.setGate_memWf ?_
  refine memWf_foldl ?_ ?_
  · intro _ _ h1
    first | (extract_lets; split) | split | (dsimp only; split)
    · refine State.dgram_memWf ?_
      refine memWf_foldl ?_ h1
      intro _ _ h2
      first | (extract_lets; split) | split | (dsimp only; split)
      · exact memWf_ite (State.sendReady_memWf h2) h2
      · exact h2
    · refine memWf_foldl ?_ h1
      intro _ _ h3
      first | (extract_lets; split) | split | (dsimp only; split)
      · exact memWf_ite (State.sendReady_memWf h3) h3
      · exact h3
  · exact memWf_foldl (fun _ _ h4 => State.flush_memWf h4) g1

theorem State.sendFrame_memWf {s : State} {f : Frame} (g1 : memWf s) : memWf (State.sendFrame s f) := by
  unfold State.sendFrame
  exact memWf_ite (State.send_memWf g1) (memWf_ite g1 (State.send_memWf g1))

theorem State.setStream_memWf {s : State} {k : StreamKey} {x : Stream} (g1 : memWf s) : memWf (State.setStream s k x) := by
  unfold State.setStream
  exact memWf_mk g1

theorem State.sendPlan_memWf {s : State} {k : StreamKey} {id : Nat} {p : PlanFrame} (g1 : memWf s) : memWf (State.sendPlan s k id p) := by
  unfold State.sendPlan
  exact State.sendFrame_memWf (memWf_mk (State.setStream_memWf g1))

theorem State.setLines_memWf {s : State} {l : List RlcLine} (g1 : memWf s) : memWf (State.setLines s l) := by
  unfold State.setLines
  exact memWf_mk g1

theorem State.dropLines_memWf {s : State} {p : Nat → Nat → Nat → Nat → Bool} (g1 : memWf s) : memWf (State.dropLines s p) := by
  unfold State.dropLines
  exact memWf_mk g1

theorem State.dropWritten_memWf {s : State} {job home a n : Nat} (g1 : memWf s) : memWf (State.dropWritten s job home a n) := by
  unfold State.dropWritten
  exact State.dropLines_memWf g1

theorem State.installLine_memWf {s : State} {x : RlcLine} (g1 : memWf s) : memWf (State.installLine s x) := by
  unfold State.installLine
  exact State.setLines_memWf g1

theorem State.rbTouch_memWf {s : State} {p : Nat} {b : RbBlock} (g1 : memWf s) : memWf (State.rbTouch s p b) := by
  unfold State.rbTouch
  exact memWf_mk (State.bump_memWf g1)

theorem State.opEffect_memWf {s : State} {sheet : Nat} {fin : OpEnd} {st : Status} {data : List Byte} (g1 : memWf s) :
    memWf (State.opEffect s sheet fin st data) := by
  unfold State.opEffect
  refine State.complete_memWf ?_
  first | (extract_lets; split) | split | (dsimp only; split)
  · refine memWf_ite ?_ ?_
    · refine State.wake_memWf ?_
      refine State.scrPoke_memWf ?_
      first | (extract_lets; split) | split | (dsimp only; split)
      · exact memWf_ite (State.setCore_memWf g1) g1
      · exact g1
    · first | (extract_lets; split) | split | (dsimp only; split)
      · exact memWf_ite (State.setCore_memWf g1) g1
      · exact g1
  · first | (extract_lets; split) | split | (dsimp only; split)
    · exact memWf_ite (State.setCore_memWf g1) g1
    · exact g1

theorem State.ownerNote_memWf {s : State} {fin : OpEnd} {st : Status} (g1 : memWf s) : memWf (State.ownerNote s fin st) := by
  unfold State.ownerNote
  first | (extract_lets; split) | split | (dsimp only; split)
  · exact memWf_mk g1
  · exact g1

theorem State.failAtIssue_memWf {s : State} {k : StreamKey} {addr : Word} {fin : OpEnd} {st : Status} (g1 : memWf s) :
    memWf (State.failAtIssue s k addr fin st) := by
  unfold State.failAtIssue
  exact State.ownerNote_memWf (State.opEffect_memWf (memWf_mk (State.setStream_memWf g1)))

theorem State.setOp_memWf {s : State} {o : RemoteOp} (g1 : memWf s) : memWf (State.setOp s o) := by
  unfold State.setOp
  exact memWf_mk g1

theorem State.dropOp_memWf {s : State} {id : Nat} (g1 : memWf s) : memWf (State.dropOp s id) := by
  unfold State.dropOp
  exact memWf_mk g1

theorem State.sendSome_memWf {s : State} {o : RemoteOp} {n : Nat} (g1 : memWf s) : memWf (State.sendSome s o n) := by
  unfold State.sendSome
  exact State.setOp_memWf (memWf_foldl (fun _ _ h1 => State.sendPlan_memWf h1) g1)

theorem State.pieceErr_memWf {s : State} {l : List PlanFrame} (g1 : memWf s) : memWf (State.pieceErr s l).1 := by
  unfold State.pieceErr
  exact memWf_ite_fst (memWf_pair g1) (State.readUnits_memWf g1)

theorem State.pump_memWf {s : State} {id : Nat} (g1 : memWf s) : memWf (State.pump s id) := by
  unfold State.pump
  first | (extract_lets; split) | split | (dsimp only; split)
  · exact g1
  · refine memWf_ite g1 ?_
    refine memWf_ite (State.sendSome_memWf g1) ?_
    first | (extract_lets; split) | split | (dsimp only; split)
    · first | (extract_lets; split) | split | (dsimp only; split)
      · rename_i q
        have h1 := memWf_of_eq q (State.pieceErr_memWf g1)
        exact State.sendSome_memWf h1
      · rename_i q
        have h2 := memWf_of_eq q (State.pieceErr_memWf g1)
        exact State.failAtIssue_memWf (State.dropOp_memWf h2)
    · exact State.failAtIssue_memWf (State.dropOp_memWf g1)

theorem State.issue_memWf {s : State} {k : StreamKey} {addr : Word} {fin : OpEnd} {plan : Word → List PlanFrame} (g1 : memWf s) :
    memWf (State.issue s k addr fin plan) := by
  unfold State.issue
  exact memWf_ite (State.failAtIssue_memWf g1) (State.pump_memWf (memWf_mk g1))

theorem State.issuePut_memWf {s : State} {sheet agent job src : Nat} {dst : Word} {n tc : Nat} {comp : Bool} {fin : OpEnd} (g1 : memWf s)
    :
    memWf (State.issuePut s sheet agent job src dst n tc comp fin) := by
  unfold State.issuePut
  exact State.issue_memWf (State.dropWritten_memWf g1)

theorem State.issueGather_memWf {s : State} {sheet agent job dst a tc : Nat} {l : List Piece} {fin : OpEnd} (g1 : memWf s) :
    memWf (State.issueGather s sheet agent job dst a tc l fin) := by
  unfold State.issueGather
  exact State.issue_memWf (State.dropWritten_memWf g1)

theorem State.issueNotify_memWf {s : State} {sheet agent job : Nat} {dst sem : Word} {inc : Nat} {data : List Byte} {fin : OpEnd} (g1 :
    memWf s) :
    memWf (State.issueNotify s sheet agent job dst sem inc data fin) := by
  unfold State.issueNotify
  exact State.issue_memWf (State.dropWritten_memWf (memWf_ite g1 (State.dropWritten_memWf g1)))

theorem State.issueRecord_memWf {s : State} {sheet agent job dst : Nat} {rec : List Byte} {fin : OpEnd} (g1 : memWf s) :
    memWf (State.issueRecord s sheet agent job dst rec fin) := by
  unfold State.issueRecord
  exact State.issue_memWf g1

theorem State.issueInval_memWf {s : State} {sheet agent job reader line n : Nat} {fin : OpEnd} (g1 : memWf s) :
    memWf (State.issueInval s sheet agent job reader line n fin) := by
  unfold State.issueInval
  exact State.issue_memWf g1

theorem State.loadMiss_memWf {s : State} {k : StreamKey} {r : CoreRemote} {fin : OpEnd} {cached : Bool} (g1 : memWf s) :
    memWf (State.loadMiss s k r fin cached) := by
  unfold State.loadMiss
  exact State.issue_memWf g1

theorem State.awaits_memWf {s : State} {c : Nat} {r : CoreRemote} (g1 : memWf s) : memWf (State.awaits s c r) := by
  unfold State.awaits
  first | (extract_lets; split) | split | (dsimp only; split)
  · exact memWf_ite g1 (State.setCore_memWf (memWf_mk g1))
  · exact g1

theorem State.issueLoad_memWf {s : State} {c : Nat} {k : StreamKey} {r : CoreRemote} (g1 : memWf s) :
    memWf (State.issueLoad s c k r) := by
  unfold State.issueLoad
  refine memWf_ite ?_ ?_
  · first | (extract_lets; split) | split | (dsimp only; split)
    · exact State.opEffect_memWf (State.installLine_memWf (State.bump_memWf (State.awaits_memWf g1)))
    · first | (extract_lets; split) | split | (dsimp only; split)
      · exact State.opEffect_memWf (State.rbTouch_memWf (State.bump_memWf (State.awaits_memWf g1)))
      · exact State.loadMiss_memWf (State.bump_memWf (State.awaits_memWf g1))
  · exact State.loadMiss_memWf (State.awaits_memWf g1)

theorem State.issueStore_memWf {s : State} {k : StreamKey} {r : CoreRemote} (g1 : memWf s) : memWf (State.issueStore s k r) := by
  unfold State.issueStore
  exact State.issue_memWf (State.dropWritten_memWf g1)

theorem State.issueAtomic_memWf {s : State} {c : Nat} {k : StreamKey} {r : CoreRemote} (g1 : memWf s) :
    memWf (State.issueAtomic s c k r) := by
  unfold State.issueAtomic
  exact State.issue_memWf (State.awaits_memWf (State.dropWritten_memWf g1))

theorem State.issueCore_memWf {s : State} {c : Nat} {r : CoreRemote} (g1 : memWf s) : memWf (State.issueCore s c r) := by
  unfold State.issueCore
  first | (extract_lets; split) | split | (dsimp only; split)
  · exact State.failAtIssue_memWf (State.awaits_memWf g1)
  · exact memWf_ite (State.issueLoad_memWf g1) (memWf_ite (State.issueStore_memWf g1) (State.issueAtomic_memWf g1))

theorem State.regionViol_memWf {s : State} {i a op logical : Nat} (g1 : memWf s) : memWf (State.regionViol s i a op logical) := by
  unfold State.regionViol
  exact State.capture_memWf (State.bump_memWf g1)

theorem State.access_memWf {s : State} {i job own : Nat} {l : List Access1} (g1 : memWf s) : memWf (State.access s i job own l).1 := by
  unfold State.access
  refine memWf_ite_fst (memWf_pair g1) ?_
  first | (extract_lets; split) | split | (dsimp only; split)
  · exact memWf_pair (State.regionViol_memWf g1)
  · exact memWf_pair (State.meets_memWf g1)

theorem State.endFence_memWf {s : State} {f : Fence} (g1 : memWf s) : memWf (s.endFence f).1 := by
  unfold State.endFence
  extract_lets x e1 s1 s2
  have h : memWf s2 := memWf_ite (State.dropLines_memWf (memWf_mk g1)) (memWf_mk g1)
  clear_value s2 x
  split
  · exact memWf_pair h
  · exact memWf_pair (State.capture_memWf h)

theorem State.addFence_memWf {s : State} {sheet agent job : Nat} {scope : Option Nat} {acquire : Bool} {who : FenceFor} (g1 : memWf s) :
    memWf (State.addFence s sheet agent job scope acquire who) := by
  unfold State.addFence
  exact State.fenceFlush_memWf (memWf_mk g1)

theorem State.issueDesc_memWf {s : State} {q : QDesc} {own : Nat} (g1 : memWf s) : memWf (State.issueDesc s q own) := by
  unfold State.issueDesc
  refine memWf_ite ?_ ?_
  · exact State.issue_memWf (State.dropWritten_memWf g1)
  · exact memWf_ite (memWf_ite (State.issuePut_memWf g1) (State.issue_memWf g1)) (State.issueNotify_memWf g1)

theorem State.abortCore_memWf {s : State} {c : Nat} (g1 : memWf s) : memWf (State.abortCore s c) := by
  unfold State.abortCore
  exact memWf_ite (State.setCore_memWf (memWf_mk (State.captureFault_memWf g1))) g1

theorem State.setCtx_memWf {s : State} {i c : Nat} {x : Context} (g1 : memWf s) : memWf (State.setCtx s i c x) := by
  unfold State.setCtx
  exact memWf_mk g1

theorem State.setSheet_memWf {s : State} {i : Nat} {x : Sheet} (g1 : memWf s) : memWf (State.setSheet s i x) := by
  unfold State.setSheet
  exact memWf_mk g1

theorem State.noteFault_memWf {s : State} {i c v : Nat} {st : Status} (g1 : memWf s) : memWf (State.noteFault s i c v st) := by
  unfold State.noteFault
  first | (extract_lets; split) | split | (dsimp only; split)
  · exact State.setCtx_memWf g1
  · exact g1

theorem State.stopKernel_memWf {s : State} {i c : Nat} (g1 : memWf s) : memWf (State.stopKernel s i c) := by
  unfold State.stopKernel
  first | (extract_lets; split) | split | (dsimp only; split)
  · exact memWf_foldl (fun _ _ h1 => State.abortCore_memWf h1) g1
  · exact g1

theorem State.coreStop_memWf {s : State} {c : Nat} {st : Status} {info : Nat} {at_ : Option Nat} (g1 : memWf s) :
    memWf (State.coreStop s c st info at_) := by
  unfold State.coreStop
  exact State.stopKernel_memWf (State.noteFault_memWf (State.setCore_memWf (memWf_mk (State.captureFault_memWf g1))))

theorem State.keepLifts_memWf {s : State} {i : Nat} (g1 : memWf s) : memWf (State.keepLifts s i) := by
  unfold State.keepLifts
  exact memWf_mk g1

theorem State.semRelease_memWf {s : State} {i n : Nat} (g1 : memWf s) : memWf (State.semRelease s i n) := by
  unfold State.semRelease
  first | (extract_lets; split) | split | (dsimp only; split)
  · exact State.keepLifts_memWf (State.setCore_memWf (memWf_mk g1))
  · exact State.keepLifts_memWf (memWf_mk g1)

theorem State.launchKernel_memWf {s : State} {i c : Nat} {x : Context} {d : Nat} (g1 : memWf s) :
    memWf (State.launchKernel s i c x d) := by
  unfold State.launchKernel
  exact State.setCtx_memWf (memWf_foldl (fun _ _ h1 => State.setCore_memWf h1) g1)

theorem State.retireEntry_memWf {s : State} {i : Nat} {x : Context} {done tag : Nat} {st : Status} (g1 : memWf s) :
    memWf (State.retireEntry s i x done tag st) := by
  unfold State.retireEntry
  exact State.writeN_memWf (State.complete_memWf g1)

theorem State.beginSwitch_memWf {s : State} {i c : Nat} (g1 : memWf s) : memWf (State.beginSwitch s i c) := by
  unfold State.beginSwitch
  refine State.setSheet_memWf ?_
  first | (extract_lets; split) | split | (dsimp only; split)
  · exact memWf_ite (State.setCtx_memWf g1) g1
  · exact g1

theorem State.readTail_memWf {s : State} {i c : Nat} (g1 : memWf s) : memWf (State.readTail s i c) := by
  unfold State.readTail
  first | (extract_lets; split) | split | (dsimp only; split)
  · exact State.keepLifts_memWf (State.setCtx_memWf g1)
  · exact g1

theorem State.readTails_memWf {s : State} {i : Nat} (g1 : memWf s) : memWf (State.readTails s i) := by
  unfold State.readTails
  exact memWf_foldl (fun _ _ h1 => State.readTail_memWf h1) g1

theorem State.chosen_memWf {s : State} {i : Nat} (g1 : memWf s) : memWf (s.chosen i).1 := by
  unfold State.chosen
  extract_lets s1 sh
  have h : memWf s1 := State.keepLifts_memWf g1
  clear_value s1 sh
  refine memWf_ite_fst (memWf_pair h) ?_
  split
  · split
    · exact memWf_pair h
    · exact memWf_ite_fst (memWf_pair (State.setSheet_memWf h)) (memWf_pair (State.beginSwitch_memWf h))
  · split
    · exact memWf_pair h
    · extract_lets best stay
      clear_value best
      refine memWf_ite_fst (memWf_pair h) (memWf_ite_fst (memWf_pair h) ?_)
      split
      · exact memWf_pair (State.beginSwitch_memWf h)
      · exact memWf_pair (State.setSheet_memWf h)

theorem State.atBoundary_memWf {s : State} {i c : Nat} (g1 : memWf s) : memWf (State.atBoundary s i c) := by
  unfold State.atBoundary
  first | (extract_lets; split) | split | (dsimp only; split)
  · exact State.setCtx_memWf (State.readTails_memWf g1)
  · exact State.readTails_memWf g1

theorem State.nextRun_memWf {s : State} {i c : Nat} (g1 : memWf s) : memWf (s.nextRun i c).1 := by
  unfold State.nextRun
  split
  · exact memWf_pair g1
  · extract_lets d
    split
    · exact memWf_pair (State.launchKernel_memWf g1)
    · extract_lets s1 fl
      have h : memWf s1 := State.retireEntry_memWf g1
      clear_value s1
      exact memWf_ite_fst (memWf_pair (State.setCtx_memWf h)) (memWf_pair (State.atBoundary_memWf h))

theorem chooseNext_memWf (n : Nat) :
    (∀ s i, memWf s → memWf (State.choose n s i)) ∧ ∀ s i c, memWf s → memWf (State.runNext n s i c) := by
  induction n with
  | zero => exact ⟨fun _ _ h => h, fun _ _ _ h => h⟩
  | succ n ih =>
    refine ⟨fun s i h => ?_, fun s i c h => ?_⟩
    · rw [State.choose]
      split
      · rename_i q
        exact memWf_of_eq q (State.chosen_memWf h)
      · rename_i q
        exact ih.2 _ _ _ (memWf_of_eq q (State.chosen_memWf h))
    · rw [State.runNext]
      split
      · rename_i q
        exact memWf_of_eq q (State.nextRun_memWf h)
      · rename_i q
        exact ih.2 _ _ _ (memWf_of_eq q (State.nextRun_memWf h))
      · rename_i q
        exact ih.1 _ _ (memWf_of_eq q (State.nextRun_memWf h))

theorem State.choose_memWf {n : Nat} {s : State} {i : Nat} (g1 : memWf s) : memWf (State.choose n s i) := (chooseNext_memWf n).1 s i g1

theorem State.runNext_memWf {n : Nat} {s : State} {i c : Nat} (g1 : memWf s) : memWf (State.runNext n s i c) :=
  (chooseNext_memWf n).2 s i c g1

theorem State.schedule_memWf {s : State} {i : Nat} (g1 : memWf s) : memWf (State.schedule s i) := by
  unfold State.schedule
  exact memWf_ite g1 (State.choose_memWf g1)

theorem State.ctxBegin_memWf {s : State} {i : Nat} {pkt : Packet} (g1 : memWf s) : memWf (State.ctxBegin s i pkt).1 := by
  unfold State.ctxBegin
  refine memWf_ite_fst (memWf_pair g1) ?_
  refine memWf_ite_fst (memWf_pair g1) ?_
  exact memWf_ite_fst (memWf_pair (memWf_ite g1 (State.draw_memWf g1))) (memWf_pair (State.setCtx_memWf (memWf_ite g1 (State.draw_memWf g1))))

theorem State.switchedOut_memWf {s : State} {i : Nat} {out : Option Nat} (g1 : memWf s) : memWf (State.switchedOut s i out) := by
  unfold State.switchedOut
  first | (extract_lets; split) | split | (dsimp only; split)
  · exact memWf_ite (State.setCtx_memWf g1) g1
  · exact g1

theorem State.ctxFree_memWf {s : State} {i c : Nat} (g1 : memWf s) : memWf (State.ctxFree s i c) := by
  unfold State.ctxFree
  first | (extract_lets; split) | split | (dsimp only; split)
  · exact g1
  · first | (extract_lets; split) | split | (dsimp only; split)
    · first | (extract_lets; split) | split | (dsimp only; split)
      · refine State.final_memWf ?_
        refine State.ctxBegin_memWf ?_
        refine State.finals_memWf ?_
        refine memWf_ite ?_ ?_
        · exact State.switchedOut_memWf (State.setSheet_memWf (memWf_mk (memWf_foldl (fun _ _ h1 => State.semRelease_memWf h1) g1)))
        · exact State.setSheet_memWf (memWf_mk (memWf_foldl (fun _ _ h2 => State.semRelease_memWf h2) g1))
      · refine State.ctxBegin_memWf ?_
        refine State.finals_memWf ?_
        refine memWf_ite ?_ ?_
        · exact State.switchedOut_memWf (State.setSheet_memWf (memWf_mk (memWf_foldl (fun _ _ h3 => State.semRelease_memWf h3) g1)))
        · exact State.setSheet_memWf (memWf_mk (memWf_foldl (fun _ _ h4 => State.semRelease_memWf h4) g1))
    · refine State.finals_memWf ?_
      refine memWf_ite ?_ ?_
      · exact State.switchedOut_memWf (State.setSheet_memWf (memWf_mk (memWf_foldl (fun _ _ h5 => State.semRelease_memWf h5) g1)))
      · exact State.setSheet_memWf (memWf_mk (memWf_foldl (fun _ _ h6 => State.semRelease_memWf h6) g1))

theorem State.ctxEnd_memWf {s : State} {i c : Nat} (g1 : memWf s) : memWf (State.ctxEnd s i c) := by
  unfold State.ctxEnd
  first | (extract_lets; split) | split | (dsimp only; split)
  · refine memWf_ite ?_ g1
    exact memWf_ite (State.schedule_memWf (State.ctxFree_memWf g1)) (State.schedule_memWf (State.setSheet_memWf (State.setCtx_memWf g1)))
  · exact g1

theorem State.ctxStop_memWf {s : State} {i c : Nat} (g1 : memWf s) : memWf (State.ctxStop s i c) := by
  unfold State.ctxStop
  first | (extract_lets; split) | split | (dsimp only; split)
  · exact memWf_ite (State.stopKernel_memWf g1) (State.ctxEnd_memWf g1)
  · exact g1

theorem State.kernelDone_memWf {s : State} {i c : Nat} {x : Context} {k : KernelRun} (g1 : memWf s) :
    memWf (State.kernelDone s i c x k) := by
  unfold State.kernelDone
  refine memWf_ite ?_ ?_
  · refine memWf_ite ?_ ?_
    · refine State.runNext_memWf ?_
      refine State.setSheet_memWf ?_
      refine State.setCtx_memWf ?_
      refine memWf_foldl (fun _ _ h1 => memWf_mk h1) ?_
      refine State.retireEntry_memWf ?_
      first | (extract_lets; split) | split | (dsimp only; split)
      · exact State.event_memWf g1
      · exact g1
    · refine State.setSheet_memWf ?_
      refine State.setCtx_memWf ?_
      refine memWf_foldl (fun _ _ h2 => memWf_mk h2) ?_
      refine State.retireEntry_memWf ?_
      first | (extract_lets; split) | split | (dsimp only; split)
      · exact State.event_memWf g1
      · exact g1
  · refine memWf_ite ?_ ?_
    · refine State.ctxEnd_memWf ?_
      refine State.atBoundary_memWf ?_
      refine State.setSheet_memWf ?_
      refine State.setCtx_memWf ?_
      refine memWf_foldl (fun _ _ h3 => memWf_mk h3) ?_
      refine State.retireEntry_memWf ?_
      first | (extract_lets; split) | split | (dsimp only; split)
      · exact State.event_memWf g1
      · exact g1
    · refine State.schedule_memWf ?_
      refine memWf_ite ?_ ?_
      · first | (extract_lets; split) | split | (dsimp only; split)
        · refine State.setCtx_memWf ?_
          refine State.atBoundary_memWf ?_
          refine State.setSheet_memWf ?_
          refine State.setCtx_memWf ?_
          refine memWf_foldl (fun _ _ h4 => memWf_mk h4) ?_
          refine State.retireEntry_memWf ?_
          first | (extract_lets; split) | split | (dsimp only; split)
          · exact State.event_memWf g1
          · exact g1
        · refine State.atBoundary_memWf ?_
          refine State.setSheet_memWf ?_
          refine State.setCtx_memWf ?_
          refine memWf_foldl (fun _ _ h5 => memWf_mk h5) ?_
          refine State.retireEntry_memWf ?_
          first | (extract_lets; split) | split | (dsimp only; split)
          · exact State.event_memWf g1
          · exact g1
      · refine State.atBoundary_memWf ?_
        refine State.setSheet_memWf ?_
        refine State.setCtx_memWf ?_
        refine memWf_foldl (fun _ _ h6 => memWf_mk h6) ?_
        refine State.retireEntry_memWf ?_
        first | (extract_lets; split) | split | (dsimp only; split)
        · exact State.event_memWf g1
        · exact g1

theorem State.checkKernel_memWf {s : State} {i c : Nat} (g1 : memWf s) : memWf (State.checkKernel s i c) := by
  unfold State.checkKernel
  first | (extract_lets; split) | split | (dsimp only; split)
  · first | (extract_lets; split) | split | (dsimp only; split)
    · exact memWf_ite (State.kernelDone_memWf g1) g1
    · exact g1
  · exact g1

theorem State.drainDone_memWf {s : State} {c : Nat} {st : Status} (g1 : memWf s) : memWf (State.drainDone s c st) := by
  unfold State.drainDone
  first | (extract_lets; split) | split | (dsimp only; split)
  · refine memWf_ite ?_ ?_
    · exact State.checkKernel_memWf (State.setCore_memWf g1)
    · refine memWf_ite ?_ ?_
      · exact State.checkKernel_memWf (State.setCore_memWf (State.noteFault_memWf g1))
      · exact State.checkKernel_memWf (State.stopKernel_memWf (State.setCore_memWf (State.captureFault_memWf (State.noteFault_memWf g1))))
  · exact State.checkKernel_memWf (State.setCore_memWf g1)
  · exact g1

theorem State.drainStep_memWf {s : State} {c : Nat} (g1 : memWf s) : memWf (State.drainStep s c) := by
  unfold State.drainStep
  refine memWf_ite ?_ g1
  first | (extract_lets; split) | split | (dsimp only; split)
  · refine memWf_ite ?_ ?_
    · exact State.drainDone_memWf (State.endFence_memWf (State.setCore_memWf (State.addFence_memWf g1)))
    · exact State.setCore_memWf (State.addFence_memWf g1)
  · exact State.setCore_memWf (State.addFence_memWf g1)

theorem State.drainAll_memWf {s : State} (g1 : memWf s) : memWf (State.drainAll s) := by
  unfold State.drainAll
  exact memWf_foldl (fun _ _ h1 => State.drainStep_memWf h1) g1

theorem State.coreFault_memWf {s : State} {c : Nat} {st : Status} {info : Nat} {at_ : Option Nat} (g1 : memWf s) :
    memWf (State.coreFault s c st info at_) := by
  unfold State.coreFault
  exact State.drainAll_memWf (State.coreStop_memWf g1)

theorem State.descFault_memWf {s : State} {f : Fence} {st : Status} (g1 : memWf s) : memWf (State.descFault s f st) := by
  unfold State.descFault
  refine memWf_ite g1 ?_
  first | (extract_lets; split) | split | (dsimp only; split)
  · exact State.stopKernel_memWf (State.setCore_memWf (State.noteFault_memWf (State.captureFault_memWf g1)))
  · exact memWf_ite (State.coreFault_memWf g1) g1

theorem State.fenceAnswer_memWf {s : State} {f : Fence} {st : Status} (g1 : memWf s) : memWf (State.fenceAnswer s f st) := by
  unfold State.fenceAnswer
  first | (extract_lets; split) | split | (dsimp only; split)
  · exact State.descFault_memWf (State.complete_memWf g1)
  · exact State.drainDone_memWf g1
  · exact memWf_ite (State.setCore_memWf g1) (memWf_ite (State.setCore_memWf g1) (State.coreFault_memWf g1))

theorem State.settleFences_memWf {s : State} (g1 : memWf s) : memWf (State.settleFences s) := by
  unfold State.settleFences
  exact memWf_foldl (fun _ _ h1 => memWf_ite (State.fenceAnswer_memWf (State.endFence_memWf h1)) h1) g1

theorem State.groupStep_memWf {s : State} {gid : Nat} {st : Status} (g1 : memWf s) : memWf (State.groupStep s gid st) := by
  unfold State.groupStep
  first | (extract_lets; split) | split | (dsimp only; split)
  · exact g1
  · refine memWf_ite ?_ (memWf_mk g1)
    first | (extract_lets; split) | split | (dsimp only; split)
    · exact State.final_memWf (State.complete_memWf (memWf_mk g1))
    · exact State.complete_memWf (memWf_mk g1)

theorem State.submitEnd_memWf {s : State} {c : Nat} {st : Status} (g1 : memWf s) : memWf (State.submitEnd s c st) := by
  unfold State.submitEnd
  exact memWf_ite (memWf_ite (State.setCore_memWf g1) (State.coreFault_memWf g1)) g1

theorem State.ownerStep_memWf {s : State} {e : Nat × Nat × Status} (g1 : memWf s) : memWf (State.ownerStep s e) := by
  unfold State.ownerStep
  first | (extract_lets; split) | split | (dsimp only; split)
  · exact State.groupStep_memWf g1
  · exact State.submitEnd_memWf g1

theorem State.settleOwners_memWf {s : State} (g1 : memWf s) : memWf (State.settleOwners s) := by
  unfold State.settleOwners
  exact memWf_foldl (fun _ _ h1 => State.ownerStep_memWf h1) (memWf_mk g1)

theorem State.issueInvals_memWf {s : State} {sheet agent job : Nat} {readers : List Nat} {line n : Nat} {g : OpGroup} (g1 : memWf s) :
    memWf (State.issueInvals s sheet agent job readers line n g) := by
  unfold State.issueInvals
  exact memWf_foldl (fun _ _ h1 => State.issueInval_memWf h1) (memWf_mk g1)

theorem State.tryRegion_memWf {s : State} {w : RegionWait} (g1 : memWf s) : memWf (State.tryRegion s w) := by
  unfold State.tryRegion
  exact memWf_ite (memWf_mk g1) (State.issueInvals_memWf g1)

theorem State.runRegions_memWf {s : State} (g1 : memWf s) : memWf (State.runRegions s) := by
  unfold State.runRegions
  exact memWf_foldl (fun _ _ h1 => State.tryRegion_memWf h1) (memWf_mk g1)

theorem State.descFails_memWf {s : State} {q : QDesc} {own : Nat} {st : Status} (g1 : memWf s) : memWf (State.descFails s q own st) := by
  unfold State.descFails
  exact memWf_ite (State.failAtIssue_memWf g1) (State.opEffect_memWf g1)

theorem State.tryDesc_memWf {s : State} {q : QDesc} (g1 : memWf s) : memWf (State.tryDesc s q) := by
  unfold State.tryDesc
  refine memWf_ite (memWf_mk g1) ?_
  first | (extract_lets; split) | split | (dsimp only; split)
  · exact State.descFails_memWf g1
  · refine memWf_ite ?_ ?_
    · first | (extract_lets; split) | split | (dsimp only; split)
      · exact memWf_ite (State.fenceAnswer_memWf (State.endFence_memWf (State.addFence_memWf g1))) (State.addFence_memWf g1)
      · exact State.addFence_memWf g1
    · refine memWf_ite (memWf_mk g1) ?_
      first | (extract_lets; split) | split | (dsimp only; split)
      · rename_i q
        have h1 := memWf_of_eq q (State.meets_memWf g1)
        exact State.descFails_memWf h1
      · rename_i q
        have h2 := memWf_of_eq q (State.meets_memWf g1)
        exact memWf_ite (State.issueInvals_memWf h2) (State.issueDesc_memWf h2)

theorem State.runWaiting_memWf {s : State} (g1 : memWf s) : memWf (State.runWaiting s) := by
  unfold State.runWaiting
  exact memWf_foldl (fun _ _ h1 => State.tryDesc_memWf h1) (memWf_mk g1)

theorem State.resumeIssue_memWf {s : State} {c : Nat} (g1 : memWf s) : memWf (State.resumeIssue s c) := by
  unfold State.resumeIssue
  first | (extract_lets; split) | split | (dsimp only; split)
  · exact memWf_ite g1 (State.issueCore_memWf (State.setCore_memWf g1))
  · exact g1

theorem State.settle_memWf {s : State} (g1 : memWf s) : memWf (State.settle s) := by
  unfold State.settle
  refine State.drainAll_memWf ?_
  refine State.settleOwners_memWf ?_
  exact State.runRegions_memWf (State.runWaiting_memWf (State.settleFences_memWf (State.settleOwners_memWf g1)))

theorem State.opDone_memWf {s : State} {o : RemoteOp} {data : List Byte} (g1 : memWf s) : memWf (State.opDone s o data) := by
  unfold State.opDone
  first | (extract_lets; split) | split | (dsimp only; split)
  · refine memWf_ite ?_ ?_
    · exact State.failAtIssue_memWf (State.dropOp_memWf (State.dropWritten_memWf g1))
    · exact State.pump_memWf (State.setOp_memWf (State.dropWritten_memWf g1))
  · exact State.ownerNote_memWf (State.opEffect_memWf (State.dropOp_memWf g1))

theorem State.resolve_memWf {s : State} {e : ReplayEntry} {st : Status} {data : List Byte} (g1 : memWf s) : memWf (s.resolve e st data) := by
  unfold State.resolve
  extract_lets e1 s1 x s2 a e3 s3 s4
  have h3 : memWf s3 := memWf_ite (State.setStream_memWf (memWf_mk g1)) (memWf_mk (State.setStream_memWf (memWf_mk g1)))
  clear_value s3
  have h4 : memWf s4 := by
    show memWf (match e.get with | some (i, a) => if st = Status.ok then s3.write i a data else s3 | none => s3)
    split
    · exact memWf_ite (State.write_memWf h3) h3
    · exact h3
  clear_value s4
  split
  · exact h4
  · exact memWf_ite (State.opDone_memWf (State.setOp_memWf h4)) (State.setOp_memWf h4)

theorem State.setRecipe_memWf {s : State} {i k w : Nat} (g1 : memWf s) : memWf (State.setRecipe s i k w) := by
  unfold State.setRecipe
  exact State.setReg_memWf g1

theorem State.recipeWrite_memWf {s : State} {i k : Nat} {w : Word} (g1 : memWf s) : memWf (State.recipeWrite s i k w) := by
  unfold State.recipeWrite
  exact memWf_ite (State.setRecipe_memWf g1) (State.regRefused_memWf g1)

theorem State.resetRecipes_memWf {s : State} {i : Nat} (g1 : memWf s) : memWf (State.resetRecipes s i) := by
  unfold State.resetRecipes
  exact memWf_foldl (fun _ _ h1 => State.setRecipe_memWf h1) g1

theorem bodyRecipeSet_memWf {s : State} {v1 : Owed} {h : CmdHdr} {p : List Byte} (g1 : memWf s) : memWf (bodyRecipeSet s v1 h p).1 := by
  unfold bodyRecipeSet
  first | (extract_lets; split) | split | (dsimp only; split)
  · exact memWf_pair g1
  · exact memWf_pair (memWf_foldl (fun _ _ h1 => State.setRecipe_memWf h1) g1)

theorem State.countLoss_memWf {s : State} {i k : Nat} {ls : List Loss} {clamps : Nat} (g1 : memWf s) :
    memWf (State.countLoss s i k ls clamps) := by
  unfold State.countLoss
  exact State.bump_memWf (State.bump_memWf (State.bump_memWf (State.bump_memWf g1)))

theorem State.qntRun_memWf {s : State} {p op : Nat} {g : State → CoreKernel → QntDesc → Recipe → State × Status} (g1 : memWf s) (g2 : ∀ y1
    y2 y3 y4, memWf y1 → memWf (g y1 y2 y3 y4).1) :
    memWf (State.qntRun s p op g) := by
  unfold State.qntRun
  first | (extract_lets; split) | split | (dsimp only; split)
  · exact memWf_ite g1 (memWf_mk (memWf_ite_fst (memWf_pair g1) (memWf_ite_fst (memWf_pair g1) (g2 _ _ _ _ g1))))
  · exact g1

theorem State.qntChecked_memWf {s : State} {k : CoreKernel} {l : List Access1} {g : State → State × Status} (g1 : memWf s) (g2 : ∀ y1,
    memWf y1 → memWf (g y1).1) :
    memWf (State.qntChecked s k l g).1 := by
  unfold State.qntChecked
  exact memWf_ite_fst (g2 _ (State.access_memWf g1)) (State.access_memWf g1)

theorem State.hchReport_memWf {s : State} {i layer step : Nat} {a : Nat × Nat × Bool} (g1 : memWf s) :
    memWf (State.hchReport s i layer step a) := by
  unfold State.hchReport
  exact memWf_ite (State.event_memWf (State.bump_memWf g1)) (memWf_mk g1)

theorem State.qntSubmit_memWf {s : State} {p home : Nat} {w : Word} (g1 : memWf s) : memWf (State.qntSubmit s p home w) := by
  unfold State.qntSubmit
  exact memWf_ite (State.regRefused_memWf g1) (memWf_ite (memWf_mk g1) (memWf_mk (State.scrReads_memWf g1)))

theorem State.qntAccept_memWf {s : State} {p : Nat} (g1 : memWf s) : memWf (State.qntAccept s p) := by
  unfold State.qntAccept
  first | (extract_lets; split) | split | (dsimp only; split)
  · exact memWf_ite g1 (State.qntSubmit_memWf (memWf_mk g1))
  · exact g1

theorem State.hchHalt_memWf {s : State} {i : Nat} (g1 : memWf s) : memWf (State.hchHalt s i) := by
  unfold State.hchHalt
  exact memWf_ite g1 (State.event_memWf (State.set_memWf g1))

theorem State.hchEval1_memWf {s : State} {i layer step : Nat} {a : Nat × Nat × Bool} (g1 : memWf s) :
    memWf (State.hchEval1 s i layer step a) := by
  unfold State.hchEval1
  refine memWf_ite ?_ ?_
  · refine State.hchHalt_memWf ?_
    refine memWf_ite ?_ ?_
    · exact State.event_memWf (memWf_ite (State.event_memWf (memWf_mk g1)) (memWf_mk g1))
    · exact memWf_ite (State.event_memWf (memWf_mk g1)) (memWf_mk g1)
  · refine memWf_ite ?_ ?_
    · exact State.event_memWf (memWf_ite (State.event_memWf (memWf_mk g1)) (memWf_mk g1))
    · exact memWf_ite (State.event_memWf (memWf_mk g1)) (memWf_mk g1)

theorem State.hchEval_memWf {s : State} {i below : Nat} (g1 : memWf s) : memWf (State.hchEval s i below) := by
  unfold State.hchEval
  exact memWf_foldl (fun _ _ h1 => State.hchEval1_memWf h1) g1

theorem State.hchBoundary_memWf {s : State} {i n : Nat} (g1 : memWf s) : memWf (State.hchBoundary s i n) := by
  unfold State.hchBoundary
  exact memWf_ite g1 (memWf_mk (State.hchEval_memWf g1))

theorem State.evalNow_memWf {s : State} (g1 : memWf s) : memWf (State.evalNow s) := by
  unfold State.evalNow
  exact memWf_foldl (fun _ _ h1 => State.hchEval_memWf h1) g1

theorem State.haltWrite_memWf {s : State} {w : Word} (g1 : memWf s) : memWf (State.haltWrite s w) := by
  unfold State.haltWrite
  exact State.set_memWf g1

theorem State.setRouting_memWf {s : State} {i : Nat} {r : Routing} (g1 : memWf s) : memWf (State.setRouting s i r) := by
  unfold State.setRouting
  exact memWf_mk g1

theorem State.commitRouting_memWf {s : State} {i target : Nat} (g1 : memWf s) : memWf (State.commitRouting s i target).1 := by
  unfold State.commitRouting
  first | (extract_lets; split) | split | (dsimp only; split)
  · exact memWf_pair g1
  · exact memWf_pair (State.setRouting_memWf g1)

theorem State.halfWrite_memWf {s : State} {i : Nat} {f : Half → Half} (g1 : memWf s) : memWf (State.halfWrite s i f).1 := by
  unfold State.halfWrite
  first | (extract_lets; split) | split | (dsimp only; split)
  · exact memWf_pair g1
  · exact memWf_pair (State.setRouting_memWf g1)

theorem bodyLayerSet_memWf {s : State} {v1 : Owed} {h : CmdHdr} {p : List Byte} (g1 : memWf s) : memWf (bodyLayerSet s v1 h p).1 := by
  unfold bodyLayerSet
  first | (extract_lets; split) | split | (dsimp only; split)
  · exact memWf_pair g1
  · exact State.halfWrite_memWf g1

theorem bodyGazetteerWrite_memWf {s : State} {v1 : Owed} {h : CmdHdr} {p : List Byte} (g1 : memWf s) :
    memWf (bodyGazetteerWrite s v1 h p).1 := by
  unfold bodyGazetteerWrite
  first | (extract_lets; split) | split | (dsimp only; split)
  · exact memWf_pair g1
  · exact State.halfWrite_memWf g1

theorem bodyCsetWrite_memWf {s : State} {v1 : Owed} {h : CmdHdr} {p : List Byte} (g1 : memWf s) : memWf (bodyCsetWrite s v1 h p).1 := by
  unfold bodyCsetWrite
  first | (extract_lets; split) | split | (dsimp only; split)
  · exact memWf_pair g1
  · exact State.halfWrite_memWf g1

theorem bodyExpertDirWrite_memWf {s : State} {v1 : Owed} {h : CmdHdr} {p : List Byte} (g1 : memWf s) :
    memWf (bodyExpertDirWrite s v1 h p).1 := by
  unfold bodyExpertDirWrite
  first | (extract_lets; split) | split | (dsimp only; split)
  · exact memWf_pair g1
  · exact State.halfWrite_memWf g1

theorem State.popEngine_memWf {s : State} {o q : Nat} (g1 : memWf s) : memWf (State.popEngine s o q) := by
  unfold State.popEngine
  exact memWf_mk g1

theorem State.setSvy_memWf {s : State} {o : Nat} {x : SvyCache} (g1 : memWf s) : memWf (State.setSvy s o x) := by
  unfold State.setSvy
  exact memWf_mk g1

theorem State.svyRead_memWf {s : State} {e : SvyEnv} {a n : Nat} (g1 : memWf s) : memWf (State.svyRead s e a n).1 := by
  unfold State.svyRead
  exact memWf_pair (State.access_memWf g1)

theorem State.gvcRead_memWf {s : State} {e : SvyEnv} {a n : Nat} (g1 : memWf s) : memWf (s.gvcRead e a n).1 := by
  unfold State.gvcRead
  extract_lets x hit s1
  have h1 : memWf s1 := State.draw_memWf g1
  clear_value s1 hit
  split
  · exact memWf_pair (State.bump_memWf h1)
  · have h2 := State.svyRead_memWf (e := e) (a := a) (n := n) (State.bump_memWf (f := F.SVY_GVC_MISS_misses) (inst := e.o) (idx := 0) (n := 1) h1)
    split
    · rename_i q
      exact memWf_pair (State.setSvy_memWf (memWf_of_eq q h2))
    · exact h2

theorem State.gazCount_memWf {s : State} {e : SvyEnv} {kind idx : Nat} (g1 : memWf s) : memWf (State.gazCount s e kind idx) := by
  unfold State.gazCount
  refine memWf_ite (State.bump_memWf g1) ?_
  exact memWf_ite (State.bump_memWf (State.draw_memWf g1)) (State.bump_memWf (State.setSvy_memWf (State.draw_memWf g1)))

theorem State.candidates_memWf {s : State} {e : SvyEnv} {bucket : Nat} (g1 : memWf s) : memWf (State.candidates s e bucket).1 := by
  unfold State.candidates
  refine memWf_ite_fst (memWf_pair g1) ?_
  refine memWf_ite_fst (memWf_pair (State.gazCount_memWf g1)) ?_
  refine memWf_ite_fst ?_ ?_
  · exact memWf_pair (State.gazCount_memWf (State.gazCount_memWf g1))
  · refine memWf_ite_fst ?_ ?_
    · exact memWf_pair (memWf_foldl (fun _ _ h1 => State.gazCount_memWf h1) (State.gazCount_memWf (State.gazCount_memWf g1)))
    · exact memWf_pair (memWf_foldl (fun _ _ h2 => State.gazCount_memWf h2) (State.gazCount_memWf (State.gazCount_memWf g1)))

theorem State.readAll_memWf {α : Type} {f : State → α → State × Except Status (List Byte)} {l : List α} {s : State}
    (g1 : ∀ y1 y2, memWf y1 → memWf (f y1 y2).1) (g2 : memWf s) : memWf (State.readAll f l s).1 := by
  induction l generalizing s with
  | nil => exact g2
  | cons a l ih =>
    simp only [State.readAll]
    split
    · rename_i q
      exact memWf_pair (memWf_of_eq q (g1 s a g2))
    · rename_i q
      have h := ih (memWf_of_eq q (g1 s a g2))
      split
      · rename_i q'
        exact memWf_pair (memWf_of_eq q' h)
      · rename_i q'
        exact memWf_pair (memWf_of_eq q' h)

theorem State.bucketOf_memWf {s : State} {e : SvyEnv} {t : Nat} {vec : List Nat} (g1 : memWf s) : memWf (State.bucketOf s e t vec).1 := by
  unfold State.bucketOf
  refine memWf_ite_fst (memWf_pair g1) ?_
  refine memWf_ite_fst (memWf_pair g1) ?_
  first | (extract_lets; split) | split | (dsimp only; split)
  · rename_i q
    have h2 := memWf_of_eq q (State.readAll_memWf (fun _ _ h1 => State.svyRead_memWf h1) g1)
    exact memWf_pair h2
  · rename_i q
    have h3 := memWf_of_eq q (State.readAll_memWf (fun _ _ h1 => State.svyRead_memWf h1) g1)
    exact memWf_pair h3

theorem State.svyToken_memWf {s : State} {e : SvyEnv} {d : BitVec 512} {i : Nat} (g1 : memWf s) : memWf (s.svyToken e d i).1 := by
  unfold State.svyToken
  extract_lets r vecR idR
  have h1 : memWf vecR.1 := memWf_ite_fst (memWf_pair g1) (State.svyRead_memWf g1)
  have h2 : memWf idR.1 := memWf_ite_fst (State.svyRead_memWf h1) (memWf_pair h1)
  clear_value vecR idR
  split
  · exact memWf_pair h1
  · exact memWf_pair h2
  · extract_lets vec
    split
    · rename_i q
      exact memWf_pair (memWf_of_eq q (State.bucketOf_memWf h2))
    · rename_i q
      have h3 := memWf_of_eq q (State.bucketOf_memWf h2)
      split
      · rename_i q'
        exact memWf_pair (memWf_of_eq q' (State.candidates_memWf h3))
      · rename_i q'
        have h4 := memWf_of_eq q' (State.candidates_memWf h3)
        extract_lets scoresR
        have h5 : memWf scoresR.1 := by
          refine memWf_ite_fst ?_ ?_
          · split <;> rename_i q'' <;> exact memWf_pair (memWf_of_eq q'' (State.svyRead_memWf h4))
          · split <;> rename_i q'' <;> exact memWf_pair (memWf_of_eq q'' (State.readAll_memWf (fun _ _ h => State.gvcRead_memWf h) h4))
        clear_value scoresR
        split
        · exact memWf_pair h5
        · refine memWf_ite_fst ?_ (memWf_pair h5)
          split <;> rename_i q'' <;> exact memWf_pair (memWf_of_eq q'' (State.readAll_memWf (fun _ _ h => State.gvcRead_memWf h) h5))

theorem State.svyTokens_memWf {e : SvyEnv} {d : BitVec 512} {n i : Nat} {bad nf : Bool} {s : State} (g1 : memWf s) :
    memWf (State.svyTokens e d n i bad nf s).1 := by
  induction n generalizing i bad nf s with
  | zero => exact g1
  | succ n ih =>
    simp only [State.svyTokens]
    split
    · rename_i q
      exact memWf_of_eq q (State.svyToken_memWf g1)
    · rename_i t q
      have h := memWf_of_eq q (State.svyToken_memWf g1)
      refine ih ?_
      split
      · exact memWf_pair (State.bump_memWf (memWf_ite h (State.event_memWf h)))
      · exact memWf_pair (State.bump_memWf (memWf_ite h (State.event_memWf h)))
      · exact h

theorem State.svyDone_memWf {s : State} {o i layer done tag : Nat} {st : Status} (g1 : memWf s) :
    memWf (State.svyDone s o i layer done tag st) := by
  unfold State.svyDone
  exact State.complete_memWf (memWf_ite g1 (State.capture_memWf g1))

theorem State.svyAccept_memWf {s : State} {o i layer step : Nat} (g1 : memWf s) : memWf (State.svyAccept s o i layer step) := by
  unfold State.svyAccept
  exact memWf_ite (State.setSvy_memWf (State.set_memWf (State.setRouting_memWf g1))) (State.set_memWf (State.setRouting_memWf g1))

theorem State.svyScore_memWf {s : State} {e : SvyEnv} {d : BitVec 512} (g1 : memWf s) : memWf (State.svyScore s e d) := by
  unfold State.svyScore
  exact memWf_mk (State.draw_memWf (State.access_memWf (State.svyTokens_memWf g1)))

theorem State.surveyTake_memWf {s : State} {o : Nat} (g1 : memWf s) : memWf (State.surveyTake s o) := by
  unfold State.surveyTake
  first | (extract_lets; split) | split | (dsimp only; split)
  · first | (extract_lets; split) | split | (dsimp only; split)
    · refine memWf_ite ?_ ?_
      · exact State.svyDone_memWf (memWf_ite (State.hchBoundary_memWf (State.popEngine_memWf g1)) (State.popEngine_memWf g1))
      · refine State.svyScore_memWf ?_
        exact State.svyAccept_memWf (memWf_ite (State.hchBoundary_memWf (State.popEngine_memWf g1)) (State.popEngine_memWf g1))
    · exact State.svyDone_memWf (State.popEngine_memWf g1)
    · exact State.svyDone_memWf (State.popEngine_memWf g1)
  · exact g1

theorem State.flushGvc_memWf {s : State} {o : Nat} (g1 : memWf s) : memWf (State.flushGvc s o) := by
  unfold State.flushGvc
  exact State.setSvy_memWf g1

theorem State.flushGaz_memWf {s : State} {o : Nat} (g1 : memWf s) : memWf (State.flushGaz s o) := by
  unfold State.flushGaz
  exact State.setSvy_memWf g1

theorem State.setExch_memWf {s : State} {i : Nat} {x : Exch} (g1 : memWf s) : memWf (State.setExch s i x) := by
  unfold State.setExch
  exact memWf_mk g1

theorem State.updExch_memWf {s : State} {i : Nat} {f : Exch → Exch} (g1 : memWf s) : memWf (State.updExch s i f) := by
  unfold State.updExch
  exact State.setExch_memWf g1

theorem State.exchId_memWf {s : State} {i : Nat} (g1 : memWf s) : memWf (State.exchId s i).1 := by
  unfold State.exchId
  exact memWf_pair (State.updExch_memWf g1)

theorem State.sendRec_memWf {s : State} {i job o dst : Nat} {h : RecHdr} {per : Nat} {entries : List (List Byte)} (g1 : memWf s) :
    memWf (State.sendRec s i job o dst h per entries) := by
  unfold State.sendRec
  exact memWf_foldl (fun _ _ h1 => State.issueRecord_memWf h1) g1

theorem State.engineExtent_memWf {s : State} {p n : Nat} {src : ReqFrom} (g1 : memWf s) : memWf (s.engineExtent p n src).1 := by
  unfold State.engineExtent
  extract_lets r s1
  have h1 : memWf s1 := memWf_mk g1
  clear_value s1
  split
  · rename_i q
    split at q
    · exact State.poolTry_memWf q h1
    · cases q
  · exact State.poolWait_memWf h1

theorem State.engineFree_memWf {s : State} {p ptr : Nat} (g1 : memWf s) : memWf (State.engineFree s p ptr) := by
  unfold State.engineFree
  exact memWf_ite g1 (memWf_ite (State.badPointer_memWf g1) (State.poolNoCells_memWf g1))

theorem State.exhausted_memWf {s : State} {i job o : Nat} (g1 : memWf s) : memWf (State.exhausted s i job o) := by
  unfold State.exhausted
  exact State.event_memWf g1

theorem State.setEpoch_memWf {s : State} {i e : Nat} {x : Epoch} (g1 : memWf s) : memWf (State.setEpoch s i e x) := by
  unfold State.setEpoch
  exact State.updExch_memWf g1

theorem State.adjEpoch_memWf {s : State} {i e : Nat} {f : Epoch → Epoch} (g1 : memWf s) : memWf (State.adjEpoch s i e f) := by
  unfold State.adjEpoch
  exact State.setEpoch_memWf g1

theorem State.trvDone_memWf {s : State} {o i layer done tag : Nat} {st : Status} (g1 : memWf s) :
    memWf (State.trvDone s o i layer done tag st) := by
  unfold State.trvDone
  exact State.complete_memWf (memWf_ite g1 (State.capture_memWf g1))

theorem State.freeEpoch_memWf {s : State} {i e : Nat} {st : Status} (g1 : memWf s) : memWf (State.freeEpoch s i e st) := by
  unfold State.freeEpoch
  first | (extract_lets; split) | split | (dsimp only; split)
  · exact State.trvDone_memWf (State.updExch_memWf (State.setEpoch_memWf g1))
  · exact State.updExch_memWf (State.setEpoch_memWf g1)

theorem State.settleEpoch_memWf {s : State} {i e : Nat} (g1 : memWf s) : memWf (State.settleEpoch s i e) := by
  unfold State.settleEpoch
  exact memWf_ite (State.freeEpoch_memWf g1) g1

theorem State.putBatch_memWf {s : State} {b : Batch} (g1 : memWf s) : memWf (State.putBatch s b) := by
  unfold State.putBatch
  exact State.updExch_memWf g1

theorem State.countFold_memWf {s : State} {i e o n : Nat} (g1 : memWf s) : memWf (State.countFold s i e o n) := by
  unfold State.countFold
  exact State.bump_memWf (State.adjEpoch_memWf g1)

theorem State.fold_memWf {s : State} {b : Batch} {l : List Nat} (g1 : memWf s) : memWf (State.fold s b l).1 := by
  unfold State.fold
  exact memWf_ite_fst (memWf_pair g1) (memWf_pair (State.countFold_memWf g1))

theorem State.combine_memWf {s : State} {b : Batch} (g1 : memWf s) : memWf (State.combine s b).1 := by
  unfold State.combine
  refine memWf_pair ?_
  refine memWf_foldl ?_ ?_
  · intro _ _ h1
    first | (extract_lets; split) | split | (dsimp only; split)
    · exact State.engineFree_memWf h1
    · exact h1
  · exact memWf_foldl (fun _ _ h2 => State.write_memWf h2) g1

theorem State.routeLog_memWf {s : State} {b : Batch} (g1 : memWf s) : memWf (State.routeLog s b) := by
  unfold State.routeLog
  exact memWf_foldl (fun _ _ h1 => State.write_memWf h1) g1

theorem State.endBatch_memWf {s : State} {b : Batch} {st : Status} (g1 : memWf s) : memWf (State.endBatch s b st) := by
  unfold State.endBatch
  exact State.trvDone_memWf (State.putBatch_memWf g1)

theorem State.batchStep_memWf {s : State} {b : Batch} (g1 : memWf s) : memWf (State.batchStep s b) := by
  unfold State.batchStep
  refine State.settleEpoch_memWf ?_
  refine memWf_ite ?_ ?_
  · exact State.endBatch_memWf (memWf_ite (State.routeLog_memWf (State.combine_memWf g1)) (State.combine_memWf g1))
  · exact State.putBatch_memWf (State.combine_memWf g1)

theorem State.partStale_memWf {s : State} {b : Batch} {p : Part} (g1 : memWf s) : memWf (State.partStale s b p).1 := by
  unfold State.partStale
  refine memWf_pair ?_
  first | (extract_lets; split) | split | (dsimp only; split)
  · exact State.engineFree_memWf (State.bump_memWf (State.adjEpoch_memWf g1))
  · exact State.bump_memWf (State.adjEpoch_memWf g1)

theorem State.partReturned_memWf {s : State} {b : Batch} {p : Part} (g1 : memWf s) : memWf (State.partReturned s b p).1 := by
  unfold State.partReturned
  first | (extract_lets; split) | split | (dsimp only; split)
  · exact memWf_pair g1
  · exact memWf_ite_fst (memWf_pair (State.adjEpoch_memWf g1)) (State.partStale_memWf g1)

theorem State.checkParts_memWf {s : State} {b : Batch} (g1 : memWf s) : memWf (State.checkParts s b).1 := by
  unfold State.checkParts
  refine memWf_foldl_fst ?_ (memWf_pair g1)
  intro _ _ h1
  first | (extract_lets; split) | split | (dsimp only; split)
  · exact memWf_ite_fst (State.partReturned_memWf h1) h1
  · exact memWf_ite_fst (State.partReturned_memWf h1) h1
  · exact memWf_ite_fst (State.partReturned_memWf h1) h1
  · exact h1

theorem State.exchWord_memWf {s : State} {i a : Nat} (g1 : memWf s) : memWf (State.exchWord s i a) := by
  unfold State.exchWord
  refine memWf_foldl ?_ g1
  intro _ _ h1
  refine memWf_ite ?_ h1
  first | (extract_lets; split) | split | (dsimp only; split)
  · exact State.batchStep_memWf (State.checkParts_memWf h1)
  · exact h1

theorem State.partLost_memWf {s : State} {b : Batch} {p : Part} (g1 : memWf s) : memWf (State.partLost s b p) := by
  unfold State.partLost
  exact State.batchStep_memWf (State.jobError_memWf g1)

theorem State.setRx_memWf {s : State} {k : RxKey} {x : RxStream} (g1 : memWf s) : memWf (State.setRx s k x) := by
  unfold State.setRx
  exact memWf_mk g1

theorem State.refuse_memWf {s : State} {f : Frame} (g1 : memWf s) : memWf (State.refuse s f) := by
  unfold State.refuse
  exact State.sendFrame_memWf (State.setRx_memWf g1)

theorem State.acked_memWf {s : State} {f : Frame} {st : Status} (g1 : memWf s) : memWf (State.acked s f st) := by
  unfold State.acked
  exact State.sendFrame_memWf (State.setRx_memWf g1)

theorem State.responded_memWf {s : State} {f : Frame} {st : Status} {cacheable : Bool} {data : List Byte} (g1 : memWf s) :
    memWf (State.responded s f st cacheable data) := by
  unfold State.responded
  exact State.sendFrame_memWf (State.setRx_memWf g1)

theorem State.authFail_memWf {s : State} {f : Frame} (g1 : memWf s) : memWf (State.authFail s f) := by
  unfold State.authFail
  exact memWf_ite (State.event_memWf (State.capture_memWf (State.bump_memWf g1))) (State.capture_memWf (State.bump_memWf g1))

theorem State.unknownSource_memWf {s : State} {f : Frame} (g1 : memWf s) : memWf (State.unknownSource s f) := by
  unfold State.unknownSource
  exact memWf_ite (State.refuse_memWf g1) (State.refuse_memWf (State.event_memWf (State.setJob_memWf g1)))

theorem State.answerTornDown_memWf {s : State} {f : Frame} (g1 : memWf s) : memWf (State.answerTornDown s f) := by
  unfold State.answerTornDown
  exact State.sendFrame_memWf (State.setJob_memWf g1)

theorem State.takeIn_memWf {s : State} {f : Frame} (g1 : memWf s) : memWf (State.takeIn s f).1 := by
  unfold State.takeIn
  refine memWf_ite_fst (memWf_pair (State.bump_memWf g1)) ?_
  refine memWf_ite_fst (memWf_pair (State.authFail_memWf g1)) ?_
  refine memWf_ite_fst (memWf_pair (State.answerTornDown_memWf g1)) ?_
  first | (extract_lets; split) | split | (dsimp only; split)
  · exact memWf_pair (State.unknownSource_memWf g1)
  · refine memWf_ite_fst ?_ (memWf_pair (State.setRx_memWf g1))
    first | (extract_lets; split) | split | (dsimp only; split)
    · exact memWf_pair (State.sendFrame_memWf (State.bump_memWf (State.setRx_memWf g1)))
    · exact memWf_pair (memWf_ite (State.bump_memWf (State.setRx_memWf g1)) (State.sendFrame_memWf (State.bump_memWf (State.setRx_memWf g1))))

theorem State.inOrder_memWf {s : State} {f : Frame} (g1 : memWf s) : memWf (State.inOrder s f).1 := by
  unfold State.inOrder
  exact memWf_ite_fst (memWf_pair g1) (memWf_ite_fst (memWf_pair g1) (memWf_ite_fst (memWf_pair (State.refuse_memWf g1)) (memWf_pair (State.setRx_memWf g1))))

theorem State.onArrival_memWf {s : State} {f : Frame} {g : State → Nat → State × Status} (g1 : memWf s) (g2 : ∀ y1 y2, memWf y1 → memWf (g
    y1 y2).1) :
    memWf (State.onArrival s f g) := by
  unfold State.onArrival
  first | (extract_lets; split) | split | (dsimp only; split)
  · rename_i q
    have h1 := memWf_of_eq q (State.takeIn_memWf g1)
    exact h1
  · rename_i q
    have h2 := memWf_of_eq q (State.takeIn_memWf g1)
    exact State.acked_memWf (g2 _ _ h2)

theorem State.putRecv_memWf {s : State} {r : Recv} (g1 : memWf s) : memWf (State.putRecv s r) := by
  unfold State.putRecv
  exact State.updExch_memWf g1

theorem State.answer4_memWf {s : State} {i job o dst layer wave round step epoch own flags arrival : Nat} {entries : List (Nat × Nat ×
    Nat)} (g1 : memWf s) :
    memWf (State.answer4 s i job o dst layer wave round step epoch own flags arrival entries) := by
  unfold State.answer4
  exact memWf_ite (State.bump_memWf (State.sendRec_memWf (State.sendRec_memWf g1))) (State.sendRec_memWf (State.sendRec_memWf g1))

theorem State.answerZero_memWf {s : State} {c : CensusRec} {late : Bool} (g1 : memWf s) : memWf (State.answerZero s c late) := by
  unfold State.answerZero
  exact State.answer4_memWf g1

theorem State.latchCaps_memWf {s : State} {i step layer : Nat} {r : LayerRec} (g1 : memWf s) :
    memWf (State.latchCaps s i step layer r) := by
  unfold State.latchCaps
  exact memWf_ite g1 (State.updExch_memWf g1)

theorem State.recvStep_memWf {s : State} {id i : Nat} (g1 : memWf s) : memWf (State.recvStep s id i) := by
  unfold State.recvStep
  first | (extract_lets; split) | split | (dsimp only; split)
  · exact memWf_ite (State.trvDone_memWf (State.putRecv_memWf g1)) g1
  · exact g1

theorem State.markUnwritten_memWf {s : State} {i ext n stride : Nat} (g1 : memWf s) : memWf (State.markUnwritten s i ext n stride) := by
  unfold State.markUnwritten
  exact memWf_foldl (fun _ _ h1 => State.writeN_memWf h1) g1

theorem State.arrivalAdd_memWf {s : State} {i a g : Nat} {first : Option Nat} (g1 : memWf s) :
    memWf (State.arrivalAdd s i a g first) := by
  unfold State.arrivalAdd
  refine State.writeN_memWf ?_
  first | (extract_lets; split) | split | (dsimp only; split)
  · exact State.writeN_memWf (State.writeN_memWf g1)
  · exact State.writeN_memWf g1

theorem State.appendEntry_memWf {s : State} {r : Recv} {l : LayerRec} {wave : Nat} {g : Nat × Nat × Nat × Nat × Nat} (g1 : memWf s) :
    memWf (State.appendEntry s r l wave g).1 := by
  unfold State.appendEntry
  exact memWf_pair (State.arrivalAdd_memWf (State.markUnwritten_memWf (State.write_memWf g1)))

theorem State.setFinal_memWf {s : State} {r : Recv} {wave : Nat} (g1 : memWf s) : memWf (State.setFinal s r wave).1 := by
  unfold State.setFinal
  exact memWf_pair (memWf_foldl (fun _ _ h1 => State.writeN_memWf h1) g1)

theorem State.placed_memWf {s : State} {r : Recv} {p : Placing} (g1 : memWf s) : memWf (State.placed s r p) := by
  unfold State.placed
  first | (extract_lets; split) | split | (dsimp only; split)
  · exact g1
  · refine State.recvStep_memWf ?_
    refine memWf_foldl (fun _ _ h1 => State.answer4_memWf h1) ?_
    refine State.putRecv_memWf ?_
    refine memWf_ite_fst ?_ ?_
    · exact State.setFinal_memWf (memWf_foldl_fst (fun _ _ h2 => State.appendEntry_memWf h2) (memWf_pair g1))
    · exact memWf_foldl_fst (fun _ _ h3 => State.appendEntry_memWf h3) (memWf_pair g1)

theorem State.reservePlacing_memWf {s : State} {r : Recv} {p : Placing} (g1 : memWf s) : memWf (State.reservePlacing s r p) := by
  unfold State.reservePlacing
  first | (extract_lets; split) | split | (dsimp only; split)
  · exact State.putRecv_memWf g1
  · refine memWf_ite (State.placed_memWf (State.putRecv_memWf g1)) ?_
    first | (extract_lets; split) | split | (dsimp only; split)
    · exact State.exhausted_memWf (State.putRecv_memWf g1)
    · refine memWf_ite ?_ ?_
      · exact State.placed_memWf (memWf_foldl_fst (fun _ _ h1 => memWf_pair (State.engineExtent_memWf h1)) (memWf_pair g1))
      · exact State.putRecv_memWf (memWf_foldl_fst (fun _ _ h2 => memWf_pair (State.engineExtent_memWf h2)) (memWf_pair g1))

theorem State.landingServed_memWf {s : State} {i pid ext : Nat} (g1 : memWf s) : memWf (State.landingServed s i pid ext) := by
  unfold State.landingServed
  first | (extract_lets; split) | split | (dsimp only; split)
  · exact g1
  · first | (extract_lets; split) | split | (dsimp only; split)
    · exact g1
    · exact memWf_ite (State.placed_memWf g1) (State.putRecv_memWf g1)

theorem State.grantRound_memWf {s : State} {r : Recv} {l : LayerRec} {wave round : Nat} {cs : List CensusRec} {answers : List (Nat × Nat ×
    List (Nat × Nat))} {refused : Bool} (g1 : memWf s) :
    memWf (State.grantRound s r l wave round cs answers refused) := by
  unfold State.grantRound
  exact State.reservePlacing_memWf (State.exchId_memWf (memWf_ite (State.event_memWf (State.bump_memWf g1)) (State.bump_memWf g1)))

theorem State.computeRound_memWf {s : State} {r : Recv} {l : LayerRec} {w k : Nat} (g1 : memWf s) :
    memWf (State.computeRound s r l w k) := by
  unfold State.computeRound
  exact State.grantRound_memWf g1

theorem State.relaxedFinals_memWf {s : State} {i id : Nat} (g1 : memWf s) : memWf (State.relaxedFinals s i id) := by
  unfold State.relaxedFinals
  first | (extract_lets; split) | split | (dsimp only; split)
  · exact g1
  · first | (extract_lets; split) | split | (dsimp only; split)
    · exact g1
    · refine memWf_ite g1 ?_
      exact State.recvStep_memWf (State.putRecv_memWf (memWf_foldl_fst (fun _ _ h1 => memWf_pair (State.setFinal_memWf h1)) (memWf_pair g1)))

theorem State.relaxedCensus_memWf {s : State} {r : Recv} {l : LayerRec} {c : CensusRec} (g1 : memWf s) :
    memWf (State.relaxedCensus s r l c) := by
  unfold State.relaxedCensus
  exact State.relaxedFinals_memWf (State.grantRound_memWf g1)

theorem State.bindCensus_memWf {s : State} {r : Recv} {c : CensusRec} {l : LayerRec} (g1 : memWf s) :
    memWf (State.bindCensus s r c l) := by
  unfold State.bindCensus
  refine memWf_ite ?_ ?_
  · exact memWf_ite (State.answerZero_memWf g1) (State.putRecv_memWf g1)
  · exact memWf_ite (State.relaxedCensus_memWf (State.latchCaps_memWf g1)) (State.putRecv_memWf (State.latchCaps_memWf g1))

theorem State.routeCensus_memWf {s : State} {c : CensusRec} {l : LayerRec} (g1 : memWf s) : memWf (s.routeCensus c l) := by
  unfold State.routeCensus
  extract_lets recvs binds past hold zero
  have h (z : Bool) : memWf (hold z) := State.updExch_memWf g1
  have k : memWf zero := memWf_ite (State.answerZero_memWf g1) (h true)
  clear_value zero hold
  refine memWf_ite k ?_
  split
  · refine memWf_ite k ?_
    split
    · exact h false
    · exact State.bindCensus_memWf g1
  · exact State.bindCensus_memWf g1

theorem State.takeCensus_memWf {s : State} {i job : Nat} {h : RecHdr} {f : Frame} (g1 : memWf s) :
    memWf (State.takeCensus s i job h f).1 := by
  unfold State.takeCensus
  exact memWf_pair (State.updExch_memWf g1)

theorem State.censusFrame_memWf {s : State} {f : Frame} (g1 : memWf s) : memWf (State.censusFrame s f) := by
  unfold State.censusFrame
  first | (extract_lets; split) | split | (dsimp only; split)
  · refine memWf_ite ?_ ?_
    · exact State.answerZero_memWf (memWf_ite (State.updExch_memWf (State.takeCensus_memWf g1)) (State.takeCensus_memWf g1))
    · exact State.updExch_memWf (memWf_ite (State.updExch_memWf (State.takeCensus_memWf g1)) (State.takeCensus_memWf g1))
  · refine memWf_ite ?_ ?_
    · refine State.answerZero_memWf ?_
      exact State.bump_memWf (memWf_ite (State.updExch_memWf (State.takeCensus_memWf g1)) (State.takeCensus_memWf g1))
    · exact State.updExch_memWf (memWf_ite (State.updExch_memWf (State.takeCensus_memWf g1)) (State.takeCensus_memWf g1))
  · refine memWf_ite ?_ ?_
    · refine memWf_ite ?_ ?_
      · refine State.answerZero_memWf ?_
        exact State.bump_memWf (memWf_ite (State.updExch_memWf (State.takeCensus_memWf g1)) (State.takeCensus_memWf g1))
      · exact State.updExch_memWf (memWf_ite (State.updExch_memWf (State.takeCensus_memWf g1)) (State.takeCensus_memWf g1))
    · exact State.routeCensus_memWf (memWf_ite (State.updExch_memWf (State.takeCensus_memWf g1)) (State.takeCensus_memWf g1))

theorem State.offerHeld_memWf {s : State} {i step layer : Nat} (g1 : memWf s) : memWf (State.offerHeld s i step layer) := by
  unfold State.offerHeld
  first | (extract_lets; split) | split | (dsimp only; split)
  · exact State.updExch_memWf g1
  · exact memWf_foldl (fun _ _ h1 => State.routeCensus_memWf h1) (State.updExch_memWf g1)

theorem State.cancelRecord_memWf {s : State} {i : Nat} {h : RecHdr} (g1 : memWf s) : memWf (State.cancelRecord s i h) := by
  unfold State.cancelRecord
  refine memWf_foldl ?_ (State.updExch_memWf g1)
  intro _ _ h1
  refine memWf_ite ?_ h1
  refine State.relaxedFinals_memWf ?_
  exact State.putRecv_memWf (memWf_foldl (fun _ _ h2 => memWf_foldl (fun _ _ h3 => memWf_ite (State.write_memWf h3) h3) h2) h1)

theorem State.sendManifest_memWf {s : State} {i job o dst layer wave step own epoch : Nat} {l : List (Nat × Nat)} (g1 : memWf s) :
    memWf (State.sendManifest s i job o dst layer wave step own epoch l) := by
  unfold State.sendManifest
  exact State.sendRec_memWf g1

theorem State.setRet_memWf {s : State} {r : RetRun} (g1 : memWf s) : memWf (State.setRet s r) := by
  unfold State.setRet
  exact State.updExch_memWf g1

theorem State.sendGroup_memWf {s : State} {r : RetRun} {g : RetGroup} (g1 : memWf s) : memWf (State.sendGroup s r g) := by
  unfold State.sendGroup
  exact State.issueGather_memWf g1

theorem State.sendGroupRelay_memWf {s : State} {r : RetRun} {g : RetGroup} {relay place : Nat} (g1 : memWf s) :
    memWf (State.sendGroupRelay s r g relay place) := by
  unfold State.sendGroupRelay
  exact State.issueGather_memWf g1

theorem State.retStep_memWf {s : State} {i id : Nat} (g1 : memWf s) : memWf (State.retStep s i id) := by
  unfold State.retStep
  first | (extract_lets; split) | split | (dsimp only; split)
  · exact g1
  · first | (extract_lets; split) | split | (dsimp only; split)
    · exact g1
    · refine memWf_ite ?_ ?_
      · refine State.recvStep_memWf ?_
        refine State.trvDone_memWf ?_
        refine State.updExch_memWf ?_
        refine State.putRecv_memWf ?_
        refine memWf_foldl ?_ g1
        intro _ _ h1
        first | (extract_lets; split) | split | (dsimp only; split)
        · exact State.engineFree_memWf h1
        · exact h1
      · refine State.putRecv_memWf ?_
        refine memWf_foldl ?_ g1
        intro _ _ h2
        first | (extract_lets; split) | split | (dsimp only; split)
        · exact State.engineFree_memWf h2
        · exact h2

theorem State.retDone_memWf {s : State} {i gid : Nat} {st : Status} (g1 : memWf s) : memWf (State.retDone s i gid st) := by
  unfold State.retDone
  first | (extract_lets; split) | split | (dsimp only; split)
  · exact g1
  · exact State.retStep_memWf (State.setRet_memWf g1)

theorem State.doReturn_memWf {s : State} {q : QDesc} {v : Recv} {l : LayerRec} (g1 : memWf s) : memWf (State.doReturn s q v l) := by
  unfold State.doReturn
  refine State.retStep_memWf ?_
  refine memWf_foldl (fun _ _ h1 => State.sendGroup_memWf h1) ?_
  refine memWf_foldl (fun _ _ h2 => State.sendManifest_memWf h2) ?_
  refine State.updExch_memWf ?_
  refine memWf_foldl_fst ?_ ?_
  · intro _ _ h3
    refine memWf_foldl_fst ?_ h3
    exact fun _ _ h4 => memWf_pair (memWf_foldl_fst (fun _ _ h5 => memWf_pair (State.freeBytes_memWf h5)) (memWf_pair (State.exchId_memWf h4)))
  · exact memWf_pair (memWf_foldl (fun _ _ h6 => State.bump_memWf (State.sendRec_memWf h6)) (State.exchId_memWf (State.putRecv_memWf g1)))

theorem State.setRelay_memWf {s : State} {r : RelayIn} (g1 : memWf s) : memWf (State.setRelay s r) := by
  unfold State.setRelay
  exact State.updExch_memWf g1

theorem State.joinRelay_memWf {s : State} {i job o : Nat} {h : RecHdr} {domain bytes : Nat} {remote : Bool} (g1 : memWf s) :
    memWf (State.joinRelay s i job o h domain bytes remote).1 := by
  unfold State.joinRelay
  first | (extract_lets; split) | split | (dsimp only; split)
  · exact memWf_pair (State.setRelay_memWf g1)
  · exact memWf_pair (State.updExch_memWf (State.exchId_memWf g1))

theorem State.answerManifest_memWf {s : State} {i : Nat} {a : RelayAns} (g1 : memWf s) : memWf (State.answerManifest s i a) := by
  unfold State.answerManifest
  exact memWf_ite (State.sendRec_memWf (State.updExch_memWf g1)) (State.updExch_memWf g1)

theorem State.relayExtent_memWf {s : State} {i rid src ext : Nat} (g1 : memWf s) : memWf (State.relayExtent s i rid src ext) := by
  unfold State.relayExtent
  first | (extract_lets; split) | split | (dsimp only; split)
  · exact g1
  · exact State.setRelay_memWf g1

theorem State.manifestFrame_memWf {s : State} {f : Frame} (g1 : memWf s) : memWf (State.manifestFrame s f) := by
  unfold State.manifestFrame
  first | (extract_lets; split) | split | (dsimp only; split)
  · exact g1
  · first | (extract_lets; split) | split | (dsimp only; split)
    · exact State.exhausted_memWf g1
    · refine State.answerManifest_memWf ?_
      refine State.updExch_memWf ?_
      refine memWf_foldl_fst ?_ (memWf_pair (State.exchId_memWf g1))
      intro _ _ h1
      refine memWf_ite_fst (memWf_pair (State.joinRelay_memWf h1)) ?_
      refine memWf_pair ?_
      first | (extract_lets; split) | split | (dsimp only; split)
      · exact State.relayExtent_memWf (State.engineExtent_memWf (State.joinRelay_memWf h1))
      · exact State.engineExtent_memWf (State.joinRelay_memWf h1)

theorem State.relayServed_memWf {s : State} {i aid ext : Nat} (g1 : memWf s) : memWf (State.relayServed s i aid ext) := by
  unfold State.relayServed
  first | (extract_lets; split) | split | (dsimp only; split)
  · exact g1
  · refine State.answerManifest_memWf ?_
    first | (extract_lets; split) | split | (dsimp only; split)
    · exact State.relayExtent_memWf g1
    · exact g1

theorem State.relayPut_memWf {s : State} {i a n : Nat} (g1 : memWf s) : memWf (State.relayPut s i a n) := by
  unfold State.relayPut
  exact State.updExch_memWf g1

theorem State.recordTo_memWf {s : State} {i job o : Nat} {l : List Nat} {rec : List Byte} (g1 : memWf s) :
    memWf (State.recordTo s i job o l rec) := by
  unfold State.recordTo
  exact memWf_foldl (fun _ _ h1 => State.issueRecord_memWf h1) g1

theorem State.passCancel_memWf {s : State} {i : Nat} {c : RelayCancel} (g1 : memWf s) : memWf (State.passCancel s i c) := by
  unfold State.passCancel
  first | (extract_lets; split) | split | (dsimp only; split)
  · exact State.recordTo_memWf g1
  · exact State.recordTo_memWf g1
  · exact g1

theorem State.relayCancels_memWf {s : State} {i : Nat} (g1 : memWf s) : memWf (State.relayCancels s i) := by
  unfold State.relayCancels
  exact memWf_foldl (fun _ _ h1 => State.passCancel_memWf h1) (State.updExch_memWf g1)

theorem State.relayOver_memWf {s : State} {r : RelayIn} (g1 : memWf s) : memWf (State.relayOver s r) := by
  unfold State.relayOver
  refine State.relayCancels_memWf ?_
  refine State.updExch_memWf ?_
  refine memWf_foldl ?_ g1
  intro _ _ h1
  first | (extract_lets; split) | split | (dsimp only; split)
  · exact State.engineFree_memWf h1
  · exact h1

theorem State.relayGo_memWf {s : State} {r : RelayIn} (g1 : memWf s) : memWf (State.relayGo s r) := by
  unfold State.relayGo
  refine memWf_ite ?_ ?_
  · refine memWf_ite ?_ ?_
    · exact State.relayOver_memWf (State.setRelay_memWf g1)
    · exact memWf_foldl (fun _ _ h1 => State.issueGather_memWf h1) (State.setRelay_memWf g1)
  · first | (extract_lets; split) | split | (dsimp only; split)
    · exact memWf_ite (State.relayOver_memWf g1) g1
    · exact memWf_ite (State.relayOver_memWf g1) (State.sendManifest_memWf (State.setRelay_memWf g1))

theorem State.relaySend_memWf {s : State} {r : RelayIn} {peer place : Nat} (g1 : memWf s) : memWf (State.relaySend s r peer place) := by
  unfold State.relaySend
  exact State.issueGather_memWf (State.setRelay_memWf g1)

theorem State.relayDone_memWf {s : State} {i rid : Nat} (g1 : memWf s) : memWf (State.relayDone s i rid) := by
  unfold State.relayDone
  first | (extract_lets; split) | split | (dsimp only; split)
  · exact g1
  · exact memWf_ite (State.relayOver_memWf (State.setRelay_memWf g1)) (State.setRelay_memWf g1)

theorem State.relayCancel_memWf {s : State} {i job src : Nat} {h : RecHdr} {rec : List Byte} (g1 : memWf s) :
    memWf (State.relayCancel s i job src h rec) := by
  unfold State.relayCancel
  exact State.relayCancels_memWf (State.updExch_memWf g1)

theorem State.pltDone_memWf {s : State} {o i layer done tag : Nat} {st : Status} (g1 : memWf s) :
    memWf (State.pltDone s o i layer done tag st) := by
  unfold State.pltDone
  exact State.complete_memWf (memWf_ite g1 (State.capture_memWf g1))

theorem State.undefine_memWf {s : State} {i job own a n : Nat} (g1 : memWf s) : memWf (State.undefine s i job own a n) := by
  unfold State.undefine
  exact State.wake_memWf (State.draw_memWf (memWf_foldl (fun _ _ h1 => State.poke_memWf h1) g1))

theorem State.plotStart_memWf {s : State} {o : Nat} {q : QDesc} {l : LayerRec} {h : Half} (g1 : memWf s) :
    memWf (State.plotStart s o q l h) := by
  unfold State.plotStart
  refine memWf_mk ?_
  refine memWf_ite ?_ ?_
  · refine State.countFold_memWf ?_
    exact State.adjEpoch_memWf (memWf_ite_fst (State.access_memWf (State.access_memWf g1)) (memWf_pair (State.access_memWf g1)))
  · exact State.adjEpoch_memWf (memWf_ite_fst (State.access_memWf (State.access_memWf g1)) (memWf_pair (State.access_memWf g1)))

theorem State.plotTake_memWf {s : State} {o : Nat} (g1 : memWf s) : memWf (State.plotTake s o) := by
  unfold State.plotTake
  first | (extract_lets; split) | split | (dsimp only; split)
  · first | (extract_lets; split) | split | (dsimp only; split)
    · exact State.plotStart_memWf (State.popEngine_memWf g1)
    · exact State.pltDone_memWf (State.popEngine_memWf g1)
    · exact State.pltDone_memWf (State.popEngine_memWf g1)
  · exact g1

theorem State.plotComplete_memWf {s : State} {o : Nat} (g1 : memWf s) : memWf (State.plotComplete s o) := by
  unfold State.plotComplete
  first | (extract_lets; split) | split | (dsimp only; split)
  · exact g1
  · refine State.pltDone_memWf ?_
    refine memWf_mk ?_
    refine memWf_ite ?_ ?_
    · refine State.bump_memWf ?_
      refine State.bump_memWf ?_
      exact State.set_memWf (memWf_ite (State.write_memWf (State.write_memWf (memWf_mk g1))) (State.undefine_memWf (memWf_mk g1)))
    · exact State.countFold_memWf (memWf_ite (State.write_memWf (State.write_memWf (memWf_mk g1))) (State.undefine_memWf (memWf_mk g1)))

theorem State.foldUnstarted_memWf {s : State} {b : Batch} (g1 : memWf s) : memWf (State.foldUnstarted s b).1 := by
  unfold State.foldUnstarted
  exact memWf_pair (State.countFold_memWf g1)

theorem State.abandon_memWf {s : State} {b : Batch} {st : Status} (g1 : memWf s) : memWf (State.abandon s b st) := by
  unfold State.abandon
  exact State.endBatch_memWf (State.foldUnstarted_memWf g1)

theorem State.batchGather_memWf {s : State} {b : Batch} (g1 : memWf s) : memWf (State.batchGather s b) := by
  unfold State.batchGather
  first | (extract_lets; split) | split | (dsimp only; split)
  · exact State.abandon_memWf g1
  · exact memWf_ite (State.abandon_memWf g1) (State.putBatch_memWf g1)

theorem State.takeDelivery_memWf {s : State} {i : Nat} {d : Delivery} (g1 : memWf s) : memWf (State.takeDelivery s i d) := by
  unfold State.takeDelivery
  first | (extract_lets; split) | split | (dsimp only; split)
  · first | (extract_lets; split) | split | (dsimp only; split)
    · exact memWf_ite (State.countFold_memWf g1) (memWf_ite (State.batchGather_memWf g1) (State.updExch_memWf g1))
    · exact memWf_ite g1 (State.batchGather_memWf g1)
  · exact State.updExch_memWf g1

theorem State.sendCensuses_memWf {s : State} {b : Batch} {dests : List Nat} (g1 : memWf s) : memWf (State.sendCensuses s b dests) := by
  unfold State.sendCensuses
  exact memWf_foldl (fun _ _ h1 => State.sendRec_memWf h1) (State.putBatch_memWf g1)

theorem State.startBatch_memWf {s : State} {b : Batch} {v : Recv} {l : LayerRec} (g1 : memWf s) : memWf (State.startBatch s b v l) := by
  unfold State.startBatch
  exact State.sendCensuses_memWf (State.combine_memWf g1)

theorem State.splitGrant_memWf {s : State} {b : Batch} {dest slot ext arrival : Nat} {got : List Nat} (g1 : memWf s) :
    memWf (State.splitGrant s b dest slot ext arrival got).1 := by
  unfold State.splitGrant
  exact memWf_pair (memWf_foldl_fst (fun _ _ h1 => memWf_pair (State.exchId_memWf h1)) (memWf_pair (State.adjEpoch_memWf g1)))

theorem State.refused_memWf {s : State} {b : Batch} {l : LayerRec} {pos : List Nat} (g1 : memWf s) :
    memWf (State.refused s b l pos).1 := by
  unfold State.refused
  refine memWf_ite_fst (memWf_pair g1) ?_
  refine memWf_ite_fst ?_ ?_
  · exact memWf_pair (State.bump_memWf (State.adjEpoch_memWf g1))
  · exact memWf_ite_fst (memWf_pair (memWf_ite (State.adjEpoch_memWf g1) g1)) (State.fold_memWf (memWf_ite (State.adjEpoch_memWf g1) g1))

theorem State.redirect_memWf {s : State} {b : Batch} {l : LayerRec} (g1 : memWf s) : memWf (State.redirect s b l).1 := by
  unfold State.redirect
  first | (extract_lets; split) | split | (dsimp only; split)
  · exact memWf_pair g1
  · refine memWf_foldl_fst ?_ (memWf_pair g1)
    intro _ _ h1
    first | (extract_lets; split) | split | (dsimp only; split)
    · exact h1
    · first | (extract_lets; split) | split | (dsimp only; split)
      · exact State.fold_memWf h1
      · first | (extract_lets; split) | split | (dsimp only; split)
        · exact memWf_ite_fst (memWf_pair (State.bump_memWf h1)) (State.fold_memWf (State.bump_memWf h1))
        · exact State.fold_memWf (State.bump_memWf h1)

theorem State.waveManifests_memWf {s : State} {b : Batch} {l : LayerRec} (g1 : memWf s) : memWf (State.waveManifests s b l).1 := by
  unfold State.waveManifests
  exact memWf_pair (memWf_foldl (fun _ _ h1 => State.sendManifest_memWf h1) g1)

theorem State.roundEnd_memWf {s : State} {b : Batch} (g1 : memWf s) : memWf (State.roundEnd s b) := by
  unfold State.roundEnd
  first | (extract_lets; split) | split | (dsimp only; split)
  · exact State.putBatch_memWf g1
  · refine memWf_ite ?_ ?_
    · exact State.sendCensuses_memWf (memWf_ite_fst (State.redirect_memWf g1) (memWf_pair g1))
    · refine memWf_ite ?_ ?_
      · refine State.sendCensuses_memWf ?_
        refine State.fold_memWf ?_
        refine memWf_ite ?_ ?_
        · exact State.waveManifests_memWf (memWf_ite_fst (State.redirect_memWf g1) (memWf_pair g1))
        · exact State.adjEpoch_memWf (State.waveManifests_memWf (memWf_ite_fst (State.redirect_memWf g1) (memWf_pair g1)))
      · refine State.batchStep_memWf ?_
        refine State.fold_memWf ?_
        refine State.fold_memWf ?_
        refine memWf_ite ?_ ?_
        · exact State.waveManifests_memWf (memWf_ite_fst (State.redirect_memWf g1) (memWf_pair g1))
        · exact State.adjEpoch_memWf (State.waveManifests_memWf (memWf_ite_fst (State.redirect_memWf g1) (memWf_pair g1)))

theorem State.afterAnswer_memWf {s : State} {b : Batch} (g1 : memWf s) : memWf (State.afterAnswer s b) := by
  unfold State.afterAnswer
  exact memWf_ite (State.roundEnd_memWf (State.combine_memWf g1)) (State.batchStep_memWf g1)

theorem State.applyGrants_memWf {s : State} {b : Batch} {l : LayerRec} {w : Await} (g1 : memWf s) :
    memWf (State.applyGrants s b l w) := by
  unfold State.applyGrants
  refine State.afterAnswer_memWf ?_
  refine memWf_foldl_fst ?_ (memWf_pair g1)
  intro _ _ h1
  refine memWf_ite_fst (memWf_pair (State.refused_memWf h1)) ?_
  first | (extract_lets; split) | split | (dsimp only; split)
  · exact memWf_pair (State.refused_memWf (State.bump_memWf h1))
  · exact memWf_pair (State.refused_memWf (State.splitGrant_memWf h1))

theorem State.grantFrame_memWf {s : State} {b : Batch} {w : Await} {f : Frame} (g1 : memWf s) : memWf (State.grantFrame s b w f) := by
  unfold State.grantFrame
  first | (extract_lets; split) | split | (dsimp only; split)
  · exact State.applyGrants_memWf g1
  · exact State.putBatch_memWf g1

theorem State.landedPieces_memWf {s : State} {b : Batch} {l : LayerRec} {p : Part} {stride : Nat} (g1 : memWf s) :
    memWf (State.landedPieces s b l p stride).1 := by
  unfold State.landedPieces
  refine memWf_foldl_fst ?_ (memWf_pair g1)
  intro _ _ h1
  first | (extract_lets; split) | split | (dsimp only; split)
  · exact h1
  · exact memWf_pair (State.freeBytes_memWf h1)

theorem State.sendPart_memWf {s : State} {b : Batch} {p : Part} (g1 : memWf s) : memWf (State.sendPart s b p) := by
  unfold State.sendPart
  first | (extract_lets; split) | split | (dsimp only; split)
  · exact State.putBatch_memWf g1
  · first | (extract_lets; split) | split | (dsimp only; split)
    · exact State.putBatch_memWf g1
    · exact State.issueGather_memWf (State.putBatch_memWf (State.landedPieces_memWf g1))
    · exact State.issueGather_memWf (State.putBatch_memWf (State.landedPieces_memWf g1))

theorem State.partExtent_memWf {s : State} {b : Batch} {p : Part} {ext : Nat} (g1 : memWf s) : memWf (State.partExtent s b p ext) := by
  unfold State.partExtent
  exact memWf_ite (State.engineFree_memWf g1) (State.sendPart_memWf (State.writeN_memWf g1))

theorem State.reservePart_memWf {s : State} {b : Batch} {p : Part} (g1 : memWf s) : memWf (State.reservePart s b p) := by
  unfold State.reservePart
  first | (extract_lets; split) | split | (dsimp only; split)
  · exact g1
  · first | (extract_lets; split) | split | (dsimp only; split)
    · exact State.putBatch_memWf (State.exhausted_memWf g1)
    · first | (extract_lets; split) | split | (dsimp only; split)
      · exact State.partExtent_memWf (State.engineExtent_memWf g1)
      · exact State.putBatch_memWf (State.engineExtent_memWf g1)

theorem State.placeParts_memWf {s : State} {b : Batch} {relay wave : Nat} {doms : List (Nat × Nat)} {exts : List Nat} (g1 : memWf s) :
    memWf (State.placeParts s b relay wave doms exts) := by
  unfold State.placeParts
  refine memWf_foldl ?_ (State.putBatch_memWf g1)
  intro _ _ h1
  first | (extract_lets; split) | split | (dsimp only; split)
  · exact memWf_ite (State.sendPart_memWf h1) h1
  · exact h1

theorem State.cancelBatch_memWf {s : State} {b : Batch} (g1 : memWf s) : memWf (State.cancelBatch s b) := by
  unfold State.cancelBatch
  refine memWf_ite ?_ ?_
  · refine State.putBatch_memWf ?_
    refine State.combine_memWf ?_
    refine memWf_foldl ?_ ?_
    · intro _ _ h1
      first | (extract_lets; split) | split | (dsimp only; split)
      · exact State.engineFree_memWf (State.adjEpoch_memWf h1)
      · exact State.adjEpoch_memWf h1
    · refine memWf_ite_fst ?_ ?_
      · exact State.fold_memWf (memWf_ite (State.adjEpoch_memWf g1) g1)
      · exact State.foldUnstarted_memWf (memWf_ite (State.adjEpoch_memWf g1) g1)
  · refine State.endBatch_memWf ?_
    refine memWf_foldl (fun _ _ h2 => State.undefine_memWf h2) ?_
    refine State.combine_memWf ?_
    refine memWf_foldl ?_ ?_
    · intro _ _ h3
      first | (extract_lets; split) | split | (dsimp only; split)
      · exact State.engineFree_memWf (State.adjEpoch_memWf h3)
      · exact State.adjEpoch_memWf h3
    · refine memWf_ite_fst ?_ ?_
      · exact State.fold_memWf (memWf_ite (State.adjEpoch_memWf g1) g1)
      · exact State.foldUnstarted_memWf (memWf_ite (State.adjEpoch_memWf g1) g1)

theorem State.cancelStep_memWf {s : State} {i e : Nat} (g1 : memWf s) : memWf (State.cancelStep s i e) := by
  unfold State.cancelStep
  refine memWf_ite g1 ?_
  refine State.settleEpoch_memWf ?_
  refine memWf_foldl ?_ ?_
  · intro _ _ h1
    first | (extract_lets; split) | split | (dsimp only; split)
    · exact State.trvDone_memWf h1
    · exact State.final_memWf h1
  · refine memWf_foldl ?_ ?_
    · intro _ _ h2
      first | (extract_lets; split) | split | (dsimp only; split)
      · exact State.cancelBatch_memWf h2
      · exact h2
    · exact State.setEpoch_memWf (memWf_foldl (fun _ _ h3 => State.recordTo_memWf h3) g1)

theorem State.cancelBegin_memWf {s : State} {i e : Nat} {w : EpochFor} (g1 : memWf s) : memWf (State.cancelBegin s i e w) := by
  unfold State.cancelBegin
  exact State.cancelStep_memWf (State.updExch_memWf (State.adjEpoch_memWf g1))

theorem State.partDone_memWf {s : State} {i id : Nat} {st : Status} (g1 : memWf s) : memWf (State.partDone s i id st) := by
  unfold State.partDone
  first | (extract_lets; split) | split | (dsimp only; split)
  · exact g1
  · exact State.cancelStep_memWf (memWf_ite g1 (memWf_ite (State.batchStep_memWf (State.checkParts_memWf g1)) (State.partLost_memWf g1)))

theorem State.engineAnswer_memWf {s : State} {p : Nat} {src : ReqFrom} {ext : Nat} (g1 : memWf s) :
    memWf (State.engineAnswer s p src ext) := by
  unfold State.engineAnswer
  first | (extract_lets; split) | split | (dsimp only; split)
  · exact memWf_foldl (fun _ _ h1 => memWf_ite h1 (State.relaxedFinals_memWf h1)) (State.landingServed_memWf g1)
  · first | (extract_lets; split) | split | (dsimp only; split)
    · exact State.partExtent_memWf g1
    · exact State.engineFree_memWf g1
  · exact State.relayServed_memWf g1
  · exact g1

theorem State.exchOps_memWf {s : State} (g1 : memWf s) : memWf (State.exchOps s) := by
  unfold State.exchOps
  refine memWf_foldl ?_ (memWf_mk g1)
  exact fun _ _ h1 => memWf_ite (State.partDone_memWf h1) (memWf_ite (State.retDone_memWf h1) (State.relayDone_memWf h1))

theorem State.poolBegin_memWf {s : State} {pkt : Packet} {deferred : Bool} (g1 : memWf s) : memWf (State.poolBegin s pkt deferred).1 := by
  unfold State.poolBegin
  first | (extract_lets; split) | split | (dsimp only; split)
  · exact memWf_pair g1
  · exact memWf_pair (State.setPool_memWf (State.draw_memWf g1))

theorem bodyPoolCreate_memWf {s : State} {v1 : Owed} {h : CmdHdr} {p : List Byte} (g1 : memWf s) : memWf (bodyPoolCreate s v1 h p).1 := by
  unfold bodyPoolCreate
  first | (extract_lets; split) | split | (dsimp only; split)
  · exact memWf_pair g1
  · first | (extract_lets; split) | split | (dsimp only; split)
    · exact State.poolBegin_memWf g1
    · exact memWf_pair (State.setPool_memWf g1)

theorem bodyPoolSetMode_memWf {s : State} {v1 : Owed} {h : CmdHdr} {p : List Byte} (g1 : memWf s) :
    memWf (bodyPoolSetMode s v1 h p).1 := by
  unfold bodyPoolSetMode
  first | (extract_lets; split) | split | (dsimp only; split)
  · exact memWf_pair g1
  · first | (extract_lets; split) | split | (dsimp only; split)
    · exact memWf_pair g1
    · exact memWf_pair (State.putPool_memWf (State.draw_memWf g1))

theorem State.setThresh_memWf {s : State} {p : Nat} {t : Nat × Nat × Nat × Nat} (g1 : memWf s) : memWf (State.setThresh s p t) := by
  unfold State.setThresh
  exact State.putPool_memWf g1

theorem bodyPoolSetThresh_memWf {s : State} {v1 : Owed} {h : CmdHdr} {p : List Byte} (g1 : memWf s) :
    memWf (bodyPoolSetThresh s v1 h p).1 := by
  unfold bodyPoolSetThresh
  first | (extract_lets; split) | split | (dsimp only; split)
  · exact memWf_pair g1
  · exact memWf_pair (State.setThresh_memWf g1)

theorem bodyPoolUnquarantine_memWf {s : State} {v1 : Owed} {h : CmdHdr} {p : List Byte} (g1 : memWf s) :
    memWf (bodyPoolUnquarantine s v1 h p).1 := by
  unfold bodyPoolUnquarantine
  first | (extract_lets; split) | split | (dsimp only; split)
  · exact memWf_pair g1
  · exact memWf_pair (State.putPool_memWf g1)

theorem State.reqAnswer_memWf {s : State} {p : Nat} {r : PoolReq} {st : Status} {cells : List Nat} (g1 : memWf s) :
    memWf (State.reqAnswer s p r st cells) := by
  unfold State.reqAnswer
  first | (extract_lets; split) | split | (dsimp only; split)
  · exact State.complete_memWf (memWf_ite (State.write_memWf g1) g1)
  · exact memWf_ite (State.exchOps_memWf (State.engineAnswer_memWf g1)) g1

theorem State.poolsDrained_memWf {s : State} (g1 : memWf s) : memWf (State.poolsDrained s) := by
  unfold State.poolsDrained
  exact memWf_mk g1

theorem State.poolStop1_memWf {s : State} {p : Nat} (g1 : memWf s) : memWf (State.poolStop1 s p) := by
  unfold State.poolStop1
  exact State.poolsDrained_memWf (memWf_foldl (fun _ _ h1 => State.reqAnswer_memWf h1) (State.setPool_memWf g1))

theorem State.poolStop_memWf {s : State} {p : Nat} (g1 : memWf s) : memWf (State.poolStop s p) := by
  unfold State.poolStop
  first | (extract_lets; split) | split | (dsimp only; split)
  · exact State.tornDown_memWf (State.setPool_memWf g1)
  · exact State.poolStop1_memWf (State.setPool_memWf g1)
  · exact g1

theorem bodyPoolDestroy_memWf {s : State} {o : Owed} {h : CmdHdr} {p : List Byte} (g1 : memWf s) : memWf (bodyPoolDestroy s o h p).1 := by
  unfold bodyPoolDestroy
  first | (extract_lets; split) | split | (dsimp only; split)
  · exact memWf_pair g1
  · exact memWf_pair (State.tornDown_memWf (memWf_ite (State.poolStop1_memWf (State.setPool_memWf g1)) (State.setPool_memWf g1)))

theorem State.poolDeferred_memWf {s : State} {pkt : Packet} (g1 : memWf s) : memWf (State.poolDeferred s pkt) := by
  unfold State.poolDeferred
  first | (extract_lets; split) | split | (dsimp only; split)
  · exact State.final_memWf (State.poolBegin_memWf g1)
  · exact State.poolBegin_memWf g1

theorem State.poolFinish_memWf {s : State} {p : Nat} (g1 : memWf s) : memWf (s.poolFinish p) := by
  unfold State.poolFinish
  extract_lets x s1 bad s2 r s3 s4
  have h1 : memWf s1 := memWf_clear g1
  have h2 : memWf s2 := memWf_ite (State.jobMisclosure_memWf (State.misclosure_memWf h1)) h1
  have h4 : memWf s4 := State.finals_memWf (State.setPool_memWf h2)
  clear_value s4
  split
  · exact State.poolDeferred_memWf h4
  · exact h4

theorem State.popQueue_memWf {s : State} {k q : Nat} (g1 : memWf s) : memWf (State.popQueue s k q) := by
  unfold State.popQueue
  exact memWf_mk g1

theorem State.poolRequest_memWf {s : State} {k op : Nat} (g1 : memWf s) : memWf (s.poolRequest k op) := by
  unfold State.poolRequest
  split
  · exact g1
  · refine memWf_ite g1 ?_
    extract_lets s1 p r s2
    have h : memWf s2 := memWf_mk (State.popQueue_memWf g1)
    clear_value s2
    split
    · exact State.reqAnswer_memWf h
    · refine memWf_ite (State.reqAnswer_memWf (State.badPointer_memWf h)) (memWf_ite ?_ (State.reqAnswer_memWf (State.poolNoCells_memWf h)))
      split
      · rename_i q
        split at q
        · exact State.reqAnswer_memWf (State.poolTry_memWf q h)
        · cases q
      · exact memWf_ite (State.reqAnswer_memWf h) (State.poolWait_memWf h)

theorem State.poolCapture_memWf {s : State} {i : Nat} (g1 : memWf s) : memWf (State.poolCapture s i) := by
  unfold State.poolCapture
  exact memWf_ite (memWf_ite (State.misclosure_memWf (State.setPool_memWf g1)) (State.setPool_memWf g1)) (State.setPool_memWf g1)

theorem State.threshWrite_memWf {s : State} {p : Nat} {w : Word} (g1 : memWf s) : memWf (State.threshWrite s p w) := by
  unfold State.threshWrite
  exact memWf_ite g1 (memWf_ite (State.setThresh_memWf g1) (State.regRefused_memWf g1))

theorem State.pickLaser_memWf {s : State} {p : Nat} (g1 : memWf s) : memWf (State.pickLaser s p) := by
  unfold State.pickLaser
  refine memWf_ite (memWf_mk g1) ?_
  first | (extract_lets; split) | split | (dsimp only; split)
  · exact memWf_mk (memWf_mk g1)
  · exact memWf_mk g1

theorem State.startTraining_memWf {s : State} {p : Nat} {l : Life} {mode : Option Nat} {laser : Bool} (g1 : memWf s) :
    memWf (State.startTraining s p l mode laser) := by
  unfold State.startTraining
  refine State.portTo_memWf ?_
  refine State.set_memWf ?_
  refine memWf_ite ?_ ?_
  · refine State.pickLaser_memWf ?_
    first | (extract_lets; split) | split | (dsimp only; split)
    · exact State.set_memWf g1
    · exact g1
  · first | (extract_lets; split) | split | (dsimp only; split)
    · exact State.set_memWf g1
    · exact g1

theorem bodyPortEnable_memWf {s : State} {v1 : Owed} {h : CmdHdr} {p : List Byte} (g1 : memWf s) : memWf (bodyPortEnable s v1 h p).1 := by
  unfold bodyPortEnable
  first | (extract_lets; split) | split | (dsimp only; split)
  · exact memWf_pair g1
  · refine memWf_ite_fst (memWf_pair g1) ?_
    first | (extract_lets; split) | split | (dsimp only; split)
    · exact memWf_pair (State.startTraining_memWf g1)
    · exact memWf_pair (State.setPort_memWf g1)

theorem State.portStop_memWf {s : State} {n : Nat} {l : Life} (g1 : memWf s) : memWf (State.portStop s n l) := by
  unfold State.portStop
  exact State.portTo_memWf g1

theorem bodyPortDisable_memWf {s : State} {o : Owed} {v2 : CmdHdr} {p : List Byte} (g1 : memWf s) :
    memWf (bodyPortDisable s o v2 p).1 := by
  unfold bodyPortDisable
  first | (extract_lets; split) | split | (dsimp only; split)
  · exact memWf_pair g1
  · first | (extract_lets; split) | split | (dsimp only; split)
    · exact memWf_pair (State.tornDown_memWf (State.portStop_memWf g1))
    · exact memWf_pair (State.tornDown_memWf (State.setPort_memWf g1))

theorem bodyPortRetrain_memWf {s : State} {v1 : Owed} {v2 : CmdHdr} {p : List Byte} (g1 : memWf s) :
    memWf (bodyPortRetrain s v1 v2 p).1 := by
  unfold bodyPortRetrain
  first | (extract_lets; split) | split | (dsimp only; split)
  · exact memWf_pair g1
  · exact memWf_ite_fst (memWf_pair (State.startTraining_memWf g1)) (memWf_pair g1)

theorem bodyPortUnquarantine_memWf {s : State} {v1 : Owed} {v2 : CmdHdr} {p : List Byte} (g1 : memWf s) :
    memWf (bodyPortUnquarantine s v1 v2 p).1 := by
  unfold bodyPortUnquarantine
  first | (extract_lets; split) | split | (dsimp only; split)
  · exact memWf_pair g1
  · exact memWf_ite_fst (memWf_pair (State.set_memWf (State.setPort_memWf g1))) (memWf_pair g1)

theorem bodyPortInject_memWf {s : State} {v1 : Owed} {v2 : CmdHdr} {p : List Byte} (g1 : memWf s) :
    memWf (bodyPortInject s v1 v2 p).1 := by
  unfold bodyPortInject
  first | (extract_lets; split) | split | (dsimp only; split)
  · exact memWf_pair g1
  · refine memWf_ite_fst (memWf_pair (State.disarm_memWf g1)) ?_
    exact memWf_pair (State.event_memWf (State.setPort_memWf (State.set_memWf (State.set_memWf (State.set_memWf (State.set_memWf g1))))))

theorem State.contourPort_memWf {s : State} {n : Nat} (g1 : memWf s) : memWf (State.contourPort s n) := by
  unfold State.contourPort
  exact memWf_ite (State.event_memWf (memWf_mk g1)) g1

theorem State.portOn_memWf {s : State} {owed : Option Owed} (g1 : memWf s) : memWf (State.portOn s owed) := by
  unfold State.portOn
  first | (extract_lets; split) | split | (dsimp only; split)
  · exact State.final_memWf g1
  · exact g1

theorem State.portGoUp_memWf {s : State} {n : Nat} (g1 : memWf s) : memWf (State.portGoUp s n) := by
  unfold State.portGoUp
  exact State.portOn_memWf (State.portTo_memWf (memWf_ite (State.handshakeDone_memWf (State.set_memWf g1)) (State.set_memWf g1)))

theorem State.portTrainFail_memWf {s : State} {n reason : Nat} (g1 : memWf s) : memWf (State.portTrainFail s n reason) := by
  unfold State.portTrainFail
  exact State.portOn_memWf (State.portFail_memWf g1)

theorem State.blockIn_memWf {s : State} {p kind : Nat} {b : Block} {g : State → State} (g1 : memWf s) (g2 : ∀ y1, memWf y1 → memWf (g y1))
    :
    memWf (State.blockIn s p kind b g) := by
  unfold State.blockIn
  refine memWf_ite g1 ?_
  refine memWf_ite (State.bump_memWf g1) ?_
  exact memWf_ite (State.violation_memWf g1) (memWf_ite (State.violation_memWf (State.setPort_memWf g1)) (g2 _ (State.setPort_memWf g1)))

theorem State.auditStart_memWf {s : State} {p key : Nat} {owed : Option Owed} (g1 : memWf s) : memWf (State.auditStart s p key owed) := by
  unfold State.auditStart
  exact State.block_memWf (State.set_memWf (State.set_memWf (State.set_memWf (State.setPort_memWf g1))))

theorem State.auditWrite_memWf {s : State} {p : Nat} {w : Word} (g1 : memWf s) : memWf (State.auditWrite s p w) := by
  unfold State.auditWrite
  exact memWf_ite (State.auditStart_memWf g1) g1

theorem State.writeFptCtl_memWf {s : State} {p : Nat} {w : Word} (g1 : memWf s) : memWf (State.writeFptCtl s p w) := by
  unfold State.writeFptCtl
  refine memWf_ite (State.set_memWf (State.set_memWf g1)) ?_
  exact memWf_ite (State.set_memWf (State.set_memWf (State.set_memWf g1))) (State.regRefused_memWf (State.set_memWf (State.set_memWf g1)))

theorem State.setSlot_memWf {s : State} {k : Nat} {x : CollSlot} (g1 : memWf s) : memWf (State.setSlot s k x) := by
  unfold State.setSlot
  exact memWf_mk g1

theorem State.freeSlot_memWf {s : State} {k : Nat} (g1 : memWf s) : memWf (State.freeSlot s k) := by
  unfold State.freeSlot
  exact memWf_mk g1

theorem State.flagAdd_memWf {s : State} {i a : Nat} (g1 : memWf s) : memWf (State.flagAdd s i a) := by
  unfold State.flagAdd
  exact memWf_ite g1 (State.writeN_memWf g1)

theorem State.collWordDone_memWf {s : State} {k : Nat} {x : CollSlot} {flag : Bool} {st : Status} (g1 : memWf s) :
    memWf (State.collWordDone s k x flag st) := by
  unfold State.collWordDone
  exact memWf_ite g1 (State.setSlot_memWf (State.complete_memWf (memWf_ite (State.flagAdd_memWf g1) g1)))

theorem State.collFinish_memWf {s : State} {k : Nat} (g1 : memWf s) : memWf (State.collFinish s k) := by
  unfold State.collFinish
  first | (extract_lets; split) | split | (dsimp only; split)
  · exact g1
  · refine memWf_ite ?_ (State.setSlot_memWf g1)
    refine memWf_ite ?_ ?_
    · exact State.freeSlot_memWf (State.collWordDone_memWf (State.setSlot_memWf g1))
    · exact State.collWordDone_memWf (State.setSlot_memWf g1)

theorem State.collSend1_memWf {s : State} {k : Nat} {x : CollSlot} {p : TxPeer} {c : Nat} {l : List Piece} (g1 : memWf s) :
    memWf (State.collSend1 s k x p c l) := by
  unfold State.collSend1
  exact State.issueGather_memWf (State.setSlot_memWf g1)

theorem State.collSend_memWf {s : State} {k n : Nat} (g1 : memWf s) : memWf (State.collSend s k n) := by
  induction n generalizing s with
  | zero => exact g1
  | succ n ih =>
    simp only [State.collSend]
    split
    · split
      · exact ih (State.collSend1_memWf g1)
      · exact g1
    · exact g1

theorem State.collCredit_memWf {s : State} {k : Nat} (g1 : memWf s) : memWf (State.collCredit s k) := by
  unfold State.collCredit
  first | (extract_lets; split) | split | (dsimp only; split)
  · exact g1
  · refine memWf_foldl ?_ g1
    intro _ _ h1
    first | (extract_lets; split) | split | (dsimp only; split)
    · exact h1
    · first | (extract_lets; split) | split | (dsimp only; split)
      · exact h1
      · refine State.setSlot_memWf ?_
        first | (extract_lets; split) | split | (dsimp only; split)
        · exact State.sendFrame_memWf h1
        · exact h1

theorem State.collWant_memWf {s : State} {k : Nat} (g1 : memWf s) : memWf (State.collWant s k) := by
  unfold State.collWant
  first | (extract_lets; split) | split | (dsimp only; split)
  · exact g1
  · exact State.setSlot_memWf g1

theorem State.collPump_memWf {s : State} {k : Nat} (g1 : memWf s) : memWf (State.collPump s k) := by
  unfold State.collPump
  exact State.collFinish_memWf (State.collWant_memWf (State.collCredit_memWf (State.collSend_memWf g1)))

theorem State.collPumps_memWf {s : State} (g1 : memWf s) : memWf (State.collPumps s) := by
  unfold State.collPumps
  exact memWf_foldl (fun _ _ h1 => memWf_ite (State.collPump_memWf h1) h1) g1

theorem State.rootWrite_memWf {s : State} {x : CollSlot} {n : Nat} {v : List Nat} (g1 : memWf s) : memWf (State.rootWrite s x n v) := by
  unfold State.rootWrite
  exact State.write_memWf g1

theorem State.collStart_memWf {s : State} {k : Nat} (g1 : memWf s) : memWf (State.collStart s k) := by
  unfold State.collStart
  first | (extract_lets; split) | split | (dsimp only; split)
  · exact g1
  · refine State.collPumps_memWf ?_
    refine memWf_ite ?_ (State.setSlot_memWf g1)
    exact State.setSlot_memWf (memWf_foldl (fun _ _ h1 => State.rootWrite_memWf h1) (State.setSlot_memWf g1))

theorem State.collTest_memWf {s : State} {i : Nat} {p : Launch → Bool} (g1 : memWf s) : memWf (State.collTest s i p) := by
  unfold State.collTest
  refine memWf_foldl ?_ g1
  intro _ _ h1
  first | (extract_lets; split) | split | (dsimp only; split)
  · exact memWf_ite (State.collStart_memWf h1) h1
  · exact h1

theorem State.collBucket_memWf {s : State} {i : Nat} (g1 : memWf s) : memWf (State.collBucket s i) := by
  unfold State.collBucket
  exact State.collTest_memWf g1

theorem State.collWord_memWf {s : State} {i a n : Nat} (g1 : memWf s) : memWf (State.collWord s i a n) := by
  unfold State.collWord
  exact State.collTest_memWf g1

theorem State.takeEarly_memWf {s : State} {x : CollSlot} (g1 : memWf s) : memWf (State.takeEarly s x).1 := by
  unfold State.takeEarly
  exact memWf_pair (memWf_mk g1)

theorem State.admitLaunch_memWf {s : State} {k : Nat} {l : Launch} (g1 : memWf s) : memWf (State.admitLaunch s k l) := by
  unfold State.admitLaunch
  first | (extract_lets; split) | split | (dsimp only; split)
  · exact g1
  · refine memWf_ite ?_ ?_
    · refine State.freeSlot_memWf ?_
      exact State.complete_memWf (State.setSlot_memWf (State.takeEarly_memWf (memWf_ite (State.event_memWf (memWf_mk g1)) (memWf_mk g1))))
    · refine memWf_ite ?_ ?_
      · exact State.collStart_memWf (State.setSlot_memWf (State.takeEarly_memWf (memWf_ite (State.event_memWf (memWf_mk g1)) (memWf_mk g1))))
      · exact State.setSlot_memWf (State.takeEarly_memWf (memWf_ite (State.event_memWf (memWf_mk g1)) (memWf_mk g1)))

theorem State.collOps_memWf {s : State} (g1 : memWf s) : memWf (State.collOps s) := by
  unfold State.collOps
  refine memWf_ite g1 ?_
  refine State.collPumps_memWf ?_
  refine memWf_foldl ?_ (memWf_mk g1)
  intro _ _ h1
  first | (extract_lets; split) | split | (dsimp only; split)
  · exact memWf_ite (State.setSlot_memWf h1) h1
  · exact h1

theorem State.collPut_memWf {s : State} {i a n : Nat} (g1 : memWf s) : memWf (State.collPut s i a n) := by
  unfold State.collPut
  refine memWf_foldl ?_ g1
  intro _ _ h1
  refine memWf_ite ?_ h1
  first | (extract_lets; split) | split | (dsimp only; split)
  · first | (extract_lets; split) | split | (dsimp only; split)
    · exact State.setSlot_memWf h1
    · exact h1
  · exact h1

theorem State.takeChunk_memWf {s : State} {k : Nat} {x : CollSlot} {r : RxPeer} {c : Nat} (g1 : memWf s) :
    memWf (State.takeChunk s k x r c) := by
  unfold State.takeChunk
  refine memWf_ite (State.setSlot_memWf (State.write_memWf g1)) ?_
  refine memWf_ite ?_ ?_
  · exact State.setSlot_memWf (State.rootWrite_memWf g1)
  · exact memWf_ite (State.setSlot_memWf (State.rootWrite_memWf g1)) (State.setSlot_memWf g1)

theorem State.serveSlot_memWf {s : State} {k : Nat} (g1 : memWf s) : memWf (State.serveSlot s k) := by
  unfold State.serveSlot
  first | (extract_lets; split) | split | (dsimp only; split)
  · exact g1
  · first | (extract_lets; split) | split | (dsimp only; split)
    · exact State.takeChunk_memWf g1
    · exact g1

theorem State.serveBefore_memWf {s : State} {k : Nat} {x : CollSlot} (g1 : memWf s) : memWf (State.serveBefore s k x) := by
  unfold State.serveBefore
  refine memWf_foldl ?_ g1
  intro _ _ h1
  first | (extract_lets; split) | split | (dsimp only; split)
  · exact memWf_ite (State.serveSlot_memWf (State.serveSlot_memWf (State.serveSlot_memWf (State.serveSlot_memWf h1)))) h1
  · exact h1

theorem State.zeroStaging_memWf {s : State} {k : Nat} {x : CollSlot} (g1 : memWf s) : memWf (s.zeroStaging k x) := by
  unfold State.zeroStaging
  exact memWf_clear g1

theorem State.collTear_memWf {s : State} {p : Launch → Bool} (g1 : memWf s) : memWf (State.collTear s p) := by
  unfold State.collTear
  refine State.tornDown_memWf ?_
  refine memWf_mk ?_
  exact memWf_foldl (fun _ _ h1 => memWf_ite (State.freeSlot_memWf (State.zeroStaging_memWf (memWf_ite h1 (State.complete_memWf h1)))) h1) g1

theorem State.setTree_memWf {s : State} {x : TreeNode} (g1 : memWf s) : memWf (State.setTree s x) := by
  unfold State.setTree
  exact memWf_mk g1

theorem State.dropTree_memWf {s : State} {i image : Nat} (g1 : memWf s) : memWf (State.dropTree s i image) := by
  unfold State.dropTree
  exact memWf_mk g1

theorem State.treeSend1_memWf {s : State} {x : TreeNode} {c : TreeChild} (g1 : memWf s) : memWf (State.treeSend1 s x c) := by
  unfold State.treeSend1
  exact State.issueGather_memWf (State.setTree_memWf g1)

theorem State.treeSend_memWf {s : State} {i image : Nat} (g1 : memWf s) : memWf (State.treeSend s i image) := by
  unfold State.treeSend
  first | (extract_lets; split) | split | (dsimp only; split)
  · exact g1
  · refine memWf_foldl ?_ g1
    intro _ _ h1
    first | (extract_lets; split) | split | (dsimp only; split)
    · exact memWf_ite (State.treeSend1_memWf h1) h1
    · exact h1

theorem State.treeDone_memWf {s : State} {i image : Nat} (g1 : memWf s) : memWf (State.treeDone s i image) := by
  unfold State.treeDone
  first | (extract_lets; split) | split | (dsimp only; split)
  · first | (extract_lets; split) | split | (dsimp only; split)
    · exact memWf_ite (State.final_memWf (State.event_memWf (State.setTree_memWf g1))) g1
    · exact g1
  · exact g1

theorem State.treeOps_memWf {s : State} (g1 : memWf s) : memWf (State.treeOps s) := by
  unfold State.treeOps
  refine memWf_foldl ?_ (memWf_mk g1)
  intro _ _ h1
  first | (extract_lets; split) | split | (dsimp only; split)
  · first | (extract_lets; split) | split | (dsimp only; split)
    · exact memWf_ite (State.treeSend_memWf (State.setTree_memWf h1)) h1
    · exact h1
  · exact h1

theorem State.treeHear_memWf {s : State} {i job src : Nat} (g1 : memWf s) : memWf (State.treeHear s i job src) := by
  unfold State.treeHear
  exact memWf_mk g1

theorem State.classSeven_memWf {s : State} {i op : Nat} {p : List Byte} (g1 : memWf s) : memWf (State.classSeven s i op p) := by
  unfold State.classSeven
  first | (extract_lets; split) | split | (dsimp only; split)
  · exact bodyLayerSet_memWf g1
  · exact bodyGazetteerWrite_memWf g1
  · exact bodyCsetWrite_memWf g1
  · exact bodyExpertDirWrite_memWf g1
  · exact g1

theorem State.treeApply_memWf {s : State} {i : Nat} {b : List Byte} (g1 : memWf s) : memWf (State.treeApply s i b) := by
  unfold State.treeApply
  exact memWf_foldl (fun _ _ h1 => State.classSeven_memWf h1) g1

theorem State.treeVerified_memWf {s : State} {x : TreeNode} {b : List Byte} (g1 : memWf s) : memWf (State.treeVerified s x b) := by
  unfold State.treeVerified
  refine State.treeDone_memWf ?_
  refine State.treeSend_memWf ?_
  refine memWf_ite ?_ ?_
  · exact State.send_memWf (memWf_ite (State.treeApply_memWf (State.setTree_memWf g1)) (State.setTree_memWf g1))
  · exact memWf_ite (State.treeApply_memWf (State.setTree_memWf g1)) (State.setTree_memWf g1)

theorem State.treeOrphan_memWf {s : State} {x : TreeNode} (g1 : memWf s) : memWf (State.treeOrphan s x) := by
  unfold State.treeOrphan
  exact State.event_memWf (State.setTree_memWf g1)

theorem State.treeBad_memWf {s : State} {x : TreeNode} (g1 : memWf s) : memWf (State.treeBad s x) := by
  unfold State.treeBad
  refine memWf_ite ?_ ?_
  · exact memWf_ite (State.setTree_memWf g1) (State.send_memWf (State.setTree_memWf g1))
  · exact State.treeOrphan_memWf (State.event_memWf (State.setTree_memWf g1))

theorem State.treeStop_memWf {s : State} {w : Nat} {st : Status} (g1 : memWf s) : memWf (State.treeStop s w st) := by
  unfold State.treeStop
  exact memWf_foldl (fun _ _ h1 => State.opDone_memWf h1) (memWf_foldl (fun _ _ h2 => State.resolve_memWf h2) (memWf_mk g1))

theorem State.treeForget_memWf {s : State} {x : TreeNode} {child : Nat} (g1 : memWf s) : memWf (State.treeForget s x child) := by
  unfold State.treeForget
  exact State.treeDone_memWf (State.treeStop_memWf (State.setTree_memWf g1))

theorem State.notParent_memWf {s : State} {i job child : Nat} {op : Option RemoteOp} (g1 : memWf s) :
    memWf (State.notParent s i job child op) := by
  unfold State.notParent
  first | (extract_lets; split) | split | (dsimp only; split)
  · first | (extract_lets; split) | split | (dsimp only; split)
    · exact State.treeForget_memWf g1
    · exact g1
  · exact memWf_foldl (fun _ _ h1 => State.treeForget_memWf h1) g1

theorem State.keepaliveIn_memWf {s : State} {f : Frame} (g1 : memWf s) : memWf (State.keepaliveIn s f) := by
  unfold State.keepaliveIn
  refine memWf_ite (State.bump_memWf g1) ?_
  refine memWf_ite (State.authFail_memWf g1) ?_
  first | (extract_lets; split) | split | (dsimp only; split)
  · exact State.unknownSource_memWf g1
  · exact memWf_ite (State.treeHear_memWf g1) (State.sendFrame_memWf g1)

theorem State.treeTear_memWf {s : State} {p : TreeNode → Bool} (g1 : memWf s) : memWf (State.treeTear s p) := by
  unfold State.treeTear
  exact State.tornDown_memWf (memWf_mk g1)

theorem State.setBucket_memWf {s : State} {j b : Nat} {x : Bucket} (g1 : memWf s) : memWf (State.setBucket s j b x) := by
  unfold State.setBucket
  exact memWf_mk g1

theorem State.setRctx_memWf {s : State} {x : RCtx} (g1 : memWf s) : memWf (State.setRctx s x) := by
  unfold State.setRctx
  exact memWf_mk g1

theorem State.spill_memWf {s : State} {x : RCtx} (g1 : memWf s) : memWf (State.spill s x) := by
  unfold State.spill
  exact State.event_memWf (State.bump_memWf (State.setRctx_memWf g1))

theorem State.takeSlot_memWf {s : State} {h : Nat} (g1 : memWf s) : memWf (State.takeSlot s h).1 := by
  unfold State.takeSlot
  first | (extract_lets; split) | split | (dsimp only; split)
  · exact memWf_pair g1
  · first | (extract_lets; split) | split | (dsimp only; split)
    · exact memWf_pair (State.setRctx_memWf g1)
    · first | (extract_lets; split) | split | (dsimp only; split)
      · exact memWf_pair (State.setRctx_memWf (State.spill_memWf g1))
      · exact memWf_pair g1

theorem State.makeRoom_memWf {s : State} {h n : Nat} (g1 : memWf s) : memWf (State.makeRoom s h n) := by
  unfold State.makeRoom
  exact memWf_foldl (fun _ _ h1 => memWf_ite (State.spill_memWf h1) h1) g1

theorem State.openCtx_memWf {s : State} {h j b : Nat} {x : Bucket} (g1 : memWf s) : memWf (State.openCtx s h j b x) := by
  unfold State.openCtx
  exact memWf_mk (memWf_ite (State.makeRoom_memWf (State.takeSlot_memWf g1)) (State.takeSlot_memWf g1))

theorem State.unpark_memWf {s : State} {h n : Nat} (g1 : memWf s) : memWf (State.unpark s h n) := by
  unfold State.unpark
  first | (extract_lets; split) | split | (dsimp only; split)
  · exact State.setRctx_memWf g1
  · exact g1

theorem State.closeCtx_memWf {s : State} {x : RCtx} (g1 : memWf s) : memWf (State.closeCtx s x) := by
  unfold State.closeCtx
  first | (extract_lets; split) | split | (dsimp only; split)
  · exact State.unpark_memWf (memWf_mk g1)
  · exact memWf_mk g1

theorem State.raccFail_memWf {s : State} {h j b src : Nat} {st : Status} (g1 : memWf s) : memWf (State.raccFail s h j b src st).1 := by
  unfold State.raccFail
  exact memWf_pair (State.capture_memWf (State.bump_memWf g1))

theorem State.raccTake_memWf {s : State} {f : Frame} {src : Nat} (g1 : memWf s) : memWf (State.raccTake s f src).1 := by
  unfold State.raccTake
  first | (extract_lets; split) | split | (dsimp only; split)
  · first | (extract_lets; split) | split | (dsimp only; split)
    · exact State.raccFail_memWf (State.regionViol_memWf g1)
    · first | (extract_lets; split) | split | (dsimp only; split)
      · exact State.raccFail_memWf g1
      · refine memWf_ite_fst (State.raccFail_memWf g1) ?_
        refine memWf_ite_fst (State.raccFail_memWf g1) ?_
        refine memWf_ite_fst (State.raccFail_memWf g1) ?_
        refine memWf_ite_fst (State.raccFail_memWf g1) ?_
        refine memWf_pair ?_
        refine memWf_mk ?_
        first | (extract_lets; split) | split | (dsimp only; split)
        · exact State.setRctx_memWf (State.bump_memWf (memWf_ite g1 (State.openCtx_memWf g1)))
        · exact State.bump_memWf (memWf_ite g1 (State.openCtx_memWf g1))
  · first | (extract_lets; split) | split | (dsimp only; split)
    · exact State.raccFail_memWf g1
    · exact State.raccFail_memWf g1

theorem State.commitElems_memWf {s : State} {c : RCtx} {x : Bucket} {f : RFrame} (g1 : memWf s) : memWf (s.commitElems c x f).1 := by
  unfold State.commitElems
  exact memWf_ite_fst (State.setRctx_memWf g1) (State.setRctx_memWf (State.wake_memWf (Memory.wf_setAll _ _ (State.readBad_memWf g1))))

theorem State.hubPartDone_memWf {s : State} {c : RCtx} {x : Bucket} (g1 : memWf s) : memWf (State.hubPartDone s c x) := by
  unfold State.hubPartDone
  refine State.setBucket_memWf ?_
  refine State.closeCtx_memWf ?_
  refine memWf_ite_fst ?_ ?_
  · exact State.readBad_memWf (memWf_ite (memWf_foldl (fun _ _ h1 => State.write_memWf h1) g1) g1)
  · exact memWf_pair (memWf_ite (memWf_foldl (fun _ _ h2 => State.write_memWf h2) g1) g1)

theorem State.raccCommit_memWf {s : State} {f : RFrame} (g1 : memWf s) : memWf (State.raccCommit s f).1 := by
  unfold State.raccCommit
  first | (extract_lets; split) | split | (dsimp only; split)
  · first | (extract_lets; split) | split | (dsimp only; split)
    · refine memWf_pair ?_
      refine memWf_ite ?_ ?_
      · exact State.hubPartDone_memWf (State.bump_memWf (State.commitElems_memWf (memWf_mk g1)))
      · exact State.bump_memWf (State.commitElems_memWf (memWf_mk g1))
    · exact memWf_pair (State.commitElems_memWf (memWf_mk g1))
  · exact memWf_pair (memWf_mk g1)

theorem State.bucketComplete_memWf {s : State} {j b : Nat} (g1 : memWf s) : memWf (State.bucketComplete s j b) := by
  unfold State.bucketComplete
  first | (extract_lets; split) | split | (dsimp only; split)
  · exact g1
  · refine memWf_ite ?_ g1
    refine State.collBucket_memWf ?_
    refine State.exchWord_memWf ?_
    refine memWf_ite ?_ ?_
    · refine State.event_memWf ?_
      refine memWf_ite ?_ ?_
      · exact State.event_memWf (State.bump_memWf (State.writeN_memWf (State.writeN_memWf (State.setBucket_memWf g1))))
      · exact State.bump_memWf (State.writeN_memWf (State.writeN_memWf (State.setBucket_memWf g1)))
    · refine memWf_ite ?_ ?_
      · exact State.event_memWf (State.bump_memWf (State.writeN_memWf (State.writeN_memWf (State.setBucket_memWf g1))))
      · exact State.bump_memWf (State.writeN_memWf (State.writeN_memWf (State.setBucket_memWf g1)))

theorem State.partArrives_memWf {s : State} {h : Nat} (g1 : memWf s) : memWf (State.partArrives s h) := by
  unfold State.partArrives
  first | (extract_lets; split) | split | (dsimp only; split)
  · first | (extract_lets; split) | split | (dsimp only; split)
    · exact memWf_ite (State.setBucket_memWf g1) (State.bucketComplete_memWf (State.setBucket_memWf g1))
    · exact g1
  · exact g1

theorem State.dropBuckets_memWf {s : State} {p : Nat × Nat → Bucket → Bool} (g1 : memWf s) : memWf (State.dropBuckets s p).1 := by
  unfold State.dropBuckets
  exact memWf_pair (memWf_foldl (fun _ _ h1 => memWf_mk (memWf_foldl (fun _ _ h2 => State.closeCtx_memWf h2) h1)) g1)

theorem bodyGroupDefine_memWf {s : State} {v1 : Owed} {h : CmdHdr} {p : List Byte} (g1 : memWf s) :
    memWf (bodyGroupDefine s v1 h p).1 := by
  unfold bodyGroupDefine
  first | (extract_lets; split) | split | (dsimp only; split)
  · exact memWf_pair g1
  · exact memWf_pair (memWf_mk g1)

theorem bodyGroupUndefine_memWf {s : State} {v1 : Owed} {v2 : CmdHdr} {p : List Byte} (g1 : memWf s) :
    memWf (bodyGroupUndefine s v1 v2 p).1 := by
  unfold bodyGroupUndefine
  first | (extract_lets; split) | split | (dsimp only; split)
  · exact memWf_pair g1
  · exact memWf_pair (memWf_mk g1)

theorem State.noteStamp_memWf {s : State} {l : Launch} (g1 : memWf s) : memWf (State.noteStamp s l) := by
  unfold State.noteStamp
  exact memWf_mk g1

theorem bodyCollectiveLaunch_memWf {s : State} {o : Owed} {h : CmdHdr} {p : List Byte} (g1 : memWf s) :
    memWf (bodyCollectiveLaunch s o h p).1 := by
  unfold bodyCollectiveLaunch
  first | (extract_lets; split) | split | (dsimp only; split)
  · exact memWf_pair g1
  · first | (extract_lets; split) | split | (dsimp only; split)
    · exact memWf_pair (State.admitLaunch_memWf (State.noteStamp_memWf g1))
    · exact memWf_ite_fst (memWf_pair (memWf_mk (State.noteStamp_memWf g1))) (memWf_pair g1)

theorem bodyCollectiveStatus_memWf {s : State} {v1 : Owed} {v2 : CmdHdr} {p : List Byte} (g1 : memWf s) :
    memWf (bodyCollectiveStatus s v1 v2 p).1 := by
  unfold bodyCollectiveStatus
  first | (extract_lets; split) | split | (dsimp only; split)
  · exact memWf_pair g1
  · exact memWf_pair g1

theorem bodyTreeStart_memWf {s : State} {o : Owed} {h : CmdHdr} {p : List Byte} (g1 : memWf s) : memWf (bodyTreeStart s o h p).1 := by
  unfold bodyTreeStart
  first | (extract_lets; split) | split | (dsimp only; split)
  · exact memWf_pair g1
  · exact memWf_ite_fst (memWf_pair (State.draw_memWf g1)) (memWf_pair (memWf_mk (memWf_ite (State.draw_memWf g1) g1)))

theorem bodyTreeReparent_memWf {s : State} {v1 : Owed} {h : CmdHdr} {p : List Byte} (g1 : memWf s) :
    memWf (bodyTreeReparent s v1 h p).1 := by
  unfold bodyTreeReparent
  first | (extract_lets; split) | split | (dsimp only; split)
  · exact memWf_pair g1
  · first | (extract_lets; split) | split | (dsimp only; split)
    · exact memWf_pair g1
    · exact memWf_ite_fst (memWf_pair (State.send_memWf (State.setTree_memWf g1))) (memWf_pair (State.setTree_memWf g1))

theorem bodyTreeEnd_memWf {s : State} {v1 : Owed} {h : CmdHdr} {p : List Byte} (g1 : memWf s) : memWf (bodyTreeEnd s v1 h p).1 := by
  unfold bodyTreeEnd
  first | (extract_lets; split) | split | (dsimp only; split)
  · exact memWf_pair g1
  · first | (extract_lets; split) | split | (dsimp only; split)
    · exact memWf_pair g1
    · exact memWf_ite_fst (memWf_pair g1) (memWf_ite_fst (memWf_pair g1) (memWf_pair (State.treeTear_memWf g1)))

theorem State.treeStale_memWf {s : State} {w : Nat} (g1 : memWf s) : memWf (State.treeStale s w) := by
  unfold State.treeStale
  exact memWf_mk g1

theorem State.grantRecord_memWf {s : State} {i : Nat} {h : RecHdr} {f : Frame} (g1 : memWf s) : memWf (State.grantRecord s i h f) := by
  unfold State.grantRecord
  first | (extract_lets; split) | split | (dsimp only; split)
  · exact memWf_ite (memWf_ite (State.bump_memWf g1) g1) (State.grantFrame_memWf (memWf_ite (State.bump_memWf g1) g1))
  · exact memWf_ite (State.bump_memWf g1) g1

theorem State.landingRecord_memWf {s : State} {i : Nat} {h : RecHdr} {f : Frame} (g1 : memWf s) :
    memWf (State.landingRecord s i h f) := by
  unfold State.landingRecord
  first | (extract_lets; split) | split | (dsimp only; split)
  · first | (extract_lets; split) | split | (dsimp only; split)
    · exact State.placeParts_memWf g1
    · exact g1
  · first | (extract_lets; split) | split | (dsimp only; split)
    · first | (extract_lets; split) | split | (dsimp only; split)
      · refine memWf_foldl ?_ (State.setRet_memWf g1)
        exact fun _ _ h1 => memWf_foldl_fst (fun _ _ h2 => memWf_pair (State.sendGroupRelay_memWf h2)) (memWf_pair h1)
      · exact g1
    · first | (extract_lets; split) | split | (dsimp only; split)
      · exact State.relaySend_memWf g1
      · exact State.grantRecord_memWf g1

theorem State.dropWaiting_memWf {s : State} {p : Nat} {f : PoolReq → Bool} (g1 : memWf s) : memWf (State.dropWaiting s p f) := by
  unfold State.dropWaiting
  exact State.setPool_memWf g1

theorem State.trvTake_memWf {s : State} {o op : Nat} {g : State → QDesc → State} (g1 : memWf s) (g2 : ∀ y1 y2, memWf y1 → memWf (g y1 y2))
    :
    memWf (State.trvTake s o op g) := by
  unfold State.trvTake
  first | (extract_lets; split) | split | (dsimp only; split)
  · exact g1
  · refine memWf_ite g1 ?_
    first | (extract_lets; split) | split | (dsimp only; split)
    · exact State.trvDone_memWf (State.popEngine_memWf g1)
    · exact State.exchOps_memWf (g2 _ _ (State.popEngine_memWf g1))

theorem State.newBatch_memWf {s : State} {o : Nat} {q : QDesc} {replay : Bool} (g1 : memWf s) :
    memWf (State.newBatch s o q replay).1 := by
  unfold State.newBatch
  exact memWf_pair (State.exchId_memWf g1)

theorem State.addBatch_memWf {s : State} {b : Batch} (g1 : memWf s) : memWf (State.addBatch s b) := by
  unfold State.addBatch
  exact State.updExch_memWf g1

theorem bodyCancelBatch_memWf {s : State} {o : Owed} {h : CmdHdr} {p : List Byte} (g1 : memWf s) : memWf (bodyCancelBatch s o h p).1 := by
  unfold bodyCancelBatch
  first | (extract_lets; split) | split | (dsimp only; split)
  · exact memWf_pair g1
  · exact memWf_pair (State.exchOps_memWf (State.cancelBegin_memWf (State.owe_memWf g1)))

theorem State.deliverNext_memWf {s : State} {o : Nat} {ok : Delivered → Bool} (g1 : memWf s) : memWf (State.deliverNext s o ok) := by
  unfold State.deliverNext
  first | (extract_lets; split) | split | (dsimp only; split)
  · exact memWf_ite (State.exchOps_memWf (State.takeDelivery_memWf (memWf_mk g1))) g1
  · exact g1

theorem State.quarantineEpoch_memWf {s : State} {i e : Nat} (g1 : memWf s) : memWf (State.quarantineEpoch s i e) := by
  unfold State.quarantineEpoch
  refine memWf_foldl ?_ g1
  intro _ _ h1
  refine memWf_ite ?_ h1
  refine memWf_foldl ?_ h1
  intro _ _ h2
  first | (extract_lets; split) | split | (dsimp only; split)
  · exact State.quarantineChain_memWf h2
  · exact h2

theorem State.fetch_memWf {s : State} {x : CoreCtx} (g1 : memWf s) : memWf (State.fetch s x).1 := by
  unfold State.fetch
  exact memWf_ite_fst (State.access_memWf g1) (memWf_pair g1)

theorem State.issueStep_memWf {s : State} {c : Nat} {k : State → CoreCtx → State} (g1 : memWf s) (g2 : ∀ y1 y2, memWf y1 → memWf (k y1
    y2)) :
    memWf (State.issueStep s c k) := by
  unfold State.issueStep
  exact memWf_ite (memWf_ite (g2 _ _ (State.fetch_memWf g1)) (State.coreFault_memWf (State.fetch_memWf g1))) g1

theorem State.coreStep_memWf {s : State} {c : Nat} {g : CoreCtx → CoreRes} (g1 : memWf s) : memWf (State.coreStep s c g) := by
  unfold State.coreStep
  refine State.issueStep_memWf g1 ?_
  intro _ _ h1
  first | (extract_lets; split) | split | (dsimp only; split)
  · exact State.setCore_memWf h1
  · exact State.coreFault_memWf h1
  · exact h1

theorem State.memStep_memWf {s : State} {c : Nat} {legal : Bool} {srcs vregs : List Nat} {k : State → CoreCtx → State} (g1 : memWf s) (g2
    : ∀ y1 y2, memWf y1 → memWf (k y1 y2)) :
    memWf (State.memStep s c legal srcs vregs k) := by
  unfold State.memStep
  refine State.issueStep_memWf g1 ?_
  intro _ _ h1
  first | (extract_lets; split) | split | (dsimp only; split)
  · exact g2 _ _ h1
  · exact State.coreFault_memWf h1
  · exact h1

theorem State.scrLoad_memWf {s : State} {c : Nat} {l : List (Nat × Nat)} {k : State → State} (g1 : memWf s) (g2 : ∀ y1, memWf y1 → memWf
    (k y1)) :
    memWf (State.scrLoad s c l k) := by
  unfold State.scrLoad
  first | (extract_lets; split) | split | (dsimp only; split)
  · exact State.coreFault_memWf (State.scrReads_memWf g1)
  · exact g2 _ (State.scrReads_memWf g1)

theorem State.enqueue_memWf {s : State} {c : Nat} {legal : Bool} {srcs vregs : List Nat} {g : CoreCtx → Option Status × MqEntry} (g1 :
    memWf s) :
    memWf (State.enqueue s c legal srcs vregs g) := by
  unfold State.enqueue
  refine State.memStep_memWf g1 ?_
  intro _ _ h1
  refine memWf_ite h1 ?_
  first | (extract_lets; split) | split | (dsimp only; split)
  · exact State.coreFault_memWf h1
  · exact State.setCore_memWf h1

theorem State.passFault_memWf {s : State} {c pc : Nat} {st : Status} {info : Nat} (g1 : memWf s) :
    memWf (State.passFault s c pc st info) := by
  unfold State.passFault
  first | (extract_lets; split) | split | (dsimp only; split)
  · exact State.drainAll_memWf (State.setCore_memWf (State.captureFault_memWf g1))
  · exact State.coreFault_memWf g1

theorem State.runPass_memWf {s : State} {c : Nat} {x : CoreCtx} {t : WTile} {kind : AccKind} {fmt a stride sc n m : Nat} {write transpose
    : Bool} (g1 : memWf s) :
    memWf (State.runPass s c x t kind fmt a stride sc n m write transpose) := by
  unfold State.runPass
  exact State.setCore_memWf (memWf_ite (State.bump_memWf (State.bump_memWf g1)) (State.bump_memWf g1))

theorem State.startPass_memWf {s : State} {c pc : Nat} {x : CoreCtx} {fmt a stride sc n : Nat} {swap write transpose : Bool} {m : Nat} (g1
    : memWf s) :
    memWf (State.startPass s c pc x fmt a stride sc n swap write transpose m) := by
  unfold State.startPass
  first | (extract_lets; split) | split | (dsimp only; split)
  · exact State.passFault_memWf g1
  · first | (extract_lets; split) | split | (dsimp only; split)
    · exact State.passFault_memWf g1
    · first | (extract_lets; split) | split | (dsimp only; split)
      · exact State.passFault_memWf g1
      · first | (extract_lets; split) | split | (dsimp only; split)
        · exact State.passFault_memWf g1
        · first | (extract_lets; split) | split | (dsimp only; split)
          · exact State.passFault_memWf (State.scrReads_memWf g1)
          · exact State.runPass_memWf (State.scrReads_memWf g1)

theorem State.sysStep_memWf {s : State} {c : Nat} {legal : Bool} {srcs : List Nat} {k : State → CoreCtx → State} (g1 : memWf s) (g2 : ∀ y1
    y2, memWf y1 → memWf (k y1 y2)) :
    memWf (State.sysStep s c legal srcs k) := by
  unfold State.sysStep
  exact State.memStep_memWf g1 (fun _ _ h1 => g2 _ _ h1)

theorem State.remoteIssue_memWf {s : State} {c : Nat} {x : CoreCtx} {r : CoreRemote} (g1 : memWf s) :
    memWf (State.remoteIssue s c x r) := by
  unfold State.remoteIssue
  exact memWf_ite (State.setCore_memWf g1) (State.issueCore_memWf (State.setCore_memWf g1))

theorem State.remoteGo_memWf {s : State} {c : Nat} {x : CoreCtx} {f : BitVec 56} {sizeOk : Bool} {r : CoreRemote} (g1 : memWf s) :
    memWf (State.remoteGo s c x f sizeOk r) := by
  unfold State.remoteGo
  exact memWf_ite (State.coreFault_memWf g1) (State.remoteIssue_memWf g1)

theorem State.waitOp_memWf {s : State} {c : Nat} {f : BitVec 56} {ne : Bool} (g1 : memWf s) : memWf (State.waitOp s c f ne) := by
  unfold State.waitOp
  refine State.sysStep_memWf g1 ?_
  intro _ _ h1
  refine memWf_ite (State.coreFault_memWf h1) ?_
  exact memWf_ite (State.coreFault_memWf h1) (memWf_ite (State.setCore_memWf h1) (State.setCore_memWf h1))

theorem State.startMover_memWf {s : State} {c off j d : Nat} (g1 : memWf s) : memWf (State.startMover s c off j d) := by
  unfold State.startMover
  exact State.setCore_memWf (memWf_mk (State.scrReads_memWf g1))

theorem State.accessCheck_memWf {s : State} {c : Nat} {l : List Access1} (g1 : memWf s) : memWf (State.accessCheck s c l).1 := by
  unfold State.accessCheck
  exact State.access_memWf g1

theorem State.moverPut_memWf {s : State} {c a : Nat} {bs : List Byte} (g1 : memWf s) : memWf (State.moverPut s c a bs) := by
  unfold State.moverPut
  exact State.bump_memWf (State.write_memWf g1)

theorem State.moverRun_memWf {s : State} {c j op : Nat} {g : State → MoverDesc → State × Status} (g1 : memWf s) (g2 : ∀ y1 y2, memWf y1 →
    memWf (g y1 y2).1) :
    memWf (State.moverRun s c j op g) := by
  unfold State.moverRun
  first | (extract_lets; split) | split | (dsimp only; split)
  · exact memWf_ite g1 (memWf_mk (memWf_ite_fst (g2 _ _ g1) (memWf_pair g1)))
  · exact g1

theorem State.moveRows_memWf {s : State} {c : Nat} {rows : List (Nat × Nat × Nat)} (g1 : memWf s) : memWf (State.moveRows s c rows) := by
  unfold State.moveRows
  exact memWf_foldl (fun _ _ h1 => State.moverPut_memWf h1) g1

theorem State.checked_memWf {s : State} {c : Nat} {m : MoverDesc} {l : List Access1} {g : State → State × Status} (g1 : memWf s) (g2 : ∀
    y1, memWf y1 → memWf (g y1).1) :
    memWf (State.checked s c m l g).1 := by
  unfold State.checked
  exact memWf_ite_fst (memWf_pair g1) (memWf_ite_fst (g2 _ (State.accessCheck_memWf g1)) (State.accessCheck_memWf g1))

theorem State.moverWake_memWf {s : State} {c : Nat} (g1 : memWf s) : memWf (State.moverWake s c) := by
  unfold State.moverWake
  first | (extract_lets; split) | split | (dsimp only; split)
  · first | (extract_lets; split) | split | (dsimp only; split)
    · exact State.startMover_memWf g1
    · exact g1
  · exact memWf_ite (State.setCore_memWf g1) g1
  · exact g1

theorem State.takePart_memWf {s : State} {op : Nat} {src : Source} {p : List Byte} (g1 : memWf s) :
    memWf (State.takePart s op src p).1 := by
  unfold State.takePart
  first | (extract_lets; split) | split | (dsimp only; split)
  · exact memWf_pair g1
  · exact memWf_ite_fst (memWf_pair (memWf_mk g1)) (memWf_ite_fst (memWf_pair (memWf_mk g1)) (memWf_pair (memWf_mk g1)))

theorem State.admitRefused_memWf {s : State} {a : Ans} (g1 : memWf s) : memWf (State.admitRefused s a).1 := by
  unfold State.admitRefused
  exact memWf_pair (State.bump_memWf g1)

theorem State.partAnswer_memWf {s : State} {a : Ans} (g1 : memWf s) : memWf (State.partAnswer s a).1 := by
  unfold State.partAnswer
  exact memWf_ite_fst (memWf_pair g1) (State.admitRefused_memWf g1)

theorem State.admitJob_memWf {s : State} {d : List Byte} (g1 : memWf s) : memWf (State.admitJob s d) := by
  unfold State.admitJob
  refine State.setJob_memWf ?_
  refine memWf_mk ?_
  refine memWf_ite ?_ ?_
  · exact memWf_foldl (fun _ _ h1 => State.setRecipe_memWf h1) (memWf_ite (State.draw_memWf g1) g1)
  · exact State.resetRecipes_memWf (memWf_ite (State.draw_memWf g1) g1)

theorem State.admitBegin_memWf {s : State} {d : List Byte} (g1 : memWf s) : memWf (State.admitBegin s d).1 := by
  unfold State.admitBegin
  first | (extract_lets; split) | split | (dsimp only; split)
  · exact State.admitRefused_memWf g1
  · exact memWf_pair (State.admitJob_memWf g1)

theorem State.ctxHold_memWf {s : State} {k : Nat × Nat} (g1 : memWf s) : memWf (State.ctxHold s k) := by
  unfold State.ctxHold
  first | (extract_lets; split) | split | (dsimp only; split)
  · exact memWf_ite (State.ctxStop_memWf (State.setCtx_memWf g1)) g1
  · exact g1

theorem State.moversTear_memWf {s : State} {j : Nat} (g1 : memWf s) : memWf (State.moversTear s j) := by
  unfold State.moversTear
  refine memWf_foldl ?_ ?_
  · exact fun _ _ h1 => memWf_foldl (fun _ _ h2 => State.complete_memWf (State.capture_memWf h2)) (memWf_mk h1)
  · exact memWf_mk (memWf_foldl (fun _ _ h3 => State.complete_memWf (State.capture_memWf (memWf_mk h3))) g1)

theorem State.queueTear_memWf {s : State} {o q : Nat} {d : QDesc} (g1 : memWf s) : memWf (State.queueTear s o q d) := by
  unfold State.queueTear
  first | (extract_lets; split) | split | (dsimp only; split)
  · exact State.svyDone_memWf g1
  · exact State.pltDone_memWf g1
  · exact State.trvDone_memWf g1
  · exact State.complete_memWf g1

theorem State.enginesTear_memWf {s : State} {j : Nat} (g1 : memWf s) : memWf (State.enginesTear s j) := by
  unfold State.enginesTear
  refine memWf_foldl ?_ ?_
  · exact fun _ _ h1 => memWf_ite (State.pltDone_memWf (memWf_mk h1)) h1
  · refine memWf_foldl ?_ ?_
    · exact fun _ _ h2 => memWf_ite (State.svyDone_memWf (memWf_mk h2)) h2
    · refine memWf_foldl (fun _ _ h3 => State.queueTear_memWf h3) ?_
      refine memWf_mk ?_
      refine memWf_foldl ?_ ?_
      · exact fun _ _ h4 => memWf_foldl (fun _ _ h5 => State.reqAnswer_memWf h5) (State.setPool_memWf h4)
      · exact memWf_foldl (fun _ _ h6 => memWf_foldl (fun _ _ h7 => State.queueTear_memWf h7) (memWf_mk h6)) g1

theorem State.exchTear_memWf {s : State} {i j : Nat} (g1 : memWf s) : memWf (State.exchTear s i j) := by
  unfold State.exchTear
  refine memWf_foldl ?_ ?_
  · intro _ _ h1
    refine memWf_foldl ?_ ?_
    · intro _ _ h2
      first | (extract_lets; split) | split | (dsimp only; split)
      · exact State.trvDone_memWf h2
      · exact State.final_memWf h2
    · first | (extract_lets; split) | split | (dsimp only; split)
      · exact State.trvDone_memWf h1
      · exact h1
  · refine memWf_foldl (fun _ _ h3 => State.trvDone_memWf h3) ?_
    refine memWf_foldl ?_ ?_
    · exact fun _ _ h4 => memWf_ite h4 (State.trvDone_memWf h4)
    · refine memWf_foldl ?_ ?_
      · exact fun _ _ h5 => memWf_ite h5 (State.trvDone_memWf h5)
      · exact memWf_foldl (fun _ _ h6 => memWf_mk h6) (State.setExch_memWf g1)

theorem State.zeroed_memWf {s : State} {j n : Nat} (g1 : memWf s) : memWf (State.zeroed s j n) := by
  unfold State.zeroed
  exact State.setJob_memWf g1

theorem State.jobStop_memWf {s : State} {j : Nat} {owed : List Owed} (g1 : memWf s) : memWf (State.jobStop s j owed) := by
  unfold State.jobStop
  refine State.drainAll_memWf ?_
  refine State.set_memWf ?_
  refine State.treeTear_memWf ?_
  refine State.collTear_memWf ?_
  refine State.zeroed_memWf ?_
  refine memWf_foldl (fun _ _ h1 => State.exchTear_memWf h1) ?_
  refine State.enginesTear_memWf ?_
  exact State.moversTear_memWf (memWf_foldl (fun _ _ h2 => State.ctxHold_memWf h2) (State.launchTear_memWf (State.setJob_memWf g1)))

theorem State.opsTear_memWf {s : State} {j : Nat} (g1 : memWf s) : memWf (State.opsTear s j) := by
  unfold State.opsTear
  refine State.treeOps_memWf ?_
  refine State.collOps_memWf ?_
  refine State.exchOps_memWf ?_
  refine State.settle_memWf ?_
  refine State.setJob_memWf ?_
  refine memWf_foldl (fun _ _ h1 => State.opDone_memWf h1) ?_
  exact memWf_foldl (fun _ _ h2 => State.resolve_memWf h2) (memWf_mk (memWf_foldl (fun _ _ h3 => State.final_memWf h3) (memWf_mk (memWf_mk g1))))

theorem State.regionFree_memWf {s : State} {i r : Nat} {zero : Bool} (g1 : memWf s) : memWf (s.regionFree i r zero) := by
  unfold State.regionFree
  exact memWf_ite (State.freshUnits_memWf (State.zeroize_memWf (memWf_mk g1))) (memWf_mk g1)

theorem State.scrZero_memWf {s : State} {i : Nat} (g1 : memWf s) : memWf (s.scrZero i) := by
  unfold State.scrZero
  exact memWf_clear g1

theorem State.commitJob_memWf {s : State} {j : Nat} (g1 : memWf s) : memWf (State.commitJob s j) := by
  unfold State.commitJob
  exact memWf_foldl (fun _ _ h1 => State.acked_memWf (State.raccCommit_memWf h1)) g1

theorem State.jobMemory_memWf {s : State} {j : Nat} (g1 : memWf s) : memWf (State.jobMemory s j) := by
  unfold State.jobMemory
  refine memWf_foldl ?_ ?_
  · intro _ _ h1
    first | (extract_lets; split) | split | (dsimp only; split)
    · exact State.ctxEnd_memWf (State.setCtx_memWf h1)
    · exact h1
  · refine memWf_mk ?_
    refine State.setLines_memWf ?_
    refine memWf_foldl (fun _ _ h2 => State.scrZero_memWf h2) ?_
    refine memWf_foldl (fun _ _ h3 => State.regionFree_memWf h3) ?_
    exact memWf_foldl (fun _ _ h4 => State.poolStop_memWf h4) (State.zeroed_memWf g1)

theorem State.jobKeys_memWf {s : State} {j : Nat} (g1 : memWf s) : memWf (State.jobKeys s j) := by
  unfold State.jobKeys
  exact State.setJob_memWf g1

theorem State.jobClosure_memWf {s : State} {j : Nat} (g1 : memWf s) : memWf (State.jobClosure s j) := by
  unfold State.jobClosure
  refine memWf_foldl ?_ ?_
  · exact fun _ _ h1 => memWf_ite h1 (State.jobMisclosure_memWf (State.misclosure_memWf h1))
  · exact memWf_foldl (fun _ _ h2 => memWf_ite h2 (State.jobMisclosure_memWf (State.misclosure_memWf h2))) g1

theorem State.jobFree_memWf {s : State} {j : Nat} (g1 : memWf s) : memWf (State.jobFree s j) := by
  unfold State.jobFree
  first | (extract_lets; split) | split | (dsimp only; split)
  · first | (extract_lets; split) | split | (dsimp only; split)
    · refine State.final_memWf ?_
      refine State.admitBegin_memWf ?_
      refine memWf_foldl ?_ ?_
      · exact fun _ _ h1 => memWf_ite (State.final_memWf h1) h1
      · refine memWf_foldl (fun _ _ h2 => State.final_memWf h2) ?_
        refine State.event_memWf ?_
        exact State.bump_memWf (memWf_mk (memWf_mk (memWf_foldl (fun _ _ h3 => State.setExch_memWf h3) (memWf_mk (State.dropBuckets_memWf g1)))))
    · refine State.admitBegin_memWf ?_
      refine memWf_foldl ?_ ?_
      · exact fun _ _ h4 => memWf_ite (State.final_memWf h4) h4
      · refine memWf_foldl (fun _ _ h5 => State.final_memWf h5) ?_
        refine State.event_memWf ?_
        exact State.bump_memWf (memWf_mk (memWf_mk (memWf_foldl (fun _ _ h6 => State.setExch_memWf h6) (memWf_mk (State.dropBuckets_memWf g1)))))
  · refine memWf_foldl ?_ ?_
    · exact fun _ _ h7 => memWf_ite (State.final_memWf h7) h7
    · refine memWf_foldl (fun _ _ h8 => State.final_memWf h8) ?_
      refine State.event_memWf ?_
      exact State.bump_memWf (memWf_mk (memWf_mk (memWf_foldl (fun _ _ h9 => State.setExch_memWf h9) (memWf_mk (State.dropBuckets_memWf g1)))))

theorem State.jobStep_memWf {s : State} {j : Nat} (g1 : memWf s) : memWf (State.jobStep s j) := by
  unfold State.jobStep
  first | (extract_lets; split) | split | (dsimp only; split)
  · exact State.setJob_memWf (State.opsTear_memWf g1)
  · exact State.setJob_memWf (State.commitJob_memWf g1)
  · exact State.jobMemory_memWf (State.setJob_memWf g1)
  · exact State.setJob_memWf (State.jobKeys_memWf g1)
  · exact State.setJob_memWf (State.jobClosure_memWf g1)
  · exact State.jobFree_memWf g1

theorem State.jobGo_memWf {s : State} {j : Nat} (g1 : memWf s) : memWf (State.jobGo s j) := by
  unfold State.jobGo
  exact memWf_ite g1 (memWf_ite g1 (State.jobStep_memWf g1))

theorem State.jobAbandon_memWf {s : State} {j : Nat} (g1 : memWf s) : memWf (State.jobAbandon s j) := by
  unfold State.jobAbandon
  refine memWf_ite g1 ?_
  refine State.jobStep_memWf ?_
  refine memWf_foldl ?_ ?_
  · intro _ _ h1
    refine State.schedule_memWf ?_
    refine State.ctxFree_memWf ?_
    first | (extract_lets; split) | split | (dsimp only; split)
    · exact memWf_foldl (fun _ _ h2 => memWf_mk h2) h1
    · exact h1
  · exact memWf_foldl (fun _ _ h3 => State.poolFinish_memWf h3) (State.setJob_memWf g1)

theorem State.sheetBegin_memWf {s : State} {i : Nat} {pkt : Packet} {l : Life} (g1 : memWf s) : memWf (State.sheetBegin s i pkt l).1 := by
  unfold State.sheetBegin
  first | (extract_lets; split) | split | (dsimp only; split)
  · exact memWf_pair g1
  · exact memWf_pair (State.setSheet_memWf (State.draw_memWf (State.draw_memWf g1)))

theorem State.sheetDeferred_memWf {s : State} {i : Nat} {pkt : Packet} (g1 : memWf s) : memWf (State.sheetDeferred s i pkt) := by
  unfold State.sheetDeferred
  first | (extract_lets; split) | split | (dsimp only; split)
  · exact State.final_memWf (State.sheetBegin_memWf g1)
  · exact State.sheetBegin_memWf g1

theorem State.sheetStarted_memWf {s : State} {i : Nat} (g1 : memWf s) : memWf (State.sheetStarted s i) := by
  unfold State.sheetStarted
  refine State.finals_memWf ?_
  refine memWf_ite ?_ ?_
  · exact State.draw_memWf (State.event_memWf (State.resetRecipes_memWf (State.draw_memWf (State.setSheet_memWf g1))))
  · exact State.resetRecipes_memWf (State.draw_memWf (State.setSheet_memWf g1))

theorem State.resetSheetRegs_memWf {s : State} {i : Nat} (g1 : memWf s) : memWf (State.resetSheetRegs s i) := by
  unfold State.resetSheetRegs
  exact memWf_mk g1

theorem State.sheetClear_memWf {s : State} {i : Nat} (g1 : memWf s) : memWf (s.sheetClear i) := by
  unfold State.sheetClear
  extract_lets m lo mine s1 s2 s3 s4 s5 s6 s7 s8
  have h3 : memWf s3 := State.dropBuckets_memWf (State.treeTear_memWf (State.collTear_memWf g1))
  have h4 : memWf s4 := memWf_clear h3
  have h5 : memWf s5 := memWf_mk h4
  exact State.resetSheetRegs_memWf (memWf_mk (memWf_mk (State.setLines_memWf h5)))

theorem State.sheetStop1_memWf {s : State} {i : Nat} (g1 : memWf s) : memWf (State.sheetStop1 s i) := by
  unfold State.sheetStop1
  exact memWf_foldl (fun _ _ h1 => State.poolStop_memWf h1) (State.launchTear_memWf g1)

theorem State.sheetEnd_memWf {s : State} {i : Nat} (g1 : memWf s) : memWf (State.sheetEnd s i) := by
  unfold State.sheetEnd
  first | (extract_lets; split) | split | (dsimp only; split)
  · exact memWf_foldl (fun _ _ h1 => State.jobStop_memWf h1) g1
  · exact memWf_foldl (fun _ _ h2 => State.jobStop_memWf h2) g1
  · exact State.sheetStop1_memWf (State.tornDown_memWf (State.setSheet_memWf (memWf_foldl (fun _ _ h3 => State.jobStop_memWf h3) g1)))

theorem State.sheetFatal_memWf {s : State} {i : Nat} (g1 : memWf s) : memWf (State.sheetFatal s i) := by
  unfold State.sheetFatal
  exact memWf_ite g1 (State.relevel_memWf (State.octFail_memWf (State.event_memWf (State.sheetEnd_memWf (State.setSheet_memWf g1)))))

theorem State.sweepFatal_memWf {s : State} (g1 : memWf s) : memWf (State.sweepFatal s) := by
  unfold State.sweepFatal
  exact memWf_foldl (fun _ _ h1 => State.sheetFatal_memWf h1) (memWf_mk g1)

theorem State.sheetStopped_memWf {s : State} {i : Nat} (g1 : memWf s) : memWf (State.sheetStopped s i) := by
  unfold State.sheetStopped
  first | (extract_lets; split) | split | (dsimp only; split)
  · exact State.sheetDeferred_memWf (State.finals_memWf (memWf_mk (State.sheetClear_memWf g1)))
  · exact State.finals_memWf (memWf_mk (State.sheetClear_memWf g1))

theorem State.pin_memWf {s : State} {name : String} {level : Bool} (g1 : memWf s) : memWf (State.pin s name level) := by
  unfold State.pin
  exact State.send_memWf g1

theorem State.wiped_memWf {s : State} {cold : Bool} (g1 : memWf s) : memWf (State.wiped s cold) := by
  unfold State.wiped
  exact memWf_mk State.reset_memWf

theorem State.bootStart_memWf {s : State} (g1 : memWf s) : memWf (State.bootStart s) := by
  unfold State.bootStart
  exact memWf_mk (State.set_memWf (State.set_memWf g1))

theorem State.resetDone_memWf {s : State} {kind : Nat} (g1 : memWf s) : memWf (State.resetDone s kind) := by
  unfold State.resetDone
  exact State.draw_memWf (State.event_memWf g1)

theorem State.deviceReset_memWf {s : State} (g1 : memWf s) : memWf (State.deviceReset s) := by
  unfold State.deviceReset
  refine State.resetDone_memWf ?_
  exact State.bootStart_memWf (State.wiped_memWf (memWf_ite (State.pin_memWf (State.pin_memWf g1)) (State.pin_memWf g1)))

theorem State.powerOff_memWf {s : State} (g1 : memWf s) : memWf (State.powerOff s) := by
  unfold State.powerOff
  exact memWf_mk (State.wiped_memWf (State.pin_memWf g1))

theorem State.haltDevice_memWf {s : State} (g1 : memWf s) : memWf (State.haltDevice s) := by
  unfold State.haltDevice
  exact memWf_mk (memWf_foldl (fun _ _ h1 => memWf_ite h1 (State.portTo_memWf h1)) g1)

theorem State.dieFail_memWf {s : State} {d : Nat} (g1 : memWf s) : memWf (State.dieFail s d) := by
  unfold State.dieFail
  refine memWf_ite g1 ?_
  refine State.relevel_memWf ?_
  refine memWf_ite ?_ ?_
  · refine State.haltDevice_memWf ?_
    refine State.octFail_memWf ?_
    first | (extract_lets; split) | split | (dsimp only; split)
    · exact State.sheetFatal_memWf (State.event_memWf (memWf_mk g1))
    · exact State.event_memWf (memWf_mk g1)
  · refine State.octFail_memWf ?_
    first | (extract_lets; split) | split | (dsimp only; split)
    · exact State.sheetFatal_memWf (State.event_memWf (memWf_mk g1))
    · exact State.event_memWf (memWf_mk g1)

theorem State.setRole_memWf {s : State} {die : Nat} {r : Role} (g1 : memWf s) : memWf (State.setRole s die r) := by
  unfold State.setRole
  exact memWf_ite (memWf_mk g1) (memWf_mk g1)

theorem State.activate_memWf {s : State} {die : Nat} (g1 : memWf s) : memWf (State.activate s die) := by
  unfold State.activate
  exact State.event_memWf (memWf_mk (State.draw_memWf (memWf_mk (State.setRole_memWf (State.set_memWf g1)))))

theorem State.romFail_memWf {s : State} {die code : Nat} (g1 : memWf s) : memWf (State.romFail s die code) := by
  unfold State.romFail
  exact memWf_ite (memWf_mk (State.set_memWf g1)) (memWf_mk (State.set_memWf g1))

theorem State.standBy_memWf {s : State} {die : Nat} (g1 : memWf s) : memWf (State.standBy s die) := by
  unfold State.standBy
  exact memWf_ite (State.setRole_memWf (State.set_memWf g1)) (State.event_memWf (State.setRole_memWf (State.romFail_memWf g1)))

theorem State.chooseActive_memWf {s : State} (g1 : memWf s) : memWf (State.chooseActive s) := by
  unfold State.chooseActive
  refine memWf_ite ?_ ?_
  · exact memWf_ite (State.standBy_memWf (memWf_ite (State.standBy_memWf g1) g1)) (memWf_ite (State.standBy_memWf g1) g1)
  · refine memWf_ite ?_ (memWf_ite (State.activate_memWf g1) g1)
    exact memWf_ite (State.standBy_memWf (State.activate_memWf g1)) (State.activate_memWf g1)

theorem State.takeover_memWf {s : State} {cause : Nat} (g1 : memWf s) : memWf (State.takeover s cause) := by
  unfold State.takeover
  refine State.relevel_memWf ?_
  refine memWf_foldl (fun _ _ h1 => State.deliver_memWf h1) ?_
  refine memWf_mk ?_
  refine State.finals_memWf ?_
  exact State.event_memWf (State.set_memWf (State.bumpMod_memWf (State.set_memWf (State.setRole_memWf (State.setRole_memWf g1)))))

theorem State.ringOff_memWf {s : State} {die : Fin 2} {n : Fin 16} (g1 : memWf s) : memWf (State.ringOff s die n) := by
  unfold State.ringOff
  exact State.set_memWf (State.bump_memWf (memWf_mk g1))

theorem State.functionReset_memWf {s : State} {die : Fin 2} (g1 : memWf s) : memWf (State.functionReset s die) := by
  unfold State.functionReset
  exact State.resetDone_memWf (memWf_mk (memWf_foldl (fun _ _ h1 => memWf_ite (State.ringOff_memWf h1) h1) g1))

theorem State.telemetry_memWf {s : State} {kind : Nat} {body : List Byte} (g1 : memWf s) : memWf (State.telemetry s kind body) := by
  unfold State.telemetry
  exact State.bump_memWf (memWf_mk g1)

theorem State.sealed_memWf {s : State} {f : Frame} (g1 : memWf s) : memWf (State.sealed s f).1 := by
  unfold State.sealed
  refine memWf_ite_fst (memWf_pair g1) ?_
  refine memWf_ite_fst ?_ ?_
  · first | (extract_lets; split) | split | (dsimp only; split)
    · exact memWf_pair g1
    · exact memWf_pair (State.freeBytes_memWf g1)
  · refine memWf_ite_fst (memWf_pair (State.freeBytes_memWf g1)) ?_
    first | (extract_lets; split) | split | (dsimp only; split)
    · exact memWf_pair g1
    · exact memWf_pair (State.freeBytes_memWf g1)

theorem State.wireFrame_memWf {s : State} {f : Frame} (g1 : memWf s) : memWf (State.wireFrame s f).1 := by
  unfold State.wireFrame
  exact memWf_pair (State.sealed_memWf g1)

theorem State.swDrop_memWf {s : State} {r : DropReason} {inPort gen : Nat} {f : Frame} (g1 : memWf s) :
    memWf (State.swDrop s r inPort gen f) := by
  unfold State.swDrop
  refine State.leaveInput_memWf ?_
  exact memWf_ite (State.event_memWf (State.capture_memWf (State.bump_memWf g1))) (State.capture_memWf (State.bump_memWf g1))

theorem State.mirror_memWf {s : State} {inPort out : Nat} {f : Frame} (g1 : memWf s) : memWf (State.mirror s inPort out f) := by
  unfold State.mirror
  exact memWf_ite g1 (memWf_ite (memWf_mk g1) (State.bump_memWf (State.telemetry_memWf (State.wireFrame_memWf (memWf_mk g1)))))

theorem State.switchIn_memWf {s : State} {p : Nat} {f : Frame} (g1 : memWf s) : memWf (State.switchIn s p f) := by
  unfold State.switchIn
  first | (extract_lets; split) | split | (dsimp only; split)
  · exact memWf_ite (State.swDrop_memWf (State.mirror_memWf g1)) (memWf_mk (State.mirror_memWf g1))
  · exact State.swDrop_memWf (State.mirror_memWf g1)

theorem State.linkIn_memWf {s : State} {p : Nat} {e : Envelope} {f : Frame} (g1 : memWf s) : memWf (State.linkIn s p e f) := by
  unfold State.linkIn
  refine memWf_ite (State.bump_memWf (State.bump_memWf g1)) ?_
  refine memWf_ite ?_ ?_
  · refine memWf_ite ?_ ?_
    · exact State.askRetry_memWf (memWf_ite (State.bump_memWf (State.bump_memWf g1)) (State.bump_memWf (State.bump_memWf g1)))
    · exact memWf_ite (State.bump_memWf (State.bump_memWf g1)) (State.bump_memWf (State.bump_memWf g1))
  · refine memWf_ite ?_ ?_
    · refine State.violation_memWf ?_
      refine memWf_ite ?_ ?_
      · refine State.issueCredit_memWf ?_
        exact State.consume_memWf (State.linkTook_memWf (memWf_ite (State.setPort_memWf (State.bump_memWf g1)) (State.bump_memWf g1)))
      · exact memWf_ite (State.setPort_memWf (State.bump_memWf g1)) (State.bump_memWf g1)
    · refine memWf_ite ?_ ?_
      · exact memWf_ite (State.setPort_memWf (State.bump_memWf g1)) (State.bump_memWf g1)
      · refine memWf_ite ?_ ?_
        · refine memWf_ite ?_ ?_
          · exact memWf_ite (State.setPort_memWf (State.bump_memWf g1)) (State.bump_memWf g1)
          · refine State.askRetry_memWf ?_
            exact State.violation_memWf (memWf_ite (State.setPort_memWf (State.bump_memWf g1)) (State.bump_memWf g1))
        · refine memWf_ite ?_ ?_
          · refine State.violation_memWf ?_
            exact State.linkTook_memWf (memWf_ite (State.setPort_memWf (State.bump_memWf g1)) (State.bump_memWf g1))
          · refine memWf_ite ?_ ?_
            · refine State.violation_memWf ?_
              refine State.issueCredit_memWf ?_
              refine State.consume_memWf ?_
              exact State.linkTook_memWf (memWf_ite (State.setPort_memWf (State.bump_memWf g1)) (State.bump_memWf g1))
            · refine State.switchIn_memWf ?_
              refine State.consume_memWf ?_
              exact State.linkTook_memWf (memWf_ite (State.setPort_memWf (State.bump_memWf g1)) (State.bump_memWf g1))

theorem State.unqueue_memWf {s : State} {q : SwFrame} (g1 : memWf s) : memWf (State.unqueue s q) := by
  unfold State.unqueue
  exact memWf_mk g1

theorem State.setServed_memWf {s : State} {out c v : Nat} (g1 : memWf s) : memWf (State.setServed s out c v) := by
  unfold State.setServed
  exact memWf_mk g1

theorem State.setDeficit_memWf {s : State} {out c v : Nat} (g1 : memWf s) : memWf (State.setDeficit s out c v) := by
  unfold State.setDeficit
  exact memWf_mk g1

theorem State.drr_memWf {s : State} {out : Nat} {waiting ready : List SwFrame} {n : Nat} (g1 : memWf s) :
    memWf (State.drr s out waiting ready n).1 := by
  induction n generalizing s with
  | zero => exact g1
  | succ n ih =>
    simp only [State.drr]
    refine memWf_ite_fst (ih (State.setServed_memWf (State.setServed_memWf (State.setDeficit_memWf g1)))) ?_
    split
    · exact ih (State.setServed_memWf (State.setServed_memWf g1))
    · exact memWf_ite_fst (memWf_pair (State.setServed_memWf (State.setDeficit_memWf g1)))
        (ih (State.setServed_memWf (State.setServed_memWf (State.setDeficit_memWf g1))))

theorem State.chooseFrame_memWf {s : State} {out : Nat} (g1 : memWf s) : memWf (State.chooseFrame s out).1 := by
  unfold State.chooseFrame
  first | (extract_lets; split) | split | (dsimp only; split)
  · exact memWf_pair g1
  · exact memWf_ite_fst (memWf_pair g1) (memWf_ite_fst (memWf_pair g1) (memWf_ite_fst (State.drr_memWf g1) (memWf_pair g1)))

theorem State.transmit_memWf {s : State} {out : Nat} {q : SwFrame} {waiting : Bool} (g1 : memWf s) :
    memWf (State.transmit s out q waiting) := by
  unfold State.transmit
  refine State.leaveInput_memWf ?_
  refine memWf_ite ?_ ?_
  · refine memWf_ite ?_ ?_
    · exact State.keepaliveIn_memWf (State.send_memWf (State.setServed_memWf (memWf_mk (State.unqueue_memWf g1))))
    · exact State.send_memWf (State.setServed_memWf (memWf_mk (State.unqueue_memWf g1)))
  · refine memWf_ite ?_ ?_
    · refine State.linkSend_memWf ?_
      refine memWf_ite ?_ ?_
      · exact State.orderedFlush_memWf (State.setServed_memWf (memWf_mk (State.unqueue_memWf g1)))
      · exact State.setServed_memWf (memWf_mk (State.unqueue_memWf g1))
    · exact memWf_mk (State.setServed_memWf (memWf_mk (State.unqueue_memWf g1)))

theorem State.relookup_memWf {s : State} {q : SwFrame} (g1 : memWf s) : memWf (State.relookup s q) := by
  unfold State.relookup
  first | (extract_lets; split) | split | (dsimp only; split)
  · exact State.swDrop_memWf (State.unqueue_memWf g1)
  · exact State.swDrop_memWf (State.unqueue_memWf g1)
  · exact memWf_ite (State.swDrop_memWf (State.unqueue_memWf g1)) (memWf_mk (State.bump_memWf (State.unqueue_memWf g1)))

theorem State.presented_memWf {s : State} (g1 : memWf s) : memWf (State.presented s) := by
  unfold State.presented
  exact memWf_mk g1

theorem bodySwitchTableWrite_memWf {s : State} {v1 : Owed} {v2 : CmdHdr} {p : List Byte} (g1 : memWf s) :
    memWf (bodySwitchTableWrite s v1 v2 p).1 := by
  unfold bodySwitchTableWrite
  first | (extract_lets; split) | split | (dsimp only; split)
  · exact memWf_pair g1
  · exact memWf_pair g1
  · exact memWf_ite_fst (memWf_pair g1) (memWf_ite_fst (memWf_pair g1) (memWf_pair (memWf_mk g1)))

theorem bodySwitchExcWrite_memWf {s : State} {v1 : Owed} {v2 : CmdHdr} {p : List Byte} (g1 : memWf s) :
    memWf (bodySwitchExcWrite s v1 v2 p).1 := by
  unfold bodySwitchExcWrite
  first | (extract_lets; split) | split | (dsimp only; split)
  · exact memWf_pair g1
  · exact memWf_pair g1
  · exact memWf_ite_fst (memWf_pair g1) (memWf_ite_fst (memWf_pair g1) (memWf_pair (memWf_mk g1)))

theorem State.commitSwitch_memWf {s : State} {o : Owed} {drain : Bool} (g1 : memWf s) : memWf (State.commitSwitch s o drain).1 := by
  unfold State.commitSwitch
  first | (extract_lets; split) | split | (dsimp only; split)
  · exact memWf_ite_fst (memWf_pair g1) (memWf_pair (memWf_mk g1))
  · exact memWf_pair g1

theorem State.tableCommit_memWf {s : State} {o : Owed} {h : CmdHdr} {p : List Byte} (g1 : memWf s) :
    memWf (State.tableCommit s o h p).1 := by
  unfold State.tableCommit
  first | (extract_lets; split) | split | (dsimp only; split)
  · exact memWf_pair g1
  · exact memWf_ite_fst (State.commitRouting_memWf g1) (State.commitSwitch_memWf g1)

theorem bodyTableCommit_memWf {s : State} {o : Owed} {h : CmdHdr} {p : List Byte} (g1 : memWf s) : memWf (bodyTableCommit s o h p).1 := by
  unfold bodyTableCommit
  exact State.tableCommit_memWf g1

theorem State.endDrains_memWf {s : State} {st : Status} {p : Owed × Nat × Nat → Bool} (g1 : memWf s) :
    memWf (State.endDrains s st p) := by
  unfold State.endDrains
  exact State.finals_memWf (memWf_mk g1)

theorem bodyNop_memWf {s : State} {v1 : Owed} {v2 : CmdHdr} {p : List Byte} (g1 : memWf s) : memWf (bodyNop s v1 v2 p).1 := by
  unfold bodyNop
  exact memWf_pair g1

theorem bodyDeviceInfo_memWf {s : State} {v1 : Owed} {v2 : CmdHdr} {p : List Byte} (g1 : memWf s) :
    memWf (bodyDeviceInfo s v1 v2 p).1 := by
  unfold bodyDeviceInfo
  exact memWf_pair g1

theorem bodyChartroomFailover_memWf {s : State} {v1 : Owed} {v2 : CmdHdr} {p : List Byte} (g1 : memWf s) :
    memWf (bodyChartroomFailover s v1 v2 p).1 := by
  unfold bodyChartroomFailover
  first | (extract_lets; split) | split | (dsimp only; split)
  · exact memWf_pair g1
  · exact memWf_pair (State.takeover_memWf g1)

theorem bodyDeviceReset_memWf {s : State} {o : Owed} {v2 : CmdHdr} {p : List Byte} (g1 : memWf s) :
    memWf (bodyDeviceReset s o v2 p).1 := by
  unfold bodyDeviceReset
  first | (extract_lets; split) | split | (dsimp only; split)
  · exact memWf_pair g1
  · exact memWf_ite_fst (memWf_pair (memWf_mk g1)) (memWf_pair (memWf_mk (memWf_foldl (fun _ _ h1 => State.jobStop_memWf h1) g1)))

theorem bodyTelemetrySet_memWf {s : State} {v1 : Owed} {v2 : CmdHdr} {p : List Byte} (g1 : memWf s) :
    memWf (bodyTelemetrySet s v1 v2 p).1 := by
  unfold bodyTelemetrySet
  first | (extract_lets; split) | split | (dsimp only; split)
  · exact memWf_pair g1
  · exact memWf_pair (memWf_mk (State.set_memWf g1))

theorem bodyTelemetryRead_memWf {s : State} {o : Owed} {v2 : CmdHdr} {p : List Byte} (g1 : memWf s) :
    memWf (bodyTelemetryRead s o v2 p).1 := by
  unfold bodyTelemetryRead
  first | (extract_lets; split) | split | (dsimp only; split)
  · exact memWf_pair g1
  · exact memWf_pair (State.setSrc_memWf g1)

theorem bodyLevelRead_memWf {s : State} {v1 : Owed} {v2 : CmdHdr} {p : List Byte} (g1 : memWf s) : memWf (bodyLevelRead s v1 v2 p).1 := by
  unfold bodyLevelRead
  first | (extract_lets; split) | split | (dsimp only; split)
  · exact memWf_pair g1
  · exact memWf_ite_fst (memWf_pair (State.freeBytes_memWf g1)) (memWf_pair g1)

theorem State.ringCfg_memWf {s : State} {die : Fin 2} {n : Fin 16} {w : Word} (g1 : memWf s) : memWf (State.ringCfg s die n w) := by
  unfold State.ringCfg
  refine memWf_ite ?_ ?_
  · exact State.setSrc_memWf (State.setReg_memWf (State.setReg_memWf (State.set_memWf (State.set_memWf g1))))
  · exact memWf_ite (State.set_memWf (State.ringOff_memWf (State.set_memWf g1))) (State.set_memWf g1)

theorem State.cmdTail_memWf {s : State} {die : Fin 2} {n : Fin 16} {v : Nat} (g1 : memWf s) : memWf (State.cmdTail s die n v) := by
  unfold State.cmdTail
  exact State.set_memWf g1

theorem State.replyHead_memWf {s : State} {die : Fin 2} {n : Fin 16} {v : Nat} (g1 : memWf s) : memWf (State.replyHead s die n v) := by
  unfold State.replyHead
  refine memWf_foldl ?_ (State.set_memWf g1)
  intro _ _ h1
  first | (extract_lets; split) | split | (dsimp only; split)
  · exact memWf_ite (releaseHeld_memWf h1) h1
  · exact h1

theorem bodyDeviceIdSet_memWf {s : State} {v1 : Owed} {v2 : CmdHdr} {p : List Byte} (g1 : memWf s) :
    memWf (bodyDeviceIdSet s v1 v2 p).1 := by
  unfold bodyDeviceIdSet
  first | (extract_lets; split) | split | (dsimp only; split)
  · exact memWf_pair g1
  · exact memWf_pair (memWf_mk g1)

theorem bodyJobmapWrite_memWf {s : State} {v1 : Owed} {v2 : CmdHdr} {p : List Byte} (g1 : memWf s) :
    memWf (bodyJobmapWrite s v1 v2 p).1 := by
  unfold bodyJobmapWrite
  first | (extract_lets; split) | split | (dsimp only; split)
  · exact memWf_pair g1
  · exact memWf_pair g1
  · refine memWf_ite_fst (memWf_pair g1) ?_
    exact memWf_ite_fst (memWf_pair g1) (memWf_ite_fst (memWf_pair g1) (memWf_pair (State.dropLines_memWf (memWf_mk (State.setJob_memWf g1)))))

theorem bodyGatewaySet_memWf {s : State} {v1 : Owed} {v2 : CmdHdr} {p : List Byte} (g1 : memWf s) :
    memWf (bodyGatewaySet s v1 v2 p).1 := by
  unfold bodyGatewaySet
  first | (extract_lets; split) | split | (dsimp only; split)
  · exact memWf_pair g1
  · refine memWf_pair ?_
    refine State.setReg_memWf ?_
    refine State.setReg_memWf ?_
    exact State.set_memWf (State.set_memWf (State.set_memWf (State.set_memWf (State.set_memWf (memWf_ite (State.gwStop_memWf g1) g1)))))

theorem bodyPeerWrite_memWf {s : State} {v1 : Owed} {v2 : CmdHdr} {p : List Byte} (g1 : memWf s) : memWf (bodyPeerWrite s v1 v2 p).1 := by
  unfold bodyPeerWrite
  first | (extract_lets; split) | split | (dsimp only; split)
  · exact memWf_pair g1
  · exact memWf_pair g1
  · exact memWf_ite_fst (memWf_pair g1) (memWf_pair (memWf_mk g1))

theorem State.ethIn_memWf {s : State} {p : Nat} {m : EthRx} {g : State → State} (g1 : memWf s) (g2 : ∀ y1, memWf y1 → memWf (g y1)) :
    memWf (State.ethIn s p m g) := by
  unfold State.ethIn
  refine memWf_ite g1 ?_
  first | (extract_lets; split) | split | (dsimp only; split)
  · exact State.bump_memWf g1
  · exact State.bump_memWf g1
  · exact g1
  · exact memWf_ite (g2 _ g1) g1

theorem State.gwAck_memWf {s : State} {p dev : Nat} (g1 : memWf s) : memWf (State.gwAck s p dev) := by
  unfold State.gwAck
  first | (extract_lets; split) | split | (dsimp only; split)
  · exact g1
  · exact State.dgram_memWf (State.setConn_memWf g1)

theorem State.gwFrame_memWf {s : State} {n : Nat} {f : Frame} (g1 : memWf s) : memWf (State.gwFrame s n f) := by
  unfold State.gwFrame
  exact memWf_ite g1 (State.switchIn_memWf (memWf_ite (State.setGate_memWf g1) g1))

theorem bodyDeterminismSet_memWf {s : State} {v1 : Owed} {v2 : CmdHdr} {p : List Byte} (g1 : memWf s) :
    memWf (bodyDeterminismSet s v1 v2 p).1 := by
  unfold bodyDeterminismSet
  first | (extract_lets; split) | split | (dsimp only; split)
  · exact memWf_pair g1
  · refine memWf_ite_fst ?_ ?_
    · exact memWf_pair (State.set_memWf (State.set_memWf g1))
    · exact memWf_pair (State.event_memWf (State.bump_memWf (State.set_memWf (State.set_memWf g1))))

theorem State.exchanged_memWf {s : State} {off delay : Int} (g1 : memWf s) : memWf (State.exchanged s off delay) := by
  unfold State.exchanged
  refine State.step8_memWf ?_
  refine memWf_ite ?_ ?_
  · refine State.correct_memWf ?_
    refine memWf_ite ?_ ?_
    · exact State.setDtm_memWf (State.set_memWf (State.set_memWf (memWf_mk g1)))
    · refine memWf_ite ?_ ?_
      · exact State.setDtm_memWf (State.set_memWf (State.set_memWf (memWf_mk g1)))
      · refine memWf_ite ?_ ?_
        · exact State.set_memWf (State.set_memWf (memWf_mk g1))
        · exact State.setDtm_memWf (State.set_memWf (State.set_memWf (memWf_mk g1)))
  · refine memWf_mk ?_
    refine State.correct_memWf ?_
    refine memWf_ite ?_ ?_
    · exact State.setDtm_memWf (State.set_memWf (State.set_memWf (memWf_mk g1)))
    · refine memWf_ite ?_ ?_
      · exact State.setDtm_memWf (State.set_memWf (State.set_memWf (memWf_mk g1)))
      · refine memWf_ite ?_ ?_
        · exact State.set_memWf (State.set_memWf (memWf_mk g1))
        · exact State.setDtm_memWf (State.set_memWf (State.set_memWf (memWf_mk g1)))

theorem State.ptpOffset_memWf {s : State} {off delay : Int} (g1 : memWf s) : memWf (State.ptpOffset s off delay) := by
  unfold State.ptpOffset
  first | (extract_lets; split) | split | (dsimp only; split)
  · exact State.exchanged_memWf g1
  · exact memWf_mk g1
  · exact g1

theorem State.ptpRole_memWf {s : State} {gm : Option (Nat × Nat)} (g1 : memWf s) : memWf (State.ptpRole s gm) := by
  unfold State.ptpRole
  exact memWf_mk g1

theorem State.ptpAnnounce_memWf {s : State} {r : Nat} (g1 : memWf s) : memWf (State.ptpAnnounce s r) := by
  unfold State.ptpAnnounce
  exact State.ptpRole_memWf g1

theorem State.ptpSend_memWf {s : State} {l : List Nat} (g1 : memWf s) : memWf (State.ptpSend s l) := by
  unfold State.ptpSend
  exact State.send_memWf g1

theorem State.ptpSync_memWf {s : State} {seq t1 t2 : Nat} (g1 : memWf s) : memWf (State.ptpSync s seq t1 t2) := by
  unfold State.ptpSync
  exact State.ptpSend_memWf (memWf_mk g1)

theorem State.ppsEdge_memWf {s : State} (g1 : memWf s) : memWf (State.ppsEdge s) := by
  unfold State.ppsEdge
  first | (extract_lets; split) | split | (dsimp only; split)
  · exact State.exchanged_memWf g1
  · exact memWf_ite (State.exchanged_memWf g1) (memWf_mk (State.exchanged_memWf g1))
  · exact State.correct_memWf g1
  · exact g1

theorem bodyClosureCheck_memWf {s : State} {o : Owed} {h : CmdHdr} {p : List Byte} (g1 : memWf s) :
    memWf (bodyClosureCheck s o h p).1 := by
  unfold bodyClosureCheck
  first | (extract_lets; split) | split | (dsimp only; split)
  · exact memWf_pair g1
  · refine memWf_ite_fst ?_ ?_
    · exact memWf_ite_fst (memWf_pair g1) (memWf_ite_fst (memWf_pair g1) (memWf_pair (State.auditStart_memWf g1)))
    · first | (extract_lets; split) | split | (dsimp only; split)
      · exact memWf_pair g1
      · exact memWf_pair (memWf_ite (State.misclosure_memWf g1) g1)

theorem State.auditExpire_memWf {s : State} {p : Nat} (g1 : memWf s) : memWf (State.auditExpire s p) := by
  unfold State.auditExpire
  first | (extract_lets; split) | split | (dsimp only; split)
  · first | (extract_lets; split) | split | (dsimp only; split)
    · exact memWf_ite (State.final_memWf (State.setPort_memWf g1)) g1
    · exact g1
  · exact g1

theorem bodyEventRead_memWf {s : State} {o : Owed} {v2 : CmdHdr} {p : List Byte} (g1 : memWf s) : memWf (bodyEventRead s o v2 p).1 := by
  unfold bodyEventRead
  first | (extract_lets; split) | split | (dsimp only; split)
  · exact memWf_pair g1
  · exact memWf_pair (State.setSrc_memWf g1)

theorem bodyDiagRead_memWf {s : State} {v1 : Owed} {v2 : CmdHdr} {p : List Byte} (g1 : memWf s) : memWf (bodyDiagRead s v1 v2 p).1 := by
  unfold bodyDiagRead
  first | (extract_lets; split) | split | (dsimp only; split)
  · exact memWf_pair g1
  · first | (extract_lets; split) | split | (dsimp only; split)
    · exact memWf_pair g1
    · exact memWf_pair g1

theorem bodyBucketDefine_memWf {s : State} {v1 : Owed} {h : CmdHdr} {p : List Byte} (g1 : memWf s) :
    memWf (bodyBucketDefine s v1 h p).1 := by
  unfold bodyBucketDefine
  first | (extract_lets; split) | split | (dsimp only; split)
  · exact memWf_pair g1
  · exact memWf_ite_fst (memWf_pair (State.draw_memWf g1)) (memWf_pair (State.setBucket_memWf (memWf_ite (State.draw_memWf g1) g1)))

theorem bodyBucketUndefine_memWf {s : State} {v1 : Owed} {v2 : CmdHdr} {p : List Byte} (g1 : memWf s) :
    memWf (bodyBucketUndefine s v1 v2 p).1 := by
  unfold bodyBucketUndefine
  first | (extract_lets; split) | split | (dsimp only; split)
  · exact memWf_pair g1
  · exact memWf_pair (State.dropBuckets_memWf g1)

theorem bodyHbmRepair_memWf {s : State} {v1 : Owed} {v2 : CmdHdr} {p : List Byte} (g1 : memWf s) : memWf (bodyHbmRepair s v1 v2 p).1 := by
  unfold bodyHbmRepair
  exact memWf_pair (memWf_mk g1)

theorem State.ctxCapture_memWf {s : State} {h : Nat} (g1 : memWf s) : memWf (State.ctxCapture s h) := by
  unfold State.ctxCapture
  first | (extract_lets; split) | split | (dsimp only; split)
  · exact State.set_memWf (State.set_memWf g1)
  · exact memWf_ite (State.misclosure_memWf (State.set_memWf (State.set_memWf g1))) (State.set_memWf (State.set_memWf g1))

theorem State.setMeasures_memWf {s : State} {die : Nat} {l : List (List Byte)} (g1 : memWf s) : memWf (State.setMeasures s die l) := by
  unfold State.setMeasures
  exact memWf_ite (memWf_mk g1) (memWf_mk g1)

theorem State.measure_memWf {s : State} {die k : Nat} {digest : List Byte} (g1 : memWf s) : memWf (State.measure s die k digest) := by
  unfold State.measure
  exact State.setMeasures_memWf g1

theorem State.measureDebug_memWf {s : State} {die : Nat} (g1 : memWf s) : memWf (State.measureDebug s die) := by
  unfold State.measureDebug
  exact State.measure_memWf (State.freeBytes_memWf g1)

theorem State.firmware_memWf {s : State} {die : Nat} (g1 : memWf s) : memWf (State.firmware s die) := by
  unfold State.firmware
  first | (extract_lets; split) | split | (dsimp only; split)
  · exact g1
  · refine memWf_ite (State.romFail_memWf (memWf_mk g1)) ?_
    refine memWf_mk ?_
    refine State.set_memWf ?_
    refine State.measureDebug_memWf ?_
    refine State.measure_memWf ?_
    refine State.measure_memWf ?_
    first | (extract_lets; split) | split | (dsimp only; split)
    · exact State.measure_memWf (State.measure_memWf (memWf_mk g1))
    · exact State.measure_memWf (memWf_mk g1)

theorem State.requestMain_memWf {s : State} (g1 : memWf s) : memWf (State.requestMain s) := by
  unfold State.requestMain
  exact memWf_ite g1 (State.pin_memWf (memWf_mk g1))

theorem State.mainSteps_memWf {s : State} (g1 : memWf s) : memWf (State.mainSteps s) := by
  unfold State.mainSteps
  refine memWf_ite ?_ (State.requestMain_memWf g1)
  exact State.relevel_memWf (State.chooseActive_memWf (memWf_foldl (fun _ _ h1 => State.firmware_memWf h1) g1))

theorem State.mainCut_memWf {s : State} (g1 : memWf s) : memWf (State.mainCut s) := by
  unfold State.mainCut
  exact State.deviceReset_memWf (State.event_memWf g1)

theorem State.stepFail_memWf {s : State} {step die : Nat} (g1 : memWf s) : memWf (State.stepFail s step die) := by
  unfold State.stepFail
  exact State.draw_memWf (State.event_memWf g1)

theorem State.discovered_memWf {s : State} (g1 : memWf s) : memWf (State.discovered s) := by
  unfold State.discovered
  exact memWf_ite (State.set_memWf (memWf_mk (memWf_foldl (fun _ _ h1 => memWf_ite h1 (State.set_memWf h1)) g1))) g1

theorem State.bootPools_memWf {s : State} (g1 : memWf s) : memWf (State.bootPools s) := by
  unfold State.bootPools
  exact memWf_ite (State.step8_memWf (memWf_mk g1)) g1

theorem State.softRepair_memWf {s : State} {h : Nat} (g1 : memWf s) : memWf (State.softRepair s h) := by
  unfold State.softRepair
  exact memWf_mk g1

theorem State.linkTableBad_memWf {s : State} {h l : Nat} (g1 : memWf s) : memWf (State.linkTableBad s h l) := by
  unfold State.linkTableBad
  exact State.octFail_memWf (State.stepFail_memWf (State.event_memWf (State.set_memWf (State.draw_memWf (State.lineUe_memWf g1)))))

theorem State.reservedLinks_memWf {s : State} (g1 : memWf s) : memWf (State.reservedLinks s) := by
  unfold State.reservedLinks
  first | (extract_lets; split) | split | (dsimp only; split)
  · exact State.draw_memWf (memWf_mk g1)
  · exact g1

theorem bodyOverlayLoad_memWf {sig : Bool} {s : State} {o : Owed} {v3 : CmdHdr} {p : List Byte} (g1 : memWf s) :
    memWf (bodyOverlayLoad sig s o v3 p).1 := by
  unfold bodyOverlayLoad
  first | (extract_lets; split) | split | (dsimp only; split)
  · rename_i q
    have h1 := memWf_of_eq q (State.takePart_memWf g1)
    exact memWf_pair h1
  · rename_i q
    have h2 := memWf_of_eq q (State.takePart_memWf g1)
    first | (extract_lets; split) | split | (dsimp only; split)
    · exact memWf_pair h2
    · exact memWf_pair (memWf_mk h2)

theorem bodyOverlayClear_memWf {s : State} {v1 : Owed} {v2 : CmdHdr} {p : List Byte} (g1 : memWf s) :
    memWf (bodyOverlayClear s v1 v2 p).1 := by
  unfold bodyOverlayClear
  first | (extract_lets; split) | split | (dsimp only; split)
  · exact memWf_pair g1
  · exact memWf_pair (memWf_mk g1)

theorem State.setAged_memWf {s : State} {d : Nat} {x : Aged} (g1 : memWf s) : memWf (State.setAged s d x) := by
  unfold State.setAged
  exact memWf_mk g1

theorem State.reclock_memWf {s : State} (g1 : memWf s) : memWf (State.reclock s) := by
  unfold State.reclock
  exact memWf_foldl (fun _ _ h1 => State.set_memWf (State.set_memWf (State.set_memWf h1))) g1

theorem State.restage_memWf {s : State} (g1 : memWf s) : memWf (State.restage s) := by
  unfold State.restage
  exact State.set_memWf (State.reclock_memWf g1)

theorem State.lowerOne_memWf {s : State} (g1 : memWf s) : memWf (State.lowerOne s).1 := by
  unfold State.lowerOne
  refine memWf_pair ?_
  refine State.restage_memWf ?_
  refine memWf_ite_fst (memWf_pair (memWf_mk (memWf_mk g1))) ?_
  refine memWf_ite_fst (memWf_pair (State.set_memWf (memWf_mk g1))) ?_
  exact memWf_ite_fst (memWf_pair (State.set_memWf (memWf_mk g1))) (memWf_ite_fst (memWf_pair (memWf_mk (memWf_mk g1))) (memWf_pair (memWf_mk (memWf_mk g1))))

theorem State.throttle_memWf {s : State} {limit : Nat} (g1 : memWf s) : memWf (State.throttle s limit) := by
  unfold State.throttle
  first | (extract_lets; split) | split | (dsimp only; split)
  · exact memWf_mk g1
  · exact State.draw_memWf (State.event_memWf (State.bump_memWf (State.lowerOne_memWf (memWf_mk g1))))

theorem State.excursionOver_memWf {s : State} (g1 : memWf s) : memWf (State.excursionOver s) := by
  unfold State.excursionOver
  exact State.set_memWf (memWf_mk g1)

theorem State.newLimits_memWf {s : State} (g1 : memWf s) : memWf (State.newLimits s) := by
  unfold State.newLimits
  first | (extract_lets; split) | split | (dsimp only; split)
  · exact g1
  · exact State.set_memWf (State.set_memWf (State.set_memWf (memWf_mk g1)))

theorem bodyPowerLimitSet_memWf {s : State} {v1 : Owed} {v2 : CmdHdr} {p : List Byte} (g1 : memWf s) :
    memWf (bodyPowerLimitSet s v1 v2 p).1 := by
  unfold bodyPowerLimitSet
  first | (extract_lets; split) | split | (dsimp only; split)
  · exact memWf_pair g1
  · exact memWf_pair (memWf_mk g1)

theorem State.coolCd_memWf {s : State} {d bound : Nat} (g1 : memWf s) : memWf (State.coolCd s d bound) := by
  unfold State.coolCd
  exact memWf_mk g1

theorem State.coolOctant_memWf {s : State} {o bound : Nat} (g1 : memWf s) : memWf (State.coolOctant s o bound) := by
  unfold State.coolOctant
  exact memWf_foldl (fun _ _ h1 => State.coolCd_memWf h1) g1

theorem State.heatEvent_memWf {s : State} {d : Nat} (g1 : memWf s) : memWf (State.heatEvent s d) := by
  unfold State.heatEvent
  exact State.event_memWf (State.bump_memWf g1)

theorem State.portHalt_memWf {s : State} {p : Nat} (g1 : memWf s) : memWf (State.portHalt s p) := by
  unfold State.portHalt
  first | (extract_lets; split) | split | (dsimp only; split)
  · exact g1
  · exact g1
  · exact State.tornDown_memWf (State.portStop_memWf g1)

theorem State.photonicHeat_memWf {s : State} {n t : Nat} (g1 : memWf s) : memWf (State.photonicHeat s n t) := by
  unfold State.photonicHeat
  refine memWf_ite (memWf_mk g1) ?_
  refine memWf_ite (memWf_ite g1 (State.event_memWf (memWf_mk g1))) ?_
  exact memWf_foldl (fun _ _ h1 => State.portHalt_memWf h1) (State.event_memWf (memWf_mk (memWf_ite g1 (State.event_memWf (memWf_mk g1)))))

theorem State.kindHeat_memWf {s : State} {d t : Nat} (g1 : memWf s) : memWf (State.kindHeat s d t) := by
  unfold State.kindHeat
  refine memWf_ite ?_ (memWf_ite (memWf_mk g1) g1)
  refine State.restage_memWf ?_
  first | (extract_lets; split) | split | (dsimp only; split)
  · refine State.coolOctant_memWf ?_
    refine memWf_ite ?_ ?_
    · exact State.set_memWf (memWf_ite g1 (State.heatEvent_memWf (memWf_mk g1)))
    · exact memWf_ite (State.set_memWf (memWf_ite g1 (State.heatEvent_memWf (memWf_mk g1)))) (memWf_ite g1 (State.heatEvent_memWf (memWf_mk g1)))
  · refine memWf_ite ?_ ?_
    · exact State.set_memWf (memWf_ite g1 (State.heatEvent_memWf (memWf_mk g1)))
    · exact memWf_ite (State.set_memWf (memWf_ite g1 (State.heatEvent_memWf (memWf_mk g1)))) (memWf_ite g1 (State.heatEvent_memWf (memWf_mk g1)))

theorem State.cdHeat_memWf {s : State} {d t : Nat} (g1 : memWf s) : memWf (State.cdHeat s d t) := by
  unfold State.cdHeat
  refine memWf_ite ?_ ?_
  · exact State.restage_memWf (State.coolCd_memWf (memWf_ite g1 (State.heatEvent_memWf g1)))
  · first | (extract_lets; split) | split | (dsimp only; split)
    · exact memWf_ite (State.restage_memWf (memWf_ite (memWf_mk g1) (memWf_mk g1))) g1
    · exact g1

theorem State.readDie_memWf {s : State} {d degr : Nat} {slack : Int} (g1 : memWf s) : memWf (State.readDie s d degr slack) := by
  unfold State.readDie
  exact State.setAged_memWf g1

theorem State.marginLow_memWf {s : State} {d : Nat} (g1 : memWf s) : memWf (State.marginLow s d) := by
  unfold State.marginLow
  exact State.event_memWf (State.reclock_memWf (memWf_ite (State.setAged_memWf g1) (State.setAged_memWf g1)))

theorem State.derateTo_memWf {s : State} {d n : Nat} (g1 : memWf s) : memWf (State.derateTo s d n) := by
  induction n generalizing s with
  | zero => exact g1
  | succ n ih => exact memWf_ite g1 (ih (State.setAged_memWf g1))

theorem State.replanCd_memWf {s : State} {d : Nat} (g1 : memWf s) : memWf (State.replanCd s d) := by
  unfold State.replanCd
  refine memWf_ite g1 ?_
  exact memWf_ite (State.event_memWf (State.derateTo_memWf (State.setAged_memWf g1))) (State.derateTo_memWf (State.setAged_memWf g1))

theorem bodyContourReport_memWf {s : State} {v1 : Owed} {v2 : CmdHdr} {p : List Byte} (g1 : memWf s) :
    memWf (bodyContourReport s v1 v2 p).1 := by
  unfold bodyContourReport
  first | (extract_lets; split) | split | (dsimp only; split)
  · exact memWf_pair g1
  · exact memWf_pair g1

theorem bodyRetrainSchedule_memWf {s : State} {v1 : Owed} {v2 : CmdHdr} {p : List Byte} (g1 : memWf s) :
    memWf (bodyRetrainSchedule s v1 v2 p).1 := by
  unfold bodyRetrainSchedule
  first | (extract_lets; split) | split | (dsimp only; split)
  · exact memWf_pair g1
  · exact memWf_pair (memWf_mk g1)

theorem State.stallTick_memWf {s : State} (g1 : memWf s) : memWf (State.stallTick s) := by
  unfold State.stallTick
  exact memWf_ite g1 (memWf_mk g1)

theorem State.ptpTick_memWf {s : State} (g1 : memWf s) : memWf (State.ptpTick s) := by
  unfold State.ptpTick
  refine memWf_ite g1 ?_
  refine memWf_ite (memWf_ite (State.ptpRole_memWf g1) g1) ?_
  refine memWf_ite ?_ ?_
  · exact State.ptpSend_memWf (State.ptpSend_memWf (State.ptpSend_memWf (memWf_ite (State.ptpRole_memWf g1) g1)))
  · exact State.ptpSend_memWf (State.ptpSend_memWf (memWf_ite (State.ptpRole_memWf g1) g1))

theorem State.upsetTick_memWf {s : State} (g1 : memWf s) : memWf (State.upsetTick s) := by
  unfold State.upsetTick
  exact memWf_mk g1

theorem State.tick_memWf {s : State} (g1 : memWf s) : memWf (State.tick s) := by
  unfold State.tick
  refine State.sweepFatal_memWf ?_
  refine State.ptpTick_memWf ?_
  refine State.stallTick_memWf ?_
  refine memWf_foldl (fun _ _ h1 => State.auditExpire_memWf h1) ?_
  exact State.bootPools_memWf (State.step8_memWf (State.upsetTick_memWf (State.advance_memWf g1)))

theorem bodySheetCreate_memWf {s : State} {v1 : Owed} {h : CmdHdr} {p : List Byte} (g1 : memWf s) :
    memWf (bodySheetCreate s v1 h p).1 := by
  unfold bodySheetCreate
  first | (extract_lets; split) | split | (dsimp only; split)
  · exact memWf_pair g1
  · first | (extract_lets; split) | split | (dsimp only; split)
    · exact State.sheetBegin_memWf g1
    · exact memWf_pair (State.setSheet_memWf g1)

theorem bodySheetDestroy_memWf {s : State} {o : Owed} {h : CmdHdr} {p : List Byte} (g1 : memWf s) :
    memWf (bodySheetDestroy s o h p).1 := by
  unfold bodySheetDestroy
  first | (extract_lets; split) | split | (dsimp only; split)
  · exact memWf_pair g1
  · refine memWf_ite_fst (memWf_pair g1) ?_
    refine memWf_pair ?_
    refine memWf_ite ?_ ?_
    · exact State.sheetStop1_memWf (State.tornDown_memWf (State.setSheet_memWf g1))
    · exact State.tornDown_memWf (State.setSheet_memWf g1)

theorem bodySheetReset_memWf {s : State} {v1 : Owed} {h : CmdHdr} {p : List Byte} (g1 : memWf s) : memWf (bodySheetReset s v1 h p).1 := by
  unfold bodySheetReset
  first | (extract_lets; split) | split | (dsimp only; split)
  · exact memWf_pair g1
  · exact memWf_pair (State.setSheet_memWf (State.sheetEnd_memWf g1))

theorem bodyContextCreate_memWf {s : State} {v1 : Owed} {h : CmdHdr} {p : List Byte} (g1 : memWf s) :
    memWf (bodyContextCreate s v1 h p).1 := by
  unfold bodyContextCreate
  first | (extract_lets; split) | split | (dsimp only; split)
  · exact memWf_pair g1
  · first | (extract_lets; split) | split | (dsimp only; split)
    · exact State.ctxBegin_memWf g1
    · exact memWf_pair (State.setCtx_memWf g1)

theorem bodyContextDestroy_memWf {s : State} {o : Owed} {h : CmdHdr} {p : List Byte} (g1 : memWf s) :
    memWf (bodyContextDestroy s o h p).1 := by
  unfold bodyContextDestroy
  first | (extract_lets; split) | split | (dsimp only; split)
  · refine memWf_ite_fst ?_ ?_
    · exact memWf_pair (State.drainAll_memWf (State.ctxStop_memWf (State.owe_memWf (State.tornDown_memWf (State.setCtx_memWf g1)))))
    · exact memWf_pair (State.tornDown_memWf (State.setCtx_memWf g1))
  · exact memWf_pair g1
  · exact memWf_pair g1

theorem State.kick_memWf {s : State} {i : Nat} (g1 : memWf s) : memWf (State.kick s i) := by
  unfold State.kick
  first | (extract_lets; split) | split | (dsimp only; split)
  · exact State.schedule_memWf g1
  · first | (extract_lets; split) | split | (dsimp only; split)
    · exact memWf_ite (State.runNext_memWf g1) g1
    · exact g1

theorem bodyContextResume_memWf {s : State} {v1 : Owed} {h : CmdHdr} {p : List Byte} (g1 : memWf s) :
    memWf (bodyContextResume s v1 h p).1 := by
  unfold bodyContextResume
  first | (extract_lets; split) | split | (dsimp only; split)
  · exact memWf_pair (memWf_ite (State.kick_memWf (State.setCtx_memWf g1)) g1)
  · exact memWf_pair g1
  · exact memWf_pair g1

theorem bodyKernelDoorbell_memWf {s : State} {v1 : Owed} {h : CmdHdr} {p : List Byte} (g1 : memWf s) :
    memWf (bodyKernelDoorbell s v1 h p).1 := by
  unfold bodyKernelDoorbell
  first | (extract_lets; split) | split | (dsimp only; split)
  · exact memWf_pair g1
  · exact memWf_pair (State.kick_memWf (State.readTail_memWf g1))

theorem State.switchDone_memWf {s : State} {i : Nat} {out : Option Nat} {c : Nat} (g1 : memWf s) : memWf (s.switchDone i out c) := by
  unfold State.switchDone
  extract_lets old s1 n1 s2
  clear_value old
  have h1 : memWf s1 := by
    show memWf (match old with | some (o, x) => s.setCtx i o { x with saved := s.mem.filter fun e => s.liveKey i x e.1 } | none => s)
    split
    · exact State.setCtx_memWf g1
    · exact g1
  have h2 : memWf s2 := State.bump_memWf (State.scrZero_memWf (State.switchedOut_memWf h1))
  clear_value s2
  split
  · exact State.schedule_memWf (State.setSheet_memWf (State.bump_memWf h2))
  · rename_i x _
    extract_lets s3 s4 s5
    have h4 : memWf s4 := Memory.wf_setAll _ _ (State.bump_memWf h2)
    have h5 : memWf s5 := State.setCtx_memWf h4
    exact memWf_ite (State.runNext_memWf (State.setSheet_memWf h5)) (State.schedule_memWf (State.setSheet_memWf h5))

theorem State.coreKill_memWf {s : State} {st : Status} {c : Nat} (g1 : memWf s) : memWf (State.coreKill s st c) := by
  unfold State.coreKill
  exact memWf_ite (State.noteFault_memWf (State.setCore_memWf (memWf_mk (State.captureFault_memWf g1)))) g1

theorem State.watchdogEvent_memWf {s : State} {i c : Nat} {x : Context} (g1 : memWf s) : memWf (State.watchdogEvent s i c x) := by
  unfold State.watchdogEvent
  exact State.event_memWf (State.bump_memWf g1)

theorem bodyServeSet_memWf {s : State} {v1 : Owed} {h : CmdHdr} {p : List Byte} (g1 : memWf s) : memWf (bodyServeSet s v1 h p).1 := by
  unfold bodyServeSet
  first | (extract_lets; split) | split | (dsimp only; split)
  · exact memWf_pair g1
  · exact memWf_ite_fst (memWf_pair (State.setSheet_memWf g1)) (memWf_ite_fst (memWf_pair g1) (memWf_pair (State.setSheet_memWf g1)))

theorem State.seqAdvance_memWf {s : State} {i : Nat} {v : Serve} {e : SeqRow × Nat} (g1 : memWf s) :
    memWf (State.seqAdvance s i v e) := by
  unfold State.seqAdvance
  refine memWf_ite (State.writeN_memWf (State.writeN_memWf g1)) ?_
  exact memWf_ite (State.write_memWf (State.writeN_memWf (State.writeN_memWf g1))) (State.writeN_memWf (State.writeN_memWf g1))

theorem State.compose_memWf {s : State} {i : Nat} (g1 : memWf s) : memWf (State.compose s i) := by
  unfold State.compose
  first | (extract_lets; split) | split | (dsimp only; split)
  · exact g1
  · refine memWf_ite g1 ?_
    refine memWf_ite g1 ?_
    exact State.setSheet_memWf (State.writeN_memWf (State.write_memWf (memWf_foldl (fun _ _ h1 => State.seqAdvance_memWf h1) g1)))

theorem State.regRead_memWf {s : State} {id : RegId} (g1 : memWf s) : memWf (State.regRead s id).1 := by
  unfold State.regRead
  first | (extract_lets; split) | split | (dsimp only; split)
  · exact memWf_ite_fst (memWf_pair (State.poolCapture_memWf g1)) (memWf_pair g1)
  · exact memWf_pair (State.ctxCapture_memWf g1)
  · exact memWf_pair (State.draw_memWf g1)
  · exact memWf_pair g1

theorem State.writePlain_memWf {s : State} {id : RegId} {w : Word} (g1 : memWf s) : memWf (State.writePlain s id w) := by
  unfold State.writePlain
  exact State.setReg_memWf g1

theorem State.flushRlc_memWf {s : State} (g1 : memWf s) : memWf (State.flushRlc s) := by
  unfold State.flushRlc
  exact State.dropLines_memWf g1

theorem State.ringAddr_memWf {s : State} {id : RegId} {w : Word} {host : Bool} (g1 : memWf s) : memWf (State.ringAddr s id w host) := by
  unfold State.ringAddr
  exact memWf_ite (memWf_ite (State.bump_memWf g1) g1) (State.writePlain_memWf g1)

theorem State.ringDb_memWf {s : State} {die : Fin 2} {n : Fin 16} {w : Word} (g1 : memWf s) : memWf (State.ringDb s die n w) := by
  unfold State.ringDb
  exact State.replyHead_memWf (State.cmdTail_memWf g1)

theorem State.gwyCtl_memWf {s : State} {p : Nat} {w : Word} (g1 : memWf s) : memWf (State.gwyCtl s p w) := by
  unfold State.gwyCtl
  exact State.writePlain_memWf (memWf_ite (State.gwStop_memWf g1) g1)

theorem State.regWrite_memWf {s : State} {id : RegId} {w : Word} {by_ : Option Nat} {host : Bool} (g1 : memWf s) :
    memWf (State.regWrite s id w by_ host) := by
  unfold State.regWrite
  first | (extract_lets; split) | split | (dsimp only; split)
  · exact memWf_ite (State.flushRlc_memWf (State.writePlain_memWf g1)) (State.writePlain_memWf g1)
  · exact memWf_ite (State.flushGvc_memWf (State.writePlain_memWf g1)) (State.writePlain_memWf g1)
  · exact memWf_ite (State.flushGaz_memWf (State.writePlain_memWf g1)) (State.writePlain_memWf g1)
  · exact memWf_ite (State.writePlain_memWf g1) g1
  · exact memWf_ite (State.evalNow_memWf (State.writePlain_memWf g1)) (State.writePlain_memWf g1)
  · exact State.haltWrite_memWf g1
  · exact memWf_ite (State.recipeWrite_memWf g1) g1
  · first | (extract_lets; split) | split | (dsimp only; split)
    · exact State.qntSubmit_memWf g1
    · exact g1
  · exact memWf_ite (State.threshWrite_memWf g1) g1
  · exact State.writeFptCtl_memWf g1
  · exact State.auditWrite_memWf g1
  · exact State.gwyCtl_memWf g1
  · exact State.step8_memWf (State.writePlain_memWf g1)
  · exact g1
  · exact State.ringAddr_memWf g1
  · exact State.ringAddr_memWf g1
  · exact State.ringAddr_memWf g1
  · exact State.ringCfg_memWf g1
  · exact State.ringDb_memWf g1
  · exact State.writePlain_memWf g1

theorem State.coreRegWrite_memWf {s : State} {u b p o : Nat} {w : Word} (g1 : memWf s) : memWf (State.coreRegWrite s u b p o w) := by
  unfold State.coreRegWrite
  first | (extract_lets; split) | split | (dsimp only; split)
  · exact State.regWrite_memWf g1
  · exact g1

theorem State.hostWrite_memWf {s : State} {die : Fin 2} {a n : Nat} {w : Word} (g1 : memWf s) : memWf (State.hostWrite s die a n w) := by
  unfold State.hostWrite
  first | (extract_lets; split) | split | (dsimp only; split)
  · first | (extract_lets; split) | split | (dsimp only; split)
    · exact memWf_ite (State.regWrite_memWf g1) (State.bump_memWf g1)
    · exact State.bump_memWf g1
  · exact State.bump_memWf g1

theorem bodyRegWrite_memWf {s : State} {v1 : Owed} {v2 : CmdHdr} {p : List Byte} (g1 : memWf s) : memWf (bodyRegWrite s v1 v2 p).1 := by
  unfold bodyRegWrite
  first | (extract_lets; split) | split | (dsimp only; split)
  · exact memWf_pair g1
  · first | (extract_lets; split) | split | (dsimp only; split)
    · exact memWf_pair g1
    · refine memWf_ite_fst (memWf_pair g1) ?_
      first | (extract_lets; split) | split | (dsimp only; split)
      · exact memWf_pair (State.regWrite_memWf g1)
      · exact memWf_pair g1

theorem State.after_memWf {s : State} (g1 : memWf s) : memWf (State.after s) := by
  unfold State.after
  refine State.poolsDrained_memWf ?_
  exact State.sweepFatal_memWf (State.treeOps_memWf (State.collOps_memWf (State.exchOps_memWf (State.settle_memWf g1))))

theorem State.homeCheck_memWf {s : State} {f : Frame} {src : Nat} {l : List Touch} (g1 : memWf s) :
    memWf (State.homeCheck s f src l).1 := by
  unfold State.homeCheck
  first | (extract_lets; split) | split | (dsimp only; split)
  · exact memWf_pair (State.regionViol_memWf g1)
  · exact memWf_pair (State.meets_memWf g1)

theorem State.checkedAt_memWf {s : State} {f : Frame} {src : Nat} {l : List Touch} {g : State → State × Done} (g1 : memWf s) (g2 : ∀ y1,
    memWf y1 → memWf (g y1).1) :
    memWf (State.checkedAt s f src l g).1 := by
  unfold State.checkedAt
  first | (extract_lets; split) | split | (dsimp only; split)
  · exact memWf_pair g1
  · first | (extract_lets; split) | split | (dsimp only; split)
    · rename_i q
      have h1 := memWf_of_eq q (State.homeCheck_memWf g1)
      exact memWf_pair h1
    · rename_i q
      have h2 := memWf_of_eq q (State.homeCheck_memWf g1)
      exact g2 _ h2

theorem State.queueStore_memWf {s : State} {f : Frame} {k page o : Nat} (g1 : memWf s) : memWf (State.queueStore s f k page o).1 := by
  unfold State.queueStore
  exact memWf_ite_fst (memWf_pair g1) (memWf_ite_fst (memWf_pair g1) (memWf_ite_fst (memWf_pair g1) (memWf_pair (memWf_mk g1))))

theorem State.regAccess_memWf {s : State} {f : Frame} {b p o : Nat} (g1 : memWf s) : memWf (State.regAccess s f b p o).1 := by
  unfold State.regAccess
  refine memWf_ite_fst (memWf_pair g1) ?_
  refine memWf_ite_fst ?_ ?_
  · first | (extract_lets; split) | split | (dsimp only; split)
    · exact memWf_pair (State.regRead_memWf g1)
    · exact memWf_pair g1
  · refine memWf_ite_fst ?_ ?_
    · first | (extract_lets; split) | split | (dsimp only; split)
      · exact memWf_pair (State.regWrite_memWf g1)
      · exact memWf_pair g1
    · exact memWf_ite_fst (memWf_pair g1) (memWf_pair (State.coreRegWrite_memWf g1))

theorem State.wordsWritten_memWf {s : State} {i a n : Nat} (g1 : memWf s) : memWf (State.wordsWritten s i a n) := by
  unfold State.wordsWritten
  first | (extract_lets; split) | split | (dsimp only; split)
  · refine memWf_ite ?_ ?_
    · refine State.compose_memWf ?_
      refine memWf_ite (State.collWord_memWf g1) ?_
      exact State.kick_memWf (memWf_foldl (fun _ _ h1 => State.readTail_memWf h1) (State.collWord_memWf g1))
    · refine memWf_ite (State.collWord_memWf g1) ?_
      exact State.kick_memWf (memWf_foldl (fun _ _ h2 => State.readTail_memWf h2) (State.collWord_memWf g1))
  · refine memWf_ite (State.collWord_memWf g1) ?_
    exact State.kick_memWf (memWf_foldl (fun _ _ h3 => State.readTail_memWf h3) (State.collWord_memWf g1))

theorem State.wordRaised_memWf {s : State} {i a n : Nat} (g1 : memWf s) : memWf (State.wordRaised s i a n) := by
  unfold State.wordRaised
  exact State.wordsWritten_memWf (State.exchWord_memWf g1)

theorem State.doLoad_memWf {s : State} {f : Frame} {src : Nat} (g1 : memWf s) : memWf (State.doLoad s f src).1 := by
  unfold State.doLoad
  exact State.checkedAt_memWf g1 (fun _ h1 => memWf_pair h1)

theorem State.doStore_memWf {s : State} {f : Frame} {src : Nat} (g1 : memWf s) : memWf (State.doStore s f src).1 := by
  unfold State.doStore
  exact State.checkedAt_memWf g1 (fun _ h1 => memWf_pair (State.write_memWf h1))

theorem State.doAtomic_memWf {s : State} {f : Frame} {src : Nat} (g1 : memWf s) : memWf (State.doAtomic s f src).1 := by
  unfold State.doAtomic
  exact State.checkedAt_memWf g1 (fun _ h1 => memWf_pair (State.wordRaised_memWf (State.writeN_memWf h1)))

theorem State.doRacc_memWf {s : State} {f : Frame} {src : Nat} (g1 : memWf s) : memWf (State.doRacc s f src).1 := by
  unfold State.doRacc
  first | (extract_lets; split) | split | (dsimp only; split)
  · exact memWf_pair g1
  · exact memWf_pair g1
  · exact memWf_pair g1
  · exact memWf_ite_fst (memWf_pair g1) (memWf_ite_fst (memWf_pair g1) (memWf_ite_fst (memWf_pair g1) (memWf_pair (State.raccTake_memWf g1))))

theorem State.doNotify_memWf {s : State} {f : Frame} {src : Nat} (g1 : memWf s) : memWf (State.doNotify s f src).1 := by
  unfold State.doNotify
  refine memWf_ite_fst (memWf_pair g1) ?_
  refine State.checkedAt_memWf g1 ?_
  intro _ h1
  refine memWf_pair ?_
  refine State.wordRaised_memWf ?_
  refine memWf_ite ?_ ?_
  · exact State.writeN_memWf (memWf_ite h1 (State.write_memWf h1))
  · exact State.wordsWritten_memWf (State.writeN_memWf (memWf_ite h1 (State.write_memWf h1)))

theorem State.putAt_memWf {s : State} {f : Frame} {src n : Nat} {g : State → State × Done} (g1 : memWf s) (g2 : ∀ y1, memWf y1 → memWf (g
    y1).1) :
    memWf (State.putAt s f src n g).1 := by
  unfold State.putAt
  first | (extract_lets; split) | split | (dsimp only; split)
  · exact memWf_pair (State.bump_memWf g1)
  · exact State.checkedAt_memWf g1 (fun _ h1 => g2 _ h1)

theorem State.doPut_memWf {s : State} {f : Frame} {src : Nat} (g1 : memWf s) : memWf (State.doPut s f src).1 := by
  unfold State.doPut
  first | (extract_lets; split) | split | (dsimp only; split)
  · exact memWf_pair g1
  · exact State.putAt_memWf g1 (fun _ h1 => memWf_pair (State.collPut_memWf (State.relayPut_memWf (State.write_memWf h1))))

theorem State.doTree_memWf {s : State} {f : Frame} {src : Nat} (g1 : memWf s) : memWf (State.doTree s f src).1 := by
  unfold State.doTree
  first | (extract_lets; split) | split | (dsimp only; split)
  · refine memWf_ite_fst ?_ ?_
    · exact memWf_pair (State.setTree_memWf (State.treeHear_memWf g1))
    · refine memWf_ite_fst (memWf_pair (State.treeHear_memWf g1)) ?_
      refine memWf_ite_fst ?_ ?_
      · exact memWf_pair (State.setTree_memWf (State.treeHear_memWf g1))
      · exact State.putAt_memWf (State.treeHear_memWf g1) (fun _ h1 => memWf_pair (State.write_memWf (State.setTree_memWf h1)))
  · exact memWf_pair g1
  · exact memWf_pair g1

theorem State.doGet_memWf {s : State} {f : Frame} {src : Nat} (g1 : memWf s) : memWf (State.doGet s f src).1 := by
  unfold State.doGet
  exact State.checkedAt_memWf g1 (fun _ h1 => memWf_pair h1)

theorem State.doInvalidate_memWf {s : State} {f : Frame} (g1 : memWf s) : memWf (State.doInvalidate s f).1 := by
  unfold State.doInvalidate
  exact memWf_pair (State.dropLines_memWf g1)

theorem State.effect_memWf {s : State} {f : Frame} {src : Nat} (g1 : memWf s) : memWf (State.effect s f src).1 := by
  unfold State.effect
  refine memWf_ite_fst (memWf_pair g1) ?_
  first | (extract_lets; split) | split | (dsimp only; split)
  · exact State.queueStore_memWf g1
  · exact State.queueStore_memWf g1
  · exact State.queueStore_memWf g1
  · exact State.regAccess_memWf g1
  · exact State.regAccess_memWf g1
  · exact State.regAccess_memWf g1
  · exact State.doLoad_memWf g1
  · exact State.doStore_memWf g1
  · exact State.doAtomic_memWf g1
  · exact State.doRacc_memWf g1
  · exact memWf_ite_fst (State.doGet_memWf g1) (memWf_ite_fst (State.doTree_memWf g1) (State.doPut_memWf g1))
  · exact State.doInvalidate_memWf g1
  · exact State.doNotify_memWf g1

theorem State.nacked_memWf {s : State} {f : Frame} {st : Status} (g1 : memWf s) : memWf (State.nacked s f st) := by
  unfold State.nacked
  exact memWf_ite (State.refuse_memWf g1) (State.sendFrame_memWf g1)

theorem State.execFrame_memWf {s : State} {f : Frame} {src : Nat} (g1 : memWf s) : memWf (State.execFrame s f src).1 := by
  unfold State.execFrame
  first | (extract_lets; split) | split | (dsimp only; split)
  · exact memWf_pair (State.acked_memWf (State.effect_memWf g1))
  · exact memWf_pair (State.responded_memWf (State.effect_memWf g1))
  · exact memWf_pair (State.nacked_memWf (State.effect_memWf g1))
  · exact memWf_pair (memWf_mk (State.effect_memWf g1))
  · exact memWf_pair (State.effect_memWf g1)

theorem State.drain_memWf {n : Nat} {s : State} {k : RxKey} (g1 : memWf s) : memWf (State.drain n s k) := by
  induction n generalizing s with
  | zero => exact g1
  | succ n ih =>
    simp only [State.drain]
    split
    · exact g1
    · split
      · exact State.unknownSource_memWf (State.setRx_memWf g1)
      · exact memWf_ite (ih (State.execFrame_memWf (State.setRx_memWf g1))) (State.execFrame_memWf (State.setRx_memWf g1))

theorem State.drained_memWf {s : State} {f : Frame} (g1 : memWf s) : memWf (State.drained s f) := by
  unfold State.drained
  exact State.drain_memWf g1

theorem State.acceptKept_memWf {s : State} {p : Frame → Bool} (g1 : memWf s) : memWf (State.acceptKept s p) := by
  unfold State.acceptKept
  first | (extract_lets; split) | split | (dsimp only; split)
  · exact g1
  · first | (extract_lets; split) | split | (dsimp only; split)
    · exact State.unknownSource_memWf (memWf_mk g1)
    · exact State.after_memWf (State.drained_memWf (State.execFrame_memWf (memWf_mk g1)))

theorem State.request_memWf {s : State} {f : Frame} {op : Nat} {ordered : Bool} (g1 : memWf s) :
    memWf (State.request s f op ordered) := by
  unfold State.request
  refine memWf_ite g1 ?_
  first | (extract_lets; split) | split | (dsimp only; split)
  · rename_i q
    have h1 := memWf_of_eq q (State.takeIn_memWf g1)
    exact State.after_memWf (State.drained_memWf h1)
  · rename_i q
    have h2 := memWf_of_eq q (State.takeIn_memWf g1)
    refine memWf_ite h2 ?_
    refine memWf_ite ?_ ?_
    · exact State.after_memWf (State.drained_memWf (State.execFrame_memWf (memWf_ite_fst (State.inOrder_memWf h2) (memWf_pair h2))))
    · exact State.after_memWf (memWf_ite_fst (State.inOrder_memWf h2) (memWf_pair h2))

theorem State.record_memWf {s : State} {f : Frame} {kind : Nat} {g : State → Nat → RecHdr → State} (g1 : memWf s) (g2 : ∀ y1 y2 y3, memWf
    y1 → memWf (g y1 y2 y3)) :
    memWf (State.record s f kind g) := by
  unfold State.record
  exact memWf_ite (State.after_memWf (State.drained_memWf (State.onArrival_memWf g1 (fun _ _ h1 => memWf_pair (g2 _ _ _ h1))))) g1

theorem State.skipRecord_memWf {s : State} {f : Frame} {h : RecHdr} (g1 : memWf s) : memWf (State.skipRecord s f h) := by
  unfold State.skipRecord
  refine State.settleEpoch_memWf ?_
  refine memWf_foldl ?_ g1
  intro _ _ h1
  first | (extract_lets; split) | split | (dsimp only; split)
  · exact h1
  · exact State.batchStep_memWf (State.engineFree_memWf (State.adjEpoch_memWf h1))

theorem State.rmoTake_memWf {s : State} {k op : Nat} (g1 : memWf s) : memWf (State.rmoTake s k op) := by
  unfold State.rmoTake
  first | (extract_lets; split) | split | (dsimp only; split)
  · exact g1
  · exact memWf_ite g1 (State.after_memWf (State.tryDesc_memWf (State.popQueue_memWf g1)))

theorem State.answerIn_memWf {s : State} {f : Frame} {kind : Nat} {g : State → State} (g1 : memWf s) (g2 : ∀ y1, memWf y1 → memWf (g y1))
    :
    memWf (State.answerIn s f kind g) := by
  unfold State.answerIn
  exact memWf_ite g1 (memWf_ite (State.bump_memWf g1) (memWf_ite (State.authFail_memWf g1) (State.after_memWf (g2 _ g1))))

theorem State.installFill_memWf {s : State} {e : ReplayEntry} {o : RemoteOp} {f : Frame} (g1 : memWf s) :
    memWf (State.installFill s e o f) := by
  unfold State.installFill
  first | (extract_lets; split) | split | (dsimp only; split)
  · exact g1
  · exact memWf_ite g1 (State.installLine_memWf g1)

theorem State.keepBlock_memWf {s : State} {e : ReplayEntry} {o : Option RemoteOp} {f : Frame} (g1 : memWf s) :
    memWf (State.keepBlock s e o f) := by
  unfold State.keepBlock
  first | (extract_lets; split) | split | (dsimp only; split)
  · exact g1
  · exact memWf_ite (memWf_mk g1) (State.bump_memWf (memWf_mk (memWf_mk g1)))

theorem State.resend_memWf {s : State} {e : ReplayEntry} (g1 : memWf s) : memWf (State.resend s e) := by
  unfold State.resend
  exact State.sendFrame_memWf (State.bump_memWf (memWf_mk g1))

theorem State.dropTodo_memWf {s : State} {job dst : Nat} (g1 : memWf s) : memWf (State.dropTodo s job dst) := by
  unfold State.dropTodo
  exact memWf_foldl (fun _ _ h1 => memWf_ite (State.opDone_memWf (State.setOp_memWf h1)) (State.setOp_memWf h1)) g1

theorem State.timeOut_memWf {s : State} {e : ReplayEntry} (g1 : memWf s) : memWf (State.timeOut s e) := by
  unfold State.timeOut
  refine memWf_ite ?_ ?_
  · exact memWf_ite (State.event_memWf (State.resolve_memWf g1)) (State.resolve_memWf g1)
  · refine memWf_ite ?_ ?_
    · exact State.event_memWf (State.dropTodo_memWf (State.resolve_memWf (memWf_mk g1)))
    · exact State.dropTodo_memWf (State.resolve_memWf (memWf_mk g1))

theorem bodyRegionSet_memWf {s : State} {o : Owed} {h : CmdHdr} {p : List Byte} (g1 : memWf s) : memWf (bodyRegionSet s o h p).1 := by
  unfold bodyRegionSet
  first | (extract_lets; split) | split | (dsimp only; split)
  · exact memWf_pair g1
  · exact memWf_ite_fst (memWf_pair (memWf_mk g1)) (memWf_pair (State.after_memWf (State.tryRegion_memWf (State.owe_memWf (memWf_mk g1)))))

theorem bodyJobAdmit_memWf {ok : Bool} {s : State} {o : Owed} {h : CmdHdr} {p : List Byte} (g1 : memWf s) :
    memWf (bodyJobAdmit ok s o h p).1 := by
  unfold bodyJobAdmit
  first | (extract_lets; split) | split | (dsimp only; split)
  · rename_i q
    have h1 := memWf_of_eq q (State.takePart_memWf g1)
    exact State.partAnswer_memWf h1
  · rename_i q
    have h2 := memWf_of_eq q (State.takePart_memWf g1)
    first | (extract_lets; split) | split | (dsimp only; split)
    · exact State.admitRefused_memWf h2
    · exact memWf_ite_fst (memWf_pair (State.setJob_memWf h2)) (State.admitBegin_memWf h2)

theorem bodyJobTeardown_memWf {s : State} {o : Owed} {h : CmdHdr} {p : List Byte} (g1 : memWf s) : memWf (bodyJobTeardown s o h p).1 := by
  unfold bodyJobTeardown
  first | (extract_lets; split) | split | (dsimp only; split)
  · exact memWf_pair g1
  · first | (extract_lets; split) | split | (dsimp only; split)
    · exact memWf_pair g1
    · exact memWf_pair (State.tornDown_memWf (State.setJob_memWf g1))
    · exact memWf_pair (State.jobStop_memWf g1)

theorem State.attBody_memWf {s : State} {j : Nat} {items : List Nat} (g1 : memWf s) : memWf (State.attBody s j items).1 := by
  unfold State.attBody
  refine memWf_foldl_fst ?_ (memWf_pair g1)
  intro _ _ h1
  first | (extract_lets; split) | split | (dsimp only; split)
  · exact memWf_pair h1
  · exact memWf_pair h1
  · exact memWf_pair (State.freeBytes_memWf h1)
  · exact memWf_pair (State.freeBytes_memWf h1)
  · exact memWf_pair (State.freeBytes_memWf h1)
  · exact memWf_pair h1
  · exact memWf_pair h1
  · exact memWf_pair (State.freeBytes_memWf h1)
  · exact memWf_pair (State.freeBytes_memWf h1)
  · exact memWf_pair (State.freeBytes_memWf h1)

theorem State.sendPhase_memWf {s : State} {dev phase j : Nat} {items : List Nat} (g1 : memWf s) :
    memWf (State.sendPhase s dev phase j items) := by
  unfold State.sendPhase
  exact State.send_memWf (State.attBody_memWf g1)

theorem State.setAttest_memWf {s : State} {j peer : Nat} {x : Option Attest} (g1 : memWf s) : memWf (State.setAttest s j peer x) := by
  unfold State.setAttest
  exact State.setJob_memWf g1

theorem bodyPeerAttest_memWf {s : State} {o : Owed} {h : CmdHdr} {p : List Byte} (g1 : memWf s) : memWf (bodyPeerAttest s o h p).1 := by
  unfold bodyPeerAttest
  first | (extract_lets; split) | split | (dsimp only; split)
  · rename_i q
    have h1 := memWf_of_eq q (State.takePart_memWf g1)
    exact State.partAnswer_memWf h1
  · rename_i q
    have h2 := memWf_of_eq q (State.takePart_memWf g1)
    first | (extract_lets; split) | split | (dsimp only; split)
    · exact State.admitRefused_memWf h2
    · first | (extract_lets; split) | split | (dsimp only; split)
      · exact State.admitRefused_memWf h2
      · exact memWf_pair (State.sendPhase_memWf (State.setAttest_memWf h2))

theorem State.untrusted_memWf {s : State} {j peer : Nat} {owed : Option Owed} (g1 : memWf s) : memWf (State.untrusted s j peer owed) := by
  unfold State.untrusted
  first | (extract_lets; split) | split | (dsimp only; split)
  · exact State.final_memWf (State.event_memWf (State.bump_memWf (State.setAttest_memWf g1)))
  · exact State.event_memWf (State.bump_memWf (State.setAttest_memWf g1))

theorem State.setDebug_memWf {s : State} {d : Nat} (g1 : memWf s) : memWf (State.setDebug s d) := by
  unfold State.setDebug
  refine memWf_ite g1 ?_
  refine memWf_ite ?_ ?_
  · exact State.disarmAll_memWf (State.event_memWf (State.measureDebug_memWf (State.measureDebug_memWf (memWf_mk g1))))
  · exact State.event_memWf (State.measureDebug_memWf (State.measureDebug_memWf (memWf_mk g1)))

theorem bodyDebugUnlock_memWf {sig : Bool} {s : State} {o : Owed} {v3 : CmdHdr} {p : List Byte} (g1 : memWf s) :
    memWf (bodyDebugUnlock sig s o v3 p).1 := by
  unfold bodyDebugUnlock
  first | (extract_lets; split) | split | (dsimp only; split)
  · rename_i q
    have h1 := memWf_of_eq q (State.takePart_memWf g1)
    exact memWf_pair h1
  · rename_i q
    have h2 := memWf_of_eq q (State.takePart_memWf g1)
    refine memWf_ite_fst (memWf_pair (memWf_mk (State.freeBytes_memWf h2))) ?_
    first | (extract_lets; split) | split | (dsimp only; split)
    · exact memWf_pair (memWf_mk h2)
    · exact memWf_pair (State.setDebug_memWf (State.bump_memWf (memWf_mk (memWf_mk h2))))

theorem bodyDebugLock_memWf {s : State} {v1 : Owed} {v2 : CmdHdr} {p : List Byte} (g1 : memWf s) : memWf (bodyDebugLock s v1 v2 p).1 := by
  unfold bodyDebugLock
  first | (extract_lets; split) | split | (dsimp only; split)
  · exact memWf_pair g1
  · exact memWf_pair (State.setDebug_memWf g1)

theorem bodyCertRead_memWf {s : State} {o : Owed} {v2 : CmdHdr} {p : List Byte} (g1 : memWf s) : memWf (bodyCertRead s o v2 p).1 := by
  unfold bodyCertRead
  first | (extract_lets; split) | split | (dsimp only; split)
  · rename_i q
    have h1 := memWf_of_eq q (State.takePart_memWf g1)
    exact memWf_pair h1
  · rename_i q
    have h2 := memWf_of_eq q (State.takePart_memWf g1)
    first | (extract_lets; split) | split | (dsimp only; split)
    · exact memWf_pair h2
    · exact memWf_pair h2

theorem bodyMemImport_memWf {host : Nat → Nat → List Byte} {s : State} {v2 : Owed} {h : CmdHdr} {p : List Byte} (g1 : memWf s) :
    memWf (bodyMemImport host s v2 h p).1 := by
  unfold bodyMemImport
  first | (extract_lets; split) | split | (dsimp only; split)
  · exact memWf_pair g1
  · exact memWf_pair g1
  · first | (extract_lets; split) | split | (dsimp only; split)
    · rename_i q
      have h1 := memWf_of_eq q (State.meets_memWf g1)
      exact memWf_pair h1
    · rename_i q
      have h2 := memWf_of_eq q (State.meets_memWf g1)
      exact memWf_pair (State.write_memWf h2)

theorem bodyMemExport_memWf {s : State} {o : Owed} {h : CmdHdr} {p : List Byte} (g1 : memWf s) : memWf (bodyMemExport s o h p).1 := by
  unfold bodyMemExport
  first | (extract_lets; split) | split | (dsimp only; split)
  · exact memWf_pair g1
  · first | (extract_lets; split) | split | (dsimp only; split)
    · rename_i q
      have h1 := memWf_of_eq q (State.meets_memWf g1)
      exact memWf_pair h1
    · rename_i q
      have h2 := memWf_of_eq q (State.meets_memWf g1)
      exact memWf_pair (State.send_memWf (State.setJob_memWf h2))

theorem State.spdm_memWf {s : State} {x : Source} {code : Nat} {b : List Byte} (g1 : memWf s) : memWf (State.spdm s x code b) := by
  unfold State.spdm
  exact State.send_memWf g1

theorem State.spdmError_memWf {s : State} {x : Source} (g1 : memWf s) : memWf (State.spdmError s x) := by
  unfold State.spdmError
  exact State.spdm_memWf g1

theorem State.spdmAt_memWf {s : State} {x : Source} {n : Nat} {f : State → State} (g1 : memWf s) (g2 : ∀ y1, memWf y1 → memWf (f y1)) :
    memWf (State.spdmAt s x n f) := by
  unfold State.spdmAt
  exact memWf_ite (State.spdmError_memWf g1) (g2 _ g1)

theorem State.signed_memWf {s : State} {x : Source} {code : Nat} {b : List Byte} (g1 : memWf s) : memWf (State.signed s x code b) := by
  unfold State.signed
  exact State.spdm_memWf (State.freeBytes_memWf g1)

theorem State.endSession_memWf {s : State} {id : Nat} (g1 : memWf s) : memWf (State.endSession s id) := by
  unfold State.endSession
  first | (extract_lets; split) | split | (dsimp only; split)
  · exact g1
  · exact memWf_ite (memWf_mk (memWf_mk g1)) (memWf_mk g1)

theorem State.inSession_memWf {s : State} {x : Source} {id code : Nat} (g1 : memWf s) : memWf (State.inSession s x id code) := by
  unfold State.inSession
  first | (extract_lets; split) | split | (dsimp only; split)
  · exact memWf_ite (State.spdm_memWf (memWf_mk g1)) (State.spdmError_memWf g1)
  · exact State.spdmError_memWf g1

theorem packetBody_memWf {ok : Bool} {plain : List Byte} {op : Nat} {b : CmdBody} {s : State} {o : Owed} {h : CmdHdr} {p : List Byte}
    (e : packetBody ok plain op = some b) (g1 : memWf s) : memWf (b s o h p).1 := by
  unfold packetBody at e
  split at e
  · cases e; exact bodyNop_memWf g1
  · cases e; exact bodyDeviceInfo_memWf g1
  · cases e; exact bodyRegWrite_memWf g1
  · cases e; exact bodyDeterminismSet_memWf g1
  · cases e; exact bodyChartroomFailover_memWf g1
  · cases e; exact bodyDeviceReset_memWf g1
  · cases e; exact bodySheetCreate_memWf g1
  · cases e; exact bodySheetDestroy_memWf g1
  · cases e; exact bodyContextCreate_memWf g1
  · cases e; exact bodyContextDestroy_memWf g1
  · cases e; exact bodyContextResume_memWf g1
  · cases e; exact bodyKernelDoorbell_memWf g1
  · cases e; exact bodyServeSet_memWf g1
  · cases e; exact bodySheetReset_memWf g1
  · cases e; exact bodyJobAdmit_memWf g1
  · cases e; exact bodyJobTeardown_memWf g1
  · cases e; exact bodyCancelBatch_memWf g1
  · cases e; exact bodyRecipeSet_memWf g1
  · cases e; exact bodyJobmapWrite_memWf g1
  · cases e; exact bodyRegionSet_memWf g1
  · cases e; exact bodyPoolCreate_memWf g1
  · cases e; exact bodyPoolSetMode_memWf g1
  · cases e; exact bodyPoolSetThresh_memWf g1
  · cases e; exact bodyPoolUnquarantine_memWf g1
  · cases e; exact bodyPoolDestroy_memWf g1
  · cases e; exact bodyBucketDefine_memWf g1
  · cases e; exact bodyBucketUndefine_memWf g1
  · cases e; exact bodyMemImport_memWf g1
  · cases e; exact bodyMemExport_memWf g1
  · cases e; exact bodyPortEnable_memWf g1
  · cases e; exact bodyPortDisable_memWf g1
  · cases e; exact bodyPortRetrain_memWf g1
  · cases e; exact bodyPortUnquarantine_memWf g1
  · cases e; exact bodyPortInject_memWf g1
  · cases e; exact bodySwitchTableWrite_memWf g1
  · cases e; exact bodySwitchExcWrite_memWf g1
  · cases e; exact bodyDeviceIdSet_memWf g1
  · cases e; exact bodyGatewaySet_memWf g1
  · cases e; exact bodyPeerWrite_memWf g1
  · cases e; exact bodyGroupDefine_memWf g1
  · cases e; exact bodyGroupUndefine_memWf g1
  · cases e; exact bodyCollectiveLaunch_memWf g1
  · cases e; exact bodyCollectiveStatus_memWf g1
  · cases e; exact bodyTreeStart_memWf g1
  · cases e; exact bodyTreeReparent_memWf g1
  · cases e; exact bodyTreeEnd_memWf g1
  · cases e; exact bodyLayerSet_memWf g1
  · cases e; exact bodyGazetteerWrite_memWf g1
  · cases e; exact bodyCsetWrite_memWf g1
  · cases e; exact bodyExpertDirWrite_memWf g1
  · cases e; exact bodyTableCommit_memWf g1
  · cases e; exact bodyPowerLimitSet_memWf g1
  · cases e; exact bodyOverlayLoad_memWf g1
  · cases e; exact bodyOverlayClear_memWf g1
  · cases e; exact bodyContourReport_memWf g1
  · cases e; exact bodyRetrainSchedule_memWf g1
  · cases e; exact bodyPeerAttest_memWf g1
  · cases e; exact bodyDebugUnlock_memWf g1
  · cases e; exact bodyDebugLock_memWf g1
  · cases e; exact bodyCertRead_memWf g1
  · cases e; exact bodyDiagRead_memWf g1
  · cases e; exact bodyHbmRepair_memWf g1
  · cases e; exact bodyClosureCheck_memWf g1
  · cases e; exact bodyEventRead_memWf g1
  · cases e; exact bodyTelemetrySet_memWf g1
  · cases e; exact bodyTelemetryRead_memWf g1
  · cases e; exact bodyLevelRead_memWf g1
  · cases e

theorem State.beginLaunch_memWf {s : State} {ok : Bool} {plain : List Byte} {id : Nat} {owed : Owed} {skew : Int} {late : Bool} {x : Packet}
    (g1 : memWf s) : memWf (s.beginLaunch ok plain id owed skew late x) := by
  unfold State.beginLaunch
  extract_lets e1 s1 o
  have h : memWf s1 := memWf_mk g1
  clear_value s1
  split
  · exact State.answer_memWf h
  · rename_i q
    exact State.answer_memWf (packetBody_memWf q h)
  · exact State.answer_memWf h

theorem bodyLaunchAt_memWf {ok : Bool} {chunk : List Byte} {s : State} {o : Owed} {v4 : CmdHdr} {p : List Byte} (g1 : memWf s) :
    memWf (bodyLaunchAt ok chunk s o v4 p).1 := by
  unfold bodyLaunchAt
  first | (extract_lets; split) | split | (dsimp only; split)
  · exact memWf_pair g1
  · refine memWf_ite_fst (memWf_pair (memWf_mk (memWf_mk g1))) ?_
    refine memWf_ite_fst ?_ ?_
    · exact memWf_pair (State.beginLaunch_memWf (State.owe_memWf (State.bump_memWf (memWf_mk g1))))
    · exact memWf_pair (State.launchReply_memWf (State.owe_memWf (State.bump_memWf (memWf_mk g1))))

theorem State.withFetchWord_memWf {s : State} {nbits w : Nat} (g1 : memWf s) : memWf (State.withFetchWord s nbits w) := by
  unfold State.withFetchWord
  first | (extract_lets; split) | split | (dsimp only; split)
  · exact memWf_mk g1
  · exact g1

end Sys2Proof.Machine
end

