-- ==== Sys2Proof/Laws/State.lean ====
section
/-! SUPPORT. What each named update of the state changes and what it keeps: one lemma per field, so that no later proof unfolds an update.
Tables first: an entry that is put is found, and every other entry stays. -/

namespace Sys2Proof.Machine

@[simp] theorem Tbl.find_put_same {κ α : Type} [DecidableEq κ] (t : Tbl κ α) (k : κ) (a : α) : (t.put k a).find k = some a := by
  induction t with
  | nil => simp [Tbl.put, Tbl.find]
  | cons e t ih => by_cases h : e.1 = k <;> simp [Tbl.put, Tbl.find, h, ih]

theorem Tbl.find_put_other {κ α : Type} [DecidableEq κ] (t : Tbl κ α) {k k' : κ} (a : α) (h : k' ≠ k) : (t.put k a).find k' = t.find k' := by
  induction t with
  | nil => simp [Tbl.put, Tbl.find, Ne.symm h]
  | cons e t ih =>
    by_cases hk : e.1 = k
    · simp [Tbl.put, Tbl.find, hk, Ne.symm h]
    · by_cases hk' : e.1 = k' <;> simp [Tbl.put, Tbl.find, hk, hk', ih, h]

@[simp] theorem Tbl.getD_put_same {κ α : Type} [DecidableEq κ] (t : Tbl κ α) (k : κ) (a d : α) : (t.put k a).getD k d = a := by
  simp [Tbl.getD]

theorem Tbl.getD_put_other {κ α : Type} [DecidableEq κ] (t : Tbl κ α) {k k' : κ} (a d : α) (h : k' ≠ k) : (t.put k a).getD k' d = t.getD k' d := by
  simp [Tbl.getD, Tbl.find_put_other t a h]

theorem Tbl.find_del_same {κ α : Type} [DecidableEq κ] (t : Tbl κ α) (k : κ) : (t.del k).find k = none := by
  induction t with
  | nil => rfl
  | cons e t ih => by_cases h : e.1 = k <;> simp [Tbl.del, Tbl.find, h, ih]

/-! What is put is read again. -/

@[simp] theorem State.core_setCore (s : State) (c : Nat) (x : CoreCtx) : (s.setCore c x).core c = x := by simp [State.core, State.setCore]
@[simp] theorem State.reg_setReg (s : State) (id : RegId) (w : Word) : (s.setReg id w).reg id = w := by simp [State.reg, State.setReg]
@[simp] theorem State.job_setJob (s : State) (j : Nat) (x : Job) : (s.setJob j x).job j = x := by simp [State.job, State.setJob]
@[simp] theorem State.sheet_setSheet (s : State) (i : Nat) (x : Sheet) : (s.setSheet i x).sheet i = x := by simp [State.sheet, State.setSheet]
@[simp] theorem State.ctx_setCtx (s : State) (i c : Nat) (x : Context) : (s.setCtx i c x).ctx? i c = some x := by simp [State.ctx?, State.setCtx]
@[simp] theorem State.pool_setPool (s : State) (p : Nat) (x : Pool) : (s.setPool p x).pool p = x := by simp [State.pool, State.setPool]
@[simp] theorem State.port_setPort (s : State) (p : Nat) (x : Port) : (s.setPort p x).port p = x := by simp [State.port, State.setPort]
@[simp] theorem State.gate_setGate (s : State) (p : Nat) (g : Gateway) : (s.setGate p g).gate p = g := by simp [State.gate, State.setGate]

/-! One lemma per field per update. -/

@[simp] theorem State.setReg_datum (s : State) (id : RegId) (w : Word) : (s.setReg id w).datum = s.datum := rfl
@[simp] theorem State.setReg_free (s : State) (id : RegId) (w : Word) : (s.setReg id w).free = s.free := rfl
@[simp] theorem State.setReg_mem (s : State) (id : RegId) (w : Word) : (s.setReg id w).mem = s.mem := rfl
@[simp] theorem State.setReg_regs (s : State) (id : RegId) (w : Word) : (s.setReg id w).regs = s.regs.put id w := rfl
@[simp] theorem State.setReg_ep (s : State) (id : RegId) (w : Word) : (s.setReg id w).ep = s.ep := rfl
@[simp] theorem State.setReg_cores (s : State) (id : RegId) (w : Word) : (s.setReg id w).cores = s.cores := rfl
@[simp] theorem State.setReg_guestOn (s : State) (id : RegId) (w : Word) : (s.setReg id w).guestOn = s.guestOn := rfl
@[simp] theorem State.setReg_movers (s : State) (id : RegId) (w : Word) : (s.setReg id w).movers = s.movers := rfl
@[simp] theorem State.setReg_quant (s : State) (id : RegId) (w : Word) : (s.setReg id w).quant = s.quant := rfl
@[simp] theorem State.setReg_quantHeld (s : State) (id : RegId) (w : Word) : (s.setReg id w).quantHeld = s.quantHeld := rfl
@[simp] theorem State.setReg_hch (s : State) (id : RegId) (w : Word) : (s.setReg id w).hch = s.hch := rfl
@[simp] theorem State.setReg_routing (s : State) (id : RegId) (w : Word) : (s.setReg id w).routing = s.routing := rfl
@[simp] theorem State.setReg_exch (s : State) (id : RegId) (w : Word) : (s.setReg id w).exch = s.exch := rfl
@[simp] theorem State.setReg_surveys (s : State) (id : RegId) (w : Word) : (s.setReg id w).surveys = s.surveys := rfl
@[simp] theorem State.setReg_svyCache (s : State) (id : RegId) (w : Word) : (s.setReg id w).svyCache = s.svyCache := rfl
@[simp] theorem State.setReg_plotRuns (s : State) (id : RegId) (w : Word) : (s.setReg id w).plotRuns = s.plotRuns := rfl
@[simp] theorem State.setReg_deliveries (s : State) (id : RegId) (w : Word) : (s.setReg id w).deliveries = s.deliveries := rfl
@[simp] theorem State.setReg_sheets (s : State) (id : RegId) (w : Word) : (s.setReg id w).sheets = s.sheets := rfl
@[simp] theorem State.setReg_ctxs (s : State) (id : RegId) (w : Word) : (s.setReg id w).ctxs = s.ctxs := rfl
@[simp] theorem State.setReg_sems (s : State) (id : RegId) (w : Word) : (s.setReg id w).sems = s.sems := rfl
@[simp] theorem State.setReg_pools (s : State) (id : RegId) (w : Word) : (s.setReg id w).pools = s.pools := rfl
@[simp] theorem State.setReg_nextReq (s : State) (id : RegId) (w : Word) : (s.setReg id w).nextReq = s.nextReq := rfl
@[simp] theorem State.setReg_marks (s : State) (id : RegId) (w : Word) : (s.setReg id w).marks = s.marks := rfl
@[simp] theorem State.setReg_upsets (s : State) (id : RegId) (w : Word) : (s.setReg id w).upsets = s.upsets := rfl
@[simp] theorem State.setReg_hubs (s : State) (id : RegId) (w : Word) : (s.setReg id w).hubs = s.hubs := rfl
@[simp] theorem State.setReg_coll (s : State) (id : RegId) (w : Word) : (s.setReg id w).coll = s.coll := rfl
@[simp] theorem State.setReg_jobs (s : State) (id : RegId) (w : Word) : (s.setReg id w).jobs = s.jobs := rfl
@[simp] theorem State.setReg_fmSession (s : State) (id : RegId) (w : Word) : (s.setReg id w).fmSession = s.fmSession := rfl
@[simp] theorem State.setReg_sec (s : State) (id : RegId) (w : Word) : (s.setReg id w).sec = s.sec := rfl
@[simp] theorem State.setReg_cht (s : State) (id : RegId) (w : Word) : (s.setReg id w).cht = s.cht := rfl
@[simp] theorem State.setReg_boot (s : State) (id : RegId) (w : Word) : (s.setReg id w).boot = s.boot := rfl
@[simp] theorem State.setReg_ev (s : State) (id : RegId) (w : Word) : (s.setReg id w).ev = s.ev := rfl
@[simp] theorem State.setReg_sw (s : State) (id : RegId) (w : Word) : (s.setReg id w).sw = s.sw := rfl
@[simp] theorem State.setReg_ports (s : State) (id : RegId) (w : Word) : (s.setReg id w).ports = s.ports := rfl
@[simp] theorem State.setReg_gw (s : State) (id : RegId) (w : Word) : (s.setReg id w).gw = s.gw := rfl
@[simp] theorem State.setReg_peers (s : State) (id : RegId) (w : Word) : (s.setReg id w).peers = s.peers := rfl
@[simp] theorem State.setReg_clock (s : State) (id : RegId) (w : Word) : (s.setReg id w).clock = s.clock := rfl
@[simp] theorem State.setReg_pw (s : State) (id : RegId) (w : Word) : (s.setReg id w).pw = s.pw := rfl
@[simp] theorem State.setReg_out (s : State) (id : RegId) (w : Word) : (s.setReg id w).out = s.out := rfl
@[simp] theorem State.setReg_pending (s : State) (id : RegId) (w : Word) : (s.setReg id w).pending = s.pending := rfl

@[simp] theorem State.set_datum (s : State) (f : Field) (i k v : Nat) : (s.set f i k v).datum = s.datum := rfl
@[simp] theorem State.set_free (s : State) (f : Field) (i k v : Nat) : (s.set f i k v).free = s.free := rfl
@[simp] theorem State.set_mem (s : State) (f : Field) (i k v : Nat) : (s.set f i k v).mem = s.mem := rfl
@[simp] theorem State.set_ep (s : State) (f : Field) (i k v : Nat) : (s.set f i k v).ep = s.ep := rfl
@[simp] theorem State.set_cores (s : State) (f : Field) (i k v : Nat) : (s.set f i k v).cores = s.cores := rfl
@[simp] theorem State.set_guestOn (s : State) (f : Field) (i k v : Nat) : (s.set f i k v).guestOn = s.guestOn := rfl
@[simp] theorem State.set_movers (s : State) (f : Field) (i k v : Nat) : (s.set f i k v).movers = s.movers := rfl
@[simp] theorem State.set_quant (s : State) (f : Field) (i k v : Nat) : (s.set f i k v).quant = s.quant := rfl
@[simp] theorem State.set_quantHeld (s : State) (f : Field) (i k v : Nat) : (s.set f i k v).quantHeld = s.quantHeld := rfl
@[simp] theorem State.set_hch (s : State) (f : Field) (i k v : Nat) : (s.set f i k v).hch = s.hch := rfl
@[simp] theorem State.set_routing (s : State) (f : Field) (i k v : Nat) : (s.set f i k v).routing = s.routing := rfl
@[simp] theorem State.set_exch (s : State) (f : Field) (i k v : Nat) : (s.set f i k v).exch = s.exch := rfl
@[simp] theorem State.set_surveys (s : State) (f : Field) (i k v : Nat) : (s.set f i k v).surveys = s.surveys := rfl
@[simp] theorem State.set_svyCache (s : State) (f : Field) (i k v : Nat) : (s.set f i k v).svyCache = s.svyCache := rfl
@[simp] theorem State.set_plotRuns (s : State) (f : Field) (i k v : Nat) : (s.set f i k v).plotRuns = s.plotRuns := rfl
@[simp] theorem State.set_deliveries (s : State) (f : Field) (i k v : Nat) : (s.set f i k v).deliveries = s.deliveries := rfl
@[simp] theorem State.set_sheets (s : State) (f : Field) (i k v : Nat) : (s.set f i k v).sheets = s.sheets := rfl
@[simp] theorem State.set_ctxs (s : State) (f : Field) (i k v : Nat) : (s.set f i k v).ctxs = s.ctxs := rfl
@[simp] theorem State.set_sems (s : State) (f : Field) (i k v : Nat) : (s.set f i k v).sems = s.sems := rfl
@[simp] theorem State.set_pools (s : State) (f : Field) (i k v : Nat) : (s.set f i k v).pools = s.pools := rfl
@[simp] theorem State.set_nextReq (s : State) (f : Field) (i k v : Nat) : (s.set f i k v).nextReq = s.nextReq := rfl
@[simp] theorem State.set_marks (s : State) (f : Field) (i k v : Nat) : (s.set f i k v).marks = s.marks := rfl
@[simp] theorem State.set_upsets (s : State) (f : Field) (i k v : Nat) : (s.set f i k v).upsets = s.upsets := rfl
@[simp] theorem State.set_hubs (s : State) (f : Field) (i k v : Nat) : (s.set f i k v).hubs = s.hubs := rfl
@[simp] theorem State.set_coll (s : State) (f : Field) (i k v : Nat) : (s.set f i k v).coll = s.coll := rfl
@[simp] theorem State.set_jobs (s : State) (f : Field) (i k v : Nat) : (s.set f i k v).jobs = s.jobs := rfl
@[simp] theorem State.set_fmSession (s : State) (f : Field) (i k v : Nat) : (s.set f i k v).fmSession = s.fmSession := rfl
@[simp] theorem State.set_sec (s : State) (f : Field) (i k v : Nat) : (s.set f i k v).sec = s.sec := rfl
@[simp] theorem State.set_cht (s : State) (f : Field) (i k v : Nat) : (s.set f i k v).cht = s.cht := rfl
@[simp] theorem State.set_boot (s : State) (f : Field) (i k v : Nat) : (s.set f i k v).boot = s.boot := rfl
@[simp] theorem State.set_ev (s : State) (f : Field) (i k v : Nat) : (s.set f i k v).ev = s.ev := rfl
@[simp] theorem State.set_sw (s : State) (f : Field) (i k v : Nat) : (s.set f i k v).sw = s.sw := rfl
@[simp] theorem State.set_ports (s : State) (f : Field) (i k v : Nat) : (s.set f i k v).ports = s.ports := rfl
@[simp] theorem State.set_gw (s : State) (f : Field) (i k v : Nat) : (s.set f i k v).gw = s.gw := rfl
@[simp] theorem State.set_peers (s : State) (f : Field) (i k v : Nat) : (s.set f i k v).peers = s.peers := rfl
@[simp] theorem State.set_clock (s : State) (f : Field) (i k v : Nat) : (s.set f i k v).clock = s.clock := rfl
@[simp] theorem State.set_pw (s : State) (f : Field) (i k v : Nat) : (s.set f i k v).pw = s.pw := rfl
@[simp] theorem State.set_out (s : State) (f : Field) (i k v : Nat) : (s.set f i k v).out = s.out := rfl
@[simp] theorem State.set_pending (s : State) (f : Field) (i k v : Nat) : (s.set f i k v).pending = s.pending := rfl

@[simp] theorem State.bump_datum (s : State) (f : Field) (i k n : Nat) : (s.bump f i k n).datum = s.datum := rfl
@[simp] theorem State.bump_free (s : State) (f : Field) (i k n : Nat) : (s.bump f i k n).free = s.free := rfl
@[simp] theorem State.bump_mem (s : State) (f : Field) (i k n : Nat) : (s.bump f i k n).mem = s.mem := rfl
@[simp] theorem State.bump_ep (s : State) (f : Field) (i k n : Nat) : (s.bump f i k n).ep = s.ep := rfl
@[simp] theorem State.bump_cores (s : State) (f : Field) (i k n : Nat) : (s.bump f i k n).cores = s.cores := rfl
@[simp] theorem State.bump_guestOn (s : State) (f : Field) (i k n : Nat) : (s.bump f i k n).guestOn = s.guestOn := rfl
@[simp] theorem State.bump_movers (s : State) (f : Field) (i k n : Nat) : (s.bump f i k n).movers = s.movers := rfl
@[simp] theorem State.bump_quant (s : State) (f : Field) (i k n : Nat) : (s.bump f i k n).quant = s.quant := rfl
@[simp] theorem State.bump_quantHeld (s : State) (f : Field) (i k n : Nat) : (s.bump f i k n).quantHeld = s.quantHeld := rfl
@[simp] theorem State.bump_hch (s : State) (f : Field) (i k n : Nat) : (s.bump f i k n).hch = s.hch := rfl
@[simp] theorem State.bump_routing (s : State) (f : Field) (i k n : Nat) : (s.bump f i k n).routing = s.routing := rfl
@[simp] theorem State.bump_exch (s : State) (f : Field) (i k n : Nat) : (s.bump f i k n).exch = s.exch := rfl
@[simp] theorem State.bump_surveys (s : State) (f : Field) (i k n : Nat) : (s.bump f i k n).surveys = s.surveys := rfl
@[simp] theorem State.bump_svyCache (s : State) (f : Field) (i k n : Nat) : (s.bump f i k n).svyCache = s.svyCache := rfl
@[simp] theorem State.bump_plotRuns (s : State) (f : Field) (i k n : Nat) : (s.bump f i k n).plotRuns = s.plotRuns := rfl
@[simp] theorem State.bump_deliveries (s : State) (f : Field) (i k n : Nat) : (s.bump f i k n).deliveries = s.deliveries := rfl
@[simp] theorem State.bump_sheets (s : State) (f : Field) (i k n : Nat) : (s.bump f i k n).sheets = s.sheets := rfl
@[simp] theorem State.bump_ctxs (s : State) (f : Field) (i k n : Nat) : (s.bump f i k n).ctxs = s.ctxs := rfl
@[simp] theorem State.bump_sems (s : State) (f : Field) (i k n : Nat) : (s.bump f i k n).sems = s.sems := rfl
@[simp] theorem State.bump_pools (s : State) (f : Field) (i k n : Nat) : (s.bump f i k n).pools = s.pools := rfl
@[simp] theorem State.bump_nextReq (s : State) (f : Field) (i k n : Nat) : (s.bump f i k n).nextReq = s.nextReq := rfl
@[simp] theorem State.bump_marks (s : State) (f : Field) (i k n : Nat) : (s.bump f i k n).marks = s.marks := rfl
@[simp] theorem State.bump_upsets (s : State) (f : Field) (i k n : Nat) : (s.bump f i k n).upsets = s.upsets := rfl
@[simp] theorem State.bump_hubs (s : State) (f : Field) (i k n : Nat) : (s.bump f i k n).hubs = s.hubs := rfl
@[simp] theorem State.bump_coll (s : State) (f : Field) (i k n : Nat) : (s.bump f i k n).coll = s.coll := rfl
@[simp] theorem State.bump_jobs (s : State) (f : Field) (i k n : Nat) : (s.bump f i k n).jobs = s.jobs := rfl
@[simp] theorem State.bump_fmSession (s : State) (f : Field) (i k n : Nat) : (s.bump f i k n).fmSession = s.fmSession := rfl
@[simp] theorem State.bump_sec (s : State) (f : Field) (i k n : Nat) : (s.bump f i k n).sec = s.sec := rfl
@[simp] theorem State.bump_cht (s : State) (f : Field) (i k n : Nat) : (s.bump f i k n).cht = s.cht := rfl
@[simp] theorem State.bump_boot (s : State) (f : Field) (i k n : Nat) : (s.bump f i k n).boot = s.boot := rfl
@[simp] theorem State.bump_ev (s : State) (f : Field) (i k n : Nat) : (s.bump f i k n).ev = s.ev := rfl
@[simp] theorem State.bump_sw (s : State) (f : Field) (i k n : Nat) : (s.bump f i k n).sw = s.sw := rfl
@[simp] theorem State.bump_ports (s : State) (f : Field) (i k n : Nat) : (s.bump f i k n).ports = s.ports := rfl
@[simp] theorem State.bump_gw (s : State) (f : Field) (i k n : Nat) : (s.bump f i k n).gw = s.gw := rfl
@[simp] theorem State.bump_peers (s : State) (f : Field) (i k n : Nat) : (s.bump f i k n).peers = s.peers := rfl
@[simp] theorem State.bump_clock (s : State) (f : Field) (i k n : Nat) : (s.bump f i k n).clock = s.clock := rfl
@[simp] theorem State.bump_pw (s : State) (f : Field) (i k n : Nat) : (s.bump f i k n).pw = s.pw := rfl
@[simp] theorem State.bump_out (s : State) (f : Field) (i k n : Nat) : (s.bump f i k n).out = s.out := rfl
@[simp] theorem State.bump_pending (s : State) (f : Field) (i k n : Nat) : (s.bump f i k n).pending = s.pending := rfl

@[simp] theorem State.bumpMod_datum (s : State) (f : Field) (i k n : Nat) : (s.bumpMod f i k n).datum = s.datum := rfl
@[simp] theorem State.bumpMod_free (s : State) (f : Field) (i k n : Nat) : (s.bumpMod f i k n).free = s.free := rfl
@[simp] theorem State.bumpMod_mem (s : State) (f : Field) (i k n : Nat) : (s.bumpMod f i k n).mem = s.mem := rfl
@[simp] theorem State.bumpMod_ep (s : State) (f : Field) (i k n : Nat) : (s.bumpMod f i k n).ep = s.ep := rfl
@[simp] theorem State.bumpMod_cores (s : State) (f : Field) (i k n : Nat) : (s.bumpMod f i k n).cores = s.cores := rfl
@[simp] theorem State.bumpMod_guestOn (s : State) (f : Field) (i k n : Nat) : (s.bumpMod f i k n).guestOn = s.guestOn := rfl
@[simp] theorem State.bumpMod_movers (s : State) (f : Field) (i k n : Nat) : (s.bumpMod f i k n).movers = s.movers := rfl
@[simp] theorem State.bumpMod_quant (s : State) (f : Field) (i k n : Nat) : (s.bumpMod f i k n).quant = s.quant := rfl
@[simp] theorem State.bumpMod_quantHeld (s : State) (f : Field) (i k n : Nat) : (s.bumpMod f i k n).quantHeld = s.quantHeld := rfl
@[simp] theorem State.bumpMod_hch (s : State) (f : Field) (i k n : Nat) : (s.bumpMod f i k n).hch = s.hch := rfl
@[simp] theorem State.bumpMod_routing (s : State) (f : Field) (i k n : Nat) : (s.bumpMod f i k n).routing = s.routing := rfl
@[simp] theorem State.bumpMod_exch (s : State) (f : Field) (i k n : Nat) : (s.bumpMod f i k n).exch = s.exch := rfl
@[simp] theorem State.bumpMod_surveys (s : State) (f : Field) (i k n : Nat) : (s.bumpMod f i k n).surveys = s.surveys := rfl
@[simp] theorem State.bumpMod_svyCache (s : State) (f : Field) (i k n : Nat) : (s.bumpMod f i k n).svyCache = s.svyCache := rfl
@[simp] theorem State.bumpMod_plotRuns (s : State) (f : Field) (i k n : Nat) : (s.bumpMod f i k n).plotRuns = s.plotRuns := rfl
@[simp] theorem State.bumpMod_deliveries (s : State) (f : Field) (i k n : Nat) : (s.bumpMod f i k n).deliveries = s.deliveries := rfl
@[simp] theorem State.bumpMod_sheets (s : State) (f : Field) (i k n : Nat) : (s.bumpMod f i k n).sheets = s.sheets := rfl
@[simp] theorem State.bumpMod_ctxs (s : State) (f : Field) (i k n : Nat) : (s.bumpMod f i k n).ctxs = s.ctxs := rfl
@[simp] theorem State.bumpMod_sems (s : State) (f : Field) (i k n : Nat) : (s.bumpMod f i k n).sems = s.sems := rfl
@[simp] theorem State.bumpMod_pools (s : State) (f : Field) (i k n : Nat) : (s.bumpMod f i k n).pools = s.pools := rfl
@[simp] theorem State.bumpMod_nextReq (s : State) (f : Field) (i k n : Nat) : (s.bumpMod f i k n).nextReq = s.nextReq := rfl
@[simp] theorem State.bumpMod_marks (s : State) (f : Field) (i k n : Nat) : (s.bumpMod f i k n).marks = s.marks := rfl
@[simp] theorem State.bumpMod_upsets (s : State) (f : Field) (i k n : Nat) : (s.bumpMod f i k n).upsets = s.upsets := rfl
@[simp] theorem State.bumpMod_hubs (s : State) (f : Field) (i k n : Nat) : (s.bumpMod f i k n).hubs = s.hubs := rfl
@[simp] theorem State.bumpMod_coll (s : State) (f : Field) (i k n : Nat) : (s.bumpMod f i k n).coll = s.coll := rfl
@[simp] theorem State.bumpMod_jobs (s : State) (f : Field) (i k n : Nat) : (s.bumpMod f i k n).jobs = s.jobs := rfl
@[simp] theorem State.bumpMod_fmSession (s : State) (f : Field) (i k n : Nat) : (s.bumpMod f i k n).fmSession = s.fmSession := rfl
@[simp] theorem State.bumpMod_sec (s : State) (f : Field) (i k n : Nat) : (s.bumpMod f i k n).sec = s.sec := rfl
@[simp] theorem State.bumpMod_cht (s : State) (f : Field) (i k n : Nat) : (s.bumpMod f i k n).cht = s.cht := rfl
@[simp] theorem State.bumpMod_boot (s : State) (f : Field) (i k n : Nat) : (s.bumpMod f i k n).boot = s.boot := rfl
@[simp] theorem State.bumpMod_ev (s : State) (f : Field) (i k n : Nat) : (s.bumpMod f i k n).ev = s.ev := rfl
@[simp] theorem State.bumpMod_sw (s : State) (f : Field) (i k n : Nat) : (s.bumpMod f i k n).sw = s.sw := rfl
@[simp] theorem State.bumpMod_ports (s : State) (f : Field) (i k n : Nat) : (s.bumpMod f i k n).ports = s.ports := rfl
@[simp] theorem State.bumpMod_gw (s : State) (f : Field) (i k n : Nat) : (s.bumpMod f i k n).gw = s.gw := rfl
@[simp] theorem State.bumpMod_peers (s : State) (f : Field) (i k n : Nat) : (s.bumpMod f i k n).peers = s.peers := rfl
@[simp] theorem State.bumpMod_clock (s : State) (f : Field) (i k n : Nat) : (s.bumpMod f i k n).clock = s.clock := rfl
@[simp] theorem State.bumpMod_pw (s : State) (f : Field) (i k n : Nat) : (s.bumpMod f i k n).pw = s.pw := rfl
@[simp] theorem State.bumpMod_out (s : State) (f : Field) (i k n : Nat) : (s.bumpMod f i k n).out = s.out := rfl
@[simp] theorem State.bumpMod_pending (s : State) (f : Field) (i k n : Nat) : (s.bumpMod f i k n).pending = s.pending := rfl

@[simp] theorem State.setCore_datum (s : State) (c : Nat) (x : CoreCtx) : (s.setCore c x).datum = s.datum := rfl
@[simp] theorem State.setCore_free (s : State) (c : Nat) (x : CoreCtx) : (s.setCore c x).free = s.free := rfl
@[simp] theorem State.setCore_mem (s : State) (c : Nat) (x : CoreCtx) : (s.setCore c x).mem = s.mem := rfl
@[simp] theorem State.setCore_regs (s : State) (c : Nat) (x : CoreCtx) : (s.setCore c x).regs = s.regs := rfl
@[simp] theorem State.setCore_ep (s : State) (c : Nat) (x : CoreCtx) : (s.setCore c x).ep = s.ep := rfl
@[simp] theorem State.setCore_cores (s : State) (c : Nat) (x : CoreCtx) : (s.setCore c x).cores = s.cores.put c x := rfl
@[simp] theorem State.setCore_guestOn (s : State) (c : Nat) (x : CoreCtx) : (s.setCore c x).guestOn = s.guestOn := rfl
@[simp] theorem State.setCore_movers (s : State) (c : Nat) (x : CoreCtx) : (s.setCore c x).movers = s.movers := rfl
@[simp] theorem State.setCore_quant (s : State) (c : Nat) (x : CoreCtx) : (s.setCore c x).quant = s.quant := rfl
@[simp] theorem State.setCore_quantHeld (s : State) (c : Nat) (x : CoreCtx) : (s.setCore c x).quantHeld = s.quantHeld := rfl
@[simp] theorem State.setCore_hch (s : State) (c : Nat) (x : CoreCtx) : (s.setCore c x).hch = s.hch := rfl
@[simp] theorem State.setCore_routing (s : State) (c : Nat) (x : CoreCtx) : (s.setCore c x).routing = s.routing := rfl
@[simp] theorem State.setCore_exch (s : State) (c : Nat) (x : CoreCtx) : (s.setCore c x).exch = s.exch := rfl
@[simp] theorem State.setCore_surveys (s : State) (c : Nat) (x : CoreCtx) : (s.setCore c x).surveys = s.surveys := rfl
@[simp] theorem State.setCore_svyCache (s : State) (c : Nat) (x : CoreCtx) : (s.setCore c x).svyCache = s.svyCache := rfl
@[simp] theorem State.setCore_plotRuns (s : State) (c : Nat) (x : CoreCtx) : (s.setCore c x).plotRuns = s.plotRuns := rfl
@[simp] theorem State.setCore_deliveries (s : State) (c : Nat) (x : CoreCtx) : (s.setCore c x).deliveries = s.deliveries := rfl
@[simp] theorem State.setCore_sheets (s : State) (c : Nat) (x : CoreCtx) : (s.setCore c x).sheets = s.sheets := rfl
@[simp] theorem State.setCore_ctxs (s : State) (c : Nat) (x : CoreCtx) : (s.setCore c x).ctxs = s.ctxs := rfl
@[simp] theorem State.setCore_sems (s : State) (c : Nat) (x : CoreCtx) : (s.setCore c x).sems = s.sems := rfl
@[simp] theorem State.setCore_pools (s : State) (c : Nat) (x : CoreCtx) : (s.setCore c x).pools = s.pools := rfl
@[simp] theorem State.setCore_nextReq (s : State) (c : Nat) (x : CoreCtx) : (s.setCore c x).nextReq = s.nextReq := rfl
@[simp] theorem State.setCore_marks (s : State) (c : Nat) (x : CoreCtx) : (s.setCore c x).marks = s.marks := rfl
@[simp] theorem State.setCore_upsets (s : State) (c : Nat) (x : CoreCtx) : (s.setCore c x).upsets = s.upsets := rfl
@[simp] theorem State.setCore_hubs (s : State) (c : Nat) (x : CoreCtx) : (s.setCore c x).hubs = s.hubs := rfl
@[simp] theorem State.setCore_coll (s : State) (c : Nat) (x : CoreCtx) : (s.setCore c x).coll = s.coll := rfl
@[simp] theorem State.setCore_jobs (s : State) (c : Nat) (x : CoreCtx) : (s.setCore c x).jobs = s.jobs := rfl
@[simp] theorem State.setCore_fmSession (s : State) (c : Nat) (x : CoreCtx) : (s.setCore c x).fmSession = s.fmSession := rfl
@[simp] theorem State.setCore_sec (s : State) (c : Nat) (x : CoreCtx) : (s.setCore c x).sec = s.sec := rfl
@[simp] theorem State.setCore_cht (s : State) (c : Nat) (x : CoreCtx) : (s.setCore c x).cht = s.cht := rfl
@[simp] theorem State.setCore_boot (s : State) (c : Nat) (x : CoreCtx) : (s.setCore c x).boot = s.boot := rfl
@[simp] theorem State.setCore_ev (s : State) (c : Nat) (x : CoreCtx) : (s.setCore c x).ev = s.ev := rfl
@[simp] theorem State.setCore_sw (s : State) (c : Nat) (x : CoreCtx) : (s.setCore c x).sw = s.sw := rfl
@[simp] theorem State.setCore_ports (s : State) (c : Nat) (x : CoreCtx) : (s.setCore c x).ports = s.ports := rfl
@[simp] theorem State.setCore_gw (s : State) (c : Nat) (x : CoreCtx) : (s.setCore c x).gw = s.gw := rfl
@[simp] theorem State.setCore_peers (s : State) (c : Nat) (x : CoreCtx) : (s.setCore c x).peers = s.peers := rfl
@[simp] theorem State.setCore_clock (s : State) (c : Nat) (x : CoreCtx) : (s.setCore c x).clock = s.clock := rfl
@[simp] theorem State.setCore_pw (s : State) (c : Nat) (x : CoreCtx) : (s.setCore c x).pw = s.pw := rfl
@[simp] theorem State.setCore_out (s : State) (c : Nat) (x : CoreCtx) : (s.setCore c x).out = s.out := rfl
@[simp] theorem State.setCore_pending (s : State) (c : Nat) (x : CoreCtx) : (s.setCore c x).pending = s.pending := rfl

@[simp] theorem State.poke_datum (s : State) (i a : Nat) (bs : List Byte) : (s.poke i a bs).datum = s.datum := rfl
@[simp] theorem State.poke_free (s : State) (i a : Nat) (bs : List Byte) : (s.poke i a bs).free = s.free := rfl
@[simp] theorem State.poke_regs (s : State) (i a : Nat) (bs : List Byte) : (s.poke i a bs).regs = s.regs := rfl
@[simp] theorem State.poke_ep (s : State) (i a : Nat) (bs : List Byte) : (s.poke i a bs).ep = s.ep := rfl
@[simp] theorem State.poke_cores (s : State) (i a : Nat) (bs : List Byte) : (s.poke i a bs).cores = s.cores := rfl
@[simp] theorem State.poke_guestOn (s : State) (i a : Nat) (bs : List Byte) : (s.poke i a bs).guestOn = s.guestOn := rfl
@[simp] theorem State.poke_movers (s : State) (i a : Nat) (bs : List Byte) : (s.poke i a bs).movers = s.movers := rfl
@[simp] theorem State.poke_quant (s : State) (i a : Nat) (bs : List Byte) : (s.poke i a bs).quant = s.quant := rfl
@[simp] theorem State.poke_quantHeld (s : State) (i a : Nat) (bs : List Byte) : (s.poke i a bs).quantHeld = s.quantHeld := rfl
@[simp] theorem State.poke_hch (s : State) (i a : Nat) (bs : List Byte) : (s.poke i a bs).hch = s.hch := rfl
@[simp] theorem State.poke_routing (s : State) (i a : Nat) (bs : List Byte) : (s.poke i a bs).routing = s.routing := rfl
@[simp] theorem State.poke_exch (s : State) (i a : Nat) (bs : List Byte) : (s.poke i a bs).exch = s.exch := rfl
@[simp] theorem State.poke_surveys (s : State) (i a : Nat) (bs : List Byte) : (s.poke i a bs).surveys = s.surveys := rfl
@[simp] theorem State.poke_svyCache (s : State) (i a : Nat) (bs : List Byte) : (s.poke i a bs).svyCache = s.svyCache := rfl
@[simp] theorem State.poke_plotRuns (s : State) (i a : Nat) (bs : List Byte) : (s.poke i a bs).plotRuns = s.plotRuns := rfl
@[simp] theorem State.poke_deliveries (s : State) (i a : Nat) (bs : List Byte) : (s.poke i a bs).deliveries = s.deliveries := rfl
@[simp] theorem State.poke_sheets (s : State) (i a : Nat) (bs : List Byte) : (s.poke i a bs).sheets = s.sheets := rfl
@[simp] theorem State.poke_ctxs (s : State) (i a : Nat) (bs : List Byte) : (s.poke i a bs).ctxs = s.ctxs := rfl
@[simp] theorem State.poke_sems (s : State) (i a : Nat) (bs : List Byte) : (s.poke i a bs).sems = s.sems := rfl
@[simp] theorem State.poke_pools (s : State) (i a : Nat) (bs : List Byte) : (s.poke i a bs).pools = s.pools := rfl
@[simp] theorem State.poke_nextReq (s : State) (i a : Nat) (bs : List Byte) : (s.poke i a bs).nextReq = s.nextReq := rfl
@[simp] theorem State.poke_marks (s : State) (i a : Nat) (bs : List Byte) : (s.poke i a bs).marks = s.marks := rfl
@[simp] theorem State.poke_upsets (s : State) (i a : Nat) (bs : List Byte) : (s.poke i a bs).upsets = s.upsets := rfl
@[simp] theorem State.poke_hubs (s : State) (i a : Nat) (bs : List Byte) : (s.poke i a bs).hubs = s.hubs := rfl
@[simp] theorem State.poke_coll (s : State) (i a : Nat) (bs : List Byte) : (s.poke i a bs).coll = s.coll := rfl
@[simp] theorem State.poke_jobs (s : State) (i a : Nat) (bs : List Byte) : (s.poke i a bs).jobs = s.jobs := rfl
@[simp] theorem State.poke_fmSession (s : State) (i a : Nat) (bs : List Byte) : (s.poke i a bs).fmSession = s.fmSession := rfl
@[simp] theorem State.poke_sec (s : State) (i a : Nat) (bs : List Byte) : (s.poke i a bs).sec = s.sec := rfl
@[simp] theorem State.poke_cht (s : State) (i a : Nat) (bs : List Byte) : (s.poke i a bs).cht = s.cht := rfl
@[simp] theorem State.poke_boot (s : State) (i a : Nat) (bs : List Byte) : (s.poke i a bs).boot = s.boot := rfl
@[simp] theorem State.poke_ev (s : State) (i a : Nat) (bs : List Byte) : (s.poke i a bs).ev = s.ev := rfl
@[simp] theorem State.poke_sw (s : State) (i a : Nat) (bs : List Byte) : (s.poke i a bs).sw = s.sw := rfl
@[simp] theorem State.poke_ports (s : State) (i a : Nat) (bs : List Byte) : (s.poke i a bs).ports = s.ports := rfl
@[simp] theorem State.poke_gw (s : State) (i a : Nat) (bs : List Byte) : (s.poke i a bs).gw = s.gw := rfl
@[simp] theorem State.poke_peers (s : State) (i a : Nat) (bs : List Byte) : (s.poke i a bs).peers = s.peers := rfl
@[simp] theorem State.poke_clock (s : State) (i a : Nat) (bs : List Byte) : (s.poke i a bs).clock = s.clock := rfl
@[simp] theorem State.poke_pw (s : State) (i a : Nat) (bs : List Byte) : (s.poke i a bs).pw = s.pw := rfl
@[simp] theorem State.poke_out (s : State) (i a : Nat) (bs : List Byte) : (s.poke i a bs).out = s.out := rfl
@[simp] theorem State.poke_pending (s : State) (i a : Nat) (bs : List Byte) : (s.poke i a bs).pending = s.pending := rfl

@[simp] theorem State.pokeN_datum (s : State) (i a n x : Nat) : (s.pokeN i a n x).datum = s.datum := rfl
@[simp] theorem State.pokeN_free (s : State) (i a n x : Nat) : (s.pokeN i a n x).free = s.free := rfl
@[simp] theorem State.pokeN_regs (s : State) (i a n x : Nat) : (s.pokeN i a n x).regs = s.regs := rfl
@[simp] theorem State.pokeN_ep (s : State) (i a n x : Nat) : (s.pokeN i a n x).ep = s.ep := rfl
@[simp] theorem State.pokeN_cores (s : State) (i a n x : Nat) : (s.pokeN i a n x).cores = s.cores := rfl
@[simp] theorem State.pokeN_guestOn (s : State) (i a n x : Nat) : (s.pokeN i a n x).guestOn = s.guestOn := rfl
@[simp] theorem State.pokeN_movers (s : State) (i a n x : Nat) : (s.pokeN i a n x).movers = s.movers := rfl
@[simp] theorem State.pokeN_quant (s : State) (i a n x : Nat) : (s.pokeN i a n x).quant = s.quant := rfl
@[simp] theorem State.pokeN_quantHeld (s : State) (i a n x : Nat) : (s.pokeN i a n x).quantHeld = s.quantHeld := rfl
@[simp] theorem State.pokeN_hch (s : State) (i a n x : Nat) : (s.pokeN i a n x).hch = s.hch := rfl
@[simp] theorem State.pokeN_routing (s : State) (i a n x : Nat) : (s.pokeN i a n x).routing = s.routing := rfl
@[simp] theorem State.pokeN_exch (s : State) (i a n x : Nat) : (s.pokeN i a n x).exch = s.exch := rfl
@[simp] theorem State.pokeN_surveys (s : State) (i a n x : Nat) : (s.pokeN i a n x).surveys = s.surveys := rfl
@[simp] theorem State.pokeN_svyCache (s : State) (i a n x : Nat) : (s.pokeN i a n x).svyCache = s.svyCache := rfl
@[simp] theorem State.pokeN_plotRuns (s : State) (i a n x : Nat) : (s.pokeN i a n x).plotRuns = s.plotRuns := rfl
@[simp] theorem State.pokeN_deliveries (s : State) (i a n x : Nat) : (s.pokeN i a n x).deliveries = s.deliveries := rfl
@[simp] theorem State.pokeN_sheets (s : State) (i a n x : Nat) : (s.pokeN i a n x).sheets = s.sheets := rfl
@[simp] theorem State.pokeN_ctxs (s : State) (i a n x : Nat) : (s.pokeN i a n x).ctxs = s.ctxs := rfl
@[simp] theorem State.pokeN_sems (s : State) (i a n x : Nat) : (s.pokeN i a n x).sems = s.sems := rfl
@[simp] theorem State.pokeN_pools (s : State) (i a n x : Nat) : (s.pokeN i a n x).pools = s.pools := rfl
@[simp] theorem State.pokeN_nextReq (s : State) (i a n x : Nat) : (s.pokeN i a n x).nextReq = s.nextReq := rfl
@[simp] theorem State.pokeN_marks (s : State) (i a n x : Nat) : (s.pokeN i a n x).marks = s.marks := rfl
@[simp] theorem State.pokeN_upsets (s : State) (i a n x : Nat) : (s.pokeN i a n x).upsets = s.upsets := rfl
@[simp] theorem State.pokeN_hubs (s : State) (i a n x : Nat) : (s.pokeN i a n x).hubs = s.hubs := rfl
@[simp] theorem State.pokeN_coll (s : State) (i a n x : Nat) : (s.pokeN i a n x).coll = s.coll := rfl
@[simp] theorem State.pokeN_jobs (s : State) (i a n x : Nat) : (s.pokeN i a n x).jobs = s.jobs := rfl
@[simp] theorem State.pokeN_fmSession (s : State) (i a n x : Nat) : (s.pokeN i a n x).fmSession = s.fmSession := rfl
@[simp] theorem State.pokeN_sec (s : State) (i a n x : Nat) : (s.pokeN i a n x).sec = s.sec := rfl
@[simp] theorem State.pokeN_cht (s : State) (i a n x : Nat) : (s.pokeN i a n x).cht = s.cht := rfl
@[simp] theorem State.pokeN_boot (s : State) (i a n x : Nat) : (s.pokeN i a n x).boot = s.boot := rfl
@[simp] theorem State.pokeN_ev (s : State) (i a n x : Nat) : (s.pokeN i a n x).ev = s.ev := rfl
@[simp] theorem State.pokeN_sw (s : State) (i a n x : Nat) : (s.pokeN i a n x).sw = s.sw := rfl
@[simp] theorem State.pokeN_ports (s : State) (i a n x : Nat) : (s.pokeN i a n x).ports = s.ports := rfl
@[simp] theorem State.pokeN_gw (s : State) (i a n x : Nat) : (s.pokeN i a n x).gw = s.gw := rfl
@[simp] theorem State.pokeN_peers (s : State) (i a n x : Nat) : (s.pokeN i a n x).peers = s.peers := rfl
@[simp] theorem State.pokeN_clock (s : State) (i a n x : Nat) : (s.pokeN i a n x).clock = s.clock := rfl
@[simp] theorem State.pokeN_pw (s : State) (i a n x : Nat) : (s.pokeN i a n x).pw = s.pw := rfl
@[simp] theorem State.pokeN_out (s : State) (i a n x : Nat) : (s.pokeN i a n x).out = s.out := rfl
@[simp] theorem State.pokeN_pending (s : State) (i a n x : Nat) : (s.pokeN i a n x).pending = s.pending := rfl

@[simp] theorem State.scrPoke_datum (s : State) (c o : Nat) (bs : List Byte) : (s.scrPoke c o bs).datum = s.datum := rfl
@[simp] theorem State.scrPoke_free (s : State) (c o : Nat) (bs : List Byte) : (s.scrPoke c o bs).free = s.free := rfl
@[simp] theorem State.scrPoke_regs (s : State) (c o : Nat) (bs : List Byte) : (s.scrPoke c o bs).regs = s.regs := rfl
@[simp] theorem State.scrPoke_ep (s : State) (c o : Nat) (bs : List Byte) : (s.scrPoke c o bs).ep = s.ep := rfl
@[simp] theorem State.scrPoke_cores (s : State) (c o : Nat) (bs : List Byte) : (s.scrPoke c o bs).cores = s.cores := rfl
@[simp] theorem State.scrPoke_guestOn (s : State) (c o : Nat) (bs : List Byte) : (s.scrPoke c o bs).guestOn = s.guestOn := rfl
@[simp] theorem State.scrPoke_movers (s : State) (c o : Nat) (bs : List Byte) : (s.scrPoke c o bs).movers = s.movers := rfl
@[simp] theorem State.scrPoke_quant (s : State) (c o : Nat) (bs : List Byte) : (s.scrPoke c o bs).quant = s.quant := rfl
@[simp] theorem State.scrPoke_quantHeld (s : State) (c o : Nat) (bs : List Byte) : (s.scrPoke c o bs).quantHeld = s.quantHeld := rfl
@[simp] theorem State.scrPoke_hch (s : State) (c o : Nat) (bs : List Byte) : (s.scrPoke c o bs).hch = s.hch := rfl
@[simp] theorem State.scrPoke_routing (s : State) (c o : Nat) (bs : List Byte) : (s.scrPoke c o bs).routing = s.routing := rfl
@[simp] theorem State.scrPoke_exch (s : State) (c o : Nat) (bs : List Byte) : (s.scrPoke c o bs).exch = s.exch := rfl
@[simp] theorem State.scrPoke_surveys (s : State) (c o : Nat) (bs : List Byte) : (s.scrPoke c o bs).surveys = s.surveys := rfl
@[simp] theorem State.scrPoke_svyCache (s : State) (c o : Nat) (bs : List Byte) : (s.scrPoke c o bs).svyCache = s.svyCache := rfl
@[simp] theorem State.scrPoke_plotRuns (s : State) (c o : Nat) (bs : List Byte) : (s.scrPoke c o bs).plotRuns = s.plotRuns := rfl
@[simp] theorem State.scrPoke_deliveries (s : State) (c o : Nat) (bs : List Byte) : (s.scrPoke c o bs).deliveries = s.deliveries := rfl
@[simp] theorem State.scrPoke_sheets (s : State) (c o : Nat) (bs : List Byte) : (s.scrPoke c o bs).sheets = s.sheets := rfl
@[simp] theorem State.scrPoke_ctxs (s : State) (c o : Nat) (bs : List Byte) : (s.scrPoke c o bs).ctxs = s.ctxs := rfl
@[simp] theorem State.scrPoke_sems (s : State) (c o : Nat) (bs : List Byte) : (s.scrPoke c o bs).sems = s.sems := rfl
@[simp] theorem State.scrPoke_pools (s : State) (c o : Nat) (bs : List Byte) : (s.scrPoke c o bs).pools = s.pools := rfl
@[simp] theorem State.scrPoke_nextReq (s : State) (c o : Nat) (bs : List Byte) : (s.scrPoke c o bs).nextReq = s.nextReq := rfl
@[simp] theorem State.scrPoke_marks (s : State) (c o : Nat) (bs : List Byte) : (s.scrPoke c o bs).marks = s.marks := rfl
@[simp] theorem State.scrPoke_hubs (s : State) (c o : Nat) (bs : List Byte) : (s.scrPoke c o bs).hubs = s.hubs := rfl
@[simp] theorem State.scrPoke_coll (s : State) (c o : Nat) (bs : List Byte) : (s.scrPoke c o bs).coll = s.coll := rfl
@[simp] theorem State.scrPoke_jobs (s : State) (c o : Nat) (bs : List Byte) : (s.scrPoke c o bs).jobs = s.jobs := rfl
@[simp] theorem State.scrPoke_fmSession (s : State) (c o : Nat) (bs : List Byte) : (s.scrPoke c o bs).fmSession = s.fmSession := rfl
@[simp] theorem State.scrPoke_sec (s : State) (c o : Nat) (bs : List Byte) : (s.scrPoke c o bs).sec = s.sec := rfl
@[simp] theorem State.scrPoke_cht (s : State) (c o : Nat) (bs : List Byte) : (s.scrPoke c o bs).cht = s.cht := rfl
@[simp] theorem State.scrPoke_boot (s : State) (c o : Nat) (bs : List Byte) : (s.scrPoke c o bs).boot = s.boot := rfl
@[simp] theorem State.scrPoke_ev (s : State) (c o : Nat) (bs : List Byte) : (s.scrPoke c o bs).ev = s.ev := rfl
@[simp] theorem State.scrPoke_sw (s : State) (c o : Nat) (bs : List Byte) : (s.scrPoke c o bs).sw = s.sw := rfl
@[simp] theorem State.scrPoke_ports (s : State) (c o : Nat) (bs : List Byte) : (s.scrPoke c o bs).ports = s.ports := rfl
@[simp] theorem State.scrPoke_gw (s : State) (c o : Nat) (bs : List Byte) : (s.scrPoke c o bs).gw = s.gw := rfl
@[simp] theorem State.scrPoke_peers (s : State) (c o : Nat) (bs : List Byte) : (s.scrPoke c o bs).peers = s.peers := rfl
@[simp] theorem State.scrPoke_clock (s : State) (c o : Nat) (bs : List Byte) : (s.scrPoke c o bs).clock = s.clock := rfl
@[simp] theorem State.scrPoke_pw (s : State) (c o : Nat) (bs : List Byte) : (s.scrPoke c o bs).pw = s.pw := rfl
@[simp] theorem State.scrPoke_out (s : State) (c o : Nat) (bs : List Byte) : (s.scrPoke c o bs).out = s.out := rfl
@[simp] theorem State.scrPoke_pending (s : State) (c o : Nat) (bs : List Byte) : (s.scrPoke c o bs).pending = s.pending := rfl

@[simp] theorem State.wake_datum (s : State) : (s.wake).datum = s.datum := rfl
@[simp] theorem State.wake_free (s : State) : (s.wake).free = s.free := rfl
@[simp] theorem State.wake_mem (s : State) : (s.wake).mem = s.mem := rfl
@[simp] theorem State.wake_regs (s : State) : (s.wake).regs = s.regs := rfl
@[simp] theorem State.wake_ep (s : State) : (s.wake).ep = s.ep := rfl
@[simp] theorem State.wake_guestOn (s : State) : (s.wake).guestOn = s.guestOn := rfl
@[simp] theorem State.wake_movers (s : State) : (s.wake).movers = s.movers := rfl
@[simp] theorem State.wake_quant (s : State) : (s.wake).quant = s.quant := rfl
@[simp] theorem State.wake_quantHeld (s : State) : (s.wake).quantHeld = s.quantHeld := rfl
@[simp] theorem State.wake_hch (s : State) : (s.wake).hch = s.hch := rfl
@[simp] theorem State.wake_routing (s : State) : (s.wake).routing = s.routing := rfl
@[simp] theorem State.wake_exch (s : State) : (s.wake).exch = s.exch := rfl
@[simp] theorem State.wake_surveys (s : State) : (s.wake).surveys = s.surveys := rfl
@[simp] theorem State.wake_svyCache (s : State) : (s.wake).svyCache = s.svyCache := rfl
@[simp] theorem State.wake_plotRuns (s : State) : (s.wake).plotRuns = s.plotRuns := rfl
@[simp] theorem State.wake_deliveries (s : State) : (s.wake).deliveries = s.deliveries := rfl
@[simp] theorem State.wake_sheets (s : State) : (s.wake).sheets = s.sheets := rfl
@[simp] theorem State.wake_ctxs (s : State) : (s.wake).ctxs = s.ctxs := rfl
@[simp] theorem State.wake_sems (s : State) : (s.wake).sems = s.sems := rfl
@[simp] theorem State.wake_pools (s : State) : (s.wake).pools = s.pools := rfl
@[simp] theorem State.wake_nextReq (s : State) : (s.wake).nextReq = s.nextReq := rfl
@[simp] theorem State.wake_marks (s : State) : (s.wake).marks = s.marks := rfl
@[simp] theorem State.wake_upsets (s : State) : (s.wake).upsets = s.upsets := rfl
@[simp] theorem State.wake_hubs (s : State) : (s.wake).hubs = s.hubs := rfl
@[simp] theorem State.wake_coll (s : State) : (s.wake).coll = s.coll := rfl
@[simp] theorem State.wake_jobs (s : State) : (s.wake).jobs = s.jobs := rfl
@[simp] theorem State.wake_fmSession (s : State) : (s.wake).fmSession = s.fmSession := rfl
@[simp] theorem State.wake_sec (s : State) : (s.wake).sec = s.sec := rfl
@[simp] theorem State.wake_cht (s : State) : (s.wake).cht = s.cht := rfl
@[simp] theorem State.wake_boot (s : State) : (s.wake).boot = s.boot := rfl
@[simp] theorem State.wake_ev (s : State) : (s.wake).ev = s.ev := rfl
@[simp] theorem State.wake_sw (s : State) : (s.wake).sw = s.sw := rfl
@[simp] theorem State.wake_ports (s : State) : (s.wake).ports = s.ports := rfl
@[simp] theorem State.wake_gw (s : State) : (s.wake).gw = s.gw := rfl
@[simp] theorem State.wake_peers (s : State) : (s.wake).peers = s.peers := rfl
@[simp] theorem State.wake_clock (s : State) : (s.wake).clock = s.clock := rfl
@[simp] theorem State.wake_pw (s : State) : (s.wake).pw = s.pw := rfl
@[simp] theorem State.wake_out (s : State) : (s.wake).out = s.out := rfl
@[simp] theorem State.wake_pending (s : State) : (s.wake).pending = s.pending := rfl

@[simp] theorem State.send_datum (s : State) (o : Out) : (s.send o).datum = s.datum := rfl
@[simp] theorem State.send_free (s : State) (o : Out) : (s.send o).free = s.free := rfl
@[simp] theorem State.send_mem (s : State) (o : Out) : (s.send o).mem = s.mem := rfl
@[simp] theorem State.send_regs (s : State) (o : Out) : (s.send o).regs = s.regs := rfl
@[simp] theorem State.send_ep (s : State) (o : Out) : (s.send o).ep = s.ep := rfl
@[simp] theorem State.send_cores (s : State) (o : Out) : (s.send o).cores = s.cores := rfl
@[simp] theorem State.send_guestOn (s : State) (o : Out) : (s.send o).guestOn = s.guestOn := rfl
@[simp] theorem State.send_movers (s : State) (o : Out) : (s.send o).movers = s.movers := rfl
@[simp] theorem State.send_quant (s : State) (o : Out) : (s.send o).quant = s.quant := rfl
@[simp] theorem State.send_quantHeld (s : State) (o : Out) : (s.send o).quantHeld = s.quantHeld := rfl
@[simp] theorem State.send_hch (s : State) (o : Out) : (s.send o).hch = s.hch := rfl
@[simp] theorem State.send_routing (s : State) (o : Out) : (s.send o).routing = s.routing := rfl
@[simp] theorem State.send_exch (s : State) (o : Out) : (s.send o).exch = s.exch := rfl
@[simp] theorem State.send_surveys (s : State) (o : Out) : (s.send o).surveys = s.surveys := rfl
@[simp] theorem State.send_svyCache (s : State) (o : Out) : (s.send o).svyCache = s.svyCache := rfl
@[simp] theorem State.send_plotRuns (s : State) (o : Out) : (s.send o).plotRuns = s.plotRuns := rfl
@[simp] theorem State.send_deliveries (s : State) (o : Out) : (s.send o).deliveries = s.deliveries := rfl
@[simp] theorem State.send_sheets (s : State) (o : Out) : (s.send o).sheets = s.sheets := rfl
@[simp] theorem State.send_ctxs (s : State) (o : Out) : (s.send o).ctxs = s.ctxs := rfl
@[simp] theorem State.send_sems (s : State) (o : Out) : (s.send o).sems = s.sems := rfl
@[simp] theorem State.send_pools (s : State) (o : Out) : (s.send o).pools = s.pools := rfl
@[simp] theorem State.send_nextReq (s : State) (o : Out) : (s.send o).nextReq = s.nextReq := rfl
@[simp] theorem State.send_marks (s : State) (o : Out) : (s.send o).marks = s.marks := rfl
@[simp] theorem State.send_upsets (s : State) (o : Out) : (s.send o).upsets = s.upsets := rfl
@[simp] theorem State.send_hubs (s : State) (o : Out) : (s.send o).hubs = s.hubs := rfl
@[simp] theorem State.send_coll (s : State) (o : Out) : (s.send o).coll = s.coll := rfl
@[simp] theorem State.send_jobs (s : State) (o : Out) : (s.send o).jobs = s.jobs := rfl
@[simp] theorem State.send_fmSession (s : State) (o : Out) : (s.send o).fmSession = s.fmSession := rfl
@[simp] theorem State.send_sec (s : State) (o : Out) : (s.send o).sec = s.sec := rfl
@[simp] theorem State.send_cht (s : State) (o : Out) : (s.send o).cht = s.cht := rfl
@[simp] theorem State.send_boot (s : State) (o : Out) : (s.send o).boot = s.boot := rfl
@[simp] theorem State.send_ev (s : State) (o : Out) : (s.send o).ev = s.ev := rfl
@[simp] theorem State.send_sw (s : State) (o : Out) : (s.send o).sw = s.sw := rfl
@[simp] theorem State.send_ports (s : State) (o : Out) : (s.send o).ports = s.ports := rfl
@[simp] theorem State.send_gw (s : State) (o : Out) : (s.send o).gw = s.gw := rfl
@[simp] theorem State.send_peers (s : State) (o : Out) : (s.send o).peers = s.peers := rfl
@[simp] theorem State.send_clock (s : State) (o : Out) : (s.send o).clock = s.clock := rfl
@[simp] theorem State.send_pw (s : State) (o : Out) : (s.send o).pw = s.pw := rfl
@[simp] theorem State.send_out (s : State) (o : Out) : (s.send o).out = s.out ++ [o] := rfl
@[simp] theorem State.send_pending (s : State) (o : Out) : (s.send o).pending = s.pending := rfl

@[simp] theorem State.draw_datum (s : State) : (s.draw).datum = s.datum := rfl
@[simp] theorem State.draw_free (s : State) : (s.draw).free = s.free + 1 := rfl
@[simp] theorem State.draw_mem (s : State) : (s.draw).mem = s.mem := rfl
@[simp] theorem State.draw_regs (s : State) : (s.draw).regs = s.regs := rfl
@[simp] theorem State.draw_ep (s : State) : (s.draw).ep = s.ep := rfl
@[simp] theorem State.draw_cores (s : State) : (s.draw).cores = s.cores := rfl
@[simp] theorem State.draw_guestOn (s : State) : (s.draw).guestOn = s.guestOn := rfl
@[simp] theorem State.draw_movers (s : State) : (s.draw).movers = s.movers := rfl
@[simp] theorem State.draw_quant (s : State) : (s.draw).quant = s.quant := rfl
@[simp] theorem State.draw_quantHeld (s : State) : (s.draw).quantHeld = s.quantHeld := rfl
@[simp] theorem State.draw_hch (s : State) : (s.draw).hch = s.hch := rfl
@[simp] theorem State.draw_routing (s : State) : (s.draw).routing = s.routing := rfl
@[simp] theorem State.draw_exch (s : State) : (s.draw).exch = s.exch := rfl
@[simp] theorem State.draw_surveys (s : State) : (s.draw).surveys = s.surveys := rfl
@[simp] theorem State.draw_svyCache (s : State) : (s.draw).svyCache = s.svyCache := rfl
@[simp] theorem State.draw_plotRuns (s : State) : (s.draw).plotRuns = s.plotRuns := rfl
@[simp] theorem State.draw_deliveries (s : State) : (s.draw).deliveries = s.deliveries := rfl
@[simp] theorem State.draw_sheets (s : State) : (s.draw).sheets = s.sheets := rfl
@[simp] theorem State.draw_ctxs (s : State) : (s.draw).ctxs = s.ctxs := rfl
@[simp] theorem State.draw_sems (s : State) : (s.draw).sems = s.sems := rfl
@[simp] theorem State.draw_pools (s : State) : (s.draw).pools = s.pools := rfl
@[simp] theorem State.draw_nextReq (s : State) : (s.draw).nextReq = s.nextReq := rfl
@[simp] theorem State.draw_marks (s : State) : (s.draw).marks = s.marks := rfl
@[simp] theorem State.draw_upsets (s : State) : (s.draw).upsets = s.upsets := rfl
@[simp] theorem State.draw_hubs (s : State) : (s.draw).hubs = s.hubs := rfl
@[simp] theorem State.draw_coll (s : State) : (s.draw).coll = s.coll := rfl
@[simp] theorem State.draw_jobs (s : State) : (s.draw).jobs = s.jobs := rfl
@[simp] theorem State.draw_fmSession (s : State) : (s.draw).fmSession = s.fmSession := rfl
@[simp] theorem State.draw_sec (s : State) : (s.draw).sec = s.sec := rfl
@[simp] theorem State.draw_cht (s : State) : (s.draw).cht = s.cht := rfl
@[simp] theorem State.draw_boot (s : State) : (s.draw).boot = s.boot := rfl
@[simp] theorem State.draw_ev (s : State) : (s.draw).ev = s.ev := rfl
@[simp] theorem State.draw_sw (s : State) : (s.draw).sw = s.sw := rfl
@[simp] theorem State.draw_ports (s : State) : (s.draw).ports = s.ports := rfl
@[simp] theorem State.draw_gw (s : State) : (s.draw).gw = s.gw := rfl
@[simp] theorem State.draw_peers (s : State) : (s.draw).peers = s.peers := rfl
@[simp] theorem State.draw_clock (s : State) : (s.draw).clock = s.clock := rfl
@[simp] theorem State.draw_pw (s : State) : (s.draw).pw = s.pw := rfl
@[simp] theorem State.draw_out (s : State) : (s.draw).out = s.out := rfl
@[simp] theorem State.draw_pending (s : State) : (s.draw).pending = s.pending := rfl

@[simp] theorem State.setJob_datum (s : State) (j : Nat) (x : Job) : (s.setJob j x).datum = s.datum := rfl
@[simp] theorem State.setJob_free (s : State) (j : Nat) (x : Job) : (s.setJob j x).free = s.free := rfl
@[simp] theorem State.setJob_mem (s : State) (j : Nat) (x : Job) : (s.setJob j x).mem = s.mem := rfl
@[simp] theorem State.setJob_regs (s : State) (j : Nat) (x : Job) : (s.setJob j x).regs = s.regs := rfl
@[simp] theorem State.setJob_ep (s : State) (j : Nat) (x : Job) : (s.setJob j x).ep = s.ep := rfl
@[simp] theorem State.setJob_cores (s : State) (j : Nat) (x : Job) : (s.setJob j x).cores = s.cores := rfl
@[simp] theorem State.setJob_guestOn (s : State) (j : Nat) (x : Job) : (s.setJob j x).guestOn = s.guestOn := rfl
@[simp] theorem State.setJob_movers (s : State) (j : Nat) (x : Job) : (s.setJob j x).movers = s.movers := rfl
@[simp] theorem State.setJob_quant (s : State) (j : Nat) (x : Job) : (s.setJob j x).quant = s.quant := rfl
@[simp] theorem State.setJob_quantHeld (s : State) (j : Nat) (x : Job) : (s.setJob j x).quantHeld = s.quantHeld := rfl
@[simp] theorem State.setJob_hch (s : State) (j : Nat) (x : Job) : (s.setJob j x).hch = s.hch := rfl
@[simp] theorem State.setJob_routing (s : State) (j : Nat) (x : Job) : (s.setJob j x).routing = s.routing := rfl
@[simp] theorem State.setJob_exch (s : State) (j : Nat) (x : Job) : (s.setJob j x).exch = s.exch := rfl
@[simp] theorem State.setJob_surveys (s : State) (j : Nat) (x : Job) : (s.setJob j x).surveys = s.surveys := rfl
@[simp] theorem State.setJob_svyCache (s : State) (j : Nat) (x : Job) : (s.setJob j x).svyCache = s.svyCache := rfl
@[simp] theorem State.setJob_plotRuns (s : State) (j : Nat) (x : Job) : (s.setJob j x).plotRuns = s.plotRuns := rfl
@[simp] theorem State.setJob_deliveries (s : State) (j : Nat) (x : Job) : (s.setJob j x).deliveries = s.deliveries := rfl
@[simp] theorem State.setJob_sheets (s : State) (j : Nat) (x : Job) : (s.setJob j x).sheets = s.sheets := rfl
@[simp] theorem State.setJob_ctxs (s : State) (j : Nat) (x : Job) : (s.setJob j x).ctxs = s.ctxs := rfl
@[simp] theorem State.setJob_sems (s : State) (j : Nat) (x : Job) : (s.setJob j x).sems = s.sems := rfl
@[simp] theorem State.setJob_pools (s : State) (j : Nat) (x : Job) : (s.setJob j x).pools = s.pools := rfl
@[simp] theorem State.setJob_nextReq (s : State) (j : Nat) (x : Job) : (s.setJob j x).nextReq = s.nextReq := rfl
@[simp] theorem State.setJob_marks (s : State) (j : Nat) (x : Job) : (s.setJob j x).marks = s.marks := rfl
@[simp] theorem State.setJob_upsets (s : State) (j : Nat) (x : Job) : (s.setJob j x).upsets = s.upsets := rfl
@[simp] theorem State.setJob_hubs (s : State) (j : Nat) (x : Job) : (s.setJob j x).hubs = s.hubs := rfl
@[simp] theorem State.setJob_coll (s : State) (j : Nat) (x : Job) : (s.setJob j x).coll = s.coll := rfl
@[simp] theorem State.setJob_jobs (s : State) (j : Nat) (x : Job) : (s.setJob j x).jobs = s.jobs.put j x := rfl
@[simp] theorem State.setJob_fmSession (s : State) (j : Nat) (x : Job) : (s.setJob j x).fmSession = s.fmSession := rfl
@[simp] theorem State.setJob_sec (s : State) (j : Nat) (x : Job) : (s.setJob j x).sec = s.sec := rfl
@[simp] theorem State.setJob_cht (s : State) (j : Nat) (x : Job) : (s.setJob j x).cht = s.cht := rfl
@[simp] theorem State.setJob_boot (s : State) (j : Nat) (x : Job) : (s.setJob j x).boot = s.boot := rfl
@[simp] theorem State.setJob_ev (s : State) (j : Nat) (x : Job) : (s.setJob j x).ev = s.ev := rfl
@[simp] theorem State.setJob_sw (s : State) (j : Nat) (x : Job) : (s.setJob j x).sw = s.sw := rfl
@[simp] theorem State.setJob_ports (s : State) (j : Nat) (x : Job) : (s.setJob j x).ports = s.ports := rfl
@[simp] theorem State.setJob_gw (s : State) (j : Nat) (x : Job) : (s.setJob j x).gw = s.gw := rfl
@[simp] theorem State.setJob_peers (s : State) (j : Nat) (x : Job) : (s.setJob j x).peers = s.peers := rfl
@[simp] theorem State.setJob_clock (s : State) (j : Nat) (x : Job) : (s.setJob j x).clock = s.clock := rfl
@[simp] theorem State.setJob_pw (s : State) (j : Nat) (x : Job) : (s.setJob j x).pw = s.pw := rfl
@[simp] theorem State.setJob_out (s : State) (j : Nat) (x : Job) : (s.setJob j x).out = s.out := rfl
@[simp] theorem State.setJob_pending (s : State) (j : Nat) (x : Job) : (s.setJob j x).pending = s.pending := rfl

@[simp] theorem State.setSheet_datum (s : State) (i : Nat) (x : Sheet) : (s.setSheet i x).datum = s.datum := rfl
@[simp] theorem State.setSheet_free (s : State) (i : Nat) (x : Sheet) : (s.setSheet i x).free = s.free := rfl
@[simp] theorem State.setSheet_mem (s : State) (i : Nat) (x : Sheet) : (s.setSheet i x).mem = s.mem := rfl
@[simp] theorem State.setSheet_regs (s : State) (i : Nat) (x : Sheet) : (s.setSheet i x).regs = s.regs := rfl
@[simp] theorem State.setSheet_ep (s : State) (i : Nat) (x : Sheet) : (s.setSheet i x).ep = s.ep := rfl
@[simp] theorem State.setSheet_cores (s : State) (i : Nat) (x : Sheet) : (s.setSheet i x).cores = s.cores := rfl
@[simp] theorem State.setSheet_guestOn (s : State) (i : Nat) (x : Sheet) : (s.setSheet i x).guestOn = s.guestOn := rfl
@[simp] theorem State.setSheet_movers (s : State) (i : Nat) (x : Sheet) : (s.setSheet i x).movers = s.movers := rfl
@[simp] theorem State.setSheet_quant (s : State) (i : Nat) (x : Sheet) : (s.setSheet i x).quant = s.quant := rfl
@[simp] theorem State.setSheet_quantHeld (s : State) (i : Nat) (x : Sheet) : (s.setSheet i x).quantHeld = s.quantHeld := rfl
@[simp] theorem State.setSheet_hch (s : State) (i : Nat) (x : Sheet) : (s.setSheet i x).hch = s.hch := rfl
@[simp] theorem State.setSheet_routing (s : State) (i : Nat) (x : Sheet) : (s.setSheet i x).routing = s.routing := rfl
@[simp] theorem State.setSheet_exch (s : State) (i : Nat) (x : Sheet) : (s.setSheet i x).exch = s.exch := rfl
@[simp] theorem State.setSheet_surveys (s : State) (i : Nat) (x : Sheet) : (s.setSheet i x).surveys = s.surveys := rfl
@[simp] theorem State.setSheet_svyCache (s : State) (i : Nat) (x : Sheet) : (s.setSheet i x).svyCache = s.svyCache := rfl
@[simp] theorem State.setSheet_plotRuns (s : State) (i : Nat) (x : Sheet) : (s.setSheet i x).plotRuns = s.plotRuns := rfl
@[simp] theorem State.setSheet_deliveries (s : State) (i : Nat) (x : Sheet) : (s.setSheet i x).deliveries = s.deliveries := rfl
@[simp] theorem State.setSheet_sheets (s : State) (i : Nat) (x : Sheet) : (s.setSheet i x).sheets = s.sheets.put i x := rfl
@[simp] theorem State.setSheet_ctxs (s : State) (i : Nat) (x : Sheet) : (s.setSheet i x).ctxs = s.ctxs := rfl
@[simp] theorem State.setSheet_sems (s : State) (i : Nat) (x : Sheet) : (s.setSheet i x).sems = s.sems := rfl
@[simp] theorem State.setSheet_pools (s : State) (i : Nat) (x : Sheet) : (s.setSheet i x).pools = s.pools := rfl
@[simp] theorem State.setSheet_nextReq (s : State) (i : Nat) (x : Sheet) : (s.setSheet i x).nextReq = s.nextReq := rfl
@[simp] theorem State.setSheet_marks (s : State) (i : Nat) (x : Sheet) : (s.setSheet i x).marks = s.marks := rfl
@[simp] theorem State.setSheet_upsets (s : State) (i : Nat) (x : Sheet) : (s.setSheet i x).upsets = s.upsets := rfl
@[simp] theorem State.setSheet_hubs (s : State) (i : Nat) (x : Sheet) : (s.setSheet i x).hubs = s.hubs := rfl
@[simp] theorem State.setSheet_coll (s : State) (i : Nat) (x : Sheet) : (s.setSheet i x).coll = s.coll := rfl
@[simp] theorem State.setSheet_jobs (s : State) (i : Nat) (x : Sheet) : (s.setSheet i x).jobs = s.jobs := rfl
@[simp] theorem State.setSheet_fmSession (s : State) (i : Nat) (x : Sheet) : (s.setSheet i x).fmSession = s.fmSession := rfl
@[simp] theorem State.setSheet_sec (s : State) (i : Nat) (x : Sheet) : (s.setSheet i x).sec = s.sec := rfl
@[simp] theorem State.setSheet_cht (s : State) (i : Nat) (x : Sheet) : (s.setSheet i x).cht = s.cht := rfl
@[simp] theorem State.setSheet_boot (s : State) (i : Nat) (x : Sheet) : (s.setSheet i x).boot = s.boot := rfl
@[simp] theorem State.setSheet_ev (s : State) (i : Nat) (x : Sheet) : (s.setSheet i x).ev = s.ev := rfl
@[simp] theorem State.setSheet_sw (s : State) (i : Nat) (x : Sheet) : (s.setSheet i x).sw = s.sw := rfl
@[simp] theorem State.setSheet_ports (s : State) (i : Nat) (x : Sheet) : (s.setSheet i x).ports = s.ports := rfl
@[simp] theorem State.setSheet_gw (s : State) (i : Nat) (x : Sheet) : (s.setSheet i x).gw = s.gw := rfl
@[simp] theorem State.setSheet_peers (s : State) (i : Nat) (x : Sheet) : (s.setSheet i x).peers = s.peers := rfl
@[simp] theorem State.setSheet_clock (s : State) (i : Nat) (x : Sheet) : (s.setSheet i x).clock = s.clock := rfl
@[simp] theorem State.setSheet_pw (s : State) (i : Nat) (x : Sheet) : (s.setSheet i x).pw = s.pw := rfl
@[simp] theorem State.setSheet_out (s : State) (i : Nat) (x : Sheet) : (s.setSheet i x).out = s.out := rfl
@[simp] theorem State.setSheet_pending (s : State) (i : Nat) (x : Sheet) : (s.setSheet i x).pending = s.pending := rfl

@[simp] theorem State.setCtx_datum (s : State) (i c : Nat) (x : Context) : (s.setCtx i c x).datum = s.datum := rfl
@[simp] theorem State.setCtx_free (s : State) (i c : Nat) (x : Context) : (s.setCtx i c x).free = s.free := rfl
@[simp] theorem State.setCtx_mem (s : State) (i c : Nat) (x : Context) : (s.setCtx i c x).mem = s.mem := rfl
@[simp] theorem State.setCtx_regs (s : State) (i c : Nat) (x : Context) : (s.setCtx i c x).regs = s.regs := rfl
@[simp] theorem State.setCtx_ep (s : State) (i c : Nat) (x : Context) : (s.setCtx i c x).ep = s.ep := rfl
@[simp] theorem State.setCtx_cores (s : State) (i c : Nat) (x : Context) : (s.setCtx i c x).cores = s.cores := rfl
@[simp] theorem State.setCtx_guestOn (s : State) (i c : Nat) (x : Context) : (s.setCtx i c x).guestOn = s.guestOn := rfl
@[simp] theorem State.setCtx_movers (s : State) (i c : Nat) (x : Context) : (s.setCtx i c x).movers = s.movers := rfl
@[simp] theorem State.setCtx_quant (s : State) (i c : Nat) (x : Context) : (s.setCtx i c x).quant = s.quant := rfl
@[simp] theorem State.setCtx_quantHeld (s : State) (i c : Nat) (x : Context) : (s.setCtx i c x).quantHeld = s.quantHeld := rfl
@[simp] theorem State.setCtx_hch (s : State) (i c : Nat) (x : Context) : (s.setCtx i c x).hch = s.hch := rfl
@[simp] theorem State.setCtx_routing (s : State) (i c : Nat) (x : Context) : (s.setCtx i c x).routing = s.routing := rfl
@[simp] theorem State.setCtx_exch (s : State) (i c : Nat) (x : Context) : (s.setCtx i c x).exch = s.exch := rfl
@[simp] theorem State.setCtx_surveys (s : State) (i c : Nat) (x : Context) : (s.setCtx i c x).surveys = s.surveys := rfl
@[simp] theorem State.setCtx_svyCache (s : State) (i c : Nat) (x : Context) : (s.setCtx i c x).svyCache = s.svyCache := rfl
@[simp] theorem State.setCtx_plotRuns (s : State) (i c : Nat) (x : Context) : (s.setCtx i c x).plotRuns = s.plotRuns := rfl
@[simp] theorem State.setCtx_deliveries (s : State) (i c : Nat) (x : Context) : (s.setCtx i c x).deliveries = s.deliveries := rfl
@[simp] theorem State.setCtx_sheets (s : State) (i c : Nat) (x : Context) : (s.setCtx i c x).sheets = s.sheets := rfl
@[simp] theorem State.setCtx_ctxs (s : State) (i c : Nat) (x : Context) : (s.setCtx i c x).ctxs = s.ctxs.put (i, c) x := rfl
@[simp] theorem State.setCtx_sems (s : State) (i c : Nat) (x : Context) : (s.setCtx i c x).sems = s.sems := rfl
@[simp] theorem State.setCtx_pools (s : State) (i c : Nat) (x : Context) : (s.setCtx i c x).pools = s.pools := rfl
@[simp] theorem State.setCtx_nextReq (s : State) (i c : Nat) (x : Context) : (s.setCtx i c x).nextReq = s.nextReq := rfl
@[simp] theorem State.setCtx_marks (s : State) (i c : Nat) (x : Context) : (s.setCtx i c x).marks = s.marks := rfl
@[simp] theorem State.setCtx_upsets (s : State) (i c : Nat) (x : Context) : (s.setCtx i c x).upsets = s.upsets := rfl
@[simp] theorem State.setCtx_hubs (s : State) (i c : Nat) (x : Context) : (s.setCtx i c x).hubs = s.hubs := rfl
@[simp] theorem State.setCtx_coll (s : State) (i c : Nat) (x : Context) : (s.setCtx i c x).coll = s.coll := rfl
@[simp] theorem State.setCtx_jobs (s : State) (i c : Nat) (x : Context) : (s.setCtx i c x).jobs = s.jobs := rfl
@[simp] theorem State.setCtx_fmSession (s : State) (i c : Nat) (x : Context) : (s.setCtx i c x).fmSession = s.fmSession := rfl
@[simp] theorem State.setCtx_sec (s : State) (i c : Nat) (x : Context) : (s.setCtx i c x).sec = s.sec := rfl
@[simp] theorem State.setCtx_cht (s : State) (i c : Nat) (x : Context) : (s.setCtx i c x).cht = s.cht := rfl
@[simp] theorem State.setCtx_boot (s : State) (i c : Nat) (x : Context) : (s.setCtx i c x).boot = s.boot := rfl
@[simp] theorem State.setCtx_ev (s : State) (i c : Nat) (x : Context) : (s.setCtx i c x).ev = s.ev := rfl
@[simp] theorem State.setCtx_sw (s : State) (i c : Nat) (x : Context) : (s.setCtx i c x).sw = s.sw := rfl
@[simp] theorem State.setCtx_ports (s : State) (i c : Nat) (x : Context) : (s.setCtx i c x).ports = s.ports := rfl
@[simp] theorem State.setCtx_gw (s : State) (i c : Nat) (x : Context) : (s.setCtx i c x).gw = s.gw := rfl
@[simp] theorem State.setCtx_peers (s : State) (i c : Nat) (x : Context) : (s.setCtx i c x).peers = s.peers := rfl
@[simp] theorem State.setCtx_clock (s : State) (i c : Nat) (x : Context) : (s.setCtx i c x).clock = s.clock := rfl
@[simp] theorem State.setCtx_pw (s : State) (i c : Nat) (x : Context) : (s.setCtx i c x).pw = s.pw := rfl
@[simp] theorem State.setCtx_out (s : State) (i c : Nat) (x : Context) : (s.setCtx i c x).out = s.out := rfl
@[simp] theorem State.setCtx_pending (s : State) (i c : Nat) (x : Context) : (s.setCtx i c x).pending = s.pending := rfl

@[simp] theorem State.setPool_datum (s : State) (p : Nat) (x : Pool) : (s.setPool p x).datum = s.datum := rfl
@[simp] theorem State.setPool_free (s : State) (p : Nat) (x : Pool) : (s.setPool p x).free = s.free := rfl
@[simp] theorem State.setPool_mem (s : State) (p : Nat) (x : Pool) : (s.setPool p x).mem = s.mem := rfl
@[simp] theorem State.setPool_regs (s : State) (p : Nat) (x : Pool) : (s.setPool p x).regs = s.regs := rfl
@[simp] theorem State.setPool_ep (s : State) (p : Nat) (x : Pool) : (s.setPool p x).ep = s.ep := rfl
@[simp] theorem State.setPool_cores (s : State) (p : Nat) (x : Pool) : (s.setPool p x).cores = s.cores := rfl
@[simp] theorem State.setPool_guestOn (s : State) (p : Nat) (x : Pool) : (s.setPool p x).guestOn = s.guestOn := rfl
@[simp] theorem State.setPool_movers (s : State) (p : Nat) (x : Pool) : (s.setPool p x).movers = s.movers := rfl
@[simp] theorem State.setPool_quant (s : State) (p : Nat) (x : Pool) : (s.setPool p x).quant = s.quant := rfl
@[simp] theorem State.setPool_quantHeld (s : State) (p : Nat) (x : Pool) : (s.setPool p x).quantHeld = s.quantHeld := rfl
@[simp] theorem State.setPool_hch (s : State) (p : Nat) (x : Pool) : (s.setPool p x).hch = s.hch := rfl
@[simp] theorem State.setPool_routing (s : State) (p : Nat) (x : Pool) : (s.setPool p x).routing = s.routing := rfl
@[simp] theorem State.setPool_exch (s : State) (p : Nat) (x : Pool) : (s.setPool p x).exch = s.exch := rfl
@[simp] theorem State.setPool_surveys (s : State) (p : Nat) (x : Pool) : (s.setPool p x).surveys = s.surveys := rfl
@[simp] theorem State.setPool_svyCache (s : State) (p : Nat) (x : Pool) : (s.setPool p x).svyCache = s.svyCache := rfl
@[simp] theorem State.setPool_plotRuns (s : State) (p : Nat) (x : Pool) : (s.setPool p x).plotRuns = s.plotRuns := rfl
@[simp] theorem State.setPool_deliveries (s : State) (p : Nat) (x : Pool) : (s.setPool p x).deliveries = s.deliveries := rfl
@[simp] theorem State.setPool_sheets (s : State) (p : Nat) (x : Pool) : (s.setPool p x).sheets = s.sheets := rfl
@[simp] theorem State.setPool_ctxs (s : State) (p : Nat) (x : Pool) : (s.setPool p x).ctxs = s.ctxs := rfl
@[simp] theorem State.setPool_sems (s : State) (p : Nat) (x : Pool) : (s.setPool p x).sems = s.sems := rfl
@[simp] theorem State.setPool_pools (s : State) (p : Nat) (x : Pool) : (s.setPool p x).pools = s.pools.put p x := rfl
@[simp] theorem State.setPool_nextReq (s : State) (p : Nat) (x : Pool) : (s.setPool p x).nextReq = s.nextReq := rfl
@[simp] theorem State.setPool_marks (s : State) (p : Nat) (x : Pool) : (s.setPool p x).marks = s.marks := rfl
@[simp] theorem State.setPool_upsets (s : State) (p : Nat) (x : Pool) : (s.setPool p x).upsets = s.upsets := rfl
@[simp] theorem State.setPool_hubs (s : State) (p : Nat) (x : Pool) : (s.setPool p x).hubs = s.hubs := rfl
@[simp] theorem State.setPool_coll (s : State) (p : Nat) (x : Pool) : (s.setPool p x).coll = s.coll := rfl
@[simp] theorem State.setPool_jobs (s : State) (p : Nat) (x : Pool) : (s.setPool p x).jobs = s.jobs := rfl
@[simp] theorem State.setPool_fmSession (s : State) (p : Nat) (x : Pool) : (s.setPool p x).fmSession = s.fmSession := rfl
@[simp] theorem State.setPool_sec (s : State) (p : Nat) (x : Pool) : (s.setPool p x).sec = s.sec := rfl
@[simp] theorem State.setPool_cht (s : State) (p : Nat) (x : Pool) : (s.setPool p x).cht = s.cht := rfl
@[simp] theorem State.setPool_boot (s : State) (p : Nat) (x : Pool) : (s.setPool p x).boot = s.boot := rfl
@[simp] theorem State.setPool_ev (s : State) (p : Nat) (x : Pool) : (s.setPool p x).ev = s.ev := rfl
@[simp] theorem State.setPool_sw (s : State) (p : Nat) (x : Pool) : (s.setPool p x).sw = s.sw := rfl
@[simp] theorem State.setPool_ports (s : State) (p : Nat) (x : Pool) : (s.setPool p x).ports = s.ports := rfl
@[simp] theorem State.setPool_gw (s : State) (p : Nat) (x : Pool) : (s.setPool p x).gw = s.gw := rfl
@[simp] theorem State.setPool_peers (s : State) (p : Nat) (x : Pool) : (s.setPool p x).peers = s.peers := rfl
@[simp] theorem State.setPool_clock (s : State) (p : Nat) (x : Pool) : (s.setPool p x).clock = s.clock := rfl
@[simp] theorem State.setPool_pw (s : State) (p : Nat) (x : Pool) : (s.setPool p x).pw = s.pw := rfl
@[simp] theorem State.setPool_out (s : State) (p : Nat) (x : Pool) : (s.setPool p x).out = s.out := rfl
@[simp] theorem State.setPool_pending (s : State) (p : Nat) (x : Pool) : (s.setPool p x).pending = s.pending := rfl

@[simp] theorem State.setPort_datum (s : State) (p : Nat) (x : Port) : (s.setPort p x).datum = s.datum := rfl
@[simp] theorem State.setPort_free (s : State) (p : Nat) (x : Port) : (s.setPort p x).free = s.free := rfl
@[simp] theorem State.setPort_mem (s : State) (p : Nat) (x : Port) : (s.setPort p x).mem = s.mem := rfl
@[simp] theorem State.setPort_regs (s : State) (p : Nat) (x : Port) : (s.setPort p x).regs = s.regs := rfl
@[simp] theorem State.setPort_ep (s : State) (p : Nat) (x : Port) : (s.setPort p x).ep = s.ep := rfl
@[simp] theorem State.setPort_cores (s : State) (p : Nat) (x : Port) : (s.setPort p x).cores = s.cores := rfl
@[simp] theorem State.setPort_guestOn (s : State) (p : Nat) (x : Port) : (s.setPort p x).guestOn = s.guestOn := rfl
@[simp] theorem State.setPort_movers (s : State) (p : Nat) (x : Port) : (s.setPort p x).movers = s.movers := rfl
@[simp] theorem State.setPort_quant (s : State) (p : Nat) (x : Port) : (s.setPort p x).quant = s.quant := rfl
@[simp] theorem State.setPort_quantHeld (s : State) (p : Nat) (x : Port) : (s.setPort p x).quantHeld = s.quantHeld := rfl
@[simp] theorem State.setPort_hch (s : State) (p : Nat) (x : Port) : (s.setPort p x).hch = s.hch := rfl
@[simp] theorem State.setPort_routing (s : State) (p : Nat) (x : Port) : (s.setPort p x).routing = s.routing := rfl
@[simp] theorem State.setPort_exch (s : State) (p : Nat) (x : Port) : (s.setPort p x).exch = s.exch := rfl
@[simp] theorem State.setPort_surveys (s : State) (p : Nat) (x : Port) : (s.setPort p x).surveys = s.surveys := rfl
@[simp] theorem State.setPort_svyCache (s : State) (p : Nat) (x : Port) : (s.setPort p x).svyCache = s.svyCache := rfl
@[simp] theorem State.setPort_plotRuns (s : State) (p : Nat) (x : Port) : (s.setPort p x).plotRuns = s.plotRuns := rfl
@[simp] theorem State.setPort_deliveries (s : State) (p : Nat) (x : Port) : (s.setPort p x).deliveries = s.deliveries := rfl
@[simp] theorem State.setPort_sheets (s : State) (p : Nat) (x : Port) : (s.setPort p x).sheets = s.sheets := rfl
@[simp] theorem State.setPort_ctxs (s : State) (p : Nat) (x : Port) : (s.setPort p x).ctxs = s.ctxs := rfl
@[simp] theorem State.setPort_sems (s : State) (p : Nat) (x : Port) : (s.setPort p x).sems = s.sems := rfl
@[simp] theorem State.setPort_pools (s : State) (p : Nat) (x : Port) : (s.setPort p x).pools = s.pools := rfl
@[simp] theorem State.setPort_nextReq (s : State) (p : Nat) (x : Port) : (s.setPort p x).nextReq = s.nextReq := rfl
@[simp] theorem State.setPort_marks (s : State) (p : Nat) (x : Port) : (s.setPort p x).marks = s.marks := rfl
@[simp] theorem State.setPort_upsets (s : State) (p : Nat) (x : Port) : (s.setPort p x).upsets = s.upsets := rfl
@[simp] theorem State.setPort_hubs (s : State) (p : Nat) (x : Port) : (s.setPort p x).hubs = s.hubs := rfl
@[simp] theorem State.setPort_coll (s : State) (p : Nat) (x : Port) : (s.setPort p x).coll = s.coll := rfl
@[simp] theorem State.setPort_jobs (s : State) (p : Nat) (x : Port) : (s.setPort p x).jobs = s.jobs := rfl
@[simp] theorem State.setPort_fmSession (s : State) (p : Nat) (x : Port) : (s.setPort p x).fmSession = s.fmSession := rfl
@[simp] theorem State.setPort_sec (s : State) (p : Nat) (x : Port) : (s.setPort p x).sec = s.sec := rfl
@[simp] theorem State.setPort_cht (s : State) (p : Nat) (x : Port) : (s.setPort p x).cht = s.cht := rfl
@[simp] theorem State.setPort_boot (s : State) (p : Nat) (x : Port) : (s.setPort p x).boot = s.boot := rfl
@[simp] theorem State.setPort_ev (s : State) (p : Nat) (x : Port) : (s.setPort p x).ev = s.ev := rfl
@[simp] theorem State.setPort_sw (s : State) (p : Nat) (x : Port) : (s.setPort p x).sw = s.sw := rfl
@[simp] theorem State.setPort_ports (s : State) (p : Nat) (x : Port) : (s.setPort p x).ports = s.ports.put p x := rfl
@[simp] theorem State.setPort_gw (s : State) (p : Nat) (x : Port) : (s.setPort p x).gw = s.gw := rfl
@[simp] theorem State.setPort_peers (s : State) (p : Nat) (x : Port) : (s.setPort p x).peers = s.peers := rfl
@[simp] theorem State.setPort_clock (s : State) (p : Nat) (x : Port) : (s.setPort p x).clock = s.clock := rfl
@[simp] theorem State.setPort_pw (s : State) (p : Nat) (x : Port) : (s.setPort p x).pw = s.pw := rfl
@[simp] theorem State.setPort_out (s : State) (p : Nat) (x : Port) : (s.setPort p x).out = s.out := rfl
@[simp] theorem State.setPort_pending (s : State) (p : Nat) (x : Port) : (s.setPort p x).pending = s.pending := rfl

@[simp] theorem State.setGate_datum (s : State) (p : Nat) (g : Gateway) : (s.setGate p g).datum = s.datum := rfl
@[simp] theorem State.setGate_free (s : State) (p : Nat) (g : Gateway) : (s.setGate p g).free = s.free := rfl
@[simp] theorem State.setGate_mem (s : State) (p : Nat) (g : Gateway) : (s.setGate p g).mem = s.mem := rfl
@[simp] theorem State.setGate_regs (s : State) (p : Nat) (g : Gateway) : (s.setGate p g).regs = s.regs := rfl
@[simp] theorem State.setGate_ep (s : State) (p : Nat) (g : Gateway) : (s.setGate p g).ep = s.ep := rfl
@[simp] theorem State.setGate_cores (s : State) (p : Nat) (g : Gateway) : (s.setGate p g).cores = s.cores := rfl
@[simp] theorem State.setGate_guestOn (s : State) (p : Nat) (g : Gateway) : (s.setGate p g).guestOn = s.guestOn := rfl
@[simp] theorem State.setGate_movers (s : State) (p : Nat) (g : Gateway) : (s.setGate p g).movers = s.movers := rfl
@[simp] theorem State.setGate_quant (s : State) (p : Nat) (g : Gateway) : (s.setGate p g).quant = s.quant := rfl
@[simp] theorem State.setGate_quantHeld (s : State) (p : Nat) (g : Gateway) : (s.setGate p g).quantHeld = s.quantHeld := rfl
@[simp] theorem State.setGate_hch (s : State) (p : Nat) (g : Gateway) : (s.setGate p g).hch = s.hch := rfl
@[simp] theorem State.setGate_routing (s : State) (p : Nat) (g : Gateway) : (s.setGate p g).routing = s.routing := rfl
@[simp] theorem State.setGate_exch (s : State) (p : Nat) (g : Gateway) : (s.setGate p g).exch = s.exch := rfl
@[simp] theorem State.setGate_surveys (s : State) (p : Nat) (g : Gateway) : (s.setGate p g).surveys = s.surveys := rfl
@[simp] theorem State.setGate_svyCache (s : State) (p : Nat) (g : Gateway) : (s.setGate p g).svyCache = s.svyCache := rfl
@[simp] theorem State.setGate_plotRuns (s : State) (p : Nat) (g : Gateway) : (s.setGate p g).plotRuns = s.plotRuns := rfl
@[simp] theorem State.setGate_deliveries (s : State) (p : Nat) (g : Gateway) : (s.setGate p g).deliveries = s.deliveries := rfl
@[simp] theorem State.setGate_sheets (s : State) (p : Nat) (g : Gateway) : (s.setGate p g).sheets = s.sheets := rfl
@[simp] theorem State.setGate_ctxs (s : State) (p : Nat) (g : Gateway) : (s.setGate p g).ctxs = s.ctxs := rfl
@[simp] theorem State.setGate_sems (s : State) (p : Nat) (g : Gateway) : (s.setGate p g).sems = s.sems := rfl
@[simp] theorem State.setGate_pools (s : State) (p : Nat) (g : Gateway) : (s.setGate p g).pools = s.pools := rfl
@[simp] theorem State.setGate_nextReq (s : State) (p : Nat) (g : Gateway) : (s.setGate p g).nextReq = s.nextReq := rfl
@[simp] theorem State.setGate_marks (s : State) (p : Nat) (g : Gateway) : (s.setGate p g).marks = s.marks := rfl
@[simp] theorem State.setGate_upsets (s : State) (p : Nat) (g : Gateway) : (s.setGate p g).upsets = s.upsets := rfl
@[simp] theorem State.setGate_hubs (s : State) (p : Nat) (g : Gateway) : (s.setGate p g).hubs = s.hubs := rfl
@[simp] theorem State.setGate_coll (s : State) (p : Nat) (g : Gateway) : (s.setGate p g).coll = s.coll := rfl
@[simp] theorem State.setGate_jobs (s : State) (p : Nat) (g : Gateway) : (s.setGate p g).jobs = s.jobs := rfl
@[simp] theorem State.setGate_fmSession (s : State) (p : Nat) (g : Gateway) : (s.setGate p g).fmSession = s.fmSession := rfl
@[simp] theorem State.setGate_sec (s : State) (p : Nat) (g : Gateway) : (s.setGate p g).sec = s.sec := rfl
@[simp] theorem State.setGate_cht (s : State) (p : Nat) (g : Gateway) : (s.setGate p g).cht = s.cht := rfl
@[simp] theorem State.setGate_boot (s : State) (p : Nat) (g : Gateway) : (s.setGate p g).boot = s.boot := rfl
@[simp] theorem State.setGate_ev (s : State) (p : Nat) (g : Gateway) : (s.setGate p g).ev = s.ev := rfl
@[simp] theorem State.setGate_sw (s : State) (p : Nat) (g : Gateway) : (s.setGate p g).sw = s.sw := rfl
@[simp] theorem State.setGate_ports (s : State) (p : Nat) (g : Gateway) : (s.setGate p g).ports = s.ports := rfl
@[simp] theorem State.setGate_gw (s : State) (p : Nat) (g : Gateway) : (s.setGate p g).gw = s.gw.put p g := rfl
@[simp] theorem State.setGate_peers (s : State) (p : Nat) (g : Gateway) : (s.setGate p g).peers = s.peers := rfl
@[simp] theorem State.setGate_clock (s : State) (p : Nat) (g : Gateway) : (s.setGate p g).clock = s.clock := rfl
@[simp] theorem State.setGate_pw (s : State) (p : Nat) (g : Gateway) : (s.setGate p g).pw = s.pw := rfl
@[simp] theorem State.setGate_out (s : State) (p : Nat) (g : Gateway) : (s.setGate p g).out = s.out := rfl
@[simp] theorem State.setGate_pending (s : State) (p : Nat) (g : Gateway) : (s.setGate p g).pending = s.pending := rfl

@[simp] theorem State.setExch_datum (s : State) (i : Nat) (x : Exch) : (s.setExch i x).datum = s.datum := rfl
@[simp] theorem State.setExch_free (s : State) (i : Nat) (x : Exch) : (s.setExch i x).free = s.free := rfl
@[simp] theorem State.setExch_mem (s : State) (i : Nat) (x : Exch) : (s.setExch i x).mem = s.mem := rfl
@[simp] theorem State.setExch_regs (s : State) (i : Nat) (x : Exch) : (s.setExch i x).regs = s.regs := rfl
@[simp] theorem State.setExch_ep (s : State) (i : Nat) (x : Exch) : (s.setExch i x).ep = s.ep := rfl
@[simp] theorem State.setExch_cores (s : State) (i : Nat) (x : Exch) : (s.setExch i x).cores = s.cores := rfl
@[simp] theorem State.setExch_guestOn (s : State) (i : Nat) (x : Exch) : (s.setExch i x).guestOn = s.guestOn := rfl
@[simp] theorem State.setExch_movers (s : State) (i : Nat) (x : Exch) : (s.setExch i x).movers = s.movers := rfl
@[simp] theorem State.setExch_quant (s : State) (i : Nat) (x : Exch) : (s.setExch i x).quant = s.quant := rfl
@[simp] theorem State.setExch_quantHeld (s : State) (i : Nat) (x : Exch) : (s.setExch i x).quantHeld = s.quantHeld := rfl
@[simp] theorem State.setExch_hch (s : State) (i : Nat) (x : Exch) : (s.setExch i x).hch = s.hch := rfl
@[simp] theorem State.setExch_routing (s : State) (i : Nat) (x : Exch) : (s.setExch i x).routing = s.routing := rfl
@[simp] theorem State.setExch_exch (s : State) (i : Nat) (x : Exch) : (s.setExch i x).exch = s.exch.put i x := rfl
@[simp] theorem State.setExch_surveys (s : State) (i : Nat) (x : Exch) : (s.setExch i x).surveys = s.surveys := rfl
@[simp] theorem State.setExch_svyCache (s : State) (i : Nat) (x : Exch) : (s.setExch i x).svyCache = s.svyCache := rfl
@[simp] theorem State.setExch_plotRuns (s : State) (i : Nat) (x : Exch) : (s.setExch i x).plotRuns = s.plotRuns := rfl
@[simp] theorem State.setExch_deliveries (s : State) (i : Nat) (x : Exch) : (s.setExch i x).deliveries = s.deliveries := rfl
@[simp] theorem State.setExch_sheets (s : State) (i : Nat) (x : Exch) : (s.setExch i x).sheets = s.sheets := rfl
@[simp] theorem State.setExch_ctxs (s : State) (i : Nat) (x : Exch) : (s.setExch i x).ctxs = s.ctxs := rfl
@[simp] theorem State.setExch_sems (s : State) (i : Nat) (x : Exch) : (s.setExch i x).sems = s.sems := rfl
@[simp] theorem State.setExch_pools (s : State) (i : Nat) (x : Exch) : (s.setExch i x).pools = s.pools := rfl
@[simp] theorem State.setExch_nextReq (s : State) (i : Nat) (x : Exch) : (s.setExch i x).nextReq = s.nextReq := rfl
@[simp] theorem State.setExch_marks (s : State) (i : Nat) (x : Exch) : (s.setExch i x).marks = s.marks := rfl
@[simp] theorem State.setExch_upsets (s : State) (i : Nat) (x : Exch) : (s.setExch i x).upsets = s.upsets := rfl
@[simp] theorem State.setExch_hubs (s : State) (i : Nat) (x : Exch) : (s.setExch i x).hubs = s.hubs := rfl
@[simp] theorem State.setExch_coll (s : State) (i : Nat) (x : Exch) : (s.setExch i x).coll = s.coll := rfl
@[simp] theorem State.setExch_jobs (s : State) (i : Nat) (x : Exch) : (s.setExch i x).jobs = s.jobs := rfl
@[simp] theorem State.setExch_fmSession (s : State) (i : Nat) (x : Exch) : (s.setExch i x).fmSession = s.fmSession := rfl
@[simp] theorem State.setExch_sec (s : State) (i : Nat) (x : Exch) : (s.setExch i x).sec = s.sec := rfl
@[simp] theorem State.setExch_cht (s : State) (i : Nat) (x : Exch) : (s.setExch i x).cht = s.cht := rfl
@[simp] theorem State.setExch_boot (s : State) (i : Nat) (x : Exch) : (s.setExch i x).boot = s.boot := rfl
@[simp] theorem State.setExch_ev (s : State) (i : Nat) (x : Exch) : (s.setExch i x).ev = s.ev := rfl
@[simp] theorem State.setExch_sw (s : State) (i : Nat) (x : Exch) : (s.setExch i x).sw = s.sw := rfl
@[simp] theorem State.setExch_ports (s : State) (i : Nat) (x : Exch) : (s.setExch i x).ports = s.ports := rfl
@[simp] theorem State.setExch_gw (s : State) (i : Nat) (x : Exch) : (s.setExch i x).gw = s.gw := rfl
@[simp] theorem State.setExch_peers (s : State) (i : Nat) (x : Exch) : (s.setExch i x).peers = s.peers := rfl
@[simp] theorem State.setExch_clock (s : State) (i : Nat) (x : Exch) : (s.setExch i x).clock = s.clock := rfl
@[simp] theorem State.setExch_pw (s : State) (i : Nat) (x : Exch) : (s.setExch i x).pw = s.pw := rfl
@[simp] theorem State.setExch_out (s : State) (i : Nat) (x : Exch) : (s.setExch i x).out = s.out := rfl
@[simp] theorem State.setExch_pending (s : State) (i : Nat) (x : Exch) : (s.setExch i x).pending = s.pending := rfl

@[simp] theorem State.setRouting_datum (s : State) (i : Nat) (r : Routing) : (s.setRouting i r).datum = s.datum := rfl
@[simp] theorem State.setRouting_free (s : State) (i : Nat) (r : Routing) : (s.setRouting i r).free = s.free := rfl
@[simp] theorem State.setRouting_mem (s : State) (i : Nat) (r : Routing) : (s.setRouting i r).mem = s.mem := rfl
@[simp] theorem State.setRouting_regs (s : State) (i : Nat) (r : Routing) : (s.setRouting i r).regs = s.regs := rfl
@[simp] theorem State.setRouting_ep (s : State) (i : Nat) (r : Routing) : (s.setRouting i r).ep = s.ep := rfl
@[simp] theorem State.setRouting_cores (s : State) (i : Nat) (r : Routing) : (s.setRouting i r).cores = s.cores := rfl
@[simp] theorem State.setRouting_guestOn (s : State) (i : Nat) (r : Routing) : (s.setRouting i r).guestOn = s.guestOn := rfl
@[simp] theorem State.setRouting_movers (s : State) (i : Nat) (r : Routing) : (s.setRouting i r).movers = s.movers := rfl
@[simp] theorem State.setRouting_quant (s : State) (i : Nat) (r : Routing) : (s.setRouting i r).quant = s.quant := rfl
@[simp] theorem State.setRouting_quantHeld (s : State) (i : Nat) (r : Routing) : (s.setRouting i r).quantHeld = s.quantHeld := rfl
@[simp] theorem State.setRouting_hch (s : State) (i : Nat) (r : Routing) : (s.setRouting i r).hch = s.hch := rfl
@[simp] theorem State.setRouting_routing (s : State) (i : Nat) (r : Routing) : (s.setRouting i r).routing = s.routing.put i r := rfl
@[simp] theorem State.setRouting_exch (s : State) (i : Nat) (r : Routing) : (s.setRouting i r).exch = s.exch := rfl
@[simp] theorem State.setRouting_surveys (s : State) (i : Nat) (r : Routing) : (s.setRouting i r).surveys = s.surveys := rfl
@[simp] theorem State.setRouting_svyCache (s : State) (i : Nat) (r : Routing) : (s.setRouting i r).svyCache = s.svyCache := rfl
@[simp] theorem State.setRouting_plotRuns (s : State) (i : Nat) (r : Routing) : (s.setRouting i r).plotRuns = s.plotRuns := rfl
@[simp] theorem State.setRouting_deliveries (s : State) (i : Nat) (r : Routing) : (s.setRouting i r).deliveries = s.deliveries := rfl
@[simp] theorem State.setRouting_sheets (s : State) (i : Nat) (r : Routing) : (s.setRouting i r).sheets = s.sheets := rfl
@[simp] theorem State.setRouting_ctxs (s : State) (i : Nat) (r : Routing) : (s.setRouting i r).ctxs = s.ctxs := rfl
@[simp] theorem State.setRouting_sems (s : State) (i : Nat) (r : Routing) : (s.setRouting i r).sems = s.sems := rfl
@[simp] theorem State.setRouting_pools (s : State) (i : Nat) (r : Routing) : (s.setRouting i r).pools = s.pools := rfl
@[simp] theorem State.setRouting_nextReq (s : State) (i : Nat) (r : Routing) : (s.setRouting i r).nextReq = s.nextReq := rfl
@[simp] theorem State.setRouting_marks (s : State) (i : Nat) (r : Routing) : (s.setRouting i r).marks = s.marks := rfl
@[simp] theorem State.setRouting_upsets (s : State) (i : Nat) (r : Routing) : (s.setRouting i r).upsets = s.upsets := rfl
@[simp] theorem State.setRouting_hubs (s : State) (i : Nat) (r : Routing) : (s.setRouting i r).hubs = s.hubs := rfl
@[simp] theorem State.setRouting_coll (s : State) (i : Nat) (r : Routing) : (s.setRouting i r).coll = s.coll := rfl
@[simp] theorem State.setRouting_jobs (s : State) (i : Nat) (r : Routing) : (s.setRouting i r).jobs = s.jobs := rfl
@[simp] theorem State.setRouting_fmSession (s : State) (i : Nat) (r : Routing) : (s.setRouting i r).fmSession = s.fmSession := rfl
@[simp] theorem State.setRouting_sec (s : State) (i : Nat) (r : Routing) : (s.setRouting i r).sec = s.sec := rfl
@[simp] theorem State.setRouting_cht (s : State) (i : Nat) (r : Routing) : (s.setRouting i r).cht = s.cht := rfl
@[simp] theorem State.setRouting_boot (s : State) (i : Nat) (r : Routing) : (s.setRouting i r).boot = s.boot := rfl
@[simp] theorem State.setRouting_ev (s : State) (i : Nat) (r : Routing) : (s.setRouting i r).ev = s.ev := rfl
@[simp] theorem State.setRouting_sw (s : State) (i : Nat) (r : Routing) : (s.setRouting i r).sw = s.sw := rfl
@[simp] theorem State.setRouting_ports (s : State) (i : Nat) (r : Routing) : (s.setRouting i r).ports = s.ports := rfl
@[simp] theorem State.setRouting_gw (s : State) (i : Nat) (r : Routing) : (s.setRouting i r).gw = s.gw := rfl
@[simp] theorem State.setRouting_peers (s : State) (i : Nat) (r : Routing) : (s.setRouting i r).peers = s.peers := rfl
@[simp] theorem State.setRouting_clock (s : State) (i : Nat) (r : Routing) : (s.setRouting i r).clock = s.clock := rfl
@[simp] theorem State.setRouting_pw (s : State) (i : Nat) (r : Routing) : (s.setRouting i r).pw = s.pw := rfl
@[simp] theorem State.setRouting_out (s : State) (i : Nat) (r : Routing) : (s.setRouting i r).out = s.out := rfl
@[simp] theorem State.setRouting_pending (s : State) (i : Nat) (r : Routing) : (s.setRouting i r).pending = s.pending := rfl

@[simp] theorem State.setSrc_datum (s : State) (x : Source) (v : SrcState) : (s.setSrc x v).datum = s.datum := rfl
@[simp] theorem State.setSrc_free (s : State) (x : Source) (v : SrcState) : (s.setSrc x v).free = s.free := rfl
@[simp] theorem State.setSrc_mem (s : State) (x : Source) (v : SrcState) : (s.setSrc x v).mem = s.mem := rfl
@[simp] theorem State.setSrc_regs (s : State) (x : Source) (v : SrcState) : (s.setSrc x v).regs = s.regs := rfl
@[simp] theorem State.setSrc_ep (s : State) (x : Source) (v : SrcState) : (s.setSrc x v).ep = s.ep := rfl
@[simp] theorem State.setSrc_cores (s : State) (x : Source) (v : SrcState) : (s.setSrc x v).cores = s.cores := rfl
@[simp] theorem State.setSrc_guestOn (s : State) (x : Source) (v : SrcState) : (s.setSrc x v).guestOn = s.guestOn := rfl
@[simp] theorem State.setSrc_movers (s : State) (x : Source) (v : SrcState) : (s.setSrc x v).movers = s.movers := rfl
@[simp] theorem State.setSrc_quant (s : State) (x : Source) (v : SrcState) : (s.setSrc x v).quant = s.quant := rfl
@[simp] theorem State.setSrc_quantHeld (s : State) (x : Source) (v : SrcState) : (s.setSrc x v).quantHeld = s.quantHeld := rfl
@[simp] theorem State.setSrc_hch (s : State) (x : Source) (v : SrcState) : (s.setSrc x v).hch = s.hch := rfl
@[simp] theorem State.setSrc_routing (s : State) (x : Source) (v : SrcState) : (s.setSrc x v).routing = s.routing := rfl
@[simp] theorem State.setSrc_exch (s : State) (x : Source) (v : SrcState) : (s.setSrc x v).exch = s.exch := rfl
@[simp] theorem State.setSrc_surveys (s : State) (x : Source) (v : SrcState) : (s.setSrc x v).surveys = s.surveys := rfl
@[simp] theorem State.setSrc_svyCache (s : State) (x : Source) (v : SrcState) : (s.setSrc x v).svyCache = s.svyCache := rfl
@[simp] theorem State.setSrc_plotRuns (s : State) (x : Source) (v : SrcState) : (s.setSrc x v).plotRuns = s.plotRuns := rfl
@[simp] theorem State.setSrc_deliveries (s : State) (x : Source) (v : SrcState) : (s.setSrc x v).deliveries = s.deliveries := rfl
@[simp] theorem State.setSrc_sheets (s : State) (x : Source) (v : SrcState) : (s.setSrc x v).sheets = s.sheets := rfl
@[simp] theorem State.setSrc_ctxs (s : State) (x : Source) (v : SrcState) : (s.setSrc x v).ctxs = s.ctxs := rfl
@[simp] theorem State.setSrc_sems (s : State) (x : Source) (v : SrcState) : (s.setSrc x v).sems = s.sems := rfl
@[simp] theorem State.setSrc_pools (s : State) (x : Source) (v : SrcState) : (s.setSrc x v).pools = s.pools := rfl
@[simp] theorem State.setSrc_nextReq (s : State) (x : Source) (v : SrcState) : (s.setSrc x v).nextReq = s.nextReq := rfl
@[simp] theorem State.setSrc_marks (s : State) (x : Source) (v : SrcState) : (s.setSrc x v).marks = s.marks := rfl
@[simp] theorem State.setSrc_upsets (s : State) (x : Source) (v : SrcState) : (s.setSrc x v).upsets = s.upsets := rfl
@[simp] theorem State.setSrc_hubs (s : State) (x : Source) (v : SrcState) : (s.setSrc x v).hubs = s.hubs := rfl
@[simp] theorem State.setSrc_coll (s : State) (x : Source) (v : SrcState) : (s.setSrc x v).coll = s.coll := rfl
@[simp] theorem State.setSrc_jobs (s : State) (x : Source) (v : SrcState) : (s.setSrc x v).jobs = s.jobs := rfl
@[simp] theorem State.setSrc_fmSession (s : State) (x : Source) (v : SrcState) : (s.setSrc x v).fmSession = s.fmSession := rfl
@[simp] theorem State.setSrc_sec (s : State) (x : Source) (v : SrcState) : (s.setSrc x v).sec = s.sec := rfl
@[simp] theorem State.setSrc_cht (s : State) (x : Source) (v : SrcState) : (s.setSrc x v).cht = { s.cht with srcs := s.cht.srcs.put x v } := rfl
@[simp] theorem State.setSrc_boot (s : State) (x : Source) (v : SrcState) : (s.setSrc x v).boot = s.boot := rfl
@[simp] theorem State.setSrc_ev (s : State) (x : Source) (v : SrcState) : (s.setSrc x v).ev = s.ev := rfl
@[simp] theorem State.setSrc_sw (s : State) (x : Source) (v : SrcState) : (s.setSrc x v).sw = s.sw := rfl
@[simp] theorem State.setSrc_ports (s : State) (x : Source) (v : SrcState) : (s.setSrc x v).ports = s.ports := rfl
@[simp] theorem State.setSrc_gw (s : State) (x : Source) (v : SrcState) : (s.setSrc x v).gw = s.gw := rfl
@[simp] theorem State.setSrc_peers (s : State) (x : Source) (v : SrcState) : (s.setSrc x v).peers = s.peers := rfl
@[simp] theorem State.setSrc_clock (s : State) (x : Source) (v : SrcState) : (s.setSrc x v).clock = s.clock := rfl
@[simp] theorem State.setSrc_pw (s : State) (x : Source) (v : SrcState) : (s.setSrc x v).pw = s.pw := rfl
@[simp] theorem State.setSrc_out (s : State) (x : Source) (v : SrcState) : (s.setSrc x v).out = s.out := rfl
@[simp] theorem State.setSrc_pending (s : State) (x : Source) (v : SrcState) : (s.setSrc x v).pending = s.pending := rfl

@[simp] theorem State.setRx_datum (s : State) (k : RxKey) (x : RxStream) : (s.setRx k x).datum = s.datum := rfl
@[simp] theorem State.setRx_free (s : State) (k : RxKey) (x : RxStream) : (s.setRx k x).free = s.free := rfl
@[simp] theorem State.setRx_mem (s : State) (k : RxKey) (x : RxStream) : (s.setRx k x).mem = s.mem := rfl
@[simp] theorem State.setRx_regs (s : State) (k : RxKey) (x : RxStream) : (s.setRx k x).regs = s.regs := rfl
@[simp] theorem State.setRx_ep (s : State) (k : RxKey) (x : RxStream) : (s.setRx k x).ep = { s.ep with rx := s.ep.rx.put k x } := rfl
@[simp] theorem State.setRx_cores (s : State) (k : RxKey) (x : RxStream) : (s.setRx k x).cores = s.cores := rfl
@[simp] theorem State.setRx_guestOn (s : State) (k : RxKey) (x : RxStream) : (s.setRx k x).guestOn = s.guestOn := rfl
@[simp] theorem State.setRx_movers (s : State) (k : RxKey) (x : RxStream) : (s.setRx k x).movers = s.movers := rfl
@[simp] theorem State.setRx_quant (s : State) (k : RxKey) (x : RxStream) : (s.setRx k x).quant = s.quant := rfl
@[simp] theorem State.setRx_quantHeld (s : State) (k : RxKey) (x : RxStream) : (s.setRx k x).quantHeld = s.quantHeld := rfl
@[simp] theorem State.setRx_hch (s : State) (k : RxKey) (x : RxStream) : (s.setRx k x).hch = s.hch := rfl
@[simp] theorem State.setRx_routing (s : State) (k : RxKey) (x : RxStream) : (s.setRx k x).routing = s.routing := rfl
@[simp] theorem State.setRx_exch (s : State) (k : RxKey) (x : RxStream) : (s.setRx k x).exch = s.exch := rfl
@[simp] theorem State.setRx_surveys (s : State) (k : RxKey) (x : RxStream) : (s.setRx k x).surveys = s.surveys := rfl
@[simp] theorem State.setRx_svyCache (s : State) (k : RxKey) (x : RxStream) : (s.setRx k x).svyCache = s.svyCache := rfl
@[simp] theorem State.setRx_plotRuns (s : State) (k : RxKey) (x : RxStream) : (s.setRx k x).plotRuns = s.plotRuns := rfl
@[simp] theorem State.setRx_deliveries (s : State) (k : RxKey) (x : RxStream) : (s.setRx k x).deliveries = s.deliveries := rfl
@[simp] theorem State.setRx_sheets (s : State) (k : RxKey) (x : RxStream) : (s.setRx k x).sheets = s.sheets := rfl
@[simp] theorem State.setRx_ctxs (s : State) (k : RxKey) (x : RxStream) : (s.setRx k x).ctxs = s.ctxs := rfl
@[simp] theorem State.setRx_sems (s : State) (k : RxKey) (x : RxStream) : (s.setRx k x).sems = s.sems := rfl
@[simp] theorem State.setRx_pools (s : State) (k : RxKey) (x : RxStream) : (s.setRx k x).pools = s.pools := rfl
@[simp] theorem State.setRx_nextReq (s : State) (k : RxKey) (x : RxStream) : (s.setRx k x).nextReq = s.nextReq := rfl
@[simp] theorem State.setRx_marks (s : State) (k : RxKey) (x : RxStream) : (s.setRx k x).marks = s.marks := rfl
@[simp] theorem State.setRx_upsets (s : State) (k : RxKey) (x : RxStream) : (s.setRx k x).upsets = s.upsets := rfl
@[simp] theorem State.setRx_hubs (s : State) (k : RxKey) (x : RxStream) : (s.setRx k x).hubs = s.hubs := rfl
@[simp] theorem State.setRx_coll (s : State) (k : RxKey) (x : RxStream) : (s.setRx k x).coll = s.coll := rfl
@[simp] theorem State.setRx_jobs (s : State) (k : RxKey) (x : RxStream) : (s.setRx k x).jobs = s.jobs := rfl
@[simp] theorem State.setRx_fmSession (s : State) (k : RxKey) (x : RxStream) : (s.setRx k x).fmSession = s.fmSession := rfl
@[simp] theorem State.setRx_sec (s : State) (k : RxKey) (x : RxStream) : (s.setRx k x).sec = s.sec := rfl
@[simp] theorem State.setRx_cht (s : State) (k : RxKey) (x : RxStream) : (s.setRx k x).cht = s.cht := rfl
@[simp] theorem State.setRx_boot (s : State) (k : RxKey) (x : RxStream) : (s.setRx k x).boot = s.boot := rfl
@[simp] theorem State.setRx_ev (s : State) (k : RxKey) (x : RxStream) : (s.setRx k x).ev = s.ev := rfl
@[simp] theorem State.setRx_sw (s : State) (k : RxKey) (x : RxStream) : (s.setRx k x).sw = s.sw := rfl
@[simp] theorem State.setRx_ports (s : State) (k : RxKey) (x : RxStream) : (s.setRx k x).ports = s.ports := rfl
@[simp] theorem State.setRx_gw (s : State) (k : RxKey) (x : RxStream) : (s.setRx k x).gw = s.gw := rfl
@[simp] theorem State.setRx_peers (s : State) (k : RxKey) (x : RxStream) : (s.setRx k x).peers = s.peers := rfl
@[simp] theorem State.setRx_clock (s : State) (k : RxKey) (x : RxStream) : (s.setRx k x).clock = s.clock := rfl
@[simp] theorem State.setRx_pw (s : State) (k : RxKey) (x : RxStream) : (s.setRx k x).pw = s.pw := rfl
@[simp] theorem State.setRx_out (s : State) (k : RxKey) (x : RxStream) : (s.setRx k x).out = s.out := rfl
@[simp] theorem State.setRx_pending (s : State) (k : RxKey) (x : RxStream) : (s.setRx k x).pending = s.pending := rfl

@[simp] theorem State.setStream_datum (s : State) (k : StreamKey) (x : Stream) : (s.setStream k x).datum = s.datum := rfl
@[simp] theorem State.setStream_free (s : State) (k : StreamKey) (x : Stream) : (s.setStream k x).free = s.free := rfl
@[simp] theorem State.setStream_mem (s : State) (k : StreamKey) (x : Stream) : (s.setStream k x).mem = s.mem := rfl
@[simp] theorem State.setStream_regs (s : State) (k : StreamKey) (x : Stream) : (s.setStream k x).regs = s.regs := rfl
@[simp] theorem State.setStream_ep (s : State) (k : StreamKey) (x : Stream) : (s.setStream k x).ep = { s.ep with streams := s.ep.streams.put k x } := rfl
@[simp] theorem State.setStream_cores (s : State) (k : StreamKey) (x : Stream) : (s.setStream k x).cores = s.cores := rfl
@[simp] theorem State.setStream_guestOn (s : State) (k : StreamKey) (x : Stream) : (s.setStream k x).guestOn = s.guestOn := rfl
@[simp] theorem State.setStream_movers (s : State) (k : StreamKey) (x : Stream) : (s.setStream k x).movers = s.movers := rfl
@[simp] theorem State.setStream_quant (s : State) (k : StreamKey) (x : Stream) : (s.setStream k x).quant = s.quant := rfl
@[simp] theorem State.setStream_quantHeld (s : State) (k : StreamKey) (x : Stream) : (s.setStream k x).quantHeld = s.quantHeld := rfl
@[simp] theorem State.setStream_hch (s : State) (k : StreamKey) (x : Stream) : (s.setStream k x).hch = s.hch := rfl
@[simp] theorem State.setStream_routing (s : State) (k : StreamKey) (x : Stream) : (s.setStream k x).routing = s.routing := rfl
@[simp] theorem State.setStream_exch (s : State) (k : StreamKey) (x : Stream) : (s.setStream k x).exch = s.exch := rfl
@[simp] theorem State.setStream_surveys (s : State) (k : StreamKey) (x : Stream) : (s.setStream k x).surveys = s.surveys := rfl
@[simp] theorem State.setStream_svyCache (s : State) (k : StreamKey) (x : Stream) : (s.setStream k x).svyCache = s.svyCache := rfl
@[simp] theorem State.setStream_plotRuns (s : State) (k : StreamKey) (x : Stream) : (s.setStream k x).plotRuns = s.plotRuns := rfl
@[simp] theorem State.setStream_deliveries (s : State) (k : StreamKey) (x : Stream) : (s.setStream k x).deliveries = s.deliveries := rfl
@[simp] theorem State.setStream_sheets (s : State) (k : StreamKey) (x : Stream) : (s.setStream k x).sheets = s.sheets := rfl
@[simp] theorem State.setStream_ctxs (s : State) (k : StreamKey) (x : Stream) : (s.setStream k x).ctxs = s.ctxs := rfl
@[simp] theorem State.setStream_sems (s : State) (k : StreamKey) (x : Stream) : (s.setStream k x).sems = s.sems := rfl
@[simp] theorem State.setStream_pools (s : State) (k : StreamKey) (x : Stream) : (s.setStream k x).pools = s.pools := rfl
@[simp] theorem State.setStream_nextReq (s : State) (k : StreamKey) (x : Stream) : (s.setStream k x).nextReq = s.nextReq := rfl
@[simp] theorem State.setStream_marks (s : State) (k : StreamKey) (x : Stream) : (s.setStream k x).marks = s.marks := rfl
@[simp] theorem State.setStream_upsets (s : State) (k : StreamKey) (x : Stream) : (s.setStream k x).upsets = s.upsets := rfl
@[simp] theorem State.setStream_hubs (s : State) (k : StreamKey) (x : Stream) : (s.setStream k x).hubs = s.hubs := rfl
@[simp] theorem State.setStream_coll (s : State) (k : StreamKey) (x : Stream) : (s.setStream k x).coll = s.coll := rfl
@[simp] theorem State.setStream_jobs (s : State) (k : StreamKey) (x : Stream) : (s.setStream k x).jobs = s.jobs := rfl
@[simp] theorem State.setStream_fmSession (s : State) (k : StreamKey) (x : Stream) : (s.setStream k x).fmSession = s.fmSession := rfl
@[simp] theorem State.setStream_sec (s : State) (k : StreamKey) (x : Stream) : (s.setStream k x).sec = s.sec := rfl
@[simp] theorem State.setStream_cht (s : State) (k : StreamKey) (x : Stream) : (s.setStream k x).cht = s.cht := rfl
@[simp] theorem State.setStream_boot (s : State) (k : StreamKey) (x : Stream) : (s.setStream k x).boot = s.boot := rfl
@[simp] theorem State.setStream_ev (s : State) (k : StreamKey) (x : Stream) : (s.setStream k x).ev = s.ev := rfl
@[simp] theorem State.setStream_sw (s : State) (k : StreamKey) (x : Stream) : (s.setStream k x).sw = s.sw := rfl
@[simp] theorem State.setStream_ports (s : State) (k : StreamKey) (x : Stream) : (s.setStream k x).ports = s.ports := rfl
@[simp] theorem State.setStream_gw (s : State) (k : StreamKey) (x : Stream) : (s.setStream k x).gw = s.gw := rfl
@[simp] theorem State.setStream_peers (s : State) (k : StreamKey) (x : Stream) : (s.setStream k x).peers = s.peers := rfl
@[simp] theorem State.setStream_clock (s : State) (k : StreamKey) (x : Stream) : (s.setStream k x).clock = s.clock := rfl
@[simp] theorem State.setStream_pw (s : State) (k : StreamKey) (x : Stream) : (s.setStream k x).pw = s.pw := rfl
@[simp] theorem State.setStream_out (s : State) (k : StreamKey) (x : Stream) : (s.setStream k x).out = s.out := rfl
@[simp] theorem State.setStream_pending (s : State) (k : StreamKey) (x : Stream) : (s.setStream k x).pending = s.pending := rfl

@[simp] theorem State.setLines_datum (s : State) (l : List RlcLine) : (s.setLines l).datum = s.datum := rfl
@[simp] theorem State.setLines_free (s : State) (l : List RlcLine) : (s.setLines l).free = s.free := rfl
@[simp] theorem State.setLines_mem (s : State) (l : List RlcLine) : (s.setLines l).mem = s.mem := rfl
@[simp] theorem State.setLines_regs (s : State) (l : List RlcLine) : (s.setLines l).regs = s.regs := rfl
@[simp] theorem State.setLines_ep (s : State) (l : List RlcLine) : (s.setLines l).ep = { s.ep with lines := l } := rfl
@[simp] theorem State.setLines_cores (s : State) (l : List RlcLine) : (s.setLines l).cores = s.cores := rfl
@[simp] theorem State.setLines_guestOn (s : State) (l : List RlcLine) : (s.setLines l).guestOn = s.guestOn := rfl
@[simp] theorem State.setLines_movers (s : State) (l : List RlcLine) : (s.setLines l).movers = s.movers := rfl
@[simp] theorem State.setLines_quant (s : State) (l : List RlcLine) : (s.setLines l).quant = s.quant := rfl
@[simp] theorem State.setLines_quantHeld (s : State) (l : List RlcLine) : (s.setLines l).quantHeld = s.quantHeld := rfl
@[simp] theorem State.setLines_hch (s : State) (l : List RlcLine) : (s.setLines l).hch = s.hch := rfl
@[simp] theorem State.setLines_routing (s : State) (l : List RlcLine) : (s.setLines l).routing = s.routing := rfl
@[simp] theorem State.setLines_exch (s : State) (l : List RlcLine) : (s.setLines l).exch = s.exch := rfl
@[simp] theorem State.setLines_surveys (s : State) (l : List RlcLine) : (s.setLines l).surveys = s.surveys := rfl
@[simp] theorem State.setLines_svyCache (s : State) (l : List RlcLine) : (s.setLines l).svyCache = s.svyCache := rfl
@[simp] theorem State.setLines_plotRuns (s : State) (l : List RlcLine) : (s.setLines l).plotRuns = s.plotRuns := rfl
@[simp] theorem State.setLines_deliveries (s : State) (l : List RlcLine) : (s.setLines l).deliveries = s.deliveries := rfl
@[simp] theorem State.setLines_sheets (s : State) (l : List RlcLine) : (s.setLines l).sheets = s.sheets := rfl
@[simp] theorem State.setLines_ctxs (s : State) (l : List RlcLine) : (s.setLines l).ctxs = s.ctxs := rfl
@[simp] theorem State.setLines_sems (s : State) (l : List RlcLine) : (s.setLines l).sems = s.sems := rfl
@[simp] theorem State.setLines_pools (s : State) (l : List RlcLine) : (s.setLines l).pools = s.pools := rfl
@[simp] theorem State.setLines_nextReq (s : State) (l : List RlcLine) : (s.setLines l).nextReq = s.nextReq := rfl
@[simp] theorem State.setLines_marks (s : State) (l : List RlcLine) : (s.setLines l).marks = s.marks := rfl
@[simp] theorem State.setLines_upsets (s : State) (l : List RlcLine) : (s.setLines l).upsets = s.upsets := rfl
@[simp] theorem State.setLines_hubs (s : State) (l : List RlcLine) : (s.setLines l).hubs = s.hubs := rfl
@[simp] theorem State.setLines_coll (s : State) (l : List RlcLine) : (s.setLines l).coll = s.coll := rfl
@[simp] theorem State.setLines_jobs (s : State) (l : List RlcLine) : (s.setLines l).jobs = s.jobs := rfl
@[simp] theorem State.setLines_fmSession (s : State) (l : List RlcLine) : (s.setLines l).fmSession = s.fmSession := rfl
@[simp] theorem State.setLines_sec (s : State) (l : List RlcLine) : (s.setLines l).sec = s.sec := rfl
@[simp] theorem State.setLines_cht (s : State) (l : List RlcLine) : (s.setLines l).cht = s.cht := rfl
@[simp] theorem State.setLines_boot (s : State) (l : List RlcLine) : (s.setLines l).boot = s.boot := rfl
@[simp] theorem State.setLines_ev (s : State) (l : List RlcLine) : (s.setLines l).ev = s.ev := rfl
@[simp] theorem State.setLines_sw (s : State) (l : List RlcLine) : (s.setLines l).sw = s.sw := rfl
@[simp] theorem State.setLines_ports (s : State) (l : List RlcLine) : (s.setLines l).ports = s.ports := rfl
@[simp] theorem State.setLines_gw (s : State) (l : List RlcLine) : (s.setLines l).gw = s.gw := rfl
@[simp] theorem State.setLines_peers (s : State) (l : List RlcLine) : (s.setLines l).peers = s.peers := rfl
@[simp] theorem State.setLines_clock (s : State) (l : List RlcLine) : (s.setLines l).clock = s.clock := rfl
@[simp] theorem State.setLines_pw (s : State) (l : List RlcLine) : (s.setLines l).pw = s.pw := rfl
@[simp] theorem State.setLines_out (s : State) (l : List RlcLine) : (s.setLines l).out = s.out := rfl
@[simp] theorem State.setLines_pending (s : State) (l : List RlcLine) : (s.setLines l).pending = s.pending := rfl

@[simp] theorem State.setStack_datum (s : State) (h : Nat) (x : Stack) : (s.setStack h x).datum = s.datum := rfl
@[simp] theorem State.setStack_free (s : State) (h : Nat) (x : Stack) : (s.setStack h x).free = s.free := rfl
@[simp] theorem State.setStack_mem (s : State) (h : Nat) (x : Stack) : (s.setStack h x).mem = s.mem := rfl
@[simp] theorem State.setStack_regs (s : State) (h : Nat) (x : Stack) : (s.setStack h x).regs = s.regs := rfl
@[simp] theorem State.setStack_ep (s : State) (h : Nat) (x : Stack) : (s.setStack h x).ep = s.ep := rfl
@[simp] theorem State.setStack_cores (s : State) (h : Nat) (x : Stack) : (s.setStack h x).cores = s.cores := rfl
@[simp] theorem State.setStack_guestOn (s : State) (h : Nat) (x : Stack) : (s.setStack h x).guestOn = s.guestOn := rfl
@[simp] theorem State.setStack_movers (s : State) (h : Nat) (x : Stack) : (s.setStack h x).movers = s.movers := rfl
@[simp] theorem State.setStack_quant (s : State) (h : Nat) (x : Stack) : (s.setStack h x).quant = s.quant := rfl
@[simp] theorem State.setStack_quantHeld (s : State) (h : Nat) (x : Stack) : (s.setStack h x).quantHeld = s.quantHeld := rfl
@[simp] theorem State.setStack_hch (s : State) (h : Nat) (x : Stack) : (s.setStack h x).hch = s.hch := rfl
@[simp] theorem State.setStack_routing (s : State) (h : Nat) (x : Stack) : (s.setStack h x).routing = s.routing := rfl
@[simp] theorem State.setStack_exch (s : State) (h : Nat) (x : Stack) : (s.setStack h x).exch = s.exch := rfl
@[simp] theorem State.setStack_surveys (s : State) (h : Nat) (x : Stack) : (s.setStack h x).surveys = s.surveys := rfl
@[simp] theorem State.setStack_svyCache (s : State) (h : Nat) (x : Stack) : (s.setStack h x).svyCache = s.svyCache := rfl
@[simp] theorem State.setStack_plotRuns (s : State) (h : Nat) (x : Stack) : (s.setStack h x).plotRuns = s.plotRuns := rfl
@[simp] theorem State.setStack_deliveries (s : State) (h : Nat) (x : Stack) : (s.setStack h x).deliveries = s.deliveries := rfl
@[simp] theorem State.setStack_sheets (s : State) (h : Nat) (x : Stack) : (s.setStack h x).sheets = s.sheets := rfl
@[simp] theorem State.setStack_ctxs (s : State) (h : Nat) (x : Stack) : (s.setStack h x).ctxs = s.ctxs := rfl
@[simp] theorem State.setStack_sems (s : State) (h : Nat) (x : Stack) : (s.setStack h x).sems = s.sems := rfl
@[simp] theorem State.setStack_pools (s : State) (h : Nat) (x : Stack) : (s.setStack h x).pools = s.pools := rfl
@[simp] theorem State.setStack_nextReq (s : State) (h : Nat) (x : Stack) : (s.setStack h x).nextReq = s.nextReq := rfl
@[simp] theorem State.setStack_marks (s : State) (h : Nat) (x : Stack) : (s.setStack h x).marks = s.marks := rfl
@[simp] theorem State.setStack_upsets (s : State) (h : Nat) (x : Stack) : (s.setStack h x).upsets = s.upsets := rfl
@[simp] theorem State.setStack_hubs (s : State) (h : Nat) (x : Stack) : (s.setStack h x).hubs = { s.hubs with dram := s.hubs.dram.put h x } := rfl
@[simp] theorem State.setStack_coll (s : State) (h : Nat) (x : Stack) : (s.setStack h x).coll = s.coll := rfl
@[simp] theorem State.setStack_jobs (s : State) (h : Nat) (x : Stack) : (s.setStack h x).jobs = s.jobs := rfl
@[simp] theorem State.setStack_fmSession (s : State) (h : Nat) (x : Stack) : (s.setStack h x).fmSession = s.fmSession := rfl
@[simp] theorem State.setStack_sec (s : State) (h : Nat) (x : Stack) : (s.setStack h x).sec = s.sec := rfl
@[simp] theorem State.setStack_cht (s : State) (h : Nat) (x : Stack) : (s.setStack h x).cht = s.cht := rfl
@[simp] theorem State.setStack_boot (s : State) (h : Nat) (x : Stack) : (s.setStack h x).boot = s.boot := rfl
@[simp] theorem State.setStack_ev (s : State) (h : Nat) (x : Stack) : (s.setStack h x).ev = s.ev := rfl
@[simp] theorem State.setStack_sw (s : State) (h : Nat) (x : Stack) : (s.setStack h x).sw = s.sw := rfl
@[simp] theorem State.setStack_ports (s : State) (h : Nat) (x : Stack) : (s.setStack h x).ports = s.ports := rfl
@[simp] theorem State.setStack_gw (s : State) (h : Nat) (x : Stack) : (s.setStack h x).gw = s.gw := rfl
@[simp] theorem State.setStack_peers (s : State) (h : Nat) (x : Stack) : (s.setStack h x).peers = s.peers := rfl
@[simp] theorem State.setStack_clock (s : State) (h : Nat) (x : Stack) : (s.setStack h x).clock = s.clock := rfl
@[simp] theorem State.setStack_pw (s : State) (h : Nat) (x : Stack) : (s.setStack h x).pw = s.pw := rfl
@[simp] theorem State.setStack_out (s : State) (h : Nat) (x : Stack) : (s.setStack h x).out = s.out := rfl
@[simp] theorem State.setStack_pending (s : State) (h : Nat) (x : Stack) : (s.setStack h x).pending = s.pending := rfl

@[simp] theorem State.setBucket_datum (s : State) (j b : Nat) (x : Bucket) : (s.setBucket j b x).datum = s.datum := rfl
@[simp] theorem State.setBucket_free (s : State) (j b : Nat) (x : Bucket) : (s.setBucket j b x).free = s.free := rfl
@[simp] theorem State.setBucket_mem (s : State) (j b : Nat) (x : Bucket) : (s.setBucket j b x).mem = s.mem := rfl
@[simp] theorem State.setBucket_regs (s : State) (j b : Nat) (x : Bucket) : (s.setBucket j b x).regs = s.regs := rfl
@[simp] theorem State.setBucket_ep (s : State) (j b : Nat) (x : Bucket) : (s.setBucket j b x).ep = s.ep := rfl
@[simp] theorem State.setBucket_cores (s : State) (j b : Nat) (x : Bucket) : (s.setBucket j b x).cores = s.cores := rfl
@[simp] theorem State.setBucket_guestOn (s : State) (j b : Nat) (x : Bucket) : (s.setBucket j b x).guestOn = s.guestOn := rfl
@[simp] theorem State.setBucket_movers (s : State) (j b : Nat) (x : Bucket) : (s.setBucket j b x).movers = s.movers := rfl
@[simp] theorem State.setBucket_quant (s : State) (j b : Nat) (x : Bucket) : (s.setBucket j b x).quant = s.quant := rfl
@[simp] theorem State.setBucket_quantHeld (s : State) (j b : Nat) (x : Bucket) : (s.setBucket j b x).quantHeld = s.quantHeld := rfl
@[simp] theorem State.setBucket_hch (s : State) (j b : Nat) (x : Bucket) : (s.setBucket j b x).hch = s.hch := rfl
@[simp] theorem State.setBucket_routing (s : State) (j b : Nat) (x : Bucket) : (s.setBucket j b x).routing = s.routing := rfl
@[simp] theorem State.setBucket_exch (s : State) (j b : Nat) (x : Bucket) : (s.setBucket j b x).exch = s.exch := rfl
@[simp] theorem State.setBucket_surveys (s : State) (j b : Nat) (x : Bucket) : (s.setBucket j b x).surveys = s.surveys := rfl
@[simp] theorem State.setBucket_svyCache (s : State) (j b : Nat) (x : Bucket) : (s.setBucket j b x).svyCache = s.svyCache := rfl
@[simp] theorem State.setBucket_plotRuns (s : State) (j b : Nat) (x : Bucket) : (s.setBucket j b x).plotRuns = s.plotRuns := rfl
@[simp] theorem State.setBucket_deliveries (s : State) (j b : Nat) (x : Bucket) : (s.setBucket j b x).deliveries = s.deliveries := rfl
@[simp] theorem State.setBucket_sheets (s : State) (j b : Nat) (x : Bucket) : (s.setBucket j b x).sheets = s.sheets := rfl
@[simp] theorem State.setBucket_ctxs (s : State) (j b : Nat) (x : Bucket) : (s.setBucket j b x).ctxs = s.ctxs := rfl
@[simp] theorem State.setBucket_sems (s : State) (j b : Nat) (x : Bucket) : (s.setBucket j b x).sems = s.sems := rfl
@[simp] theorem State.setBucket_pools (s : State) (j b : Nat) (x : Bucket) : (s.setBucket j b x).pools = s.pools := rfl
@[simp] theorem State.setBucket_nextReq (s : State) (j b : Nat) (x : Bucket) : (s.setBucket j b x).nextReq = s.nextReq := rfl
@[simp] theorem State.setBucket_marks (s : State) (j b : Nat) (x : Bucket) : (s.setBucket j b x).marks = s.marks := rfl
@[simp] theorem State.setBucket_upsets (s : State) (j b : Nat) (x : Bucket) : (s.setBucket j b x).upsets = s.upsets := rfl
@[simp] theorem State.setBucket_hubs (s : State) (j b : Nat) (x : Bucket) : (s.setBucket j b x).hubs = { s.hubs with buckets := s.hubs.buckets.put (j, b) x } := rfl
@[simp] theorem State.setBucket_coll (s : State) (j b : Nat) (x : Bucket) : (s.setBucket j b x).coll = s.coll := rfl
@[simp] theorem State.setBucket_jobs (s : State) (j b : Nat) (x : Bucket) : (s.setBucket j b x).jobs = s.jobs := rfl
@[simp] theorem State.setBucket_fmSession (s : State) (j b : Nat) (x : Bucket) : (s.setBucket j b x).fmSession = s.fmSession := rfl
@[simp] theorem State.setBucket_sec (s : State) (j b : Nat) (x : Bucket) : (s.setBucket j b x).sec = s.sec := rfl
@[simp] theorem State.setBucket_cht (s : State) (j b : Nat) (x : Bucket) : (s.setBucket j b x).cht = s.cht := rfl
@[simp] theorem State.setBucket_boot (s : State) (j b : Nat) (x : Bucket) : (s.setBucket j b x).boot = s.boot := rfl
@[simp] theorem State.setBucket_ev (s : State) (j b : Nat) (x : Bucket) : (s.setBucket j b x).ev = s.ev := rfl
@[simp] theorem State.setBucket_sw (s : State) (j b : Nat) (x : Bucket) : (s.setBucket j b x).sw = s.sw := rfl
@[simp] theorem State.setBucket_ports (s : State) (j b : Nat) (x : Bucket) : (s.setBucket j b x).ports = s.ports := rfl
@[simp] theorem State.setBucket_gw (s : State) (j b : Nat) (x : Bucket) : (s.setBucket j b x).gw = s.gw := rfl
@[simp] theorem State.setBucket_peers (s : State) (j b : Nat) (x : Bucket) : (s.setBucket j b x).peers = s.peers := rfl
@[simp] theorem State.setBucket_clock (s : State) (j b : Nat) (x : Bucket) : (s.setBucket j b x).clock = s.clock := rfl
@[simp] theorem State.setBucket_pw (s : State) (j b : Nat) (x : Bucket) : (s.setBucket j b x).pw = s.pw := rfl
@[simp] theorem State.setBucket_out (s : State) (j b : Nat) (x : Bucket) : (s.setBucket j b x).out = s.out := rfl
@[simp] theorem State.setBucket_pending (s : State) (j b : Nat) (x : Bucket) : (s.setBucket j b x).pending = s.pending := rfl

@[simp] theorem State.setSlot_datum (s : State) (k : Nat) (x : CollSlot) : (s.setSlot k x).datum = s.datum := rfl
@[simp] theorem State.setSlot_free (s : State) (k : Nat) (x : CollSlot) : (s.setSlot k x).free = s.free := rfl
@[simp] theorem State.setSlot_mem (s : State) (k : Nat) (x : CollSlot) : (s.setSlot k x).mem = s.mem := rfl
@[simp] theorem State.setSlot_regs (s : State) (k : Nat) (x : CollSlot) : (s.setSlot k x).regs = s.regs := rfl
@[simp] theorem State.setSlot_ep (s : State) (k : Nat) (x : CollSlot) : (s.setSlot k x).ep = s.ep := rfl
@[simp] theorem State.setSlot_cores (s : State) (k : Nat) (x : CollSlot) : (s.setSlot k x).cores = s.cores := rfl
@[simp] theorem State.setSlot_guestOn (s : State) (k : Nat) (x : CollSlot) : (s.setSlot k x).guestOn = s.guestOn := rfl
@[simp] theorem State.setSlot_movers (s : State) (k : Nat) (x : CollSlot) : (s.setSlot k x).movers = s.movers := rfl
@[simp] theorem State.setSlot_quant (s : State) (k : Nat) (x : CollSlot) : (s.setSlot k x).quant = s.quant := rfl
@[simp] theorem State.setSlot_quantHeld (s : State) (k : Nat) (x : CollSlot) : (s.setSlot k x).quantHeld = s.quantHeld := rfl
@[simp] theorem State.setSlot_hch (s : State) (k : Nat) (x : CollSlot) : (s.setSlot k x).hch = s.hch := rfl
@[simp] theorem State.setSlot_routing (s : State) (k : Nat) (x : CollSlot) : (s.setSlot k x).routing = s.routing := rfl
@[simp] theorem State.setSlot_exch (s : State) (k : Nat) (x : CollSlot) : (s.setSlot k x).exch = s.exch := rfl
@[simp] theorem State.setSlot_surveys (s : State) (k : Nat) (x : CollSlot) : (s.setSlot k x).surveys = s.surveys := rfl
@[simp] theorem State.setSlot_svyCache (s : State) (k : Nat) (x : CollSlot) : (s.setSlot k x).svyCache = s.svyCache := rfl
@[simp] theorem State.setSlot_plotRuns (s : State) (k : Nat) (x : CollSlot) : (s.setSlot k x).plotRuns = s.plotRuns := rfl
@[simp] theorem State.setSlot_deliveries (s : State) (k : Nat) (x : CollSlot) : (s.setSlot k x).deliveries = s.deliveries := rfl
@[simp] theorem State.setSlot_sheets (s : State) (k : Nat) (x : CollSlot) : (s.setSlot k x).sheets = s.sheets := rfl
@[simp] theorem State.setSlot_ctxs (s : State) (k : Nat) (x : CollSlot) : (s.setSlot k x).ctxs = s.ctxs := rfl
@[simp] theorem State.setSlot_sems (s : State) (k : Nat) (x : CollSlot) : (s.setSlot k x).sems = s.sems := rfl
@[simp] theorem State.setSlot_pools (s : State) (k : Nat) (x : CollSlot) : (s.setSlot k x).pools = s.pools := rfl
@[simp] theorem State.setSlot_nextReq (s : State) (k : Nat) (x : CollSlot) : (s.setSlot k x).nextReq = s.nextReq := rfl
@[simp] theorem State.setSlot_marks (s : State) (k : Nat) (x : CollSlot) : (s.setSlot k x).marks = s.marks := rfl
@[simp] theorem State.setSlot_upsets (s : State) (k : Nat) (x : CollSlot) : (s.setSlot k x).upsets = s.upsets := rfl
@[simp] theorem State.setSlot_hubs (s : State) (k : Nat) (x : CollSlot) : (s.setSlot k x).hubs = s.hubs := rfl
@[simp] theorem State.setSlot_coll (s : State) (k : Nat) (x : CollSlot) : (s.setSlot k x).coll = { s.coll with slots := s.coll.slots.put k x } := rfl
@[simp] theorem State.setSlot_jobs (s : State) (k : Nat) (x : CollSlot) : (s.setSlot k x).jobs = s.jobs := rfl
@[simp] theorem State.setSlot_fmSession (s : State) (k : Nat) (x : CollSlot) : (s.setSlot k x).fmSession = s.fmSession := rfl
@[simp] theorem State.setSlot_sec (s : State) (k : Nat) (x : CollSlot) : (s.setSlot k x).sec = s.sec := rfl
@[simp] theorem State.setSlot_cht (s : State) (k : Nat) (x : CollSlot) : (s.setSlot k x).cht = s.cht := rfl
@[simp] theorem State.setSlot_boot (s : State) (k : Nat) (x : CollSlot) : (s.setSlot k x).boot = s.boot := rfl
@[simp] theorem State.setSlot_ev (s : State) (k : Nat) (x : CollSlot) : (s.setSlot k x).ev = s.ev := rfl
@[simp] theorem State.setSlot_sw (s : State) (k : Nat) (x : CollSlot) : (s.setSlot k x).sw = s.sw := rfl
@[simp] theorem State.setSlot_ports (s : State) (k : Nat) (x : CollSlot) : (s.setSlot k x).ports = s.ports := rfl
@[simp] theorem State.setSlot_gw (s : State) (k : Nat) (x : CollSlot) : (s.setSlot k x).gw = s.gw := rfl
@[simp] theorem State.setSlot_peers (s : State) (k : Nat) (x : CollSlot) : (s.setSlot k x).peers = s.peers := rfl
@[simp] theorem State.setSlot_clock (s : State) (k : Nat) (x : CollSlot) : (s.setSlot k x).clock = s.clock := rfl
@[simp] theorem State.setSlot_pw (s : State) (k : Nat) (x : CollSlot) : (s.setSlot k x).pw = s.pw := rfl
@[simp] theorem State.setSlot_out (s : State) (k : Nat) (x : CollSlot) : (s.setSlot k x).out = s.out := rfl
@[simp] theorem State.setSlot_pending (s : State) (k : Nat) (x : CollSlot) : (s.setSlot k x).pending = s.pending := rfl

@[simp] theorem State.setAged_datum (s : State) (d : Nat) (x : Aged) : (s.setAged d x).datum = s.datum := rfl
@[simp] theorem State.setAged_free (s : State) (d : Nat) (x : Aged) : (s.setAged d x).free = s.free := rfl
@[simp] theorem State.setAged_mem (s : State) (d : Nat) (x : Aged) : (s.setAged d x).mem = s.mem := rfl
@[simp] theorem State.setAged_regs (s : State) (d : Nat) (x : Aged) : (s.setAged d x).regs = s.regs := rfl
@[simp] theorem State.setAged_ep (s : State) (d : Nat) (x : Aged) : (s.setAged d x).ep = s.ep := rfl
@[simp] theorem State.setAged_cores (s : State) (d : Nat) (x : Aged) : (s.setAged d x).cores = s.cores := rfl
@[simp] theorem State.setAged_guestOn (s : State) (d : Nat) (x : Aged) : (s.setAged d x).guestOn = s.guestOn := rfl
@[simp] theorem State.setAged_movers (s : State) (d : Nat) (x : Aged) : (s.setAged d x).movers = s.movers := rfl
@[simp] theorem State.setAged_quant (s : State) (d : Nat) (x : Aged) : (s.setAged d x).quant = s.quant := rfl
@[simp] theorem State.setAged_quantHeld (s : State) (d : Nat) (x : Aged) : (s.setAged d x).quantHeld = s.quantHeld := rfl
@[simp] theorem State.setAged_hch (s : State) (d : Nat) (x : Aged) : (s.setAged d x).hch = s.hch := rfl
@[simp] theorem State.setAged_routing (s : State) (d : Nat) (x : Aged) : (s.setAged d x).routing = s.routing := rfl
@[simp] theorem State.setAged_exch (s : State) (d : Nat) (x : Aged) : (s.setAged d x).exch = s.exch := rfl
@[simp] theorem State.setAged_surveys (s : State) (d : Nat) (x : Aged) : (s.setAged d x).surveys = s.surveys := rfl
@[simp] theorem State.setAged_svyCache (s : State) (d : Nat) (x : Aged) : (s.setAged d x).svyCache = s.svyCache := rfl
@[simp] theorem State.setAged_plotRuns (s : State) (d : Nat) (x : Aged) : (s.setAged d x).plotRuns = s.plotRuns := rfl
@[simp] theorem State.setAged_deliveries (s : State) (d : Nat) (x : Aged) : (s.setAged d x).deliveries = s.deliveries := rfl
@[simp] theorem State.setAged_sheets (s : State) (d : Nat) (x : Aged) : (s.setAged d x).sheets = s.sheets := rfl
@[simp] theorem State.setAged_ctxs (s : State) (d : Nat) (x : Aged) : (s.setAged d x).ctxs = s.ctxs := rfl
@[simp] theorem State.setAged_sems (s : State) (d : Nat) (x : Aged) : (s.setAged d x).sems = s.sems := rfl
@[simp] theorem State.setAged_pools (s : State) (d : Nat) (x : Aged) : (s.setAged d x).pools = s.pools := rfl
@[simp] theorem State.setAged_nextReq (s : State) (d : Nat) (x : Aged) : (s.setAged d x).nextReq = s.nextReq := rfl
@[simp] theorem State.setAged_marks (s : State) (d : Nat) (x : Aged) : (s.setAged d x).marks = s.marks := rfl
@[simp] theorem State.setAged_upsets (s : State) (d : Nat) (x : Aged) : (s.setAged d x).upsets = s.upsets := rfl
@[simp] theorem State.setAged_hubs (s : State) (d : Nat) (x : Aged) : (s.setAged d x).hubs = s.hubs := rfl
@[simp] theorem State.setAged_coll (s : State) (d : Nat) (x : Aged) : (s.setAged d x).coll = s.coll := rfl
@[simp] theorem State.setAged_jobs (s : State) (d : Nat) (x : Aged) : (s.setAged d x).jobs = s.jobs := rfl
@[simp] theorem State.setAged_fmSession (s : State) (d : Nat) (x : Aged) : (s.setAged d x).fmSession = s.fmSession := rfl
@[simp] theorem State.setAged_sec (s : State) (d : Nat) (x : Aged) : (s.setAged d x).sec = s.sec := rfl
@[simp] theorem State.setAged_cht (s : State) (d : Nat) (x : Aged) : (s.setAged d x).cht = s.cht := rfl
@[simp] theorem State.setAged_boot (s : State) (d : Nat) (x : Aged) : (s.setAged d x).boot = s.boot := rfl
@[simp] theorem State.setAged_ev (s : State) (d : Nat) (x : Aged) : (s.setAged d x).ev = s.ev := rfl
@[simp] theorem State.setAged_sw (s : State) (d : Nat) (x : Aged) : (s.setAged d x).sw = s.sw := rfl
@[simp] theorem State.setAged_ports (s : State) (d : Nat) (x : Aged) : (s.setAged d x).ports = s.ports := rfl
@[simp] theorem State.setAged_gw (s : State) (d : Nat) (x : Aged) : (s.setAged d x).gw = s.gw := rfl
@[simp] theorem State.setAged_peers (s : State) (d : Nat) (x : Aged) : (s.setAged d x).peers = s.peers := rfl
@[simp] theorem State.setAged_clock (s : State) (d : Nat) (x : Aged) : (s.setAged d x).clock = s.clock := rfl
@[simp] theorem State.setAged_pw (s : State) (d : Nat) (x : Aged) : (s.setAged d x).pw = { s.pw with aged := s.pw.aged.put d x } := rfl
@[simp] theorem State.setAged_out (s : State) (d : Nat) (x : Aged) : (s.setAged d x).out = s.out := rfl
@[simp] theorem State.setAged_pending (s : State) (d : Nat) (x : Aged) : (s.setAged d x).pending = s.pending := rfl

@[simp] theorem State.unqueue_datum (s : State) (q : SwFrame) : (s.unqueue q).datum = s.datum := rfl
@[simp] theorem State.unqueue_free (s : State) (q : SwFrame) : (s.unqueue q).free = s.free := rfl
@[simp] theorem State.unqueue_mem (s : State) (q : SwFrame) : (s.unqueue q).mem = s.mem := rfl
@[simp] theorem State.unqueue_regs (s : State) (q : SwFrame) : (s.unqueue q).regs = s.regs := rfl
@[simp] theorem State.unqueue_ep (s : State) (q : SwFrame) : (s.unqueue q).ep = s.ep := rfl
@[simp] theorem State.unqueue_cores (s : State) (q : SwFrame) : (s.unqueue q).cores = s.cores := rfl
@[simp] theorem State.unqueue_guestOn (s : State) (q : SwFrame) : (s.unqueue q).guestOn = s.guestOn := rfl
@[simp] theorem State.unqueue_movers (s : State) (q : SwFrame) : (s.unqueue q).movers = s.movers := rfl
@[simp] theorem State.unqueue_quant (s : State) (q : SwFrame) : (s.unqueue q).quant = s.quant := rfl
@[simp] theorem State.unqueue_quantHeld (s : State) (q : SwFrame) : (s.unqueue q).quantHeld = s.quantHeld := rfl
@[simp] theorem State.unqueue_hch (s : State) (q : SwFrame) : (s.unqueue q).hch = s.hch := rfl
@[simp] theorem State.unqueue_routing (s : State) (q : SwFrame) : (s.unqueue q).routing = s.routing := rfl
@[simp] theorem State.unqueue_exch (s : State) (q : SwFrame) : (s.unqueue q).exch = s.exch := rfl
@[simp] theorem State.unqueue_surveys (s : State) (q : SwFrame) : (s.unqueue q).surveys = s.surveys := rfl
@[simp] theorem State.unqueue_svyCache (s : State) (q : SwFrame) : (s.unqueue q).svyCache = s.svyCache := rfl
@[simp] theorem State.unqueue_plotRuns (s : State) (q : SwFrame) : (s.unqueue q).plotRuns = s.plotRuns := rfl
@[simp] theorem State.unqueue_deliveries (s : State) (q : SwFrame) : (s.unqueue q).deliveries = s.deliveries := rfl
@[simp] theorem State.unqueue_sheets (s : State) (q : SwFrame) : (s.unqueue q).sheets = s.sheets := rfl
@[simp] theorem State.unqueue_ctxs (s : State) (q : SwFrame) : (s.unqueue q).ctxs = s.ctxs := rfl
@[simp] theorem State.unqueue_sems (s : State) (q : SwFrame) : (s.unqueue q).sems = s.sems := rfl
@[simp] theorem State.unqueue_pools (s : State) (q : SwFrame) : (s.unqueue q).pools = s.pools := rfl
@[simp] theorem State.unqueue_nextReq (s : State) (q : SwFrame) : (s.unqueue q).nextReq = s.nextReq := rfl
@[simp] theorem State.unqueue_marks (s : State) (q : SwFrame) : (s.unqueue q).marks = s.marks := rfl
@[simp] theorem State.unqueue_upsets (s : State) (q : SwFrame) : (s.unqueue q).upsets = s.upsets := rfl
@[simp] theorem State.unqueue_hubs (s : State) (q : SwFrame) : (s.unqueue q).hubs = s.hubs := rfl
@[simp] theorem State.unqueue_coll (s : State) (q : SwFrame) : (s.unqueue q).coll = s.coll := rfl
@[simp] theorem State.unqueue_jobs (s : State) (q : SwFrame) : (s.unqueue q).jobs = s.jobs := rfl
@[simp] theorem State.unqueue_fmSession (s : State) (q : SwFrame) : (s.unqueue q).fmSession = s.fmSession := rfl
@[simp] theorem State.unqueue_sec (s : State) (q : SwFrame) : (s.unqueue q).sec = s.sec := rfl
@[simp] theorem State.unqueue_cht (s : State) (q : SwFrame) : (s.unqueue q).cht = s.cht := rfl
@[simp] theorem State.unqueue_boot (s : State) (q : SwFrame) : (s.unqueue q).boot = s.boot := rfl
@[simp] theorem State.unqueue_ev (s : State) (q : SwFrame) : (s.unqueue q).ev = s.ev := rfl
@[simp] theorem State.unqueue_sw (s : State) (q : SwFrame) : (s.unqueue q).sw = { s.sw with queue := s.sw.queue.erase q } := rfl
@[simp] theorem State.unqueue_ports (s : State) (q : SwFrame) : (s.unqueue q).ports = s.ports := rfl
@[simp] theorem State.unqueue_gw (s : State) (q : SwFrame) : (s.unqueue q).gw = s.gw := rfl
@[simp] theorem State.unqueue_peers (s : State) (q : SwFrame) : (s.unqueue q).peers = s.peers := rfl
@[simp] theorem State.unqueue_clock (s : State) (q : SwFrame) : (s.unqueue q).clock = s.clock := rfl
@[simp] theorem State.unqueue_pw (s : State) (q : SwFrame) : (s.unqueue q).pw = s.pw := rfl
@[simp] theorem State.unqueue_out (s : State) (q : SwFrame) : (s.unqueue q).out = s.out := rfl
@[simp] theorem State.unqueue_pending (s : State) (q : SwFrame) : (s.unqueue q).pending = s.pending := rfl

end Sys2Proof.Machine
end

