-- ==== Sys2Proof/Tests/Slice0.lean ====
section
/-! SUPPORT. Small checks: ill-formed commands that WellFormed refuses, results worked out by hand from the spec, and for each statement of
Obligations.lean whose clauses have hypotheses a state and operands that meet them (theorems `witness_…`, named after the statement). -/

namespace Sys2Proof.Tests

open Sys2Proof.Machine

-- One theorem at a time: each needs a deep stack.
set_option Elab.async false

/-! Helpers. -/

/-- A packet header: n bytes of parameters, for sheet 0 and job 1 where its flags say so. -/
def hdrOf (src : Source) (n : Nat) (sheet job : Bool) : CmdHdr :=
  ⟨src, BitVec.ofNat 16 n, 0, 0, 0, 0, sheet, job, false, false, 0, 1, 0, 0, 0⟩
def host (n : Nat) : CmdHdr := hdrOf (.ring 0 0) n true true
def fm (n : Nat) : CmdHdr := hdrOf (.fm 7) n true true

/-- A device map entry: device 5, sheet 0, valid; and one of device 6. -/
def word5 : Word := 0x1000005
def word6 : Word := 0x1000006

/-- A job of two logical devices, 0 of them this one. -/
def job1 : Job := { Job.off with life := { Life.off with st := .on }, n := 2, map := [(0, (word5, none)), (1, (word6, none))], key := some 0 }
def sheet0 : Sheet := { Sheet.off with life := { Life.off with st := .on }, m := 1, usable := 2 ^ 30, gazEntries := 1024 }

/-- A device that has booted: job 1 is admitted, sheet 0 is ON, a ring, a session of fabric manager endpoint 7 and the board bring commands. -/
def up : State :=
  let s := { State.reset with jobs := [(1, job1)], sheets := [(0, sheet0)], fmSession := some 7, datum := 1000000000000 }
  let s := { s with sw := { s.sw with devId := 5 }, cht := { s.cht with role0 := .active, role1 := .standby },
                    boot := { s.boot with level := 3, complete := true, mainOk := true, standby := true } }
  (s.set F.CHT_RING_CFG_enable 0 0 1).set F.CHT_RING_DB_cmd_tail 0 0 65

/-- A field of n bytes at an offset of a row of zeros. -/
def put (p : List Byte) (off n x : Nat) : List Byte := p.take off ++ leBytes n x ++ p.drop (off + n)
def zs (n : Nat) : List Byte := List.replicate n 0
def puts (p : List Byte) (l : List (Nat × Nat × Nat)) : List Byte := l.foldl (fun p e => put p e.1 e.2.1 e.2.2) p

/-- The state that a command leaves. -/
def after (r : Res) : State :=
  match r with
  | .next t => t
  | _ => State.reset

/-! Cores. -/

/-- The fields of layouts R and I. -/
def encR (d a b c fmt x : Nat) : BitVec 56 := BitVec.ofNat 56 (d * 2 ^ 50 + a * 2 ^ 44 + b * 2 ^ 38 + c * 2 ^ 32 + fmt * 2 ^ 24 + x)
def encI (d a x imm : Nat) : BitVec 56 := BitVec.ofNat 56 (d * 2 ^ 50 + a * 2 ^ 44 + x * 2 ^ 32 + imm)

/-- A core that executes at the first instruction of its kernel, with these scalar registers. -/
def running (regs : Tbl Nat Word) : CoreCtx :=
  { CoreCtx.idle with run := .running, kern := { CoreKernel.none with job := 1, codeAddr := 4096, codeBytes := 64 }, pc := 4096, s := regs }
def exe (regs : Tbl Nat Word) : State := up.setCore 0 (running regs)
def coreOf (r : Res) : CoreCtx := (after r).core 0

theorem exe_issues : (exe []).issues 0 := by unfold State.issues; decide +kernel
theorem witness_ScalarTwoSource : (exe []).issues 0 ∧ rOk (encR 63 63 63 0 0 0) true true true false 0 = true ∧ ((exe []).core 0).ready [63, 63] := by
  unfold State.issues CoreCtx.ready; decide +kernel
theorem witness_ScalarOther : (exe []).issues 0 ∧ rOk (encR 63 63 63 63 0 0) true true true true 0 = true ∧ ((exe []).core 0).ready [63, 63, 63] ∧
    iX12 (encI 63 63 0 63) = 0 ∧ iImm (encI 63 63 0 63) < 64 := by
  unfold State.issues CoreCtx.ready; decide +kernel
theorem witness_ScalarOther_ldi : (exe []).issues 0 ∧ lResv (BitVec.ofNat 56 (2 ^ 48 - 1)) = false ∧ lHi (BitVec.ofNat 56 (2 ^ 48 - 1)) = false ∧
    lResv (BitVec.ofNat 56 (63 * 2 ^ 50 + 2 ^ 49 + 65535)) = false ∧ lHi (BitVec.ofNat 56 (63 * 2 ^ 50 + 2 ^ 49 + 65535)) = true ∧
    lImm (BitVec.ofNat 56 (63 * 2 ^ 50 + 2 ^ 49 + 65535)) < 2 ^ 16 ∧ ((exe []).core 0).ready [63] := by
  unfold State.issues CoreCtx.ready; decide +kernel
theorem witness_ScalarOther_bits : (exe []).issues 0 ∧ rOk (encR 63 63 0 0 0 0) true true false false 0 = true ∧ ((exe []).core 0).ready [63, 63] ∧
    rOk (encR 63 63 0 0 0 0xFFF) true true false false 0xFFF = true ∧ rOk (encR 63 63 63 0 0 0xFC1) true true true false 0xFFF = true ∧
    bitsOf (rX (encR 63 63 63 0 0 0xFC1)) 5 0 + bfLen (rX (encR 63 63 63 0 0 0xFC1)) = 64 := by
  unfold State.issues CoreCtx.ready; decide +kernel
theorem witness_ScalarFloat : (exe []).issues 0 ∧ ((exe []).core 0).ready [63, 63, 63] ∧ rOk (encR 63 63 63 63 0 0) true true true true 0 = true ∧
    rOk (encR 63 63 63 0 0 0) true true true false 0 = true ∧ rOk (encR 63 63 63 0 0 3) true true true false 3 = true ∧
    rOk (encR 63 63 0 0 0 2) true true false false 3 = true ∧ rX (encR 63 63 0 0 0 2) < 3 := by
  unfold State.issues CoreCtx.ready; decide +kernel

/-- A branch by seven instructions reaches the last one of the kernel; JR reaches it too. -/
theorem witness_Branches : (exe [(1, 4152)]).issues 0 ∧ bResv (BitVec.ofNat 56 7) = 0 ∧ bA (BitVec.ofNat 56 7) = 0 ∧ bB (BitVec.ofNat 56 7) = 0 ∧
    targetOk ((exe [(1, 4152)]).core 0) (((exe [(1, 4152)]).core 0).pc + 8 * sInt 32 (fld (BitVec.ofNat 56 7) 31 0)) = true ∧
    ((exe [(1, 4152)]).core 0).ready [0, 1] ∧ rOk (encR 63 1 0 0 0 0) true true false false 0 = true ∧
    targetOk ((exe [(1, 4152)]).core 0) (((exe [(1, 4152)]).core 0).rs 1).toNat = true := by
  unfold State.issues CoreCtx.ready; decide +kernel

/-- The last places of a scratchpad: a scalar of 8 bytes, a whole vector register, the second half of one, and segments. -/
theorem witness_ScratchpadAccess : (exe []).issues 0 ∧ iX12 (encI 1 0 7 (2 ^ 24 - 8)) < 8 ∧ iX12 (encI 1 0 3 (2 ^ 24 - 8)) < 4 ∧
    ((exe []).core 0).ready [0, 1] ∧ ((((exe []).core 0).rs 0) + BitVec.ofInt 64 (sInt 32 (2 ^ 24 - 8))).toNat % 8 = 0 ∧
    ((((exe []).core 0).rs 0) + BitVec.ofInt 64 (sInt 32 (2 ^ 24 - 8))).toNat + 8 = 2 ^ 24 ∧ mqHolds ((exe []).core 0) (2 ^ 24 - 8) 8 = false := by
  unfold State.issues CoreCtx.ready; decide +kernel
theorem witness_ScratchpadAccess_vector : (exe []).issues 0 ∧ iX12 (encI 31 0 5 (2 ^ 24 - 2048)) < 16 ∧ partOk (5 % 4) (5 / 4) = true ∧ rD (encI 31 0 5 0) < 32 ∧
    ((exe []).core 0).ready [0] ∧ ((exe []).core 0).vready [31] ∧ ((((exe []).core 0).rs 0) + BitVec.ofInt 64 (sInt 32 (2 ^ 24 - 2048))).toNat % 64 = 0 ∧
    ((((exe []).core 0).rs 0) + BitVec.ofInt 64 (sInt 32 (2 ^ 24 - 2048))).toNat + 4096 / 2 ^ (5 % 4) = 2 ^ 24 ∧
    mqHolds ((exe []).core 0) (2 ^ 24 - 2048) 2048 = false := by
  unfold State.issues CoreCtx.ready CoreCtx.vready; decide +kernel
theorem witness_ScratchpadAccess_segments : (exe [(1, BitVec.ofNat 64 (2 ^ 24 - 576)), (2, 64)]).issues 0 ∧ segLegal (encR 31 1 2 0 0 14) = true ∧
    ((exe [(1, BitVec.ofNat 64 (2 ^ 24 - 576)), (2, 64)]).core 0).ready [1, 2] ∧ ((exe [(1, BitVec.ofNat 64 (2 ^ 24 - 576)), (2, 64)]).core 0).vready [31] ∧
    (∀ q ∈ (List.range 8).map (fun j => (BitVec.ofNat 64 (2 ^ 24 - 576) + BitVec.ofNat 64 j * 64#64).toNat), q % 64 = 0 ∧ q + 4096 / 2 ^ (14 % 4) / 8 ≤ 2 ^ 24 ∧
      mqHolds ((exe []).core 0) q (4096 / 2 ^ (14 % 4) / 8) = false) := by
  unfold State.issues CoreCtx.ready CoreCtx.vready; decide +kernel

theorem witness_VectorElementwise : (exe []).issues 0 ∧ ((exe []).core 0).ready [31, 31] ∧ ((exe []).core 0).vready [31, 31, 31, 31] ∧
    (∀ x < 2, xOnly (encR 31 31 31 0 3 x) 1 = true ∧ vOk (rD (encR 31 31 31 0 3 x)) = true ∧ vOk (rA (encR 31 31 31 0 3 x)) = true ∧
      (bs (encR 31 31 31 0 3 x) = true ∨ vOk (rB (encR 31 31 31 0 3 x)) = true) ∧ rFmt (encR 31 31 31 0 3 x) = 3 ∧ rC (encR 31 31 31 0 3 x) = 0) ∧
    rFmt (encR 31 31 31 31 2 1) < 3 ∧ vOk (rC (encR 31 31 31 31 2 1)) = true ∧ xOnly (encR 31 31 31 31 2 1) 1 = true ∧
    rB (encR 31 31 0 0 3 0) = 0 ∧ xOnly (encR 31 31 0 0 3 0) 0 = true ∧ xOnly (encR 31 31 31 0 3 5) 7 = true ∧ bitsOf (rX (encR 31 31 31 0 3 5)) 2 1 < 3 ∧
    rFmt (encR 31 31 0 0 0 0) = 0 ∧ rC (encR 31 31 0 0 0 0) = 0 ∧ xOnly (encR 31 31 0 0 0 0) 0 = true := by
  unfold State.issues CoreCtx.ready CoreCtx.vready; decide +kernel
theorem witness_VectorOther : (exe []).issues 0 ∧ ((exe []).core 0).ready [31, 31] ∧ ((exe []).core 0).vready [7, 31, 31, 7] ∧
    (rFmt (encR 7 31 31 0 3 13) = 3 ∧ rD (encR 7 31 31 0 3 13) < 8 ∧ bOk (encR 7 31 31 0 3 13) = true ∧ xOnly (encR 7 31 31 0 3 13) 15 = true ∧
      bitsOf (rX (encR 7 31 31 0 3 13)) 3 1 < 7) ∧
    (rC (encR 31 31 31 7 3 1) < 8 ∧ xOnly (encR 31 31 31 7 3 1) 1 = true ∧ bOk (encR 31 31 31 7 3 1) = true ∧ vOk (rD (encR 31 31 31 7 3 1)) = true) := by
  unfold State.issues CoreCtx.ready CoreCtx.vready; decide +kernel
/-- The last part of a conversion from FP32 to 8 bits, and the whole of one between 32-bit formats. -/
theorem witness_VectorOther_cvt : (exe []).issues 0 ∧ xOnly (encR 31 31 31 0 0 0x360) 0x3F0 = true ∧ bitsOf (rX (encR 31 31 31 0 0 0x360)) 7 4 = 6 ∧
    bitsOf (rX (encR 31 31 31 0 0 0x360)) 9 8 = 3 ∧ vWidth 0 = 32 ∧ cvtWidth 6 = 8 ∧ 3 < 32 / cvtWidth 6 ∧ cvtWidth 3 = 32 ∧
    bitsOf (rX (encR 31 31 31 0 0 0x030)) 9 8 = 0 ∧ xOnly (encR 31 31 31 0 0 0x030) 0x3F0 = true := by
  unfold State.issues; decide +kernel
/-- VEXTR of the last element of each width, and the forms without a second vector operand. -/
theorem witness_VectorOther_rest : (exe [(1, 1023), (2, 4095)]).issues 0 ∧ ((exe [(1, 1023), (2, 4095)]).core 0).ready [31, 1] ∧
    ((((exe [(1, 1023), (2, 4095)]).core 0).rs 1)).toNat + 1 = 32768 / vWidth 3 ∧ xOnly (encR 63 31 1 0 3 0) 0 = true ∧ vOk (rA (encR 63 31 1 0 3 0)) = true ∧
    rPn (encR 63 31 1 0 3 0) = false ∧ rPr (encR 63 31 1 0 3 0) = 0 ∧ rFmt (encR 63 31 1 0 3 0) < 4 ∧
    (rFmt (encR 63 7 0 0 0 0) = 0 ∧ rA (encR 63 7 0 0 0 0) < 8 ∧ rPn (encR 63 7 0 0 0 0) = false ∧ rPr (encR 63 7 0 0 0 0) = 0) ∧
    (∀ x < 4, xOnly (encR 7 7 7 0 0 x) 3 = true ∧ rD (encR 7 7 7 0 0 x) < 8 ∧ rA (encR 7 7 7 0 0 x) < 8 ∧ rB (encR 7 7 7 0 0 x) < 8) ∧
    (vOk (rA (encR 63 31 0 0 3 0)) = true ∧ rB (encR 63 31 0 0 3 0) = 0) ∧ (vOk (rD (encR 31 0 0 0 3 0)) = true ∧ rA (encR 31 0 0 0 3 0) = 0) := by
  unfold State.issues CoreCtx.ready; decide +kernel

/-- The matrix queue: three entries wait and one more finds room; the last weight tile of a scratchpad. -/
def queued (l : List (Nat × MqEntry)) : State := up.setCore 0 { running [(1, BitVec.ofNat 64 (2 ^ 24 - 128 * rowBytes 0))] with mq := l }
theorem witness_MatrixQueue : (queued (List.replicate 3 (4096, .accz 0))).issues 0 ∧ ((queued (List.replicate 3 (4096, .accz 0))).core 0).ready [1, 0, 0] ∧
    ((queued (List.replicate 3 (4096, .accz 0))).core 0).vready [31] ∧ ((queued (List.replicate 3 (4096, .accz 0))).core 0).mq.length < 4 ∧
    (matLegal (encR 0 1 0 0 0 0) 0x1FFF = true ∧ (matFmt 0).mx = false ∧ blockFault (2 ^ 24 - 128 * rowBytes 0) (128 * rowBytes 0) = none) ∧
    matLegal (encR 0 1 0 0 0 0xFFF) 0xFFF = true ∧ (matLegal (encR 31 1 1 0 0 3) 3 = true ∧ rD (encR 31 1 1 0 0 3) < 32) ∧ matLegal (encR 0 0 0 0 0 3) 3 = true := by
  unfold State.issues CoreCtx.ready CoreCtx.vready; decide +kernel
/-- Sparse and scaled weights. -/
theorem witness_MatrixQueue_mx : (exe [(1, 0), (2, 0), (3, 0)]).issues 0 ∧ (matFmt 11).mx = true ∧ matLegal (encR 0 1 2 3 11 1) 0x1FFF = true ∧
    blockFault 0 (128 * rowBytes 11) = none ∧ blockFault 0 (128 * metaRow 11) = none ∧ blockFault 0 (128 * (denseK 11 1 / 32)) = none := by
  unfold State.issues; decide +kernel
theorem witness_MatrixQueue_start : ((queued [(4096, .wld 0 0 0 0 0 0)]).core 0).run = .running ∧ ((queued [(4096, .wld 0 0 0 0 0 0)]).core 0).load = none ∧
    ((queued [(4096, .accz 3)]).core 0).mq = (4096, .accz 3) :: [] ∧ ((queued [(4096, .accrd 31 7 0 3)]).core 0).mq = (4096, .accrd 31 7 0 3) :: [] ∧
    ((queued [(4096, .mpass 0 0 0 0 0 false true false 128)]).core 0).mq = (4096, .mpass 0 0 0 0 0 false true false 128) :: [] := by decide +kernel
def loading : State := up.setCore 0 { running [] with load := some ⟨0, 0, 0, [], [], [], none, 4096⟩ }
theorem witness_MatrixQueue_loaded : ((loading.core 0).load).isSome = true := by decide +kernel

/-- Remote addresses: logical device 1, and this one by the local bit. -/
def remoteRegs : Tbl Nat Word := [(1, BitVec.ofNat 64 (2 ^ 44 + 256)), (2, BitVec.ofNat 64 (2 ^ 24 - 256)), (3, 256)]
theorem witness_RemoteInstructions : (exe remoteRegs).issues 0 ∧ ((exe remoteRegs).core 0).ready [1, 2, 3] ∧
    remoteAddr ((exe remoteRegs).core 0) (encR 63 1 0 0 0 3) = BitVec.ofNat 64 (2 ^ 44 + 256) ∧
    remoteAddr ((exe remoteRegs).core 0) (encR 0 3 2 0 0 24) = 256 ∧ fld (256#64) 43 0 % 2 ^ 8 = 0 ∧
    plainLegal (encR 63 1 0 0 0 3) 0x7F = true ∧ plainLegal (encR 0 3 2 0 0 24) 0x1F = true ∧ (((exe remoteRegs).core 0).rs 2).toNat + 2 ^ 8 = 2 ^ 24 ∧
    plainLegal (encR 63 1 2 3 0 0x982) 0xF9F = true ∧ plainLegal (encR 0 0 0 0 0 2) 3 = true ∧ plainLegal (encR 0 1 0 0 0 1) 3 = true ∧
    (exe remoteRegs).coreHeld ((exe remoteRegs).core 0).kern.sheet ((exe remoteRegs).core 0).kern.vindex = false := by
  unfold State.issues CoreCtx.ready; decide +kernel

theorem witness_SystemInstructions : (exe [(1, BitVec.ofNat 64 (2 ^ 30 - 8)), (2, BitVec.ofNat 64 (2 ^ 24 - 64))]).issues 0 ∧
    ((exe [(1, BitVec.ofNat 64 (2 ^ 30 - 8)), (2, BitVec.ofNat 64 (2 ^ 24 - 64))]).core 0).ready [1, 2] ∧
    (exe []).inData 0 (2 ^ 30 - 8) 8 = true ∧ plainLegal (encR 1 1 2 0 0 0xFFFF) 0xFFFF = true ∧ plainLegal (encR 0 0 0 0 0 255) 0xFF = true ∧
    (exe []).sems.find (0, 255) = none ∧ plainLegal (encR 1 2 0 0 0 4) 7 = true ∧ (exe []).moverFor 0 4 = some 0 ∧ (exe []).coreHeld 0 0 = false ∧
    ((exe []).stream ⟨0, 0, 1, 0⟩).unacked < 65536 ∧ plainLegal (encR 0 0 0 0 0 15) 0xF = true ∧ (exe []).moversFree 0 15 = true ∧
    plainLegal (encR 1 0 0 0 0 7) 0xF = true ∧ plainLegal (encR 0 1 0 0 0 6) 0xF = true ∧ plainLegal (encR 0 0 0 0 0 0xFFFF) 0xFFFF = true ∧
    ((exe []).core 0).mq = [] ∧ ((exe []).core 0).load = none := by
  unfold State.issues CoreCtx.ready; decide +kernel
def holding (c : Nat) : State := { exe [] with sems := [((0, 255), ⟨0, c, 0⟩)] }
def waiting (t : Nat) : State := up.setCore 0 { running [] with run := .blocked (.wait 0 1 false 1 (some t)) }
theorem witness_SystemInstructions_blocked : (holding 0).issues 0 ∧ (holding 0).sems.find (0, 255) = some ⟨0, 0, 0⟩ ∧
    (holding 1).sems.find (0, 255) = some ⟨0, 1, 0⟩ ∧ ((waiting up.datum).core 0).run = .blocked (.wait 0 1 false 1 (some up.datum)) ∧
    up.datum ≤ (waiting up.datum).datum := by
  unfold State.issues; decide +kernel

/-- An uncorrectable error in the last word of the scratchpad: loads of it are met by SCRATCH_UE; without one they are not. -/
def scarred (regs : Tbl Nat Word) : State := { exe regs with upsets := [(keyScr 0 (2 ^ 24 - 8), true)] }
theorem witness_ScratchpadAccess_error : (scarred []).issues 0 ∧ ((scarred []).scrReads 0 [(2 ^ 24 - 2048, 2048)]).2 = some .scratchUe ∧
    (exe []).scrReads 0 [(2 ^ 24 - 2048, 2048)] = (exe [], none) ∧ (exe []).scrReads 0 [(2 ^ 24 - 8, 8)] = (exe [], none) ∧
    (exe []).scrReads 0 (wldReads 0 0 (2 ^ 24 - 128 * rowBytes 0) 0 0) = (exe [], none) ∧ accLegal (encR 31 1 1 0 0 3) = true ∧
    accLegal (encR 0 0 0 0 0 3) = true := by
  unfold State.issues; decide +kernel

/-- R203, R207, R236: a core that waits; a PC at the end of the kernel's code; registers that wait, or are poisoned. -/
def stuck (l p : List Nat) (pc : Nat) : State := up.setCore 0 { running [] with loading := l, poison := p, pc := pc }
theorem witness_CoreGates : ((waiting 0).core 0).run ≠ .running ∧ ((stuck [] [] 4160).core 0).run = .running ∧ (stuck [] [] 4160).selected 0 = true ∧
    targetOk ((stuck [] [] 4160).core 0) ((stuck [] [] 4160).core 0).pc = false ∧ (stuck [1] [] 4096).issues 0 ∧ (stuck [] [1] 4096).issues 0 ∧
    rOk (encR 1 1 0 0 0 1) true true true false 0 = false ∧ rOk (encR 1 1 0 0 0 0) true true true false 0 = true ∧
    rA (encR 1 1 0 0 0 0) ∈ ((stuck [1] [] 4096).core 0).loading ∧ rA (encR 1 1 0 0 0 0) ∈ ((stuck [] [1] 4096).core 0).poison ∧
    rA (encR 1 1 0 0 0 0) ∉ ((stuck [] [1] 4096).core 0).loading := by
  unfold State.issues; decide +kernel

/-! Results worked out by hand from Tables 7.3 to 7.8. -/

def result (i : BitVec 56 → State → Res) (f : BitVec 56) (regs : Tbl Nat Word) : Word := (coreOf (i f (exe regs))).rs 3
/-- R210: sums wrap modulo 2^64. -/
theorem test_add_wraps : result (fun f => exec (.add 0 f)) (encR 3 1 2 0 0 0) [(1, BitVec.allOnes 64), (2, 2)] = 1 := by decide +kernel
theorem test_sub_order : result (fun f => exec (.sub 0 f)) (encR 3 1 2 0 0 0) [(1, 5), (2, 7)] = 0xFFFFFFFFFFFFFFFE := by decide +kernel
theorem test_mulhs_signs : result (fun f => exec (.mulhs 0 f)) (encR 3 1 2 0 0 0) [(1, BitVec.allOnes 64), (2, 1)] = BitVec.allOnes 64 := by decide +kernel
theorem test_mulhu : result (fun f => exec (.mulhu 0 f)) (encR 3 1 2 0 0 0) [(1, BitVec.allOnes 64), (2, 2)] = 1 := by decide +kernel
/-- R213: a division by zero. -/
theorem test_divu_zero : result (fun f => exec (.divu 0 f)) (encR 3 1 2 0 0 0) [(1, 9)] = BitVec.allOnes 64 := by decide +kernel
theorem test_rems_sign : result (fun f => exec (.rems 0 f)) (encR 3 1 2 0 0 0) [(1, 0xFFFFFFFFFFFFFFF9), (2, 2)] = BitVec.allOnes 64 := by decide +kernel
theorem test_sar : result (fun f => exec (.sar 0 f)) (encR 3 1 2 0 0 0) [(1, 0x8000000000000000), (2, 63)] = BitVec.allOnes 64 := by decide +kernel
theorem test_bswap : result (fun f => exec (.bswap 0 f)) (encR 3 1 0 0 0 0) [(1, 0x0102030405060708)] = 0x0807060504030201 := by decide +kernel
theorem test_fadd : result (fun f => exec (.fadd 0 f)) (encR 3 1 2 0 0 0) [(1, 0x3F800000), (2, 0x40000000)] = 0x40400000 := by decide +kernel
/-- Table 7.5: a branch that is not taken falls through; CALL leaves the next address in s63. -/
theorem test_beq_falls : (coreOf (exec (.beq 0 (BitVec.ofNat 56 (2 ^ 50 + 3))) (exe [(1, 1)]))).pc = 4104 := by decide +kernel
theorem test_call : (coreOf (exec (.call 0 3) (exe []))).rs 63 = 4104 ∧ (coreOf (exec (.call 0 3) (exe []))).pc = 4120 := by decide +kernel
/-- s0 discards what is written to it (Table 7.1). -/
theorem test_s0 : (coreOf (exec (.addi 0 (encI 0 0 0 5)) (exe []))).rs 0 = 0 := by decide +kernel
/-- A store and a load of the last bytes of a scratchpad. -/
theorem test_sts_lds : (coreOf (exec (.lds 0 (encI 3 0 4 (2 ^ 24 - 1))) (after (exec (.sts 0 (encI 1 0 0 (2 ^ 24 - 1))) (exe [(1, 0x1FE)]))))).rs 3 =
    0xFFFFFFFFFFFFFFFE := by decide +kernel

/-! Remote memory. -/

/-- A descriptor from its fields (offset, bytes, value). -/
def desc (l : List (Nat × Nat × Nat)) : BitVec 512 := BitVec.ofNat 512 (leNat (puts (zs 64) l))
/-- The descriptor d at the head of queue q of octant 0, from agent 3 of sheet 0. -/
def qd (d : BitVec 512) : QDesc := ⟨0, 3, 1, d⟩
def queue (q : Nat) (d : BitVec 512) (s : State := up) : State := { s with ep := { s.ep with queues := [((0, q), [qd d])] } }
/-- An operation of 16 B from offset 0 here to offset 256 of logical device 1; RACC and INVALIDATE take their own lengths. -/
def rdesc (op len aux : Nat) : BitVec 512 := desc [(0, 1, op), (8, 8, 2 ^ 44 + 256), (24, 4, len), (32, 8, 2 ^ 44 + 512), (48, 8, 2 ^ 44 - 8), (56, 4, aux)]
theorem witness_EndpointDescriptors : ∀ e ∈ [(4, 2 ^ 30, 0), (5, 16, 0), (6, 256, 4096), (7, 0, 0), (8, 256, 0)],
    (queue 4 (rdesc e.1 e.2.1 e.2.2)).headOf 0 4 (qd (rdesc e.1 e.2.1 e.2.2)) ∧ dAt (rdesc e.1 e.2.1 e.2.2) 0 1 = e.1 ∧
    ((queue 4 (rdesc e.1 e.2.1 e.2.2)).popQueue 0 4).logicalOf 1 5 0 = some 0 ∧ ((queue 4 (rdesc e.1 e.2.1 e.2.2)).popQueue 0 4).agentHeld 0 3 = false ∧
    ((queue 4 (rdesc e.1 e.2.1 e.2.2)).popQueue 0 4).rmoCheck 0 0 (rdesc e.1 e.2.1 e.2.2) = none ∧
    ((queue 4 (rdesc e.1 e.2.1 e.2.2)).popQueue 0 4).agentBusy 0 3 = false := by
  unfold State.headOf; decide +kernel
/-- One that fails a check, one whose agent has a fence pending, and the fence that a FENCE descriptor leaves. -/
theorem witness_EndpointDescriptors_refused : (queue 4 (rdesc 8 257 0)).headOf 0 4 (qd (rdesc 8 257 0)) ∧
    ((queue 4 (rdesc 8 257 0)).popQueue 0 4).rmoCheck 0 0 (rdesc 8 257 0) = some .alignment ∧
    ((queue 4 (rdesc 8 0 0) (up.addFence 0 3 1 none false (.desc 0 0))).popQueue 0 4).agentHeld 0 3 = true ∧
    (((queue 4 (rdesc 7 0 0)).popQueue 0 4).addFence 0 3 1 none false (.desc (2 ^ 44 - 8) 0)).ep.fences.find? (fun f =>
      f.id == ((queue 4 (rdesc 7 0 0)).popQueue 0 4).ep.nextId) = some ⟨1, 0, 3, 1, none, [], false, .desc (2 ^ 44 - 8) 0⟩ := by
  unfold State.headOf; decide +kernel

/-- An INVALIDATE behind an operation of its agent; the list of its readers is read without an error. -/
theorem witness_EndpointDescriptors_busy : let s := queue 4 (rdesc 6 256 2) { up with ep := { up.ep with ops := [⟨1, ⟨0, 3, 1, 1⟩, 0, 1, [], true, none, false, OpEnd.none⟩] } }
    s.headOf 0 4 (qd (rdesc 6 256 2)) ∧ (s.popQueue 0 4).agentHeld 0 3 = false ∧ (s.popQueue 0 4).rmoCheck 0 0 (rdesc 6 256 2) = none ∧
    (s.popQueue 0 4).agentBusy 0 3 = true ∧ (s.popQueue 0 4).meets 0 2 (descReads (rdesc 6 256 2)) = (s.popQueue 0 4, none) := by
  unfold State.headOf; decide +kernel

/-- A request frame from logical device 1 (device 6) of job 1 to sheet 0. -/
def req (op addr spec flag : Nat) (p : List Byte) : Frame :=
  { frame0 with op := BitVec.ofNat 8 op, dstDev := 5, srcDev := 6, agent := 3, job := 1, addr := BitVec.ofNat 44 addr, spec := BitVec.ofNat 16 spec,
                opflag := BitVec.ofNat 2 flag, last := true, payload := p }
/-- The last places of the HBM window. -/
theorem witness_RemoteRequests_executes : ∀ e ∈ [(1, true), (2, true), (3, true), (4, true), (5, false), (6, false), (8, true)],
    up.executes (req e.1 0 3 0 (zs 16)) e.1 1 e.2 := by
  unfold State.executes; decide +kernel
theorem witness_RemoteRequests_free : ∀ e ∈ [(1, 3, 0, 8, false), (1, 8, 1, 256, false), (2, 3, 0, 8, true), (3, 3, 1, 8, true), (5, 16, 1, 16, false), (5, 0, 0, 16, true)],
    (up.arrived (req e.1 (2 ^ 30 - e.2.2.2.1) e.2.1 e.2.2.1 (zs e.2.2.2.1))).windowCheck (req e.1 (2 ^ 30 - e.2.2.2.1) e.2.1 e.2.2.1 (zs e.2.2.2.1)) 1
      [(2 ^ 30 - e.2.2.2.1, e.2.2.2.1, e.2.2.2.2)] = none ∧
    (up.arrived (req e.1 0 3 0 [])).regionRefuses 0 (2 ^ 30 - e.2.2.2.1) e.2.2.2.1 e.2.2.2.2 1 1 = none ∧
    ((up.arrived (req e.1 0 3 0 [])).meets 0 1 [(2 ^ 30 - e.2.2.2.1, e.2.2.2.1, e.2.2.2.2)]).2 = none := by decide +kernel
theorem witness_RemoteRequests_rest : isGet (req 5 0 16 1 []) = true ∧ isGet (req 5 0 0 0 []) = false ∧ denseOf (req 5 0 0 0 (zs 16)) = some (zs 16) ∧
    (up.arrived (req 5 0 0 0 (zs 16))).poolHolds (req 5 0 0 0 (zs 16)) 16 = none ∧ (up.arrived (req 4 0 0 0 (zs 16))).locate 0 0 = some (.hbm 0) ∧
    (up.arrived (req 4 0 0 0 (zs 16))).collAccess 0 0 1 1 3 false ≠ some false ∧ (up.arrived (req 8 0 0 0 (zs 16))).wordIn 0 0 = true ∧ (zs 16).length ≤ 16 ∧
    16 < (zs 24).length ∧ (up.arrived (req 8 64 0 0 (zs 24))).windowCheck (req 8 64 0 0 (zs 24)) 1 [(64, 8, true), (0, 8, true)] = none := by decide +kernel

/-- A contribution to a context that has 32,768 elements to commit, or none. -/
def raccS (n : Nat) : State := { up with hubs := { up.hubs with ctxs := [⟨up.hubOf 0 0, 1, 9, 0, some 0, false, false, 0, n, 0, none, [], false⟩] } }
theorem witness_RemoteRequests_racc : ∀ e ∈ [(32768, true), (32764, false)], (raccS e.1).executes (req 4 0 9 0 (zs 16)) 4 1 true ∧
    ((raccS e.1).arrived (req 4 0 9 0 (zs 16))).raccFull (req 4 0 9 0 (zs 16)) = e.2 ∧ ((raccS e.1).arrived (req 4 0 9 0 (zs 16))).locate 0 0 = some (.hbm 0) := by
  unfold State.executes; decide +kernel

/-- A store of a descriptor to the last slot of the Plotting page of octant 0, from core 31 of the same sheet; the queue has room for one more, or none. -/
def own (agent addr : Nat) : Frame := { req 2 addr 6 0 (zs 64) with srcDev := 5, agent := BitVec.ofNat 9 agent }
def full (n : Nat) (s : State := up) : State := { s with ep := { s.ep with queues := [((0, 1), List.replicate n (qd 0))] } }
theorem witness_EngineQueues : ∀ n ∈ [queueRoom 1 - 1, queueRoom 1], (full n).executes (own 31 0x2000001FFC0) 2 0 true ∧
    ((full n).arrived (own 31 0x2000001FFC0)).locate 0 0x2000001FFC0 = some (.queue 0 1 0xFFC0) ∧ 0xFFC0 % 64 = 0 ∧
    ((full n).arrived (own 31 0x2000001FFC0)).foreign (own 31 0x2000001FFC0) = false ∧ (own 31 0x2000001FFC0).agent.toNat / 32 = 0 ∧
    (((full n).arrived (own 31 0x2000001FFC0)).ep.queues.getD (((full n).arrived (own 31 0x2000001FFC0)).physOct 0 0, 1) []).length = n := by
  unfold State.executes; decide +kernel
def held : State := { up with ep := { up.ep with stalled := [own 31 0x2000001FFC0] } }
theorem witness_EngineQueues_held : held.ep.stalled.find? (fun g => g.op != 4 && (held.effect g 0).2 != .stall) = some (own 31 0x2000001FFC0) ∧
    held.sourceOf (own 31 0x2000001FFC0) = some 0 := by decide +kernel

/-- An operation of agent 3 to logical device 1, its entry of the replay buffer, and answers that name it. -/
def okey : StreamKey := ⟨0, 3, 1, 1⟩
def remoteOp (todo : List PlanFrame) (agent : Nat := 3) : RemoteOp := ⟨1, { okey with agent := agent }, 0, 1, todo, true, none, false, OpEnd.none⟩
def entryOf (op : Nat) (nack : Option Nat) (t : Nat) : ReplayEntry := ⟨okey, 0, 1, { req op 0 3 0 [] with srcDev := 5, dstDev := 6 }, t, t, nack, nack.isSome, none, none⟩
def outstanding (op : Nat) (nack : Option Nat) (t : Nat) : State :=
  { up with ep := { up.ep with ops := [remoteOp []], replay := [entryOf op nack t], streams := [(okey, ⟨1, 1, 0, 0, none⟩)] } }
def answer (kind : Nat) (op : Nat) : Frame := { req op 0 0 0 [] with kind := BitVec.ofNat 4 kind }
theorem witness_RemoteAnswersAndTimers : ∀ k ∈ [1, 2, 3], (answer k 1).kind.toNat = k ∧ (outstanding 1 none 0).admitted (answer k 1).job.toNat = true ∧ (outstanding 1 none 0).tagGood (answer k 1) = true ∧
    (outstanding 1 none 0).ep.replay.find? (fun x => (x.named (answer k 1) && x.seq % 2 ^ 32 == (answer k 1).seq.toNat) && x.wants) = some (entryOf 1 none 0) ∧
    (entryOf 1 none 0).get = none ∧ (outstanding 1 none 0).ep.replay.find? (fun x => x.named (answer k 1) && x.seq % 2 ^ 32 == (answer k 1).seq.toNat) = some (entryOf 1 none 0) ∧
    (answer k 1).spec.toNat ≠ Status.notParent.code := by decide +kernel
/-- The answer of a get of 16 bytes to offset 512, and one that refuses. -/
def getEntry : ReplayEntry := { entryOf 5 none 0 with get := some (0, 512), frame := { req 5 0 16 1 [] with srcDev := 5, dstDev := 6 } }
def getting : State := { outstanding 5 none 0 with ep := { (outstanding 5 none 0).ep with replay := [getEntry] } }
theorem witness_RemoteAnswersAndTimers_get : ∀ c ∈ [Status.ok, Status.addressRange],
    let f := { answer 1 5 with spec := BitVec.ofNat 16 c.code, payload := if c = .ok then zs 16 else [] }
    f.kind.toNat = 1 ∧ getting.admitted f.job.toNat = true ∧ getting.tagGood f = true ∧ (Status.ofCode f.spec.toNat).getD .ok = c ∧
    getting.ep.replay.find? (fun x => (x.named f && x.seq % 2 ^ 32 == f.seq.toNat) && x.wants) = some getEntry := by
  decide +kernel
/-- The intervals end at this tick: the entry was sent that long ago. -/
theorem witness_RemoteAnswersAndTimers_replay : let t := up.datum - usTicks (max 1 (up.get F.RMO_CTL_replay_interval))
    (outstanding 2 none t).entry? ⟨0, 3, 1, 1⟩ 0 = some (entryOf 2 none t) ∧ (entryOf 2 none t).backoff = false ∧
    (entryOf 2 none t).last + usTicks (max 1 ((outstanding 2 none t).get F.RMO_CTL_replay_interval)) ≤ (outstanding 2 none t).datum ∧
    (outstanding 2 none t).inWindow (entryOf 2 none t).frame = false := by decide +kernel
theorem witness_RemoteAnswersAndTimers_backoff : let t := up.datum - usTicks (max 1 (up.get F.RMO_CTL_retry_backoff))
    (outstanding 2 (some t) 0).entry? ⟨0, 3, 1, 1⟩ 0 = some (entryOf 2 (some t) 0) ∧ (entryOf 2 (some t) 0).backoff = true ∧
    (entryOf 2 (some t) 0).nack.getD 0 + usTicks (max 1 ((outstanding 2 (some t) 0).get F.RMO_CTL_retry_backoff)) ≤ (outstanding 2 (some t) 0).datum := by decide +kernel
theorem witness_RemoteAnswersAndTimers_timeout : let t := up.datum - usTicks (max 100 (up.get F.RMO_TIMEOUT_op_timeout))
    (outstanding 2 none t).entry? ⟨0, 3, 1, 1⟩ 0 = some (entryOf 2 none t) ∧
    (entryOf 2 none t).first + usTicks (max 100 ((outstanding 2 none t).get F.RMO_TIMEOUT_op_timeout)) ≤ (outstanding 2 none t).datum ∧
    (outstanding 2 none t).treeEntry (entryOf 2 none t) = false := by decide +kernel
def stalledOp : State := { up with ep := { up.ep with ops := [remoteOp [⟨frame0, none, none⟩] 256] } }
theorem witness_RemoteAnswersAndTimers_resume : stalledOp.ep.ops.filter (fun o => o.key.sheet == 0 && o.key.agent == 256 && !o.todo.isEmpty) =
    [remoteOp [⟨frame0, none, none⟩] 256] := by decide +kernel

/-- The last region of the window: opened to all by its owner, or made a private one. -/
def regionP (n owner mode : Nat) : List Byte := puts (zs 24) [(0, 8, 2 ^ 30 - n * 2 ^ 21), (8, 4, n), (12, 4, owner), (16, 1, mode)]
theorem witness_RegionsAndRegisters : ∀ e ∈ [(1, 0, 0), (512, 2 ^ 20 - 1, 3)], up.takes 0x0400 (host 24) (regionP e.1 e.2.1 e.2.2) ∧
    ((host 24).params (regionP e.1 e.2.1 e.2.2)).length = 24 ∧ uAt ((host 24).params (regionP e.1 e.2.1 e.2.2)) 0 8 % 2 ^ 21 = 0 ∧
    uAt ((host 24).params (regionP e.1 e.2.1 e.2.2)) 8 4 = e.1 ∧ uAt ((host 24).params (regionP e.1 e.2.1 e.2.2)) 12 4 < 2 ^ 20 ∧
    uAt ((host 24).params (regionP e.1 e.2.1 e.2.2)) 16 1 = e.2.2 ∧ uAt ((host 24).params (regionP e.1 e.2.1 e.2.2)) 17 7 = 0 ∧
    uAt ((host 24).params (regionP e.1 e.2.1 e.2.2)) 0 8 + e.1 * 2 ^ 21 ≤ ((up.taken (host 24)).sheet 0).usable ∧
    ((List.range e.1).any fun y => fld ((up.taken (host 24)).ep.regions.getD (0, uAt ((host 24).params (regionP e.1 e.2.1 e.2.2)) 0 8 / 2 ^ 21 + y) 0) 21 2 != e.2.1) =
      (e.2.1 != 0) := by
  unfold State.takes; decide +kernel
theorem witness_RegionsAndRegisters_bits : (BitVec.ofNat 64 (2 ^ 63)).getLsbD 63 = true ∧ regPlace 0x3000A000000 = some (10, 0, 0) ∧ (regAt 10 0 0).isSome = true := by
  decide +kernel

/-! Routing. -/

/-- A layer of mode m in a Gazetteer segment of all 1,024 entries. -/
def layerRow (m : Nat) : List Byte := puts (zs 128) [(0, 1, m), (1, 1, 10), (2, 1, 1), (8, 2, 16), (12, 4, 1), (64, 8, 4096), (72, 4, 1), (76, 4, 65536)]
theorem witness_RoutingTables_layer : ∀ l ∈ [zs 8 ++ layerRow 0, put (zs 136) 8 1 255], up.takes 0x0700 (host 136) l ∧
    ((host 136).params l).length = 136 ∧ pass (layerChecks ((host 136).params l)) ∧
    ((layerRec (((host 136).params l).drop 8)).mode = 255 ∨ (layerRec (((host 136).params l).drop 8)).segment + 2 ^ (layerRec (((host 136).params l).drop 8)).sizeLog2 ≤
      ((up.taken (host 136)).sheet 0).gazEntries) := by
  unfold State.takes Machine.pass; decide +kernel
/-- The last entry of the Gazetteer, of the sets, of the members and of the expert directory. -/
theorem witness_RoutingTables_gaz : let q := puts (zs 24) [(0, 4, 1023), (4, 4, 1), (16, 8, 2 ^ 63 + 2 ^ 20 - 1)]
    up.takes 0x0701 (host 24) q ∧ ((host 24).params q).length = 16 + 8 * 1 ∧ uAt q 4 4 = 1 ∧ uAt q 8 8 = 0 ∧ bitsOf (uAt q 16 8) 62 20 = 0 ∧
    uAt q 0 4 + 1 ≤ ((up.taken (host 24)).sheet 0).gazEntries := by
  unfold State.takes; decide +kernel
theorem witness_RoutingTables_cset : let q := puts (zs 24) [(4, 4, 1048575), (8, 4, 1), (19, 2, 256)]
    let p := puts (zs 20) [(0, 1, 1), (4, 4, 16777215), (8, 4, 1), (16, 4, 2 ^ 20 - 1)]
    up.takes 0x0702 (host 24) q ∧ uAt q 0 1 = 0 ∧ uAt q 1 3 = 0 ∧ uAt q 8 4 = 1 ∧ q.length = 24 ∧ uAt q 12 4 = 0 ∧ uAt q 16 8 < 2 ^ 33 ∧
    bitsOf (uAt q 16 8) 32 24 = 256 ∧ uAt q 4 4 + 1 ≤ 1048576 ∧
    up.takes 0x0702 (host 20) p ∧ uAt p 0 1 = 1 ∧ uAt p 1 3 = 0 ∧ uAt p 8 4 = 1 ∧ p.length = 20 ∧ uAt p 12 4 = 0 ∧ uAt p 16 4 < 2 ^ 20 ∧ uAt p 4 4 + 1 ≤ 16777216 := by
  unfold State.takes; decide +kernel
theorem witness_RoutingTables_dir : let q := puts (zs 80) [(0, 4, 1048575), (4, 4, 1), (16, 1, 8)]
    up.takes 0x0703 (host 80) q ∧ ((host 80).params q).length = 16 + 64 * 1 ∧ uAt q 4 4 = 1 ∧ uAt q 8 8 = 0 ∧ uAt q 0 4 + 1 ≤ 1048576 ∧ uAt q 16 1 ≤ 8 ∧ uAt q 17 7 = 0 ∧
    uAt q 56 24 = 0 := by
  unfold State.takes; decide +kernel
theorem witness_RoutingTables_commit : up.takes 0x0704 (host 8) (zs 8) ∧ ((host 8).params (zs 8)).length = 8 ∧ uAt (zs 8) 0 1 = 0 ∧ uAt (zs 8) 1 1 = 0 ∧ uAt (zs 8) 2 2 = 0 ∧
    (up.routingOf 0).writable = some true := by
  unfold State.takes; decide +kernel
/-- A half that drains with no work below the other's target, and one that is copied. -/
def halves (st : HalfSt) (seen : Option Nat) : State :=
  up.setRouting 0 { Routing.reset with h0 := { Half.fresh .active true with layers := [(3, layerRow 2)] }, h1 := Half.fresh st false, seen := seen }
theorem witness_RoutingTables_halves : (((halves .draining none).routingOf 0).half true).st = .draining ∧ (((halves .draining none).routingOf 0).half (!true)).st ≠ .draining ∧
    (halves .draining none).workBelow 0 (((halves .draining none).routingOf 0).half (!true)).target = false ∧
    (((halves .syncing none).routingOf 0).half true).st = .syncing ∧ (((halves .syncing none).routingOf 0).half (!true)).st ≠ .syncing ∧
    ((halves .syncing none).routingOf 0).writable = none := by decide +kernel

/-- Submissions: one token of layer 3 in step n and epoch 5. -/
def openEpoch (s : State) : State := s.setExch 0 { Exch.reset with epochs := [(5, { Epoch.free with st := .open_, step := 9, job := 1 })] }
def svyD (tokens step : Nat) : BitVec 512 := desc [(0, 1, 1), (1, 1, 3), (2, 2, 5), (4, 4, tokens), (8, 4, step), (48, 8, 8), (56, 4, 7)]
def svyS (n step : Nat) : State := queue 0 (svyD n step) (openEpoch (halves .spare (some 9)))
theorem witness_Survey : (svyS 1 9).headOf 0 0 (qd (svyD 1 9)) ∧ (svyS 1 9).surveys.find 0 = none ∧
    (((svyS 1 9).routingOf 0).layerAt 9 3).isSome = true ∧ svyFormatOk (svyD 1 9) (((svyS 1 9).routingOf 0).layerAt 9 3) = true ∧
    ((svyS 1 9).popEngine 0 0).halted 0 = false ∧ ((svyS 1 9).popEngine 0 0).epochOpen 0 5 9 = true ∧ ((svyS 1 9).routingOf 0).seen = some 9 := by
  unfold State.headOf; decide +kernel
def oldHalves : State := { halves .spare none with routing := [(0, { Routing.reset with retired := 10 })] }
theorem witness_Survey_refused : (svyS 0 9).headOf 0 0 (qd (svyD 0 9)) ∧ svyFormatOk (svyD 0 9) (((svyS 0 9).routingOf 0).layerAt 9 3) = false ∧
    (queue 0 (svyD 1 9) oldHalves).headOf 0 0 (qd (svyD 1 9)) ∧ svyFormatOk (svyD 1 9) (((queue 0 (svyD 1 9) oldHalves).routingOf 0).layerAt 9 3) = true ∧
    ((queue 0 (svyD 1 9) oldHalves).popEngine 0 0).halted 0 = false ∧ ((queue 0 (svyD 1 9) oldHalves).routingOf 0).select 9 = none := by
  unfold State.headOf; decide +kernel
def surveying : State := { up with surveys := [(0, ⟨0, 3, 9, 0, zs 16, .ok, 8, 7, 1, 1, 1, false⟩)] }
theorem witness_Survey_complete : (surveying.surveys.find 0).isSome = true := by decide +kernel

/-- The worked example after R78 (Table 3.3): the token 0x4B2C1 of layer 17 hashes to a word whose low 16 bits are 0xDF06. -/
theorem test_gz_hash : gzHash 0x4B2C1 0x71D40E935B2AC6F8 = 0x985AC1EFDE20DF06 := by decide +kernel
/-- The worked example at the end of chapter 8: the exact sum of the chunk reads as 0x47800001, and chunk28 and the rounding make 0x47800000 of it. -/
theorem test_accrd_exact : (accRead (.col 18) 0 ⟨17179870976, 0⟩).1 = 0x47800001 := by decide +kernel

/-! Exchange. -/

theorem find_map_key {α : Type} (l : List Nat) (v : α) (k : Nat) (h : k ∈ l) : Tbl.find (l.map fun e => (e, v)) k = some v := by
  induction l with
  | nil => cases h
  | cons a l ih =>
    by_cases hk : a = k
    · simp [Tbl.find, hk]
    · simp only [List.map_cons, Tbl.find, hk, if_false]
      exact ih (by simpa [Ne.symm hk] using h)

/-- Traverse descriptors of layer 3, step 9 and epoch 5 from octant 0. -/
def trvD (op : Nat) (more : List (Nat × Nat × Nat)) : BitVec 512 := desc ([(0, 1, op), (4, 4, 9), (48, 8, 16), (56, 4, 7)] ++ more)
def trvS (d : BitVec 512) (f : Exch → Exch := id) : State :=
  let s := openEpoch (halves .spare (some 9))
  queue 2 d (s.setExch 0 (f (s.exchOf 0)))
theorem witness_TraverseDescriptors : ∀ e ∈ [(1, [(8, 8, 64)]), (2, [(1, 1, 3), (2, 2, 5), (8, 1, 1)]), (3, [(1, 1, 3), (24, 4, 1048576), (28, 4, 65536)]), (4, [(1, 1, 3)]),
      (5, [(2, 2, 5)]), (6, [(2, 2, 5)]), (7, [(1, 1, 3), (2, 2, 5), (8, 4, 2 ^ 20 - 1), (12, 4, 1)])],
    (trvS (trvD e.1 e.2)).headOf 0 2 (qd (trvD e.1 e.2)) ∧ ((trvS (trvD e.1 e.2)).popEngine 0 2).trvCheck 0 (qd (trvD e.1 e.2)) = none := by
  unfold State.headOf; decide +kernel
theorem witness_TraverseDescriptors_refused : ∀ e ∈ [(1, [(1, 1, 1)]), (2, []), (3, []), (4, [(1, 1, 4)]), (5, []), (6, []), (7, [])],
    (trvS (trvD e.1 e.2)).headOf 0 2 (qd (trvD e.1 e.2)) ∧ (((trvS (trvD e.1 e.2)).popEngine 0 2).trvCheck 0 (qd (trvD e.1 e.2))).isSome = true := by
  unfold State.headOf; decide +kernel
def ownBatch (started : Bool) (plots plotN since : Nat) : Batch :=
  { id := 1, sheet := 0, job := 1, own := 0, oct := 0, key := (9, 3, 5), replay := false, plotN := plotN, fmt := 0, resid := false, relay := false, log := false, result := 0,
    residA := 0, logA := 0, relayA := 0, payload := 0, stride := 0, pool := 0, tokFirst := 0, tokCount := 0, done := 16, tag := 7, since := since, started := started, ended := false,
    sending := false, cancel := false, late := false, wave := 0, round := 0, half := false, outBytes := 16, fails := [], plots := List.replicate plots ⟨0, 0, 0, 1, 0, 0, 0, []⟩,
    asgs := [], awaiting := [], cont := [], told := [], parts := [], spares := [], written := [], k := 1, strict := true, table := [], manifests := [] }
def armedRecv (cap : Nat) (f : Recv → Recv := id) : Recv :=
  f { id := 2, sheet := 0, job := 1, own := 0, oct := 0, layer := 3, step := 9, arrival := 0, list := 0, cap := cap, outBytes := 16, done := 16, tag := 7, bound := [], took := [], gone := [],
      strict := true, begun := false, used := [], censuses := [], computed := [], final := [], cont := [], full := [], served := [], again := [], lists := [], placing := [], ended := false }
def busy : List (Nat × Epoch) := (List.range 4096).map fun e => (e, { Epoch.free with st := .open_ })
theorem witness_TraverseDescriptors_epochs : ((List.range 4096).find? (fun e => (((trvS (trvD 1 [])).popEngine 0 2).epochAt 0 e).st == .free) = some 0) ∧
    (List.range 4096).find? (fun e => (((trvS (trvD 1 []) fun x => { x with epochs := busy }).popEngine 0 2).epochAt 0 e).st == .free) = none := by
  refine ⟨by decide +kernel, ?_⟩
  have h : ∀ l : List (Nat × Epoch), ((((trvS (trvD 1 []) fun x => { x with epochs := l }).popEngine 0 2).exchOf 0).epochs) = l := fun _ => rfl
  rw [List.find?_eq_none]
  intro e he
  rw [State.epochAt, h, busy, Tbl.getD, find_map_key _ _ _ he]
  decide
theorem witness_TraverseDescriptors_batches : let d := trvD 2 [(1, 1, 3), (2, 2, 5), (8, 1, 1)]
    ((((((trvS d).popEngine 0 2).newBatch 0 (qd d) false).1.exchOf 0).batches.any fun y => y.key == (9, 3, 5) && !y.replay) = false) ∧
    ((((trvS d).popEngine 0 2).newBatch 0 (qd d) false).1.exchOf 0).counts = [] ∧
    (((((trvS d fun x => { x with batches := [ownBatch false 0 1 0] }).popEngine 0 2).newBatch 0 (qd d) false).1.exchOf 0).batches.any fun y => y.key == (9, 3, 5) && !y.replay) = true ∧
    ((trvS (trvD 4 [(1, 1, 3)])).popEngine 0 2).armed 0 9 3 = [] ∧
    (((trvS (trvD 4 [(1, 1, 3)]) fun x => { x with recvs := [armedRecv 4] }).popEngine 0 2).armed 0 9 3).head? = some (armedRecv 4) := by decide +kernel
theorem witness_TraverseDescriptors_replay : let d := trvD 7 [(1, 1, 3), (2, 2, 5), (8, 4, 2 ^ 20 - 1), (12, 4, 1)]
    (((((trvS d).popEngine 0 2).newBatch 0 (qd d) true).1.routingOf 0).select 9).isSome = true ∧
    ((((trvS d).popEngine 0 2).newBatch 0 (qd d) true).1.batchRec (((trvS d).popEngine 0 2).newBatch 0 (qd d) true).2).isSome = true := by decide +kernel
theorem witness_TraverseDescriptors_packet : (trvS 0).takes 0x0302 (host 8) (put (zs 8) 0 2 5) ∧ ((host 8).params (put (zs 8) 0 2 5)).length = 8 ∧ uAt (put (zs 8) 0 2 5) 0 2 < 4096 ∧
    uAt (put (zs 8) 0 2 5) 2 6 = 0 ∧ (((trvS 0).taken (host 8)).epochAt 0 5).st = .open_ := by
  unfold State.takes; decide +kernel

/-- A record of each kind from logical device 1. -/
def record (kind : Nat) : Frame :=
  { req 0 0 0 0 (RecHdr.bytes ⟨kind, 3, 0, 0, 1, 9, 1, 5, 0, 0⟩) with kind := 4, agent := 256 }
theorem witness_EngineRecords : ∀ k ∈ [1, 2, 3, 4, 5, 6], (record k).kind = 4 ∧ ((trvS 0).takeIn (record k)).2 = some 1 ∧ (recHdr (record k).payload).kind = k := by decide +kernel

def pltD (n : Nat) : BitVec 512 := desc [(0, 1, 1), (1, 1, 3), (2, 2, 5), (4, 4, 9), (8, 4, n), (12, 4, 65536), (48, 8, 16), (56, 4, 7)]
def pltS (n : Nat) : State := queue 1 (pltD n) (openEpoch (halves .spare (some 9)))
theorem witness_PlottingAndWaves : (pltS 1048576).headOf 0 1 (qd (pltD 1048576)) ∧ (pltS 1048576).plotRuns.find 0 = none ∧
    (((pltS 1048576).routingOf 0).layerAt 9 3).isSome = true ∧ pltFormatOk (pltD 1048576) (((pltS 1048576).routingOf 0).layerAt 9 3) = true ∧
    ((pltS 1048576).popEngine 0 1).epochOpen 0 5 9 = true ∧
    (pltS 0).headOf 0 1 (qd (pltD 0)) ∧ pltFormatOk (pltD 0) (((pltS 0).routingOf 0).layerAt 9 3) = false := by
  unfold State.headOf; decide +kernel
def noPlot : Plot := ⟨0, 0, 0, 1, 0, 0, 0, []⟩
def plotting : State := { up with plotRuns := [(0, ⟨0, (9, 3, 5), noPlot, .ok, 0, zs 16, zs 8, 1, 0, 1, 1, 16, 7, 3, 1, false⟩)] }
def delivered (w : Delivered) : State := { up with deliveries := [(0, [⟨(9, 3, 5), w⟩])] }
def plotFailed : State := { plotting with plotRuns := plotting.plotRuns.map fun e => (e.1, { e.2 with status := .memUe }) }
theorem witness_PlottingAndWaves_refused : let s := queue 1 (pltD 1) (halves .spare (some 9))
    s.headOf 0 1 (qd (pltD 1)) ∧ (s.popEngine 0 1).epochOpen 0 5 9 = false ∧ pltFormatOk (pltD 1) ((s.routingOf 0).layerAt 9 3) = true ∧
    (plotFailed.plotRuns.find 0).map PlotRun.status = some .memUe ∧
    (let t := queue 1 (pltD 1) (openEpoch up);
      t.headOf 0 1 (qd (pltD 1)) ∧ pltFormatOk (pltD 1) none = true ∧ (t.routingOf 0).layerAt 9 3 = none) := by
  unfold State.headOf; decide +kernel
theorem witness_PlottingAndWaves_deliveries : (plotting.plotRuns.find 0).map PlotRun.status = some .ok ∧
    (delivered (.counts noPlot)).deliveries.getD 0 [] = [⟨(9, 3, 5), .counts noPlot⟩] ∧ (delivered (.failed .memUe)).deliveries.getD 0 [] = [⟨(9, 3, 5), .failed .memUe⟩] ∧
    up.octSheet 0 = some 0 := by decide +kernel
def wave (plots since : Nat) (armed : Bool) : State :=
  let s := openEpoch (halves .spare (some 9))
  s.setExch 0 { s.exchOf 0 with batches := [ownBatch false plots 1 since], recvs := if armed then [armedRecv 4] else [] }
theorem witness_PlottingAndWaves_start : (wave 1 0 true).batch? 0 1 = some (ownBatch false 1 1 0) ∧ (ownBatch false 1 1 0).started = false ∧ (ownBatch false 1 1 0).ended = false ∧
    ((wave 1 0 true).armed 0 9 3).head? = some (armedRecv 4) ∧ ((wave 1 0 true).batchRec (ownBatch false 1 1 0)).isSome = true ∧ (ownBatch false 1 1 0).cancel = false ∧
    (ownBatch false 1 1 0).plots.length = (ownBatch false 1 1 0).plotN := by decide +kernel
theorem witness_PlottingAndWaves_timeout : let t := up.datum - up.waveTimeout 0
    (∀ a ∈ [true, false], (wave 0 t a).batch? 0 1 = some (ownBatch false 0 1 t) ∧ t + (wave 0 t a).waveTimeout 0 ≤ (wave 0 t a).datum) ∧
    (wave 0 t true).armed 0 9 3 ≠ [] ∧ (wave 0 t false).armed 0 9 3 = [] ∧ (ownBatch false 0 1 t).plots.length ≠ (ownBatch false 0 1 t).plotN := by decide +kernel

/-- The exchange's engines: a round with its one census, or without it since its timeout. -/
def census (t : Nat) (fs : List Frame) : CensusRec := ⟨0, 1, 1, 3, 9, 5, 0, 0, fs, t, false⟩
def round (cs : List CensusRec) : State :=
  let s := openEpoch (halves .spare (some 9))
  s.setExch 0 { s.exchOf 0 with recvs := [armedRecv 4 fun r => { r with begun := true, censuses := cs }] }
theorem witness_ExchangeTimers_round : ((round [census 0 [record 1]]).strictRound 0 2).map (fun x => (x.2.2.1, x.2.2.2)) = some (0, 0) ∧
    ((round [census 0 []]).strictRound 0 2).map (fun x => (x.2.2.1, x.2.2.2)) = some (0, 0) ∧
    ((round [census 0 [record 1]]).strictRound 0 2).map (fun x => (((x.1.censuses.filter fun c => c.wave == x.2.2.1 && c.round == x.2.2.2).map CensusRec.first))) = some [0] ∧
    ((round [census 0 []]).strictRound 0 2).map (fun x => (round [census 0 []]).roundReady x.1 x.2.1 x.2.2.1 x.2.2.2) = some false ∧
    0 + (round []).censusTimeout 0 ≤ (round []).datum := by decide +kernel
/-- The participant list of the layer, which names logical device 0: with no source gone the round waits, with it gone it is ready. -/
theorem witness_ExchangeTimers_ready : ((let s := (round []).updExch 0 fun x => { x with recvs := x.recvs.map fun r => { r with gone := [0] } }
    (s.strictRound 0 2).map fun x => s.roundReady x.1 x.2.1 x.2.2.1 x.2.2.2)) = some true := by decide +kernel
def asking (t : Nat) : Batch := { ownBatch true 1 1 0 with awaiting := [⟨1, [], t, [], []⟩] }
def batchS (b : Batch) (s : State := openEpoch (halves .spare (some 9))) : State := s.setExch 0 { s.exchOf 0 with batches := [b] }
theorem witness_ExchangeTimers_grant : let t := up.datum - up.waveTimeout 0
    (batchS (asking t)).batch? 0 1 = some (asking t) ∧ (asking t).awaiting.find? (fun w => w.dest == 1) = some ⟨1, [], t, [], []⟩ ∧
    ((batchS (asking t)).batchRec (asking t)).isSome = true ∧ t + (batchS (asking t)).waveTimeout 0 ≤ (batchS (asking t)).datum ∧ (asking t).ended = false ∧
    (asking t).cancel = false := by decide +kernel
def aPart (st : PartSt) (t : Nat) : Part := ⟨4, 0, 1, 0, [], 0, 0, 0, 0, none, st, t, none⟩
def parted (st : PartSt) (t : Nat) : Batch := { ownBatch true 1 1 0 with parts := [aPart st t] }
def reserving (t : Nat) : State :=
  (batchS (parted .reserving t)).setPool 0 { Pool.off with waitReq := [⟨7, .combine 4, 2, false, false, 1, 0, 0, 0, 0, some t⟩] }
theorem witness_ExchangeTimers_parts : let t := up.datum - up.waveTimeout 0
    (batchS (parted .waiting 0)).part? 0 4 = some (parted .waiting 0, aPart .waiting 0) ∧ (parted .waiting 0).cancel = false ∧
    (batchS (parted .acked t)).part? 0 4 = some (parted .acked t, aPart .acked t) ∧ t + (batchS (parted .acked t)).waveTimeout 0 ≤ (batchS (parted .acked t)).datum ∧
    ((reserving t).pool 0).waitReq.find? (fun r => r.id == 7) = some ⟨7, .combine 4, 2, false, false, 1, 0, 0, 0, 0, some t⟩ ∧
    (reserving t).part? ((reserving t).pool 0).sheet 4 = some (parted .reserving t, aPart .reserving t) ∧
    t + (reserving t).waveTimeout ((parted .reserving t).partOct (aPart .reserving t)) ≤ (reserving t).datum := by decide +kernel
def heldS (t : Nat) : State := up.setExch 0 { Exch.reset with held := [census t [record 1]] }
theorem witness_ExchangeTimers_missing : let t := up.datum - up.waveTimeout 0
    minOf (((heldS t).exchOf 0).held.filter (fun c => c.step == 9 && c.layer == 3) |>.map CensusRec.first) = some t ∧
    t + (heldS t).waveTimeout ((heldS t).coordOct 0 3) ≤ (heldS t).datum := by decide +kernel
def oldEpoch (st : EpochSt) (t : Nat) : State := up.setExch 0 { Exch.reset with epochs := [(4095, { Epoch.free with st := st, since := t, granted := 1 })] }
theorem witness_ExchangeTimers_epoch : let t := up.datum - 2 * up.waveTimeout 0
    ∀ st ∈ [EpochSt.closing, .cancelled], ((oldEpoch st t).epochAt 0 4095).st = st ∧ ((oldEpoch st t).epochAt 0 4095).since + 2 * (oldEpoch st t).waveTimeout ((oldEpoch st t).physOct 0 0) ≤
      (oldEpoch st t).datum ∧ (((oldEpoch st t).misclosure 2 4095 [1, 0, 0] (some 0) (some 0)).exchOf 0).batches.all (fun b => b.epoch != 4095) = true := by decide +kernel
def relayIn (srcs : List RelaySrc) (t : Nat) : RelayIn := ⟨5, 0, 1, 0, 9, 3, 0, 0, true, srcs, t, false, false, false, 0, []⟩
def relayS (srcs : List RelaySrc) (t : Nat) : State := up.setExch 0 { Exch.reset with relays := [relayIn srcs t] }
theorem witness_ExchangeTimers_relay : let t := up.datum - up.waveTimeout 0
    (∀ l ∈ [[], [⟨1, 5, 16, some 0, []⟩]], ((relayS l t).exchOf 0).relays.find? (fun r => r.id == 5) = some (relayIn l t)) ∧ (relayS [] t).relayLacks (relayIn [] t) = [] ∧
    (relayS [⟨1, 5, 16, some 0, []⟩] t).relayLacks (relayIn [⟨1, 5, 16, some 0, []⟩] t) ≠ [] ∧ t + (relayS [] t).waveTimeout 0 ≤ (relayS [] t).datum := by decide +kernel

/-! Pools and movers. -/

/-- A sized pool of 512 buffers at the end of the window, and parameters of it. -/
def poolP (base : Nat) : List Byte := puts (zs 48) [(0, 1, 63), (4, 1, 1), (16, 8, base), (44, 4, 2048)]
theorem witness_PoolLifecycle_create : (∀ b ∈ [2 ^ 30 - 2 ^ 20, 2 ^ 30], up.takes 0x0401 (host 48) (poolP b)) ∧ ((host 48).params (poolP (2 ^ 30 - 2 ^ 20))).length = 48 ∧
    (∀ b ∈ [2 ^ 30 - 2 ^ 20, 2 ^ 30], uAt ((host 48).params (poolP b)) 0 1 = 63 ∧ uAt ((host 48).params (poolP b)) 1 1 = 0 ∧ uAt ((host 48).params (poolP b)) 2 1 < 8 ∧
      pass (layoutChecks ((host 48).params (poolP b)))) ∧ ((up.taken (host 48)).pool 63).life.st = .off ∧
    (match (up.taken (host 48)).poolPlace 63 (poolOf (host 48) ((host 48).params (poolP (2 ^ 30 - 2 ^ 20)))) with
      | .ok _ => true
      | .error _ => false) = true ∧
    (match (up.taken (host 48)).poolPlace 63 (poolOf (host 48) ((host 48).params (poolP (2 ^ 30)))) with
      | .ok _ => none
      | .error st => some st) = some .addressRange := by
  unfold State.takes Machine.pass; decide +kernel
def aPool (st : LifeSt) (t : Nat) : Pool := { Pool.off with life := { Life.off with st := st, since := t }, sized := true, base := 0, n512 := 2048 }
def poolS (st : LifeSt) (t : Nat := 0) : State := up.setPool 63 (aPool st t)
theorem witness_PoolLifecycle_on : (poolS .on).takes 0x0402 (host 48) (poolP 0) ∧
    (∀ op ∈ [0x0403, 0x0404, 0x0405], (poolS .on).takes op (host 8) (puts (zs 8) [(0, 1, 63), (1, 1, 98), (2, 1, 99), (3, 1, 100), (4, 1, 20)])) ∧
    (((poolS .on).taken (host 8)).pool 63).life.st = .on ∧ (((poolS .on).taken (host 8)).pool 63).sheet = (host 8).sheet.toNat ∧
    (((poolS .starting).taken (host 48)).pool 63).life.st = .starting ∧ (((poolS .on).taken (host 48)).pool 63).occupied + (((poolS .on).taken (host 48)).pool 63).inFlight = 0 ∧
    (match ((poolS .on).taken (host 48)).poolPlace 63 (poolOf (host 48) ((host 48).params (poolP 0))) with
      | .ok _ => true
      | .error _ => false) = true ∧
    (poolOf (host 48) ((host 48).params (poolP 0))).xd = (((poolS .on).taken (host 48)).pool 63).xd ∧
    pass (pctChecks ((host 8).params (puts (zs 8) [(0, 1, 63), (1, 1, 98), (2, 1, 99), (3, 1, 100), (4, 1, 20)])) 1) ∧
    pctsOrdered (pcts ((host 8).params (puts (zs 8) [(0, 1, 63), (1, 1, 98), (2, 1, 99), (3, 1, 100), (4, 1, 20)])) 1) = true := by
  unfold State.takes Machine.pass; decide +kernel
theorem witness_PoolLifecycle_events : let t := up.datum - msTicks 50
    ((poolS .starting).pool 63).life.st = .starting ∧ ((poolS .stopping t).pool 63).life.st = .stopping ∧ (poolS .stopping t).framesInto (aPool .stopping t) = false ∧
    ((poolS .stopping t).pool 63).life.since + msTicks 50 ≤ (poolS .stopping t).datum ∧ ((poolS .on).pool 63).life.st = .on ∧
    pass (pctChecks (leBytes 8 (fld (0x14646362#64) 31 0)) 0) ∧ pctsOrdered (pcts (leBytes 8 (fld (0x14646362#64) 31 0)) 0) = true := by
  unfold Machine.pass; decide +kernel

/-- Requests to pool 63: a chain-mode pool of four cells at the start of the window, one of them allocated. -/
def chainPool (wait : List PoolReq) : Pool :=
  { Pool.off with life := { Life.off with st := .on }, cells := 4, tab := [(0, ⟨false, false, true, 1, none⟩)], cursor := 1, waitReq := wait }
def poolD (op count ptr : Nat) : BitVec 512 := desc [(0, 1, op), (1, 1, 63), (4, 4, count), (8, 8, ptr), (16, 8, 512), (48, 8, 8), (56, 4, 7)]
def reqS (d : BitVec 512) (x : Pool) : State := queue 3 d (up.setPool 63 x)
def counted (s : State) (k : Nat) : State := let o := s.popQueue k 3; { o with nextReq := o.nextReq + 1 }
theorem witness_PoolRequests : (∀ e ∈ [(1, 3, 0), (2, 3, 0), (3, 1, 0), (4, 0, 0), (5, 0, 0)],
      (reqS (poolD e.1 e.2.1 e.2.2) (chainPool [])).headOf 0 3 (qd (poolD e.1 e.2.1 e.2.2)) ∧
      (counted (reqS (poolD e.1 e.2.1 e.2.2) (chainPool [])) 0).poolReqCheck (qd (poolD e.1 e.2.1 e.2.2)) = none ∧
      (2 < e.1 → ((counted (reqS (poolD e.1 e.2.1 e.2.2) (chainPool [])) 0).pool 63).badPtr e.1 e.2.2 = false)) := by
  unfold State.headOf; decide +kernel
theorem witness_PoolRequests_sized : ∀ e ∈ [(6, 512, 0), (7, 0, 0)],
    (reqS (poolD e.1 e.2.1 e.2.2) { aPool .on 0 with bufs := [0] }).headOf 0 3 (qd (poolD e.1 e.2.1 e.2.2)) ∧
    (counted (reqS (poolD e.1 e.2.1 e.2.2) { aPool .on 0 with bufs := [0] }) 0).poolReqCheck (qd (poolD e.1 e.2.1 e.2.2)) = none ∧
    (e.1 = 7 → ((counted (reqS (poolD e.1 e.2.1 e.2.2) { aPool .on 0 with bufs := [0] }) 0).pool 63).badPtr e.1 e.2.2 = false) := by
  unfold State.headOf; decide +kernel
def poolR (op count ptr id : Nat) (h : Option Nat) (d : BitVec 512) : PoolReq := ⟨id, .agent (qd d), op, false, false, count, ptr, 512, 8, 7, h⟩
/-- Three cells are free, a fourth is not; a pointer past the pool's end is bad; a request at the head of its list has waited for op_timeout. -/
theorem witness_PoolRequests_cells : ((counted (reqS (poolD 1 3 0) (chainPool [])) 0).pool 63).waiting false = [] ∧
    ((counted (reqS (poolD 1 3 0) (chainPool [])) 0).poolTry 63 (poolR 1 3 0 1 none (poolD 1 3 0))).isSome = true ∧
    ((counted (reqS (poolD 1 4 0) (chainPool [])) 0).poolTry 63 (poolR 1 4 0 1 none (poolD 1 4 0))).isNone = true ∧
    ((counted (reqS (poolD 5 0 1024) (chainPool [])) 0).pool 63).badPtr 5 1024 = true ∧
    ((counted (reqS (poolD 8 0 0) (chainPool [])) 0).poolReqCheck (qd (poolD 8 0 0))).isSome = true := by decide +kernel
theorem witness_PoolRequests_waiting : let t := up.datum - usTicks (max 100 (up.get F.RMO_TIMEOUT_op_timeout))
    ((up.setPool 63 (chainPool [poolR 1 3 0 1 (some t) 0])).pool 63).waiting false = [poolR 1 3 0 1 (some t) 0] ∧
    ((up.setPool 63 (chainPool [poolR 1 3 0 1 (some t) 0])).poolTry 63 (poolR 1 3 0 1 (some t) 0)).isSome = true ∧
    t + usTicks (max 100 ((up.setPool 63 (chainPool [])).get F.RMO_TIMEOUT_op_timeout)) ≤ (up.setPool 63 (chainPool [])).datum := by decide +kernel

/-- Mover 3 of core 0 holds a descriptor of two rows of 8 B. -/
def movD (op : Nat) (more : List (Nat × Nat × Nat)) : BitVec 512 := desc ([(0, 1, op), (4, 4, 2), (8, 4, 8), (24, 8, 2 ^ 30 - 64), (32, 4, 8), (36, 4, 32), (56, 4, 7)] ++ more)
def movS (d : BitVec 512) (cfg : Nat := 0) (st : Option Status := none) : State :=
  { up.setCore 0 { running [] with kern := { (running []).kern with predCfg := cfg } } with movers := [((0, 3), ⟨d, 0, st⟩)] }
theorem witness_MoverOperations : ∀ e ∈ [(1, []), (2, [(40, 8, 512)]), (3, [(12, 4, 4), (40, 8, 512)]), (4, [(40, 8, 512)]), (5, []), (6, [(40, 8, 512)]), (7, [(40, 8, 512)])],
    (movS (movD e.1 e.2)).movers.find (0, 3) = some ⟨movD e.1 e.2, 0, none⟩ ∧ moverFormatOk (movD e.1 e.2) = true ∧ (moverDesc (movD e.1 e.2)).op = e.1 ∧
    (moverDesc (movD e.1 e.2)).done = 0 ∧ moverFormatOk (movD e.1 ((2, 1, 1) :: e.2)) = false := by decide +kernel
/-- A source that runs past the usable window. -/
theorem witness_MoverOperations_address : let d := fun op => movD op [(16, 8, 2 ^ 40 - 1), (40, 8, if op = 1 ∨ op = 5 then 0 else 512), (12, 4, if op = 3 then 4 else 0)]
    ∀ op ∈ [1, 2, 3, 4, 5, 6, 7], moverFormatOk (d op) = true ∧ (movS (d op) 1).moverAddrs 0 (moverDesc (d op)) = false := by decide +kernel
theorem witness_MoverOperations_good : ∀ e ∈ [(1, []), (2, [(40, 8, 512)]), (3, [(12, 4, 4), (40, 8, 512)]), (4, [(40, 8, 512)]), (5, []), (6, [(40, 8, 512)]), (7, [(40, 8, 512)])],
    (movS (movD e.1 e.2) 1).moverAddrs 0 (moverDesc (movD e.1 e.2)) = true := by decide +kernel
theorem witness_MoverOperations_access : let s := movS (movD 1 [])
    (s.accessCheck 0 [(0, 8, false), (8, 8, false), (2 ^ 30 - 64, 8, true), (2 ^ 30 - 32, 8, true)]).2 = .ok ∧
    (s.accessCheck 0 [(512, 4, false), (0, 8, false), (0, 8, false), (2 ^ 30 - 64, 8, true), (2 ^ 30 - 32, 8, true)]).2 = .ok ∧
    s.indexList 0 512 4 = [0, 0, 0, 0] ∧ (0 * 2 ^ 0 < 8) ∧
    (s.accessCheck 0 [(512, 8, false), (0, 8, false), (8, 8, false), (2 ^ 30 - 64, 4, true), (2 ^ 30 - 32, 4, true)]).2 = .ok := by decide +kernel
theorem witness_MoverOperations_tiles : let s := movS (movD 4 [])
    let out := ((List.range 2).map fun r => compressTile 0 (s.rd 0 (8 * r) 8)).flatMap (·.1)
    let r := s.expandRows 0 8 2 0
    (s.accessCheck 0 [(0, 8, false), (8, 8, false), (2 ^ 30 - 64, out.length, true), (512, 8, true)]).2 = .ok ∧
    (s.accessCheck 0 ((0, r.2.2 - 0, false) :: (List.range r.1.length).map fun k => (2 ^ 30 - 64 + 32 * k, 8, true))).2 = .ok := by decide +kernel
theorem witness_MoverOperations_predictor : predMode ((movS (movD 6 []) 0).core 0).kern.predCfg = 0 ∧ predMode ((movS (movD 6 []) 2).core 0).kern.predCfg ≠ 0 ∧
    ((movS (movD 6 []) 1).accessCheck 0 [(0, 8, false), (8, 8, false), (512, 8, false), (544, 8, false), (2 ^ 30 - 64, 8, true)]).2 = .ok ∧
    ((movS (movD 7 []) 1).accessCheck 0 [(512, 8 + 2 * (movS (movD 7 []) 1).rdN 0 512 4, false)]).2 = .ok := by decide +kernel
theorem witness_MoverCompletion : (movS (movD 1 []) 0 (some .memUe)).movers.find (0, 3) = some ⟨movD 1 [], 0, some .memUe⟩ ∧ 1 ≤ dAt (movD 1 []) 0 1 ∧ dAt (movD 7 []) 0 1 ≤ 7 ∧
    ({ up with boot := { up.boot with fused := [7] } } : State).boot.fused.contains (0 / 8 * 8 + (0 % 8 + 7) % 8) = true := by decide +kernel

/-! Training and the hubs. -/

/-- A quantizer's operation of a kernel of core 0: two rows of four elements, at the end of the window. -/
def qntD (op : Nat) (more : List (Nat × Nat × Nat)) : BitVec 512 :=
  desc ([(0, 1, op), (4, 4, 2), (8, 4, 4), (16, 8, 2 ^ 30 - 32), (24, 8, 512), (32, 8, 1024), (40, 4, 16), (44, 4, 16), (48, 8, 8), (56, 4, 7)] ++ more)
def qntS (d : BitVec 512) (st : Option Status := none) : State := { up with quant := [(0, [⟨d, 0, (running []).kern, st⟩])] }
theorem witness_QuantizerOperations : let s := qntS (qntD 1 [])
    let r := s.recipe 0 0
    s.quant.getD 0 [] = [⟨qntD 1 [], 0, (running []).kern, none⟩] ∧ r.block = 1 ∧ qntFormatOk (qntD 1 []) r = true ∧ qntFormatOk (qntD 1 [(60, 2, 1)]) r = false ∧
    packedRow r.fmt 4 = 8 ∧ (s.access 0 1 0 [(2 ^ 30 - 32, 16, false), (512, 8, true), (2 ^ 30 - 16, 16, false), (528, 8, true), (1024, 4, true)]).2 = .ok := by
  decide +kernel
theorem witness_QuantizerOperations_update : let s := qntS (qntD 2 [])
    s.quant.getD 0 [] = [⟨qntD 2 [], 0, (running []).kern, none⟩] ∧ qntFormatOk (qntD 2 []) (s.recipe 0 0) = true ∧
    (s.access 0 1 0 ((List.range 2).flatMap fun j => [(2 ^ 30 - 32 + j * 16, 16, false), (512 + j * 16, 8, false), (512 + j * 16, 8, true),
      (1024 + j * 8, 4, false), (1024 + j * 8, 4, true)])).2 = .ok := by decide +kernel
/-- A tile of 256 rows at 2 of 4: once to be formed newly, once to be kept; metadata of zeros break the order of positions. -/
def pruneD (regen : Nat) : BitVec 512 := qntD 3 [(2, 2, 4 + 16 * regen), (4, 4, 256), (8, 4, 128), (16, 8, 0), (24, 8, 2 ^ 20), (32, 8, 2 ^ 21), (40, 4, 256), (44, 4, 0)]
theorem witness_QuantizerOperations_prune : let s := qntS (pruneD 1)
    (s.recipe 0 0).fmt = 3 ∧ denseK 1 1 = 256 ∧ metaTile 1 = 8192 ∧ rowBytes 1 = 128 ∧
    (∀ g ∈ [0, 1], qntFormatOk (pruneD g) (s.recipe 0 0) = true) ∧
    (s.access 0 1 0 ((List.range 256).map (fun r => (r * 256, 256, false)) ++ [(2 ^ 21, 8196, true)] ++ [(2 ^ 20, 16384, true)])).2 = .ok ∧
    (s.access 0 1 0 ((List.range 256).map (fun r => (r * 256, 256, false)) ++ [(2 ^ 21, 8192, false), (2 ^ 21 + 8192, 4, true)] ++ [(2 ^ 20, 16384, true)])).2 = .ok ∧
    slotViol { fmt := 1, sp := 1, kext := 0, data := [], metaB := [], scale := [], viol := none, pc := 0 } 0 0 ≠ 0 := by decide +kernel

/-- Metadata beyond the window. -/
def farD (op : Nat) : BitVec 512 :=
  if op = 3 then qntD 3 [(2, 2, 20), (4, 4, 256), (8, 4, 128), (16, 8, 0), (24, 8, 2 ^ 20), (32, 8, 2 ^ 39), (40, 4, 256), (44, 4, 0)] else qntD op [(32, 8, 2 ^ 39)]
theorem witness_QuantizerOperations_address : ∀ op ∈ [1, 2, 3], (qntS (farD op)).quant.getD 0 [] = [⟨farD op, 0, (running []).kern, none⟩] ∧
    qntFormatOk (farD op) ((qntS (farD op)).recipe 0 0) = true ∧ (qntS (farD op)).qntAddrs 0 (farD op) = false := by decide +kernel

/-- Recipes for the first and the last kind. -/
def recipes : List Byte := puts (zs 64) [(0, 1, 65), (8, 8, recipeReset 0), (56, 8, recipeReset 6)]
theorem witness_TrainingControls : up.takes 0x0303 (host 64) recipes ∧ (host 64).sheetValid = true ∧ ((host 64).params recipes).length = 64 ∧
    uAt ((host 64).params recipes) 0 1 < 128 ∧ uAt ((host 64).params recipes) 1 7 = 0 ∧
    (∀ k < 7, if bitOf (uAt ((host 64).params recipes) 0 1) k then recipeOk (uAt ((host 64).params recipes) (8 + 8 * k) 8) = true ∧
      uAt ((host 64).params recipes) (8 + 8 * k) 8 = recipeBits (uAt ((host 64).params recipes) (8 + 8 * k) 8)
      else uAt ((host 64).params recipes) (8 + 8 * k) 8 = 0) ∧ recipeOk 0x300 = false := by
  unfold State.takes; decide +kernel
def submitting (n : Nat) : State := { exe [] with quant := [(31, List.replicate n ⟨0, 0, (running []).kern, none⟩)] }
theorem witness_TrainingControls_submit : (submitting 7).octSheet (31 / 32) = (submitting 7).octSheet (0 / 32) ∧ ((submitting 7).octSheet (0 / 32)).isSome = true ∧
    ((submitting 7).core 0).run ≠ .idle ∧ fld (0xFFFFC0#64) 63 24 = 0 ∧ fld (0xFFFFC0#64) 5 0 = 0 ∧ ((submitting 7).quant.getD 31 []).length < 8 ∧
    (∀ st ∈ [Status.ok, .descFormat], (qntS (qntD 1 []) (some st)).quant.getD 0 [] = ⟨qntD 1 [], 0, (running []).kern, some st⟩ :: []) ∧
    1 ≤ dAt (qntD 1 []) 0 1 ∧ dAt (qntD 1 []) 0 1 ≤ 3 ∧ (BitVec.ofNat 64 (2 ^ 63)).getLsbD 63 = true := by decide +kernel

/-- Bucket 9 of job 1, in Exact mode or not, whose bytes stand at base, with its words after them. -/
def bktP (exact base : Nat) : List Byte := puts (zs 48) [(0, 4, 9), (4, 2, 1), (7, 1, exact), (12, 4, 65535), (16, 4, 1024), (24, 8, base), (32, 8, 2 ^ 30 - 16), (40, 8, 2 ^ 30 - 8)]
def bkt (exact : Nat) : Bucket := bucketOf 0 ((host 48).params (bktP exact 4096))
def rctx (t : Nat) : RCtx := ⟨3, 1, 9, 0, some 0, false, false, t, 0, 0, none, [], false⟩
def bktS (held : Bool) : State := (if held then { up with hubs := { up.hubs with ctxs := [rctx 0] } } else up).setBucket 1 9 (bkt 0)
theorem witness_Buckets :
    (∀ e ∈ [0, 1], ∀ b ∈ [0, 4096], up.takes 0x0406 (host 48) (bktP e b) ∧ (bktS false).takes 0x0406 (host 48) (bktP e b) ∧ let q := (host 48).params (bktP e b)
      let x := bucketOf 0 q
      q.length = 48 ∧ uAt q 4 2 = 1 ∧ uAt q 6 1 ≤ 1 ∧ uAt q 7 1 ≤ 1 ∧ uAt q 8 1 ≤ 1 ∧ uAt q 9 3 = 0 ∧ 1 ≤ x.expected ∧ x.expected ≤ 65535 ∧ 1 ≤ x.elements ∧
      x.elements ≤ 67108864 ∧ uAt q 20 4 = 0 ∧ x.base % 4096 = 0 ∧ x.sem % 8 = 0 ∧ x.status % 8 = 0 ∧ x.base + x.bytes ≤ ((up.taken (host 48)).sheet 0).usable ∧
      (up.taken (host 48)).wordIn 0 x.sem = true ∧ (up.taken (host 48)).wordIn 0 x.status = true ∧ x.exact = (e == 1)) ∧
    ((up.taken (host 48)).bucket? 1 9) = none ∧ (up.taken (host 48)).hubs.buckets = [] ∧
    (((bktS false).taken (host 48)).bucket? 1 9).isSome = true := by
  unfold State.takes; decide +kernel
/-- A bucket with another number at the same place clashes; one that no context works for may go. -/
theorem witness_Buckets_more : (let x := bkt 0
      ((up.setBucket 1 8 (bkt 0)).taken (host 48)).hubs.buckets.any (fun e => e.2.sheet == 0 && decide (e.2.base < x.base + x.bytes ∧ x.base < e.2.base + e.2.bytes))) = true ∧
    ((up.setBucket 1 8 (bkt 0)).taken (host 48)).bucket? 1 9 = none ∧
    (∀ b ∈ [false, true], (bktS b).takes 0x0407 (host 8) (puts (zs 8) [(0, 4, 9), (4, 2, 1)]) ∧ (((bktS b).taken (host 8)).bucket? 1 9).isSome = true ∧
      (((bktS b).taken (host 8)).hubs.ctxs.any fun c => c.job == 1 && c.bucket == 9) = b) ∧
    uAt ((host 8).params (puts (zs 8) [(0, 4, 9), (4, 2, 1)])) 6 2 = 0 ∧ ((host 8).params (puts (zs 8) [(0, 4, 9), (4, 2, 1)])).length = 8 ∧
    uAt ((host 8).params (puts (zs 8) [(0, 4, 9), (4, 2, 1)])) 0 4 = 9 := by
  unfold State.takes; decide +kernel

/-- A hub with an accepted frame; a bucket with a part done; a context opened at t; a stack that is ready. -/
def part3 : PartMsg := ⟨3, 0, none, false⟩
def hubS (t : Nat) : State :=
  let s := { up with hubs := { up.hubs with frames := [⟨3, 1, 9, 0, [1], req 4 0 0 0 [], 0⟩], ctxs := [rctx t] } }
  let s := s.setBucket 1 9 { bkt 0 with sent := [part3] }
  State.set (State.set s F.MHB_STATUS_state 15 0 2) F.MHB_CTL_scrub_enable 15 0 1
theorem witness_HubEvents : let s := hubS (up.datum - msTicks 100)
    (s.hubs.frames.find? (fun f => f.hub == 3)).isSome = true ∧
    (∃ n ∈ List.range 16, s.hubs.buckets.find? (fun e => s.bucketHub e.2 0 == n && !e.2.sent.isEmpty) = some ((1, 9), { bkt 0 with sent := [part3] })) ∧
    s.rctx? 3 1 9 = some (rctx (up.datum - msTicks 100)) ∧ s.bucket? 1 9 = some { bkt 0 with sent := [part3] } ∧
    (up.datum - msTicks 100) + msTicks (max 1 (s.get F.NMA_CTL_stall_ms 3)) ≤ s.datum ∧ s.stackReady 15 = true ∧ (89#8).toNat < 90 ∧
    (s.octSheet (1 / 2)).isSome = true ∧ s.get F.MHB_CTL_scrub_enable 15 ≠ 0 ∧ (hubS 0).stackReady 15 = true ∧
    (s.stack 15).recalAt + max 1 (s.get F.MHB_CTL_recal_interval 15) * 1000000000 ≤ s.datum := by decide +kernel
/-- A line of hub 15 with an error; a stack that is hot; a context that the selection names, and that breaks its bounds. -/
theorem witness_HubEvents_lines : let s := hubS 0
    ({ s with upsets := [(keyHbm 15 (7 * 256), true)] } : State).upsets.find (keyHbm 15 (7 * 256)) = some true ∧ s.upsets.find (keyHbm 15 (7 * 256)) = none ∧
    s.lineMarked (keyHbm 15 (7 * 256)) = false ∧ (7 < 2 ^ 28) ∧
    ((List.range 16).foldl (fun s n => s.set F.MHB_STATUS_state n 0 2) s).selfRefresh 1 = false ∧ ((List.range 16).foldl (fun s n => s.set F.MHB_STATUS_state n 0 2) s).stackReady 1 = true ∧
    ((s.setStack 15 { Stack.fresh with hot := true }).stack 15).hot = true ∧ (s.stack 15).hot = false ∧ (s.setStack 15 { Stack.fresh with hot := true }).stackReady 15 = true := by
  decide +kernel
def counting (a : Nat) : State := { up with hubs := { up.hubs with ctxs := [{ rctx 0 with accepted := a }] } }.setBucket 1 9 (bkt 0)
theorem witness_HubEvents_counters : up.selCtx 3 = none ∧ (∀ a ∈ [0, 40000], (counting a).selCtx 3 = some { rctx 0 with accepted := a } ∧
    (counting a).ctxBroken { rctx 0 with accepted := a } = decide (32768 < a)) := by decide +kernel
theorem witness_HubEvents_repair : up.takes 0x0A01 (fm 32) (zs 32) := by unfold State.takes; decide +kernel

/-! Collectives and triangulation. -/

/-- A group of two members, whose next launch is number 5, and a reduction of 16 B among them. -/
def groupP (n : Nat) : List Byte := puts (zs (8 + 4 * n)) [(0, 2, 3), (2, 2, 1), (4, 4, n), (4 + 4 * n, 4, if n = 1 then 0 else 2 ^ 20 - 1)]
def collS (c : Collect) : State := { up with coll := c }
def grouped (x : Collect) : State := collS { x with groups := [((1, 3), ⟨[0, 1], 5, 100⟩)] }
def launchP (seq : Nat) : List Byte :=
  puts (zs 96) [(0, 1, 2), (4, 2, 3), (7, 1, 8), (8, 4, seq), (12, 4, 1), (16, 8, 100), (48, 8, 2 ^ 30 - 16), (64, 8, 16), (72, 8, 2 ^ 30 - 8), (92, 4, 5)]
def aLaunch (seq : Nat) : Launch := launchOf ((host 96).params (launchP seq)) (host 96) (hdrOwed (host 96) 0x0602) 0
def slotOf (running : Bool) (tx : List TxPeer) (rx : List RxPeer) : CollSlot := ⟨{ aLaunch 5 with trigger := 1 }, 0, running, 0, 2, tx, rx, [(4096, 16)], [], 0, false⟩
theorem witness_Collectives_groups : (grouped .reset).takes 0x0600 (host 12) (groupP 1) ∧ (host 12).logical.toNat = 0 ∧
    (∀ n ∈ [1, 2], up.takes 0x0600 (host (8 + 4 * n)) (groupP n) ∧ let q := (host (8 + 4 * n)).params (groupP n)
      uAt q 0 2 = 3 ∧ uAt q 2 2 = 1 ∧ uAt q 4 4 = n ∧ q.length = 8 + 4 * n ∧ (∀ d ∈ groupMembers q, d < 2 ^ 20) ∧ dedup (groupMembers q) = groupMembers q ∧
      0 ∈ groupMembers q) ∧ (up.taken (host 12)).group? 1 3 = none ∧ (up.taken (host 12)).coll.groups.length < 256 ∧
    (((grouped .reset).taken (host 12)).group? 1 3).isSome = true ∧
    (∀ x ∈ [Collect.reset, { Collect.reset with waiting := [aLaunch 9] }], (grouped x).takes 0x0601 (host 8) (puts (zs 8) [(0, 2, 3), (2, 2, 1)]) ∧ (((grouped x).taken (host 8)).group? 1 3).isSome = true ∧
      ((grouped x).taken (host 8)).groupBusy 1 3 = !x.waiting.isEmpty) ∧ up.takes 0x0601 (host 8) (puts (zs 8) [(0, 2, 3), (2, 2, 1)]) ∧ (up.taken (host 8)).group? 1 3 = none ∧
    (let q := (host 8).params (puts (zs 8) [(0, 2, 3), (2, 2, 1)]); uAt q 0 2 = 3 ∧ uAt q 2 2 = 1 ∧ uAt q 4 4 = 0) := by
  unfold State.takes; decide +kernel
/-- The group's next launch, and one after it. -/
theorem witness_Collectives_launch : ∀ seq ∈ [5, 2 ^ 32 - 1], let t := (grouped .reset).taken (host 96)
    let q := (host 96).params (launchP seq)
    let l := launchOf q (host 96) (hdrOwed (host 96) 0x0602) t.datum
    (grouped .reset).takes 0x0602 (host 96) (launchP seq) ∧ q.length = 96 ∧ t.group? l.job l.group = some ⟨[0, 1], 5, 100⟩ ∧ l.logical ∈ [0, 1] ∧
    pass (t.launchChecks l q ([0, 1].idxOf l.logical) 2) ∧ 5 ≤ l.seq ∧ 100 ≤ l.stamp ∧ t.launchDue l = (seq == 5) ∧ t.freeSlotNo = some 0 := by
  unfold State.takes Machine.pass; decide +kernel
def pendingC (seq : Nat) : State := grouped { Collect.reset with waiting := [aLaunch seq] }
theorem witness_Collectives_events : up.takes 0x0603 (host 0) [] ∧ (pendingC 5).freeSlotNo = some 0 ∧ (pendingC 5).coll.waiting.find? (pendingC 5).launchDue = some (aLaunch 5) ∧
    (pendingC 9).coll.waiting.find? (fun l => l.job == 1 && l.group == 3 && l.seq == 9) = some (aLaunch 9) ∧ (pendingC 9).launchDue (aLaunch 9) = false ∧
    (aLaunch 9).since + (aLaunch 9).timeout ≤ (pendingC 9).datum := by
  unfold State.takes; decide +kernel
def inSlot (x : CollSlot) : State := grouped { Collect.reset with slots := [(7, x)] }
theorem witness_Collectives_slots : let tx : TxPeer := ⟨1, [], 1, 0, [(0, 0)], none⟩
    let rx : RxPeer := ⟨1, 0, [4096], 0⟩
    let x := slotOf true [tx] [rx]
    (inSlot (slotOf false [] [])).slot? 7 = some (slotOf false [] []) ∧ (slotOf false [] []).l.trigger = 1 ∧ (slotOf false [] []).l.atDatum ≤ (inSlot (slotOf false [] [])).datum ∧
    (inSlot x).slot? 7 = some x ∧ x.rx.find? (fun y => y.rank == 1) = some rx ∧ rx.places = 4096 :: [] ∧ x.bytes rx.next ≤ x.landed.getD 4096 0 ∧
    (x.waitsFor 1).any (fun y => decide (y + (x.l.timeout + 1) ≤ (inSlot x).datum)) = true ∧
    (inSlot x).coll.slots.find? (fun e => e.2.l.job == 1 && e.2.l.group == 3 && e.2.l.seq == 5) = some (7, x) := by decide +kernel

/-- A tree of image 9: a child that has its parent at logical device 1, and a root. -/
def treeP (root : Bool) : List Byte :=
  puts (zs 72) ([(0, 4, 9), (4, 2, 1), (7, 1, 1), (8, 4, 2), (12, 4, if root then treeNone else 1), (16, 4, treeNone),
    (24, 8, if root then 0 else 2 ^ 30 - treeChunk), (32, 8, if root then 2 ^ 30 - 2 * treeChunk else 0), (40, 4, 2 ^ 20 - 1)] ++
    (List.range 7).map fun j => (44 + 4 * j, 4, treeNone))
def nodeT (root : Bool) : TreeNode := treeNodeOf 0 ((fm 72).params (treeP root)) (hdrOwed (fm 72) 0x0604) 0
def treeS (x : TreeNode) : State := collS { Collect.reset with trees := [x] }
theorem witness_TriangulationTrees_start : (treeS (nodeT true)).takes 0x0604 (fm 72) (treeP true) ∧
    (((treeS (nodeT true)).taken (fm 72)).tree? 0 9).isSome = true ∧ (∀ r ∈ [false, true], up.takes 0x0604 (fm 72) (treeP r) ∧
      let q := (fm 72).params (treeP r)
      let z := treeNodeOf 0 q (hdrOwed (fm 72) 0x0604) (up.taken (fm 72)).datum
      q.length = 72 ∧ z.job = 1 ∧ uAt q 6 1 ≤ 1 ∧ uAt q 7 1 ≤ 8 ∧ 2 ≤ z.chunks ∧ z.chunks ≤ (if z.routing then 257 else 65537) ∧ devOrNone z.parent = true ∧
      devOrNone z.alternate = true ∧
      (if z.routing then z.dst == 0 else (up.taken (fm 72)).inData 0 z.dst (treeChunk * (z.chunks - 1))) = true ∧
      (if z.isRoot then (up.taken (fm 72)).inData 0 z.src (treeChunk * z.chunks) else z.src == 0) = true ∧
      (∀ j < 8, if j < uAt q 7 1 then uAt q (40 + 4 * j) 4 < 2 ^ 20 else uAt q (40 + 4 * j) 4 = treeNone) ∧
      (up.taken (fm 72)).tree? 0 z.image = none ∧ z.routing = false ∧ z.isRoot = r) := by
  unfold State.takes; decide +kernel
def reparentP (what : Nat) : List Byte := puts (zs 24) [(0, 4, 9), (4, 2, 1), (6, 1, what), (8, 4, 1), (12, 4, 2 ^ 20 - 1)]
def endP : List Byte := puts (zs 8) [(0, 4, 9), (4, 2, 1)]
def childless : TreeNode := { nodeT true with children := [] }
theorem witness_TriangulationTrees_change : let s := treeS (nodeT false)
    (∀ w ∈ [0, 1], s.takes 0x0605 (fm 24) (reparentP w) ∧ let q := (fm 24).params (reparentP w)
      q.length = 24 ∧ uAt q 6 1 = w ∧ uAt q 7 1 = 0 ∧ uAt q 8 4 < 2 ^ 20 ∧ uAt q 12 4 < 2 ^ 20 ∧ uAt q 16 8 = 0 ∧ uAt q 4 2 = 1 ∧
      (s.taken (fm 24)).tree? 0 (uAt q 0 4) = some (nodeT false)) ∧ (nodeT false).job = 1 ∧
    (∀ x ∈ [nodeT true, childless], (treeS x).takes 0x0606 (fm 8) endP ∧ ((treeS x).taken (fm 8)).tree? 0 9 = some x ∧
      (x.children.any fun c => !c.done && !c.lost) = !x.children.isEmpty) ∧ up.takes 0x0606 (fm 8) endP ∧ (up.taken (fm 8)).tree? 0 9 = none ∧
    (let q := (fm 8).params endP; uAt q 0 4 = 9 ∧ uAt q 4 2 = 1 ∧ uAt q 6 2 = 0 ∧ q.length = 8) := by
  unfold State.takes; decide +kernel
def kid (sending : Bool) : TreeChild := ⟨1, 0, sending, 0, 0, false, false⟩
def withKid (b : Bool) : TreeNode := { nodeT true with children := [kid b] }
theorem witness_TriangulationTrees_events : (treeS (nodeT true)).tree? 0 9 = some (nodeT true) ∧ (nodeT true).ready = true ∧ (treeS (nodeT false)).tree? 0 9 = some (nodeT false) ∧
    (nodeT false).isRoot = false ∧ (nodeT false).orphan = false ∧ (nodeT false).verified < (nodeT false).chunks ∧
    (nodeT false).heard + msTicks (nodeT false).timeoutMs ≤ (treeS (nodeT false)).datum ∧
    (∀ b ∈ [false, true], (treeS (withKid b)).tree? 0 9 = some (withKid b) ∧ (withKid b).children.find? (fun y => y.logical == 1) = some (kid b)) ∧
    (treeS (withKid false)).mapEntry 1 1 = some word6 ∧ max (kid false).at_ (kid false).kept + msTicks 10 ≤ (treeS (withKid false)).datum ∧ 1 + 1 = (withKid true).chunks ∧
    (kid true).at_ + usTicks (max 100 ((treeS (withKid true)).get F.RMO_TIMEOUT_op_timeout)) ≤ (treeS (withKid true)).datum := by decide +kernel

/-! Determinism and the Datum. -/

def detP (v n : Nat) : List Byte := puts (zs 8) [(0, 1, v), (1, 1, n)]
/-- COLLECTIVE_STATUS within LAUNCH_AT. -/
def launchAtP (stamp flags : Nat) : List Byte := puts (zs 80) [(0, 8, stamp), (8, 4, flags), (16, 2, 0x0603), (20, 4, 9)]
def lockedS (held : List Timed) : State := State.set { up with cht := { up.cht with timed := held } } F.DTM_STATUS_state 0 0 2
def strictJob : State := up.setJob 1 { job1 with strict := true }
theorem witness_TimedLaunches_mode : (∀ s ∈ [up, strictJob], (∀ e ∈ [(0, 0), (1, 100)], s.takes 0x0103 (host 8) (detP e.1 e.2)) ∧ ((s.taken (host 8)).jobs.any fun e => e.2.life.st != .off && e.2.strict) = (s.jobs != up.jobs)) ∧
    (∀ e ∈ [(0, 0), (1, 100)], let q := (host 8).params (detP e.1 e.2)
      q.length = 8 ∧ uAt q 0 1 = e.1 ∧ e.1 ≤ 1 ∧ uAt q 1 1 = e.2 ∧ e.2 ≤ 100 ∧ uAt q 2 6 = 0) := by unfold State.takes; decide +kernel
theorem witness_TimedLaunches_at : let s := lockedS []
    let t := s.taken (host 80)
    t.get F.DTM_STATUS_state = 2 ∧ t.cht.timed.length < 64 ∧ (∀ e ∈ [(t.datum, 0), (t.datum + 2 ^ 36, 2), (0, 1), (t.datum - 1, 3)], s.takes 0x0104 (host 80) (launchAtP e.1 e.2) ∧
      let q := (host 80).params (launchAtP e.1 e.2)
      let x := innerPacket t.cht.nextLaunch q
      80 ≤ q.length ∧ uAt q 0 8 = e.1 ∧ uAt q 8 4 = e.2 ∧ e.2 < 4 ∧ uAt q 12 4 = 0 ∧ x.op ≠ 0x0104 ∧ hdrBad x.hdr = none ∧ x.hdr.length.toNat = x.params.length ∧
      (cmdRights x.op).isSome = true ∧ sourceMay x.op (host 80).src = true ∧ t.innerBad true [] (hdrOwed (host 80) 0x0104) x = none ∧ e.1 ≤ t.datum + 2 ^ 36) := by
  unfold State.takes; decide +kernel
def timed1 (stamp : Nat) : Timed := ⟨0, hdrOwed (host 80) 0x0104, stamp, innerPacket 0 (launchAtP stamp 0)⟩
theorem witness_TimedLaunches_stamp : ((lockedS [timed1 7, timed1 5]).dueLaunch.map Timed.stamp) = some 5 ∧ (lockedS [timed1 7, timed1 5]).chtActive = true := by
  decide +kernel

/-- Port 3 is up; the clock is as given, its state too; the device is the master or not. -/
def upPort : Port := { Port.off with life := { Life.off with st := .on }, sub := .up }
def clockS (master : Nat) (state : Nat) (c : Clock) : State :=
  let s := { (up.setPort 3 upPort) with clock := c }
  State.set (State.set (State.set s F.DTM_STATUS_state 0 0 state) F.DTM_CTL_up_port 0 0 3) F.DTM_CTL_master 0 0 master
theorem witness_DatumClock_follower : let s := clockS 0 1 Clock.reset
    let r := clockS 0 1 { Clock.reset with asked := some (7, 5) }
    s.isMaster = false ∧ s.upstream = 3 ∧ s.portUp 3 = true ∧ s.native 3 = true ∧ s.clock.askedAt + msTicks 1 ≤ s.datum ∧
    r.isMaster = false ∧ r.upstream = 3 ∧ r.portUp 3 = true ∧ r.clock.asked = some ((7#16).toNat, (5#64).toNat) ∧ r.clock.exchanges = [] ∧
    s.dtmState = 1 ∧ s.clock.lastOk + msTicks 10 ≤ s.datum ∧ (clockS 0 3 Clock.reset).dtmState = 3 ∧
    (clockS 0 3 Clock.reset).clock.heldAt + (msTicks 1000 + 1) ≤ (clockS 0 3 Clock.reset).datum := by decide +kernel
/-- A master that takes PTP on port 3, in gateway mode. -/
def ptpS (slave : Bool) (sync : Option (Nat × Nat)) (delay : Option (Nat × Nat × Nat × Nat)) : State :=
  let s := clockS 1 0 { Clock.reset with ptpSlave := slave, sync := sync, delay := delay }
  State.set (State.set (State.set s F.DTM_CTL_source 0 0 2) F.DTM_PTP_CFG_port 0 0 3) F.FPT_CTL_mode 3 0 1
theorem witness_DatumClock_ptp : (∀ b ∈ [false, true], let s := ptpS b (some (7, 5)) (some (7, 1, 2, 3))
      s.ptpOn = true ∧ s.get F.DTM_PTP_CFG_port = 3 ∧ s.native 3 = false ∧ s.portUp 3 = true ∧ (0#8).toNat = s.get F.DTM_PTP_CFG_domain ∧ s.clock.ptpSlave = b ∧
      s.get F.DTM_PTP_CFG_slave_only ≠ 1 ∧ s.clock.sync = some ((7#16).toNat, 5) ∧ s.clock.delay = some ((7#16).toNat, 1, 2, 3)) ∧
    ([0, 1, 8, 9, 11] : List Nat).contains (15#4).toNat = false := by decide +kernel
/-- The master of a domain by PPS alone, or with whole seconds from PTP; the reference is lost after its silence; the trims are within a port's reach. -/
def ppsMaster (source : Nat) (secs : Option Int) : State := State.set (clockS 1 2 { Clock.reset with secs := secs }) F.DTM_CTL_source 0 0 source
theorem witness_DatumClock_reference : (∀ e ∈ [(1, none), (3, none), (3, some 2)], let v := (ppsMaster e.1 e.2).setReg ⟨.DTM_PPS_CAPTURE, 0, 0⟩ (BitVec.ofNat 64 up.datum)
      v.isMaster = true ∧ v.get F.DTM_CTL_source = e.1 ∧ v.clock.secs = e.2) ∧ (clockS 0 1 Clock.reset).hasReference = true ∧
    (clockS 0 1 Clock.reset).clock.lastOk + (clockS 0 1 Clock.reset).silence ≤ (clockS 0 1 Clock.reset).datum ∧
    ((clockS 0 1 Clock.reset).setReg ⟨.DTM_PPS_CAPTURE, 0, 0⟩ (BitVec.ofNat 64 up.datum)).isMaster = false ∧
    (false = ((ptpS true none none).get F.DTM_PTP_CFG_ipv4 == 1)) ∧
    (let c := (clockS 0 1 { Clock.reset with asked := some (7, 5), exchanges := [(3, 40)] }).clock;
      c.exchanges.isEmpty = false) := by decide +kernel
def pulse (high : Option Nat) : State := State.set (clockS 1 0 { Clock.reset with ppsHigh := high }) F.DTM_CTL_pps_out 0 0 1
theorem witness_DatumClock_pps : let s := { pulse none with datum := 5000000001 }
    s.get F.DTM_CTL_pps_out = 1 ∧ s.clock.ppsHigh = none ∧ s.datum % 1000000000 ≤ 1 ∧
    (pulse (some 0)).clock.ppsHigh = some 0 ∧ 0 + 100000 ≤ (pulse (some 0)).datum := by decide +kernel

/-! Sheets and contexts. -/

def sheetP (m : Nat) : List Byte := puts (zs 16) [(0, 1, 7), (1, 1, m), (4, 4, 1000000), (8, 2, 60000), (12, 4, 2 ^ 26)]
def withSheet (k : Nat) (st : LifeSt) (s : State := up) : State := s.setSheet k { sheet0 with life := { Life.off with st := st } }
theorem witness_SheetsAndContexts_create : (∀ st ∈ [LifeSt.off, .on, .starting], let s := withSheet 7 st
      (∀ m ∈ [1, 8], s.takes 0x0200 (host 16) (sheetP m)) ∧ ((s.taken (host 16)).sheet 7).life.st = st) ∧
    (∀ m ∈ [1, 8], let q := (host 16).params (sheetP m)
      q.length = 16 ∧ uAt q 0 1 = 7 ∧ uAt q 1 1 = m ∧ m ∈ [1, 2, 4, 8] ∧ uAt q 2 1 ≤ 4 ∧ uAt q 3 1 = 0 ∧ 100 ≤ uAt q 4 4 ∧ uAt q 4 4 ≤ 1000000 ∧ uAt q 8 2 ≤ 60000 ∧
      uAt q 10 2 ≤ 60000 ∧ isPow2 (uAt q 12 4) = true ∧ uAt q 12 4 ≤ 2 ^ 26) := by unfold State.takes; decide +kernel
/-- A context of sheet 0 whose kernel ring stands at 512. -/
def ctxOf (st : CtxState) (k : Option KernelRun) (g : Option (Nat × Nat)) : Context :=
  ⟨{ Life.off with st := .on }, st, 0, false, 1, 0, 8, 512, 0, 0, 1, k, g, [], (0, 0), [], 0, 0⟩
def ctxS (x : Context) : State := up.setCtx 0 15 x
theorem witness_SheetsAndContexts_end : (ctxS (ctxOf .idle none none)).takes 0x0201 (host 0) [] ∧ ((ctxS (ctxOf .idle none none)).taken (host 0)).ctxsOf 0 ≠ [] ∧
    (∀ st ∈ [LifeSt.off, .on], let s := withSheet 0 st
      s.takes 0x0201 (hdrOf (.ring 0 0) 0 true false) [] ∧ ((s.taken (hdrOf (.ring 0 0) 0 true false)).ctxsOf 0) = [] ∧
      ((s.taken (hdrOf (.ring 0 0) 0 true false)).sheet 0).life.st = st) ∧
    up.takes 0x0207 (host 0) [] ∧ (up.taken (host 0)).sheetOn 0 = true ∧ ((up.taken (host 0)).sheet 0).life.deferred = none ∧
    ((withSheet 7 .starting).sheet 7).life.st = .starting ∧ ((withSheet 7 .stopping).sheet 7).life.st = .stopping ∧ (withSheet 7 .stopping).sheetWaits 7 = false := by
  unfold State.takes; decide +kernel
def ctxP (ring : Nat) : List Byte := puts (zs 24) [(0, 1, 15), (1, 1, 15), (4, 4, 65536), (8, 8, ring), (16, 4, 100), (20, 2, 16), (22, 2, 60000)]
theorem witness_SheetsAndContexts_contexts : (∀ s ∈ [up, ctxS (ctxOf .idle none none)], s.takes 0x0202 (host 24) (ctxP (2 ^ 30 - 64 - 8 * 65536))) ∧ (up.taken (host 24)).sheetOn 0 = true ∧
    (let q := (host 24).params (ctxP (2 ^ 30 - 64 - 8 * 65536));
      q.length = 24 ∧ uAt q 0 1 = 15 ∧ uAt q 1 1 < 16 ∧ 1 ≤ uAt q 4 4 ∧ uAt q 4 4 ≤ 65536 ∧ uAt q 8 8 % 64 = 0 ∧
      uAt q 8 8 + 64 + 8 * uAt q 4 4 ≤ ((up.taken (host 24)).sheet 0).usable ∧ 100 ≤ uAt q 16 4 ∧ uAt q 16 4 ≤ 1000000 ∧ uAt q 20 2 ≤ 16 ∧ uAt q 22 2 ≤ 60000) ∧
    (up.taken (host 24)).ctx? 0 15 = none ∧
    ((ctxS (ctxOf .idle none none)).taken (host 24)).ctx? 0 15 = some (ctxOf .idle none none) ∧ (ctxOf .idle none none).life.st = .on ∧
    (∀ o ∈ [0x0203, 0x0204, 0x0205], ∀ st ∈ [CtxState.idle, .faulted], (ctxS (ctxOf st none none)).takes o (host 8) (puts (zs 8) [(0, 1, 15)]) ∧
      ((ctxS (ctxOf st none none)).taken (host 8)).ctx? 0 15 = some (ctxOf st none none)) ∧
    (let q := (host 8).params (puts (zs 8) [(0, 1, 15)]); q.length = 8 ∧ uAt q 0 1 = 15 ∧ uAt q 1 7 = 0) := by unfold State.takes; decide +kernel

def serveP (b slots : Nat) : List Byte :=
  puts (zs 36) [(0, 4, b), (6, 1, 63), (7, 1, slots), (8, 4, 65536), (16, 8, 2 ^ 30 - 32 * 65536), (24, 8, 2 ^ 30 - 128 - slots * (64 + 8 * b)), (32, 4, 1000)]
def serve1 : Serve := ⟨8, 512, 63, 2, 1, 0, 0, 4096, 20, 0, 1⟩
def serving (v : Option Serve) : State := up.setSheet 0 { sheet0 with serve := v }
theorem witness_ServingAndScheduling_serve : (∀ v ∈ [none, some serve1], (∀ e ∈ [(0, 2), (65536, 2), (8, 16)], (serving v).takes 0x0206 (host 36) (serveP e.1 e.2)) ∧ ((serving v).taken (host 36)).sheetOn 0 = true ∧
      (((serving v).taken (host 36)).sheet 0).serve = v) ∧
    (∀ e ∈ [(0, 2), (65536, 2), (8, 16)], let q := (host 36).params (serveP e.1 e.2)
      q.length = 36 ∧ uAt q 0 4 = e.1 ∧ uAt q 0 4 ≤ 65536 ∧ uAt q 6 1 < 64 ∧ uAt q 7 1 = e.2 ∧ 1 ≤ uAt q 8 4 ∧ uAt q 8 4 ≤ 65536 ∧ uAt q 16 8 % 32 = 0 ∧
      uAt q 16 8 + 32 * uAt q 8 4 ≤ ((up.taken (host 36)).sheet 0).usable ∧ uAt q 24 8 % 64 = 0 ∧ uAt q 24 8 + 64 + e.2 * (64 + 8 * e.1) ≤ ((up.taken (host 36)).sheet 0).usable ∧
      uAt q 32 4 ≤ 1000) ∧ ((serving (some serve1)).sheet 0).serve = some serve1 ∧ serve1.last + usTicks serve1.pollUs ≤ (serving (some serve1)).datum := by
  unfold State.takes; decide +kernel
def switching (b : Bool) : State := up.setSheet 0 { sheet0 with switch := some (none, 15, b) }
def kernRun : KernelRun := ⟨0, 0, 1, 0, 1, 0, 0, false, false, [], none⟩
def running0 (x : Context) : State := (exe []).setCtx 0 15 x
theorem witness_ServingAndScheduling_switch : ((switching false).sheet 0).switch = some (none, 15, false) ∧ (switching false).scratchWork 0 = false ∧
    (switching false).quant.any (fun e => e.2.any fun m => m.kern.sheet == 0) = false ∧ ((switching true).sheet 0).switch = some (none, 15, true) ∧
    (running0 (ctxOf .running (some kernRun) none)).ctx? 0 15 = some (ctxOf .running (some kernRun) none) ∧
    kernRun.started + (msTicks kernRun.watchMs + 1) ≤ up.datum ∧
    ((running0 (ctxOf .running (some kernRun) none)).kernelCores 0 kernRun).any (fun c => ((running0 (ctxOf .running (some kernRun) none)).core c).run.stoppable) = true ∧
    (ctxS (ctxOf .ready none (some (0, 1)))).ctx? 0 15 = some (ctxOf .ready none (some (0, 1))) ∧ 0 + (msTicks 1 + 1) ≤ up.datum := by decide +kernel
theorem witness_ServingAndScheduling_incoming : let s := (switching false).setCtx 0 15 (ctxOf .ready none none)
    (s.sheet 0).switch = some (none, 15, false) ∧ s.scratchWork 0 = false ∧ (s.ctx? 0 15).map Context.st = some .ready ∧
    (let u := { ctxS (ctxOf .idle none none) with sems := [((0, 255), ⟨15, 0, 0⟩)] };
      u.sems.find (0, 255) = some ⟨15, 0, 0⟩ ∧ (u.ctx? 0 15).map Context.kernel = some none) := by decide +kernel
/-- A semaphore that core 0's context holds too long, with that context there and without it. -/
theorem witness_ServingAndScheduling_sem : let m : Sem := ⟨15, 0, 0⟩
    ∀ s ∈ [{ up with sems := [((0, 255), m)] }, { running0 (ctxOf .running (some kernRun) none) with sems := [((0, 255), m)] }],
      let ps := [0, 255, 15]
      let u := ((s.semRelease 0 255).bump F.SCH_SEM_FORCE_CNT_releases 0 0 1).event
        { code := .semHoldExpired, sheet := some 0, status := some .semHoldExpired, unit := 15, params := ps }
      s.sems.find (0, 255) = some m ∧ m.since + (msTicks (s.sheet 0).holdMs + 1) ≤ s.datum ∧
      u.ctx? 0 m.ctx = (if s.ctxs = [] then none else some (ctxOf .running (some kernRun) none)) := by decide +kernel

/-! The switch and the ports. -/

/-- A frame of no payload from a device to this one, and one that an input of the switch holds for output n. -/
def aReq : Frame := { req 2 0 3 0 (zs 8) with version := 1 }
def swOf (n : Nat) : SwFrame := ⟨aReq, 37, n, 0, false⟩
def swS (f : Switch → Switch) : State := let s := up.setPort 3 upPort; { s with sw := f s.sw }
theorem witness_Switching_frames : (swS id).native 3 = true ∧ ((swS id).port 3).linked = true ∧ headerOk aReq = true ∧ isPriv aReq.tc.toNat = false ∧
    (∀ n ∈ [0, 3, 36, 39], ((swS fun w => { w with queue := [swOf n] }).headsFor n).head? = some (swOf n)) ∧
    (swS id).portUp 0 = false ∧ (swS id).portUp 3 = true ∧ (((swS fun w => { w with queue := [swOf 39] }).presented.chooseFrame 39).2) = some (swOf 39) ∧
    ((let s := swS fun w => { w with queue := [swOf 3] }; (s.setPort 3 { upPort with received := [(0, 8), (1, 8)] }).presented.chooseFrame 3).2) = some (swOf 3) ∧
    (upPort.linked = true ∧ upPort.sub ≠ .quarantined ∧ cellsOf aReq ≤ ({ upPort with issued := [(0, 8)] } : Port).outstanding 0 ∧ aReq.tc = 0 ∧
      ({ aReq with hops := 1 } : Frame).hops ≠ 0 ∧ headerOk { aReq with hops := 1 } = true ∧ heldLane { aReq with hops := 1 } = 0 ∧
      isPriv ({ aReq with tc := 6 } : Frame).tc.toNat = true ∧ cellsOf { aReq with tc := 6 } ≤ (swS id).room 36 24) := by decide +kernel
/-- 510 entries of the domain table's end; an exception for device 6. -/
def tableP (n : Nat) : List Byte := puts (zs (16 + 8 * n)) [(0, 1, 1), (4, 4, 4096 - n), (8, 4, n), (16, 8, 2 ^ 24 + 35)]
def excP : List Byte := puts (zs 32) [(0, 4, 1023), (4, 4, 1), (16, 8, 2 ^ 31 + 2 ^ 28 - 1), (24, 8, 2 ^ 24 + 35)]
def commitP (wait : Nat) : List Byte := puts (zs 8) [(0, 1, 1), (1, 1, wait)]
def copying (w : Switch) : Switch := { w with copying := some 0 }
theorem witness_Switching_tables : (∀ f ∈ [id, copying], (swS f).takes 0x0505 (fm 24) (tableP 1) ∧ ((swS f).taken (fm 24)).sw.copying = (f Switch.reset).copying) ∧
    (let q := (fm 24).params (tableP 1); uAt q 0 1 ≤ 1 ∧ uAt q 1 3 = 0 ∧ uAt q 8 4 = 1 ∧ uAt q 12 4 = 0 ∧ q.length = 16 + 8 * 1 ∧ entryOk (wordAt q 16) = true ∧
      uAt q 4 4 + uAt q 8 4 ≤ 4096) ∧
    (swS id).takes 0x0506 (fm 32) excP ∧ (let q := (fm 32).params excP; uAt q 0 4 = 1023 ∧ uAt q 4 4 = 1 ∧ uAt q 8 8 = 0 ∧ q.length = 16 + 16 * 1 ∧
      fld (wordAt q 16) 30 28 = 0 ∧ fld (wordAt q 16) 63 32 = 0 ∧ entryOk (wordAt q 24) = true) ∧
    (∀ f ∈ [id, copying], (∀ w ∈ [0, 1], (swS f).takes 0x0704 (fm 8) (commitP w)) ∧ ((swS f).taken (fm 8)).sw.commit = none ∧ ((swS f).taken (fm 8)).sw.copying = (f Switch.reset).copying) ∧
    (fm 8).src = .fm 7 ∧ (host 8).src = .ring 0 0 ∧
    (∀ w ∈ [0, 1], let q := (fm 8).params (commitP w); q.length = 8 ∧ uAt q 0 1 = 1 ∧ uAt q 1 1 ≤ 1 ∧ uAt q 2 2 = 0 ∧ uAt q 4 4 = 0) := by
  unfold State.takes; decide +kernel
theorem witness_Switching_host : up.takes 0x0704 (host 8) (commitP 0) := by unfold State.takes; decide +kernel
def owed1 : Owed := hdrOwed (fm 8) 0x0704
theorem witness_Switching_events : (∀ b ∈ [false, true], (swS fun w => { w with commit := some (up.datum, owed1, b) }).sw.commit = some (up.datum, owed1, b)) ∧
    (swS copying).sw.copying.isSome = true ∧
    (∀ l ∈ [[], [swOf 3]], let s := swS fun w => { w with drains := [(owed1, 1, 0)], queue := l }
      s.sw.drains = [(owed1, 1, 0)] ∧ s.olderFrames 1 = l.length ∧ 0 + usTicks (max 1 (s.get F.SWC_CTL_drain_us)) ≤ s.datum) := by decide +kernel

/-- Port 35 of a life and a state of Table 15.2, which it has been in since t. -/
def portOf (st : LifeSt) (sub : PortSub) (t : Nat) : Port := { Port.off with life := { Life.off with st := st }, sub := sub, since := t }
def portS (x : Port) : State := up.setPort 35 x
def portP (v : Nat) : List Byte := puts (zs 8) [(0, 1, 35), (1, 1, v)]
theorem witness_PortLifecycle_commands : (∀ e ∈ [(0x0500, LifeSt.off, PortSub.training), (0x0500, .on, .up), (0x0500, .starting, .training), (0x0501, .off, .training),
      (0x0501, .on, .up), (0x0502, .on, .failed), (0x0502, .on, .up), (0x0503, .on, .quarantined), (0x0503, .on, .up)],
      let s := portS (portOf e.2.1 e.2.2 0)
      (∀ v ∈ if e.1 = 0x0500 then [0, 1] else [0], s.takes e.1 (fm 8) (portP v)) ∧ (s.taken (fm 8)).fdWorks (35 / 6) = true ∧ ((s.taken (fm 8)).port 35).life.st = e.2.1 ∧ ((s.taken (fm 8)).port 35).sub = e.2.2 ∧
      (s.taken (fm 8)).pw.fdTrip.contains (35 / 6) = false ∧ (s.taken (fm 8)).boot.halted = false) ∧
    (∀ v ∈ [0, 1], let q := (fm 8).params (portP v); q.length = 8 ∧ uAt q 0 1 = 35 ∧ uAt q 1 1 = v ∧ v < 2 ∧ uAt q 2 6 = 0) ∧
    (let s := { up with pw := { up.pw with fdTrip := [5] } }; s.takes 0x0500 (fm 8) (portP 1) ∧ (s.taken (fm 8)).pw.fdTrip.contains (35 / 6) = true ∧ (s.port 35).life.st = .off) := by
  unfold State.takes; decide +kernel
def injectP (kind prob : Nat) : List Byte := puts (zs 16) [(0, 1, 35), (1, 1, kind), (2, 1, 255), (3, 1, prob), (4, 4, if prob = 1 then 0 else 2 ^ 24 - 1), (8, 4, 1)]
def debugS (d : Nat) : State := { up with sec := { up.sec with debug := d } }
theorem witness_PortLifecycle_inject : (∀ d ∈ [0, 2], (∀ e ∈ [(0, 0), (3, 0), (3, 1)], (debugS d).takes 0x0504 (fm 16) (injectP e.1 e.2)) ∧ ((debugS d).taken (fm 16)).sec.debug = d ∧ ((debugS d).taken (fm 16)).fdWorks (35 / 6) = true) ∧
    (∀ e ∈ [(0, 0), (3, 0), (3, 1)], let q := (fm 16).params (injectP e.1 e.2)
      q.length = 16 ∧ uAt q 0 1 = 35 ∧ uAt q 1 1 = e.1 ∧ uAt q 1 1 ≤ 3 ∧ uAt q 3 1 = e.2 ∧ (uAt q 3 1 = 1 ∨ 1 ≤ uAt q 4 4) ∧ uAt q 4 4 < 2 ^ 24 ∧ uAt q 8 4 ≠ 0 ∧ uAt q 12 4 = 0) := by
  unfold State.takes; decide +kernel
theorem witness_PortLifecycle_events : let now := up.datum
    (∀ t ∈ [0, now], ((portS { portOf .starting .training t with known := true }).port 35).inTraining = true) ∧ 0 + msTicks 250 ≤ now ∧ ¬ now + msTicks 250 ≤ now ∧
    (portS (portOf .starting .training now)).portLit 35 = true ∧ ((portS { portOf .starting .training now with known := true }).port 35).known = true ∧
    ((portS (portOf .on .up 0)).port 35).audit.bind Audit.owed = none ∧
    (portS (portOf .on .up 0)).portUp 35 = true ∧ (portS (portOf .on .up 0)).native 35 = true ∧ ((portS (portOf .on .up 0)).port 35).isUp = true ∧
    ((portS (portOf .on .retraining now)).port 35).sub = .retraining ∧ (portS (portOf .on .retraining now)).portLit 35 = true ∧ ¬ now + msTicks 100 ≤ now ∧
    ((portS { portOf .on .quarantined 0 with handshake := true }).port 35).handshake = true ∧
    ((portS (portOf .stopping .up now)).port 35).life.deferred = none ∧ ((portS (portOf .stopping .up now)).port 35).buffer = [] := by decide +kernel

def goodBlock (crc mac resv : Bool) (seq : Nat) (l : List Nat) : Block := ⟨1, BitVec.ofNat 20 seq, l, crc, mac, resv⟩
theorem witness_LinkProtocol : ∀ sub ∈ [PortSub.up, .quarantined],
    (portS (portOf .on sub 0)).native 35 = true ∧ ((portS (portOf .on sub 0)).port 35).linked = true ∧ ((portS (portOf .on sub 0)).port 35).sub = sub ∧
    (goodBlock true true true 5 []).crcOk = true ∧ (goodBlock true false true 5 []).macOk = false ∧ (goodBlock true true false 5 []).resvOk = false ∧
    ((portS (portOf .on sub 0)).port 35).ackAt + usTicks 1 ≤ (portS (portOf .on sub 0)).datum := by decide +kernel
/-- An audit that finds both ends of one mind; a partner that trains in time. -/
def audit0 : Audit := ⟨0, 7, none, 0⟩
theorem witness_LinkProtocol_more : let s := portS { portOf .on .up 0 with audit := some audit0, received := [(0, 9)] }
    let b := goodBlock true true true 0 [7, 9]
    (s.setPort 35 { s.port 35 with rxCount := nextCount (s.port 35).rxCount b.txCount.toNat }).port 35 = { s.port 35 with rxCount := nextCount (s.port 35).rxCount 1 } ∧
    (s.port 35).audit = some audit0 ∧ audit0.owed = none ∧ audit0.spent = b.fields.getD 0 0 ∧ (s.port 35).received.at audit0.key = b.fields.getD 1 0 ∧
    (portS (portOf .starting .training up.datum)).native 35 = true ∧ ((portS (portOf .starting .training up.datum)).port 35).inTraining = true ∧
    up.datum < up.datum + msTicks 250 := by decide +kernel

/-! Names and gateways. -/

def idle : State := { up with jobs := [] }
def anon (n : Nat) : CmdHdr := hdrOf (.fm 7) n false false
def mapP (first n : Nat) : List Byte := puts (zs (16 + 8 * n)) [(0, 2, 1), (4, 4, first), (8, 4, n), (16, 8, 0x1000006)]
theorem witness_NamesAndPeers_names : (∀ s ∈ [up, idle], s.takes 0x0507 (anon 8) (puts (zs 8) [(0, 4, 2 ^ 20 - 1)]) ∧ (s.taken (anon 8)).anyAdmitted = !s.jobs.isEmpty) ∧
    (let q := (anon 8).params (puts (zs 8) [(0, 4, 2 ^ 20 - 1)]); q.length = 8 ∧ uAt q 0 4 < 2 ^ 20 ∧ uAt q 4 4 = 0) ∧
    (∀ s ∈ [idle, up, up.setJob 1 { job1 with life := { Life.off with st := .stopping } }], (∀ first ∈ [1, 2], s.takes 0x0304 (anon 24) (mapP first 1)) ∧
      (s.taken (anon 24)).admitted 1 = !s.jobs.isEmpty) ∧ ((up.taken (anon 24)).job 1).life.st ≠ .stopping ∧
    (∀ first ∈ [1, 2], let q := (anon 24).params (mapP first 1)
      uAt q 0 2 = 1 ∧ uAt q 2 2 = 0 ∧ uAt q 4 4 = first ∧ uAt q 8 4 = 1 ∧ uAt q 12 4 = 0 ∧ q.length = 24 ∧ fld (wordAt q 16) 63 26 = 0 ∧ (wordAt q 16).getLsbD 23 = false ∧
      decide (first + 1 ≤ ((up.taken (anon 24)).job 1).n) = (first == 1)) := by unfold State.takes; decide +kernel
/-- A port in gateway mode, whose role is on or not. -/
def gwS (enable : Nat) (g : Gateway) (s : State := up) : State :=
  State.set (State.set ((s.setPort 35 upPort).setGate 35 g) F.FPT_CTL_mode 35 0 1) F.GWY_CTL_enable 35 0 enable
def gwP (en : Nat) : List Byte := puts (zs 32) [(0, 1, 35), (1, 1, en), (4, 2, 9194), (6, 2, 50), (16, 2, 2000)]
/-- Peer 1792, version 2, over IPv4; and an entry that removes it. -/
def peerP (kind : Nat) : List Byte := puts (zs 144) [(0, 4, 1), (16, 4, 1792), (20, 1, kind), (21, 1, 4)]
theorem witness_NamesAndPeers_gateways : (∀ e ∈ [0, 1], let s := gwS e .fresh
      s.takes 0x0508 (anon 32) (gwP e) ∧ (s.taken (anon 32)).get F.FPT_CTL_mode 35 = 1 ∧ (s.taken (anon 32)).get F.GWY_CTL_enable 35 = e ∧
      (s.taken (anon 32)).fdWorks (35 / 6) = true) ∧
    (∀ e ∈ [0, 1], let q := (anon 32).params (gwP e)
      q.length = 32 ∧ uAt q 0 1 = 35 ∧ uAt q 1 1 = e ∧ 4228 ≤ uAt q 4 2 ∧ uAt q 4 2 ≤ 9194 ∧ uAt q 12 4 = 0 ∧ 1 ≤ fld (wordAt q 16) 15 0 ∧ fld (wordAt q 16) 15 0 ≤ 2000 ∧
      uAt q 30 2 = 0) ∧ (∀ k ∈ [0, 6], up.takes 0x0509 (anon 144) (peerP k)) ∧ (up.taken (anon 144)).peers = [] ∧
    (∀ k ∈ [0, 6], let q := (anon 144).params (peerP k)
      uAt q 0 4 = 1 ∧ uAt q 4 12 = 0 ∧ q.length = 16 + 128 * 1 ∧ peerOk (bytesAt q 16 128) = true) := by unfold State.takes; decide +kernel

theorem put_length {α β : Type} [DecidableEq α] (l : Tbl α β) (k : α) (v : β) : l.length ≤ (l.put k v).length := by
  induction l with
  | nil => simp
  | cons a l ih =>
    simp only [Tbl.put]
    split <;> simp only [List.length_cons] <;> omega
/-- A peer table that is full. -/
def manyPeers : State := { up with peers := List.replicate 65537 (0, []) }
theorem witness_NamesAndPeers_full : manyPeers.takes 0x0509 (anon 144) (peerP 6) ∧
    65536 < (((List.range (uAt ((anon 144).params (peerP 6)) 0 4)).map fun i => bytesAt ((anon 144).params (peerP 6)) (16 + 128 * i) 128).foldl
      (fun (t : Tbl Nat (List Byte)) b => if uAt b 4 1 % 8 = 0 then t.del (uAt b 0 4) else t.put (uAt b 0 4) b) (manyPeers.taken (anon 144)).peers).length := by
  refine ⟨by unfold State.takes; decide +kernel, ?_⟩
  have h : (List.range (uAt ((anon 144).params (peerP 6)) 0 4)) = [0] := by decide +kernel
  rw [h]
  simp only [List.map, List.foldl]
  rw [if_neg (by decide +kernel)]
  refine Nat.lt_of_lt_of_le ?_ (put_length _ _ _)
  have hp : (manyPeers.taken (anon 144)).peers = List.replicate 65537 (0, []) := rfl
  rw [hp, List.length_replicate]
  decide
/-- A connection to peer 1792, open or not. -/
def conn0 (open_ : Bool) : Conn :=
  { version := 2, open_ := open_, remoteId := 9, helloAt := 0, nextPsn := 0, flights := [], ready := [], rate := 10, srtt := 5, rttvar := 0, rtts := [], window := 2 ^ 20,
    ce := 0, delivered := 0, retrans := false, ceSeen := 0, nextSend := 0, roundEnd := 0, rxCum := 0, rxAbove := [], rxSince := 0, ackAt := 0, rxTime := 0, rxAt := 0, rxCe := 0, promised := 0 }
def far : Frame := { aReq with dstDev := 1792 }
def withPeer : State := { up with peers := [(1792, (peerP 6).drop 16)] }
def gwC (c : Conn) (f : Gateway → Gateway := id) : State := gwS 1 (f { Gateway.fresh with conns := [(1792, c)] }) withPeer
def full8 : Conn := { conn0 true with ready := List.replicate 8 [far] }
theorem witness_GatewayTransport_egress : let q := fun g : Gateway => { g with inq := [far] }
    ((gwS 0 (q .fresh)).gate 35).inq = far :: [] ∧ (gwS 0 (q .fresh)).gwRole 35 = false ∧ ((gwC (conn0 true) q).gate 35).inq = far :: [] ∧
    (gwC (conn0 true) q).gwRole 35 = true ∧ (gwC (conn0 true) q).conn? 35 far.dstDev.toNat = some (conn0 true) ∧ (conn0 true).ready.length < 8 ∧
    ((gwC full8 q).gate 35).inq = far :: [] ∧ (gwC full8 q).conn? 35 far.dstDev.toNat = some full8 ∧ 8 ≤ full8.ready.length ∧
    ((gwC (conn0 true) fun g => { g with windows := [⟨1792, 0, [far]⟩] }).gate 35).windows = [⟨1792, 0, [far]⟩] ∧
    0 + usTicks ((gwC (conn0 true)).get F.GWY_WC_CFG_timeout_us 35) ≤ (gwC (conn0 true)).datum := by decide +kernel
def dgram0 (psn cum : Nat) (frames : List Frame) (versions : Nat := 6) : Dgram :=
  ⟨.taken, false, 1792, BitVec.ofNat 32 psn, BitVec.ofNat 32 cum, 16, 3, 0, 0, false, 0, [], 1792, BitVec.ofNat 8 versions, frames⟩
def flight0 (n : Nat) : Flight := ⟨0, 0, [far], n, 0⟩
/-- Old and new data; an input without room; an acknowledgement of the one flight. -/
theorem witness_GatewayTransport_data : (gwC (conn0 true)).gwRole 35 = true ∧ (gwC (conn0 true)).conn? 35 1792 = some (conn0 true) ∧ (conn0 true).open_ = true ∧
    psnFull 0 0 = 0 ∧ psnFull 5 4 < 5 ∧ (gwC { conn0 true with rxCum := 5 }).conn? 35 1792 = some { conn0 true with rxCum := 5 } ∧
    cellsOf aReq ≤ (gwC (conn0 true)).gwFree 35 ∧ headerOk { aReq with hops := 0 } = true ∧ aReq.kind ≠ 1 ∧
    (gwC (conn0 true)).gwFree 35 < sumOf (List.replicate ((gwC (conn0 true)).gwFree 35 + 1) aReq) cellsOf ∧
    (gwC { conn0 true with flights := [flight0 0] }).conn? 35 1792 = some { conn0 true with flights := [flight0 0] } ∧
    ((1 + 2 ^ 32 - (flight0 0).psn % 2 ^ 32) % 2 ^ 32 - 1 < 2 ^ 31 - 1 ∧ 1 ≠ (flight0 0).psn % 2 ^ 32) := by decide +kernel
theorem witness_GatewayTransport_hello : (gwC (conn0 false)).peers.has 1792 = true ∧ (∀ v ∈ [6, 8], commonVersion v ((gwC (conn0 false)).peerVersions 1792) =
      if v = 6 then some 2 else none) ∧ (gwC (conn0 false)).gwRole 35 = true ∧ (gwC (conn0 false)).conn? 35 1792 = some (conn0 false) ∧ (conn0 false).open_ = false := by
  decide +kernel
/-- An Ethernet frame that a port in gateway mode drops; the first HELLO of a peer. -/
theorem witness_GatewayTransport_dropped : (gwS 0 .fresh).portUp 35 = true ∧ (gwS 0 .fresh).get F.FPT_CTL_mode 35 = 1 ∧ (dgram0 0 0 []).mac = .taken ∧
    (gwS 1 .fresh withPeer).gwRole 35 = true ∧ (gwS 1 .fresh withPeer).conn? 35 1792 = none ∧ (gwS 1 .fresh withPeer).peers.has 1792 = true := by decide +kernel
theorem witness_GatewayTransport_timers : (let c := { conn0 true with rxSince := 1 }; ((gwC c).gate 35).conns = [(1792, c)] ∧ c.ackAt + usTicks 8 ≤ (gwC c).datum) ∧
    (∀ n ∈ [0, 6, 7], let c := { conn0 true with flights := [flight0 n] }
      (gwC c).conn? 35 1792 = some c ∧ (c.flights.find? fun y => y.psn == 0) = some (flight0 n) ∧ (flight0 n).sent + (gwC c).rto 35 c n ≤ (gwC c).datum) ∧
    (gwC (conn0 true)).conn? 35 1792 = some (conn0 true) ∧ (conn0 true).srtt ≠ 0 ∧ (conn0 true).roundEnd ≤ (gwC (conn0 true)).datum ∧
    (let c := { conn0 true with ready := [[far]] }; ((gwC c).gate 35).conns = [(1792, c)] ∧ c.maySend (gwC c).datum = true) ∧
    ((gwC (conn0 false)).gate 35).conns = [(1792, conn0 false)] ∧ (conn0 false).maySend (gwC (conn0 false)).datum = false ∧
    (conn0 false).helloAt + (gwC (conn0 false)).rto 35 (conn0 false) 0 ≤ (gwC (conn0 false)).datum := by decide +kernel

/-! The Chartroom. -/

def alone : State := { up with cht := { up.cht with role1 := .failed } }
def teardownS : State := up.setJob 1 { job1 with life := { Life.off with st := .stopping } }
theorem witness_DeviceCommands : (∀ o ∈ [(0x0100, 0), (0x0100, 1), (0x0101, 0), (0x0105, 0)], up.takes o.1 (fm o.2) (zs o.2)) ∧
    (∀ a ∈ [0, 0x30000000000 - 8, 0x30000000000, 0x3001B000000 - 8, 0x3001B000000], up.takes 0x0102 (fm 16) (puts (zs 16) [(0, 8, a)]) ∧ let q := (fm 16).params (puts (zs 16) [(0, 8, a)])
      q.length = 16 ∧ uAt q 0 8 = a ∧ a % 8 = 0) ∧
    (up.taken (fm 0)).role (1 - (up.taken (fm 0)).chtDie) = .standby ∧ alone.takes 0x0105 (fm 0) [] ∧ (alone.taken (fm 0)).role (1 - (alone.taken (fm 0)).chtDie) ≠ .standby ∧
    (∀ m ∈ [0, 1], up.takes 0x0106 (anon 8) (puts (zs 8) [(0, 1, m)]) ∧ let q := (anon 8).params (puts (zs 8) [(0, 1, m)]); q.length = 8 ∧ uAt q 0 1 = m ∧ uAt q 1 7 = 0) ∧
    teardownS.takes 0x0106 (anon 8) (puts (zs 8) [(0, 1, 1)]) ∧ (∀ e ∈ (teardownS.taken (anon 8)).jobs, e.2.life.st ≠ .on) ∧
    (let s := { up with cht := { up.cht with resetAt := some 0 } }; s.cht.resetAt = some 0 ∧ 0 + msTicks 1 ≤ s.datum ∧ s.noneStopping = true) ∧
    (let s := { up with cht := { up.cht with resetOwed := some (owed1, 1) } }; s.cht.resetAt = none ∧ s.cht.resetOwed = some (owed1, 1) ∧
      ∀ e ∈ s.jobs, e.2.life.st ≠ .stopping) := by unfold State.takes; decide +kernel
theorem witness_DeviceCommands_register : (let id := regAt 0 0 0; regWriteDenied 0 id = true ∨ regWriteDenied 0 id = false) ∧
    (∃ b ∈ List.range 27, ∃ r, regAt b 0 0 = some r ∧ regWriteDenied b (some r) = false) ∧ (∃ b ∈ List.range 27, regWriteDenied b (regAt b 0 0) = true) ∧
    (∃ b ∈ List.range 27, regWriteDenied b none = false ∧ regAt b 0 0xFFF8 = none) := by
  refine ⟨by decide +kernel, ⟨23, by decide, _, rfl, by decide +kernel⟩, by decide +kernel, by decide +kernel⟩

def rec0 : TelemRec := ⟨4, zs 64⟩
def telemS (l : List TelemRec) (cur : Nat) (us : Nat := 0) : State :=
  let s := { up with cht := { up.cht with telem := l, level := if l = [] then [] else zs 64 } }
  State.set (s.setSrc (.fm 7) { s.src (.fm 7) with telem := cur }) F.CHT_TELEM_sample_us 0 0 us
theorem witness_TelemetryAndRings_reads :
    (∀ v ∈ [0, 10, 1000000], up.takes 0x0B00 (fm 4) (leBytes 4 v) ∧ let q := (fm 4).params (leBytes 4 v); q.length = 4 ∧ uAt q 0 4 = v) ∧
    (∀ cur ∈ [4, 5], let t := (telemS [rec0] cur).taken (fm 0)
      (telemS [rec0] cur).takes 0x0B01 (fm 0) [] ∧ t.cht.telem = [rec0] ∧ (t.src (t.trueSrc (hdrOwed (fm 0) 0x0B01).src)).telem = cur) ∧ rec0.bytes.length ≤ 4088 ∧
    (telemS [rec0] 0).takes 0x0B02 (fm 0) [] ∧ ((telemS [rec0] 0).taken (fm 0)).cht.level ≠ [] ∧ (telemS [] 0).takes 0x0B02 (fm 0) [] ∧ ((telemS [] 0).taken (fm 0)).cht.level = [] := by
  unfold State.takes; decide +kernel
theorem witness_TelemetryAndRings_time : let s := telemS [] 0 10
    s.get F.CHT_TELEM_sample_us s.chtDie ≠ 0 ∧ s.cht.lastSample + usTicks (s.get F.CHT_TELEM_sample_us s.chtDie) ≤ s.datum ∧ s.chtActive = true ∧
    (∀ k < 36, s.portUp k = false) ∧ s.cht.beat + usTicks 100 ≤ s.datum ∧ s.dieDead (dieCh s.chtDie) = false ∧ s.role (1 - s.chtDie) = .standby ∧
    s.cht.heard + usTicks (max 200 (s.get F.CHT_CTL_hb_timeout_us s.chtDie)) ≤ s.datum ∧ s.ringOn 0 0 = true ∧ s.ringOn 1 15 = false ∧ s.cht.held = [] := by
  decide +kernel

/-! Trust. -/

/-- A manifest of job 2 for a device whose target digest is zero, and its last part, behind 3,000 bytes. -/
def manifest (digest : List Byte) (serial : Nat) (j : Nat := 2) : List Byte :=
  zs 8 ++ [1] ++ zs 1739 ++ leBytes 4 4883 ++ ([1, 0] ++ leBytes 2 j ++ leBytes 4 1 ++ leBytes 8 serial ++ digest ++ zs 4819) ++ zs 16
def lastPart (d : List Byte) (had : Nat) : List Byte := leBytes 4 d.length ++ leBytes 4 had ++ leBytes 4 (d.length - had) ++ zs 4 ++ d.drop had
def secS (op had : Nat) (src : Source) (d : List Byte) (f : Sec → Sec := id) (s : State := up) : State :=
  { s with sec := f { s.sec with owners := [zero48], parts := if had = 0 then [] else [⟨src, op, d.length, d.take had⟩] } }
/-- SHA-384 of 240 bytes of zero. -/
def fw0 : List Byte := leBytes 48 0xeec6be54e98ba69f6b174d0fe5c57f7cad04e7398d985077ec631b0e480067e96a4eb6c3f16fdb4ddda31b0d3722d548
def ring0 : Source := .ring 0 0
def theM : List Byte := manifest fw0 9
/-- What both kinds of part statement ask: the packet is taken, and its part is the last of its data. -/
def lastOk (s : State) (op : Nat) (h : CmdHdr) (p : List Byte) : Bool :=
  let t := s.taken h
  let q := h.params p
  let had : List Byte := ((t.sec.parts.find? fun x => x.src == t.trueSrc h.src && x.op == op).map Parts.data).getD []
  decide (uAt q 0 4 ≤ 65536) && uAt q 4 4 == had.length && had.length + uAt q 8 4 == uAt q 0 4 && q.length == 16 + uAt q 8 4 && uAt q 12 4 == 0 &&
  (match t.sec.parts.find? fun x => x.src == t.trueSrc h.src && x.op == op with
    | some y => y.total == uAt q 0 4
    | none => true)
def admitS : State := secS 0x0300 3000 ring0 theM
theorem witness_JobLifecycle_last : admitS.takes 0x0300 (host 3667) (lastPart theM 3000) ∧ lastOk admitS 0x0300 (host 3667) (lastPart theM 3000) = true := by unfold State.takes; decide +kernel
theorem witness_JobLifecycle_admit : let u := { admitS.taken (host 3667) with sec := { (admitS.taken (host 3667)).sec with parts := [] } }
    u.admitAuth theM false ≠ none ∧ u.admitAuth theM true = none ∧ (u.job (uAt (manifestBody theM) 2 2)).life.st = .off ∧ u.admitRest (manifestBody theM) = none := by
  decide +kernel
/-- A manifest older than the device takes; and one of job 1, which is going down. -/
theorem witness_JobLifecycle_refused : let u := { up with sec := { up.sec with owners := [zero48], minSerial := 10 } }
    u.admitAuth theM true = none ∧ (u.job (uAt (manifestBody theM) 2 2)).life.st ≠ .stopping ∧ u.admitRest (manifestBody theM) ≠ none ∧
    (let m := manifest fw0 9 1
      let v := { teardownS with sec := u.sec }
      v.admitAuth m true = none ∧ (v.job (uAt (manifestBody m) 2 2)).life.st = .stopping ∧ (v.job (uAt (manifestBody m) 2 2)).life.deferred = none) := by decide +kernel
/-- A part out of its place, and one that is not the last. -/
theorem witness_JobLifecycle_parts : let q := (host 20).params (leBytes 4 8 ++ leBytes 4 1 ++ leBytes 4 4 ++ zs 8)
    let r := (host 20).params (leBytes 4 65536 ++ leBytes 4 0 ++ leBytes 4 4 ++ zs 8)
    up.takes 0x0300 (host 20) q ∧ up.takes 0x0300 (host 20) r ∧ (up.taken (host 20)).sec.parts = [] ∧ uAt q 4 4 ≠ 0 ∧ q.length = 16 + uAt q 8 4 ∧ uAt q 12 4 = 0 ∧
    uAt r 0 4 = 65536 ∧ uAt r 4 4 = 0 ∧ uAt r 8 4 < uAt r 0 4 ∧ r.length = 16 + uAt r 8 4 := by unfold State.takes; decide +kernel
def down (step : Nat) : State := up.setJob 1 { job1 with life := { Life.off with st := .stopping, step := step } }
theorem witness_JobLifecycle_teardown : (host 0).jobValid = true ∧ up.takes 0x0301 (host 0) [] ∧
    (down 5).takes 0x0301 (host 0) [] ∧ ((up.taken (host 0)).job 1).life.st = .on ∧ (((down 5).taken (host 0)).job 1).life.st = .stopping ∧
    (((down 5).taken (host 0)).job 1).life.deferred = none ∧ (∀ k ∈ [4, 5], ((down k).job 1).life.st = .stopping ∧ ((down k).job 1).life.step = k ∧ (down k).jobWaits 1 = 0) := by
  unfold State.takes; decide +kernel

theorem witness_JobLifecycle_limit : (let s := (down 5).setPool 63 { aPool .on 0 with job := some 1 }
      s.pools = [(63, s.pool 63)] ∧ (s.pool 63).job = some 1 ∧ (s.pool 63).present = true ∧ s.elapsed ((s.job 1).life.since) s.teardownMs = true ∧
      (s.poolFinish 63).ctxsOfJob 1 = []) ∧
    (let s := (down 5).setCtx 0 15 (ctxOf .idle none none); s.pools = [] ∧ s.ctxsOfJob 1 = [(0, 15)] ∧ s.ctx? 0 15 = some (ctxOf .idle none none) ∧
      (ctxOf .idle none none).kernel = none ∧ s.elapsed ((s.job 1).life.since) s.teardownMs = true) := by decide +kernel

/-- PEER_ATTEST of job 1, whose origin is device 5; debug tokens. -/
def attestP : List Byte := lastPart (leBytes 8 (1 * 2 ^ 16)) 0
def freshJob : State := up.setJob 1 { job1 with own := 1 }
theorem witness_AttestationAndDebug_attest : (∀ s ∈ [up, up.setJob 1 { job1 with map := [] }], s.takes 0x0900 (hdrOf (.fm 7) 24 false true) attestP ∧
      lastOk s 0x0900 (hdrOf (.fm 7) 24 false true) attestP = true ∧ (∀ a ∈ ((s.taken (hdrOf (.fm 7) 24 false true)).job 1).attests, a.peer ≠ 0)) ∧
    (let d := attestP.drop 16; d.length = 8 ∧ uAt d 0 1 = 0 ∧ uAt d 1 1 = 0 ∧ uAt d 2 2 = 1 ∧ uAt d 4 4 = 0) ∧
    (up.mapEntry 1 0).isSome = true ∧ (up.setJob 1 { job1 with map := [] }).mapEntry 1 0 = none := by unfold State.takes; decide +kernel
def phaseD (phase peer : Nat) (items : List Nat) (six seven : List Byte) : List Byte :=
  leBytes 1 phase ++ [0] ++ leBytes 2 1 ++ leBytes 4 peer ++ items.flatMap fun t => attItem t (if t = 6 then six else if t = 7 then seven else zs 8)
def attesting (own : Nat) (l : List Attest) : State := up.setJob 1 { job1 with own := own, attests := l }
theorem witness_AttestationAndDebug_phases : (up.mapEntry 1 1).map (fun m => fld m 19 0) = some (6#20).toNat ∧ up.admitted 1 = true ∧ up.chtActive = true ∧
    (let d := phaseD 1 1 [1, 2, 3, 4] [] []; uAt d 0 1 = 1 ∧ uAt d 2 2 = 1 ∧ uAt d 4 4 = 1 ∧ ∀ k ∈ [1, 2, 3, 4], (itemOf k 16 (d.drop 8)).isSome = true) ∧
    ((attesting 0 []).job 1).own = 0 ∧ (∀ ph ∈ [1, 2, 3], ((attesting 0 [⟨1, ph, some owed1⟩]).job 1).attests.find? (fun a => a.peer == 1) = some ⟨1, ph, some owed1⟩) ∧
    (let d := phaseD 4 1 [10] [] []; uAt d 0 1 = 4 ∧ uAt d 2 2 = 1 ∧ uAt d 4 4 = 1 ∧ (itemOf 10 16 (d.drop 8)).isSome = true) ∧
    (∀ ph ∈ [2, 3], uAt (phaseD ph 1 [6, 7] (zs 336) []) 0 1 = ph) := by decide +kernel
def token (scope : Nat) (nonce : List Byte) : List Byte := [1] ++ leBytes 1 scope ++ zs 6 ++ leBytes 4 60 ++ zs 4 ++ nonce ++ zs 4771
def debugUp (s : State) (op had : Nat) (d : List Byte) (challenge : Option (List Byte)) : State := secS op had ring0 d (fun c => { c with challenge := challenge }) s
theorem witness_AttestationAndDebug_unlock : (let s := debugUp up 0x0901 1000 (token 1 (zs 32)) (some (zs 32))
      s.takes 0x0901 (host 3835) (lastPart (token 1 (zs 32)) 1000) ∧ lastOk s 0x0901 (host 3835) (lastPart (token 1 (zs 32)) 1000) = true ∧ tokenOk (token 1 (zs 32)) = true ∧
      s.sec.challenge = some (bytesAt (token 1 (zs 32)) 16 32) ∧ bytesAt (token 1 (zs 32)) 48 48 = s.sec.target ∧ s.sec.owners ≠ [] ∧ s.sec.jtagKill = false) ∧
    up.debugAllowed 1 = false ∧ (up.setJob 1 { job1 with faultDebug := true }).debugAllowed 1 = true := by unfold State.takes; decide +kernel
theorem witness_AttestationAndDebug_more : up.takes 0x0901 (host 16) (lastPart [] 0) ∧ lastOk up 0x0901 (host 16) (lastPart [] 0) = true ∧ up.takes 0x0902 (host 0) [] ∧
    up.sec.debugEnd ≤ up.datum ∧ (∀ k ∈ [0, 1], up.takes 0x0903 (host 24) (lastPart (leBytes 8 k) 0) ∧ lastOk up 0x0903 (host 24) (lastPart (leBytes 8 k) 0) = true ∧ uAt (leBytes 8 k) 0 1 = k ∧
      uAt (leBytes 8 k) 1 3 = 0) := by unfold State.takes; decide +kernel

/-- A job with a data key. -/
def keyed (s : State := up) : State := s.setJob 1 { job1 with dataKey := some (zs 32) }
def moveP (len n : Nat) : List Byte := puts (zs n) [(0, 8, 2 ^ 30 - len), (16, 4, len)]
theorem witness_TransfersAndSessions_transfers : (host 52).sheetValid = true ∧ (host 52).jobValid = true ∧
    (∀ e ∈ [(0, 52), (2 ^ 22, 52), (16, 20)], keyed.takes (if e.2 = 52 then 0x0408 else 0x0409) (host e.2) (moveP e.1 e.2) ∧ let q := (host e.2).params (moveP e.1 e.2)
      let t := keyed.taken (host e.2)
      q.length = e.2 ∧ uAt q 16 4 = e.1 ∧ e.1 % 16 = 0 ∧ e.1 ≤ 2 ^ 22 ∧ uAt q 20 4 = 0 ∧ uAt q 24 4 = 0 ∧ t.sheetOn 0 = true ∧ (t.job 1).dataKey.isSome = true ∧
      uAt q 0 8 + e.1 ≤ (t.sheet 0).usable ∧ (e.1 < 2 ^ 22 → ∀ b ∈ [false, true], (t.meets 0 2 [(uAt q 0 8, e.1, b)]).2 = none)) := by unfold State.takes; decide +kernel
/-- An import of 16 bytes; bytes with an error. -/
def importP (tag : List Byte) : List Byte := (moveP 16 52).take 36 ++ tag
def scarredHbm : State := match keyed.keyOf 0 (2 ^ 30 - 16) with
  | some k => { keyed with upsets := [(k / 256 * 256, true)] }
  | none => keyed
theorem witness_TransfersAndSessions_import (t : List Byte) (h : t.length = 16) : keyed.takes 0x0408 (host 52) (importP t) ∧
    ((host 52).params (importP t)).length = 52 ∧ uAt ((host 52).params (importP t)) 0 8 = 2 ^ 30 - 16 ∧ uAt ((host 52).params (importP t)) 16 4 = 16 ∧
    uAt ((host 52).params (importP t)) 20 8 = 0 ∧ bytesAt ((host 52).params (importP t)) 36 16 = t := by
  have e : ∀ p, ((keyed.advanceHead (host 52).src (host 52).length.toNat).setSrc (host 52).src ((keyed.src (host 52).src).take (host 52).seq.toNat)).cmdCheck 0x0408 (host 52) p = none := by
    intro p
    have q : paramJob 0x0408 p = paramJob 0x0408 [] := by simp [paramJob]
    unfold State.cmdCheck State.levelOk
    rw [q]
    decide +kernel
  refine ⟨⟨by decide +kernel, by decide +kernel, by decide +kernel, e _⟩, ?_⟩
  have l : importP t = ([0xF0, 0xFF, 0xFF, 0x3F] ++ zs 12 ++ [0x10] ++ zs 19) ++ t := congrArg (· ++ t) (by decide +kernel)
  rw [l]
  match t, h with
  | [_, _, _, _, _, _, _, _, _, _, _, _, _, _, _, _], _ => exact
    ⟨rfl, (by decide +kernel : leNat [0xF0, 0xFF, 0xFF, 0x3F, 0, 0, 0, 0] = _), (by decide +kernel : leNat [16, 0, 0, 0] = _), (by decide +kernel : leNat (zs 8) = _), rfl⟩
/-- Of two tags at least one fails, and the computed one verifies. -/
theorem witness_TransfersAndSessions_tags (n a c : List Byte) : (∃ t : List Byte, t.length = 16 ∧ gcmOpen (zs 32) n a c t = none) ∧
    ∃ t b : List Byte, t.length = 16 ∧ gcmOpen (zs 32) n a c t = some b := by
  refine ⟨?_, gcmTag (aesKeys (zs 32)) n a c, gcmText (aesKeys (zs 32)) n c, ?_, if_pos rfl⟩
  · by_cases e : gcmTag (aesKeys (zs 32)) n a c = zs 16
    · exact ⟨List.replicate 16 1, by decide, if_neg (fun g => absurd (e.symm.trans g) (by decide))⟩
    · exact ⟨zs 16, by decide, if_neg e⟩
  · have k : ((aesKeys (zs 32)).getD 14 []).length = 16 := by decide +kernel
    simp only [gcmTag, xorBytes, aesBlock, aesShiftRows, List.length_map, List.length_zip, List.length_range, k]
    rfl
theorem witness_TransfersAndSessions_scarred :
    (∀ b ∈ [false, true], ((scarredHbm.taken (host 52)).meets 0 2 [(2 ^ 30 - 16, 16, b)]).2 = some .memUe) := by decide +kernel
def secN (n : Nat) (l : Tbl Nat Session) : State := { up with sec := { up.sec with negotiated := n, sessions := l, owners := List.replicate 8 zero48 } }
theorem witness_TransfersAndSessions_spdm : (∀ n ∈ [1, 2, 3], n ≤ (secN n []).sec.negotiated) ∧ ¬ 3 ≤ (secN 2 []).sec.negotiated ∧ (secN 3 []).sec.sessions.has 9 = false ∧
    (∀ r ∈ [false, true], (secN 3 [(9, ⟨.fm 7, r, r, 0⟩)]).sec.sessions.find (9#32).toNat = some ⟨.fm 7, r, r, 0⟩) ∧
    (up.sec.owners.getLast? != some zero48) = true ∧ ¬ 8 ≤ up.sec.owners.length ∧ 4 < (List.replicate 5 zero48).length ∧
    ((secN 0 []).sec.owners.getLast? != some [1]) = true ∧ 8 ≤ (secN 0 []).sec.owners.length ∧ (BitVec.ofNat 64 (2 ^ 63)).getLsbD 63 = true ∧
    up.boot.standby = true ∧ ({ up with boot := { up.boot with standby := false } } : State).boot.standby = false := by decide +kernel

/-! Power, heat and ageing. -/

theorem witness_PowerCommands_plain : (∀ e ∈ [(0x0800, 8), (0x0802, 0), (0x0803, 0), (0x0804, 22)], up.takes e.1 (fm e.2) (zs e.2)) ∧
    (∀ e ∈ [(0, 0, 600), (1000, 10, 1500), (4600, 10, 625)], let q := leBytes 4 e.1 ++ leBytes 2 e.2.1 ++ leBytes 2 e.2.2;
      up.takes 0x0800 (fm 8) q ∧ (fm 8).params q = q ∧ uAt q 0 4 = e.1 ∧ uAt q 4 2 = e.2.1 ∧ uAt q 6 2 = e.2.2 ∧ e.2.2 % 25 = 0) ∧
    uAt ((fm 22).params (leBytes 8 5 ++ leBytes 4 1000 ++ leBytes 8 (2 ^ 36 - 1) ++ leBytes 2 65535)) 12 8 < 2 ^ 36 := by unfold State.takes; decide +kernel
/-- An overlay of one delta, −601 MHz of CD 31, that the clamp changes: its fmax is a multiple of 25 only at −600. -/
def theOverlay (serial : Nat) : List Byte :=
  [1, 0] ++ leBytes 2 1 ++ zs 4 ++ leBytes 8 serial ++ zs 48 ++ ([1, 31, 0, 0] ++ leBytes 4 21) ++ zs 4723
def overlayS (stored : Option Nat) : State :=
  let s := secS 0x0801 3000 (.fm 7) (theOverlay 9)
  { s with pw := { s.pw with stored := stored.map theOverlay } }
theorem witness_PowerCommands_overlay : (∀ x ∈ [none, some 8, some 9], let s := overlayS x;
      s.takes 0x0801 (fm 1811) (lastPart (theOverlay 9) 3000) ∧ lastOk s 0x0801 (fm 1811) (lastPart (theOverlay 9) 3000) = true ∧ (s.taken (fm 1811)).sec.owners ≠ [] ∧
      bytesAt (theOverlay 9) 16 48 = (s.taken (fm 1811)).sec.target) := by unfold State.takes; decide +kernel
theorem witness_PowerCommands_serial : overlayOk (theOverlay 9) = true ∧ overlayClamped (theOverlay 9) = 1 ∧ overlaySerial (theOverlay 9) = 9 ∧
    overlaySerial (theOverlay 8) = 8 := by decide +kernel

/-- Power states: the limit is 4,200 W from a 12 V supply. -/
def pwS (f : Power → Power) : State := { up with pw := f up.pw }
def sampled (f : Power → Power) (w : BitVec 16) : State :=
  ((((pwS f).newLimits.set F.PWR_STATUS_power_w 0 0 w.toNat).set F.PWR_STATUS_input_mv 0 0 12000).set F.PWR_STATUS_input_a 0 0 300).restage
theorem witness_PowerEvents_within : let u := sampled id 4200
    let v := sampled (fun p => { p with excursion := some 5 }) 4200;
    4200 ≤ u.sustained ∧ u.pw.excursion = none ∧ u.pw.throttling = none ∧ 4200 ≤ v.sustained ∧ v.pw.excursion.isSome = true := by decide +kernel
theorem witness_PowerEvents_over : (let u := sampled (fun p => { p with next := some (4000, 10, 600) }) 4001;
      u.sustained < 4001 ∧ u.pw.excursion = none ∧ u.pw.throttling = none ∧ u.pw.readyAt ≤ u.datum ∧ 0 < u.get F.PWR_LIMIT_excursion_ms) ∧
    (let u := sampled (fun p => { p with throttling := some 4200 }) 4201;
      u.sustained < 4201 ∧ u.pw.excursion = none ∧ u.pw.throttling.isSome = true) ∧
    (let u := sampled (fun p => { p with excursion := some 5 }) 4800;
      u.sustained < 4800 ∧ u.pw.excursion.isSome = true ∧ u.pw.throttling = none) ∧
    (let s := pwS fun p => { p with excursion := some 5 };
      s.pw.excursion = some 5 ∧ 5 + msTicks (s.get F.PWR_LIMIT_excursion_ms) ≤ s.datum) := by decide +kernel
def hot (t : Nat) : State := (pwS fun p => { p with throttling := some 4200, lowered := t }).set F.PWR_STATUS_power_w 0 0 4201
theorem witness_PowerEvents_step : (∀ t ∈ [1000000000000, 999999990000], (hot t).pw.throttling = some 4200) ∧
    (hot 999999990000).pw.lowered + usTicks 10 ≤ up.datum ∧ 4200 < (hot 999999990000).get F.PWR_STATUS_power_w ∧
    (hot 1000000000000).datum < (hot 1000000000000).pw.lowered + usTicks 10 := by decide +kernel
/-- Clocks behind stages 5 to 2 of Table 19.2. -/
def raiseS (halved : Bool) (common hclk xclk : Nat) : State :=
  ((pwS fun p => { p with halved := halved, common := common, lowered := 999999900000, raised := 999999900000 }).set F.CLK_STATUS_hclk_mhz 0 0 hclk).set
    F.CLK_STATUS_xclk_mhz 0 0 xclk
theorem witness_PowerEvents_raise : (∀ s ∈ [raiseS true 600 800 900, raiseS false 600 800 900, raiseS false 1500 800 900, raiseS false 1500 1000 900],
      s.pw.throttling = none ∧ s.pw.raised + usTicks 100 ≤ s.datum ∧ s.pw.lowered + usTicks 100 ≤ s.datum) ∧
    (let s := raiseS false 600 800 900; s.cclkFloor = 1000 ∧ s.pw.halved = false ∧ s.pw.common < s.cclkFloor) ∧
    (let s := raiseS false 1500 900 900; s.cclkFloor ≤ s.pw.common ∧ s.get F.CLK_STATUS_hclk_mhz < 1000 ∧ s.pw.heat = []) ∧
    (let s := raiseS false 1500 1000 900; s.cclkFloor ≤ s.pw.common ∧ 1000 ≤ s.get F.CLK_STATUS_hclk_mhz ∧ s.get F.CLK_STATUS_xclk_mhz < 1200 ∧ s.pw.heat = []) ∧
    up.boot.mainOk = true ∧ (State.reset).boot.mainOk = false := by decide +kernel
/-- Dies 32 and 48 too hot, and an excursion that is throttled. -/
def heatS (hclk xclk : Nat) (heat : List Nat) : State := let s := raiseS false 1500 hclk xclk; { s with pw := { s.pw with heat := heat } }
theorem witness_PowerEvents_heat : (∀ s ∈ [heatS 900 900 [32], heatS 1000 900 [48], heatS 1000 1200 [31]],
      s.pw.throttling = none ∧ s.pw.raised + usTicks 100 ≤ s.datum ∧ s.pw.lowered + usTicks 100 ≤ s.datum ∧ s.pw.halved = false ∧ s.cclkFloor ≤ s.pw.common) ∧
    (heatS 900 900 [32]).get F.CLK_STATUS_xclk_mhz < 1200 ∧ (heatS 1000 900 [48]).get F.CLK_STATUS_hclk_mhz = 1000 ∧ (heatS 1000 1200 [31]).get F.CLK_STATUS_xclk_mhz = 1200 ∧
    (let u := sampled (fun p => { p with excursion := some 5, throttling := some 4200 }) 4800;
      u.sustained < 4800 ∧ u.pw.excursion.isSome = true ∧ u.pw.throttling = some 4200) := by decide +kernel

theorem witness_HeatAndAgeing_thermal : up.boot.mainOk = true ∧ (State.reset).boot.mainOk = false ∧ tripC 0 = 115 ∧ tripC 56 = 115 ∧ tripC 55 = 115 ∧ tripC 63 = 115 := by decide +kernel
def ctrS (f : Power → Power) : State := pwS fun p => f { p with sampled := 990000000000, planned := 0 }
theorem witness_HeatAndAgeing_due : (let s := (ctrS id).setPort 35 upPort;
      s.get F.CTR_CTL_enable ≠ 0 ∧ s.pw.sampled + max 1 (s.get F.CTR_CTL_sample_s) * 1000000000 ≤ s.datum ∧ s.portUp 35 = true ∧ s.portUp 0 = false ∧
      s.dieDead 55 = false ∧ ({ s with boot := { s.boot with dead := [55] } } : State).dieDead 55 = true) ∧
    (let s := { ctrS id with datum := 86400000000000 };
      s.get F.CTR_CTL_enable ≠ 0 ∧ s.pw.planned + max 3600 (s.get F.CTR_CTL_replan_s) * 1000000000 ≤ s.datum) := by decide +kernel
def windowS (pm : Nat) : State := ctrS fun p => { p with window := some (1000000000000, 1, pm, 0) }
theorem witness_HeatAndAgeing_window : up.pw.window = none ∧ (windowS 0).pw.window = some (1000000000000, 1, 0, 0) ∧ (windowS 0).datum < 1000000000000 + msTicks 1 ∧
    (∀ i < 16, (windowS 0).stackFlagged i = false) ∧ (windowS 0).pw.contour = none ∧
    (∀ k < 6, (up.port (6 * 5 + k)).life.st = .off) := by decide +kernel

/-! Errors, start-up and resets. -/

def checkP (q n : Nat) : List Byte := leBytes 8 q ++ leBytes 8 n
def closeS : State := (((up.setPool 63 (aPool .on 0)).setPool 62 { aPool .on 0 with n512 := 0, tab := [(0, ⟨true, false, false, 0, none⟩)] }).setExch 7
  { Exch.reset with epochs := [(4095, { Epoch.free with st := .open_, issued := 3, granted := 2 })] }).setPort 35 upPort
theorem witness_ErrorCommands_closure : (host 16).jobValid = true ∧
    (∀ e ∈ [(0, 63), (0, linkInstance 35 31), (1, 63), (1, 62), (2, 8 * 4096 - 1), (1, 64), (5, 2 ^ 32)], let q := (host 16).params (checkP e.1 e.2);
      closeS.takes 0x0A02 (host 16) (checkP e.1 e.2) ∧ q.length = 16 ∧ uAt q 1 7 = 0 ∧ uAt q 0 1 = e.1 ∧ uAt q 8 8 = e.2) ∧
    linkInstance 35 31 % 64 = 35 ∧ 4 * (linkInstance 35 31 / 256 % 8) + linkInstance 35 31 / 4096 % 4 = 31 := by unfold State.takes; decide +kernel
theorem witness_ErrorCommands_kinds : let t := closeS.taken (host 16);
    t.native 35 = true ∧ t.portUp 35 = true ∧ (t.port 35).audit = none ∧
    ((({ closeS with ports := [(35, { upPort with audit := some audit0 })] } : State).taken (host 16)).port 35).audit.isSome = true ∧
    t.closure 1 64 1 = none ∧ t.closure 5 (2 ^ 32) 1 = none ∧ (t.closure 1 63 1).map (·.1) = some 0 ∧ (t.closure 2 (8 * 4096 - 1) 1).map (·.1) = some 1 ∧
    (t.closure 1 62 1).map (·.1) = some 2 := by decide +kernel
def evRec : EventRec := ⟨5, 9, .misclosure, 1, some 1, none, false, false, 0, 62, none, 3, [1]⟩
def evS (l : List EventRec) : State := { up with ev := { up.ev with ring := l, fmQueue := l } }
def cursorS (n : Nat) : State := (evS [evRec]).setSrc ring0 { up.src ring0 with evt := n }
theorem witness_ErrorCommands_read : (cursorS 10).takes 0x0A03 (host 0) [] ∧ (cursorS 9).takes 0x0A03 (host 0) [] ∧
    (∀ n ∈ [9, 10], (((cursorS n).taken (host 0)).src (((cursorS n).taken (host 0)).trueSrc ring0)).evt = n) ∧ evRec.seq = 9 ∧
    ((cursorS 9).taken (host 0)).ev.ring = [evRec] ∧ (evS [evRec]).fmSession.isSome = true ∧ (evS [evRec]).ev.fmQueue = [evRec] ∧ (State.reset).fmSession = none := by
  unfold State.takes; decide +kernel
theorem witness_ErrorCommands_diag : (∀ e ∈ [(0, 1), (0, 2), (1, 63), (2, 15), (2, 16), (3, 0), (3, 1)], let q := (host 12).params (leBytes 4 e.1 ++ leBytes 4 e.2 ++ zs 4);
      up.takes 0x0A00 (host 12) q ∧ q.length = 12 ∧ uAt q 0 1 = e.1 ∧ uAt q 1 3 = 0 ∧ uAt q 4 4 = e.2 ∧ ((up.taken (host 12)).diagEntries e.1 e.2).isSome = decide (e ∈ [(0, 1), (2, 15), (3, 0)])) := by
  unfold State.takes; decide +kernel

/-- A device at a step of its boot. -/
def bootS (f : Boot → Boot) : State := { up with boot := f up.boot }
def romS (a : List Nat) : State := (({ State.reset.bootStart with boot := { State.reset.bootStart.boot with triedA := a } } : State))
theorem witness_BootSteps_image : (∀ die ∈ [0, 1], (romS []).romSt die = .run ∧ (romS []).get F.CTC_STATUS_boot_step die = 1 ∧ (romS []).boot.triedA.contains die = false ∧
      (romS [0, 1]).romSt die = .run ∧ (romS [0, 1]).get F.CTC_STATUS_boot_step die = 1 ∧ (romS [0, 1]).boot.triedA.contains die = true) ∧
    (romS []).sec.svn ≤ 0 ∧ (romS []).boot.standby = true ∧ (State.reset).boot.standby = false := by decide +kernel
theorem witness_BootSteps_power : (let b := (bootS fun b => { b with mainReq := true, mainOk := false }).boot; b.mainReq = true ∧ b.mainOk = false ∧ b.reqAt + msTicks 50 ≤ up.datum) ∧
    (bootS fun b => { b with mainReq := true }).boot.mainOk = true ∧ up.boot.mainReq = false ∧
    (let b := (bootS fun b => { b with late := false }).boot; b.standby = true ∧ b.late = false ∧ b.begun + msTicks 1000 ≤ up.datum) := by decide +kernel
def waitS (t : Nat) : State := bootS fun b => { b with step := 4, since := t, complete := false }
theorem witness_BootSteps_dies : (∀ t ∈ [0, 999999999999], (waitS t).boot.step = 4 ∧ (waitS t).chtActive = true ∧
      (∀ d ∈ [0, 31, 32, 61], (waitS t).boot.seen.contains d = false ∧ (waitS t).dieDead d = false)) ∧
    (waitS 0).boot.since + msTicks (busUp 31 + 5) ≤ (waitS 0).datum ∧ (waitS 999999999999).datum < (waitS 999999999999).boot.since + msTicks (busUp 31 + 5) := by decide +kernel
def trainS (n : Nat) : State := bootS fun b => { b with step := n, since := 0, complete := false, config := some (63, 0) }
theorem witness_BootSteps_train : 5 ≤ (trainS 5).boot.step ∧ (trainS 5).boot.photonic.contains 5 = false ∧ (trainS 5).fdWorks 5 = true ∧ (trainS 5).boot.halted = false ∧
    (∀ j < 36, bitOf (({ trainS 5 with boot := { (trainS 5).boot with config := some (0, 0) } } : State)).bootPorts.1 j = false) ∧
    ((trainS 5).set F.MHB_STATUS_state 15 0 1).get F.MHB_STATUS_state 15 = 1 ∧ (trainS 5).pw.retry.contains 15 = false ∧
    (trainS 8).boot.step = 8 ∧ (trainS 8).boot.complete = false ∧ (trainS 8).boot.since + msTicks 2 ≤ (trainS 8).datum := by decide +kernel

/-! The machine as a whole. -/

theorem witness_StepRunsFront : ({ up with pending := [Instr.coldReset] } : State).pending = Instr.coldReset :: [] ∧ up.pending = [] ∧ State.reset.pending = [] := by decide +kernel
theorem witness_MemoryInvariant : Memory.wf State.reset.mem = true ∧ Memory.wf (up.poke 0 (2 ^ 30 - 2) [1, 2]).mem = true ∧ (up.poke 0 (2 ^ 30 - 2) [1, 2]).mem.length = 2 ∧
    Memory.wf ((up.poke 0 (2 ^ 30 - 2) [1, 2]).poke 0 (2 ^ 30 - 2) [0, 0]).mem = true := by decide +kernel
theorem witness_MemoryInvariant_step : Memory.wf up.mem = true ∧ step up = .next up.tick := ⟨by decide +kernel, rfl⟩
def twoSheets : State := { up with sheets := [(0, sheet0), (1, sheet0)] }
theorem witness_MemoryPlacement : Memory.wf twoSheets.mem = true ∧
    (∀ j ∈ [0, 1], j * (twoSheets.sheet j).m + (twoSheets.sheet j).m ≤ 8 ∧ 0 < (twoSheets.sheet j).m ∧ (twoSheets.sheet j).usable ≤ 2 * (twoSheets.sheet j).m * 2 ^ 36) ∧
    (∀ a ∈ [0, 4094, 2 ^ 30 - 4], twoSheets.inData 0 a 4 = true) ∧ (2 ^ 30 - 1 < (twoSheets.sheet 0).usable) ∧
    (0 * (twoSheets.sheet 0).m + (twoSheets.sheet 0).m ≤ 1 * (twoSheets.sheet 1).m) := by decide +kernel
theorem witness_TileRoundTrip : (∀ e ∈ [(0, 1), (1, 6), (2, 65536)], e.1 ≤ 2 ∧ 0 < e.2 ∧ e.2 % 2 ^ e.1 = 0 ∧ e.2 / 2 ^ e.1 ≤ 65536) ∧
    (let row : List Byte := [0, 0, 7, 0, 0, 0]
     expandTile 6 ((compressTile 1 row).1 ++ [9]) = some (row, (compressTile 1 row).1.length)) := by decide +kernel
theorem witness_StreamNumbers : (∀ e ∈ [(0, 0), (2 ^ 32, 2 ^ 31), (2 ^ 31 - 1, 2 ^ 32 - 2)], e.1 ≤ e.2 + 2 ^ 31 ∧ e.2 < e.1 + 2 ^ 31) := by decide
theorem witness_ExactSum : (fp32.decode 0x7FC00000 matches .nan _) ∧ fp32.decode 0xFF800000 = .inf true ∧ bf16.decode 0x7F80 = .inf false ∧ (fp32.decode 0x80000000 matches .fin true 0 _) ∧
    (fp32.decode 1 = .fin false 1 (-149)) ∧ (bf16.decode 0xFF7F matches .fin true _ _) ∧ [1, 0x7FC00000, 2].Perm [2, 1, 0x7FC00000] := by decide +kernel
/-- Two frames of one queue and one of another input wait for port 35. -/
def twoOfOne : State :=
  let x (i n tc : Nat) : SwFrame := ⟨{ aReq with tc := BitVec.ofNat 3 tc, seq := BitVec.ofNat 32 n }, i, 38, 0, false⟩
  { swS id with sw := { (swS id).sw with queue := [x 3 1 2, x 3 2 2, x 4 1 2] } }
theorem witness_QueueOrder : ((twoOfOne.chooseFrame 38).2).map (fun y => (y.inPort, y.frame.seq.toNat, y.outPort)) = some (3, 1, 38) := by decide +kernel

/-- Every command packet's opcode, with a packet from a source that may send it. -/
def allOps : List Nat :=
  [0x0400, 0x0700, 0x0701, 0x0702, 0x0703, 0x0704, 0x0302, 0x0401, 0x0402, 0x0403, 0x0404, 0x0405, 0x0303, 0x0406, 0x0407, 0x0A01, 0x0600, 0x0601, 0x0602, 0x0603, 0x0604,
   0x0605, 0x0606, 0x0103, 0x0104, 0x0200, 0x0201, 0x0202, 0x0203, 0x0204, 0x0205, 0x0206, 0x0505, 0x0506, 0x0500, 0x0501, 0x0502, 0x0503, 0x0504] ++
  [0x0507, 0x0304, 0x0508, 0x0509, 0x0100, 0x0101, 0x0102, 0x0105, 0x0106, 0x0207, 0x0B00, 0x0B01, 0x0B02, 0x0300, 0x0301, 0x0900, 0x0901, 0x0902, 0x0903, 0x0408, 0x0409,
   0x0800, 0x0801, 0x0802, 0x0803, 0x0804, 0x0A02, 0x0A03, 0x0A00]
def sender (op : Nat) : CmdHdr := if sourceMay op ring0 then host 8 else fm 8
/-- A number expected of both sources. -/
def expecting (e : Option Nat) (kept : List (Nat × Option Reply)) : State :=
  [ring0, .fm 7].foldl (fun s x => s.setSrc x { s.src x with expected := e, kept := kept }) up
theorem witness_CommandEnvelope_session : (∀ op ∈ allOps, up.outsideSession (sender op).src = false ∧ up.acceptable (sender op) = true) ∧
    up.outsideSession (.fm 8) = true ∧ (∀ h ∈ [host 8, fm 8], ({ up with cht := { up.cht with role0 := .failed } } : State).acceptable h = false ∧
      ({ up with cht := { up.cht with role0 := .failed } } : State).outsideSession h.src = false) := by decide +kernel
theorem witness_CommandEnvelope_number : (∀ h ∈ [host 8, fm 8], ∀ k ∈ [[], [(h.seq.toNat, (none : Option Reply))]], (expecting (some 5) k).outsideSession h.src = false ∧
      (expecting (some 5) k).acceptable h = true ∧ ((expecting (some 5) k).src h.src).expected = some 5 ∧ 5 ≠ h.seq.toNat ∧ ((expecting (some 5) k).src h.src).kept = k) ∧
    ((expecting (some (host 8).seq.toNat) []).src ring0).expected = some (host 8).seq.toNat ∧ (up.src ring0).expected = none := by decide +kernel
theorem witness_CommandEnvelope_header : (hdrBad { host 8 with resv24 := 1 }).isSome = true ∧ (hdrBad (host 4097)).isSome = true ∧ (hdrBad (host 4096)) = none ∧
    (∀ op ∈ allOps, hdrBad (sender op) = none ∧ sourceMay op (sender op).src = true) ∧
    (∀ e ∈ [(0x0507, ring0), (0x0800, ring0)], up.acceptable (host 8) = true ∧ sourceMay e.1 e.2 = false) := by decide +kernel
def lowS : State := { up with boot := { up.boot with level := 0, complete := false } }
def jobIs (l : Tbl Nat Job) : State := { up with jobs := l }
theorem witness_CommandEnvelope_level : ∀ op ∈ allOps, let h := sender op;
    (∀ s ∈ [lowS, jobIs [], jobIs [(1, { job1 with life := { Life.off with st := .stopping } })]], s.outsideSession h.src = false ∧ s.acceptable h = true) ∧
    (lowS.taken h).levelOk op h (h.params []) = false := by decide +kernel
theorem witness_CommandEnvelope_job : ∀ op ∈ allOps, let h := sender op;
    h.jobValid = true ∧ ((jobIs []).taken h).levelOk op h (h.params []) = true ∧ ((jobIs []).taken h).admitted h.job.toNat = false ∧ (((jobIs []).taken h).job h.job.toNat).life.st ≠ .stopping ∧
    ((jobIs [(1, { job1 with life := { Life.off with st := .stopping } })]).taken h).levelOk op h (h.params []) = true ∧
    (((jobIs [(1, { job1 with life := { Life.off with st := .stopping } })]).taken h).job h.job.toNat).life.st = .stopping := by decide +kernel

/-! Terms that WellFormed refuses, one for each check, each beside one that it accepts. -/

theorem test_wf_length : wf (.deviceInfo (host 1) []) = false ∧ wf (.deviceInfo (host 0) []) = true := by decide +kernel
theorem test_wf_source : wf (.deviceInfo (hdrOf (.launch 0) 0 false false) []) = false := by decide +kernel
theorem test_wf_frame : wf (.loadRequest (req 0 0 0 0 (zs 4097))) = false ∧ wf (.loadRequest (req 0 0 0 0 (zs 4096))) = true := by decide +kernel
theorem test_wf_dgram : wf (.hello 0 (dgram0 0 0 [req 0 0 0 0 (zs 4097)])) = false ∧ wf (.hello 0 (dgram0 0 0 [])) = true := by decide +kernel
theorem test_wf_block : wf (.keepalive 0 (goodBlock true true true 0 [0, 0, 0, 0, 0, 0])) = false ∧ wf (.keepalive 0 (goodBlock true true true 0 [0, 0, 0, 0, 0])) = true := by
  decide +kernel
theorem test_wf_spdm : wf (.getDigests (.launch 0)) = false ∧ wf (.getDigests .bmc) = true := by decide +kernel
theorem test_wf_nonce : wf (.challengeMsg .bmc (zs 31)) = false ∧ wf (.challengeMsg .bmc (zs 32)) = true := by decide +kernel
theorem test_wf_owner : wf (.ownerRecord (zs 47) [] 0 false true) = false ∧ wf (.ownerRecord (zs 48) [zs 49] 0 false true) = false ∧
    wf (.ownerRecord (zs 48) [zs 48] 0 false true) = true := by decide +kernel
theorem test_wf_measured : wf (.bootImageVerified 0 false 0 true [zs 47] true) = false ∧ wf (.bootImageVerified 0 false 0 true [zs 48] true) = true := by decide +kernel
end Sys2Proof.Tests
end

section
/-! What reset leaves, and what REGION_SET and the register commands of the remote unit do. -/

namespace Sys2Proof.Machine

/-! Reset (R8): every table of the state is empty, so each entry reads as its default. -/

theorem State.reset_port_off (n : Nat) : (State.reset.port n).life.st = .off := rfl
theorem State.reset_sheet_off (n : Nat) : (State.reset.sheet n).life.st = .off := rfl
theorem State.reset_pool_off (n : Nat) : (State.reset.pool n).life.st = .off := rfl
theorem State.reset_reg (id : RegId) : State.reset.reg id = regReset id := rfl

/-- Every page of a block resets alike. -/
theorem regReset_inst (name : RegName) (n k : Nat) : regReset ⟨name, n, k⟩ = regReset ⟨name, 0, k⟩ := rfl

theorem State.get_reset (f : Field) (n k : Nat) : State.reset.get f n k = fld (regReset ⟨f.reg, 0, k⟩) f.hi f.lo := by
  rw [State.get, State.reset_reg, regReset_inst]

/-- Settles O52: tables and units read as their defaults, registers by their rows. -/
theorem resetState : Obligations.ResetState := by
  unfold Obligations.ResetState
  refine ⟨rfl, rfl, rfl, rfl, rfl, rfl, rfl, rfl, rfl, rfl, rfl, rfl, rfl, fun n _ => State.reset_port_off n,
    fun n _ => State.reset_sheet_off n, fun n _ => State.reset_pool_off n, ?_⟩
  simp only [State.get_reset]
  decide

/-! Captured faults, the cache and register writes (R7, R28, R53, R66, R68). -/

theorem State.rearm_of_valid (s : State) (id : RegId) {w : Word} (hw : w.getLsbD 63 = true) :
    s.rearm id w = s.setReg id (BitVec.ofNat 64 ((s.reg id).toNat % 2 ^ 63)) := if_pos hw

theorem State.dropLines_all (s : State) : (s.dropLines fun _ _ _ _ => true).ep.lines = [] := by
  simp [State.dropLines]

theorem exec_rlcCtlFlush (s : State) : exec .rlcCtlFlush s = .next (s.dropLines fun _ _ _ _ => true) := rfl
theorem exec_rmoFaultInfo (i : Fin 8) (w : Word) (s : State) : exec (.rmoFaultInfo i w) s = .next (s.rearm ⟨.RMO_FAULT_INFO, 0, i⟩ w) := rfl
theorem exec_rgdViolInfo (w : Word) (s : State) : exec (.rgdViolInfo w) s = .next (s.rearm ⟨.RGD_VIOL_INFO, 0, 0⟩ w) := rfl

/-- A whole-word write by the Chartroom, at a place where a register stands. -/
theorem exec_registerWrite_chartroom {s : State} {x : BitVec 44} {w : Word} {b p o : Nat} {id : RegId}
    (hplace : regPlace x.toNat = some (b, p, o)) (hid : regAt b p o = some id) :
    exec (.registerWrite .chartroom x 8 w) s = .next (s.regWrite id w none false) := by
  show execRegisterWrite .chartroom x 8 w s = _
  simp [execRegisterWrite, hplace, hid]

/-! REGION_SET (R67, R69, Table 2.11). -/

theorem exec_regionSet (h : CmdHdr) (p : List Byte) (s : State) : exec (.regionSet h p) s = .next (s.command 0x0400 h p bodyRegionSet) := rfl

/-- The regions of a REGION_SET's range, given its entry. -/
def State.regionsSet (s : State) (h : CmdHdr) (q : List Byte) : State :=
  let v := regionEntry (uAt q 16 1) (uAt q 12 4) h.job.toNat
  let r := fun y => (h.sheet.toNat, uAt q 0 8 / 2 ^ 21 + y)
  { s with ep := { s.ep with
      regions := (List.range (uAt q 8 4)).foldl (fun l y => if v = 0 then l.del (r y) else l.put (r y) v) s.ep.regions } }

/-- Whether a REGION_SET changes the owner of a region; one never set counts as owner 0's (log 69). -/
def State.regionsMove (s : State) (h : CmdHdr) (q : List Byte) : Bool :=
  (List.range (uAt q 8 4)).any fun y => fld (s.ep.regions.getD (h.sheet.toNat, uAt q 0 8 / 2 ^ 21 + y) 0) 21 2 != uAt q 12 4

/-- The reply owed, and the readers of the job asked to drop what they hold of the range. -/
def State.askReaders (s : State) (o : Owed) (h : CmdHdr) (q : List Byte) : State :=
  let u := s.owe o true
  (u.tryRegion ⟨h.sheet.toNat, h.job.toNat, uAt q 0 8, uAt q 8 4 * 2 ^ 21, u.ep.nextId, o⟩).after

/-- Parameters that REGION_SET accepts. -/
structure State.RegionParams (s : State) (h : CmdHdr) (q : List Byte) : Prop where
  length : q.length = 24
  sheet : h.sheetValid = true
  job : h.jobValid = true
  aligned : uAt q 0 8 % 2 ^ 21 = 0
  nonempty : 1 ≤ uAt q 8 4
  count : uAt q 8 4 ≤ 524288
  owner : uAt q 12 4 < 2 ^ 20
  mode : uAt q 16 1 ≤ 3
  reserved : uAt q 17 7 = 0
  inside : uAt q 0 8 + uAt q 8 4 * 2 ^ 21 ≤ (s.sheet h.sheet.toNat).usable

/-- What REGION_SET does with good parameters. -/
theorem bodyRegionSet_of_params {s : State} {h : CmdHdr} {q : List Byte} (o : Owed) (g : s.RegionParams h q) :
    bodyRegionSet s o h q = if uAt q 16 1 < 2 ∧ !s.regionsMove h q then (s.regionsSet h q, .ok)
      else ((s.regionsSet h q).askReaders o h q, .sent) := by
  unfold bodyRegionSet
  dsimp only
  rw [(firstFail_none _).2 (by
    simpa [pass_nil, lenIs, needSheet, needJob, zeros, g.length, g.sheet, g.job, g.nonempty, g.count, g.mode, g.reserved]
      using ⟨g.aligned, g.owner, g.inside⟩)]
  rfl

/-- A taken REGION_SET of mode NONE or SHARED_READ that changes no owner is answered at once (Table 2.11). -/
theorem exec_regionSet_kept {s : State} {h : CmdHdr} {p : List Byte} (ht : s.takes 0x0400 h p) (g : (s.taken h).RegionParams h (h.params p))
    (hmode : uAt (h.params p) 16 1 < 2) (hmoved : (s.taken h).regionsMove h (h.params p) = false) :
    exec (.regionSet h p) s = .next (((s.taken h).regionsSet h (h.params p)).answer (hdrOwed h 0x0400) .ok) := by
  rw [exec_regionSet, State.command_of_takes ht, bodyRegionSet_of_params _ g, if_pos ⟨hmode, by simp [hmoved]⟩]

/-- Any other taken REGION_SET asks the job's readers, and its reply is owed. -/
theorem exec_regionSet_asks {s : State} {h : CmdHdr} {p : List Byte} (ht : s.takes 0x0400 h p) (g : (s.taken h).RegionParams h (h.params p))
    (hask : 2 ≤ uAt (h.params p) 16 1 ∨ (s.taken h).regionsMove h (h.params p) = true) :
    exec (.regionSet h p) s = .next (((s.taken h).regionsSet h (h.params p)).askReaders (hdrOwed h 0x0400) h (h.params p)) := by
  have hnot : ¬ (uAt (h.params p) 16 1 < 2 ∧ (!(s.taken h).regionsMove h (h.params p)) = true) := by
    rintro ⟨hmode, hmoved⟩
    rcases hask with hge | hmove
    · omega
    · simp [hmove] at hmoved
  rw [exec_regionSet, State.command_of_takes ht, bodyRegionSet_of_params _ g, if_neg hnot]
  rfl

/-- Settles O15: REGION_SET by whether it asks the job's readers, then each register command by its own equation. -/
theorem regionsAndRegisters : Obligations.RegionsAndRegisters := by
  intro s h p i w x id t q a n owner mode k r0 v moved put t'
  refine ⟨fun ht hlen hs hj ha hn hn' ho hm hz hin => ?_, ⟨_, exec_rlcCtlFlush s, rfl, s.dropLines_all⟩, fun hw => ⟨?_, ?_⟩,
    fun b pg o hplace hid => exec_registerWrite_chartroom hplace hid⟩
  · have good : t.RegionParams h q := ⟨hlen, hs, hj, ha, hn, hn', ho, hm, hz, hin⟩
    exact ⟨fun hmode hmoved => exec_regionSet_kept ht good hmode hmoved, fun hask => exec_regionSet_asks ht good hask⟩
  · rw [exec_rmoFaultInfo, s.rearm_of_valid _ hw]
  · rw [exec_rgdViolInfo, s.rearm_of_valid _ hw]

end Sys2Proof.Machine
end

section
/-! Sequence numbers of a stream: how a receiver recovers one from its 32 bits (R39, R448), and what marking numbers and a report of received responses do to
the numbers that count as executed (R40, R47). -/

namespace Sys2Proof.Machine

/-! Recovery. The difference d of the 32 bits from those of the expected number is n - e of a number not below it, and 2^32 - (e - n) of one below it. -/

theorem fullSeq_mod {e n : Nat} (hlow : e ≤ n + 2 ^ 31) (hhigh : n < e + 2 ^ 31) : fullSeq e (n % 2 ^ 32) = n := by
  unfold fullSeq
  dsimp only
  split <;> omega

theorem psnFull_mod {e n : Nat} (hlow : e ≤ n + 2 ^ 31) (hhigh : n < e + 2 ^ 31) : psnFull e (n % 2 ^ 32) = n := by
  unfold psnFull
  dsimp only
  split <;> omega

/-! One step of `RxStream.settle`: the expected number, where it has executed ahead of its turn, leaves the list. -/

/-- The expected number moved past a number of the list. -/
def RxStream.advance (x : RxStream) : RxStream :=
  if x.done.contains x.expected then { x with expected := x.expected + 1, done := x.done.erase x.expected } else x

theorem RxStream.advance_of_mem {x : RxStream} (h : x.expected ∈ x.done) :
    x.advance = { x with expected := x.expected + 1, done := x.done.erase x.expected } := by
  rw [advance, if_pos (List.contains_iff_mem.2 h)]

theorem RxStream.advance_of_not_mem {x : RxStream} (h : x.expected ∉ x.done) : x.advance = x := by
  rw [advance, if_neg (by simpa using h)]

theorem RxStream.settle_eq_foldl (x : RxStream) : x.settle = x.done.foldl (fun y _ => y.advance) x := rfl

theorem RxStream.executed_iff {x : RxStream} {m : Nat} : x.executed m = true ↔ m < x.expected ∨ m ∈ x.done := by
  simp [executed]

/-- No number starts or stops counting as executed: the one that leaves the list falls below the expected number. -/
theorem RxStream.executed_advance (x : RxStream) (m : Nat) : x.advance.executed m = x.executed m := by
  by_cases h : x.expected ∈ x.done
  · rw [Bool.eq_iff_iff, advance_of_mem h, executed_iff, executed_iff]
    dsimp only
    by_cases hm : m = x.expected
    · subst hm
      simp [h]
    · rw [List.mem_erase_of_ne hm]
      constructor <;> rintro (hlt | hin)
      · left; omega
      · exact .inr hin
      · left; omega
      · exact .inr hin
  · rw [advance_of_not_mem h]

theorem RxStream.executed_foldl_advance (l : List Nat) (x : RxStream) (m : Nat) :
    (l.foldl (fun y _ => y.advance) x).executed m = x.executed m := by
  induction l generalizing x with
  | nil => rfl
  | cons _ l ih => rw [List.foldl_cons, ih, executed_advance]

/-- As many steps as the list is long leave an expected number that has not executed: a step that changes anything shortens the list, and one that changes
nothing has found such a number. -/
theorem RxStream.foldl_advance_expected (l : List Nat) (x : RxStream) (h : x.done.length ≤ l.length ∨ x.expected ∉ x.done) :
    (l.foldl (fun y _ => y.advance) x).expected ∉ (l.foldl (fun y _ => y.advance) x).done := by
  induction l generalizing x with
  | nil =>
    rcases h with hlen | hout
    · rw [List.foldl_nil, List.length_eq_zero_iff.1 (Nat.le_zero.1 hlen)]
      exact List.not_mem_nil
    · exact hout
  | cons _ l ih =>
    rw [List.foldl_cons]
    by_cases hin : x.expected ∈ x.done
    · have hlen : x.done.length ≤ l.length + 1 := h.resolve_right (not_not_intro hin)
      refine ih _ (.inl ?_)
      rw [advance_of_mem hin, List.length_erase_of_mem hin]
      omega
    · rw [advance_of_not_mem hin]
      exact ih _ (.inr hin)

theorem RxStream.executed_settle (x : RxStream) (m : Nat) : x.settle.executed m = x.executed m := by
  rw [settle_eq_foldl, executed_foldl_advance]

theorem RxStream.settle_expected (x : RxStream) : x.settle.expected ∉ x.settle.done := by
  rw [settle_eq_foldl]
  exact foldl_advance_expected _ _ (.inl (Nat.le_refl _))

/-! The two operations that settle a stream. -/

theorem RxStream.executed_mark (x : RxStream) (n m : Nat) : (x.mark n).executed m = (x.executed m || m == n) := by
  rw [mark, executed_settle, Bool.eq_iff_iff]
  simp [executed_iff, or_assoc]

theorem RxStream.executed_reported (x : RxStream) (t m : Nat) : (x.reported t).executed m = (x.executed m || decide (m ≤ t)) := by
  rw [reported, executed_settle, Bool.eq_iff_iff, executed_iff, Bool.or_eq_true, executed_iff, decide_eq_true_eq]
  simp only [List.mem_filter, decide_eq_true_eq]
  by_cases hin : m ∈ x.done
  · simp only [hin, true_and, or_true, true_or, iff_true]
    omega
  · simp only [hin, false_and, or_false]
    omega

/-- Settles O56: recovery by the distance from the expected number; marks and reports by the steps of `RxStream.settle`. -/
theorem streamNumbers : Obligations.StreamNumbers :=
  ⟨fun _ _ hlow hhigh => ⟨fullSeq_mod hlow hhigh, psnFull_mod hlow hhigh⟩,
    fun x n m => ⟨x.executed_mark n m, RxStream.settle_expected _⟩,
    fun x t m => ⟨x.executed_reported t m, RxStream.settle_expected _⟩⟩

end Sys2Proof.Machine
end

section
/-! The remote instructions of Table 7.11 (R223 to R226): what each comes to at a core that issues, once its encoding is legal and its registers are ready. -/

namespace Sys2Proof.Machine

/-- An operation that fails as it issues where its local offset lies outside every window (R23). -/
def CoreRemote.within (r : CoreRemote) (x : CoreCtx) (f : BitVec 56) : CoreRemote :=
  { r with bad := if remoteBad x f then some .addressRange else r.bad }

/-- A checked remote operation holds its core, or its core moves on and the operation issues (R43, R50). -/
theorem State.remoteIssue_eq (s : State) (c : Nat) (x : CoreCtx) (r : CoreRemote) :
    s.remoteIssue c x r = if s.coreHeld x.kern.sheet x.kern.vindex = true ∨
        65536 ≤ (s.stream ⟨x.kern.sheet, x.kern.vindex, x.kern.job, fld r.addr 63 44⟩).unacked
      then s.setCore c { x with run := .blocked (.issue r) } else (s.setCore c x.adv).issueCore c r := by
  simp [State.remoteIssue]

/-- A remote instruction of a good size and an aligned address passes its own checks. -/
theorem State.remoteGo_of_aligned (s : State) (c : Nat) (x : CoreCtx) (f : BitVec 56) {sizeOk : Bool} {r : CoreRemote} (hsize : sizeOk = true)
    (hal : fld r.addr 43 0 % r.size = 0) : s.remoteGo c x f sizeOk r = s.remoteIssue c x (r.within x f) := by
  rw [State.remoteGo, if_neg (by simp [hsize, hal])]
  rfl

/-- The operation of an RLD: into a register, or with a size of 4 and above into the scratchpad. -/
def CoreCtx.rldOp (x : CoreCtx) (f : BitVec 56) : CoreRemote :=
  let sz := bitsOf (rX f) 3 0
  let b := (x.rs (rB f)).toNat
  ⟨1, remoteAddr x f, 2 ^ sz, if 4 ≤ sz then none else some (rD f), b, bitOf (rX f) 5, bitOf (rX f) 6 && decide (sz < 4), [], 0, 0, false,
    if 4 ≤ sz ∧ 2 ^ 24 < b + 2 ^ sz then some .addressRange else none⟩

/-- The operation of an RST whose data and whose status at issue are given. -/
def CoreCtx.rstOp (x : CoreCtx) (f : BitVec 56) (data : List Byte) (bad : Option Status) : CoreRemote :=
  ⟨2, remoteAddr x f, 2 ^ bitsOf (rX f) 3 0, none, 0, false, false, data, 0, 0, false, bad⟩

/-- The operation of an RATOM. -/
def CoreCtx.ratomOp (x : CoreCtx) (f : BitVec 56) : CoreRemote :=
  ⟨3, remoteAddr x f, 2 ^ bitsOf (rX f) 3 0, if bitOf (rX f) 7 then some (rD f) else none, 0, false, false, leBytes 8 (x.rs (rB f)).toNat,
    bitsOf (rX f) 11 8, x.rs (rC f), bitOf (rX f) 7, none⟩

section
variable {s : State} {c : Fin 256} {f : BitVec 56}

theorem exec_rld_of_issues (hi : s.issues c) (hr : (s.core c).ready [rA f, rB f, rC f])
    (hal : fld (remoteAddr (s.core c) f) 43 0 % 2 ^ bitsOf (rX f) 3 0 = 0) (hsz : bitsOf (rX f) 3 0 ≤ 8) (hl : plainLegal f 0x7F = true)
    (hc : rC f = 0) (hb : bitsOf (rX f) 3 0 < 4 → rB f = 0) (hd : 4 ≤ bitsOf (rX f) 3 0 → rD f = 0) :
    exec (.rld c f) s = .next (s.remoteIssue c (s.core c) (((s.core c).rldOp f).within (s.core c) f)) := by
  show execRld c f s = _
  unfold execRld
  dsimp only
  rw [State.sysStep_of_issues hi, State.remoteGo_of_aligned _ _ _ _ (by simp [hsz]) hal]
  · rcases Nat.lt_or_ge (bitsOf (rX f) 3 0) 4 with hw | hw
    · simp [CoreCtx.rldOp, slotBad, hw, Nat.not_le.2 hw]
    · simp [CoreCtx.rldOp, slotBad, hw, Nat.not_lt.2 hw]
  · rcases Nat.lt_or_ge (bitsOf (rX f) 3 0) 4 with hw | hw
    · simp [hl, hc, hb hw, Nat.not_le.2 hw]
    · simp [hl, hc, hd hw, hw]
  · refine CoreCtx.ready_mono hr fun n hn => ?_
    simp only [List.mem_append, List.mem_singleton, List.mem_ite_nil_right] at hn
    rcases hn with rfl | ⟨-, rfl⟩ <;> simp

/-- RST from a register. -/
theorem exec_rst_of_register (hi : s.issues c) (hr : (s.core c).ready [rA f, rB f, rC f])
    (hal : fld (remoteAddr (s.core c) f) 43 0 % 2 ^ bitsOf (rX f) 3 0 = 0) (hsz : bitsOf (rX f) 3 0 < 4) (hl : plainLegal f 0x1F = true)
    (hc : rC f = 0) (hd : rD f = 0) :
    exec (.rst c f) s = .next (s.remoteIssue c (s.core c)
      (((s.core c).rstOp f (leBytes (2 ^ bitsOf (rX f) 3 0) ((s.core c).rs (rB f)).toNat) none).within (s.core c) f)) := by
  show execRst c f s = _
  unfold execRst
  dsimp only
  rw [State.sysStep_of_issues hi _ (by simp [hl, hc, hd]) (CoreCtx.ready_mono hr (by simp)),
    State.remoteGo_of_aligned _ _ _ _ (by simp; omega) hal]
  simp [CoreCtx.rstOp, slotBad, Nat.not_le.2 hsz]

/-- RST from the scratchpad, whose bytes are read as it issues. -/
theorem exec_rst_of_scratchpad (hi : s.issues c) (hr : (s.core c).ready [rA f, rB f, rC f])
    (hal : fld (remoteAddr (s.core c) f) 43 0 % 2 ^ bitsOf (rX f) 3 0 = 0) (hsz : bitsOf (rX f) 3 0 ≤ 8) (hl : plainLegal f 0x1F = true)
    (hc : rC f = 0) (hd : rD f = 0) (hw : 4 ≤ bitsOf (rX f) 3 0) (hin : ((s.core c).rs (rB f)).toNat + 2 ^ bitsOf (rX f) 3 0 ≤ 2 ^ 24) :
    let b := ((s.core c).rs (rB f)).toNat
    let r := s.scrReads c [(b, 2 ^ bitsOf (rX f) 3 0)]
    exec (.rst c f) s = .next (r.1.remoteIssue c (s.core c)
      (((s.core c).rstOp f (r.1.scrRd c b (2 ^ bitsOf (rX f) 3 0)) r.2).within (s.core c) f)) := by
  have hslot : slotBad true ((s.core c).rs (rB f)).toNat (bitsOf (rX f) 3 0) = none := by simp [slotBad]; omega
  show execRst c f s = _
  unfold execRst
  dsimp only
  rw [State.sysStep_of_issues hi _ (by simp [hl, hc, hd]) (CoreCtx.ready_mono hr (by simp)),
    State.remoteGo_of_aligned _ _ _ _ (by simp [hsz]) hal]
  simp [CoreCtx.rstOp, hw, hslot]

theorem exec_ratom_of_issues (hi : s.issues c) (hr : (s.core c).ready [rA f, rB f, rC f])
    (hal : fld (remoteAddr (s.core c) f) 43 0 % 2 ^ bitsOf (rX f) 3 0 = 0) (hl : plainLegal f 0xF9F = true) (hcode : bitsOf (rX f) 11 8 ≤ 10)
    (hret : bitOf (rX f) 7 = false → rD f = 0) (hcmp : bitsOf (rX f) 11 8 = 9 ∨ rC f = 0)
    (hsz : bitsOf (rX f) 3 0 = 2 ∨ bitsOf (rX f) 3 0 = 3) (hadd : bitsOf (rX f) 11 8 = 10 → bitsOf (rX f) 3 0 = 2) :
    exec (.ratom c f) s = .next (s.remoteIssue c (s.core c) (((s.core c).ratomOp f).within (s.core c) f)) := by
  show execRatom c f s = _
  unfold execRatom
  dsimp only
  rw [State.sysStep_of_issues hi, State.remoteGo_of_aligned _ _ _ _ _ hal]
  · rfl
  · have hwide : bitsOf (rX f) 11 8 ≠ 10 ∨ bitsOf (rX f) 3 0 ≠ 3 := by omega
    simpa using ⟨hsz, hwide⟩
  · have hplain : bitOf (rX f) 7 = true ∨ rD f = 0 := by
      cases hb : bitOf (rX f) 7
      · exact .inr (hret hb)
      · exact .inl rfl
    simpa using ⟨⟨⟨hl, hcode⟩, hplain⟩, hcmp⟩
  · refine CoreCtx.ready_mono hr fun n hn => ?_
    simp only [List.mem_append, List.mem_cons, List.not_mem_nil, or_false, List.mem_ite_nil_right] at hn
    rcases hn with (rfl | rfl) | ⟨-, rfl⟩ <;> simp

/-- FENCE by an agent that may issue (R50): its core waits for the fence that it records. -/
theorem exec_fence_of_free (hi : s.issues c) (hr : (s.core c).ready [rA f, rB f, rC f]) (hl : plainLegal f 3 = true) (hb : rB f = 0)
    (hc : rC f = 0) (ha : rA f = 0 ∨ bitOf (rX f) 0 = true) (hfree : s.coreHeld (s.core c).kern.sheet (s.core c).kern.vindex = false) :
    let x := s.core c
    exec (.fence c f) s = .next ((s.setCore c { x with run := .blocked (.fence s.ep.nextId (rD f)) }).addFence x.kern.sheet x.kern.vindex
      x.kern.job (if bitOf (rX f) 0 then some (x.rs (rA f)).toNat else none) (bitOf (rX f) 1) (.instr c (rD f))).settle := by
  show execFence c f s = _
  unfold execFence
  dsimp only
  rw [State.sysStep_of_issues hi _ (by simpa [hl, hb, hc] using ha.symm) (CoreCtx.ready_mono hr (by simp)), if_neg (by simp [hfree])]

end

/-- Settles O9: each instruction's own equation, then `State.remoteIssue_eq` for the two outcomes of an operation. -/
theorem remoteInstructions : Obligations.RemoteInstructions := by
  intro s c f hi hr x sz b code ret a far slot t
  refine ⟨fun hal hsz => ⟨fun hl hc hb hd => ?_, fun hl hc hd hsz' => ?_, fun hl hc hd hw hin => ?_,
    fun hl hcode hret hcmp hsz' hadd => ?_⟩, fun hl hb hc ha hfree => exec_fence_of_free hi hr hl hb hc ha hfree⟩
  · rw [exec_rld_of_issues hi hr hal hsz hl hc hb hd, State.remoteIssue_eq]
    rfl
  · rw [exec_rst_of_register hi hr hal hsz' hl hc hd, State.remoteIssue_eq]
    rfl
  · intro r
    rw [exec_rst_of_scratchpad hi hr hal hsz hl hc hd hw hin, State.remoteIssue_eq]
    rfl
  · rw [exec_ratom_of_issues hi hr hal hl hcode hret hcmp hsz' hadd, State.remoteIssue_eq]
    rfl

end Sys2Proof.Machine
end

section
/-! Operation descriptors (R33 to R37, R42, R50, Table 2.6): the head of a remote operation queue taken, and what becomes of it by the state of its agent, its
checks and its operation. -/

namespace Sys2Proof.Machine

/-- The head of an octant's remote operation queue, of one of the five operations, leaves the queue and is tried. -/
theorem State.rmoTake_of_headOf {s : State} {k : Fin 8} {q : QDesc} {op : Nat} (hq : s.headOf k 4 q) (hop : dAt q.desc 0 1 = op) :
    s.rmoTake k op = ((s.popQueue k 4).tryDesc q).after := by
  unfold State.headOf at hq
  unfold State.rmoTake
  cases hl : s.ep.queues.getD (k.val, 4) [] with
  | nil => rw [hl] at hq; cases hq
  | cons q' l =>
    rw [hl] at hq
    cases hq
    simp [hop]

/-- A descriptor behind its agent's earlier work, or behind descriptors of its agent. -/
def State.waits (s : State) (q : QDesc) : State := { s with ep := { s.ep with waiting := s.ep.waiting ++ [q] } }

/-- The number of the logical device that issues a descriptor. -/
def State.ownOf (s : State) (q : QDesc) : Nat := (s.logicalOf q.job s.sw.devId q.sheet).getD (2 ^ 20)

/-- The fence of a FENCE descriptor recorded (R50). -/
def State.fenceOf (s : State) (q : QDesc) : State :=
  s.addFence q.sheet q.agent q.job (if bitOf (dAt q.desc 2 2) 3 then some (dAt q.desc 8 8 / 2 ^ 44) else none) (bitOf (dAt q.desc 2 2) 2)
    (.desc (dAt q.desc 48 8) (dAt q.desc 28 4))

/-- The readers that an INVALIDATE lists. -/
def State.readersOf (s : State) (q : QDesc) : List Nat :=
  (List.range (dAt q.desc 56 4)).map fun j => s.rdN q.sheet (dAt q.desc 16 8 % 2 ^ 44 + 4 * j) 4

/-- An INVALIDATE issued, its operations completing together (R64). -/
def State.invalidates (s : State) (q : QDesc) : State :=
  s.issueInvals q.sheet q.agent q.job (s.readersOf q) (dAt q.desc 8 8 % 2 ^ 44) (dAt q.desc 24 4)
    ⟨0, none, q.sheet, dAt q.desc 48 8, dAt q.desc 28 4, none, s.datum⟩

section
variable {s : State} {q : QDesc}

theorem State.tryDesc_of_held (hheld : s.agentHeld q.sheet q.agent = true) : s.tryDesc q = s.waits q := by
  unfold State.tryDesc
  dsimp only
  rw [if_pos hheld]
  rfl

theorem State.tryDesc_of_refused {st : Status} (hfree : s.agentHeld q.sheet q.agent = false) (hst : s.rmoCheck q.sheet (s.ownOf q) q.desc = some st) :
    s.tryDesc q = s.descFails q (s.ownOf q) st := by
  unfold State.ownOf at *
  unfold State.tryDesc
  dsimp only
  rw [if_neg (by simp [hfree]), hst]

variable (hfree : s.agentHeld q.sheet q.agent = false) (hgood : s.rmoCheck q.sheet (s.ownOf q) q.desc = none)
include hfree hgood

/-- A descriptor that passes its checks, of an agent that may issue: by its operation. -/
theorem State.tryDesc_of_good : s.tryDesc q =
    if dAt q.desc 0 1 = 7 then
      match (s.fenceOf q).ep.fences.find? (fun g => g.id == s.ep.nextId) with
      | some g => if (s.fenceOf q).fenceMet g then ((s.fenceOf q).endFence g).1.fenceAnswer g ((s.fenceOf q).endFence g).2 else s.fenceOf q
      | none => s.fenceOf q
    else if dAt q.desc 0 1 = 6 ∧ s.agentBusy q.sheet q.agent = true then s.waits q
    else match s.meets q.sheet 2 (descReads q.desc) with
      | (v, some st) => v.descFails q (s.ownOf q) st
      | (v, none) => if dAt q.desc 0 1 = 6 then v.invalidates q else v.issueDesc q (s.ownOf q) := by
  unfold State.ownOf at *
  unfold State.tryDesc
  dsimp only
  rw [if_neg (by simp [hfree]), hgood]
  rfl

/-- A checked FENCE. -/
theorem State.tryDesc_fence {g : Fence} (hop : dAt q.desc 0 1 = 7) (hg : (s.fenceOf q).ep.fences.find? (fun g => g.id == s.ep.nextId) = some g) :
    s.tryDesc q = if (s.fenceOf q).fenceMet g then ((s.fenceOf q).endFence g).1.fenceAnswer g ((s.fenceOf q).endFence g).2 else s.fenceOf q := by
  rw [State.tryDesc_of_good hfree hgood, if_pos hop, hg]

/-- A checked INVALIDATE of an agent with operations outstanding (R42). -/
theorem State.tryDesc_invalidate_of_busy (hop : dAt q.desc 0 1 = 6) (hbusy : s.agentBusy q.sheet q.agent = true) : s.tryDesc q = s.waits q := by
  rw [State.tryDesc_of_good hfree hgood, if_neg (by omega), if_pos ⟨hop, hbusy⟩]

/-- A checked INVALIDATE whose list meets no error. -/
theorem State.tryDesc_invalidate {v : State} (hop : dAt q.desc 0 1 = 6) (hidle : s.agentBusy q.sheet q.agent = false)
    (hv : s.meets q.sheet 2 (descReads q.desc) = (v, none)) : s.tryDesc q = v.invalidates q := by
  rw [State.tryDesc_of_good hfree hgood, if_neg (by omega), if_neg (by simp [hidle]), hv]
  exact if_pos hop

/-- A checked RACC, BULK_COPY or NOTIFY whose payload meets no error. -/
theorem State.tryDesc_issue {v : State} (hop : dAt q.desc 0 1 ≠ 6 ∧ dAt q.desc 0 1 ≠ 7) (hv : s.meets q.sheet 2 (descReads q.desc) = (v, none)) :
    s.tryDesc q = v.issueDesc q (s.ownOf q) := by
  obtain ⟨h6, h7⟩ := hop
  rw [State.tryDesc_of_good hfree hgood, if_neg h7, if_neg (by simp [h6]), hv]
  exact if_neg h6

end

/-- What the five rows of Table 2.6 do with a descriptor follows from what the tried descriptor comes to. -/
theorem exec_descriptor_each {s : State} {k : Fin 8} {q : QDesc} (hq : s.headOf k 4 q) {P : Nat → State → Prop}
    (h : ∀ o, dAt q.desc 0 1 = o → P o ((s.popQueue k 4).tryDesc q).after) :
    (dAt q.desc 0 1 = 4 → ∃ u, exec (.raccDesc k) s = .next u ∧ P 4 u) ∧ (dAt q.desc 0 1 = 5 → ∃ u, exec (.bulkCopy k) s = .next u ∧ P 5 u) ∧
    (dAt q.desc 0 1 = 6 → ∃ u, exec (.invalidate k) s = .next u ∧ P 6 u) ∧
    (dAt q.desc 0 1 = 7 → ∃ u, exec (.fenceDescriptor k) s = .next u ∧ P 7 u) ∧
    (dAt q.desc 0 1 = 8 → ∃ u, exec (.notifyDesc k) s = .next u ∧ P 8 u) := by
  have take : ∀ o, dAt q.desc 0 1 = o → ∃ u, (.next (s.rmoTake k o) : Res) = .next u ∧ P o u := fun o ho =>
    ⟨_, rfl, State.rmoTake_of_headOf hq ho ▸ h o ho⟩
  exact ⟨take 4, take 5, take 6, take 7, take 8⟩

/-- Settles O11: the tried descriptor by its agent, its checks and its operation. -/
theorem endpointDescriptors : Obligations.EndpointDescriptors := by
  intro s k q hq t op own each fl a wait
  have rows : ∀ P : Nat → State → Prop, (∀ o, op = o → P o (t.tryDesc q).after) → each P := fun P h => exec_descriptor_each hq h
  -- from here on what the rows do is `rows` alone
  clear_value each
  refine ⟨fun hheld => ?_, fun hfree st hst => ?_, fun hfree hgood => ⟨fun hbusy => ?_, fun v hv => ?_, ?_⟩⟩
  · exact rows _ fun _ _ => congrArg State.after (State.tryDesc_of_held hheld)
  · exact rows _ fun _ _ => congrArg State.after (State.tryDesc_of_refused hfree hst)
  · exact rows _ fun o ho h6 => congrArg State.after (State.tryDesc_invalidate_of_busy hfree hgood (ho.trans h6) hbusy)
  · intro g readers
    refine rows _ fun o ho => ⟨fun hissue => ?_, fun h6 hidle => ?_⟩
    · exact congrArg State.after (State.tryDesc_issue hfree hgood (by omega) hv)
    · exact congrArg State.after (State.tryDesc_invalidate hfree hgood (ho.trans h6) hidle hv)
  · intro v f hf
    exact rows _ fun o ho h7 => congrArg State.after (State.tryDesc_fence hfree hgood (ho.trans h7) hf)

end Sys2Proof.Machine
end

section
/-! A request that executes (R40, R44): from its effect to the whole step, by the answer that the effect gives; and its effect on a data window that no check
closes (R23, R31, R68, R294). -/

namespace Sys2Proof.Machine

/-! The step, by what the effect answers. -/

section
variable {s v : State} {f : Frame} {op src : Nat} {o : Bool}

theorem State.op_of_executes (he : s.executes f op src o) : f.op.toNat = op := by
  obtain ⟨-, hop, -⟩ := he
  exact hop

theorem State.request_acknowledges {st : Status} (he : s.executes f op src o) (h : (s.arrived f).effect f src = (v, .ack st)) :
    s.request f op o = v.acknowledges f st := by
  rw [State.request_of_executes he, State.execFrame, h]
  rfl

theorem State.request_responds {st : Status} {cacheable : Bool} {data : List Byte} (he : s.executes f op src o)
    (h : (s.arrived f).effect f src = (v, .resp st cacheable data)) : s.request f op o = v.responds f st cacheable data := by
  rw [State.request_of_executes he, State.execFrame, h]
  rfl

/-- A frame that a full queue or a hub keeps joins the kept frames (R27, R44). -/
theorem State.request_stalls (he : s.executes f op src o) (h : (s.arrived f).effect f src = (v, .stall)) :
    s.request f op o = (({ v with ep := { v.ep with stalled := v.ep.stalled ++ [f] } } : State).drained f).after := by
  rw [State.request_of_executes he, State.execFrame, h]

/-- A contribution that its hub has taken is answered by the hub. -/
theorem State.request_hub (he : s.executes f op src o) (h : (s.arrived f).effect f src = (v, .hub)) : s.request f op o = (v.drained f).after := by
  rw [State.request_of_executes he, State.execFrame, h]

end

/-! The effect, by place and operation. -/

/-- No pool whose STOPPING is past step 2 holds the frame's cells (R170). -/
def State.poolsOpenTo (s : State) (f : Frame) : Prop := (s.pools.any fun e => s.poolShut e.2 && e.2.frameFor f false) = false

/-- Address a of sheet i is neither in an engine queue nor in a register page. -/
def State.dataPlace (s : State) (i a : Nat) : Prop :=
  (∀ k p o, s.locate i a ≠ some (.queue k p o)) ∧ ∀ b p o, s.locate i a ≠ some (.reg b p o)

/-- The effect of a request on a data window (Table 2.4). -/
def State.dataEffect (s : State) (f : Frame) (src : Nat) : Nat → State × Done
  | 1 => s.doLoad f src
  | 2 => s.doStore f src
  | 3 => s.doAtomic f src
  | 4 => s.doRacc f src
  | 5 => if isGet f then s.doGet f src else if f.agent = 280 then s.doTree f src else s.doPut f src
  | 6 => s.doInvalidate f
  | _ => s.doNotify f src

section
variable {s v : State} {f : Frame} {src : Nat}

theorem State.effect_of_data (hopen : s.poolsOpenTo f) (hdata : s.dataPlace f.dstSheet.toNat f.addr.toNat) :
    s.effect f src = s.dataEffect f src f.op.toNat := by
  obtain ⟨hqueue, hreg⟩ := hdata
  unfold State.poolsOpenTo at hopen
  unfold State.effect State.dataEffect
  dsimp only
  rw [if_neg (by simp [hopen])]
  split <;> simp_all

/-- The operation and the places of a frame that executes on a data window. -/
theorem State.effect_of_executes {s₀ : State} {op : Nat} {o : Bool} (he : s₀.executes f op src o) (hs : s₀.arrived f = s) (hopen : s.poolsOpenTo f)
    (hdata : s.dataPlace f.dstSheet.toNat f.addr.toNat) : (s₀.arrived f).effect f src = s.dataEffect f src op := by
  rw [hs, State.effect_of_data hopen hdata, State.op_of_executes he]

/-- The places of a request lie in a data window, in regions that let its source in, and meet no uncorrectable error; v is the state after the words
read for that are corrected. -/
def State.letsIn (s : State) (f : Frame) (src : Nat) (l : List Touch) (v : State) : Prop :=
  s.windowCheck f src l = none ∧ (∀ e ∈ l, s.regionRefuses f.dstSheet.toNat e.1 e.2.1 e.2.2 f.job.toNat src = none) ∧
    s.meets f.dstSheet.toNat 1 l = (v, none)

/-- Such a request has its effect. -/
theorem State.checkedAt_of_letsIn {l : List Touch} (h : s.letsIn f src l v) (g : State → State × Done) : s.checkedAt f src l g = g v := by
  obtain ⟨hwindow, hregion, hmeets⟩ := h
  have hhome : s.homeCheck f src l = (v, none) := by
    unfold State.homeCheck
    dsimp only
    rw [List.findSome?_eq_none_iff.2 hregion, hmeets]
    rfl
  rw [State.checkedAt, hwindow, hhome]

theorem State.doLoad_of_letsIn (h : s.letsIn f src [(f.addr.toNat, opSize f, false)] v) :
    let i := f.dstSheet.toNat
    let a := f.addr.toNat
    s.doLoad f src = (v, .resp .ok (fld f.opflag 0 0 == 1 && decide (v.get F.RGD_CTL_enforce = 0 ∨ 2 ^ 40 ≤ a ∨ fld (v.regionAt i a) 1 0 < 2))
      (v.rd i a (opSize f))) :=
  State.checkedAt_of_letsIn h _

theorem State.doStore_of_letsIn (h : s.letsIn f src [(f.addr.toNat, f.payload.length, true)] v) :
    s.doStore f src = (v.write f.dstSheet.toNat f.addr.toNat f.payload, .ack .ok) :=
  State.checkedAt_of_letsIn h _

theorem State.doAtomic_of_letsIn (h : s.letsIn f src [(f.addr.toNat, opSize f, true)] v) :
    let i := f.dstSheet.toNat
    let a := f.addr.toNat
    let z := opSize f
    let old := v.rdN i a z
    let new := atomicNew (fld f.spec 11 8) z old (uAt f.payload 0 8 % 2 ^ (8 * z)) (uAt f.payload 8 8 % 2 ^ (8 * z))
    s.doAtomic f src = ((v.writeN i a z new).wordRaised i a z, .resp .ok false (if fld f.opflag 0 0 = 1 then leBytes 8 old else [])) :=
  State.checkedAt_of_letsIn h _

theorem State.doGet_of_letsIn (h : s.letsIn f src [(f.addr.toNat, f.spec.toNat, false)] v) :
    s.doGet f src = (v, .resp .ok false (v.rd f.dstSheet.toNat f.addr.toNat f.spec.toNat)) :=
  State.checkedAt_of_letsIn h _

/-- A put that no pool holds back (R168, R193). -/
theorem State.doPut_of_letsIn {bs : List Byte} (hdense : denseOf f = some bs) (hpool : s.poolHolds f bs.length = none)
    (h : s.letsIn f src [(f.addr.toNat, bs.length, true)] v) :
    let i := f.dstSheet.toNat
    let a := f.addr.toNat
    s.doPut f src = (((v.write i a bs).relayPut i a bs.length).collPut i a bs.length, .ack .ok) := by
  unfold State.doPut State.putAt
  dsimp only
  rw [hdense]
  dsimp only
  rw [hpool]
  exact State.checkedAt_of_letsIn h _

/-- A NOTIFY without data raises its word (R36). -/
theorem State.doNotify_of_word (hlen : f.payload.length ≤ 16) (hword : s.wordIn f.dstSheet.toNat (uAt f.payload 0 8 % 2 ^ 44) = true)
    (h : s.letsIn f src [(uAt f.payload 0 8 % 2 ^ 44, 8, true)] v) :
    let i := f.dstSheet.toNat
    let sem := uAt f.payload 0 8 % 2 ^ 44
    s.doNotify f src = ((v.writeN i sem 8 ((v.rdN i sem 8 + uAt f.payload 8 8) % 2 ^ 64)).wordRaised i sem 8, .ack .ok) := by
  have hdata : (f.payload.drop 16).isEmpty = true := by simpa using hlen
  unfold State.doNotify
  simp only [hdata, hword, if_true, List.nil_append, Bool.not_true, Bool.false_eq_true, if_false]
  exact State.checkedAt_of_letsIn h _

/-- A NOTIFY with data writes it, then raises its word (R36). -/
theorem State.doNotify_of_data (hlen : 16 < f.payload.length) (hword : s.wordIn f.dstSheet.toNat (uAt f.payload 0 8 % 2 ^ 44) = true)
    (h : s.letsIn f src [(f.addr.toNat, f.payload.length - 16, true), (uAt f.payload 0 8 % 2 ^ 44, 8, true)] v) :
    let i := f.dstSheet.toNat
    let a := f.addr.toNat
    let sem := uAt f.payload 0 8 % 2 ^ 44
    let w := v.write i a (f.payload.drop 16)
    s.doNotify f src = (((w.writeN i sem 8 ((w.rdN i sem 8 + uAt f.payload 8 8) % 2 ^ 64)).wordsWritten i a (f.payload.length - 16)).wordRaised i sem 8,
      .ack .ok) := by
  have hdata : (f.payload.drop 16).isEmpty = false := by simpa using hlen
  unfold State.doNotify
  simp only [hdata, hword, List.length_drop, List.cons_append, List.nil_append, Bool.not_true, Bool.false_eq_true, if_false]
  exact State.checkedAt_of_letsIn h _

/-- A contribution to a place of the HBM window reaches its hub, or waits for it (R298, R314). -/
theorem State.doRacc_of_hbm {x : Nat} (hloc : s.locate f.dstSheet.toNat f.addr.toNat = some (.hbm x))
    (hcoll : s.collAccess f.dstSheet.toNat f.addr.toNat f.job.toNat src f.agent.toNat false ≠ some false) :
    s.doRacc f src = if s.raccFull f then (s, .stall)
      else ((s.raccTake f src).1, if (s.raccTake f src).2 = .ok then .hub else .ack (s.raccTake f src).2) := by
  have hswitch : s.switchHolds f.dstSheet.toNat f.job.toNat f.addr.toNat = false := by rw [State.switchHolds, hloc]
  unfold State.doRacc
  dsimp only
  rw [hloc]
  dsimp only
  rw [if_neg hcoll, if_neg (by simp [hswitch])]

end

/-- Settles O12: the step by the answer of the effect, the effect of each operation by its own equation. -/
theorem remoteRequests : Obligations.RemoteRequests := by
  intro s f src v r i a z flag free open_ data old new sem hopen hdata
  have effect : ∀ {op : Nat} {o : Bool}, s.executes f op src o → r.effect f src = r.dataEffect f src op := fun he =>
    State.effect_of_executes he rfl hopen hdata
  refine ⟨fun he hf => ?_, fun he hf => ?_, fun he hf => ?_, fun he ⟨x, hloc⟩ hcoll => ⟨fun hroom => ?_, fun hfull => ?_⟩, fun he hget hf => ?_,
    fun he hget htree bs hdense hpool hf => ?_, fun he => ?_, fun he hlen hword hf => ?_, fun he hlen hword => ?_⟩
  · exact congrArg Host.Outcome.next (State.request_responds he ((effect he).trans (State.doLoad_of_letsIn hf)))
  · exact congrArg Host.Outcome.next (State.request_acknowledges he ((effect he).trans (State.doStore_of_letsIn hf)))
  · exact congrArg Host.Outcome.next (State.request_responds he ((effect he).trans (State.doAtomic_of_letsIn hf)))
  · have heff := (effect he).trans (State.doRacc_of_hbm hloc hcoll)
    rw [if_neg (by simp [hroom])] at heff
    show Host.Outcome.next (s.request f 4 true) = _
    by_cases hok : (r.raccTake f src).2 = .ok
    · rw [if_pos hok] at heff
      rw [State.request_hub he heff, if_pos hok]
    · rw [if_neg hok] at heff
      rw [State.request_acknowledges he heff, if_neg hok]
  · have heff := (effect he).trans (State.doRacc_of_hbm hloc hcoll)
    rw [if_pos hfull] at heff
    exact congrArg Host.Outcome.next (State.request_stalls he heff)
  · have heff := effect he
    rw [State.dataEffect, if_pos hget, State.doGet_of_letsIn hf] at heff
    show Host.Outcome.next (if isGet f then s.request f 5 false else s) = _
    rw [if_pos hget, State.request_responds he heff]
  · have heff := effect he
    rw [State.dataEffect, if_neg (by simp [hget]), if_neg htree, State.doPut_of_letsIn hdense hpool hf] at heff
    show Host.Outcome.next (if isGet f then s else s.request f 5 false) = _
    rw [if_neg (by simp [hget]), State.request_acknowledges he heff]
  · exact congrArg Host.Outcome.next (State.request_acknowledges he (effect he))
  · exact congrArg Host.Outcome.next (State.request_acknowledges he ((effect he).trans (State.doNotify_of_word hlen hword hf)))
  · intro n w hf
    exact congrArg Host.Outcome.next (State.request_acknowledges he ((effect he).trans (State.doNotify_of_data hlen hword hf)))

/-! Engine queues (R26, R27, R45). -/

section
variable {s : State} {f : Frame} {src k page o : Nat}

/-- A store to an engine queue's page does what the queue says. -/
theorem State.effect_of_queue (hopen : s.poolsOpenTo f) (hop : f.op.toNat = 2)
    (hloc : s.locate f.dstSheet.toNat f.addr.toNat = some (.queue k page o)) : s.effect f src = s.queueStore f k page o := by
  unfold State.poolsOpenTo at hopen
  unfold State.effect
  dsimp only
  rw [if_neg (by simp [hopen]), hloc, hop]
  rfl

/-- A descriptor of a core of the queue's own octant joins a queue with room; a full one keeps the frame. -/
theorem State.queueStore_of_good (hop : f.op.toNat = 2) (hown : s.foreign f = false) (hoct : f.agent.toNat / 32 = k)
    (hlen : f.payload.length = 64) (hal : o % 64 = 0) :
    let x := (s.physOct f.dstSheet.toNat k, page)
    let l := s.ep.queues.getD x []
    s.queueStore f k page o = if queueRoom page ≤ l.length then (s, .stall)
      else ({ s with ep := { s.ep with queues := s.ep.queues.put x (l ++
        [⟨f.dstSheet.toNat, f.agent.toNat, f.job.toNat, BitVec.ofNat 512 (leNat f.payload)⟩]) } }, .ack .ok) := by
  have hop' : f.op = 2 := BitVec.eq_of_toNat_eq hop
  unfold State.queueStore
  dsimp only
  rw [if_neg (by simp [hop', hown, hoct]), if_neg (by simp [hlen, hal])]

/-- A kept store whose queue has room again executes (R27). -/
theorem State.acceptKept_of_find {p : Frame → Bool} (hfind : s.ep.stalled.find? (fun g => p g && (s.effect g 0).2 != .stall) = some f)
    (hsrc : s.sourceOf f = some src) :
    s.acceptKept p = (((({ s with ep := { s.ep with stalled := s.ep.stalled.erase f } } : State).execFrame f src).1.drained f).after) := by
  have hsrc' : ({ s with ep := { s.ep with stalled := s.ep.stalled.erase f } } : State).sourceOf f = some src := hsrc
  unfold State.acceptKept
  rw [hfind]
  dsimp only
  rw [hsrc']

end

/-- Settles O13: the queue by its room, then the step by what the queue answers. -/
theorem engineQueues : Obligations.EngineQueues := by
  intro s f src k page o r i x l d
  refine ⟨fun he hopen hloc hown hcore hoct hlen hal => ?_, fun hfind hsrc => ?_⟩
  · have hop := State.op_of_executes he
    have heff : r.effect f src = _ := (State.effect_of_queue hopen hop hloc).trans (State.queueStore_of_good hop hown hoct hlen hal)
    refine ⟨fun hroom => ?_, fun hfull => ⟨_, rfl, ?_⟩⟩
    · rw [if_neg (Nat.not_le.2 hroom)] at heff
      exact congrArg Host.Outcome.next (State.request_acknowledges he heff)
    · rw [if_pos hfull] at heff
      exact State.request_stalls he heff
  · exact congrArg Host.Outcome.next (State.acceptKept_of_find hfind hsrc)

end Sys2Proof.Machine
end

section
/-! The source side of the remote memory endpoint: answers that name an entry of the replay buffer (R44 to R47), and the timers of its entries (R43, R48, R54,
R57). -/

namespace Sys2Proof.Machine

/-! Answers. -/

/-- An answer of a kind that its endpoint takes: of an admitted job (R542), with its tag good (R493). -/
structure State.TakesAnswer (s : State) (f : Frame) (kind : Nat) : Prop where
  kind : f.kind.toNat = kind
  admitted : s.admitted f.job.toNat = true
  tag : s.tagGood f = true

theorem State.answerIn_of_takes {s : State} {f : Frame} {kind : Nat} (h : s.TakesAnswer f kind) (g : State → State) :
    s.answerIn f kind g = (g s).after := by
  rw [State.answerIn, if_neg (by simp [h.kind]), if_neg (by simp [h.admitted]), if_neg (by simp [h.tag])]

/-- The status of a response; a code that names none counts as OK. -/
def respStatus (f : Frame) : Status := (Status.ofCode f.spec.toNat).getD .ok

/-- The status of an acknowledgement. -/
def ackStatus (f : Frame) : Status := (Status.ofCode (fld f.ext 15 0)).getD .ok

/-- The state once a response's block is kept by its gateway (R442) and the line of its fill installed (R61). -/
def State.filledBy (s : State) (e : ReplayEntry) (f : Frame) : State :=
  match s.opOf e.op with
  | some o => (s.keepBlock e (s.opOf e.op) f).installFill e o f
  | none => s.keepBlock e (s.opOf e.op) f

section
variable {s : State} {f : Frame} {e : ReplayEntry}

/-- A response ends the entry that it names: with its status, with its bytes, or, for a get, with the write of them. -/
theorem exec_responseFrame_of_find (h : s.TakesAnswer f 1)
    (hfind : s.ep.replay.find? (fun x => x.named f && x.seq % 2 ^ 32 == f.seq.toNat && x.wants) = some e) :
    exec (.responseFrame f) s = .next (State.after (if respStatus f ≠ .ok then s.resolve e (respStatus f) [] else match e.get with
      | some (i, a) =>
        let w := (s.filledBy e f).access i e.key.job (((s.filledBy e f).logicalOf e.key.job (s.filledBy e f).sw.devId i).getD 0)
          [(a, f.payload.length, true)]
        w.1.resolve e w.2 f.payload
      | none => (s.filledBy e f).resolve e .ok f.payload)) := by
  show execResponseFrame f s = _
  rw [execResponseFrame, State.answerIn_of_takes h]
  dsimp only
  rw [hfind]
  rfl

/-- A response to a LOAD or an ATOMIC. -/
theorem exec_responseFrame_of_load (h : s.TakesAnswer f 1)
    (hfind : s.ep.replay.find? (fun x => x.named f && x.seq % 2 ^ 32 == f.seq.toNat && x.wants) = some e) (hget : e.get = none) :
    exec (.responseFrame f) s =
      .next (if respStatus f = .ok then (s.filledBy e f).resolve e .ok f.payload else s.resolve e (respStatus f) []).after := by
  rw [exec_responseFrame_of_find h hfind, hget]
  by_cases hok : respStatus f = .ok
  · rw [if_neg (by simp [hok]), if_pos hok]
  · rw [if_pos hok, if_neg hok]

/-- A good response to a get: its bytes are written as its own device may write them (R68, R294). -/
theorem exec_responseFrame_of_get {i a : Nat} (h : s.TakesAnswer f 1)
    (hfind : s.ep.replay.find? (fun x => x.named f && x.seq % 2 ^ 32 == f.seq.toNat && x.wants) = some e) (hget : e.get = some (i, a))
    (hok : respStatus f = .ok) :
    let v := s.filledBy e f
    let w := v.access i e.key.job ((v.logicalOf e.key.job v.sw.devId i).getD 0) [(a, f.payload.length, true)]
    exec (.responseFrame f) s = .next (w.1.resolve e w.2 f.payload).after := by
  rw [exec_responseFrame_of_find h hfind, hget, if_neg (by simp [hok])]

/-- An acknowledgement ends every entry of the numbers that it covers, but for one that it says is OK and that waits for data. -/
theorem exec_acknowledgement_of_takes (h : s.TakesAnswer f 2) :
    exec (.acknowledgement f) s = .next ((s.ep.replay.filter fun x => x.named f &&
      decide ((f.seq.toNat + 2 ^ 32 - x.seq % 2 ^ 32) % 2 ^ 32 ≤ f.spec.toNat) && !(x.wants && ackStatus f == .ok)).foldl
        (fun s x => s.resolve x (ackStatus f) []) s).after :=
  congrArg Host.Outcome.next (State.answerIn_of_takes h _)

/-- An entry of the replay buffer changed. -/
def State.setEntry (s : State) (e e' : ReplayEntry) : State :=
  { s with ep := { s.ep with replay := s.ep.replay.map fun x => if x = e then e' else x } }

/-- A refused frame waits for its backoff from now on (R45). -/
theorem exec_nack_of_find (h : s.TakesAnswer f 3) (hcode : f.spec.toNat ≠ Status.notParent.code)
    (hfind : s.ep.replay.find? (fun x => x.named f && x.seq % 2 ^ 32 == f.seq.toNat) = some e) :
    exec (.nack f) s = .next (s.setEntry e { e with nack := some s.datum, backoff := true }).after := by
  show execNack f s = _
  rw [execNack, State.answerIn_of_takes h]
  dsimp only
  rw [if_neg hcode, hfind]
  rfl

end

/-! Timers. -/

section
variable {s : State} {e : ReplayEntry} {i : Fin 8} {a : Fin 512} {j : BitVec 16} {d : BitVec 20} {n : Nat}

theorem State.elapsed_of_le {t k : Nat} (h : t + k ≤ s.datum) : s.elapsed t k = true := decide_eq_true h

variable (he : s.entry? ⟨i, a, j.toNat, d.toNat⟩ n = some e)
include he

/-- A frame not acknowledged within the interval of its last send goes again (R48). -/
theorem exec_replayIntervalExpiry_of_entry (hback : e.backoff = false)
    (hdue : e.last + usTicks (max 1 (s.get F.RMO_CTL_replay_interval)) ≤ s.datum) (hwin : s.inWindow e.frame = false) :
    exec (.replayIntervalExpiry i a j d n) s = .next (s.resend e) := by
  have hpast : s.elapsed e.last s.replayTicks = true := State.elapsed_of_le hdue
  show execReplayIntervalExpiry i a j d n s = _
  rw [execReplayIntervalExpiry, he]
  dsimp only
  rw [if_pos (by simp [hback, hwin, hpast])]

/-- A refused frame whose backoff has passed goes again (R48). -/
theorem exec_retryBackoffExpiry_of_entry (hback : e.backoff = true)
    (hdue : e.nack.getD 0 + usTicks (max 1 (s.get F.RMO_CTL_retry_backoff)) ≤ s.datum) :
    exec (.retryBackoffExpiry i a j d n) s = .next (s.resend e) := by
  show execRetryBackoffExpiry i a j d n s = _
  rw [execRetryBackoffExpiry, he]
  dsimp only
  rw [if_pos (by simp [hback, State.elapsed_of_le hdue])]

/-- A frame of no tree that is older than op_timeout fails (R54). -/
theorem exec_opTimeout_of_entry (hdue : e.first + usTicks (max 100 (s.get F.RMO_TIMEOUT_op_timeout)) ≤ s.datum) (htree : s.treeEntry e = false) :
    exec (.opTimeout i a j d n) s = .next (s.timeOut e).after := by
  have hpast : s.elapsed e.first s.opTimeout = true := State.elapsed_of_le hdue
  show execOpTimeout i a j d n s = _
  rw [execOpTimeout, he]
  dsimp only
  rw [if_pos (by simp [htree, hpast])]

end

/-- An agent's stalled operations go on as far as their streams have room, and a core's stalled instruction after them (R43). -/
theorem exec_stalledIssueResume (s : State) (i : Fin 8) (a : Fin 512) :
    let u := (s.ep.ops.filter fun o => o.key.sheet == i.val && o.key.agent == a.val && !o.todo.isEmpty).foldl (fun s o => s.pump o.id) s
    exec (.stalledIssueResume i a) s = .next (if a.val < 256 then u.settle.resumeIssue (u.homeCore i a) else u).after := rfl

/-- Settles O14: each answer and each timer by its own equation. -/
theorem remoteAnswersAndTimers : Obligations.RemoteAnswersAndTimers := by
  intro s f e i a j d n good names code st kept filled at_ retried sent t again
  have takes : ∀ {k : Nat}, good k → s.TakesAnswer f k := fun ⟨hkind, hadm, htag⟩ => ⟨hkind, hadm, htag⟩
  refine ⟨fun hg hfind hget => exec_responseFrame_of_load (takes hg) hfind hget,
    fun p hg hfind hget hok => exec_responseFrame_of_get (takes hg) hfind hget hok, fun hg => exec_acknowledgement_of_takes (takes hg),
    fun hg hcode hfind => exec_nack_of_find (takes hg) hcode hfind, fun he hback hdue hwin => exec_replayIntervalExpiry_of_entry he hback hdue hwin,
    fun he hback hdue => exec_retryBackoffExpiry_of_entry he hback hdue, fun he hdue htree => exec_opTimeout_of_entry he hdue htree,
    exec_stalledIssueResume s i a⟩

end Sys2Proof.Machine
end

section
/-! The routing halves (R71 to R77): the checks of the four write commands, TABLE_COMMIT, and the two steps in which a half drains and is copied. -/

namespace Sys2Proof.Machine

/-! Lists of checks. -/

theorem pass_append {α : Type} (l m : List (Bool × α)) : pass (l ++ m) ↔ pass l ∧ pass m := List.forall_mem_append

/-- A command with n entries of e bytes, of a good count and length. -/
theorem pass_entryChecks {p : List Byte} {o bound e : Nat} (hlow : 1 ≤ uAt p o 4) (hhigh : uAt p o 4 ≤ bound) (hlen : p.length = 16 + e * uAt p o 4) :
    pass (entryChecks p o bound e) := by
  have hhead : 16 ≤ p.length := hlen ▸ Nat.le_add_right _ _
  simpa [entryChecks, pass_nil, hhead, hlow, hhigh] using hlen

theorem pass_eachEntry {n e : Nat} {ok : Nat → Bool} : pass (eachEntry n e ok) ↔ ∀ j < n, ok (16 + e * j) = true := by
  simp [pass, eachEntry]

/-! The table writes (R71, R76). -/

theorem State.halfWrite_of_busy {s : State} {i : Nat} {f : Half → Half} (hw : (s.routingOf i).writable = none) :
    s.halfWrite i f = (s, .st .tableBusy) := by
  unfold State.halfWrite
  dsimp only
  rw [hw]

theorem State.halfWrite_of_writable {s : State} {i : Nat} {f : Half → Half} {b : Bool} (hw : (s.routingOf i).writable = some b) :
    s.halfWrite i f = (s.setRouting i ((s.routingOf i).setHalf b (f ((s.routingOf i).half b))), .ok) := by
  unfold State.halfWrite
  dsimp only
  rw [hw]

section
variable {s : State} {o : Owed} {h : CmdHdr} {q : List Byte}

theorem bodyLayerSet_of_good (hsheet : h.sheetValid = true) (hlen : q.length = 136) (hrec : pass (layerChecks q))
    (hseg : (layerRec (q.drop 8)).mode = 255 ∨ (layerRec (q.drop 8)).segment + 2 ^ (layerRec (q.drop 8)).sizeLog2 ≤ (s.sheet h.sheet.toNat).gazEntries) :
    bodyLayerSet s o h q = s.halfWrite h.sheet.toNat fun x => { x with layers := x.layers.put (uAt q 0 1) (q.drop 8) } := by
  unfold bodyLayerSet
  dsimp only
  rw [(firstFail_none _).2]
  simp only [pass_append, pass_cons, lenIs, needSheet]
  exact ⟨⟨⟨by simp [hlen], hsheet, pass_nil⟩, hrec⟩, by simpa using hseg, pass_nil⟩

theorem bodyGazetteerWrite_of_good (hsheet : h.sheetValid = true) (hlow : 1 ≤ uAt q 4 4) (hhigh : uAt q 4 4 ≤ 510)
    (hlen : q.length = 16 + 8 * uAt q 4 4) (hzero : uAt q 8 8 = 0) (heach : ∀ j < uAt q 4 4, bitsOf (uAt q (16 + 8 * j) 8) 62 20 = 0)
    (hroom : uAt q 0 4 + uAt q 4 4 ≤ (s.sheet h.sheet.toNat).gazEntries) :
    bodyGazetteerWrite s o h q = s.halfWrite h.sheet.toNat fun x =>
      { x with gaz := (List.range (uAt q 4 4)).foldl (fun l j => l.put (uAt q 0 4 + j) (BitVec.ofNat 64 (uAt q (16 + 8 * j) 8))) x.gaz } := by
  unfold bodyGazetteerWrite
  dsimp only
  rw [(firstFail_none _).2]
  simp only [pass_append, pass_cons, pass_eachEntry, needSheet, Nat.min_eq_left hhigh]
  exact ⟨⟨⟨⟨⟨hsheet, pass_nil⟩, pass_entryChecks hlow hhigh hlen⟩, by simp [zeros, hzero], pass_nil⟩, fun j hj => by simp [heach j hj]⟩,
    decide_eq_true hroom, pass_nil⟩

/-- An entry of a CSET_WRITE that it accepts (R82): of the member table, or of the candidate sets. -/
def csetEntryGood (q : List Byte) (mem : Bool) (o : Nat) : Prop :=
  if mem then uAt q o 4 < 2 ^ 20 else uAt q o 8 < 2 ^ 33 ∧ 1 ≤ bitsOf (uAt q o 8) 32 24 ∧ bitsOf (uAt q o 8) 32 24 ≤ 256

theorem bodyCsetWrite_of_good {mem : Bool} (hmem : (uAt q 0 1 == 1) = mem) (hsheet : h.sheetValid = true) (htab : uAt q 0 1 ≤ 1) (hzero : uAt q 1 3 = 0)
    (hlow : 1 ≤ uAt q 8 4) (hhigh : uAt q 8 4 ≤ if mem then 1020 else 510) (hlen : q.length = 16 + (if mem then 4 else 8) * uAt q 8 4)
    (hzero' : uAt q 12 4 = 0) (heach : ∀ j < uAt q 8 4, csetEntryGood q mem (16 + (if mem then 4 else 8) * j))
    (hroom : uAt q 4 4 + uAt q 8 4 ≤ if mem then 16777216 else 1048576) :
    bodyCsetWrite s o h q = s.halfWrite h.sheet.toNat fun x =>
      if mem then { x with member := (List.range (uAt q 8 4)).foldl (fun l j => l.put (uAt q 4 4 + j) (uAt q (16 + 4 * j) 4)) x.member }
      else { x with cset := (List.range (uAt q 8 4)).foldl (fun l j => l.put (uAt q 4 4 + j) (BitVec.ofNat 64 (uAt q (16 + 8 * j) 8))) x.cset } := by
  have hcount : uAt q 8 4 ≤ 1020 := Nat.le_trans hhigh (by split <;> decide)
  unfold bodyCsetWrite
  dsimp only
  rw [hmem, (firstFail_none _).2]
  simp only [pass_append, pass_cons, pass_eachEntry, needSheet, Nat.min_eq_left hcount]
  refine ⟨⟨⟨⟨⟨hsheet, decide_eq_true htab, by simp [zeros, hzero], pass_nil⟩, pass_entryChecks hlow hhigh hlen⟩, by simp [zeros, hzero'], pass_nil⟩,
    fun j hj => ?_⟩, decide_eq_true hroom, pass_nil⟩
  have hgood := heach j hj
  cases mem
  · simpa [csetEntryGood, Nat.div_eq_zero_iff] using hgood
  · simpa [csetEntryGood, Nat.div_eq_zero_iff] using hgood

theorem bodyExpertDirWrite_of_good (hsheet : h.sheetValid = true) (hlow : 1 ≤ uAt q 4 4) (hhigh : uAt q 4 4 ≤ 63)
    (hlen : q.length = 16 + 64 * uAt q 4 4) (hzero : uAt q 8 8 = 0)
    (heach : ∀ j < uAt q 4 4, uAt q (16 + 64 * j) 1 ≤ 8 ∧ uAt q (16 + 64 * j + 1) 7 = 0 ∧ uAt q (16 + 64 * j + 40) 24 = 0)
    (hroom : uAt q 0 4 + uAt q 4 4 ≤ 1048576) :
    bodyExpertDirWrite s o h q = s.halfWrite h.sheet.toNat fun x =>
      { x with dir := (List.range (uAt q 4 4)).foldl (fun l j => l.put (uAt q 0 4 + j) (bytesAt q (16 + 64 * j) 64)) x.dir } := by
  unfold bodyExpertDirWrite
  dsimp only
  rw [(firstFail_none _).2]
  simp only [pass_append, pass_cons, pass_eachEntry, needSheet, Nat.min_eq_left hhigh]
  exact ⟨⟨⟨⟨⟨hsheet, pass_nil⟩, pass_entryChecks hlow hhigh hlen⟩, by simp [zeros, hzero], pass_nil⟩, fun j hj => by simp [zeros, heach j hj]⟩,
    decide_eq_true hroom, pass_nil⟩

/-! TABLE_COMMIT of the routing table (R74, R77). -/

theorem bodyTableCommit_of_routing (hsheet : h.sheetValid = true) (hlen : q.length = 8) (htab : uAt q 0 1 = 0) (hflags : uAt q 1 1 = 0)
    (hzero : uAt q 2 2 = 0) : bodyTableCommit s o h q = s.commitRouting h.sheet.toNat (uAt q 4 4) := by
  unfold bodyTableCommit State.tableCommit
  dsimp only
  rw [(firstFail_none _).2 (by simp [pass_nil, lenIs, zeros, hsheet, hlen, htab, hflags, hzero])]
  exact if_pos htab

end

/-- Whether the steps have passed a target: a step of it or of a later one has been accepted (R74). -/
def Routing.passed (r : Routing) (target : Nat) : Bool :=
  match r.seen with
  | some k => decide (target ≤ k)
  | none => false

/-- A half PENDING for its target, behind every commit before it (R72, R74). -/
def Routing.committed (r : Routing) (b : Bool) (target : Nat) : Routing :=
  { r.setHalf b { r.half b with st := .pending, target := target, valid := true, order := r.commits + 1 } with commits := r.commits + 1 }

section
variable {s : State} {i target : Nat} {b : Bool}

theorem State.commitRouting_of_busy (hw : (s.routingOf i).writable = none) : s.commitRouting i target = (s, .st .tableBusy) := by
  simp [State.commitRouting, Routing.commit, hw]

theorem State.commitRouting_of_writable (hw : (s.routingOf i).writable = some b) :
    s.commitRouting i target = if (s.routingOf i).passed target then (s, .st .stepPassed)
      else (s.setRouting i ((s.routingOf i).committed b target), .ok) := by
  unfold State.commitRouting Routing.commit
  rw [hw]
  change (match (if (s.routingOf i).passed target then _ else _ : Except Status Routing) with
    | .error st => (s, Ans.st st)
    | .ok r => (s.setRouting i r, .ok)) = _
  cases (s.routingOf i).passed target <;> rfl

/-! Draining and copying (Table 3.2). -/

variable {k : Fin 8}

/-- The draining half, where it is the only one, becomes SYNCING once no work lies below the other's target; the steps below that are retired. -/
theorem exec_drainingComplete_of_idle (hst : ((s.routingOf k).half b).st = .draining) (hother : ((s.routingOf k).half (!b)).st ≠ .draining)
    (hidle : s.workBelow k ((s.routingOf k).half (!b)).target = false) :
    exec (.drainingComplete k) s = .next (s.setRouting k { (s.routingOf k).setHalf b { (s.routingOf k).half b with st := .syncing, valid := false } with
      retired := ((s.routingOf k).half (!b)).target }) := by
  show execDrainingComplete k s = _
  unfold execDrainingComplete
  cases b
  · simp only [Bool.not_false] at hidle ⊢
    simp [hst, hidle]
  · simp only [Bool.not_true] at hidle hother ⊢
    simp [hst, hidle, hother]

/-- The half that is copied becomes a SPARE copy of the other, without a target (log 84). -/
theorem exec_syncingComplete_of_syncing (hst : ((s.routingOf k).half b).st = .syncing) (hother : ((s.routingOf k).half (!b)).st ≠ .syncing) :
    exec (.syncingComplete k) s = .next (s.setRouting k ((s.routingOf k).setHalf b
      { (s.routingOf k).half (!b) with st := .spare, valid := false, target := 0, order := 0 })) := by
  show execSyncingComplete k s = _
  unfold execSyncingComplete
  cases b
  · exact congrArg Host.Outcome.next (if_pos hst)
  · exact congrArg Host.Outcome.next ((if_neg hother).trans (if_pos hst))

end

theorem exec_layerSet (h : CmdHdr) (p : List Byte) (s : State) : exec (.layerSet h p) s = .next (s.command 0x0700 h p bodyLayerSet) := rfl
theorem exec_gazetteerWrite (h : CmdHdr) (p : List Byte) (s : State) :
    exec (.gazetteerWrite h p) s = .next (s.command 0x0701 h p bodyGazetteerWrite) := rfl
theorem exec_csetWrite (h : CmdHdr) (p : List Byte) (s : State) : exec (.csetWrite h p) s = .next (s.command 0x0702 h p bodyCsetWrite) := rfl
theorem exec_expertDirWrite (h : CmdHdr) (p : List Byte) (s : State) :
    exec (.expertDirWrite h p) s = .next (s.command 0x0703 h p bodyExpertDirWrite) := rfl
theorem exec_tableCommit (h : CmdHdr) (p : List Byte) (s : State) : exec (.tableCommit h p) s = .next (s.command 0x0704 h p bodyTableCommit) := rfl

/-- Settles O16: each command by its checks and by which half it may write; draining and copying by the state of the two halves. -/
theorem routingTables : Obligations.RoutingTables := by
  intro s h p t q i r w n z rc mem m e
  -- what `w` says is the answer of the half's write
  have writes : ∀ op g, w op g = .next ((t.halfWrite i g).1.answer (hdrOwed h op) (t.halfWrite i g).2) := fun op g => by
    dsimp only [w]
    cases hw : r.writable with
    | none => rw [State.halfWrite_of_busy hw]
    | some b => rw [State.halfWrite_of_writable hw]
  refine ⟨fun ht hs hlen hrec hseg => ?_, fun ht hs hlow hhigh hlen hz heach hroom => ?_,
    fun ht hs htab hz hlow hhigh hlen hz' heach hroom => ?_, fun ht hs hlow hhigh hlen hz heach hroom => ?_,
    fun ht hlen htab hflags hz hs => ?_, fun k b => ⟨exec_drainingComplete_of_idle, exec_syncingComplete_of_syncing⟩⟩
  · rw [exec_layerSet, State.command_of_takes ht, bodyLayerSet_of_good hs hlen hrec hseg]
    exact (writes _ _).symm
  · rw [exec_gazetteerWrite, State.command_of_takes ht, bodyGazetteerWrite_of_good hs hlow hhigh hlen hz heach hroom]
    exact (writes _ _).symm
  · rw [exec_csetWrite, State.command_of_takes ht, bodyCsetWrite_of_good rfl hs htab hz hlow hhigh hlen hz' heach hroom]
    exact (writes _ _).symm
  · rw [exec_expertDirWrite, State.command_of_takes ht, bodyExpertDirWrite_of_good hs hlow hhigh hlen hz heach hroom]
    exact (writes _ _).symm
  · intro late
    rw [exec_tableCommit, State.command_of_takes ht, bodyTableCommit_of_routing hs hlen htab hflags hz]
    cases hw : r.writable with
    | none => rw [State.commitRouting_of_busy hw]
    | some b =>
      rw [State.commitRouting_of_writable hw]
      change _ = Host.Outcome.next (if r.passed n then _ else _)
      cases r.passed n <;> rfl

end Sys2Proof.Machine
end

section
/-! The Survey unit (R73, R86 to R89, R95): the head of its queue judged in R87's order and accepted, the list written, and the registers of its caches. -/

namespace Sys2Proof.Machine

/-! Submissions (R87). -/

/-- The checks of a submission, in R87's order. -/
def State.surveyChecks (s : State) (q : QDesc) : List (Bool × Status) :=
  let d := q.desc
  let r := s.routingOf q.sheet
  [(svyFormatOk d (r.layerAt (dAt d 8 4) (dAt d 1 1)), .descFormat), (!s.halted q.sheet, .trainingHalted),
    ((r.select (dAt d 8 4)).isSome, .stepRetired), ((r.layerAt (dAt d 8 4) (dAt d 1 1)).isSome, .layerInvalid),
    (s.epochOpen q.sheet (dAt d 2 2 % 2 ^ 12) (dAt d 8 4), .epochInvalid)]

/-- A submission that ends with a status. -/
def State.surveyEnds (s : State) (o : Nat) (q : QDesc) (st : Status) : State :=
  s.svyDone o q.sheet (dAt q.desc 1 1) (dAt q.desc 48 8) (dAt q.desc 56 4) st

/-- The step boundary that a submission of a step beyond every accepted one is (R278). -/
def State.surveyBoundary (s : State) (q : QDesc) : State :=
  if (match (s.routingOf q.sheet).seen with
    | some n => decide (n < dAt q.desc 8 4)
    | none => true) then s.hchBoundary q.sheet (dAt q.desc 8 4) else s

/-- A submission accepted, and its tokens scored (R88 to R95). -/
def State.surveyScored (s : State) (o : Nat) (q : QDesc) (x : LayerRec) : State :=
  let y := s.svyAccept o q.sheet (dAt q.desc 1 1) (dAt q.desc 8 4)
  let r := y.routingOf q.sheet
  let b := (r.select (dAt q.desc 8 4)).getD false
  y.svyScore ⟨o, q.sheet, q.job, y.ownNum q.sheet q.job, dAt q.desc 1 1, x, b, r.half b⟩ q.desc

/-- A layer in use of a step is in the half that serves the step. -/
theorem Routing.select_isSome_of_layerAt {r : Routing} {step layer : Nat} (h : (r.layerAt step layer).isSome = true) : (r.select step).isSome = true :=
  Option.isSome_of_isSome_bind h

section
variable {s : State} {o : Nat} {q : QDesc}

/-- An idle unit takes the head of its queue and judges it; with every check passed the step boundary may still halt the sheet. -/
theorem State.surveyTake_of_headOf (hq : s.headOf o 0 q) (hidle : s.surveys.find o = none) :
    s.surveyTake o = match firstFail ((s.popEngine o 0).surveyChecks q), (s.routingOf q.sheet).select (dAt q.desc 8 4),
        (s.routingOf q.sheet).layerAt (dAt q.desc 8 4) (dAt q.desc 1 1) with
      | none, some _, some x =>
        let v := (s.popEngine o 0).surveyBoundary q
        if v.halted q.sheet then v.surveyEnds o q .trainingHalted else v.surveyScored o q x
      | some st, _, _ => (s.popEngine o 0).surveyEnds o q st
      | none, _, _ => (s.popEngine o 0).surveyEnds o q .stepRetired := by
  unfold State.headOf at hq
  unfold State.surveyTake
  cases hl : s.ep.queues.getD (o, 0) [] with
  | nil => rw [hl] at hq; cases hq
  | cons q' l =>
    rw [hl] at hq
    cases hq
    rw [hidle]
    rfl

/-- A submission that fails a check ends with the status of the first. -/
theorem State.surveyTake_of_fails {st : Status} (hq : s.headOf o 0 q) (hidle : s.surveys.find o = none)
    (hfail : firstFail ((s.popEngine o 0).surveyChecks q) = some st) : s.surveyTake o = (s.popEngine o 0).surveyEnds o q st := by
  rw [State.surveyTake_of_headOf hq hidle, hfail]

/-- A submission that passes every check. -/
theorem State.surveyTake_of_passes {x : LayerRec} (hq : s.headOf o 0 q) (hidle : s.surveys.find o = none)
    (hx : (s.routingOf q.sheet).layerAt (dAt q.desc 8 4) (dAt q.desc 1 1) = some x) (hpass : pass ((s.popEngine o 0).surveyChecks q)) :
    let v := (s.popEngine o 0).surveyBoundary q
    s.surveyTake o = if v.halted q.sheet then v.surveyEnds o q .trainingHalted else v.surveyScored o q x := by
  obtain ⟨b, hb⟩ := Option.isSome_iff_exists.1 (Routing.select_isSome_of_layerAt (Option.isSome_of_eq_some hx))
  rw [State.surveyTake_of_headOf hq hidle, (firstFail_none _).2 hpass, hb, hx]

end

/-- A scored submission is the unit's run: what its descriptor names. -/
theorem State.surveys_svyScore (s : State) (e : SvyEnv) (d : BitVec 512) :
    ∃ run, (s.svyScore e d).surveys.find e.o = some run ∧ run.sheet = e.i ∧ run.layer = e.layer ∧ run.step = dAt d 8 4 ∧
      run.done = dAt d 48 8 ∧ run.tag = dAt d 56 4 :=
  ⟨_, Tbl.find_put_same _ _ _, rfl, rfl, rfl, rfl, rfl⟩

/-! The unit's step equations. -/

theorem exec_surveySubmission (o : Fin 8) (s : State) : exec (.surveySubmission o) s = .next (s.surveyTake o) := rfl
theorem exec_svyCtlFlushGvc (o : Fin 8) (s : State) : exec (.svyCtlFlushGvc o) s = .next (s.setSvy o { s.svyOf o with gvc := [] }) := rfl
theorem exec_gazCtlFlush (o : Fin 8) (s : State) : exec (.gazCtlFlush o) s = .next (s.setSvy o { s.svyOf o with gaz := [] }) := rfl
theorem exec_svyFaultInfo (o : Fin 8) (w : Word) (s : State) : exec (.svyFaultInfo o w) s = .next (s.rearm ⟨.SVY_FAULT_INFO, o, 0⟩ w) := rfl

/-- The state once a run's list is written and its tokens and assignments are counted (R88, R89). -/
def State.surveyListed (s : State) (o : Nat) (x : SurveyRun) : State :=
  ((({ s with surveys := s.surveys.del o } : State).write x.sheet x.out x.bytes).bump F.SVY_TOKEN_CNT_tokens o 0 x.tokens).bump
    F.SVY_ASSIGN_CNT_assignments o 0 (if x.status = Status.ok then x.assigns else 0)

theorem exec_surveyComplete_of_run {s : State} {o : Fin 8} {x : SurveyRun} (hx : s.surveys.find o.val = some x) :
    exec (.surveyComplete o) s = .next ((s.surveyListed o x).svyDone o x.sheet x.layer x.done x.tag x.status) := by
  show execSurveyComplete o s = _
  unfold execSurveyComplete
  rw [hx]
  rfl

/-- Settles O17: a submission by the first check that it fails, or by what the step boundary leaves; the rest by the unit's own equations. -/
theorem survey : Obligations.Survey := by
  intro s o q w d i r step layer epoch u ended good
  refine ⟨fun hq hidle => ?_, fun x hx => exec_surveyComplete_of_run hx, exec_svyCtlFlushGvc o s, exec_gazCtlFlush o s, fun hw => ?_⟩
  · have ends : ∀ {st : Status}, firstFail (u.surveyChecks q) = some st → ended st := fun hfail => by
      show exec (.surveySubmission o) s = _
      rw [exec_surveySubmission, State.surveyTake_of_fails hq hidle hfail]
      rfl
    have hchecks : u.surveyChecks q = [(svyFormatOk d (r.layerAt step layer), .descFormat), (!u.halted i, .trainingHalted),
      ((r.select step).isSome, .stepRetired), ((r.layerAt step layer).isSome, .layerInvalid), (u.epochOpen i epoch step, .epochInvalid)] := rfl
    rw [hchecks] at ends
    have fmt : good → svyFormatOk d (r.layerAt step layer) = true := id
    refine ⟨fun hbad => ends ?_, fun hgood hhalt => ends ?_, fun hgood hrun hsel => ends ?_, fun hgood hrun hsel hlay => ends ?_,
      fun hgood hrun hlay hep => ends ?_, fun x hgood hrun hx hep => ?_⟩
    · simp [firstFail, Bool.eq_false_iff.2 hbad]
    · simp [firstFail, fmt hgood, hhalt]
    · simp [firstFail, fmt hgood, hrun, hsel]
    · simp [firstFail, show svyFormatOk d none = true from hlay ▸ hgood, hrun, hsel, hlay]
    · simp [firstFail, fmt hgood, hrun, Routing.select_isSome_of_layerAt hlay, hlay, hep]
    · have hlay : (r.layerAt step layer).isSome = true := Option.isSome_of_eq_some hx
      have hpass : pass (u.surveyChecks q) := by
        rw [hchecks]
        simp [pass_nil, fmt hgood, hrun, Routing.select_isSome_of_layerAt hlay, hlay, hep]
      intro v y b hv
      refine ⟨?_, State.surveys_svyScore _ _ _⟩
      rw [exec_surveySubmission, State.surveyTake_of_passes hq hidle hx hpass]
      exact congrArg Host.Outcome.next (if_neg (Bool.eq_false_iff.1 hv))
  · rw [exec_svyFaultInfo, s.rearm_of_valid _ hw]

end Sys2Proof.Machine
end

section
/-! Engine records (Tables 3.7 and 4.7): each kind's effect, behind what every frame meets on arrival. -/

namespace Sys2Proof.Machine

/-- A record of its own kind: taken in, it has the effect of its kind and is acknowledged; otherwise it has none of it. -/
theorem State.record_of_kind {s : State} {f : Frame} {kind : Nat} (hf : f.kind = 4) (hk : (recHdr f.payload).kind = kind)
    (g : State → Nat → RecHdr → State) :
    s.record f kind g = match (s.takeIn f).2 with
      | some src => (g (s.takeIn f).1 src (recHdr f.payload)).acknowledges f .ok
      | none => ((s.takeIn f).1.drained f).after := by
  unfold State.record State.onArrival
  rw [if_pos ⟨hf, hk⟩]
  obtain ⟨r, taken⟩ := s.takeIn f
  cases taken <;> rfl

/-- Settles O19: each row is `State.record` with the effect of its kind, so `State.record_of_kind` says what becomes of it. -/
theorem engineRecords : Obligations.EngineRecords := by
  intro s f hf r i h did
  have rows : ∀ {kind : Nat} (g : State → Nat → RecHdr → State), h.kind = kind → .next (s.record f kind g) = did fun src => g r src h :=
    fun g hk => congrArg Host.Outcome.next (State.record_of_kind hf hk g)
  exact ⟨rows fun s _ _ => s.censusFrame f, rows fun s _ h => s.grantRecord i h f, rows fun s _ h => s.landingRecord i h f,
    rows fun s src h => (s.relayCancel i f.job.toNat src h f.payload).cancelRecord i h, rows fun s _ h => s.skipRecord f h,
    rows fun s _ _ => s.manifestFrame f⟩

end Sys2Proof.Machine
end

section
/-! The timers of the exchange: rounds (R102, R104, R350), grants (R108), reservations (R104, R135, R149), held censuses (R130), parts (R135, R142), epochs
(R116) and relays (R151). -/

namespace Sys2Proof.Machine

theorem dedup_eq_nil {α : Type} [DecidableEq α] {l : List α} : dedup l = [] ↔ l = [] := by
  cases l <;> simp [dedup]

/-- The errors that a timeout reports, one for each source or destination that it names. -/
def State.timeoutErrors (s : State) (i job unit : Nat) (l : List Nat) : State :=
  l.foldl (fun s p => s.jobError job { code := .timeout, sheet := some i, status := some .timeout, unit := unit, params := [p] }) s

/-! Rounds. -/

section
variable {s : State} {i : Fin 8} {id : Nat} {r : Recv} {l : LayerRec} {w k : Nat}

theorem exec_grantCompute_of_ready (hround : s.strictRound i id = some (r, l, w, k)) (hready : s.roundReady r l w k = true) :
    exec (.grantCompute i id) s = .next (s.computeRound r l w k).exchOps := by
  show execGrantCompute i id s = _
  simp only [execGrantCompute, hround, hready, if_true]

/-- The participants of a layer that a round goes without: no complete census of theirs has come, and they have not cancelled. -/
def State.missingFrom (s : State) (i : Nat) (r : Recv) (l : LayerRec) (w k : Nat) : List Nat :=
  (s.plist i l).filter fun p => !((r.present w k).map (·.src)).contains p && !r.gone.contains p

/-- A round that still waits when the census timeout has passed since its first census. -/
theorem exec_censusTimeout_of_due {t : Nat} (hround : s.strictRound i id = some (r, l, w, k)) (hwait : s.roundReady r l w k = false)
    (hfirst : minOf ((r.censuses.filter fun c => c.wave == w && c.round == k).map CensusRec.first) = some t)
    (hdue : t + s.censusTimeout r.oct ≤ s.datum) :
    exec (.censusTimeout i id) s =
      .next ((s.timeoutErrors i r.job r.oct (s.missingFrom i r l w k)).computeRound r l w k).exchOps := by
  show execCensusTimeout i id s = _
  simp only [execCensusTimeout, hround, hfirst]
  exact congrArg Host.Outcome.next (if_pos (by simp [State.elapsed_of_le hdue, hwait]))

end

/-! Grants. -/

/-- A destination whose grant does not come within the wave timeout refuses every record asked of it. -/
theorem exec_grantTimeout_of_due {s : State} {i : Fin 8} {id dest : Nat} {b : Batch} {w : Await} {l : LayerRec} (hb : s.batch? i id = some b)
    (hw : b.awaiting.find? (fun w => w.dest == dest) = some w) (hl : s.batchRec b = some l) (hdue : w.since + s.waveTimeout b.oct ≤ s.datum)
    (hended : b.ended = false) (hcancel : b.cancel = false) :
    let r := (s.timeoutErrors i b.job b.oct [dest]).refused { b with awaiting := b.awaiting.filter fun x => x.dest != dest } l (w.asked.flatMap (·.2))
    exec (.grantTimeout i id dest) s = .next (r.1.afterAnswer r.2).exchOps := by
  show execGrantTimeout i id dest s = _
  simp only [execGrantTimeout, hb, hw, hl]
  exact congrArg Host.Outcome.next (if_pos (by simp [State.elapsed_of_le hdue, hended, hcancel]))

/-! Reservations. -/

section
variable {s : State} {p : Fin 64} {id : Nat} {q : PoolReq} (hq : (s.pool p).waitReq.find? (fun r => r.id == id) = some q)
include hq

/-- A combine extent that a part waits for. -/
theorem exec_reservationTimeout_of_part {cid : Nat} {b : Batch} {x : Part} (hsrc : q.src = .combine cid)
    (hx : s.part? (s.pool p).sheet cid = some (b, x)) (hdue : x.since + s.waveTimeout (b.partOct x) ≤ s.datum) :
    exec (.reservationTimeout p id) s =
      .next ((s.dropWaiting p fun y => y.id == id).exhausted (s.pool p).sheet b.job (b.partOct x)) := by
  show execReservationTimeout p id s = _
  simp only [execReservationTimeout, hq, hsrc, hx, State.elapsed_of_le hdue, if_true]

/-- An extent that the answer to a manifest waits for. -/
theorem exec_reservationTimeout_of_relay {a : Nat} {x : RelayAns} (hsrc : q.src = .relay a)
    (hx : (s.exchOf (s.pool p).sheet).relayAns.find? (fun y => y.id == a) = some x) (hdue : x.since + s.waveTimeout x.oct ≤ s.datum) :
    exec (.reservationTimeout p id) s = .next ((s.dropWaiting p fun y => y.src == .relay a).exhausted (s.pool p).sheet x.job x.oct) := by
  show execReservationTimeout p id s = _
  simp only [execReservationTimeout, hq, hsrc, hx, State.elapsed_of_le hdue, if_true]

/-- A landing extent of a placing: the extents that the placing already has are given back. -/
theorem exec_reservationTimeout_of_landing {a : Nat} {r : Recv} {x : Placing} (hsrc : q.src = .landing a)
    (hx : (s.exchOf (s.pool p).sheet).recvs.findSome? (fun r : Recv => (r.placing.find? fun x => x.id == a).map fun x => (r, x)) = some (r, x))
    (hdue : x.since + s.waveTimeout r.oct ≤ s.datum) :
    let t := (x.grants.filterMap fun g => g.2.2.2.2).foldl (fun t e => t.engineFree p e) (s.dropWaiting p fun y => y.src == .landing a)
    exec (.reservationTimeout p id) s =
      .next ((t.putRecv { r with placing := r.placing.filter fun y => y.id != a }).exhausted (s.pool p).sheet r.job r.oct) := by
  show execReservationTimeout p id s = _
  simp only [execReservationTimeout, hq, hsrc, hx, State.elapsed_of_le hdue, if_true, List.foldl_filterMap]
  congr 4
  funext t g
  cases g.2.2.2.2 <;> rfl

end

/-! Held censuses. -/

section
variable {s : State} {i : Fin 8} {step layer : Nat}

/-- The held censuses of a (step, layer) that have not been counted as missing a RECEIVE. -/
def State.heldFor (s : State) (i step layer : Nat) : List CensusRec :=
  (s.exchOf i).held.filter fun c => c.step == step && c.layer == layer && !c.zero

/-- The complete ones of them no longer held, and the others marked to be answered with zeros once they are complete. -/
def State.releaseHeld (s : State) (i step layer : Nat) : State :=
  s.updExch i fun x => { x with
    held := (x.held.filter fun c => !(c.step == step && c.layer == layer && !c.zero && c.complete)).map fun c =>
      if c.step = step ∧ c.layer = layer then { c with zero := true } else c }

theorem exec_receiveMissing_of_due {t : Nat} (hfirst : minOf ((s.heldFor i step layer).map CensusRec.first) = some t)
    (hdue : t + s.waveTimeout (s.coordOct i layer) ≤ s.datum) (harmed : s.armed i step layer = []) :
    let mine := s.heldFor i step layer
    exec (.receiveMissing i step layer) s = .next ((((mine.filter CensusRec.complete).foldl (fun s c => s.answerZero c true)
      (s.releaseHeld i step layer)).event
        { code := .receiveMissing, job := (mine.head?).map CensusRec.job, sheet := some i.val, unit := s.coordOct i layer, report := true }).exchOps) := by
  have hnone : (s.armed i step layer).isEmpty = true := List.isEmpty_iff.2 harmed
  unfold State.heldFor at hfirst
  show execReceiveMissing i step layer s = _
  unfold execReceiveMissing
  dsimp only
  rw [hfirst]
  exact congrArg Host.Outcome.next (if_pos (by simp [State.elapsed_of_le hdue, hnone]))

end

/-! Parts, epochs and relays. -/

section
variable {s : State} {i : Fin 8} {id : Nat}

theorem exec_partSend_of_waiting {b : Batch} {p : Part} (hp : s.part? i id = some (b, p)) (hst : p.st = .waiting) (hcancel : b.cancel = false) :
    exec (.partSend i id) s = .next (s.reservePart b p).exchOps := by
  show execPartSend i id s = _
  simp only [execPartSend, hp]
  exact congrArg Host.Outcome.next (if_pos ⟨hst, by simp [hcancel]⟩)

theorem exec_returnTimeout_of_due {b : Batch} {p : Part} (hp : s.part? i id = some (b, p)) (hst : p.st = .acked)
    (hdue : p.since + s.waveTimeout b.oct ≤ s.datum) : exec (.returnTimeout i id) s = .next (s.partLost b p).exchOps := by
  show execReturnTimeout i id s = _
  simp only [execReturnTimeout, hp]
  exact congrArg Host.Outcome.next (if_pos ⟨hst, State.elapsed_of_le hdue⟩)

/-- An epoch that does not balance within two wave timeouts of its close or cancellation. -/
theorem exec_reuseIntervalExpiry_of_due {e : Fin 4096} (hst : (s.epochAt i e).st = .closing ∨ (s.epochAt i e).st = .cancelled)
    (hdue : (s.epochAt i e).since + 2 * s.waveTimeout (s.physOct i 0) ≤ s.datum) :
    let x := s.epochAt i e
    let t := s.misclosure 2 (e.val + 2 ^ 12 * i.val) [x.granted, x.returned, x.stale] (some x.job) (some i.val)
    exec (.reuseIntervalExpiry i e) s = .next ((t.quarantineEpoch i e).freeEpoch i e .misclosure) := by
  show execReuseIntervalExpiry i e s = _
  exact congrArg Host.Outcome.next (if_pos ⟨hst, State.elapsed_of_le hdue⟩)

variable {r : RelayIn} (hr : (s.exchOf i).relays.find? (fun r => r.id == id) = some r) (hasked : r.asked = false) (hsent : r.sent = false)
include hr hasked hsent

/-- A transfer that holds all that it waits for goes on. -/
theorem exec_relayForward_of_whole (hlacks : s.relayLacks r = []) : exec (.relayForward i id) s = .next (s.relayGo r).exchOps := by
  show execRelayForward i id s = _
  simp only [execRelayForward, hr]
  exact congrArg Host.Outcome.next (if_pos (by simp [hasked, hsent, hlacks]))

/-- One that still lacks something after the wave timeout goes on with what it has. -/
theorem exec_relayTimeout_of_due (hlacks : s.relayLacks r ≠ []) (hdue : r.since + s.waveTimeout r.oct ≤ s.datum) :
    exec (.relayTimeout i id) s = .next ((((s.timeoutErrors i r.job r.oct (dedup (s.relayLacks r))).setRelay { r with force := true }).relayGo
      { r with force := true }).exchOps) := by
  show execRelayTimeout i id s = _
  simp only [execRelayTimeout, hr]
  exact congrArg Host.Outcome.next (if_pos (by simp [hasked, hsent, dedup_eq_nil, hlacks, State.elapsed_of_le hdue]))

end

/-- Settles O21: each timer by its own equation. -/
theorem exchangeTimers : Obligations.ExchangeTimers := by
  intro s i id err
  refine ⟨fun r l w k hround => ⟨exec_grantCompute_of_ready hround, fun t hwait hfirst hdue => exec_censusTimeout_of_due hround hwait hfirst hdue⟩,
    fun b w l dest hb hw hl hdue hended hcancel => exec_grantTimeout_of_due hb hw hl hdue hended hcancel,
    fun p r cid b x hq hsrc hx hdue => exec_reservationTimeout_of_part hq hsrc hx hdue,
    fun p r a x hq hsrc hx hdue => exec_reservationTimeout_of_relay hq hsrc hx hdue,
    fun p q a r x hq hsrc hx hdue => exec_reservationTimeout_of_landing hq hsrc hx hdue,
    fun step layer t hfirst hdue harmed => exec_receiveMissing_of_due hfirst hdue harmed,
    fun b p hp => ⟨fun hst hcancel => exec_partSend_of_waiting hp hst hcancel, fun hst hdue => exec_returnTimeout_of_due hp hst hdue⟩,
    fun e hst hdue => exec_reuseIntervalExpiry_of_due hst hdue,
    fun r hr hasked hsent => ⟨exec_relayForward_of_whole hr hasked hsent, fun hlacks hdue => exec_relayTimeout_of_due hr hasked hsent hlacks hdue⟩⟩

end Sys2Proof.Machine
end

section
/-! Traverse descriptors (Table 4.4): the head of the queue judged in R586's order, what each operation does with a descriptor that passes, and CANCEL_BATCH
(R144). A REPLAY resolves its records when it is taken and counts them as issued then: that is the model's choice (log 97). -/

namespace Sys2Proof.Machine

/-- A Traverse descriptor ended by octant o with a status. -/
def State.trvEnds (s : State) (o : Nat) (q : QDesc) (layer : Nat) (st : Status) : State :=
  s.trvDone o q.sheet layer (dAt q.desc 48 8) (dAt q.desc 56 4) st

/-- The octant that completes a descriptor which octant o took: EPOCH_OPEN, EPOCH_CLOSE and CANCEL are completed by local octant 0 (R125). -/
def State.trvOctant (s : State) (o : Nat) (q : QDesc) : Nat :=
  if dAt q.desc 0 1 = 1 ∨ dAt q.desc 0 1 = 5 ∨ dAt q.desc 0 1 = 6 then s.physOct q.sheet 0 else o

section
variable {s : State} {o op : Nat} {q : QDesc} {g : State → QDesc → State}

/-- The row of its operation takes the descriptor at the head; one that fails a check ends with the status of the first. -/
theorem State.trvTake_of_fails {st : Status} (hq : s.headOf o 2 q) (hop : dAt q.desc 0 1 = op) (hfail : (s.popEngine o 2).trvCheck o q = some st) :
    s.trvTake o op g = (s.popEngine o 2).trvEnds ((s.popEngine o 2).trvOctant o q) q (dAt q.desc 1 1) st := by
  obtain ⟨l, hl⟩ := List.head?_eq_some_iff.1 hq
  unfold State.trvTake
  rw [hl]
  dsimp only
  rw [if_neg fun hother => hother.1 hop, hfail]
  rfl

/-- One that passes every check has the effect of its operation. -/
theorem State.trvTake_of_passes (hq : s.headOf o 2 q) (hop : dAt q.desc 0 1 = op) (hpass : (s.popEngine o 2).trvCheck o q = none) :
    s.trvTake o op g = (g (s.popEngine o 2) q).exchOps := by
  obtain ⟨l, hl⟩ := List.head?_eq_some_iff.1 hq
  unfold State.trvTake
  rw [hl]
  dsimp only
  rw [if_neg fun hother => hother.1 hop, hpass]

end

/-- Octant o's Traverse engine takes descriptor q of operation op from the head of its queue, which leaves u, and every check passes (R586). -/
structure State.TrvAccepts (s : State) (o : Fin 8) (q : QDesc) (op : Nat) (u : State) : Prop where
  head : s.headOf o 2 q
  rest : s.popEngine o 2 = u
  op : dAt q.desc 0 1 = op
  check : u.trvCheck o q = none

/-- Any row that is the effect g of its operation: accepted, its descriptor has that effect. -/
theorem exec_of_trvAccepts {s u t : State} {o : Fin 8} {q : QDesc} {op : Nat} {c : Instr} {g : State → QDesc → State} (ha : s.TrvAccepts o q op u)
    (hrow : exec c s = .next (s.trvTake o op g)) (heffect : g u q = t) : exec c s = .next t.exchOps := by
  obtain ⟨hq, rfl, hop, hpass⟩ := ha
  rw [hrow, State.trvTake_of_passes hq hop hpass, heffect]

section
variable {s u : State} {o : Fin 8} {q : QDesc}

/-! Epochs (R115, R118) and cancellation (R144). -/

theorem exec_epochOpen_of_free {n : Nat} (ha : s.TrvAccepts o q 1 u)
    (hn : (List.range 4096).find? (fun e => (u.epochAt q.sheet e).st == .free) = some n) :
    exec (.epochOpen o) s = .next (((u.setEpoch q.sheet n { Epoch.free with st := .open_, step := dAt q.desc 4 4, job := q.job, since := u.datum }).writeN
      q.sheet (dAt q.desc 8 8) 8 n).trvEnds (u.physOct q.sheet 0) q 0 .ok).exchOps := by
  refine exec_of_trvAccepts ha rfl ?_
  dsimp only
  rw [hn]
  rfl

theorem exec_epochOpen_of_exhausted (ha : s.TrvAccepts o q 1 u)
    (hn : (List.range 4096).find? (fun e => (u.epochAt q.sheet e).st == .free) = none) :
    exec (.epochOpen o) s = .next (u.trvEnds (u.physOct q.sheet 0) q 0 .epochExhausted).exchOps := by
  refine exec_of_trvAccepts ha rfl ?_
  dsimp only
  rw [hn]
  rfl

theorem exec_epochClose_of_accepted (ha : s.TrvAccepts o q 5 u) :
    let e := dAt q.desc 2 2 % 2 ^ 12
    exec (.epochClose o) s = .next (if (u.exchOf q.sheet).batches.any fun b => b.epoch == e && !b.ended
      then u.trvEnds (u.physOct q.sheet 0) q 0 .epochBusy
      else (u.adjEpoch q.sheet e fun x => { x with st := .closing, since := u.datum, close := some (dAt q.desc 48 8, dAt q.desc 56 4) }).settleEpoch
        q.sheet e).exchOps :=
  exec_of_trvAccepts ha rfl rfl

theorem exec_cancel_of_accepted (ha : s.TrvAccepts o q 6 u) :
    exec (.cancel o) s =
      .next (u.cancelBegin q.sheet (q.desc.toNat / 2 ^ 16 % 2 ^ 12) (.desc (dAt q.desc 48 8) (dAt q.desc 56 4))).exchOps :=
  exec_of_trvAccepts ha rfl rfl

/-! EXCHANGE and REPLAY (R126, R148). -/

/-- A batch of the sheet, not a replay, has the key of batch b. -/
def State.keyTaken (s : State) (b : Batch) : Bool := (s.exchOf b.sheet).batches.any fun y => y.key == b.key && !y.replay

/-- A batch added, and the key counts and failure notices that have come for its key taken by it. -/
def State.gathers (s : State) (b : Batch) : State :=
  ((s.exchOf b.sheet).counts.filter fun x => x.key == b.key).foldl (fun t x => t.takeDelivery b.sheet x)
    ((s.updExch b.sheet fun y => { y with counts := y.counts.filter fun x => x.key != b.key }).addBatch b)

theorem exec_exchangeDesc_of_accepted (ha : s.TrvAccepts o q 2 u) :
    let nb := u.newBatch o q false
    exec (.exchangeDesc o) s =
      .next (if nb.1.keyTaken nb.2 then nb.1.trvEnds o q (dAt q.desc 1 1) .rangeOverlap else nb.1.gathers nb.2).exchOps :=
  exec_of_trvAccepts ha rfl rfl

/-- The records that the route log has for a replay batch b of layer l, resolved by a half. -/
def State.replayAsgs (s : State) (b : Batch) (l : LayerRec) (half : Half) : List Asg :=
  let n := b.tokCount * l.k
  let raw := s.rdFree b.sheet (b.logA + b.tokFirst * l.k * 16) (16 * n)
  (List.range n).map fun j => replayAsg half l (s.plist b.sheet l) b.epoch (bytesAt raw (16 * j) 16)

/-- A replay batch added with its records: the valid ones are issued, and those without a destination are folded. -/
def State.addReplay (s : State) (b : Batch) (asgs : List Asg) : State :=
  ((s.draw.adjEpoch b.sheet b.epoch fun y => { y with issued := y.issued + (asgs.filter fun a => a.st != .none).length }).countFold b.sheet b.epoch b.oct
    (asgs.filter fun a => a.st == .folded).length).addBatch { b with asgs := asgs }

theorem exec_replayDesc_of_layer {hb : Bool} {l : LayerRec} (ha : s.TrvAccepts o q 7 u) :
    let rb := u.newBatch o q true
    (rb.1.routingOf q.sheet).select (dAt q.desc 4 4) = some hb → rb.1.batchRec rb.2 = some l →
      exec (.replayDesc o) s = .next (rb.1.addReplay rb.2 (rb.1.replayAsgs rb.2 l ((rb.1.routingOf q.sheet).half hb))).exchOps := by
  intro rb hsel hrec
  have hsel' : (rb.1.routingOf rb.2.sheet).select rb.2.step = some hb := hsel
  refine exec_of_trvAccepts ha rfl ?_
  dsimp only
  rw [hsel', hrec]
  rfl

/-! RECEIVE and RETURN (R129, R137). -/

/-- The receive that a descriptor arms, under the number and the logical device given. -/
def QDesc.recv (q : QDesc) (o id own : Nat) : Recv :=
  let d := q.desc
  { id := id, sheet := q.sheet, job := q.job, own := own, oct := o, layer := dAt d 1 1, step := dAt d 4 4, arrival := dAt d 8 8, list := dAt d 16 8
    cap := dAt d 24 4, outBytes := dAt d 28 4, done := dAt d 48 8, tag := dAt d 56 4, bound := [], took := [], gone := [], strict := true, begun := false
    used := [], censuses := [], computed := [], final := [], cont := [], full := [], served := [], again := [], lists := [], placing := [], ended := false }

theorem exec_receiveDesc_of_accepted (ha : s.TrvAccepts o q 3 u) :
    let x := u.exchId q.sheet
    exec (.receiveDesc o) s = .next ((x.1.updExch q.sheet fun y =>
      { y with recvs := y.recvs ++ [q.recv o x.2 (x.1.ownNum q.sheet q.job)] }).offerHeld q.sheet (dAt q.desc 4 4) (dAt q.desc 1 1)).exchOps :=
  exec_of_trvAccepts ha rfl rfl

theorem exec_returnDesc_of_armed {v : Recv} {l : LayerRec} (ha : s.TrvAccepts o q 4 u)
    (hv : (u.armed q.sheet (dAt q.desc 4 4) (dAt q.desc 1 1)).head? = some v) (hl : u.layerAt q.sheet (dAt q.desc 4 4) (dAt q.desc 1 1) = some l) :
    let d := q.desc
    let top := dAt d 8 4 + dAt d 12 4
    exec (.returnDesc o) s = .next (if v.cap < top ∨ dAt d 24 4 < v.outBytes then u.trvEnds o q (dAt d 1 1) .descFormat
      else if dAt d 12 4 ≠ 0 ∧ (v.lists.getD (dAt d 28 1 % 16) []).length < top then u.trvEnds o q (dAt d 1 1) .addressRange
      else u.doReturn q v l).exchOps := by
  refine exec_of_trvAccepts ha rfl ?_
  dsimp only
  rw [hv, hl]
  rfl

theorem exec_returnDesc_of_unarmed (ha : s.TrvAccepts o q 4 u) (hv : (u.armed q.sheet (dAt q.desc 4 4) (dAt q.desc 1 1)).head? = none) :
    exec (.returnDesc o) s = .next (u.trvEnds o q (dAt q.desc 1 1) .addressRange).exchOps := by
  refine exec_of_trvAccepts ha rfl ?_
  dsimp only
  rw [hv]
  rfl

end

/-! CANCEL_BATCH (R144). -/

theorem bodyCancelBatch_of_good {s : State} {o : Owed} {h : CmdHdr} {p : List Byte} (hsheet : h.sheetValid = true) (hjob : h.jobValid = true)
    (hlen : p.length = 8) (hepoch : uAt p 0 2 < 4096) (hzero : uAt p 2 6 = 0) (hopen : (s.epochAt h.sheet.toNat (uAt p 0 2)).st = .open_) :
    bodyCancelBatch s o h p = (((s.owe o true).cancelBegin h.sheet.toNat (uAt p 0 2) (.packet o)).exchOps, .sent) := by
  unfold bodyCancelBatch
  dsimp only
  rw [(firstFail_none _).2 (by simp [pass_nil, lenIs, zeros, needSheet, needJob, hsheet, hjob, hlen, hepoch, hzero, hopen])]

theorem exec_cancelBatch_of_takes {s : State} {h : CmdHdr} {p : List Byte} (ht : s.takes 0x0302 h p) (hsheet : h.sheetValid = true)
    (hjob : h.jobValid = true) (hlen : (h.params p).length = 8) (hepoch : uAt (h.params p) 0 2 < 4096) (hzero : uAt (h.params p) 2 6 = 0)
    (hopen : ((s.taken h).epochAt h.sheet.toNat (uAt (h.params p) 0 2)).st = .open_) :
    exec (.cancelBatch h p) s = .next ((((s.taken h).owe (hdrOwed h 0x0302) true).cancelBegin h.sheet.toNat (uAt (h.params p) 0 2)
      (.packet (hdrOwed h 0x0302))).exchOps) := by
  show Host.Outcome.next (s.command 0x0302 h p bodyCancelBatch) = _
  rw [State.command_of_takes ht, bodyCancelBatch_of_good hsheet hjob hlen hepoch hzero hopen]
  rfl

/-- Settles O18: a descriptor that fails a check by `State.trvTake_of_fails`; one that passes by its operation's own equation. -/
theorem traverseDescriptors : Obligations.TraverseDescriptors := by
  intro s o q d i op layer e step done tag u o0 run nb rb
  refine ⟨fun hq => ⟨fun st hfail => ?_, fun hpass => ?_⟩,
    fun h p ht hlen hsheet hjob hepoch hzero hopen => exec_cancelBatch_of_takes ht hsheet hjob hlen hepoch hzero hopen⟩
  · have row : ∀ {k : Nat} (g : State → QDesc → State), op = k →
        (Host.Outcome.next (s.trvTake o k g) : Res) = .next (u.trvEnds (u.trvOctant o q) q layer st) :=
      fun g hop => congrArg Host.Outcome.next (State.trvTake_of_fails hq hop hfail)
    exact ⟨row _, row _, row _, row _, row _, row _, row _⟩
  · have ha : ∀ {k : Nat}, op = k → s.TrvAccepts o q k u := fun hop => ⟨hq, rfl, hop, hpass⟩
    refine ⟨fun n hn hop => exec_epochOpen_of_free (ha hop) hn, fun hn hop => exec_epochOpen_of_exhausted (ha hop) hn,
      fun htaken hop => ?_, fun hnew hop => ?_,
      ⟨q.recv o _ _, rfl, rfl, rfl, rfl, rfl, rfl, rfl, rfl, rfl, rfl, rfl, fun hop => exec_receiveDesc_of_accepted (ha hop)⟩,
      fun v l hv hl hop => exec_returnDesc_of_armed (ha hop) hv hl, fun hv hop => exec_returnDesc_of_unarmed (ha hop) hv,
      fun hop => exec_epochClose_of_accepted (ha hop), fun hop => exec_cancel_of_accepted (ha hop),
      fun hb l hsel hrec hop => exec_replayDesc_of_layer (ha hop) hsel hrec⟩
    · exact (exec_exchangeDesc_of_accepted (ha hop)).trans (congrArg (fun t => Host.Outcome.next (State.exchOps t)) (if_pos htaken))
    · exact (exec_exchangeDesc_of_accepted (ha hop)).trans
        (congrArg (fun t => Host.Outcome.next (State.exchOps t)) (if_neg (Bool.eq_false_iff.1 hnew)))

end Sys2Proof.Machine
end

section
/-! The Plotting engine (R119 to R123, R585), the deliveries of its counts and failures (R123, R126), and the start of a wave or its timeout (R126). A
descriptor is read when the engine takes it, and its run area and key table are written when it completes: that is the model's choice (log 80). -/

namespace Sys2Proof.Machine

/-! Descriptors (R119). -/

/-- The checks of a Plotting descriptor, in their order. -/
def State.plotChecks (s : State) (q : QDesc) : List (Bool × Status) :=
  let d := q.desc
  let r := s.routingOf q.sheet
  [(pltFormatOk d (r.layerAt (dAt d 4 4) (dAt d 1 1)), .descFormat), ((r.select (dAt d 4 4)).isSome, .stepRetired),
    ((r.layerAt (dAt d 4 4) (dAt d 1 1)).isSome, .layerInvalid), (s.epochOpen q.sheet (dAt d 2 2 % 2 ^ 12) (dAt d 4 4), .epochInvalid)]

/-- A Plotting descriptor that ends with a status. -/
def State.plotEnds (s : State) (o : Nat) (q : QDesc) (st : Status) : State :=
  s.pltDone o q.sheet (dAt q.desc 1 1) (dAt q.desc 48 8) (dAt q.desc 56 4) st

@[simp] theorem State.epochOpen_popEngine (s : State) (o n i e step : Nat) : (s.popEngine o n).epochOpen i e step = s.epochOpen i e step := rfl

/-- The queues are no part of what is checked. -/
theorem State.plotChecks_popEngine (s : State) (o n : Nat) (q : QDesc) : (s.popEngine o n).plotChecks q = s.plotChecks q := rfl

section
variable {s : State} {o : Nat} {q : QDesc}

/-- A descriptor that fails a check ends with the status of the first. -/
theorem State.plotTake_of_fails {st : Status} (hq : s.headOf o 1 q) (hidle : s.plotRuns.find o = none)
    (hfail : firstFail (s.plotChecks q) = some st) : s.plotTake o = (s.popEngine o 1).plotEnds o q st := by
  obtain ⟨l, hl⟩ := List.head?_eq_some_iff.1 hq
  rw [← s.plotChecks_popEngine o 1 q, State.plotChecks] at hfail
  unfold State.plotTake
  rw [hidle, hl]
  dsimp only at hfail ⊢
  rw [hfail]
  rfl

/-- One that passes every check starts a run with the half that serves its step. -/
theorem State.plotTake_of_passes {b : Bool} {l : LayerRec} (hq : s.headOf o 1 q) (hidle : s.plotRuns.find o = none)
    (hb : (s.routingOf q.sheet).select (dAt q.desc 4 4) = some b) (hl : (s.routingOf q.sheet).layerAt (dAt q.desc 4 4) (dAt q.desc 1 1) = some l)
    (hpass : pass (s.plotChecks q)) :
    s.plotTake o = (s.popEngine o 1).plotStart o q l ((s.routingOf q.sheet).half b) := by
  obtain ⟨rest, hrest⟩ := List.head?_eq_some_iff.1 hq
  have hchecks := (firstFail_none _).2 hpass
  have hb' : ((s.popEngine o 1).routingOf q.sheet).select (dAt q.desc 4 4) = some b := hb
  have hl' : ((s.popEngine o 1).routingOf q.sheet).layerAt (dAt q.desc 4 4) (dAt q.desc 1 1) = some l := hl
  rw [← s.plotChecks_popEngine o 1 q, State.plotChecks] at hchecks
  unfold State.plotTake
  rw [hidle, hrest]
  dsimp only at hchecks ⊢
  rw [hchecks, hb', hl']
  rfl

end

/-- A descriptor that starts is the engine's run: what its descriptor names. -/
theorem State.plotRuns_plotStart (s : State) (o : Nat) (q : QDesc) (l : LayerRec) (h : Half) :
    ∃ run, (s.plotStart o q l h).plotRuns.find o = some run ∧ run.sheet = q.sheet ∧
      run.key = (dAt q.desc 4 4, dAt q.desc 1 1, dAt q.desc 2 2 % 2 ^ 12) ∧ run.count = dAt q.desc 8 4 ∧ run.done = dAt q.desc 48 8 ∧
      run.tag = dAt q.desc 56 4 :=
  ⟨_, Tbl.find_put_same _ _ _, rfl, rfl, rfl, rfl, rfl⟩

/-! Completion (R121 to R123, R585). -/

/-- What a Plotting engine delivers, behind what the coordinating octant c has yet to take. -/
def State.delivers (s : State) (c : Nat) (d : Delivery) : State := { s with deliveries := s.deliveries.put c (s.deliveries.getD c [] ++ [d]) }

/-- The engine done with a run, whose run area and key table are written. -/
def State.plotWritten (s : State) (o : Nat) (p : PlotRun) : State :=
  (({ s with plotRuns := s.plotRuns.del o } : State).write p.sheet p.runAddr p.run).write p.sheet (p.runAddr + 16 * p.count) p.keys

/-- The keys, assignments and folds of a run counted. -/
def State.plotCounted (s : State) (o : Nat) (p : PlotRun) : State :=
  ((s.set F.PLT_STATUS_keys_last o 0 p.nkeys).bump F.PLT_ASSIGN_CNT_assignments o 0 (p.valid - p.nodest)).bump F.PLT_NODEST_CNT_folds o 0 p.nodest

/-- The engine done with a failed run, whose run area and key table are left undefined. -/
def State.plotLost (s : State) (o : Nat) (p : PlotRun) : State :=
  let v : State := { s with plotRuns := s.plotRuns.del o }
  v.undefine p.sheet p.job (v.ownNum p.sheet p.job) p.runAddr (16 * p.count + 16 * (min p.count 65536 + 1))

section
variable {s : State} {o : Fin 8} {p : PlotRun} (hp : s.plotRuns.find o.val = some p)
include hp

theorem exec_plottingComplete_of_ok (hok : p.status = .ok) :
    let u := s.plotWritten o p
    exec (.plottingComplete o) s = .next (((u.plotCounted o p).delivers (u.coordOct p.sheet p.layer) ⟨p.key, .counts p.plot⟩).pltDone
      o p.sheet p.layer p.done p.tag .ok) := by
  show Host.Outcome.next (s.plotComplete o) = _
  unfold State.plotComplete
  rw [hp]
  dsimp only
  rw [hok]
  rfl

theorem exec_plottingComplete_of_failed (hfail : p.status ≠ .ok) :
    let u := s.plotLost o p
    let c := u.coordOct p.sheet p.layer
    exec (.plottingComplete o) s = .next (((u.countFold p.sheet p.key.2.2 c p.valid).delivers c ⟨p.key, .failed p.status⟩).pltDone
      o p.sheet p.layer p.done p.tag p.status) := by
  have hbad : (p.status == Status.ok) = false := beq_false_of_ne hfail
  show Host.Outcome.next (s.plotComplete o) = _
  unfold State.plotComplete
  rw [hp]
  dsimp only
  rw [hbad]
  rfl

end

/-! Deliveries (R123, R126). -/

/-- The oldest delivery of an octant, of the sort that the row takes. -/
theorem State.deliverNext_of_head {s : State} {o k : Nat} {d : Delivery} {l : List Delivery} {sort : Delivered → Bool}
    (hd : s.deliveries.getD o [] = d :: l) (hk : s.octSheet o = some k) (hsort : sort d.what = true) :
    s.deliverNext o sort = (({ s with deliveries := s.deliveries.put o l } : State).takeDelivery k d).exchOps := by
  unfold State.deliverNext
  rw [hd, hk]
  exact if_pos hsort

/-! Waves (R126). -/

section
variable {s : State} {i : Fin 8} {id : Nat} {b : Batch} (hb : s.batch? i id = some b) (hstarted : b.started = false) (hended : b.ended = false)
include hb hstarted hended

theorem exec_wave0Start_of_armed {v : Recv} {l : LayerRec} (hv : (s.armed i b.step b.layer).head? = some v) (hl : s.batchRec b = some l)
    (hcancel : b.cancel = false) (hplots : b.plots.length = b.plotN) :
    exec (.wave0Start i id) s = .next (s.startBatch b v l).exchOps := by
  show execWave0Start i id s = _
  simp only [execWave0Start, hb, hv, hl]
  exact congrArg Host.Outcome.next (if_pos (by simp [hstarted, hended, hcancel, hplots]))

variable (hdue : b.since + s.waveTimeout b.oct ≤ s.datum)
include hdue

/-- A batch that lacks key counts a wave timeout after its acceptance, with a receive armed for it. -/
theorem exec_exchangeTimeout_of_armed (harmed : s.armed i b.step b.layer ≠ []) (hplots : b.plots.length ≠ b.plotN) :
    exec (.exchangeTimeout i id) s = .next (s.abandon b .timeout) := by
  have hsome : (s.armed i b.step b.layer).isEmpty = false := List.isEmpty_eq_false_iff.2 harmed
  show execExchangeTimeout i id s = _
  simp only [execExchangeTimeout, hb, hsome]
  exact congrArg Host.Outcome.next (if_pos (by simp [hstarted, hended, State.elapsed_of_le hdue, hplots]))

/-- A batch without an armed receive by then: the missing receive is reported. -/
theorem exec_exchangeTimeout_of_unarmed (hnone : s.armed i b.step b.layer = []) :
    exec (.exchangeTimeout i id) s = .next ((s.event { code := .receiveMissing, job := some b.job, sheet := some i.val, unit := b.oct }).abandon b .timeout) := by
  have hempty : (s.armed i b.step b.layer).isEmpty = true := List.isEmpty_iff.2 hnone
  show execExchangeTimeout i id s = _
  simp only [execExchangeTimeout, hb, hempty]
  exact congrArg Host.Outcome.next (if_pos (by simp [hstarted, hended, State.elapsed_of_le hdue]))

end

/-! The step equations of the engines' rows. -/

theorem exec_plottingDescriptor (o : Fin 8) (s : State) : exec (.plottingDescriptor o) s = .next (s.plotTake o) := rfl
theorem exec_trvFaultInfo (o : Fin 8) (w : Word) (s : State) : exec (.trvFaultInfo o w) s = .next (s.rearm ⟨.TRV_FAULT_INFO, o, 0⟩ w) := rfl
theorem exec_pltFaultInfo (o : Fin 8) (w : Word) (s : State) : exec (.pltFaultInfo o w) s = .next (s.rearm ⟨.PLT_FAULT_INFO, o, 0⟩ w) := rfl

/-- Settles O20: a descriptor by the first check that it fails or by the run that it starts; the rest by each row's own equation. -/
theorem plottingAndWaves : Obligations.PlottingAndWaves := by
  intro s o i id w
  have ends : ∀ {q : QDesc} {st : Status}, s.headOf o 1 q → s.plotRuns.find o.val = none → firstFail (s.plotChecks q) = some st →
      exec (.plottingDescriptor o) s = .next ((s.popEngine o 1).plotEnds o q st) :=
    fun hq hidle hfail => congrArg Host.Outcome.next (State.plotTake_of_fails hq hidle hfail)
  refine ⟨fun q hq hidle hbad => ends hq hidle ?_, fun q l hq hidle hl hgood => ⟨fun hep => ends hq hidle ?_, fun b hep hb => ⟨?_, ?_⟩⟩,
    fun q hq hidle hgood hl => ends hq hidle ?_, fun p hp hok => exec_plottingComplete_of_ok hp hok,
    fun p hp hfail => exec_plottingComplete_of_failed hp hfail, fun d l k hd hk => ⟨fun p hw => ?_, fun st hw => ?_⟩,
    fun b hb hstarted hended => ⟨fun v l hv hl hcancel hplots => exec_wave0Start_of_armed hb hstarted hended hv hl hcancel hplots,
      fun hdue harmed hplots => exec_exchangeTimeout_of_armed hb hstarted hended hdue harmed hplots,
      fun hdue hnone => exec_exchangeTimeout_of_unarmed hb hstarted hended hdue hnone⟩, fun hw => ⟨?_, ?_⟩⟩
  · simp [State.plotChecks, firstFail, hbad]
  · have hsel := Routing.select_isSome_of_layerAt (Option.isSome_of_eq_some hl)
    simpa [State.plotChecks, firstFail, hl, hgood, hsel] using hep
  · have hpass : pass (s.plotChecks q) := by simpa [State.plotChecks, pass_nil, hl, hgood, hb] using hep
    rw [exec_plottingDescriptor, State.plotTake_of_passes hq hidle hb hl hpass]
  · exact State.plotRuns_plotStart _ _ _ _ _
  · cases hsel : (s.routingOf q.sheet).select (dAt q.desc 4 4) <;> simp [State.plotChecks, firstFail, hl, hgood, hsel]
  · exact congrArg Host.Outcome.next (State.deliverNext_of_head hd hk (by rw [hw]))
  · exact congrArg Host.Outcome.next (State.deliverNext_of_head hd hk (by rw [hw]))
  · rw [exec_trvFaultInfo, s.rearm_of_valid _ hw]
  · rw [exec_pltFaultInfo, s.rearm_of_valid _ hw]

end Sys2Proof.Machine
end

section
/-! The life of a buffer pool (R155, R156, R161, R170, R172): the commands of class 0x04, the ends of STARTING and of STOPPING, and the pool registers. Steps 3
to 5 of Table 5.7 happen together once no arrived frame for the cells waits, or at the timeout: that is the model's choice (logs 111 and 112). -/

namespace Sys2Proof.Machine

/-! Checks (R155, R156). -/

/-- Parameters that POOL_CREATE accepts (R155, Table 5.1). -/
structure PoolCreateParams (h : CmdHdr) (q : List Byte) : Prop where
  length : q.length = 48
  sheet : h.sheetValid = true
  pool : uAt q 0 1 ≤ 63
  owner : uAt q 1 1 = h.sheet.toNat
  home : uAt q 2 1 < 8
  layout : pass (layoutChecks q)

/-- Parameters of n bytes that name a pool of the header's sheet which is not OFF, or any pool that is (R155). -/
structure State.NamesPool (s : State) (h : CmdHdr) (q : List Byte) (n : Nat) : Prop where
  length : q.length = n
  sheet : h.sheetValid = true
  pool : uAt q 0 1 ≤ 63
  owner : (s.pool (uAt q 0 1)).life.st = .off ∨ (s.pool (uAt q 0 1)).sheet = h.sheet.toNat

section
variable {s : State} {o : Owed} {h : CmdHdr} {q : List Byte} {n : Nat}

/-- The head of a pool command's checks: its length, its sheet and the pool's number. -/
theorem State.NamesPool.head_checks (g : s.NamesPool h q n) : lenIs q n = (true, .bad 2) ∧ needSheet h = (true, .bad 17) ∧ decide (uAt q 0 1 ≤ 63) = true := by
  simp [lenIs, needSheet, g.length, g.sheet, g.pool]

theorem State.NamesPool.pass_poolNamed (g : s.NamesPool h q n) {mustBeOn : Bool} (hon : mustBeOn = true → (s.pool (uAt q 0 1)).life.st = .on) :
    pass (s.poolNamed h q mustBeOn) := by
  have howner : (!(s.pool (uAt q 0 1)).present || (s.pool (uAt q 0 1)).sheet == h.sheet.toNat) = true := by
    rcases g.owner with hoff | hsheet
    · simp [Pool.present, hoff]
    · simp [hsheet]
  cases mustBeOn with
  | false => simpa [State.poolNamed, pass_nil] using howner
  | true => simpa [State.poolNamed, pass_nil, hon rfl] using howner

/-! POOL_CREATE (R156, R170). -/

/-- A pool that fits is placed, and its STARTING owes the reply of the POOL_CREATE. -/
theorem State.poolBegin_of_placed {y : Pool} (hy : s.poolPlace (uAt q 0 1) (poolOf h q) = .ok y) :
    s.poolBegin (mkPacket h 0x0401 q) false =
      (s.draw.setPool (uAt q 0 1) { y with life := { Life.off with st := .starting, enable := some (hdrOwed h 0x0401), since := s.datum } }, .later true) := by
  simp only [State.poolBegin, mkPacket, hy]
  rfl

theorem State.poolBegin_of_unplaced {st : Status} {deferred : Bool} (hst : s.poolPlace (uAt q 0 1) (poolOf h q) = .error st) :
    s.poolBegin (mkPacket h 0x0401 q) deferred = (s, .st st) := by
  simp only [State.poolBegin, mkPacket, hst]

theorem PoolCreateParams.firstFail (g : PoolCreateParams h q) :
    firstFail ([lenIs q 48, needSheet h, (decide (uAt q 0 1 ≤ 63), .badP 0), (uAt q 1 1 == h.sheet.toNat, .badP 1), (decide (uAt q 2 1 < 8), .badP 2)] ++
      layoutChecks q) = none := by
  rw [firstFail_none, pass_append]
  exact ⟨by simp [pass_nil, lenIs, needSheet, g.length, g.sheet, g.pool, g.owner, g.home], g.layout⟩

theorem bodyPoolCreate_of_off (g : PoolCreateParams h q) (hoff : (s.pool (uAt q 0 1)).life.st = .off) :
    bodyPoolCreate s o h q = s.poolBegin (mkPacket h 0x0401 q) false := by
  simp only [bodyPoolCreate, g.firstFail, hoff]

/-- A pool that is ON or STARTING keeps what it is. -/
theorem bodyPoolCreate_of_busy (g : PoolCreateParams h q) (hbusy : (s.pool (uAt q 0 1)).life.st = .on ∨ (s.pool (uAt q 0 1)).life.st = .starting) :
    bodyPoolCreate s o h q = (s.setPool (uAt q 0 1) (s.pool (uAt q 0 1)), .st .poolBusy) := by
  rcases hbusy with hst | hst
  · simp only [bodyPoolCreate, g.firstFail, Life.doEnable, hst]
  · simp only [bodyPoolCreate, g.firstFail, Life.doEnable, hst]

/-! The commands on a pool that is ON (R155, R161, R170). -/

/-- A POOL_SET_MODE that keeps the pool's sheet, home and location, of a pool with no cell in use, with a layout that fits. -/
theorem bodyPoolSetMode_of_good {y : Pool} (g : s.NamesPool h q 48) (hon : (s.pool (uAt q 0 1)).life.st = .on) (hsheet : uAt q 1 1 < 8) (hhome : uAt q 2 1 < 8)
    (hlayout : pass (layoutChecks q)) (hsheet' : uAt q 1 1 = (s.pool (uAt q 0 1)).sheet) (hhome' : uAt q 2 1 = (s.pool (uAt q 0 1)).home)
    (hxd : (poolOf h q).xd = (s.pool (uAt q 0 1)).xd) (hidle : (s.pool (uAt q 0 1)).occupied + (s.pool (uAt q 0 1)).inFlight = 0)
    (hy : s.poolPlace (uAt q 0 1) (poolOf h q) = .ok y) :
    let x := s.pool (uAt q 0 1)
    bodyPoolSetMode s o h q = (s.draw.putPool (uAt q 0 1)
      { y with life := x.life, job := x.job, level := x.level, log := x.log, waitCtl := x.waitCtl, waitReq := x.waitReq, captured := x.captured }, .ok) := by
  obtain ⟨hlen, hvalid, hpool⟩ := g.head_checks
  unfold bodyPoolSetMode
  dsimp only
  rw [(firstFail_none _).2, hy]
  simp only [pass_append, pass_cons, hlen, hvalid, hpool]
  exact ⟨⟨⟨by simp [pass_nil, hsheet, hhome], hlayout⟩, g.pass_poolNamed fun _ => hon⟩, by simp [pass_nil, hsheet', hhome', hxd, hidle]⟩

theorem bodyPoolSetThresh_of_good (g : s.NamesPool h q 8) (hon : (s.pool (uAt q 0 1)).life.st = .on) (hpct : pass (pctChecks q 1)) (hzero : uAt q 5 3 = 0)
    (hord : pctsOrdered (pcts q 1) = true) : bodyPoolSetThresh s o h q = (s.setThresh (uAt q 0 1) (pcts q 1), .ok) := by
  obtain ⟨hlen, hvalid, hpool⟩ := g.head_checks
  unfold bodyPoolSetThresh
  rw [(firstFail_none _).2]
  simp only [pass_append, pass_cons, hlen, hvalid, hpool]
  exact ⟨⟨⟨by simp [pass_nil], hpct⟩, by simp [pass_nil, zeros, hzero, hord]⟩, g.pass_poolNamed fun _ => hon⟩

theorem bodyPoolUnquarantine_of_good (g : s.NamesPool h q 8) (hon : (s.pool (uAt q 0 1)).life.st = .on) (hzero : uAt q 1 7 = 0) :
    let x := s.pool (uAt q 0 1)
    bodyPoolUnquarantine s o h q = (s.putPool (uAt q 0 1) { x with tab := x.tab.filter fun e => !e.2.quar }, .ok) := by
  obtain ⟨hlen, hvalid, hpool⟩ := g.head_checks
  unfold bodyPoolUnquarantine
  rw [(firstFail_none _).2]
  simp only [pass_append, pass_cons, hlen, hvalid, hpool]
  exact ⟨by simp [pass_nil, zeros, hzero], g.pass_poolNamed fun _ => hon⟩

/-! POOL_DESTROY (R170). -/

/-- What POOL_DESTROY does with good parameters: the disable of Table 17.8, and step 1 of Table 5.7 where STOPPING begins. -/
theorem bodyPoolDestroy_of_good (g : s.NamesPool h q 8) (hzero : uAt q 1 7 = 0) :
    let x := s.pool (uAt q 0 1)
    let r := x.life.doDisable o .poolAbsent s.datum
    let t := s.setPool (uAt q 0 1) { x with life := r.1 }
    bodyPoolDestroy s o h q = ((if r.2.2.2 then t.poolStop1 (uAt q 0 1) else t).tornDown r.2.2.1, r.2.1) := by
  obtain ⟨hlen, hvalid, hpool⟩ := g.head_checks
  unfold bodyPoolDestroy
  rw [(firstFail_none _).2]
  simp only [pass_append, pass_cons, hlen, hvalid, hpool]
  exact ⟨by simp [pass_nil, zeros, hzero], g.pass_poolNamed nofun⟩

theorem Life.doDisable_of_off {l : Life} (hoff : l.st = .off) (st : Status) (now : Nat) : l.doDisable o st now = (l, .st st, [], false) := by
  simp only [Life.doDisable, hoff]

theorem Life.doDisable_of_on {l : Life} (hon : l.st = .on) (st : Status) (now : Nat) :
    l.doDisable o st now = ({ l with st := .stopping, step := 0, disables := [o], since := now }, .later true, [], true) := by
  simp only [Life.doDisable, hon]

theorem bodyPoolDestroy_of_off (g : s.NamesPool h q 8) (hzero : uAt q 1 7 = 0) (hoff : (s.pool (uAt q 0 1)).life.st = .off) :
    bodyPoolDestroy s o h q = (s.setPool (uAt q 0 1) (s.pool (uAt q 0 1)), .st .poolAbsent) := by
  rw [bodyPoolDestroy_of_good g hzero, Life.doDisable_of_off hoff]
  rfl

theorem bodyPoolDestroy_of_on (g : s.NamesPool h q 8) (hzero : uAt q 1 7 = 0) (hon : (s.pool (uAt q 0 1)).life.st = .on) :
    let x := s.pool (uAt q 0 1)
    bodyPoolDestroy s o h q =
      ((s.setPool (uAt q 0 1) { x with life := { x.life with st := .stopping, step := 0, disables := [o], since := s.datum } }).poolStop1 (uAt q 0 1),
        .later true) := by
  rw [bodyPoolDestroy_of_good g hzero, Life.doDisable_of_on hon]
  rfl

end

theorem exec_poolCreate (h : CmdHdr) (p : List Byte) (s : State) : exec (.poolCreate h p) s = .next (s.command 0x0401 h p bodyPoolCreate) := rfl
theorem exec_poolSetMode (h : CmdHdr) (p : List Byte) (s : State) : exec (.poolSetMode h p) s = .next (s.command 0x0402 h p bodyPoolSetMode) := rfl
theorem exec_poolSetThresh (h : CmdHdr) (p : List Byte) (s : State) : exec (.poolSetThresh h p) s = .next (s.command 0x0403 h p bodyPoolSetThresh) := rfl
theorem exec_poolUnquarantine (h : CmdHdr) (p : List Byte) (s : State) :
    exec (.poolUnquarantine h p) s = .next (s.command 0x0404 h p bodyPoolUnquarantine) := rfl
theorem exec_poolDestroy (h : CmdHdr) (p : List Byte) (s : State) : exec (.poolDestroy h p) s = .next (s.command 0x0405 h p bodyPoolDestroy) := rfl

/-! The ends of STARTING and of STOPPING (Tables 5.6 and 5.7), and the registers (R172, Table 5.13). -/

section
variable {s : State} {i : Fin 64}

theorem exec_poolStartingComplete_of_starting (hst : (s.pool i).life.st = .starting) :
    let x := s.pool i
    exec (.poolStartingComplete i) s =
      .next ((s.setPool i { x with life := x.life.started s.datum, tab := [], bufs := [], cursor := 0, level := .normal }).finals
        (x.life.enable.toList.map fun o => (o, Status.ok))) := by
  show execPoolStartingComplete i s = _
  simp only [execPoolStartingComplete, hst]

theorem exec_poolStoppingDrained_of_drained (hst : (s.pool i).life.st = .stopping) (hdrained : s.framesInto (s.pool i) = false) :
    exec (.poolStoppingDrained i) s = .next (s.poolFinish i) :=
  congrArg Host.Outcome.next (if_pos ⟨hst, by simp [hdrained]⟩)

theorem exec_poolTeardownTimeout_of_due (hst : (s.pool i).life.st = .stopping) (hdue : (s.pool i).life.since + msTicks 50 ≤ s.datum) :
    exec (.poolTeardownTimeout i) s = .next (s.poolFinish i) :=
  congrArg Host.Outcome.next (if_pos ⟨hst, State.elapsed_of_le hdue⟩)

theorem exec_bpmPoolCount0 (i : Fin 64) (s : State) : exec (.bpmPoolCount0 i) s = .next (s.poolCapture i) := rfl

theorem exec_bpmPoolThresh_of_good {w : Word} (hon : (s.pool i).life.st = .on) (hpct : pass (pctChecks (leBytes 8 (fld w 31 0)) 0))
    (hord : pctsOrdered (pcts (leBytes 8 (fld w 31 0)) 0) = true) :
    exec (.bpmPoolThresh i w) s = .next (s.setThresh i (pcts (leBytes 8 (fld w 31 0)) 0)) := by
  show Host.Outcome.next (s.threshWrite i w) = _
  simp [State.threshWrite, hon, (firstFail_none _).2 hpct, hord]

theorem exec_bpmBadptrInfo (k : Fin 8) (w : Word) (s : State) : exec (.bpmBadptrInfo k w) s = .next (s.rearm ⟨.BPM_BADPTR_INFO, k, 0⟩ w) := rfl

end

/-- Settles O22: each command by what its body does with good parameters, each event and register by its own equation. -/
theorem poolLifecycle : Obligations.PoolLifecycle := by
  intro s h p i w k t q n x named z
  have names : ∀ {len}, named → q.length = len → t.NamesPool h q len := fun ⟨hs, hn, howner⟩ hlen => ⟨hlen, hs, hn, howner⟩
  refine ⟨fun ht hs hn hlen howner hhome hlayout => ?_,
    fun y ht hn hon hlen hs hh hlayout hs' hh' hxd hidle hy => ?_, fun ht hn hon hlen hpct hz hord => ?_, fun ht hn hon hlen hz => ?_,
    fun ht hn hlen hz => ⟨fun hoff => ?_, fun hon => ?_⟩, fun hst => exec_poolStartingComplete_of_starting hst,
    fun hst => ⟨fun hdrained => exec_poolStoppingDrained_of_drained hst hdrained, fun hdue => exec_poolTeardownTimeout_of_due hst hdue⟩,
    ⟨_, exec_bpmPoolCount0 i s, rfl⟩, fun hon hpct hord => exec_bpmPoolThresh_of_good hon hpct hord, fun hw => ?_⟩
  · have good : PoolCreateParams h q := ⟨hlen, hs, hn, howner, hhome, hlayout⟩
    rw [exec_poolCreate, State.command_of_takes ht]
    refine ⟨fun y hoff hy => ?_, fun st hoff hst => ?_, fun hbusy => ?_⟩
    · rw [bodyPoolCreate_of_off good hoff, State.poolBegin_of_placed hy]
    · rw [bodyPoolCreate_of_off good hoff, State.poolBegin_of_unplaced hst]
    · rw [bodyPoolCreate_of_busy good hbusy]
  · rw [exec_poolSetMode, State.command_of_takes ht, bodyPoolSetMode_of_good (names hn hlen) hon hs hh hlayout hs' hh' hxd hidle hy]
  · rw [exec_poolSetThresh, State.command_of_takes ht, bodyPoolSetThresh_of_good (names hn hlen) hon hpct hz hord]
  · rw [exec_poolUnquarantine, State.command_of_takes ht, bodyPoolUnquarantine_of_good (names hn hlen) hon hz]
  · rw [exec_poolDestroy, State.command_of_takes ht, bodyPoolDestroy_of_off (names hn hlen) hz hoff]
  · rw [exec_poolDestroy, State.command_of_takes ht, bodyPoolDestroy_of_on (names hn hlen) hz hon]
  · rw [exec_bpmBadptrInfo, s.rearm_of_valid _ hw]

end Sys2Proof.Machine
end

section
/-! Pool requests (R162 to R166, Tables 5.3 and 5.4): the head of an octant's pool queue taken and judged, what a checked request comes to, and the requests
that wait (R163). -/

namespace Sys2Proof.Machine

/-- The request that descriptor q makes, with the next number (Table 5.3). -/
def State.reqOf (s : State) (q : QDesc) : PoolReq :=
  let d := q.desc
  ⟨s.nextReq, .agent q, dAt d 0 1, bitOf (dAt d 2 1) 0, bitOf (dAt d 2 1) 1, dAt d 4 4, dAt d 8 8, dAt d 16 8, dAt d 48 8, dAt d 56 4, none⟩

/-- The state once the head of octant k's pool queue is taken and its request numbered. -/
def State.reqTaken (s : State) (k : Nat) : State := { s.popQueue k 3 with nextReq := (s.popQueue k 3).nextReq + 1 }

/-- A request that takes cells tried, unless others of its class wait before it (R163). -/
def State.reqTries (s : State) (p : Nat) (r : PoolReq) : State :=
  match (if ((s.pool p).waiting r.control).isEmpty then s.poolTry p r else none) with
  | some (v, cells) => v.reqAnswer p r .ok cells
  | none => if r.noWait then s.reqAnswer p r .poolEmpty [] else s.poolWait p r

/-- What agent a's request r to pool p, good by every check of R162, comes to: by its pointer, and by whether it takes cells (R163, R164, R166). -/
def State.reqActs (s : State) (p a : Nat) (r : PoolReq) : State :=
  if (r.op = 3 ∨ r.op = 4 ∨ r.op = 5 ∨ r.op = 7) ∧ (s.pool p).badPtr r.op r.ptr then (s.badPointer p r.op r.ptr a).reqAnswer p r .badPointer []
  else if takesCells r.op then s.reqTries p r
  else (s.poolNoCells p r.op r.ptr).1.reqAnswer p r (s.poolNoCells p r.op r.ptr).2 []

/-! The request at the head of its queue (R162). -/

section
variable {s : State} {k op : Nat} {q : QDesc}

/-- The row of its operation takes the request at the head: answered with the first check that it fails, acted on where there is none. -/
theorem State.poolRequest_of_headOf (hq : s.headOf k 3 q) (hop : dAt q.desc 0 1 = op) :
    s.poolRequest k op = ((s.reqTaken k).poolReqCheck q).elim ((s.reqTaken k).reqActs (dAt q.desc 1 1) q.agent ((s.popQueue k 3).reqOf q))
      fun st => (s.reqTaken k).reqAnswer (dAt q.desc 1 1) ((s.popQueue k 3).reqOf q) st [] := by
  obtain ⟨l, hl⟩ := List.head?_eq_some_iff.1 hq
  subst hop
  unfold State.poolRequest State.reqTaken
  rw [hl]
  dsimp only
  rw [if_neg fun hother => hother.1 rfl]
  cases State.poolReqCheck _ q <;> rfl

theorem State.poolRequest_of_fails {st : Status} (hq : s.headOf k 3 q) (hop : dAt q.desc 0 1 = op) (hfail : (s.reqTaken k).poolReqCheck q = some st) :
    s.poolRequest k op = (s.reqTaken k).reqAnswer (dAt q.desc 1 1) ((s.popQueue k 3).reqOf q) st [] := by
  rw [State.poolRequest_of_headOf hq hop, hfail, Option.elim_some]

theorem State.poolRequest_of_passes (hq : s.headOf k 3 q) (hop : dAt q.desc 0 1 = op) (hpass : (s.reqTaken k).poolReqCheck q = none) :
    s.poolRequest k op = (s.reqTaken k).reqActs (dAt q.desc 1 1) q.agent ((s.popQueue k 3).reqOf q) := by
  rw [State.poolRequest_of_headOf hq hop, hpass, Option.elim_none]

end

/-- What the seven rows of Table 5.4 do with a request follows from what the request at the head comes to. -/
theorem exec_poolRequest_each {s t : State} {k : Fin 8} {op : Nat} (h : s.poolRequest k op = t) :
    (op = 1 → exec (.allocChain k) s = .next t) ∧ (op = 2 → exec (.allocExtent k) s = .next t) ∧ (op = 3 → exec (.append k) s = .next t) ∧
    (op = 4 → exec (.acquire k) s = .next t) ∧ (op = 5 → exec (.release k) s = .next t) ∧ (op = 6 → exec (.allocSized k) s = .next t) ∧
    (op = 7 → exec (.freeSized k) s = .next t) := by
  have row : ∀ o, op = o → (.next (s.poolRequest k o) : Res) = .next t := fun o ho => congrArg Host.Outcome.next (ho ▸ h)
  exact ⟨row 1, row 2, row 3, row 4, row 5, row 6, row 7⟩

/-! A checked request (R163, R164, R166). -/

section
variable {s : State} {p a : Nat} {r : PoolReq}

theorem State.reqActs_of_badPtr (hop : r.op = 3 ∨ r.op = 4 ∨ r.op = 5 ∨ r.op = 7) (hbad : (s.pool p).badPtr r.op r.ptr = true) :
    s.reqActs p a r = (s.badPointer p r.op r.ptr a).reqAnswer p r .badPointer [] :=
  if_pos ⟨hop, hbad⟩

/-- A request that takes cells, whose pointer is good where it has one. -/
theorem State.reqActs_of_takes (hop : r.op = 1 ∨ r.op = 2 ∨ r.op = 6 ∨ (r.op = 3 ∧ (s.pool p).badPtr r.op r.ptr = false)) :
    s.reqActs p a r = s.reqTries p r := by
  have hptr : ¬((r.op = 3 ∨ r.op = 4 ∨ r.op = 5 ∨ r.op = 7) ∧ (s.pool p).badPtr r.op r.ptr = true) := by
    rintro ⟨hnames, hbad⟩
    rcases hop with hop | hop | hop | ⟨-, hgood⟩
    · omega
    · omega
    · omega
    · simp [hgood] at hbad
  have htakes : takesCells r.op = true := by
    rcases hop with hop | hop | hop | ⟨hop, -⟩ <;> rw [hop] <;> rfl
  rw [State.reqActs, if_neg hptr, if_pos htakes]

/-- No other waits before it and its cells are there. -/
theorem State.reqTries_of_served {v : State} {cells : List Nat} (hfirst : (s.pool p).waiting r.control = []) (hv : s.poolTry p r = some (v, cells)) :
    s.reqTries p r = v.reqAnswer p r .ok cells := by
  rw [State.reqTries, if_pos (by simp [hfirst]), hv]

/-- It stands behind others, or its cells are not there. -/
theorem State.reqTries_of_unserved (hlacks : (s.pool p).waiting r.control ≠ [] ∨ s.poolTry p r = none) :
    s.reqTries p r = if r.noWait then s.reqAnswer p r .poolEmpty [] else s.poolWait p r := by
  have hnone : (if ((s.pool p).waiting r.control).isEmpty then s.poolTry p r else none) = none := by
    rcases hlacks with hbehind | hlacks
    · simp [hbehind]
    · simp [hlacks]
  rw [State.reqTries, hnone]

/-- ACQUIRE, RELEASE or FREE_SIZED of a good pointer. -/
theorem State.reqActs_of_noCells (hop : r.op = 4 ∨ r.op = 5 ∨ r.op = 7) (hgood : (s.pool p).badPtr r.op r.ptr = false) :
    s.reqActs p a r = (s.poolNoCells p r.op r.ptr).1.reqAnswer p r (s.poolNoCells p r.op r.ptr).2 [] := by
  have htakes : takesCells r.op = false := by
    rcases hop with hop | hop | hop <;> rw [hop] <;> rfl
  rw [State.reqActs, if_neg (by simp [hgood]), if_neg (by simp [htakes])]

end

/-! The requests that wait (R163). -/

section
variable {s : State} {i : Fin 64} {ctl : Bool} {y : PoolReq} {l : List PoolReq} (hw : (s.pool i).waiting ctl = y :: l)
include hw

/-- The head of a waiting list, whose cells are there; an APPEND's pointer is still good. -/
theorem exec_poolRequestServed_of_cells {v : State} {cells : List Nat} (hptr : y.op ≠ 3 ∨ (s.pool i).badPtr 3 y.ptr = false)
    (hv : s.poolTry i y = some (v, cells)) : exec (.poolRequestServed i ctl) s = .next ((v.poolShift i ctl).reqAnswer i y .ok cells) := by
  have hgood : ¬(y.op = 3 ∧ (s.pool i).badPtr 3 y.ptr = true) := by
    rintro ⟨happend, hbad⟩
    rcases hptr with hother | hgood
    · exact hother happend
    · simp [hgood] at hbad
  show execPoolRequestServed i ctl s = _
  simp only [execPoolRequestServed, hw, if_neg hgood, hv]

/-- An agent's request at the head since b, when op_timeout has passed. -/
theorem exec_poolRequestTimeout_of_due {q : QDesc} {b : Nat} (hsrc : y.src = .agent q) (hhead : y.head = some b) (hdue : b + s.opTimeout ≤ s.datum) :
    exec (.poolRequestTimeout i ctl) s = .next ((s.poolShift i ctl).reqAnswer i { y with id := 0, head := none } .poolEmpty []) := by
  obtain ⟨id, src, op, nw, c, n, ptr, res, done, tag, head⟩ := y
  cases hsrc
  cases hhead
  show execPoolRequestTimeout i ctl s = _
  simp only [execPoolRequestTimeout, hw, State.elapsed_of_le hdue]
  rfl

end

/-- Settles O23: the request at the head by its checks, its pointer and its cells; the waiting ones by the row's own equation. -/
theorem poolRequests : Obligations.PoolRequests := by
  intro s k q i ctl d op p o u r bad all
  have rows : ∀ t, s.poolRequest k op = t → all t := fun _ => exec_poolRequest_each
  -- from here on what the rows do is `rows` alone
  clear_value all
  refine ⟨fun hq => ⟨fun st hst => rows _ (State.poolRequest_of_fails hq rfl hst), fun hpass => ?_⟩,
    fun y l hw => ⟨fun v cells hptr hv => exec_poolRequestServed_of_cells hw hptr hv, fun a b hsrc hhead hdue => ?_⟩⟩
  · have acts : ∀ {t}, u.reqActs p q.agent r = t → all t := fun h => rows _ ((State.poolRequest_of_passes hq rfl hpass).trans h)
    exact ⟨fun hop hbad => acts (State.reqActs_of_badPtr hop hbad),
      fun hop => ⟨fun v cells hfirst hv => acts ((State.reqActs_of_takes hop).trans (State.reqTries_of_served hfirst hv)),
        fun hlacks => acts ((State.reqActs_of_takes hop).trans (State.reqTries_of_unserved hlacks))⟩,
      fun hop hgood => acts (State.reqActs_of_noCells hop hgood)⟩
  · exact ⟨{ y with id := 0, head := none }, rfl, rfl, rfl, exec_poolRequestTimeout_of_due hw hsrc hhead hdue⟩

end Sys2Proof.Machine
end

section
/-! The memory's canonical form (Table 2.1) along a step: for each command whose meaning is more than one shared operation, what its own branches
keep; then the command in front of the queue, the tick, and the step. -/

namespace Sys2Proof.Machine

/-- An outcome that is a next state whose memory has the canonical form. -/
def keepsMem (r : Res) : Prop := ∃ t, r = .next t ∧ memWf t

theorem keepsMem_next {s : State} (hw : memWf s) : keepsMem (.next s) := ⟨s, rfl, hw⟩

/-- A choice between two states that may be absent: the form of whichever is taken. -/
theorem memWf_mem_ite {c : Prop} [Decidable c] {a b : Option State} (ha : ∀ t ∈ a, memWf t) (hb : ∀ t ∈ b, memWf t) :
    ∀ t ∈ (if c then a else b), memWf t := by
  split <;> assumption

/-- A command packet keeps the form where its body does. -/
theorem keepsMem_packet {body : CmdBody} (hb : ∀ {s o h p}, memWf s → memWf (body s o h p).1) {s : State} {op : Nat} {h : CmdHdr} {p : List Byte}
    (hw : memWf s) : keepsMem (.next (s.command op h p body)) :=
  keepsMem_next (State.command_memWf hw fun _ _ _ _ => hb)

/-! Training (chapter 9). -/

theorem execQuantize_memWf {c : Fin 256} {s : State} (hw : memWf s) : keepsMem (execQuantize c s) := by
  unfold execQuantize
  refine keepsMem_next (State.qntRun_memWf hw fun _ _ _ _ h1 => State.qntChecked_memWf h1 ?_)
  exact fun _ h2 => memWf_pair (State.countLoss_memWf (State.write_memWf (memWf_foldl (fun _ _ h3 => State.write_memWf h3) h2)))

theorem execUpdateDesc_memWf {c : Fin 256} {s : State} (hw : memWf s) : keepsMem (execUpdateDesc c s) := by
  unfold execUpdateDesc
  refine keepsMem_next (State.qntRun_memWf hw fun _ _ _ _ h1 => State.qntChecked_memWf h1 fun _ h2 => memWf_pair (memWf_ite ?_ ?_))
  · exact State.hchReport_memWf (State.bump_memWf (memWf_foldl (fun _ _ h3 => State.write_memWf (State.write_memWf h3)) h2))
  · exact State.bump_memWf (memWf_foldl (fun _ _ h4 => State.write_memWf (State.write_memWf h4)) h2)

theorem execPrune_memWf {c : Fin 256} {s : State} (hw : memWf s) : keepsMem (execPrune c s) := by
  unfold execPrune
  refine keepsMem_next (State.qntRun_memWf hw fun _ _ _ _ h1 => State.qntChecked_memWf h1 fun _ h2 => memWf_ite_fst (memWf_pair h2) (memWf_pair ?_))
  refine State.countLoss_memWf (State.write_memWf ?_)
  exact memWf_ite (State.write_memWf (memWf_foldl (fun _ _ h3 => State.write_memWf h3) h2)) (memWf_foldl (fun _ _ h4 => State.write_memWf h4) h2)

theorem execQuantizerComplete_memWf {c : Fin 256} {s : State} (hw : memWf s) : keepsMem (execQuantizerComplete c s) := by
  unfold execQuantizerComplete
  refine keepsMem_next ?_
  split
  case h_1 m l _ =>
    extract_lets op
    cases (if op = 0 ∨ 3 < op then some Status.descFormat else m.done) with
    | none => exact hw
    | some st => exact State.qntAccept_memWf (State.complete_memWf (memWf_ite (memWf_mk hw) (State.capture_memWf (memWf_mk hw))))
  case h_2 => exact hw

/-! Routing and the Survey unit (chapter 3). -/

theorem execSurveyComplete_memWf {o : Fin 8} {s : State} (hw : memWf s) : keepsMem (execSurveyComplete o s) := by
  unfold execSurveyComplete
  refine keepsMem_next ?_
  split
  · exact hw
  · exact State.svyDone_memWf (State.bump_memWf (State.bump_memWf (State.write_memWf (memWf_mk hw))))

/-! Collectives and triangulation (chapter 11). -/

theorem execCollectiveAdmit_memWf {s : State} (hw : memWf s) : keepsMem (execCollectiveAdmit s) := by
  unfold execCollectiveAdmit
  refine keepsMem_next ?_
  split
  · exact State.admitLaunch_memWf (State.answer_memWf hw)
  · exact hw

theorem execPendingLaunchTimeout_memWf {j : Nat} {g : Nat} {q : Nat} {s : State} (hw : memWf s) : keepsMem (execPendingLaunchTimeout j g q s) := by
  unfold execPendingLaunchTimeout
  refine keepsMem_next ?_
  split
  · exact memWf_ite (State.event_memWf (State.final_memWf (memWf_mk hw))) hw
  · exact hw

theorem execAtDatumTrigger_memWf {k : Fin 8} {s : State} (hw : memWf s) : keepsMem (execAtDatumTrigger k s) := by
  unfold execAtDatumTrigger
  refine keepsMem_next ?_
  split
  · exact memWf_ite (State.collOps_memWf (State.collStart_memWf hw)) hw
  · exact hw

theorem execCollectiveCredit_memWf {j : Nat} {g : Nat} {q : Nat} {r : Nat}
    {a : Nat} {s : State} (hw : memWf s) : keepsMem (execCollectiveCredit j g q r a s) := by
  unfold execCollectiveCredit
  refine keepsMem_next ?_
  split
  · exact State.collOps_memWf (State.collPumps_memWf (State.setSlot_memWf hw))
  · split
    · exact memWf_ite (memWf_mk hw) hw
    · exact hw

theorem execCollectiveChunk_memWf {k : Fin 8} {r : Nat} {s : State} (hw : memWf s) : keepsMem (execCollectiveChunk k r s) := by
  unfold execCollectiveChunk
  refine keepsMem_next ?_
  split
  · split
    · split
      · exact State.collOps_memWf (State.collPumps_memWf (State.takeChunk_memWf (State.serveBefore_memWf hw)))
      · exact hw
    · exact hw
  · exact hw

theorem execCollectiveTimeout_memWf {k : Fin 8} {r : Nat} {s : State} (hw : memWf s) : keepsMem (execCollectiveTimeout k r s) := by
  unfold execCollectiveTimeout
  refine keepsMem_next ?_
  split
  · exact memWf_ite (State.freeSlot_memWf (State.jobError_memWf (State.collWordDone_memWf hw))) hw
  · exact hw

theorem execTreeChunkComplete_memWf {i : Fin 8} {m c : Nat} {s : State} (hw : memWf s) : keepsMem (execTreeChunkComplete i m c s) := by
  unfold execTreeChunkComplete
  refine keepsMem_next ?_
  split
  · exact memWf_ite (memWf_ite (State.treeOps_memWf (State.treeVerified_memWf hw)) (State.treeBad_memWf hw)) hw
  · exact hw

theorem execTreeKeepalive_memWf {i : Fin 8} {m : Nat} {c : Nat} {s : State} (hw : memWf s) : keepsMem (execTreeKeepalive i m c s) := by
  unfold execTreeKeepalive
  refine keepsMem_next ?_
  split
  · split
    · exact memWf_ite (State.sendFrame_memWf (State.setTree_memWf hw)) hw
    · exact hw
  · exact hw

theorem execOrphaned_memWf {i : Fin 8} {m : Nat} {s : State} (hw : memWf s) : keepsMem (execOrphaned i m s) := by
  unfold execOrphaned
  refine keepsMem_next ?_
  split
  · exact memWf_ite (State.treeOrphan_memWf hw) hw
  · exact hw

theorem execResumeRecord_memWf {i : Fin 8} {m : Nat} {c : Nat} {hi : Nat} {s : State} (hw : memWf s) : keepsMem (execResumeRecord i m c hi s) := by
  unfold execResumeRecord
  refine keepsMem_next ?_
  split
  · split
    · refine memWf_ite ?_ ?_
      · exact State.treeDone_memWf (State.setTree_memWf (State.treeStale_memWf hw))
      · exact State.treeOps_memWf (State.treeSend_memWf (State.setTree_memWf (State.treeStale_memWf hw)))
    · exact hw
  · exact hw

theorem execChildLost_memWf {i : Fin 8} {m : Nat} {c : Nat} {s : State} (hw : memWf s) : keepsMem (execChildLost i m c s) := by
  unfold execChildLost
  refine keepsMem_next ?_
  split
  · split
    · exact memWf_ite (State.treeOps_memWf (State.treeDone_memWf (State.treeStop_memWf (State.event_memWf (State.setTree_memWf hw))))) hw
    · exact hw
  · exact hw

/-! Buffer pools (chapter 5). -/

theorem execPoolStartingComplete_memWf {i : Fin 64} {s : State} (hw : memWf s) : keepsMem (execPoolStartingComplete i s) := by
  unfold execPoolStartingComplete
  refine keepsMem_next ?_
  split
  · exact State.finals_memWf (State.setPool_memWf hw)
  · exact hw

theorem execPoolRequestServed_memWf {i : Fin 64} {ctl : Bool} {s : State} (hw : memWf s) : keepsMem (execPoolRequestServed i ctl s) := by
  unfold execPoolRequestServed
  refine keepsMem_next ?_
  split
  · exact hw
  · refine memWf_ite (State.reqAnswer_memWf (State.badPointer_memWf (State.poolShift_memWf hw))) ?_
    split
    · exact hw
    · next q => exact State.reqAnswer_memWf (State.poolShift_memWf (State.poolTry_memWf q hw))

theorem execPoolRequestTimeout_memWf {i : Fin 64} {ctl : Bool} {s : State} (hw : memWf s) : keepsMem (execPoolRequestTimeout i ctl s) := by
  unfold execPoolRequestTimeout
  refine keepsMem_next ?_
  split
  · exact memWf_ite (State.reqAnswer_memWf (State.poolShift_memWf hw)) hw
  · exact hw

/-! The exchange (chapter 4). -/

theorem execGrantCompute_memWf {i : Fin 8} {id : Nat} {s : State} (hw : memWf s) : keepsMem (execGrantCompute i id s) := by
  unfold execGrantCompute
  refine keepsMem_next ?_
  split
  · exact memWf_ite (State.exchOps_memWf (State.computeRound_memWf hw)) hw
  · exact hw

theorem execCensusTimeout_memWf {i : Fin 8} {id : Nat} {s : State} (hw : memWf s) : keepsMem (execCensusTimeout i id s) := by
  unfold execCensusTimeout
  refine keepsMem_next ?_
  split
  · split
    · exact memWf_ite (State.exchOps_memWf (State.computeRound_memWf (memWf_foldl (fun _ _ h1 => State.jobError_memWf h1) hw))) hw
    · exact hw
  · exact hw

theorem execGrantTimeout_memWf {i : Fin 8} {id : Nat} {dest : Nat} {s : State} (hw : memWf s) : keepsMem (execGrantTimeout i id dest s) := by
  unfold execGrantTimeout
  refine keepsMem_next ?_
  split
  · exact hw
  · split
    · exact memWf_ite (State.exchOps_memWf (State.afterAnswer_memWf (State.refused_memWf (State.jobError_memWf hw)))) hw
    · exact hw

theorem execReservationTimeout_memWf {p : Fin 64} {id : Nat} {s : State} (hw : memWf s) : keepsMem (execReservationTimeout p id s) := by
  unfold execReservationTimeout
  refine keepsMem_next ?_
  split
  · exact hw
  · split
    · exact hw
    · split
      · refine memWf_ite (State.exhausted_memWf (State.putRecv_memWf (memWf_foldl ?_ (State.dropWaiting_memWf hw)))) hw
        intro _ _ h1
        split
        · exact State.engineFree_memWf h1
        · exact h1
      · exact State.dropWaiting_memWf hw
    · split
      · exact memWf_ite (State.exhausted_memWf (State.dropWaiting_memWf hw)) hw
      · exact State.dropWaiting_memWf hw
    · split
      · exact memWf_ite (State.exhausted_memWf (State.dropWaiting_memWf hw)) hw
      · exact State.dropWaiting_memWf hw

theorem execEpochOpen_memWf {o : Fin 8} {s : State} (hw : memWf s) : keepsMem (execEpochOpen o s) := by
  unfold execEpochOpen
  refine keepsMem_next (State.trvTake_memWf hw fun _ _ h1 => ?_)
  extract_lets
  split
  · exact State.trvDone_memWf h1
  · exact State.trvDone_memWf (State.writeN_memWf (State.setEpoch_memWf h1))

theorem execExchangeDesc_memWf {o : Fin 8} {s : State} (hw : memWf s) : keepsMem (execExchangeDesc o s) := by
  unfold execExchangeDesc
  refine keepsMem_next (State.trvTake_memWf hw fun _ _ h1 => memWf_ite (State.trvDone_memWf (State.newBatch_memWf h1)) ?_)
  exact memWf_foldl (fun _ _ h2 => State.takeDelivery_memWf h2) (State.addBatch_memWf (State.updExch_memWf (State.newBatch_memWf h1)))

theorem execReceiveDesc_memWf {o : Fin 8} {s : State} (hw : memWf s) : keepsMem (execReceiveDesc o s) := by
  unfold execReceiveDesc
  exact keepsMem_next (State.trvTake_memWf hw (fun _ _ h1 => State.offerHeld_memWf (State.updExch_memWf (State.exchId_memWf h1))))

theorem execReturnDesc_memWf {o : Fin 8} {s : State} (hw : memWf s) : keepsMem (execReturnDesc o s) := by
  unfold execReturnDesc
  refine keepsMem_next (State.trvTake_memWf hw fun _ _ h1 => ?_)
  extract_lets _ _ fin
  have hfin st : memWf (fin st) := State.trvDone_memWf h1
  split
  · exact memWf_ite (hfin _) (memWf_ite (hfin _) (State.doReturn_memWf h1))
  · exact hfin _

theorem execEpochClose_memWf {o : Fin 8} {s : State} (hw : memWf s) : keepsMem (execEpochClose o s) := by
  unfold execEpochClose
  exact keepsMem_next (State.trvTake_memWf hw (fun _ _ h1 => memWf_ite (State.trvDone_memWf h1) (State.settleEpoch_memWf (State.adjEpoch_memWf h1))))

theorem execReplayDesc_memWf {o : Fin 8} {s : State} (hw : memWf s) : keepsMem (execReplayDesc o s) := by
  unfold execReplayDesc
  refine keepsMem_next (State.trvTake_memWf hw fun _ _ h1 => ?_)
  extract_lets
  split
  · exact State.addBatch_memWf (State.countFold_memWf (State.adjEpoch_memWf (State.draw_memWf (State.newBatch_memWf h1))))
  · exact State.newBatch_memWf h1

theorem execWave0Start_memWf {i : Fin 8} {id : Nat} {s : State} (hw : memWf s) : keepsMem (execWave0Start i id s) := by
  unfold execWave0Start
  refine keepsMem_next ?_
  split
  · exact hw
  · split
    · exact memWf_ite (State.exchOps_memWf (State.startBatch_memWf hw)) hw
    · exact hw

theorem execExchangeTimeout_memWf {i : Fin 8} {id : Nat} {s : State} (hw : memWf s) : keepsMem (execExchangeTimeout i id s) := by
  unfold execExchangeTimeout
  refine keepsMem_next ?_
  split
  · exact hw
  · exact memWf_ite (State.abandon_memWf (memWf_ite (State.event_memWf hw) hw)) hw

theorem execReceiveMissing_memWf {i : Fin 8} {step : Nat}
    {layer : Nat} {s : State} (hw : memWf s) : keepsMem (execReceiveMissing i step layer s) := by
  unfold execReceiveMissing
  refine keepsMem_next ?_
  split
  · exact hw
  · exact memWf_ite (State.exchOps_memWf (State.event_memWf (memWf_foldl (fun _ _ h1 => State.answerZero_memWf h1) (State.updExch_memWf hw)))) hw

theorem execPartSend_memWf {i : Fin 8} {id : Nat} {s : State} (hw : memWf s) : keepsMem (execPartSend i id s) := by
  unfold execPartSend
  refine keepsMem_next ?_
  split
  · exact memWf_ite (State.exchOps_memWf (State.reservePart_memWf hw)) hw
  · exact hw

theorem execReturnTimeout_memWf {i : Fin 8} {id : Nat} {s : State} (hw : memWf s) : keepsMem (execReturnTimeout i id s) := by
  unfold execReturnTimeout
  refine keepsMem_next ?_
  split
  · exact memWf_ite (State.exchOps_memWf (State.partLost_memWf hw)) hw
  · exact hw

theorem execRelayForward_memWf {i : Fin 8} {id : Nat} {s : State} (hw : memWf s) : keepsMem (execRelayForward i id s) := by
  unfold execRelayForward
  refine keepsMem_next ?_
  split
  · exact memWf_ite (State.exchOps_memWf (State.relayGo_memWf hw)) hw
  · exact hw

theorem execRelayTimeout_memWf {i : Fin 8} {id : Nat} {s : State} (hw : memWf s) : keepsMem (execRelayTimeout i id s) := by
  unfold execRelayTimeout
  refine keepsMem_next ?_
  split
  · exact memWf_ite (State.exchOps_memWf (State.relayGo_memWf (State.setRelay_memWf (memWf_foldl (fun _ _ h1 => State.jobError_memWf h1) hw)))) hw
  · exact hw

/-! Loads and stores of the scratchpad (Table 7.7). -/

theorem execLds_memWf {c : Fin 256} {f : BitVec 56} {s : State} (hw : memWf s) : keepsMem (execLds c f s) := by
  unfold execLds
  refine keepsMem_next (State.memStep_memWf hw fun _ x h1 => ?_)
  extract_lets n
  cases scrFault (scrOff x f) n n with
  | some st => exact State.coreFault_memWf h1
  | none => exact State.setCore_memWf (State.scrReads_memWf h1)

theorem execSts_memWf {c : Fin 256} {f : BitVec 56} {s : State} (hw : memWf s) : keepsMem (execSts c f s) := by
  unfold execSts
  refine keepsMem_next (State.memStep_memWf hw fun _ _ h1 => ?_)
  extract_lets
  split
  · exact State.coreFault_memWf h1
  · exact memWf_ite h1 (State.wake_memWf (State.setCore_memWf (State.scrPoke_memWf h1)))

theorem execVld_memWf {c : Fin 256} {f : BitVec 56} {s : State} (hw : memWf s) : keepsMem (execVld c f s) := by
  unfold execVld
  refine keepsMem_next (State.memStep_memWf hw fun _ _ h1 => ?_)
  split
  · exact State.coreFault_memWf h1
  · exact State.scrLoad_memWf h1 fun _ h2 => State.setCore_memWf h2

theorem execVst_memWf {c : Fin 256} {f : BitVec 56} {s : State} (hw : memWf s) : keepsMem (execVst c f s) := by
  unfold execVst
  refine keepsMem_next (State.memStep_memWf hw fun _ _ h1 => ?_)
  split
  · exact State.coreFault_memWf h1
  · exact memWf_ite h1 (State.wake_memWf (State.setCore_memWf (State.scrPoke_memWf h1)))

theorem execVlds_memWf {c : Fin 256} {f : BitVec 56} {s : State} (hw : memWf s) : keepsMem (execVlds c f s) := by
  unfold execVlds
  refine keepsMem_next (State.memStep_memWf hw fun _ _ h1 => ?_)
  split
  · exact State.coreFault_memWf h1
  · exact State.scrLoad_memWf h1 fun _ h2 => State.setCore_memWf h2

theorem execVsts_memWf {c : Fin 256} {f : BitVec 56} {s : State} (hw : memWf s) : keepsMem (execVsts c f s) := by
  unfold execVsts
  refine keepsMem_next (State.memStep_memWf hw fun _ _ h1 => ?_)
  split
  · exact State.coreFault_memWf h1
  · exact memWf_ite h1 (State.wake_memWf (State.setCore_memWf (memWf_foldl (fun _ _ h2 => State.scrPoke_memWf h2) h1)))

/-! The matrix queue (R176 to R188). -/

theorem execMatrixQueueStart_memWf {c : Fin 256} {s : State} (hw : memWf s) : keepsMem (execMatrixQueueStart c s) := by
  unfold execMatrixQueueStart
  refine keepsMem_next (State.drainStep_memWf ?_)
  split
  case h_1 pc e rest _ _ =>
    extract_lets y
    cases e with
    | wld =>
      refine memWf_ite hw ?_
      dsimp only
      split
      · exact State.passFault_memWf (State.scrReads_memWf hw)
      · exact State.setCore_memWf (State.scrReads_memWf hw)
    | mpass => exact memWf_ite hw (State.startPass_memWf hw)
    | accrd => exact State.setCore_memWf hw
    | accz => exact State.setCore_memWf hw
  case h_2 => exact hw

theorem execWeightLoadComplete_memWf {c : Fin 256} {s : State} (hw : memWf s) : keepsMem (execWeightLoadComplete c s) := by
  unfold execWeightLoadComplete
  refine keepsMem_next (State.drainStep_memWf ?_)
  split
  case h_1 => exact hw
  case h_2 t _ =>
    extract_lets s2
    have h2 : memWf s2 := State.setCore_memWf hw
    cases t.viol with
    | none => exact h2
    | some v => exact State.bump_memWf (State.captureFault_memWf h2)

/-! Remote, wait, semaphore, engine and mover instructions (R223 to R232). -/

theorem execRst_memWf {c : Fin 256} {f : BitVec 56} {s : State} (hw : memWf s) : keepsMem (execRst c f s) := by
  unfold execRst
  exact keepsMem_next (State.sysStep_memWf hw (fun _ _ h1 => State.remoteGo_memWf (memWf_ite_fst (State.scrReads_memWf h1) (memWf_pair h1))))

theorem execFence_memWf {c : Fin 256} {f : BitVec 56} {s : State} (hw : memWf s) : keepsMem (execFence c f s) := by
  unfold execFence
  exact keepsMem_next (State.sysStep_memWf hw (fun _ _ h1 => memWf_ite h1 (State.settle_memWf (State.addFence_memWf (State.setCore_memWf h1)))))

theorem execWaitTimeout_memWf {c : Fin 256} {s : State} (hw : memWf s) : keepsMem (execWaitTimeout c s) := by
  unfold execWaitTimeout
  refine keepsMem_next ?_
  split
  · exact memWf_ite (State.setCore_memWf hw) hw
  · exact hw

theorem execSacq_memWf {c : Fin 256} {f : BitVec 56} {s : State} (hw : memWf s) : keepsMem (execSacq c f s) := by
  unfold execSacq
  refine keepsMem_next (State.sysStep_memWf hw fun _ _ h1 => ?_)
  split
  · exact State.keepLifts_memWf (State.setCore_memWf (memWf_mk h1))
  · exact memWf_ite (State.setCore_memWf h1) (State.keepLifts_memWf (State.setCore_memWf h1))

theorem execSrel_memWf {c : Fin 256} {f : BitVec 56} {s : State} (hw : memWf s) : keepsMem (execSrel c f s) := by
  unfold execSrel
  refine keepsMem_next (State.sysStep_memWf hw fun _ _ h1 => ?_)
  split
  · exact memWf_ite (State.semRelease_memWf (State.setCore_memWf h1)) (State.coreFault_memWf h1)
  · exact State.coreFault_memWf h1

theorem execSubmit_memWf {c : Fin 256} {f : BitVec 56} {s : State} (hw : memWf s) : keepsMem (execSubmit c f s) := by
  unfold execSubmit
  refine keepsMem_next (State.sysStep_memWf hw fun _ _ h1 => memWf_ite (State.coreFault_memWf h1) (memWf_ite (State.coreFault_memWf h1) ?_))
  exact memWf_ite h1 (State.scrLoad_memWf h1 (fun _ h2 => State.settleOwners_memWf (State.issue_memWf (State.setCore_memWf h2))))

theorem execMvi_memWf {c : Fin 256} {f : BitVec 56} {s : State} (hw : memWf s) : keepsMem (execMvi c f s) := by
  unfold execMvi
  refine keepsMem_next (State.sysStep_memWf hw fun _ _ h1 => memWf_ite (State.coreFault_memWf h1) (memWf_ite (State.coreFault_memWf h1) ?_))
  split
  · exact State.startMover_memWf h1
  · exact State.setCore_memWf h1

/-! The tile movers (chapter 6). -/

theorem execCopyDesc_memWf {c : Fin 256} {j : Fin 4} {s : State} (hw : memWf s) : keepsMem (execCopyDesc c j s) := by
  unfold execCopyDesc
  exact keepsMem_next (State.moverRun_memWf hw (fun _ _ h1 => State.checked_memWf h1 fun _ h2 => memWf_pair (State.moveRows_memWf h2)))

theorem execGatherRows_memWf {c : Fin 256} {j : Fin 4} {s : State} (hw : memWf s) : keepsMem (execGatherRows c j s) := by
  unfold execGatherRows
  exact keepsMem_next (State.moverRun_memWf hw (fun _ _ h1 => State.checked_memWf h1 fun _ h2 => memWf_pair (State.moveRows_memWf h2)))

theorem execGatherCols_memWf {c : Fin 256} {j : Fin 4} {s : State} (hw : memWf s) : keepsMem (execGatherCols c j s) := by
  unfold execGatherCols
  refine keepsMem_next (State.moverRun_memWf hw ?_)
  exact fun _ _ h1 => State.checked_memWf h1 (fun _ h2 => memWf_pair (memWf_foldl (fun _ _ h3 => State.moverPut_memWf h3) h2))

theorem execCompress_memWf {c : Fin 256} {j : Fin 4} {s : State} (hw : memWf s) : keepsMem (execCompress c j s) := by
  unfold execCompress
  refine keepsMem_next (State.moverRun_memWf hw fun _ _ h1 => State.checked_memWf h1 fun _ h2 => ?_)
  exact memWf_pair (State.bump_memWf (State.bump_memWf (State.bump_memWf (State.moverPut_memWf (State.moverPut_memWf h2)))))

theorem execDecompress_memWf {c : Fin 256} {j : Fin 4} {s : State} (hw : memWf s) : keepsMem (execDecompress c j s) := by
  unfold execDecompress
  refine keepsMem_next (State.moverRun_memWf hw ?_)
  exact fun _ _ h1 => State.checked_memWf h1 (fun _ h2 => memWf_pair (memWf_foldl (fun _ _ h3 => State.moverPut_memWf h3) h2))

theorem execSelectDesc_memWf {c : Fin 256} {j : Fin 4} {s : State} (hw : memWf s) : keepsMem (execSelectDesc c j s) := by
  unfold execSelectDesc
  refine keepsMem_next (State.moverRun_memWf hw fun _ _ h1 => ?_)
  exact memWf_ite_fst (memWf_pair h1) (State.checked_memWf h1 (fun _ h2 => memWf_pair (State.bump_memWf (State.moverPut_memWf h2))))

theorem execPredCheck_memWf {c : Fin 256} {j : Fin 4} {s : State} (hw : memWf s) : keepsMem (execPredCheck c j s) := by
  unfold execPredCheck
  refine keepsMem_next (State.moverRun_memWf hw ?_)
  exact fun _ _ h1 => memWf_ite_fst (memWf_pair h1) (State.checked_memWf h1 fun _ h2 => memWf_pair (State.bump_memWf h2))

theorem execMoverComplete_memWf {c : Fin 256} {j : Fin 4} {s : State} (hw : memWf s) : keepsMem (execMoverComplete c j s) := by
  unfold execMoverComplete
  refine keepsMem_next ?_
  split
  · exact hw
  · extract_lets
    split
    · exact hw
    · exact State.drainAll_memWf (State.moverWake_memWf (State.complete_memWf (memWf_ite (memWf_mk hw) (State.capture_memWf (memWf_mk hw)))))

/-! Ports and links (chapter 15). -/

theorem execTrainMsg_memWf {p : Fin 36} {dev : BitVec 20} {port : BitVec 6}
    {version trusted : Bool} {s : State} (hw : memWf s) : keepsMem (execTrainMsg p dev port version trusted s) := by
  unfold execTrainMsg
  refine keepsMem_next (memWf_ite hw ?_)
  extract_lets s2
  have h2 : memWf s2 := State.set_memWf (State.set_memWf hw)
  have hfail {r : Nat} : memWf (s2.portTrainFail p r) := State.portTrainFail_memWf h2
  exact memWf_ite hfail (memWf_ite hfail (memWf_ite (State.event_memWf hfail) (memWf_ite (State.portGoUp_memWf h2) (State.setPort_memWf h2))))

theorem execRetrainingComplete_memWf {p : Fin 36} {s : State} (hw : memWf s) : keepsMem (execRetrainingComplete p s) := by
  unfold execRetrainingComplete
  refine keepsMem_next (memWf_ite (State.contourPort_memWf ?_) hw)
  exact memWf_ite (State.linkAck_memWf (State.portTo_memWf (State.set_memWf hw))) (State.portTo_memWf (State.set_memWf hw))

theorem execPortStoppingDrained_memWf {p : Fin 36} {s : State} (hw : memWf s) : keepsMem (execPortStoppingDrained p s) := by
  unfold execPortStoppingDrained
  refine keepsMem_next (memWf_ite hw ?_)
  extract_lets s2 r s3
  have h3 : memWf s3 := State.finals_memWf (State.portTo_memWf (State.set_memWf (memWf_ite (State.block_memWf hw) hw)))
  cases r.2.2 with
  | none => exact h3
  | some k => exact State.startTraining_memWf h3

theorem execAckBlock_memWf {p : Fin 36} {b : Block} {s : State} (hw : memWf s) : keepsMem (execAckBlock p b s) := by
  unfold execAckBlock
  exact keepsMem_next (State.blockIn_memWf hw (fun _ h1 => memWf_ite (State.resendFrom_memWf (State.setPort_memWf h1)) (State.setPort_memWf h1)))

theorem execRetryReq_memWf {p : Fin 36} {b : Block} {s : State} (hw : memWf s) : keepsMem (execRetryReq p b s) := by
  unfold execRetryReq
  refine keepsMem_next (State.blockIn_memWf hw fun _ h1 => memWf_ite ?_ ?_)
  · exact State.retrain_memWf (State.bump_memWf (State.setPort_memWf h1))
  · exact State.resendFrom_memWf (State.bump_memWf (State.setPort_memWf h1))

theorem execAuditReturn_memWf {p : Fin 36} {b : Block} {s : State} (hw : memWf s) : keepsMem (execAuditReturn p b s) := by
  unfold execAuditReturn
  refine keepsMem_next (State.blockIn_memWf hw fun _ h1 => ?_)
  extract_lets _ _ _ _ s2
  have h2 : memWf s2 := State.setPort_memWf h1
  split
  case h_1 => exact h1
  case h_2 a _ =>
    extract_lets _ _ s3 _ s4
    have h3 : memWf s3 := State.set_memWf (State.set_memWf (State.set_memWf h2))
    have h4 : memWf s4 := memWf_ite (State.misclosure_memWf h3) h3
    cases a.owed with
    | none => exact h4
    | some o => exact State.final_memWf h4

/-! The switch core (chapter 14). -/

theorem execOutputArbitration_memWf {p : Fin 40} {ecc : Fin 3} {s : State} (hw : memWf s) : keepsMem (execOutputArbitration p ecc s) := by
  unfold execOutputArbitration
  refine keepsMem_next (memWf_ite ?_ ?_)
  · split
    · exact State.relookup_memWf hw
    · exact hw
  · extract_lets r s1
    have h1 : memWf s1 := State.chooseFrame_memWf (State.presented_memWf hw)
    split
    · exact h1
    · exact memWf_ite (State.swDrop_memWf (State.event_memWf (State.unqueue_memWf h1))) (State.transmit_memWf (memWf_ite (State.event_memWf h1) h1))

theorem execSwitchTableActivation_memWf {s : State} (hw : memWf s) : keepsMem (execSwitchTableActivation s) := by
  unfold execSwitchTableActivation
  refine keepsMem_next ?_
  split
  · exact hw
  · exact memWf_ite hw (memWf_ite (memWf_mk hw) (State.final_memWf (memWf_mk hw)))

theorem execShadowCopyComplete_memWf {s : State} (hw : memWf s) : keepsMem (execShadowCopyComplete s) := by
  unfold execShadowCopyComplete
  refine keepsMem_next ?_
  split
  · exact hw
  · exact memWf_mk hw

/-! The Chartroom (chapter 17). -/

theorem execDeviceResetBegin_memWf {s : State} (hw : memWf s) : keepsMem (execDeviceResetBegin s) := by
  unfold execDeviceResetBegin
  refine keepsMem_next ?_
  split
  · exact memWf_ite (State.deviceReset_memWf hw) hw
  · exact memWf_ite hw (State.deviceReset_memWf (State.final_memWf hw))
  · exact hw

/-! Gateways (chapter 16). -/

theorem execGatewayEgress_memWf {p : Fin 36} {s : State} (hw : memWf s) : keepsMem (execGatewayEgress p s) := by
  unfold execGatewayEgress
  refine keepsMem_next ?_
  extract_lets
  split
  · exact hw
  · exact memWf_ite hw (State.egress_memWf (State.setGate_memWf hw))

theorem execGatewayData_memWf {p : Fin 36} {d : Dgram} {s : State} (hw : memWf s) : keepsMem (execGatewayData p d s) := by
  unfold execGatewayData
  refine keepsMem_next (State.ethIn_memWf hw fun _ h1 => ?_)
  extract_lets
  split
  · exact h1
  · refine memWf_ite h1 (memWf_ite ?_ ?_)
    · exact State.gwAck_memWf (memWf_ite (State.setConn_memWf h1) (memWf_foldl (fun _ _ h2 => State.gwFrame_memWf h2) (State.setConn_memWf h1)))
    · exact memWf_ite (State.setConn_memWf h1) (memWf_foldl (fun _ _ h3 => State.gwFrame_memWf h3) (State.setConn_memWf h1))

theorem execGatewayAck_memWf {p : Fin 36} {d : Dgram} {s : State} (hw : memWf s) : keepsMem (execGatewayAck p d s) := by
  unfold execGatewayAck
  refine keepsMem_next (State.ethIn_memWf hw fun _ h1 => ?_)
  extract_lets
  split
  · exact h1
  · refine memWf_ite h1 (memWf_foldl ?_ (State.setConn_memWf h1))
    intro _ _ h2
    split
    · exact State.resendFlight_memWf h2
    · exact h2

theorem execHello_memWf {p : Fin 36} {d : Dgram} {s : State} (hw : memWf s) : keepsMem (execHello p d s) := by
  unfold execHello
  refine keepsMem_next (State.ethIn_memWf hw fun _ h1 => memWf_ite h1 ?_)
  split
  · exact State.event_memWf h1
  · extract_lets s2
    have h2 : memWf s2 := by
      unfold s2
      split
      · exact h1
      · exact State.setConn_memWf h1
    clear_value s2
    split
    · exact h2
    · exact State.dgram_memWf (State.setConn_memWf h2)

theorem execHelloAck_memWf {p : Fin 36} {d : Dgram} {s : State} (hw : memWf s) : keepsMem (execHelloAck p d s) := by
  unfold execHelloAck
  refine keepsMem_next (State.ethIn_memWf hw fun _ h1 => ?_)
  extract_lets
  split
  · exact h1
  · refine memWf_ite h1 ?_
    split
    · exact State.event_memWf (State.connLost_memWf h1)
    · exact State.setConn_memWf h1

theorem execRetransmissionTimeout_memWf {p : Fin 36}
    {dev psn : Nat} {s : State} (hw : memWf s) : keepsMem (execRetransmissionTimeout p dev psn s) := by
  unfold execRetransmissionTimeout
  refine keepsMem_next ?_
  extract_lets
  split
  · exact hw
  · split
    · exact hw
    · exact memWf_ite hw (memWf_ite (State.event_memWf (State.connLost_memWf hw)) (State.resendFlight_memWf hw))

theorem execRateAdjust_memWf {p : Fin 36} {dev : Nat} {s : State} (hw : memWf s) : keepsMem (execRateAdjust p dev s) := by
  unfold execRateAdjust
  refine keepsMem_next ?_
  extract_lets
  split
  · exact hw
  · exact memWf_ite hw (State.setConn_memWf hw)

theorem execDatagramSend_memWf {p : Fin 36} {s : State} (hw : memWf s) : keepsMem (execDatagramSend p s) := by
  unfold execDatagramSend
  refine keepsMem_next (memWf_ite hw ?_)
  split
  · split
    · exact State.sendReady_memWf (State.setGate_memWf hw)
    · exact hw
  · split
    · exact State.hello_memWf (State.setConn_memWf hw)
    · exact hw

/-! The Datum clock (R351 to R358). -/

theorem execDatumSyncResponse_memWf {p : Fin 36} {hops : BitVec 8} {seq : BitVec 16} {state : BitVec 8} {t1 t2 t3 : Word}
    {master : BitVec 20} {s : State} (hw : memWf s) : keepsMem (execDatumSyncResponse p hops seq state t1 t2 t3 master s) := by
  unfold execDatumSyncResponse
  refine keepsMem_next ?_
  exact memWf_ite hw (memWf_ite (memWf_mk hw) (memWf_ite (memWf_mk hw) (State.exchanged_memWf (memWf_mk (State.set_memWf (memWf_mk hw))))))

theorem execPtpMessage_memWf {p : Fin 36} {v4 : Bool} {ty : BitVec 4} {dom : BitVec 8} {two : Bool} {seq : BitVec 16} {t : Word}
    {ann : PtpAnnounce} {s : State} (hw : memWf s) : keepsMem (execPtpMessage p v4 ty dom two seq t ann s) := by
  unfold execPtpMessage
  refine keepsMem_next (memWf_ite hw (memWf_ite (State.bump_memWf hw) (memWf_ite hw (memWf_ite (State.ptpAnnounce_memWf hw) ?_))))
  refine memWf_ite (memWf_ite hw (State.ptpSend_memWf hw)) (memWf_ite hw (memWf_ite (memWf_ite (memWf_mk hw) (State.ptpSync_memWf hw)) ?_))
  refine memWf_ite ?_ ?_
  · split
    · exact memWf_ite (State.ptpSync_memWf hw) hw
    · exact hw
  · split
    · exact memWf_ite (State.ptpOffset_memWf (memWf_mk hw)) hw
    · exact hw

theorem execPpsOutFall_memWf {s : State} (hw : memWf s) : keepsMem (execPpsOutFall s) := by
  unfold execPpsOutFall
  refine keepsMem_next ?_
  split
  · exact memWf_ite (State.pin_memWf (memWf_mk hw)) hw
  · exact hw

/-! The scrubber (chapter 20). -/

theorem execScrub_memWf {h : Fin 16} {l : Nat} {r : Fin 3} {s : State} (hw : memWf s) : keepsMem (execScrub h l r s) := by
  unfold execScrub
  refine keepsMem_next (memWf_ite hw (memWf_ite (State.sweepFatal_memWf (State.readUnit_memWf hw)) ?_))
  exact memWf_ite (State.lineCe_memWf hw) (memWf_ite (State.sweepFatal_memWf (State.lineUe_memWf hw)) hw)

/-! Hubs (chapter 10). -/

theorem execBucketStalled_memWf {h : Fin 16} {j : Nat} {b : Nat} {s : State} (hw : memWf s) : keepsMem (execBucketStalled h j b s) := by
  unfold execBucketStalled
  refine keepsMem_next ?_
  split
  · exact memWf_ite (State.event_memWf (State.setRctx_memWf hw)) hw
  · exact hw

/-! The boot sequence (chapter 21). -/

theorem execBootImageVerified_memWf {die : Fin 2} {slot : Bool} {svn : BitVec 8} {ok : Bool} {items : List (List Byte)}
    {bench : Bool} {s : State} (hw : memWf s) : keepsMem (execBootImageVerified die slot svn ok items bench s) := by
  unfold execBootImageVerified
  refine keepsMem_next (memWf_ite hw (memWf_ite ?_ ?_))
  · exact State.mainSteps_memWf (memWf_mk (State.measure_memWf (State.measure_memWf (State.set_memWf (State.set_memWf hw)))))
  · exact memWf_ite (memWf_mk hw) (State.chooseActive_memWf (State.romFail_memWf hw))

theorem execMainOk_memWf {level : Bool} {s : State} (hw : memWf s) : keepsMem (execMainOk level s) := by
  unfold execMainOk
  exact keepsMem_next (memWf_ite (memWf_ite (State.mainSteps_memWf (memWf_mk hw)) hw) (memWf_ite (State.mainCut_memWf hw) (memWf_mk hw)))

theorem execDieDiscoveryReport_memWf {d : Fin 64}
    {same selfTest coresOk : Bool} {s : State} (hw : memWf s) : keepsMem (execDieDiscoveryReport d same selfTest coresOk s) := by
  unfold execDieDiscoveryReport
  exact keepsMem_next (memWf_ite hw (State.discovered_memWf (memWf_ite (memWf_mk hw) (State.stepFail_memWf (State.dieFail_memWf (memWf_mk hw))))))

theorem execHbmTrainingComplete_memWf {h : Fin 16} {rate : Fin 4} {s : State} (hw : memWf s) : keepsMem (execHbmTrainingComplete h rate s) := by
  unfold execHbmTrainingComplete
  refine keepsMem_next (memWf_ite hw ?_)
  extract_lets again pw s0 s1 _ trained sh f0 f1 f2 failed _ u v
  have h0 : memWf s0 := memWf_mk hw
  have h1 : memWf s1 := memWf_ite (State.softRepair_memWf h0) h0
  have htrained : memWf trained := State.setStack_memWf (State.set_memWf (State.set_memWf h1))
  have hf1 : memWf f1 := State.event_memWf (State.set_memWf (State.set_memWf h0))
  have hfailed : memWf failed := State.octFail_memWf (memWf_ite hf1 (State.stepFail_memWf hf1))
  have hu : memWf u := by
    refine memWf_ite (memWf_ite (State.event_memWf htrained) htrained) ?_
    cases sh with
    | none => exact hfailed
    | some i => exact State.sweepFatal_memWf (memWf_mk hfailed)
  exact State.relevel_memWf (State.bootPools_memWf (memWf_ite (State.event_memWf hu) hu))

theorem execPhotonicSelfTestComplete_memWf {n : Fin 6} {ok : Bool} {s : State} (hw : memWf s) : keepsMem (execPhotonicSelfTestComplete n ok s) := by
  unfold execPhotonicSelfTestComplete
  refine keepsMem_next ?_
  exact memWf_ite hw (memWf_ite (State.stepFail_memWf hw) (memWf_foldl (fun _ _ h1 => memWf_ite (State.startTraining_memWf h1) h1) (memWf_mk hw)))

theorem execLinkTableVerify_memWf {bad : List (Fin 16 × BitVec 28)} {s : State} (hw : memWf s) : keepsMem (execLinkTableVerify bad s) := by
  unfold execLinkTableVerify
  refine keepsMem_next (memWf_ite hw (State.relevel_memWf (State.event_memWf ?_)))
  exact memWf_foldl (fun _ _ h1 => State.reservedLinks_memWf h1) (memWf_mk (memWf_foldl (fun _ _ h2 => State.linkTableBad_memWf h2) hw))

/-! Power, heat and ageing (chapter 19). -/

theorem execPowerSample_memWf {w mv : BitVec 16} {a : BitVec 10} {s : State} (hw : memWf s) : keepsMem (execPowerSample w mv a s) := by
  unfold execPowerSample
  refine keepsMem_next ?_
  extract_lets s0 s1 s2 n calm _ _ eased begun
  have h2 : memWf s2 := State.restage_memWf (State.set_memWf (State.set_memWf (State.set_memWf (State.newLimits_memWf hw))))
  have hcalm : memWf calm := memWf_ite (State.excursionOver_memWf h2) h2
  have heased : memWf eased := by
    unfold eased
    split
    · exact memWf_ite (memWf_mk h2) h2
    · exact h2
  have hbegun : memWf begun := State.set_memWf (memWf_mk h2)
  clear_value s2
  refine memWf_ite (memWf_mk hcalm) ?_
  split
  · exact memWf_ite (State.throttle_memWf heased) heased
  · exact memWf_ite (memWf_ite (State.throttle_memWf hbegun) hbegun) (State.throttle_memWf (State.excursionOver_memWf h2))

theorem execExcursionEnd_memWf {s : State} (hw : memWf s) : keepsMem (execExcursionEnd s) := by
  unfold execExcursionEnd
  refine keepsMem_next ?_
  split
  · exact memWf_ite (memWf_ite (State.throttle_memWf (State.excursionOver_memWf hw)) (State.excursionOver_memWf hw)) hw
  · exact hw

theorem execThrottleStep_memWf {s : State} (hw : memWf s) : keepsMem (execThrottleStep s) := by
  unfold execThrottleStep
  refine keepsMem_next ?_
  split
  · exact memWf_ite (State.lowerOne_memWf hw) hw
  · exact hw

theorem execClockRaise_memWf {s : State} (hw : memWf s) : keepsMem (execClockRaise s) := by
  unfold execClockRaise
  refine keepsMem_next (memWf_ite hw ?_)
  extract_lets _ r
  have raised {u : State} {c : Bool} (hu : memWf u) : ∀ t ∈ (if c then some u else none), memWf t := by
    simp [hu]
  have hr : ∀ t ∈ r, memWf t :=
    memWf_mem_ite (raised (memWf_mk hw)) (memWf_mem_ite (raised (memWf_mk hw)) (memWf_mem_ite (raised (State.set_memWf hw))
      (memWf_mem_ite (raised (State.set_memWf hw)) (memWf_mem_ite (raised (memWf_mk hw)) (by simp)))))
  clear_value r
  cases r with
  | none => exact hw
  | some t => exact State.restage_memWf (memWf_mk (hr t rfl))

theorem execThermalSample_memWf {d : Fin 70} {t : BitVec 8} {s : State} (hw : memWf s) : keepsMem (execThermalSample d t s) := by
  unfold execThermalSample
  refine keepsMem_next (memWf_ite (memWf_mk hw) (memWf_ite (State.photonicHeat_memWf (memWf_mk hw)) (memWf_ite ?_ ?_)))
  · exact memWf_mk (State.pin_memWf (State.deviceReset_memWf (State.event_memWf (memWf_mk hw))))
  · exact memWf_ite (State.cdHeat_memWf (memWf_mk hw)) (memWf_ite (memWf_mk hw) (State.kindHeat_memWf (memWf_mk hw)))

theorem execHbmTemperatureRead_memWf {h : Fin 16} {d : BitVec 8} {s : State} (hw : memWf s) : keepsMem (execHbmTemperatureRead h d s) := by
  unfold execHbmTemperatureRead
  refine keepsMem_next (memWf_ite hw ?_)
  extract_lets x s1 hot s2 s3
  have h2 : memWf s2 := State.setStack_memWf (State.set_memWf hw)
  have h3 : memWf s3 := memWf_ite (State.heatEvent_memWf (State.event_memWf h2)) h2
  exact memWf_ite (State.restage_memWf (State.coolOctant_memWf h3)) h3

theorem execContourSample_memWf {dies : List (Fin 56 × BitVec 32 × BitVec 16)}
    {eyes : List (Fin 36 × Fin 8 × BitVec 16 × BitVec 16)} {s : State} (hw : memWf s) : keepsMem (execContourSample dies eyes s) := by
  unfold execContourSample
  refine keepsMem_next (memWf_ite hw (memWf_foldl ?_ ?_))
  · exact fun _ _ h1 => memWf_ite h1 (memWf_ite (State.marginLow_memWf (State.readDie_memWf h1)) (State.readDie_memWf h1))
  · exact memWf_foldl (fun _ _ h2 => memWf_ite (State.setReg_memWf h2) h2) (memWf_mk hw)

theorem execContourReplan_memWf {s : State} (hw : memWf s) : keepsMem (execContourReplan s) := by
  unfold execContourReplan
  refine keepsMem_next ?_
  exact memWf_ite hw (memWf_foldl (fun _ _ h1 => memWf_ite h1 (State.set_memWf (State.replanCd_memWf h1))) (State.bump_memWf (memWf_mk hw)))

theorem execRetrainWindow_memWf {s : State} (hw : memWf s) : keepsMem (execRetrainWindow s) := by
  unfold execRetrainWindow
  refine keepsMem_next ?_
  split
  · exact hw
  · refine memWf_ite hw (State.relevel_memWf ?_)
    split
    · exact State.retrain_memWf (memWf_mk (memWf_foldl (fun _ _ h1 => State.setStack_memWf (State.set_memWf h1)) hw))
    · exact memWf_mk (memWf_foldl (fun _ _ h2 => State.setStack_memWf (State.set_memWf h2)) hw)

theorem execLaserInputLow_memWf {n : Fin 6} {low out : BitVec 8} {s : State} (hw : memWf s) : keepsMem (execLaserInputLow n low out s) := by
  unfold execLaserInputLow
  refine keepsMem_next (memWf_foldl ?_ (memWf_mk hw))
  intro _ _ h1
  refine memWf_ite h1 (State.retrain_memWf ?_)
  split
  · exact memWf_mk h1
  · exact h1

/-! Sheets and contexts (chapter 13). -/

theorem execContextSwitchStart_memWf {i : Fin 8} {s : State} (hw : memWf s) : keepsMem (execContextSwitchStart i s) := by
  unfold execContextSwitchStart
  refine keepsMem_next ?_
  split
  · refine memWf_ite hw (State.setSheet_memWf ?_)
    split
    · exact memWf_ite (State.setCtx_memWf hw) hw
    · exact hw
  · exact hw

theorem execContextSwitchComplete_memWf {i : Fin 8} {s : State} (hw : memWf s) : keepsMem (execContextSwitchComplete i s) := by
  unfold execContextSwitchComplete
  refine keepsMem_next ?_
  split
  · exact State.switchDone_memWf hw
  · exact hw

theorem execKernelWatchdog_memWf {i : Fin 8} {c : Fin 16} {s : State} (hw : memWf s) : keepsMem (execKernelWatchdog i c s) := by
  unfold execKernelWatchdog
  refine keepsMem_next ?_
  split
  · exact hw
  · refine memWf_ite hw ?_
    split
    · exact memWf_ite (State.drainAll_memWf (State.watchdogEvent_memWf (memWf_foldl (fun _ _ h1 => State.coreKill_memWf h1) hw))) hw
    · exact State.schedule_memWf (State.watchdogEvent_memWf (State.setCtx_memWf hw))

theorem execSemHoldExpired_memWf {i : Fin 8} {n : Fin 256} {s : State} (hw : memWf s) : keepsMem (execSemHoldExpired i n s) := by
  unfold execSemHoldExpired
  refine keepsMem_next ?_
  split
  · exact hw
  · refine memWf_ite hw ?_
    extract_lets s1 s2
    have h2 : memWf s2 := State.event_memWf (State.bump_memWf (State.semRelease_memWf hw))
    split
    · exact h2
    · refine memWf_ite (State.drainAll_memWf (State.stopKernel_memWf ?_)) ?_
      · exact memWf_ite (State.coreKill_memWf h2) (State.noteFault_memWf h2)
      · exact memWf_ite (State.schedule_memWf (State.setCtx_memWf h2)) (State.setCtx_memWf h2)

theorem execComposerPoll_memWf {i : Fin 8} {s : State} (hw : memWf s) : keepsMem (execComposerPoll i s) := by
  unfold execComposerPoll
  refine keepsMem_next ?_
  split
  · exact memWf_ite (State.compose_memWf (State.setSheet_memWf hw)) hw
  · exact hw

/-! Register writes (R7, R460). -/

theorem execRegisterWrite_memWf {x : Writer} {a : BitVec 44} {n : BitVec 16}
    {w : Word} {s : State} (hw : memWf s) : keepsMem (execRegisterWrite x a n w s) := by
  unfold execRegisterWrite
  refine keepsMem_next ?_
  split
  · exact State.hostWrite_memWf hw
  · split
    · refine memWf_ite ?_ hw
      split
      · exact State.regWrite_memWf hw
      · exact hw
    · exact hw
  · split
    · exact memWf_ite (State.coreRegWrite_memWf hw) hw
    · exact hw

/-! The commitment of a contribution (R306). -/

theorem execRaccCommit_memWf {h : Fin 16} {s : State} (hw : memWf s) : keepsMem (execRaccCommit h s) := by
  unfold execRaccCommit
  refine keepsMem_next ?_
  split
  · exact hw
  · exact State.acceptKept_memWf (State.after_memWf (State.drained_memWf (State.acked_memWf (State.raccCommit_memWf hw))))

/-! The remote memory endpoint (chapter 2). -/

theorem execResponseFrame_memWf {f : Frame} {s : State} (hw : memWf s) : keepsMem (execResponseFrame f s) := by
  unfold execResponseFrame
  refine keepsMem_next (State.answerIn_memWf hw fun _ h1 => ?_)
  split
  · exact h1
  · refine memWf_ite (State.resolve_memWf h1) ?_
    extract_lets s2 s3
    have h2 : memWf s2 := State.keepBlock_memWf h1
    have h3 : memWf s3 := by
      unfold s3
      split
      · exact State.installFill_memWf h2
      · exact h2
    clear_value s3
    split
    · exact State.resolve_memWf (State.access_memWf h3)
    · exact State.resolve_memWf h3

theorem execNack_memWf {f : Frame} {s : State} (hw : memWf s) : keepsMem (execNack f s) := by
  unfold execNack
  refine keepsMem_next (State.answerIn_memWf hw fun _ h1 => memWf_ite ?_ ?_)
  · split
    · exact State.notParent_memWf h1
    · exact h1
  · split
    · exact h1
    · exact memWf_mk h1

theorem execReplayIntervalExpiry_memWf {i : Fin 8} {a : Fin 512} {j : BitVec 16} {d : BitVec 20}
    {n : Nat} {s : State} (hw : memWf s) : keepsMem (execReplayIntervalExpiry i a j d n s) := by
  unfold execReplayIntervalExpiry
  refine keepsMem_next ?_
  split
  · exact memWf_ite (State.resend_memWf hw) hw
  · exact hw

theorem execRetryBackoffExpiry_memWf {i : Fin 8} {a : Fin 512} {j : BitVec 16} {d : BitVec 20}
    {n : Nat} {s : State} (hw : memWf s) : keepsMem (execRetryBackoffExpiry i a j d n s) := by
  unfold execRetryBackoffExpiry
  refine keepsMem_next ?_
  split
  · exact memWf_ite (State.resend_memWf hw) hw
  · exact hw

theorem execOpTimeout_memWf {i : Fin 8} {a : Fin 512} {j : BitVec 16} {d : BitVec 20}
    {n : Nat} {s : State} (hw : memWf s) : keepsMem (execOpTimeout i a j d n s) := by
  unfold execOpTimeout
  refine keepsMem_next ?_
  split
  · exact memWf_ite (State.after_memWf (State.timeOut_memWf hw)) hw
  · exact hw

theorem execStalledIssueResume_memWf {i : Fin 8} {a : Fin 512} {s : State} (hw : memWf s) : keepsMem (execStalledIssueResume i a s) := by
  unfold execStalledIssueResume
  have h1 : memWf ((s.ep.ops.filter fun o : RemoteOp => o.key.sheet == i.val && o.key.agent == a.val && !o.todo.isEmpty).foldl
      (fun s o => s.pump o.id) s) := memWf_foldl (fun _ _ hw => State.pump_memWf hw) hw
  exact keepsMem_next (State.after_memWf (memWf_ite (State.resumeIssue_memWf (State.settle_memWf h1)) h1))

/-! Attestation and sessions (chapter 18). -/

theorem execPeerAttestPhase_memWf {dev : BitVec 20} {d : List Byte}
    {ok : Bool} {s : State} (hw : memWf s) : keepsMem (execPeerAttestPhase dev d ok s) := by
  unfold execPeerAttestPhase
  refine keepsMem_next (memWf_ite hw ?_)
  extract_lets known origin
  clear_value known
  split
  · exact memWf_ite (State.sendPhase_memWf (State.setAttest_memWf hw)) hw
  · refine memWf_ite hw ?_
    exact memWf_ite (State.sendPhase_memWf (State.setAttest_memWf hw)) (State.untrusted_memWf hw)
  · refine memWf_ite hw ?_
    exact memWf_ite (State.sendPhase_memWf (State.setAttest_memWf hw)) (State.untrusted_memWf hw)
  · refine memWf_ite hw (memWf_ite ?_ (State.untrusted_memWf hw))
    split
    · exact State.final_memWf (State.draw_memWf (State.setJob_memWf (State.setAttest_memWf hw)))
    · exact State.draw_memWf (State.setJob_memWf (State.setAttest_memWf hw))
  · exact hw

theorem execKeyExchange_memWf {x : Source} {id : BitVec 32} {s : State} (hw : memWf s) : keepsMem (execKeyExchange x id s) := by
  unfold execKeyExchange
  exact keepsMem_next (State.spdmAt_memWf hw (fun _ h1 => memWf_ite (State.spdmError_memWf h1) (State.signed_memWf (memWf_mk h1))))

theorem execFinishMsg_memWf {x : Source} {id : BitVec 32} {key : List Byte}
    {ok : Bool} {s : State} (hw : memWf s) : keepsMem (execFinishMsg x id key ok s) := by
  unfold execFinishMsg
  refine keepsMem_next ?_
  split
  · exact State.spdmError_memWf hw
  · exact memWf_ite (State.spdmError_memWf hw) (memWf_ite (State.spdmError_memWf (State.endSession_memWf hw)) (State.spdm_memWf (memWf_mk hw)))

theorem execEndSession_memWf {x : Source} {id : BitVec 32} {s : State} (hw : memWf s) : keepsMem (execEndSession x id s) := by
  unfold execEndSession
  refine keepsMem_next ?_
  split
  · exact memWf_ite (State.spdm_memWf (State.endSession_memWf hw)) (State.spdmError_memWf hw)
  · exact State.spdmError_memWf hw

/-! Timed launches (R359 to R362). -/

theorem execLaunchAtStamp_memWf {ok : Bool} {chunk : List Byte} {s : State} (hw : memWf s) : keepsMem (execLaunchAtStamp ok chunk s) := by
  unfold execLaunchAtStamp
  refine keepsMem_next ?_
  split
  · exact memWf_ite (State.beginLaunch_memWf (memWf_mk hw)) hw
  · exact hw

/-- Every command answers a next state, and its memory keeps the canonical form. -/
theorem exec_memWf (i : Instr) {s : State} (hw : memWf s) : keepsMem (exec i s) := by
  cases i with
  | rld | ratom => exact keepsMem_next (State.sysStep_memWf hw fun _ _ h1 => State.remoteGo_memWf h1)
  | rst => exact execRst_memWf hw
  | fence => exact execFence_memWf hw
  | raccDesc | bulkCopy | invalidate | fenceDescriptor | notifyDesc => exact keepsMem_next (State.rmoTake_memWf hw)
  | loadRequest | storeRequest | atomicRequest | raccRequest | invalidateRequest | notifyRequest => exact keepsMem_next (State.request_memWf hw)
  | bulkCopyPut => exact keepsMem_next (memWf_ite hw (State.request_memWf hw))
  | bulkCopyGet => exact keepsMem_next (memWf_ite (State.request_memWf hw) hw)
  | responseFrame => exact execResponseFrame_memWf hw
  | acknowledgement => exact keepsMem_next (State.answerIn_memWf hw fun _ h1 => memWf_foldl (fun _ _ h2 => State.resolve_memWf h2) h1)
  | nack => exact execNack_memWf hw
  | replayIntervalExpiry => exact execReplayIntervalExpiry_memWf hw
  | retryBackoffExpiry => exact execRetryBackoffExpiry_memWf hw
  | opTimeout => exact execOpTimeout_memWf hw
  | stalledIssueResume => exact execStalledIssueResume_memWf hw
  | queueAccept => exact keepsMem_next (State.acceptKept_memWf hw)
  | regionSet => exact keepsMem_packet bodyRegionSet_memWf hw
  | rlcCtlFlush => exact keepsMem_next (State.flushRlc_memWf hw)
  | rmoFaultInfo | rgdViolInfo | svyFaultInfo | trvFaultInfo | pltFaultInfo | bpmBadptrInfo | movFaultInfo | coreFaultInfo | movQntStatus
  | nmaErrInfo | mhbUeInfo | swcDropInfo | fptViolInfo | ctcFailInfo => exact keepsMem_next (State.rearm_memWf hw)
  | registerWrite => exact execRegisterWrite_memWf hw
  | layerSet => exact keepsMem_packet bodyLayerSet_memWf hw
  | gazetteerWrite => exact keepsMem_packet bodyGazetteerWrite_memWf hw
  | csetWrite => exact keepsMem_packet bodyCsetWrite_memWf hw
  | expertDirWrite => exact keepsMem_packet bodyExpertDirWrite_memWf hw
  | tableCommit => exact keepsMem_packet bodyTableCommit_memWf hw
  | tableCommitSwitch => exact keepsMem_packet State.tableCommit_memWf hw
  | drainingComplete | syncingComplete => exact keepsMem_next (memWf_ite (State.setRouting_memWf hw) (memWf_ite (State.setRouting_memWf hw) hw))
  | surveySubmission => exact keepsMem_next (State.surveyTake_memWf hw)
  | surveyComplete => exact execSurveyComplete_memWf hw
  | svyCtlFlushGvc => exact keepsMem_next (State.flushGvc_memWf hw)
  | gazCtlFlush => exact keepsMem_next (State.flushGaz_memWf hw)
  | censusRecord => exact keepsMem_next (State.record_memWf hw fun _ _ _ h1 => State.censusFrame_memWf h1)
  | censusTimeout => exact execCensusTimeout_memWf hw
  | grantCompute => exact execGrantCompute_memWf hw
  | grantRecord => exact keepsMem_next (State.record_memWf hw fun _ _ _ h1 => State.grantRecord_memWf h1)
  | landingRecord => exact keepsMem_next (State.record_memWf hw fun _ _ _ h1 => State.landingRecord_memWf h1)
  | grantTimeout => exact execGrantTimeout_memWf hw
  | reservationTimeout => exact execReservationTimeout_memWf hw
  | epochOpen => exact execEpochOpen_memWf hw
  | exchangeDesc => exact execExchangeDesc_memWf hw
  | receiveDesc => exact execReceiveDesc_memWf hw
  | returnDesc => exact execReturnDesc_memWf hw
  | epochClose => exact execEpochClose_memWf hw
  | cancel => exact keepsMem_next (State.trvTake_memWf hw fun _ _ h1 => State.cancelBegin_memWf h1)
  | replayDesc => exact execReplayDesc_memWf hw
  | cancelBatch => exact keepsMem_packet bodyCancelBatch_memWf hw
  | plottingDescriptor => exact keepsMem_next (State.plotTake_memWf hw)
  | plottingComplete => exact keepsMem_next (State.plotComplete_memWf hw)
  | keyCounts | failureNotice => exact keepsMem_next (State.deliverNext_memWf hw)
  | wave0Start => exact execWave0Start_memWf hw
  | exchangeTimeout => exact execExchangeTimeout_memWf hw
  | receiveMissing => exact execReceiveMissing_memWf hw
  | partSend => exact execPartSend_memWf hw
  | skipRecord => exact keepsMem_next (State.record_memWf hw fun _ _ _ h1 => State.skipRecord_memWf h1)
  | cancelRecord => exact keepsMem_next (State.record_memWf hw fun _ _ _ h1 => State.cancelRecord_memWf (State.relayCancel_memWf h1))
  | returnTimeout => exact execReturnTimeout_memWf hw
  | reuseIntervalExpiry => exact keepsMem_next (memWf_ite (State.freeEpoch_memWf (State.quarantineEpoch_memWf (State.misclosure_memWf hw))) hw)
  | relayManifest => exact keepsMem_next (State.record_memWf hw fun _ _ _ h1 => State.manifestFrame_memWf h1)
  | relayForward => exact execRelayForward_memWf hw
  | relayTimeout => exact execRelayTimeout_memWf hw
  | poolCreate => exact keepsMem_packet bodyPoolCreate_memWf hw
  | poolSetMode => exact keepsMem_packet bodyPoolSetMode_memWf hw
  | poolSetThresh => exact keepsMem_packet bodyPoolSetThresh_memWf hw
  | poolUnquarantine => exact keepsMem_packet bodyPoolUnquarantine_memWf hw
  | poolDestroy => exact keepsMem_packet bodyPoolDestroy_memWf hw
  | poolStartingComplete => exact execPoolStartingComplete_memWf hw
  | poolStoppingDrained | poolTeardownTimeout => exact keepsMem_next (memWf_ite (State.poolFinish_memWf hw) hw)
  | allocChain | allocExtent | append | acquire | release | allocSized | freeSized => exact keepsMem_next (State.poolRequest_memWf hw)
  | poolRequestServed => exact execPoolRequestServed_memWf hw
  | poolRequestTimeout => exact execPoolRequestTimeout_memWf hw
  | bpmPoolCount0 => exact keepsMem_next (State.poolCapture_memWf hw)
  | bpmPoolThresh => exact keepsMem_next (State.threshWrite_memWf hw)
  | copyDesc => exact execCopyDesc_memWf hw
  | gatherRows => exact execGatherRows_memWf hw
  | gatherCols => exact execGatherCols_memWf hw
  | compress => exact execCompress_memWf hw
  | decompress => exact execDecompress_memWf hw
  | selectDesc => exact execSelectDesc_memWf hw
  | predCheck => exact execPredCheck_memWf hw
  | guestContextSwitch | chartroomHeartbeat => exact keepsMem_next (memWf_ite (memWf_mk hw) hw)
  | nop | add | sub | mul | mulhu | mulhs | divu | remu | divs | rems | andInstr | orInstr | xorInstr | shl | shr | sar | minu | maxu | mins
  | maxs | sltu | slts | seq | sel | addi | andi | ori | xori | shli | shri | sari | ldi | fadd | fsub | fmul | ffma | fmin | fmax | fcmp
  | fcvt | beq | bne | blts | bges | bltu | bgeu | call | jr | popc | clz | ctz | rotr | bext | bins | bswap | hash | brev | vadd | vsub
  | vmul | vfma | vmin | vmax | vabs | vneg | vcmp | vsel | vcvt | vbc | viota | vextr | pcnt | plog | vexp | vlog | vrcp | vrsqrt | vsigm
  | vtanh | verf | vsqrt | vrsum | vrmax | vrmin | vand | vor | vxor | vshift => exact keepsMem_next (State.coreStep_memWf hw)
  | lds => exact execLds_memWf hw
  | sts => exact execSts_memWf hw
  | vld => exact execVld_memWf hw
  | vst => exact execVst_memWf hw
  | vlds => exact execVlds_memWf hw
  | vsts => exact execVsts_memWf hw
  | wld | mpass | accrd | accz => exact keepsMem_next (State.enqueue_memWf hw)
  | waitge | waitne => exact keepsMem_next (State.waitOp_memWf hw)
  | waitTimeout => exact execWaitTimeout_memWf hw
  | sacq => exact execSacq_memWf hw
  | srel => exact execSrel_memWf hw
  | submit => exact execSubmit_memWf hw
  | mvi => exact execMvi_memWf hw
  | mvwait => exact keepsMem_next (State.sysStep_memWf hw fun _ _ h1 => memWf_ite (State.setCore_memWf h1) (State.setCore_memWf h1))
  | endInstr => exact keepsMem_next (State.sysStep_memWf hw (fun _ _ h1 => memWf_ite h1 (State.drainStep_memWf (State.setCore_memWf h1))))
  | rds => exact keepsMem_next (State.draw_memWf (State.sysStep_memWf hw fun _ _ h1 => State.setCore_memWf h1))
  | wrs => exact keepsMem_next (State.sysStep_memWf hw fun _ _ h1 => State.setCore_memWf h1)
  | breakInstr => exact keepsMem_next (State.sysStep_memWf hw fun _ _ h1 => State.coreFault_memWf h1)
  | quantize => exact execQuantize_memWf hw
  | updateDesc => exact execUpdateDesc_memWf hw
  | prune => exact execPrune_memWf hw
  | movQntSubmit => exact keepsMem_next (memWf_ite (State.qntSubmit_memWf hw) hw)
  | recipeSet => exact keepsMem_packet bodyRecipeSet_memWf hw
  | hchRecipe => exact keepsMem_next (State.recipeWrite_memWf hw)
  | hchCtlEvalNow => exact keepsMem_next (State.evalNow_memWf hw)
  | hchStatus => exact keepsMem_next (State.haltWrite_memWf hw)
  | bucketDefine => exact keepsMem_packet bodyBucketDefine_memWf hw
  | bucketUndefine => exact keepsMem_packet bodyBucketUndefine_memWf hw
  | hbmRepair => exact keepsMem_packet bodyHbmRepair_memWf hw
  | raccCommit => exact execRaccCommit_memWf hw
  | partDone => exact keepsMem_next (State.partArrives_memWf hw)
  | bucketStalled => exact execBucketStalled_memWf hw
  | nmaCtxAccepted => exact keepsMem_next (State.ctxCapture_memWf hw)
  | hbmTemperatureRead => exact execHbmTemperatureRead_memWf hw
  | perBankRefresh | recalibration => exact keepsMem_next (memWf_ite (State.setStack_memWf hw) hw)
  | scrub => exact execScrub_memWf hw
  | groupDefine => exact keepsMem_packet bodyGroupDefine_memWf hw
  | groupUndefine => exact keepsMem_packet bodyGroupUndefine_memWf hw
  | collectiveLaunch => exact keepsMem_packet bodyCollectiveLaunch_memWf hw
  | collectiveStatus => exact keepsMem_packet bodyCollectiveStatus_memWf hw
  | collectiveAdmit => exact execCollectiveAdmit_memWf hw
  | pendingLaunchTimeout => exact execPendingLaunchTimeout_memWf hw
  | atDatumTrigger => exact execAtDatumTrigger_memWf hw
  | collectiveCredit => exact execCollectiveCredit_memWf hw
  | collectiveChunk => exact execCollectiveChunk_memWf hw
  | collectiveTimeout => exact execCollectiveTimeout_memWf hw
  | treeStart => exact keepsMem_packet bodyTreeStart_memWf hw
  | treeReparent => exact keepsMem_packet bodyTreeReparent_memWf hw
  | treeEnd => exact keepsMem_packet bodyTreeEnd_memWf hw
  | treeChunkComplete => exact execTreeChunkComplete_memWf hw
  | treeKeepalive => exact execTreeKeepalive_memWf hw
  | orphaned => exact execOrphaned_memWf hw
  | resumeRecord => exact execResumeRecord_memWf hw
  | childLost => exact execChildLost_memWf hw
  | determinismSet => exact keepsMem_packet bodyDeterminismSet_memWf hw
  | launchAt => exact keepsMem_packet bodyLaunchAt_memWf hw
  | launchAtStamp => exact execLaunchAtStamp_memWf hw
  | datumSyncTimer => exact keepsMem_next (memWf_ite hw (State.send_memWf (memWf_mk hw)))
  | datumSyncRequest => exact keepsMem_next (memWf_ite hw (State.send_memWf hw))
  | datumSyncResponse => exact execDatumSyncResponse_memWf hw
  | datumHoldover => exact keepsMem_next (memWf_ite (State.loseReference_memWf hw) hw)
  | holdoverTimeout => exact keepsMem_next (memWf_ite (State.setDtm_memWf hw) hw)
  | ptpMessage => exact execPtpMessage_memWf hw
  | datumPpsIn => exact keepsMem_next (memWf_ite (State.ppsEdge_memWf (State.setReg_memWf hw)) (State.setReg_memWf hw))
  | datumPpsOut => exact keepsMem_next (memWf_ite (State.pin_memWf (memWf_mk hw)) hw)
  | ppsOutFall => exact execPpsOutFall_memWf hw
  | sheetCreate => exact keepsMem_packet bodySheetCreate_memWf hw
  | sheetDestroy => exact keepsMem_packet bodySheetDestroy_memWf hw
  | sheetStartingComplete => exact keepsMem_next (memWf_ite (State.sheetStarted_memWf hw) hw)
  | sheetStoppingComplete => exact keepsMem_next (memWf_ite (State.sheetStopped_memWf hw) hw)
  | contextCreate => exact keepsMem_packet bodyContextCreate_memWf hw
  | contextDestroy => exact keepsMem_packet bodyContextDestroy_memWf hw
  | contextResume => exact keepsMem_packet bodyContextResume_memWf hw
  | kernelDoorbell => exact keepsMem_packet bodyKernelDoorbell_memWf hw
  | serveSet => exact keepsMem_packet bodyServeSet_memWf hw
  | contextSwitchStart => exact execContextSwitchStart_memWf hw
  | contextSwitchComplete => exact execContextSwitchComplete_memWf hw
  | kernelWatchdog => exact execKernelWatchdog_memWf hw
  | semHoldExpired => exact execSemHoldExpired_memWf hw
  | composerPoll => exact execComposerPoll_memWf hw
  | frameIngress => exact keepsMem_next (memWf_ite (memWf_ite (State.linkIn_memWf hw) hw) (memWf_ite (State.switchIn_memWf hw) hw))
  | outputArbitration => exact execOutputArbitration_memWf hw
  | switchTableWrite => exact keepsMem_packet bodySwitchTableWrite_memWf hw
  | switchExcWrite => exact keepsMem_packet bodySwitchExcWrite_memWf hw
  | switchTableActivation => exact execSwitchTableActivation_memWf hw
  | shadowCopyComplete => exact execShadowCopyComplete_memWf hw
  | drainComplete | drainTimeout => exact keepsMem_next (State.endDrains_memWf hw)
  | portEnable => exact keepsMem_packet bodyPortEnable_memWf hw
  | portDisable => exact keepsMem_packet bodyPortDisable_memWf hw
  | portRetrain => exact keepsMem_packet bodyPortRetrain_memWf hw
  | portUnquarantine => exact keepsMem_packet bodyPortUnquarantine_memWf hw
  | portInject => exact keepsMem_packet bodyPortInject_memWf hw
  | trainingComplete => exact keepsMem_next (memWf_ite (State.portGoUp_memWf hw) hw)
  | trainingTimeout => exact keepsMem_next (memWf_ite (State.portTrainFail_memWf hw) hw)
  | laneLockLoss => exact keepsMem_next (memWf_ite (State.retrain_memWf (State.set_memWf hw)) hw)
  | retrainingComplete => exact execRetrainingComplete_memWf hw
  | retrainingTimeout => exact keepsMem_next (memWf_ite (State.contourPort_memWf (State.portFail_memWf hw)) hw)
  | portStoppingDrained => exact execPortStoppingDrained_memWf hw
  | creditBlock => exact keepsMem_next (State.blockIn_memWf hw fun _ h1 => memWf_ite (State.setPort_memWf h1) (State.violation_memWf h1))
  | ackBlock => exact execAckBlock_memWf hw
  | retryReq => exact execRetryReq_memWf hw
  | violNack | keepalive | disableMsg => exact keepsMem_next (State.blockIn_memWf hw fun _ h1 => h1)
  | auditMark => exact keepsMem_next (State.blockIn_memWf hw (fun _ h1 => State.block_memWf (State.set_memWf (State.set_memWf h1))))
  | auditReturn => exact execAuditReturn_memWf hw
  | trainMsg => exact execTrainMsg_memWf hw
  | linkAckTimer => exact keepsMem_next (memWf_ite hw (memWf_ite (State.block_memWf (State.setPort_memWf hw)) (State.linkAck_memWf hw)))
  | fptAuditStart => exact keepsMem_next (State.auditWrite_memWf hw)
  | fptCtl => exact keepsMem_next (State.writeFptCtl_memWf hw)
  | deviceIdSet => exact keepsMem_packet bodyDeviceIdSet_memWf hw
  | jobmapWrite => exact keepsMem_packet bodyJobmapWrite_memWf hw
  | gatewaySet => exact keepsMem_packet bodyGatewaySet_memWf hw
  | peerWrite => exact keepsMem_packet bodyPeerWrite_memWf hw
  | gatewayEgress => exact execGatewayEgress_memWf hw
  | wcWindowTimeout => exact keepsMem_next (memWf_foldl (fun _ _ h1 => State.flush_memWf h1) hw)
  | readBufferExpiry => exact keepsMem_next (State.setGate_memWf hw)
  | gatewayData => exact execGatewayData_memWf hw
  | gatewayAck => exact execGatewayAck_memWf hw
  | hello => exact execHello_memWf hw
  | helloAck => exact execHelloAck_memWf hw
  | closeMsg => exact keepsMem_next (State.ethIn_memWf hw fun _ h1 => State.connLost_memWf h1)
  | gatewayAckTimer => exact keepsMem_next (memWf_foldl (fun _ _ h1 => State.gwAck_memWf h1) hw)
  | retransmissionTimeout => exact execRetransmissionTimeout_memWf hw
  | rateAdjust => exact execRateAdjust_memWf hw
  | datagramSend => exact execDatagramSend_memWf hw
  | nopCommand => exact keepsMem_packet bodyNop_memWf hw
  | deviceInfo => exact keepsMem_packet bodyDeviceInfo_memWf hw
  | regWrite => exact keepsMem_packet bodyRegWrite_memWf hw
  | chartroomFailover => exact keepsMem_packet bodyChartroomFailover_memWf hw
  | deviceReset => exact keepsMem_packet bodyDeviceReset_memWf hw
  | deviceResetBegin => exact execDeviceResetBegin_memWf hw
  | sheetReset => exact keepsMem_packet bodySheetReset_memWf hw
  | telemetrySet => exact keepsMem_packet bodyTelemetrySet_memWf hw
  | telemetryRead => exact keepsMem_packet bodyTelemetryRead_memWf hw
  | levelRead => exact keepsMem_packet bodyLevelRead_memWf hw
  | levelSample => exact keepsMem_next (memWf_ite hw (memWf_mk (State.telemetry_memWf (State.draw_memWf hw))))
  | heartbeatTimeout => exact keepsMem_next (memWf_ite (State.takeover_memWf hw) hw)
  | chtRingCfg => exact keepsMem_next (State.ringCfg_memWf hw)
  | cmdTail => exact keepsMem_next (State.cmdTail_memWf hw)
  | replyHead => exact keepsMem_next (State.replyHead_memWf hw)
  | jobAdmit => exact keepsMem_packet bodyJobAdmit_memWf hw
  | jobTeardown => exact keepsMem_packet bodyJobTeardown_memWf hw
  | teardownStepDone => exact keepsMem_next (State.jobGo_memWf hw)
  | teardownWaitLimit => exact keepsMem_next (State.jobAbandon_memWf hw)
  | peerAttest => exact keepsMem_packet bodyPeerAttest_memWf hw
  | peerAttestPhase => exact execPeerAttestPhase_memWf hw
  | debugUnlock => exact keepsMem_packet bodyDebugUnlock_memWf hw
  | debugLock => exact keepsMem_packet bodyDebugLock_memWf hw
  | debugTokenExpiry => exact keepsMem_next (memWf_ite (State.setDebug_memWf hw) hw)
  | certRead => exact keepsMem_packet bodyCertRead_memWf hw
  | memImport => exact keepsMem_packet bodyMemImport_memWf hw
  | memExport => exact keepsMem_packet bodyMemExport_memWf hw
  | ownerRecord => exact keepsMem_next (memWf_ite (State.event_memWf hw) (memWf_mk hw))
  | getVersion => exact keepsMem_next (State.spdm_memWf (memWf_mk hw))
  | getCapabilities | negotiateAlgorithms => exact keepsMem_next (State.spdmAt_memWf hw fun _ h1 => State.spdm_memWf (memWf_mk h1))
  | getDigests | getCertificate => exact keepsMem_next (State.spdmAt_memWf hw fun _ h1 => State.spdm_memWf h1)
  | challengeMsg | getMeasurements => exact keepsMem_next (State.spdmAt_memWf hw fun _ h1 => State.signed_memWf h1)
  | keyExchange => exact execKeyExchange_memWf hw
  | finishMsg => exact execFinishMsg_memWf hw
  | heartbeatMsg | keyUpdate => exact keepsMem_next (State.inSession_memWf hw)
  | endSession => exact execEndSession_memWf hw
  | powerLimitSet => exact keepsMem_packet bodyPowerLimitSet_memWf hw
  | overlayLoad => exact keepsMem_packet bodyOverlayLoad_memWf hw
  | overlayClear => exact keepsMem_packet bodyOverlayClear_memWf hw
  | contourReport => exact keepsMem_packet bodyContourReport_memWf hw
  | retrainSchedule => exact keepsMem_packet bodyRetrainSchedule_memWf hw
  | powerSample => exact execPowerSample_memWf hw
  | excursionEnd => exact execExcursionEnd_memWf hw
  | throttleStep => exact execThrottleStep_memWf hw
  | clockRaise => exact execClockRaise_memWf hw
  | inputUndervolt => exact keepsMem_next (State.event_memWf (State.restage_memWf (State.set_memWf (State.set_memWf (memWf_mk hw)))))
  | mainPowerCut => exact keepsMem_next (memWf_ite (State.mainCut_memWf hw) hw)
  | overcurrent => exact keepsMem_next (memWf_ite hw (memWf_mk (State.powerOff_memWf (State.pin_memWf (State.event_memWf hw)))))
  | thermalSample => exact execThermalSample_memWf hw
  | contourSample => exact execContourSample_memWf hw
  | contourReplan => exact execContourReplan_memWf hw
  | retrainWindow => exact execRetrainWindow_memWf hw
  | laserInputLow => exact execLaserInputLow_memWf hw
  | closureCheck => exact keepsMem_packet bodyClosureCheck_memWf hw
  | eventRead => exact keepsMem_packet bodyEventRead_memWf hw
  | diagRead => exact keepsMem_packet bodyDiagRead_memWf hw
  | fmReportSend => exact keepsMem_next (memWf_ite hw (memWf_foldl (fun _ _ h1 => State.send_memWf h1) (memWf_mk hw)))
  | standbyPowerValid => exact keepsMem_next (memWf_ite hw (State.resetDone_memWf (State.bootStart_memWf hw)))
  | mainOk => exact execMainOk_memWf hw
  | mainOkTimeout => exact keepsMem_next (memWf_ite (memWf_mk (State.set_memWf (State.set_memWf (State.pin_memWf hw)))) hw)
  | mainRailDischarged => exact keepsMem_next (memWf_ite hw (State.requestMain_memWf (memWf_mk hw)))
  | dieDiscoveryTimeout => exact keepsMem_next (memWf_ite hw (State.discovered_memWf (State.stepFail_memWf (State.dieFail_memWf hw))))
  | hbmTrainingComplete => exact execHbmTrainingComplete_memWf hw
  | linkTableVerify => exact execLinkTableVerify_memWf hw
  | level0Deadline => exact keepsMem_next (memWf_ite (State.chooseActive_memWf (memWf_mk hw)) hw)
  | resetN => exact keepsMem_next (memWf_ite (State.deviceReset_memWf hw) hw)
  | perst | functionLevelReset => exact keepsMem_next (State.functionReset_memWf hw)
  | coldReset => exact keepsMem_next (State.wiped_memWf hw)
  | matrixQueueStart => exact execMatrixQueueStart_memWf hw
  | weightLoadComplete => exact execWeightLoadComplete_memWf hw
  | moverComplete => exact execMoverComplete_memWf hw
  | quantizerComplete => exact execQuantizerComplete_memWf hw
  | unquarantineHandshakeTimeout => exact keepsMem_next (memWf_ite (State.portFail_memWf hw) hw)
  | spdmSessionTimeout => exact keepsMem_next (State.endSession_memWf hw)
  | pldmFirmwareUpdate => exact keepsMem_next (memWf_ite hw (memWf_ite (memWf_mk hw) (memWf_ite (memWf_mk hw) (memWf_mk hw))))
  | bootImageVerified => exact execBootImageVerified_memWf hw
  | photonicSelfTestComplete => exact execPhotonicSelfTestComplete_memWf hw
  | dieDiscoveryReport => exact execDieDiscoveryReport_memWf hw

/-- Settles O53: the tick keeps the form, and so does the command in front of the queue. -/
theorem memoryInvariant : Obligations.MemoryInvariant := by
  intro s t hw hstep
  unfold step at hstep
  split at hstep
  case h_1 =>
    cases hstep
    exact State.tick_memWf hw
  case h_2 i rest _ =>
    obtain ⟨u, hu, hmem⟩ := exec_memWf i (s := { s with pending := rest }) (memWf_mk hw)
    cases hu.symm.trans hstep
    exact hmem

end Sys2Proof.Machine
end

section
/-! Compressed tiles (R191 to R193): a tile is its legend, its bitmap and its values one after another, so each field that the expander reads is found
where the compressor wrote it. -/

namespace Sys2Proof.Machine

/-! Fields of a byte string. -/

@[simp] theorem leBytes_length (n x : Nat) : (leBytes n x).length = n := by
  induction n generalizing x with
  | zero => rfl
  | succ n ih => simp [leBytes, ih]

theorem leNat_leBytes (n x : Nat) : leNat (leBytes n x) = x % 256 ^ n := by
  induction n generalizing x with
  | zero => simp [leBytes, leNat, Nat.mod_one]
  | succ n ih => rw [leBytes, leNat, ih, BitVec.toNat_ofNat, show (2 : Nat) ^ 8 = 256 from rfl, Nat.pow_succ', Nat.mod_mul]

theorem uAt_append_zero {a b : List Byte} {n : Nat} (h : a.length = n) : uAt (a ++ b) 0 n = leNat a := by
  simp [uAt, ← h]

theorem uAt_append_add {a b : List Byte} {m o n : Nat} (h : a.length = m) : uAt (a ++ b) (m + o) n = uAt b o n := by
  simp [uAt, ← h, ← List.drop_drop]

theorem uAt_append_one {a b : List Byte} {o : Nat} (h : o < a.length) : uAt (a ++ b) o 1 = (a.getD o 0).toNat := by
  rw [uAt, List.drop_append_of_le_length (Nat.le_of_lt h), List.drop_eq_getElem_cons h, List.cons_append, List.take_succ_cons]
  simp [leNat, h]

theorem bytesAt_append_zero {a b : List Byte} {n : Nat} (h : a.length = n) : bytesAt (a ++ b) 0 n = a := by
  simp [bytesAt, ← h]

theorem bytesAt_append_add {a b : List Byte} {m o n : Nat} (h : a.length = m) : bytesAt (a ++ b) (m + o) n = bytesAt b o n := by
  simp [bytesAt, ← h, ← List.drop_drop]

/-! Bits of numbers. -/

theorem bitOf_eq_testBit (x i : Nat) : bitOf x i = x.testBit i := by
  rw [bitOf, Nat.testBit_eq_decide_div_mod_eq]
  rfl

theorem popCount_eq_countP (n x : Nat) : popCount n x = (List.range n).countP (bitOf x) := by
  induction n generalizing x with
  | zero => rfl
  | succ n ih =>
    have hbit : bitOf x ∘ Nat.succ = bitOf (x / 2) := by
      funext i
      simp [bitOf_eq_testBit, Nat.testBit_succ]
    rw [popCount, ih, List.range_succ_eq_map, List.countP_cons, List.countP_map, hbit]
    rcases Nat.mod_two_eq_zero_or_one x with h | h <;> simp [bitOf, h, Nat.add_comm]

/-- The sum of a byte's marks, bit by bit, stays below the next bit's weight. -/
theorem foldl_marks_lt (f : Nat → Bool) (n : Nat) : (List.range n).foldl (fun x i => x + b2n (f i) * 2 ^ i) 0 < 2 ^ n := by
  induction n with
  | zero => simp
  | succ n ih =>
    rw [List.range_succ, List.foldl_append, List.foldl_cons, List.foldl_nil, Nat.pow_succ]
    have hbit : b2n (f n) * 2 ^ n ≤ 2 ^ n := by cases f n <;> simp [b2n]
    omega

/-- The sum has the bits that it is made of. -/
theorem testBit_foldl_marks (f : Nat → Bool) (n i : Nat) (h : i < n) :
    ((List.range n).foldl (fun x i => x + b2n (f i) * 2 ^ i) 0).testBit i = f i := by
  induction n with
  | zero => omega
  | succ n ih =>
    rw [List.range_succ, List.foldl_append, List.foldl_cons, List.foldl_nil, Nat.add_comm, Nat.mul_comm,
      Nat.testBit_two_pow_mul_add _ (foldl_marks_lt f n)]
    split
    · exact ih ‹_›
    · obtain rfl : i = n := by omega
      cases f i <;> simp [b2n]

theorem testBit_leNat (l : List Byte) (k : Nat) : (leNat l).testBit k = (l.getD (k / 8) 0).toNat.testBit (k % 8) := by
  induction l generalizing k with
  | nil => simp [leNat]
  | cons b l ih =>
    rw [leNat, Nat.add_comm, show 256 = 2 ^ 8 from rfl, Nat.testBit_two_pow_mul_add _ b.isLt]
    split
    case isTrue h => simp [Nat.div_eq_of_lt h, Nat.mod_eq_of_lt h]
    case isFalse h =>
      obtain ⟨j, rfl⟩ := Nat.exists_eq_add_of_le' (Nat.le_of_not_lt h)
      simp [ih, Nat.add_div_right]

/-! The bitmap (R191). -/

theorem bitmapOf_length (nz : List Bool) : (bitmapOf nz).length = ceilDiv nz.length 8 := by simp [bitmapOf]

theorem bitOf_bitmapOf (nz : List Bool) {i : Nat} (h : i < 8 * ceilDiv nz.length 8) :
    bitOf ((bitmapOf nz).getD (i / 8) 0).toNat (i % 8) = nz.getD i false := by
  have hlt : i / 8 < ceilDiv nz.length 8 := by omega
  have h8 : i % 8 < 8 := Nat.mod_lt _ (by decide)
  have hbyte := foldl_marks_lt (fun k => nz.getD (8 * (i / 8) + k) false) 8
  rw [bitOf_eq_testBit]
  simp only [bitmapOf, List.getD_eq_getElem?_getD, List.getElem?_map, List.getElem?_range hlt, Option.map_some, Option.getD_some, BitVec.toNat_ofNat]
  simp only [List.getD_eq_getElem?_getD] at hbyte
  rw [Nat.mod_eq_of_lt hbyte, testBit_foldl_marks _ 8 _ h8, Nat.div_add_mod]

theorem countP_range_getD (nz : List Bool) {m : Nat} (h : nz.length ≤ m) : (List.range m).countP (fun i => nz.getD i false) = nz.countP id := by
  induction nz generalizing m with
  | nil => simp
  | cons b nz ih =>
    obtain ⟨m, rfl⟩ : ∃ k, m = k + 1 := ⟨m - 1, by simp at h; omega⟩
    rw [List.range_succ_eq_map, List.countP_cons, List.countP_map, List.countP_cons, ← ih (Nat.le_of_succ_le_succ h)]
    rfl

theorem popCount_bitmapOf (nz : List Bool) : popCount (8 * ceilDiv nz.length 8) (leNat (bitmapOf nz)) = nz.countP id := by
  rw [popCount_eq_countP, ← countP_range_getD nz (m := 8 * ceilDiv nz.length 8) (by unfold ceilDiv; omega)]
  refine List.countP_congr fun i hi => ?_
  rw [bitOf_eq_testBit, testBit_leNat, ← bitOf_eq_testBit, bitOf_bitmapOf nz (List.mem_range.mp hi)]

/-! Elements. -/

theorem elemsOf_length (w : Nat) (row : List Byte) : (elemsOf w row).length = row.length / w := by simp [elemsOf]

theorem elemsOf_flatten {w : Nat} {row : List Byte} (h : row.length % w = 0) : (elemsOf w row).flatten = row := by
  have htake (k : Nat) : ((List.range k).map fun i => (row.drop (w * i)).take w).flatten = row.take (w * k) := by
    induction k with
    | zero => simp
    | succ k ih => rw [List.range_succ, List.map_append, List.flatten_append, ih, Nat.mul_succ, List.take_add]; simp
  rw [elemsOf, htake, Nat.mul_div_cancel' (Nat.dvd_of_mod_eq_zero h), List.take_length]

theorem length_of_mem_elemsOf {w : Nat} {row e : List Byte} (he : e ∈ elemsOf w row) : e.length = w := by
  obtain ⟨i, hi, rfl⟩ := List.mem_map.mp he
  have hle : w * (i + 1) ≤ row.length := Nat.le_trans (Nat.mul_le_mul_left w (List.mem_range.mp hi)) (Nat.mul_div_le _ _)
  rw [List.length_take, List.length_drop]
  rw [Nat.mul_succ] at hle
  omega

theorem zip_map_filter_map {α : Type} (p : α → Bool) (l : List α) : ((l.zip (l.map p)).filter (·.2)).map (·.1) = l.filter p := by
  induction l with
  | nil => rfl
  | cons a l ih => cases h : p a <;> simp [h, ih]

theorem eq_replicate_of_any_ne {e : List Byte} (h : e.any (· ≠ 0) = false) : e = List.replicate e.length 0 := by
  refine List.eq_replicate_iff.mpr ⟨rfl, fun b hb => ?_⟩
  simpa using List.any_eq_false.mp h b hb

/-- The elements that are not zero, put back at their marks, give all the elements again. -/
theorem expandBits_filter {w : Nat} {es : List (List Byte)} (h : ∀ e ∈ es, e.length = w) :
    expandBits w (es.map fun e => e.any (· ≠ 0)) (es.filter fun e => e.any (· ≠ 0)).flatten = es.flatten := by
  induction es with
  | nil => rfl
  | cons e es ih =>
    obtain ⟨hlen, hes⟩ := List.forall_mem_cons.mp h
    rw [List.map_cons, List.filter_cons, List.flatten_cons]
    cases hz : e.any (· ≠ 0) with
    | true => simp only [↓reduceIte, List.flatten_cons, expandBits, ← hlen, List.take_left, List.drop_left]; rw [hlen, ih hes]
    | false => rw [if_neg (by simp), expandBits, ih hes, eq_replicate_of_any_ne hz, hlen]

/-! The tile. -/

/-- Which elements of a row are not zero, and those elements: what the bitmap and the values of its tile are made of (R191). -/
def tileMarks (code : Nat) (row : List Byte) : List Bool := (elemsOf (2 ^ code) row).map fun e => e.any (· ≠ 0)
def tileValues (code : Nat) (row : List Byte) : List (List Byte) := (elemsOf (2 ^ code) row).filter fun e => e.any (· ≠ 0)

theorem tileMarks_length (code : Nat) (row : List Byte) : (tileMarks code row).length = row.length / 2 ^ code := by
  rw [tileMarks, List.length_map, elemsOf_length]

theorem tileValues_length_le (code : Nat) (row : List Byte) : (tileValues code row).length ≤ row.length / 2 ^ code :=
  elemsOf_length _ row ▸ List.length_filter_le _ _

theorem tileValues_flatten_length (code : Nat) (row : List Byte) :
    (tileValues code row).flatten.length = (tileValues code row).length * 2 ^ code := by
  have h : ∀ e ∈ tileValues code row, e.length = 2 ^ code := fun e he => length_of_mem_elemsOf ((List.mem_filter.mp he).1)
  rw [List.length_flatten, List.map_congr_left h, List.map_const', List.sum_replicate_nat]

theorem popCount_tileMarks (code : Nat) (row : List Byte) :
    popCount (8 * ceilDiv (row.length / 2 ^ code) 8) (leNat (bitmapOf (tileMarks code row))) = (tileValues code row).length := by
  rw [← tileMarks_length, popCount_bitmapOf, tileMarks, List.countP_map, List.countP_eq_length_filter]
  rfl

/-- A tile by its parts: the bitmap form where it is the shorter one, the dense form otherwise. -/
theorem compressTile_fst (code : Nat) (row : List Byte) :
    (compressTile code row).1 =
      let n := (bitmapOf (tileMarks code row) ++ (tileValues code row).flatten).length
      let legend := fun dense => legendBytes (tileValues code row).length (row.length / 2 ^ code) dense code
      if 8 + alignUp n 8 < 8 + row.length then
        legend false ++ (bitmapOf (tileMarks code row) ++ ((tileValues code row).flatten ++ List.replicate (8 + alignUp n 8 - 8 - n) 0))
      else legend true ++ row := by
  simp only [compressTile, zip_map_filter_map, elemsOf_length, apply_ite Prod.fst, List.append_assoc]
  rfl

/-- What the legend of a tile says (Table 6.8), field by field. -/
theorem legend_fields {nz e code : Nat} {dense : Bool} (hnz : nz ≤ e) (hpos : 0 < e) (he : e ≤ 65536) (hcode : code ≤ 2) :
    let l := leNat (legendBytes nz e dense code)
    bitsOf l 63 41 = 0 ∧ bitsOf l 7 5 = 0 ∧ bitsOf l 3 0 = code ∧ bitsOf l 23 8 + 1 = e ∧ bitOf l 4 = dense ∧ bitsOf l 40 24 = nz := by
  have hd : b2n dense ≤ 1 := by cases dense <;> simp [b2n]
  have hl : leNat (legendBytes nz e dense code) = nz * 2 ^ 24 + (e - 1) * 2 ^ 8 + b2n dense * 16 + code := by
    rw [legendBytes, leNat_leBytes, Nat.mod_eq_of_lt (by omega)]
  have hb : bitOf (nz * 2 ^ 24 + (e - 1) * 2 ^ 8 + b2n dense * 16 + code) 4 = dense := by
    have : (nz * 2 ^ 24 + (e - 1) * 2 ^ 8 + b2n dense * 16 + code) / 2 ^ 4 % 2 = b2n dense := by omega
    rw [bitOf, this]
    cases dense <;> rfl
  simp only [hl, hb, bitsOf, true_and]
  omega

/-- A dense row whose elements fit a tile: 2^code bytes each, one element at least and 65,536 at most (R191). -/
structure TileRow (code : Nat) (row : List Byte) : Prop where
  code_le : code ≤ 2
  pos : 0 < row.length
  whole : row.length % 2 ^ code = 0
  few : row.length / 2 ^ code ≤ 65536

theorem TileRow.elems_pos {code : Nat} {row : List Byte} (g : TileRow code row) : 0 < row.length / 2 ^ code :=
  Nat.div_pos (Nat.le_of_dvd g.pos (Nat.dvd_of_mod_eq_zero g.whole)) (Nat.two_pow_pos code)

theorem TileRow.elems_mul {code : Nat} {row : List Byte} (g : TileRow code row) : row.length / 2 ^ code * 2 ^ code = row.length :=
  Nat.div_mul_cancel (Nat.dvd_of_mod_eq_zero g.whole)

/-- The dense form expands to its row (R191). -/
theorem expandTile_dense {code nz : Nat} {row rest : List Byte} (g : TileRow code row) (hnz : nz ≤ row.length / 2 ^ code) :
    expandTile row.length (legendBytes nz (row.length / 2 ^ code) true code ++ (row ++ rest)) = some (row, 8 + row.length) := by
  obtain ⟨h1, h2, hcode, he, hd, -⟩ := legend_fields (dense := true) hnz g.elems_pos g.few g.code_le
  have hlen : (legendBytes nz (row.length / 2 ^ code) true code).length = 8 := leBytes_length _ _
  rw [expandTile, uAt_append_zero hlen]
  simp only [h1, h2, hcode, he, hd, g.elems_mul]
  rw [if_neg (by simpa using g.code_le), if_pos trivial, bytesAt_append_add (o := 0) hlen, bytesAt_append_zero rfl]

/-- The marks that the expander reads behind the legend are those that the bitmap was made of. -/
theorem marks_of_bitmap {code : Nat} {row legend rest : List Byte} (hlen : legend.length = 8) :
    (List.range (row.length / 2 ^ code)).map (fun i => bitOf (uAt (legend ++ (bitmapOf (tileMarks code row) ++ rest)) (8 + i / 8) 1) (i % 8)) =
      tileMarks code row := by
  have hmarks := tileMarks_length code row
  refine List.ext_getElem (by simp [hmarks]) fun i hi _ => ?_
  have hi' : i < (tileMarks code row).length := by simpa [hmarks] using hi
  have hbyte : i / 8 < (bitmapOf (tileMarks code row)).length := by rw [bitmapOf_length, ceilDiv]; omega
  rw [List.getElem_map, List.getElem_range, uAt_append_add hlen, uAt_append_one hbyte, bitOf_bitmapOf _ (by rw [ceilDiv]; omega)]
  rw [List.getD_eq_getElem?_getD, List.getElem?_eq_getElem hi', Option.getD_some]

/-- The bitmap form expands to the row whose elements it marks (R191). -/
theorem expandTile_bitmap {code : Nat} {row rest : List Byte} (g : TileRow code row) :
    expandTile row.length (legendBytes (tileValues code row).length (row.length / 2 ^ code) false code ++
      (bitmapOf (tileMarks code row) ++ ((tileValues code row).flatten ++ rest))) =
      some (row, 8 + alignUp (bitmapOf (tileMarks code row) ++ (tileValues code row).flatten).length 8) := by
  have hbm : (bitmapOf (tileMarks code row)).length = ceilDiv (row.length / 2 ^ code) 8 := tileMarks_length code row ▸ bitmapOf_length _
  have hflat := tileValues_flatten_length code row
  obtain ⟨h1, h2, hcode, he, hd, hn⟩ := legend_fields (dense := false) (tileValues_length_le code row) g.elems_pos g.few g.code_le
  have hlen : (legendBytes (tileValues code row).length (row.length / 2 ^ code) false code).length = 8 := leBytes_length _ _
  have hrow : expandBits (2 ^ code) (tileMarks code row) (tileValues code row).flatten = row :=
    (expandBits_filter fun e he => length_of_mem_elemsOf he).trans (elemsOf_flatten g.whole)
  rw [expandTile, uAt_append_zero hlen]
  simp only [h1, h2, hcode, he, hd, hn, g.elems_mul, marks_of_bitmap hlen]
  rw [if_neg (by simpa using g.code_le), if_neg (by simp), uAt_append_add (o := 0) hlen, uAt_append_zero hbm, popCount_tileMarks, if_neg (by simp),
    bytesAt_append_add hlen, ← Nat.add_zero (ceilDiv _ _), bytesAt_append_add hbm, bytesAt_append_zero hflat, hrow, List.length_append, hbm, hflat,
    Nat.add_zero]

/-- Settles O55: each of the two forms expands to the row, and the compressor takes the bitmap form only where it is shorter. -/
theorem tileRoundTrip : Obligations.TileRoundTrip := by
  intro code row rest hcode hpos hwhole hfew t
  have g : TileRow code row := ⟨hcode, hpos, hwhole, hfew⟩
  have hform : t = _ := compressTile_fst code row
  dsimp only at hform
  split at hform
  case isTrue hshort =>
    have hlen : t.length = 8 + alignUp (bitmapOf (tileMarks code row) ++ (tileValues code row).flatten).length 8 := by
      have hup (x : Nat) : x ≤ alignUp x 8 := by unfold alignUp; omega
      have := hup (bitmapOf (tileMarks code row) ++ (tileValues code row).flatten).length
      rw [hform]
      simp only [legendBytes, List.length_append, leBytes_length, List.length_replicate] at this ⊢
      omega
    refine ⟨?_, by omega⟩
    rw [hlen, hform, List.append_assoc, List.append_assoc, List.append_assoc, expandTile_bitmap g]
  case isFalse =>
    have hlen : t.length = 8 + row.length := by simp [hform, legendBytes]
    refine ⟨?_, by omega⟩
    rw [hlen, hform, List.append_assoc, expandTile_dense g (tileValues_length_le code row)]

end Sys2Proof.Machine
end

section
/-! Loads and stores of the scratchpad (R174, R205, R207, R214, Table 7.7) at a core that issues: the fields of the encoding, the offset's checks, and
then what each instruction comes to. -/

namespace Sys2Proof.Machine

/-! The fields. -/

theorem bitsOf_one_zero (k : Nat) : bitsOf k 1 0 = k % 4 := by simp [bitsOf]

theorem bitsOf_three_two {k : Nat} (h : k < 16) : bitsOf k 3 2 = k / 4 := by
  simp only [bitsOf]
  omega

theorem bitOf_two {k : Nat} (h : k < 8) : bitOf k 2 = decide (4 ≤ k) := by
  have : k / 2 ^ 2 % 2 = k / 4 := by omega
  rw [bitOf, this, Bool.eq_iff_iff]
  simp only [beq_iff_eq, decide_eq_true_eq]
  omega

/-- An instruction whose x field has no bit above bit 3 names a number below 16 in it. -/
theorem rX_lt_of_xOnly {f : BitVec 56} (h : xOnly f 15 = true) : rX f < 16 := by
  have hrange : rX f < 2 ^ 24 := Nat.mod_lt _ (Nat.two_pow_pos _)
  refine Nat.lt_pow_two_of_testBit (n := 4) _ fun i hi => ?_
  by_cases hlt : i < 24
  · have hmask : (rX f &&& (2 ^ 20 - 1) * 2 ^ 4).testBit i = false := by
      rw [show rX f &&& (2 ^ 20 - 1) * 2 ^ 4 = 0 by simpa [xOnly] using h, Nat.zero_testBit]
    rw [Nat.testBit_and, Nat.testBit_mul_two_pow, Nat.testBit_two_pow_sub_one] at hmask
    simpa [hi, show i - 4 < 20 by omega] using hmask
  · exact Nat.testBit_lt_two_pow (Nat.lt_of_lt_of_le hrange (Nat.pow_le_pow_right (by decide) (by omega)))

theorem CoreCtx.vready_nil {x : CoreCtx} : x.vready [] := fun _ h => absurd h List.not_mem_nil

/-! The offset's checks (R214). -/

theorem rX_lt_of_segLegal {f : BitVec 56} (h : segLegal f = true) : rX f < 16 := by
  simp only [segLegal, Bool.and_eq_true] at h
  exact rX_lt_of_xOnly h.2

theorem scrFault_of_good {o n al : Nat} (hal : o % al = 0) (hin : o + n ≤ 2 ^ 24) : scrFault o n al = none := by
  rw [scrFault, if_neg (by omega), if_neg (by omega)]

theorem segFault_of_good {x : CoreCtx} {f : BitVec 56} {n : Nat} (h : ∀ o ∈ segOffs x f, o % 64 = 0 ∧ o + n ≤ 2 ^ 24) :
    segFault x f n = none :=
  List.findSome?_eq_none_iff.mpr fun o ho => scrFault_of_good (h o ho).1 (h o ho).2

/-! The step, behind its gate. -/

theorem State.scrLoad_of_clean {s u : State} {c : Nat} {l : List (Nat × Nat)} (k : State → State) (h : s.scrReads c l = (u, none)) :
    s.scrLoad c l k = k u := by rw [State.scrLoad, h]

theorem State.scrLoad_of_error {s u : State} {c : Nat} {l : List (Nat × Nat)} {st : Status} (k : State → State)
    (h : s.scrReads c l = (u, some st)) : s.scrLoad c l k = u.coreFault c st := by rw [State.scrLoad, h]

section
variable {s : State} {c : Fin 256} {f : BitVec 56} (hi : s.issues c)
include hi

theorem exec_lds_of_good (hk : iX12 f < 8) (hr : (s.core c).ready [rA f]) (hal : scrOff (s.core c) f % 2 ^ (iX12 f % 4) = 0)
    (hin : scrOff (s.core c) f + 2 ^ (iX12 f % 4) ≤ 2 ^ 24) :
    exec (.lds c f) s =
      let r := s.scrReads c [(scrOff (s.core c) f, 2 ^ (iX12 f % 4))]
      let w := leNat (r.1.scrRd c (scrOff (s.core c) f) (2 ^ (iX12 f % 4)))
      .next (r.1.setCore c (if r.2.isSome then ((s.core c).wpoison (rD f)).adv
        else ((s.core c).ws (rD f) (if 4 ≤ iX12 f then BitVec.ofInt 64 (sInt (8 * 2 ^ (iX12 f % 4)) w) else BitVec.ofNat 64 w)).adv)) := by
  rw [exec, execLds, State.memStep_of_issues hi _ (by simpa using hk) hr CoreCtx.vready_nil]
  simp only [scrFault_of_good hal hin, bitOf_two hk, decide_eq_true_eq, sext64]

theorem exec_sts_of_good (hk : iX12 f < 4) (hr : (s.core c).ready [rA f, rD f]) (hal : scrOff (s.core c) f % 2 ^ (iX12 f % 4) = 0)
    (hin : scrOff (s.core c) f + 2 ^ (iX12 f % 4) ≤ 2 ^ 24) (hm : mqHolds (s.core c) (scrOff (s.core c) f) (2 ^ (iX12 f % 4)) = false) :
    exec (.sts c f) s =
      .next ((s.scrPoke c (scrOff (s.core c) f) (leBytes (2 ^ (iX12 f % 4)) ((s.core c).rs (rD f)).toNat)).setCore c (s.core c).adv).wake := by
  rw [exec, execSts, State.memStep_of_issues hi _ (by simpa using hk) hr CoreCtx.vready_nil]
  simp only [scrFault_of_good hal hin, hm, Bool.false_eq_true, if_false]

end

/-- What VLD and VST ask of their encoding (R208, R214), in the terms of their x12 field. -/
theorem vAccess_legal {f : BitVec 56} (hk : iX12 f < 16) (hp : partOk (iX12 f % 4) (iX12 f / 4) = true) (hd : rD f < 32) :
    (decide (iX12 f < 16) && partOk (bitsOf (iX12 f) 1 0) (bitsOf (iX12 f) 3 2) && vOk (rD f)) = true := by
  simp [bitsOf_one_zero, bitsOf_three_two hk, hk, hp, hd, vOk]

section
variable {s : State} {c : Fin 256} {f : BitVec 56} (hi : s.issues c) (hk : iX12 f < 16)
  (hp : partOk (iX12 f % 4) (iX12 f / 4) = true) (hd : rD f < 32) (hr : (s.core c).ready [rA f]) (hv : (s.core c).vready [rD f])
  (hal : scrOff (s.core c) f % 64 = 0) (hin : scrOff (s.core c) f + vBytes (iX12 f % 4) ≤ 2 ^ 24)
include hi hk hp hd hr hv hal hin

theorem exec_vld_of_good :
    exec (.vld c f) s = .next (s.scrLoad c [(scrOff (s.core c) f, vBytes (iX12 f % 4))] fun u =>
      u.setCore c ((s.core c).wv (rD f) (vPut ((s.core c).rv (rD f)) (iX12 f / 4 * vBytes (iX12 f % 4))
        (u.scrRd c (scrOff (s.core c) f) (vBytes (iX12 f % 4))))).adv) := by
  rw [exec, execVld, State.memStep_of_issues hi _ (vAccess_legal hk hp hd) hr hv]
  simp only [bitsOf_one_zero, bitsOf_three_two hk, scrFault_of_good hal hin]

theorem exec_vst_of_good (hm : mqHolds (s.core c) (scrOff (s.core c) f) (vBytes (iX12 f % 4)) = false) :
    exec (.vst c f) s = .next ((s.scrPoke c (scrOff (s.core c) f) (vTake ((s.core c).rv (rD f)) (iX12 f / 4 * vBytes (iX12 f % 4))
      (vBytes (iX12 f % 4)))).setCore c (s.core c).adv).wake := by
  rw [exec, execVst, State.memStep_of_issues hi _ (vAccess_legal hk hp hd) hr hv]
  simp only [bitsOf_one_zero, bitsOf_three_two hk, scrFault_of_good hal hin, hm, Bool.false_eq_true, if_false]

end

section
variable {s : State} {c : Fin 256} {f : BitVec 56} (hi : s.issues c) (hl : segLegal f = true) (hr : (s.core c).ready [rA f, rB f])
  (hv : (s.core c).vready [rD f]) (hsegs : ∀ o ∈ segOffs (s.core c) f, o % 64 = 0 ∧ o + vBytes (rX f % 4) / 8 ≤ 2 ^ 24)
include hi hl hr hv hsegs

theorem exec_vlds_of_good :
    exec (.vlds c f) s = .next (s.scrLoad c ((segOffs (s.core c) f).map fun o => (o, vBytes (rX f % 4) / 8)) fun u =>
      u.setCore c ((s.core c).wv (rD f) (vPut ((s.core c).rv (rD f)) (rX f / 4 * vBytes (rX f % 4))
        ((segOffs (s.core c) f).map fun o => u.scrRd c o (vBytes (rX f % 4) / 8)).flatten)).adv) := by
  rw [exec, execVlds, State.memStep_of_issues hi _ hl hr hv]
  simp only [bitsOf_one_zero, bitsOf_three_two (rX_lt_of_segLegal hl), segFault_of_good hsegs]

theorem exec_vsts_of_good (hm : ∀ o ∈ segOffs (s.core c) f, mqHolds (s.core c) o (vBytes (rX f % 4) / 8) = false) :
    exec (.vsts c f) s = .next ((((segOffs (s.core c) f).zipIdx.foldl (fun u e => u.scrPoke c e.1
      (((vTake ((s.core c).rv (rD f)) (rX f / 4 * vBytes (rX f % 4)) (vBytes (rX f % 4))).drop (vBytes (rX f % 4) / 8 * e.2)).take
        (vBytes (rX f % 4) / 8))) s).setCore c (s.core c).adv).wake) := by
  have hany : ((segOffs (s.core c) f).any fun o => mqHolds (s.core c) o (vBytes (rX f % 4) / 8)) = false :=
    List.any_eq_false.mpr fun o ho => by simp [hm o ho]
  rw [exec, execVsts, State.memStep_of_issues hi _ hl hr hv]
  simp only [bitsOf_one_zero, bitsOf_three_two (rX_lt_of_segLegal hl), segFault_of_good hsegs, hany, Bool.false_eq_true, if_false]

end

/-- Settles O5: each load and store by its own equation, a load of a vector by what its reads met. -/
theorem scratchpadAccess : Obligations.ScratchpadAccess := by
  intro s c f hi x o k n vn vp segs sn sp
  refine ⟨fun hk hr hal hin => exec_lds_of_good hi hk hr hal hin, fun hk hr hal hin hm => exec_sts_of_good hi hk hr hal hin hm,
    fun hk hp hd hr hv hal hin => ?_, fun hl hr hv hsegs => ?_⟩
  · have hload := exec_vld_of_good hi hk hp hd hr hv hal hin
    exact ⟨fun u hu => hload.trans (congrArg _ (State.scrLoad_of_clean _ hu)),
      fun u st hu => hload.trans (congrArg _ (State.scrLoad_of_error _ hu)), exec_vst_of_good hi hk hp hd hr hv hal hin⟩
  · exact ⟨fun u hu => (exec_vlds_of_good hi hl hr hv hsegs).trans (congrArg _ (State.scrLoad_of_clean _ hu)),
      exec_vsts_of_good hi hl hr hv hsegs⟩

end Sys2Proof.Machine
end

section
/-! Tile movers (R189 to R195, R201): the operation that a mover holds, by its descriptor's format, its addresses and its accesses; then what each of
Table 6.7's operations does, and how a mover ends. -/

namespace Sys2Proof.Machine

/-! The addresses and accesses of a descriptor (R189). -/

theorem State.checked_of_outside {s : State} {c : Nat} {m : MoverDesc} {l : List Access1} {g : State → State × Status}
    (h : s.moverAddrs c m = false) : s.checked c m l g = (s, .addressRange) := by rw [State.checked, if_pos (by simp [h])]

theorem State.checked_of_ok {s u : State} {c : Nat} {m : MoverDesc} {l : List Access1} {g : State → State × Status} (h : s.moverAddrs c m = true)
    (hl : s.accessCheck c l = (u, .ok)) : s.checked c m l g = g u := by
  rw [State.checked, if_neg (by simp [h]), hl]
  rfl

/-! The operation that mover j of core c holds. -/

section
variable {s : State} {c j hold op : Nat} {d : BitVec 512} (hfind : s.movers.find (c, j) = some ⟨d, hold, none⟩) (hop : (moverDesc d).op = op)
  {g : State → MoverDesc → State × Status}
include hfind hop

theorem State.moverRun_of_badFormat (hfmt : moverFormatOk d = false) :
    s.moverRun c j op g = { s with movers := s.movers.put (c, j) ⟨d, hold, some .descFormat⟩ } := by
  have hop' : ¬ dAt d 0 1 ≠ op := fun hne => hne hop
  simp only [State.moverRun, hfind, if_neg hop', hfmt, Bool.false_eq_true, if_false]

theorem State.moverRun_of_answer (hfmt : moverFormatOk d = true) {u : State} {st : Status} (hg : g s (moverDesc d) = (u, st)) :
    s.moverRun c j op g = { u with movers := u.movers.put (c, j) ⟨d, hold, some st⟩ } := by
  have hop' : ¬ dAt d 0 1 ≠ op := fun hne => hne hop
  simp only [State.moverRun, hfind, if_neg hop', hfmt, if_true, hg]

end

/-- Settles O24: a bad format ends the operation before the addresses, a bad address before the effect, and the effect is the operation's own. -/
theorem moverOperations : Obligations.MoverOperations := by
  intro s c j d hold hfind m k i rows w is ok reads writes
  have hbad {op : Nat} {g : State → MoverDesc → State × Status} (hfmt : moverFormatOk d = false) (hop : m.op = op) :
      (Host.Outcome.next (s.moverRun c j op g) : Res) = .next { s with movers := s.movers.put (c.val, j.val) ⟨d, hold, some .descFormat⟩ } :=
    congrArg Host.Outcome.next (State.moverRun_of_badFormat hfind hop hfmt)
  have hrun {op : Nat} {g : State → MoverDesc → State × Status} {u : State} {st : Status} (hfmt : moverFormatOk d = true)
      (hg : g s m = (u, st)) (hop : m.op = op) :
      (Host.Outcome.next (s.moverRun c j op g) : Res) = .next { u with movers := u.movers.put (c.val, j.val) ⟨d, hold, some st⟩ } :=
    congrArg Host.Outcome.next (State.moverRun_of_answer hfind hop hfmt hg)
  refine ⟨?badFormat, ?badAddress, ?copy, ?gatherRows, ?gatherCols, ?compress, ?decompress, ?predictorOff, ?select, ?predCheck⟩
  case badFormat =>
    intro hfmt
    exact ⟨hbad hfmt, hbad hfmt, hbad hfmt, hbad hfmt, hbad hfmt, hbad hfmt, hbad hfmt⟩
  case badAddress =>
    intro hfmt ha
    have hout {l : List Access1} {g : State → State × Status} : s.checked c m l g = (s, .addressRange) := State.checked_of_outside ha
    exact ⟨hrun hfmt hout, hrun hfmt hout, hrun hfmt hout, hrun hfmt hout, hrun hfmt hout,
      fun hon => ⟨hrun hfmt ((if_neg hon).trans hout), hrun hfmt ((if_neg hon).trans hout)⟩⟩
  case copy =>
    rintro u ⟨hfmt, ha, hacc⟩
    have hacc' : s.accessCheck c ((rows.map fun r => (m.src + r * m.sst, m.dst + r * m.dstr, m.rowBytes)).map (fun r => (r.1, r.2.2, false)) ++
        (rows.map fun r => (m.src + r * m.sst, m.dst + r * m.dstr, m.rowBytes)).map fun r => (r.2.1, r.2.2, true)) = (u, .ok) := by
      rw [List.map_map, List.map_map]
      exact hacc
    exact hrun hfmt (State.checked_of_ok ha hacc')
  case gatherRows =>
    rintro u g ⟨hfmt, ha, hacc⟩
    exact hrun hfmt (State.checked_of_ok ha hacc)
  case gatherCols =>
    rintro u idx ⟨hfmt, ha, hacc⟩
    exact hrun hfmt (State.checked_of_ok ha hacc)
  case compress =>
    rintro u tiles out ⟨hfmt, ha, hacc⟩
    exact hrun hfmt (State.checked_of_ok ha hacc)
  case decompress =>
    rintro u r ⟨hfmt, ha, hacc⟩
    exact hrun hfmt (State.checked_of_ok ha hacc)
  case predictorOff =>
    intro hfmt hoff
    exact ⟨hrun hfmt (if_pos hoff), hrun hfmt (if_pos hoff)⟩
  case select =>
    rintro u hon samp active out ⟨hfmt, ha, hacc⟩
    exact hrun hfmt ((if_neg hon).trans (State.checked_of_ok ha hacc))
  case predCheck =>
    rintro u hon na ns active ⟨hfmt, ha, hacc⟩
    exact hrun hfmt ((if_neg hon).trans (State.checked_of_ok ha hacc))

/-! How a mover ends (R189). -/

/-- An operation of Table 6.7 that has ended leaves its mover with the status it ended with, not with DESC_FORMAT. -/
theorem execMoverComplete_of_ended {s : State} {c : Fin 256} {j : Fin 4} {d : BitVec 512} {hold : Nat} {st : Status}
    (hfind : s.movers.find (c.val, j.val) = some ⟨d, hold, some st⟩) (hlo : 1 ≤ dAt d 0 1) (hhi : dAt d 0 1 ≤ 7) :
    let u : State := { s with movers := s.movers.del (c.val, j.val) }
    let v := if st = .ok then u else u.capture ⟨.MOV_FAULT_INFO, c, 0⟩ (j * 2 ^ 48 + dAt d 56 4 * 2 ^ 16 + st.code) []
    execMoverComplete c j s = .next (((v.complete (v.core c).kern.sheet (dAt d 48 8) (dAt d 56 4) st).moverWake c).drainAll) := by
  have hop : ¬ (dAt d 0 1 = 0 ∨ 7 < dAt d 0 1) := by omega
  simp only [execMoverComplete, hfind, if_neg hop]

/-- Settles O25, one clause for each instruction: the mover's end, the two captures armed again, the guests changed over. -/
theorem moverCompletion : Obligations.MoverCompletion := by
  intro s c j w
  refine ⟨fun d hold st hfind hlo hhi => ?ended, fun hw => ⟨?mover, ?core⟩, fun hhost => ?guests⟩
  case ended => exact execMoverComplete_of_ended hfind hlo hhi
  case mover => exact congrArg Host.Outcome.next (s.rearm_of_valid _ hw)
  case core => exact congrArg Host.Outcome.next (s.rearm_of_valid _ hw)
  case guests => exact congrArg Host.Outcome.next (if_pos hhost)

end Sys2Proof.Machine
end

section
/-! The scalar instructions (R210 to R213, Tables 7.3 to 7.6) at a core that issues: behind its gate, an instruction writes what its function gives. -/

namespace Sys2Proof.Machine

/-! The gate, and the operations of each form. -/

/-- An instruction on the registers alone that is legal and whose registers are ready comes to what stands behind its gate. -/
theorem State.coreStep_of_gate {s : State} {c : Nat} {legal : Bool} {srcs : List Nat} {k : CoreCtx → CoreRes} {y : CoreCtx} (hi : s.issues c)
    (hl : legal = true) (hr : (s.core c).ready srcs) (hk : k (s.core c) = .ok y) :
    (.next (s.coreStep c (Machine.gate legal srcs k)) : Res) = .next (s.setCore c y) :=
  congrArg Host.Outcome.next (State.coreStep_of_issues hi ((gate_of_ready k hl hr).trans hk))

theorem CoreCtx.ready_nil {x : CoreCtx} : x.ready [] := fun _ h => absurd h List.not_mem_nil

section
variable {s : State} {c : Fin 256} {f : BitVec 56} (hi : s.issues c)
include hi

theorem State.coreStep_aluAB (hl : rOk f true true true false 0 = true) (hr : (s.core c).ready [rA f, rB f]) (g : Word → Word → Word) :
    (.next (s.coreStep c (aluAB g f)) : Res) =
      .next (s.setCore c ((s.core c).ws (rD f) (g ((s.core c).rs (rA f)) ((s.core c).rs (rB f)))).adv) :=
  State.coreStep_of_gate hi hl hr rfl

theorem State.coreStep_aluA (hl : rOk f true true false false 0 = true) (hr : (s.core c).ready [rA f]) (g : Word → Word) :
    (.next (s.coreStep c (aluA g f)) : Res) = .next (s.setCore c ((s.core c).ws (rD f) (g ((s.core c).rs (rA f)))).adv) :=
  State.coreStep_of_gate hi hl hr rfl

theorem State.coreStep_aluI {ok : Nat → Bool} (hx : iX12 f = 0) (hok : ok (iImm f) = true) (hr : (s.core c).ready [rA f])
    (g : Word → Nat → Word) :
    (.next (s.coreStep c (aluI ok g f)) : Res) = .next (s.setCore c ((s.core c).ws (rD f) (g ((s.core c).rs (rA f)) (iImm f))).adv) :=
  State.coreStep_of_gate hi (by simp [hx, hok]) hr rfl

theorem State.coreStep_fpAB (hl : rOk f true true true false 0 = true) (hr : (s.core c).ready [rA f, rB f]) (g : Nat → Nat → Nat × FFlags) :
    let r := g (lo32 ((s.core c).rs (rA f))) (lo32 ((s.core c).rs (rB f)))
    (.next (s.coreStep c (fpAB g f)) : Res) = .next (s.setCore c (((s.core c).ws (rD f) (BitVec.ofNat 64 r.1)).orFl r.2).adv) :=
  State.coreStep_of_gate hi hl hr rfl

/-- A branch with a target in the kernel's code goes there or falls through (R212). -/
theorem State.coreStep_aluBranch (hl : bResv f = 0) (ht : targetOk (s.core c) (brTarget (s.core c) f) = true)
    (hr : (s.core c).ready [bA f, bB f]) (k : Word → Word → Bool) :
    (.next (s.coreStep c (aluBranch k f)) : Res) = .next (s.setCore c { s.core c with
      pc := if k ((s.core c).rs (bA f)) ((s.core c).rs (bB f)) then (brTarget (s.core c) f).toNat else (s.core c).pc + 8 }) := by
  refine State.coreStep_of_gate hi (by simp [hl]) hr ?_
  rw [if_pos ht]
  split <;> rfl

end

/-! The results of Tables 7.3 and 7.6. -/

theorem ofBool_decide (p : Prop) [Decidable p] : ofBool (decide p) = if p then 1 else 0 := by simp [ofBool]

theorem hiS_eq (a b : Word) : hiS a b = BitVec.ofInt 64 (a.toInt * b.toInt / 2 ^ 64) := by simp [hiS]

theorem divU_eq (a b : Word) : divU a b = if b = 0 then BitVec.allOnes 64 else BitVec.ofNat 64 (a.toNat / b.toNat) :=
  congrArg (ite (b = 0) _) (BitVec.eq_of_toNat_eq (by
    rw [BitVec.toNat_udiv, BitVec.toNat_ofNat, Nat.mod_eq_of_lt (Nat.lt_of_le_of_lt (Nat.div_le_self _ _) a.isLt)]))

theorem remU_eq (a b : Word) : remU a b = if b = 0 then a else BitVec.ofNat 64 (a.toNat % b.toNat) :=
  congrArg (ite (b = 0) _) (BitVec.eq_of_toNat_eq (by
    rw [BitVec.toNat_umod, BitVec.toNat_ofNat, Nat.mod_eq_of_lt (Nat.lt_of_le_of_lt (Nat.mod_le _ _) a.isLt)]))

theorem minU_eq (a b : Word) : (if a.ult b then a else b) = BitVec.ofNat 64 (min a.toNat b.toNat) := by
  split
  case isTrue h => rw [Nat.min_eq_left (Nat.le_of_lt (of_decide_eq_true h)), BitVec.ofNat_toNat, BitVec.setWidth_eq]
  case isFalse h => rw [Nat.min_eq_right (Nat.not_lt.mp fun hlt => h (decide_eq_true hlt)), BitVec.ofNat_toNat, BitVec.setWidth_eq]

theorem maxU_eq (a b : Word) : (if a.ult b then b else a) = BitVec.ofNat 64 (max a.toNat b.toNat) := by
  split
  case isTrue h => rw [Nat.max_eq_right (Nat.le_of_lt (of_decide_eq_true h)), BitVec.ofNat_toNat, BitVec.setWidth_eq]
  case isFalse h => rw [Nat.max_eq_left (Nat.not_lt.mp fun hlt => h (decide_eq_true hlt)), BitVec.ofNat_toNat, BitVec.setWidth_eq]

theorem minS_eq (a b : Word) : (if a.slt b then a else b) = BitVec.ofInt 64 (min a.toInt b.toInt) := by
  split
  case isTrue h => rw [Int.min_eq_left (Int.le_of_lt (of_decide_eq_true h)), BitVec.ofInt_toInt]
  case isFalse h => rw [Int.min_eq_right (Int.not_lt.mp fun hlt => h (decide_eq_true hlt)), BitVec.ofInt_toInt]

theorem maxS_eq (a b : Word) : (if a.slt b then b else a) = BitVec.ofInt 64 (max a.toInt b.toInt) := by
  split
  case isTrue h => rw [Int.max_eq_right (Int.le_of_lt (of_decide_eq_true h)), BitVec.ofInt_toInt]
  case isFalse h => rw [Int.max_eq_left (Int.not_lt.mp fun hlt => h (decide_eq_true hlt)), BitVec.ofInt_toInt]

/-- Settles O1: the 24 instructions are one form, and differ in the function alone. -/
theorem scalarTwoSource : Obligations.ScalarTwoSource := by
  intro s c f hi hl hr x a b t
  have hrun {g : Word → Word → Word} {w : Word} (hg : g a b = w) : (.next (s.coreStep c (aluAB g f)) : Res) = t w :=
    (State.coreStep_aluAB hi hl hr g).trans (congrArg t hg)
  exact ⟨hrun rfl, hrun rfl, hrun rfl, hrun rfl, hrun (hiS_eq a b), hrun (divU_eq a b), hrun (remU_eq a b), hrun rfl, hrun rfl,
    hrun rfl, hrun rfl, hrun rfl, hrun rfl, hrun rfl, hrun rfl, hrun (minU_eq a b), hrun (maxU_eq a b), hrun (minS_eq a b), hrun (maxS_eq a b),
    hrun (ofBool_decide _), hrun (ofBool_decide _), hrun (ofBool_decide _), hrun rfl, hrun rfl⟩

/-- The ones of a number are as many as its bits that are set. -/
theorem popCount_eq_length (n x : Nat) : popCount n x = ((List.range n).filter x.testBit).length := by
  induction n generalizing x with
  | zero => rfl
  | succ n ih =>
    have htail : ((List.range n).map Nat.succ).filter x.testBit = ((List.range n).filter (x / 2).testBit).map Nat.succ := by
      rw [List.filter_map]
      congr 1
      exact List.filter_congr fun i _ => Nat.testBit_succ x i
    rw [popCount, ih, List.range_succ_eq_map, List.filter_cons, htail, Nat.testBit_zero]
    rcases Nat.mod_two_eq_zero_or_one x with h | h <;> simp [h]
    omega

/-- Settles O2, by the form of each instruction. -/
theorem scalarOther : Obligations.ScalarOther := by
  intro s c f hi x a b i n t
  refine ⟨fun hf => ?nop, fun hl hr => ?sel, fun hx hr => ?imm, fun hresv hhi => ?low, fun hresv hhi himm hr => ?high, fun hl hr => ?one,
    fun hl hr => ?ext, fun hl hin hr => ?ins⟩
  case nop => exact State.coreStep_of_gate hi (beq_iff_eq.mpr hf) CoreCtx.ready_nil rfl
  case sel =>
    rw [← ite_not]
    exact State.coreStep_of_gate hi hl hr rfl
  case imm =>
    have hrun {ok : Nat → Bool} {g : Word → Nat → Word} (hok : ok n = true) : (.next (s.coreStep c (aluI ok g f)) : Res) = t (g a n) :=
      State.coreStep_aluI hi hx hok hr g
    exact ⟨hrun rfl, hrun rfl, hrun rfl, hrun rfl,
      fun hn => ⟨hrun (decide_eq_true hn), hrun (decide_eq_true hn), hrun (decide_eq_true hn)⟩⟩
  case low =>
    show (.next (s.coreStep c (aluLdi f)) : Res) = _
    rw [aluLdi, if_neg (by simp [hhi])]
    exact State.coreStep_of_gate hi (by simp [hresv]) CoreCtx.ready_nil rfl
  case high =>
    have hzero : bitsOf (lImm f) 47 16 = 0 := by rw [bitsOf, Nat.div_eq_of_lt himm, Nat.zero_mod]
    show (.next (s.coreStep c (aluLdi f)) : Res) = _
    rw [aluLdi, if_pos hhi, Nat.mod_eq_of_lt himm]
    exact State.coreStep_of_gate hi (by simp [hresv, hzero]) hr rfl
  case one =>
    have hrun {g : Word → Word} {w : Word} (hg : g a = w) : (.next (s.coreStep c (aluA g f)) : Res) = t w :=
      (State.coreStep_aluA hi hl hr g).trans (congrArg t hg)
    exact ⟨hrun (congrArg (BitVec.ofNat 64) (popCount_eq_length 64 a.toNat)), hrun rfl, hrun rfl, hrun rfl, hrun rfl⟩
  case ext => exact State.coreStep_of_gate hi hl hr rfl
  case ins => exact State.coreStep_of_gate hi (by simp [hl, hin]) hr rfl

/-- Settles O3, by the form of each instruction. -/
theorem scalarFloat : Obligations.ScalarFloat := by
  intro s c f hi hr x lo a b d t
  have hr2 : x.ready [rA f, rB f] := CoreCtx.ready_mono hr (by simp)
  have hr1 : x.ready [rA f] := CoreCtx.ready_mono hr (by simp)
  refine ⟨fun hl => ?two, fun hl => ?fma, fun hl => ?cmp, fun hl hx => ?cvt⟩
  case two =>
    have hrun {g : Nat → Nat → Nat × FFlags} : (.next (s.coreStep c (fpAB g f)) : Res) = t (g a b) := State.coreStep_fpAB hi hl hr2 g
    exact ⟨hrun, hrun, hrun, hrun, hrun⟩
  case fma => exact State.coreStep_of_gate hi hl hr rfl
  case cmp =>
    have hbit (k : Bool) : BitVec.ofNat 64 (b2n k) = ofBool k := by cases k <;> rfl
    dsimp only [t]
    rw [hbit]
    exact State.coreStep_of_gate hi hl hr2 rfl
  case cvt =>
    dsimp only [t]
    rw [BitVec.ofNat_toNat, BitVec.setWidth_eq]
    exact State.coreStep_of_gate hi (by simp [hl, hx]) hr1 rfl

/-- Settles O4: the six branches are one form; CALL and JR by their own targets. -/
theorem branches : Obligations.Branches := by
  intro s c f hi x a b to_ t
  refine ⟨fun hl ht hr => ?branch, fun hl ha hb ht => ?call, fun hl hr ht => ?jr⟩
  case branch =>
    have hrun {k : Word → Word → Bool} {p : Bool} (hk : k a b = p) : (.next (s.coreStep c (aluBranch k f)) : Res) = t p :=
      (State.coreStep_aluBranch hi hl ht hr k).trans (congrArg t hk)
    exact ⟨hrun rfl, hrun (by rw [decide_not]; rfl), hrun rfl, hrun (by simp [BitVec.slt, ← decide_not]), hrun rfl,
      hrun (by simp [BitVec.ult, ← decide_not])⟩
  case call => exact State.coreStep_of_gate hi (by simp [hl, ha, hb]) CoreCtx.ready_nil (if_pos ht)
  case jr => exact State.coreStep_of_gate hi hl hr (if_pos ht)

end Sys2Proof.Machine
end

section
/-! The vector instructions (R215 to R217, R256, Table 7.8) at a core that issues: the registers that an encoding names are ready, and behind its gate an
instruction replaces the elements of the active lanes. -/

namespace Sys2Proof.Machine

/-! The gate and the operands (R203, R215). -/

/-- A vector instruction that is legal and whose registers are ready comes to what stands behind its gate. -/
theorem State.coreStep_of_vgate {s : State} {c : Nat} {legal : Bool} {srcs vregs : List Nat} {k : CoreCtx → CoreRes} {y : CoreCtx}
    (hi : s.issues c) (hl : legal = true) (hr : (s.core c).ready srcs) (hv : (s.core c).vready vregs) (hk : k (s.core c) = .ok y) :
    (.next (s.coreStep c (vgate legal srcs vregs k)) : Res) = .next (s.setCore c y) :=
  congrArg Host.Outcome.next (State.coreStep_of_issues hi ((vgate_of_ready k hl hr hv).trans hk))

theorem mem_bSrc {f : BitVec 56} {n : Nat} (h : n ∈ bSrc f) : n = rB f := by
  rw [bSrc] at h
  split at h <;> simp_all

theorem mem_bVec {f : BitVec 56} {n : Nat} (h : n ∈ bVec f) : n = rB f := by
  rw [bVec] at h
  split at h <;> simp_all

theorem CoreCtx.ready_bSrc {x : CoreCtx} {f : BitVec 56} (hr : x.ready [rA f, rB f]) : x.ready (bSrc f) :=
  CoreCtx.ready_mono hr fun n hn => by simp [mem_bSrc hn]

theorem CoreCtx.vready_bVec {x : CoreCtx} {f : BitVec 56} {l : List Nat} (hv : x.vready [rD f, rA f, rB f, rC f])
    (hl : ∀ n ∈ l, n ∈ [rD f, rA f, rB f, rC f]) : x.vready (l ++ bVec f) := by
  refine CoreCtx.vready_mono hv fun n hn => ?_
  rcases List.mem_append.mp hn with h | h
  · exact hl n h
  · simp [mem_bVec h]

theorem bOk_of {f : BitVec 56} (h : bs f = true ∨ vOk (rB f) = true) : bOk f = true := by simpa [bOk] using h

/-! The elements (R215). -/

/-- A register context whose register d has the elements of its active lanes replaced, with the flags of those elements. -/
def CoreCtx.mapLanes (x : CoreCtx) (f : BitVec 56) (w : Nat) (g : Nat → Nat × FFlags) : CoreCtx :=
  let r := vMap w (laneOn x f) (x.rv (rD f)) g
  ((x.wv (rD f) r.1).orFl r.2).adv

theorem foldl_or_of_zero {l : List (Nat × FFlags)} (h : ∀ e ∈ l, e.2 = 0) (fl : FFlags) : l.foldl (fun fl e => fl ||| e.2) fl = fl := by
  induction l generalizing fl with
  | nil => rfl
  | cons e l ih =>
    rw [List.foldl_cons, h e List.mem_cons_self, show fl ||| 0 = fl from BitVec.or_zero]
    exact ih (fun e he => h e (List.mem_cons_of_mem _ he)) fl

/-- Elements without flags raise none. -/
theorem vMap_flags_of_zero {w : Nat} {on : Nat → Bool} {old : VReg} {g : Nat → Nat × FFlags} (h : ∀ i, (g i).2 = 0) :
    (vMap w on old g).2 = 0 := by
  refine foldl_or_of_zero (fun e he => ?_) 0
  obtain ⟨i, -, rfl⟩ := List.mem_map.mp he
  split
  · exact h i
  · rfl

theorem CoreCtx.orFl_zero (x : CoreCtx) : x.orFl 0 = x := by simp [CoreCtx.orFl]

theorem CoreCtx.mapLanes_of_zero (x : CoreCtx) (f : BitVec 56) (w : Nat) {g : Nat → Nat × FFlags} (h : ∀ i, (g i).2 = 0) :
    x.mapLanes f w g = (x.wv (rD f) (vMap w (laneOn x f) (x.rv (rD f)) g).1).adv := by
  simp only [CoreCtx.mapLanes, vMap_flags_of_zero h, CoreCtx.orFl_zero]

theorem vWidth_of_fmt {m : Nat} (h : m = 0 ∨ m = 3) : vWidth m = 32 := by
  rcases h with rfl | rfl <;> rfl

/-! The element-wise forms of Table 7.8. -/

section
variable {s : State} {c : Fin 256} {f : BitVec 56} (hi : s.issues c) (hd : vOk (rD f) = true) (ha : vOk (rA f) = true)
  (hv : (s.core c).vready [rD f, rA f, rB f, rC f])
include hi hd ha hv

theorem State.coreStep_vecAB (hb : bOk f = true) (hr : (s.core c).ready [rA f, rB f]) (hc : rC f = 0) (hx : xOnly f 1 = true)
    {fmtOk : Nat → Bool} (hm : fmtOk (rFmt f) = true) (g : Nat → Nat → Nat → Nat × FFlags) :
    (.next (s.coreStep c (vecAB fmtOk g f)) : Res) = .next (s.setCore c ((s.core c).mapLanes f (vWidth (rFmt f)) fun i =>
      g (rFmt f) (vGet ((s.core c).rv (rA f)) (vWidth (rFmt f)) i) (vB (s.core c) f (vWidth (rFmt f)) i))) :=
  State.coreStep_of_vgate hi (by simp [hm, hd, ha, hb, hc, hx]) (CoreCtx.ready_bSrc hr) (CoreCtx.vready_bVec hv (by simp)) rfl

theorem State.coreStep_vecFma (hb : bOk f = true) (hr : (s.core c).ready [rA f, rB f]) (hc : vOk (rC f) = true) (hx : xOnly f 1 = true)
    (hm : rFmt f < 3) :
    (.next (s.coreStep c (vecFma f)) : Res) = .next (s.setCore c ((s.core c).mapLanes f (vWidth (rFmt f)) fun i =>
      fFma (vFmt (rFmt f)) (vGet ((s.core c).rv (rA f)) (vWidth (rFmt f)) i) (vB (s.core c) f (vWidth (rFmt f)) i)
        (vGet ((s.core c).rv (rC f)) (vWidth (rFmt f)) i))) :=
  State.coreStep_of_vgate hi (by simp [hm, hd, ha, hb, hc, hx]) (CoreCtx.ready_bSrc hr) (CoreCtx.vready_bVec hv (by simp)) rfl

theorem State.coreStep_vecShift (hb : bOk f = true) (hr : (s.core c).ready [rA f, rB f]) (hc : rC f = 0) (hx : xOnly f 7 = true)
    (hm : rFmt f = 3) (hk : bitsOf (rX f) 2 1 < 3) :
    (.next (s.coreStep c (vecShift f)) : Res) = .next (s.setCore c ((s.core c).mapLanes f (vWidth (rFmt f)) fun i =>
      (eShift (bitsOf (rX f) 2 1) (vGet ((s.core c).rv (rA f)) (vWidth (rFmt f)) i) (vB (s.core c) f (vWidth (rFmt f)) i), 0))) := by
  rw [vWidth_of_fmt (.inr hm), CoreCtx.mapLanes_of_zero _ _ _ fun _ => rfl]
  exact State.coreStep_of_vgate hi (by simp [hm, hd, ha, hb, hc, hx, hk]) (CoreCtx.ready_bSrc hr) (CoreCtx.vready_bVec hv (by simp)) rfl

theorem State.coreStep_vecA (hb : rB f = 0) (hc : rC f = 0) (hx : xOnly f 0 = true) {fmtOk : Nat → Bool} (hm : fmtOk (rFmt f) = true)
    (g : Nat → Nat → Nat × FFlags) :
    (.next (s.coreStep c (vecA fmtOk g f)) : Res) = .next (s.setCore c ((s.core c).mapLanes f (vWidth (rFmt f)) fun i =>
      g (rFmt f) (vGet ((s.core c).rv (rA f)) (vWidth (rFmt f)) i))) :=
  State.coreStep_of_vgate hi (by simp [hm, hd, ha, hb, hc, hx]) CoreCtx.ready_nil (CoreCtx.vready_mono hv (by simp)) rfl

theorem State.coreStep_vecT (hb : rB f = 0) (hc : rC f = 0) (hx : xOnly f 0 = true) (hm : rFmt f = 0) (g : TFun) :
    (.next (s.coreStep c (vecT g f)) : Res) = .next (s.setCore c ((s.core c).mapLanes f (vWidth (rFmt f)) fun i =>
      tEvalMode (s.core c).kern.reproj g (vGet ((s.core c).rv (rA f)) (vWidth (rFmt f)) i))) := by
  rw [vWidth_of_fmt (.inl hm)]
  exact State.coreStep_of_vgate hi (by simp [hm, hd, ha, hb, hc, hx]) CoreCtx.ready_nil (CoreCtx.vready_mono hv (by simp)) rfl

end

/-- Settles O6, by the form of each instruction. -/
theorem vectorElementwise : Obligations.VectorElementwise := by
  intro s c f hi hd ha hb hr hv x m w a b t
  have hb' : bOk f = true := bOk_of hb
  have htwo {fmtOk : Nat → Bool} {g : Nat → Nat → Nat → Nat × FFlags} (hm : fmtOk m = true) (hc : rC f = 0) (hx : xOnly f 1 = true) :
      (.next (s.coreStep c (vecAB fmtOk g f)) : Res) = t fun i => g m (a i) (b i) :=
    State.coreStep_vecAB hi hd ha hv hb' hr hc hx hm g
  refine ⟨fun hm hc hx => ?arith, fun hm hc hx => ?fma, fun hm hb hc hx => ?sign, fun hm hc hx => ?logic, fun hm hc hx hk => ?shift,
    fun hm hb hc hx => ?trans⟩
  case arith =>
    have hm' : fmt03 m = true := decide_eq_true hm
    exact ⟨htwo hm' hc hx, htwo hm' hc hx, htwo hm' hc hx, htwo hm' hc hx, htwo hm' hc hx⟩
  case fma => exact State.coreStep_vecFma hi hd ha hv hb' hr hc hx hm
  case sign =>
    have hm' : fmt03 m = true := decide_eq_true hm
    exact ⟨State.coreStep_vecA hi hd ha hv hb hc hx hm' _, State.coreStep_vecA hi hd ha hv hb hc hx hm' _⟩
  case logic =>
    have hm' : fmt3 m = true := beq_iff_eq.mpr hm
    exact ⟨htwo hm' hc hx, htwo hm' hc hx, htwo hm' hc hx⟩
  case shift => exact State.coreStep_vecShift hi hd ha hv hb' hr hc hx hm hk
  case trans =>
    intro e
    have hone {g : TFun} : (.next (s.coreStep c (vecT g f)) : Res) = t (e g) := State.coreStep_vecT hi hd ha hv hb hc hx hm g
    exact ⟨hone, hone, hone, hone, hone, hone, hone, hone⟩

/-! The other vector instructions. -/

/-- The part of a VCVT (log 14) that fits the packed source and the packed destination is one that its encoding allows. -/
theorem cvtPart_legal {w tw part : Nat} (hpart : part < 4) (hzero : w = 32 → tw = 32 → part = 0) (hsrc : w ≠ 32 → part < 32 / w)
    (hdst : tw ≠ 32 → part < 32 / tw) :
    (if w = 32 ∧ tw = 32 then part == 0 else decide (part < min (if w = 32 then 4 else 32 / w) (if tw = 32 then 4 else 32 / tw))) = true := by
  by_cases hw : w = 32 <;> by_cases htw : tw = 32
  · rw [if_pos ⟨hw, htw⟩, hzero hw htw]
    rfl
  · rw [if_neg fun h => htw h.2, if_pos hw, if_neg htw]
    exact decide_eq_true (Nat.lt_min.mpr ⟨hpart, hdst htw⟩)
  · rw [if_neg fun h => hw h.1, if_neg hw, if_pos htw]
    exact decide_eq_true (Nat.lt_min.mpr ⟨hsrc hw, hpart⟩)
  · rw [if_neg fun h => hw h.1, if_neg hw, if_neg htw]
    exact decide_eq_true (Nat.lt_min.mpr ⟨hsrc hw, hdst htw⟩)

/-- Settles O7, by the form of each instruction. -/
theorem vectorOther : Obligations.VectorOther := by
  intro s c f hi hr hv x m w a v
  have hr' : x.ready [rB f] := CoreCtx.ready_mono hr (by simp)
  refine ⟨fun hm hd ha hb hc hx hk => ?cmp, fun hm hd ha hb hc hx => ?sel, fun hm hd ha hc hx => ?cvt,
    fun hm hd hb hc hx => ?bc, fun hm hd ha hb hc hx => ?iota, fun hm ha hc hx hpn hpr hin => ?extr, fun hm ha hb hc hx hpn hpr => ?pcnt,
    fun hm hd ha hb hc hx => ?plog, fun hm ha hb hc hx => ?reduce⟩
  case cmp =>
    intro r
    exact State.coreStep_of_vgate hi (by simpa [pOk, hd, ha, hb, hc, hx, hk] using hm) (CoreCtx.ready_bSrc hr)
      (CoreCtx.vready_bVec hv (l := [rA f]) (by simp)) rfl
  case sel =>
    exact State.coreStep_of_vgate hi (by simpa [pOk, hd, ha, hb, hc, hx] using hm) (CoreCtx.ready_bSrc hr)
      (CoreCtx.vready_bVec hv (by simp)) rfl
  case cvt =>
    intro k part tw s0 d0 hk hzero hsrc hdst
    have hpart : part < 4 := Nat.mod_lt _ (by decide)
    exact State.coreStep_of_vgate hi
      (Bool.and_eq_true_iff.mpr ⟨by simpa [hd, ha, hc, hx] using ⟨hm, hk⟩, cvtPart_legal hpart hzero hsrc hdst⟩) hr'
      (CoreCtx.vready_mono hv (by simp)) rfl
  case bc =>
    exact State.coreStep_of_vgate hi (by simpa [hd, hb, hc, hx] using hm) (CoreCtx.ready_mono hr (by simp))
      (CoreCtx.vready_mono hv (by simp)) rfl
  case iota =>
    exact State.coreStep_of_vgate hi (by simpa [hd, ha, hb, hc, hx] using hm) CoreCtx.ready_nil (CoreCtx.vready_mono hv (by simp)) rfl
  case extr =>
    rw [show a (x.rs (rB f)).toNat = if (x.rs (rB f)).toNat < 32768 / w then a (x.rs (rB f)).toNat else
      (Config.openWord [1, rFmt f, (x.rs (rB f)).toNat, (x.rv (rA f)).toNat]).toNat % 2 ^ w from (if_pos hin).symm]
    exact State.coreStep_of_vgate hi (by simpa [ha, hc, hx, hpn, hpr] using hm) hr' (CoreCtx.vready_mono hv (by simp)) rfl
  case pcnt =>
    rw [show ((List.range 1024).filter (x.rp (rA f)).getLsbD).length = popCount 1024 (x.rp (rA f)).toNat from (popCount_eq_length _ _).symm]
    exact State.coreStep_of_gate hi (by simpa [pOk, ha, hb, hc, hx, hpn, hpr] using hm) CoreCtx.ready_nil rfl
  case plog =>
    intro p q
    refine State.coreStep_of_gate hi (by simpa [pOk, hd, ha, hb, hc, hx] using hm) CoreCtx.ready_nil ?_
    generalize rX f = k
    match k with
    | 0 => rfl
    | 1 => rfl
    | 2 => rfl
    | k + 3 => rfl
  case reduce =>
    intro l t
    have hrun {k : Nat} {g : Nat → Nat → Nat × FFlags} {z : Nat} (hg : (fun a b => if k = 0 then eAdd m a b else eMinMax (k == 1) m a b) = g)
        (hz : (if m = 3 then (if k = 0 then 0 else if k = 1 then 2 ^ 31 else 2 ^ 31 - 1)
          else (if k = 0 then 2 ^ 31 else if k = 1 then 0xFF800000 else 0x7F800000)) = z) :
        (.next (s.coreStep c (vecReduce k f)) : Res) = t g z := by
      subst hg hz
      exact State.coreStep_of_vgate hi (by simpa [ha, hb, hc, hx] using hm) CoreCtx.ready_nil (CoreCtx.vready_mono hv (by simp)) rfl
    exact ⟨hrun rfl rfl, hrun rfl rfl, hrun rfl rfl⟩

end Sys2Proof.Machine
end

section
/-! The matrix instructions (R204, R218 to R222, Table 7.9): what enters the queue of a core that issues, and what becomes of its head and of a weight load. -/

namespace Sys2Proof.Machine

/-! Into the queue (R204). -/

/-- A legal matrix instruction with its registers ready enters a queue that has room. -/
theorem State.enqueue_of_room {s : State} {c : Nat} {legal : Bool} {srcs vregs : List Nat} {g : CoreCtx → Option Status × MqEntry} {e : MqEntry}
    (hi : s.issues c) (hl : legal = true) (hr : (s.core c).ready srcs) (hv : (s.core c).vready vregs) (hroom : (s.core c).mq.length < 4)
    (hg : g (s.core c) = (none, e)) :
    (.next (s.enqueue c legal srcs vregs g) : Res) =
      .next (s.setCore c { s.core c with mq := (s.core c).mq ++ [((s.core c).pc, e)] }.adv) := by
  rw [State.enqueue, State.memStep_of_issues hi _ hl hr hv, if_neg (Nat.not_le.mpr hroom), hg]

/-- A register field that is zero where it is not used, as R209 asks. -/
theorem or_beq_zero_of_imp {used : Bool} {n : Nat} (h : used = false → n = 0) : (used || n == 0) = true := by
  cases used
  · exact beq_iff_eq.mpr (h rfl)
  · rfl

section
variable {s : State} {c : Fin 256} {f : BitVec 56} (hi : s.issues c) (hr : (s.core c).ready [rA f, rB f, rC f])
  (hroom : (s.core c).mq.length < 4)
include hi hr hroom

theorem execWld_of_room (hl : matLegal f 0x1FFF = true) (hd : rD f = 0) (hb : bitsOf (rX f) 1 0 = 0 → rB f = 0)
    (hc : (matFmt (rFmt f)).mx = false → rC f = 0)
    (htile : blockFault ((s.core c).rs (rA f)).toNat (128 * rowBytes (rFmt f)) = none)
    (hmeta : bitsOf (rX f) 1 0 ≠ 0 → blockFault ((s.core c).rs (rB f)).toNat (128 * metaRow (rFmt f)) = none)
    (hscale : (matFmt (rFmt f)).mx = true →
      blockFault ((s.core c).rs (rC f)).toNat (128 * (denseK (rFmt f) (bitsOf (rX f) 1 0) / 32)) = none) :
    execWld c f s = .next (s.setCore c { s.core c with mq := (s.core c).mq ++ [((s.core c).pc, MqEntry.wld (rFmt f) (bitsOf (rX f) 1 0)
      (bitsOf (rX f) 12 2) ((s.core c).rs (rA f)).toNat ((s.core c).rs (rB f)).toNat ((s.core c).rs (rC f)).toNat)] }.adv) := by
  refine State.enqueue_of_room hi ?legal (CoreCtx.ready_mono hr ?regs) CoreCtx.vready_nil hroom ?places
  case legal =>
    have hb' : (bitsOf (rX f) 1 0 != 0 || rB f == 0) = true := or_beq_zero_of_imp fun h => hb (by simpa using h)
    simp [hl, hd, hb', or_beq_zero_of_imp hc]
  case regs =>
    intro n hn
    simp only [List.mem_append, List.mem_singleton, List.mem_ite_nil_left, List.mem_ite_nil_right] at hn
    rcases hn with (rfl | ⟨-, rfl⟩) | ⟨-, rfl⟩ <;> simp
  case places =>
    have hmeta' : (if bitsOf (rX f) 1 0 = 0 then none else blockFault ((s.core c).rs (rB f)).toNat (128 * metaRow (rFmt f))) = none := by
      rw [ite_eq_left_iff]
      exact hmeta
    have hscale' : (if (matFmt (rFmt f)).mx then
        blockFault ((s.core c).rs (rC f)).toNat (128 * (denseK (rFmt f) (bitsOf (rX f) 1 0) / 32)) else none) = none := by
      rw [ite_eq_right_iff]
      exact hscale
    simp only [htile, hmeta', hscale', Option.or_none]

theorem execMpass_of_room (hl : matLegal f 0xFFF = true) (hd : rD f = 0) (hc : (matFmt (rFmt f)).mx = false → rC f = 0) :
    execMpass c f s = .next (s.setCore c { s.core c with mq := (s.core c).mq ++ [((s.core c).pc, MqEntry.mpass (rFmt f)
      ((s.core c).rs (rA f)).toNat ((s.core c).rs (rB f)).toNat ((s.core c).rs (rC f)).toNat (bitsOf (rX f) 1 0) (bitOf (rX f) 2)
      (bitOf (rX f) 3) (bitOf (rX f) 4) (bitsOf (rX f) 11 5 + 1))] }.adv) := by
  refine State.enqueue_of_room hi ?legal (CoreCtx.ready_mono hr ?regs) CoreCtx.vready_nil hroom rfl
  case legal => simp [hl, hd, or_beq_zero_of_imp hc]
  case regs =>
    intro n hn
    simp only [List.mem_append, List.mem_cons, List.not_mem_nil, or_false, List.mem_ite_nil_right] at hn
    rcases hn with (rfl | rfl) | ⟨-, rfl⟩ <;> simp

end

/-! Out of the queue (R174, R181, R218). -/

section
variable {s : State} {c : Fin 256} {pc : Nat} {rest : List (Nat × MqEntry)} (hrun : (s.core c).run = .running)
include hrun

theorem execMatrixQueueStart_accz {k : Nat} (hq : (s.core c).mq = (pc, .accz k) :: rest) :
    execMatrixQueueStart c s =
      .next ((s.setCore c { s.core c with mq := rest, acc := (s.core c).acc.put k AccTile.fresh }).drainStep c) := by
  simp only [execMatrixQueueStart, hrun, hq]

theorem execMatrixQueueStart_wld {u : State} {m z ke a b d : Nat} (hq : (s.core c).mq = (pc, .wld m z ke a b d) :: rest)
    (hidle : (s.core c).load = none) (hread : s.scrReads c (wldReads m z a b d) = (u, none)) :
    execMatrixQueueStart c s =
      .next ((u.setCore c { s.core c with mq := rest, load := some (u.readTile c pc m z ke a b d) }).drainStep c) := by
  simp only [execMatrixQueueStart, hrun, hq, hidle, hread, Option.isSome_none, Bool.false_eq_true, if_false]

theorem execMatrixQueueStart_mpass {m ad st sc k n : Nat} {sw wr tr : Bool}
    (hq : (s.core c).mq = (pc, .mpass m ad st sc k sw wr tr n) :: rest) (hfree : sw = false ∨ (s.core c).load = none) :
    execMatrixQueueStart c s = .next ((s.startPass c pc { s.core c with mq := rest } m ad st sc k sw wr tr n).drainStep c) := by
  have hgo : (sw && (s.core c).load.isSome) = false := by rcases hfree with h | h <;> simp [h]
  simp only [execMatrixQueueStart, hrun, hq, hgo, Bool.false_eq_true, if_false]

theorem execMatrixQueueStart_accrd {d g k : Nat} {b : Int} (hq : (s.core c).mq = (pc, .accrd d g b k) :: rest) :
    let tile := (s.core c).acc.getD k AccTile.fresh
    let r := (List.range 1024).map fun l => accRead tile.kind b (tile.words.getD ((8 * g + l / 128) * 128 + l % 128) AccWord.zero)
    execMatrixQueueStart c s = .next ((s.setCore c
      ((({ s.core c with mq := rest } : CoreCtx).wv d (vOfList 32 (r.map (·.1)))).orFl (r.foldl (fun fl e => fl ||| e.2) 0))).drainStep c) := by
  simp only [execMatrixQueueStart, hrun, hq]

end

/-! The end of a weight load (R187, R188). -/

@[simp] theorem State.captureFault_boot (s : State) (c : Nat) (st : Status) (info pcv : Nat) : (s.captureFault c st info pcv).boot = s.boot := by
  simp only [State.captureFault, State.capture]
  split <;> rfl

/-- The capture of a fault does not move a virtual core to another physical core (R200). -/
theorem State.captureFault_runner (s : State) (c c' : Nat) (st : Status) (info pcv : Nat) :
    (s.captureFault c st info pcv).runner c' = s.runner c' := by
  simp only [State.runner, State.captureFault_boot]

/-- A weight load that ends leaves the array free and gives the shadow tile; a violation of its metadata is captured and counted. -/
theorem execWeightLoadComplete_of_loading {s : State} {c : Fin 256} {t : WTile} (hload : (s.core c).load = some t) :
    let u := s.setCore c { s.core c with load := none, shadow := some t }
    execWeightLoadComplete c s = .next ((match t.viol with
      | none => u
      | some (i, col, kind) => (u.captureFault c .sparseMeta (i * 2 ^ 40 + col * 2 ^ 33 + kind * 2 ^ 31) t.pc).bump
          F.CORE_SPARSE_META_CNT_bad_tiles (s.runner c) 0 1).drainStep c) := by
  simp only [execWeightLoadComplete, hload, State.captureFault_runner]
  rcases t.viol with _ | ⟨i, col, kind⟩ <;> rfl

/-- Settles O8: what enters the queue by each instruction's own equation, what leaves it by the entry at its head. -/
theorem matrixQueue : Obligations.MatrixQueue := by
  intro s c f x q n mx sp
  refine ⟨fun hi hr hv hroom => ⟨?wld, ?mpass, ?accrd, ?accz⟩, fun pc k rest hrun hq => ?startAccz,
    fun pc m z ke a b d rest u hrun hq hidle hread => ?startWld, fun pc m ad st sc k sw wr tr n rest hrun hq hfree => ?startMpass,
    fun pc d g b k rest hrun hq => ?startAccrd, fun t hload => ?loaded⟩
  case wld => exact fun hl hd hb hc htile hmeta hscale => execWld_of_room hi hr hroom hl hd hb hc htile hmeta hscale
  case mpass => exact fun hl hd hc => execMpass_of_room hi hr hroom hl hd hc
  case accrd =>
    intro hl hd hc
    exact State.enqueue_of_room hi (by simp [hl, vOk, hd, hc]) (CoreCtx.ready_mono hr (by simp)) hv hroom rfl
  case accz =>
    intro hl hd ha hb hc
    exact State.enqueue_of_room hi (by simp [hl, hd, ha, hb, hc]) CoreCtx.ready_nil CoreCtx.vready_nil hroom rfl
  case startAccz => exact execMatrixQueueStart_accz hrun hq
  case startWld => exact execMatrixQueueStart_wld hrun hq hidle hread
  case startMpass => exact execMatrixQueueStart_mpass hrun hq hfree
  case startAccrd => exact execMatrixQueueStart_accrd hrun hq
  case loaded => exact execWeightLoadComplete_of_loading hload

end Sys2Proof.Machine
end

section
/-! Waits, semaphores, the remote store of SUBMIT, movers and the system instructions (R227 to R232, Tables 7.12 and 7.13) at a core that issues. -/

namespace Sys2Proof.Machine

/-! What no core's state decides: an encoding without operands, and the special registers (R209, R231). -/

/-- An instruction that names no register is legal with its register fields zero (R209). -/
theorem noOperands_legal {f : BitVec 56} {mask : Nat} (hl : plainLegal f mask = true) (hz : rD f = 0 ∧ rA f = 0 ∧ rB f = 0 ∧ rC f = 0) :
    (plainLegal f mask && rD f == 0 && rA f == 0 && rB f == 0 && rC f == 0) = true := by
  obtain ⟨hd, ha, hb, hc⟩ := hz
  simp [hl, hd, ha, hb, hc]

/-- The special registers by their codes (R231). -/
theorem State.special_eq_getD (s : State) (c : Nat) (x : CoreCtx) {k : Nat} (hk : k < 8) :
    s.special c x k = [BitVec.ofNat 64 x.kern.vindex, BitVec.ofNat 64 (x.kern.vindex - x.kern.vfirst), BitVec.ofNat 64 x.kern.logical,
      BitVec.ofNat 64 x.kern.job, BitVec.ofNat 64 s.datum, Config.freeWord s.free, x.fl.zeroExtend 64, BitVec.ofNat 64 (s.runner c)].getD k 0 := by
  match k, hk with
  | 0, _ | 1, _ | 2, _ | 3, _ | 4, _ | 5, _ | 6, _ | 7, _ => rfl
  | k + 8, h => exact absurd h (by omega)

section
variable {s : State} {c : Fin 256} {f : BitVec 56} (hi : s.issues c)
include hi

/-! Waits (R227). -/

/-- A wait on an aligned word of the sheet's data completes with 1 where the word satisfies it, and holds its core otherwise. -/
theorem State.waitOp_of_good (hr : (s.core c).ready [rA f, rB f]) (hl : plainLegal f 0xFFFF = true) (hc : rC f = 0)
    (hal : ((s.core c).rs (rA f)).toNat % 8 = 0) (hin : s.inData (s.core c).kern.sheet ((s.core c).rs (rA f)).toNat 8 = true) (ne : Bool) :
    let x := s.core c
    let a := (x.rs (rA f)).toNat
    let us := bitsOf (rX f) 15 0
    s.waitOp c f ne = if s.waitHolds x a (x.rs (rB f)) ne = true then s.setCore c (x.ws (rD f) 1).adv
      else s.setCore c { x with run := .blocked (.wait a (x.rs (rB f)) ne (rD f) (if us = 0 then none else some (s.datum + 1000 * us))) } := by
  have hrange : ¬ (!s.inData (s.core c).kern.sheet ((s.core c).rs (rA f)).toNat 8) = true := by simp [hin]
  simp only [State.waitOp, State.sysStep_of_issues hi _ (Bool.and_eq_true_iff.mpr ⟨hl, beq_iff_eq.mpr hc⟩) hr, hal, ne_eq, not_true_eq_false,
    if_false, if_neg hrange, usTicks, Nat.mul_comm 1000]

theorem execWaitge_of_good (hr : (s.core c).ready [rA f, rB f]) (hl : plainLegal f 0xFFFF = true) (hc : rC f = 0)
    (hal : ((s.core c).rs (rA f)).toNat % 8 = 0) (hin : s.inData (s.core c).kern.sheet ((s.core c).rs (rA f)).toNat 8 = true) :
    let x := s.core c
    let a := (x.rs (rA f)).toNat
    let us := bitsOf (rX f) 15 0
    execWaitge c f s = if (x.rs (rB f)).toNat ≤ s.rdN x.kern.sheet a 8 then .next (s.setCore c (x.ws (rD f) 1).adv)
      else .next (s.setCore c { x with
        run := .blocked (.wait a (x.rs (rB f)) false (rD f) (if us = 0 then none else some (s.datum + 1000 * us))) }) := by
  rw [execWaitge, State.waitOp_of_good hi hr hl hc hal hin, apply_ite Host.Outcome.next]
  simp only [State.waitHolds, Bool.false_eq_true, if_false, decide_eq_true_eq]

theorem execWaitne_of_good (hr : (s.core c).ready [rA f, rB f]) (hl : plainLegal f 0xFFFF = true) (hc : rC f = 0)
    (hal : ((s.core c).rs (rA f)).toNat % 8 = 0) (hin : s.inData (s.core c).kern.sheet ((s.core c).rs (rA f)).toNat 8 = true) :
    let x := s.core c
    let a := (x.rs (rA f)).toNat
    let us := bitsOf (rX f) 15 0
    execWaitne c f s = if s.rdN x.kern.sheet a 8 ≠ (x.rs (rB f)).toNat then .next (s.setCore c (x.ws (rD f) 1).adv)
      else .next (s.setCore c { x with
        run := .blocked (.wait a (x.rs (rB f)) true (rD f) (if us = 0 then none else some (s.datum + 1000 * us))) }) := by
  rw [execWaitne, State.waitOp_of_good hi hr hl hc hal hin, apply_ite Host.Outcome.next]
  simp only [State.waitHolds, if_true, decide_eq_true_eq]

/-! Semaphores (R228, R382). -/

section
variable (hl : plainLegal f 0xFF = true) (hz : rD f = 0 ∧ rA f = 0 ∧ rB f = 0 ∧ rC f = 0)
include hl hz

theorem execSacq_of_free (hfree : s.sems.find ((s.core c).kern.sheet, bitsOf (rX f) 7 0) = none) :
    let k := (s.core c).kern
    execSacq c f s = .next (({ s with sems := s.sems.put (k.sheet, bitsOf (rX f) 7 0) ⟨k.ctxIdx, c, s.datum⟩ }.setCore c
      (s.core c).adv).keepLifts k.sheet) := by
  simp only [execSacq, State.sysStep_of_issues hi _ (noOperands_legal hl hz) CoreCtx.ready_nil, hfree]

theorem execSacq_of_held {m : Sem} (hheld : s.sems.find ((s.core c).kern.sheet, bitsOf (rX f) 7 0) = some m) :
    let x := s.core c
    execSacq c f s = if m.ctx = x.kern.ctxIdx ∧ m.core = c then .next (s.setCore c x.adv)
      else .next ((s.setCore c { x with run := .blocked (.sacq (bitsOf (rX f) 7 0)) }).keepLifts x.kern.sheet) := by
  simp only [execSacq, State.sysStep_of_issues hi _ (noOperands_legal hl hz) CoreCtx.ready_nil, hheld, apply_ite Host.Outcome.next]

theorem execSrel_of_held {d : Nat} (hheld : s.sems.find ((s.core c).kern.sheet, bitsOf (rX f) 7 0) = some ⟨(s.core c).kern.ctxIdx, c, d⟩) :
    execSrel c f s = .next ((s.setCore c (s.core c).adv).semRelease (s.core c).kern.sheet (bitsOf (rX f) 7 0)) := by
  simp only [execSrel, State.sysStep_of_issues hi _ (noOperands_legal hl hz) CoreCtx.ready_nil, hheld, and_self, if_true]

end

/-! A descriptor in the scratchpad: SUBMIT and MVI (R229, R230). -/

section
variable (hr : (s.core c).ready [rA f]) (hl : plainLegal f 7 = true) (hb : rB f = 0) (hc : rC f = 0)
  (hal : ((s.core c).rs (rA f)).toNat % 64 = 0) (hin : ((s.core c).rs (rA f)).toNat + 64 ≤ 2 ^ 24) (hsel : bitsOf (rX f) 2 0 < 5)
include hr hl hb hc hal hin hsel

theorem execMvi_of_idle {j : Nat} (hj : s.moverFor c (bitsOf (rX f) 2 0) = some j) :
    execMvi c f s = .next (s.startMover c ((s.core c).rs (rA f)).toNat j (rD f)) := by
  rw [execMvi, State.sysStep_of_issues hi _ (by simp [hl, hb, hc, hsel]) hr]
  simp only [hal, ne_eq, not_true_eq_false, if_false, if_neg (Nat.not_lt.mpr hin), hj]

theorem execSubmit_of_free (hd : rD f = 0) (hfree : s.coreHeld (s.core c).kern.sheet (s.core c).kern.vindex = false)
    (hroom : (s.stream ⟨(s.core c).kern.sheet, (s.core c).kern.vindex, (s.core c).kern.job, (s.core c).kern.logical⟩).unacked < 65536)
    (hclean : (s.scrReads c [(((s.core c).rs (rA f)).toNat, 64)]).2 = none) :
    let x := s.core c
    let k := x.kern
    let u := (s.scrReads c [((x.rs (rA f)).toNat, 64)]).1.setCore c { x with run := .blocked .submit }
    let page := 0x20000000000 + k.vindex / 32 * 2 ^ 20 + bitsOf (rX f) 2 0 * 2 ^ 16
    execSubmit c f s = .next ((u.issue ⟨k.sheet, k.vindex, k.job, k.logical⟩ (BitVec.ofNat 64 (k.logical * 2 ^ 44 + page))
      { OpEnd.none with owner := some (1, c.val) } fun e => [⟨{ u.reqFrame k.sheet k.vindex k.job e 2 1 with
        addr := BitVec.ofNat 44 page, spec := 6, last := true, payload := u.scrRd c (x.rs (rA f)).toNat 64 }, none, none⟩]).settleOwners) := by
  have hgo : ¬ (s.coreHeld (s.core c).kern.sheet (s.core c).kern.vindex || decide (65536 ≤ (s.stream ⟨(s.core c).kern.sheet,
      (s.core c).kern.vindex, (s.core c).kern.job, (s.core c).kern.logical⟩).unacked)) = true := by simp [hfree, hroom]
  rw [execSubmit, State.sysStep_of_issues hi _ (by simp [hl, hb, hc, hd, hsel]) hr]
  simp only [hal, ne_eq, not_true_eq_false, if_false, if_neg (Nat.not_lt.mpr hin), if_neg hgo,
    State.scrLoad_of_clean _ (Prod.ext rfl hclean : s.scrReads c _ = (_, none))]

end

/-! Movers and the system instructions (R230 to R232). -/

theorem execMvwait_of_free (hl : plainLegal f 0xF = true) (hz : rD f = 0 ∧ rA f = 0 ∧ rB f = 0 ∧ rC f = 0)
    (hfree : s.moversFree c (bitsOf (rX f) 3 0) = true) : execMvwait c f s = .next (s.setCore c (s.core c).adv) := by
  rw [execMvwait, State.sysStep_of_issues hi _ (noOperands_legal hl hz) CoreCtx.ready_nil]
  exact congrArg Host.Outcome.next (if_pos hfree)

theorem execRds_of_legal (hl : plainLegal f 0xF = true) (ha : rA f = 0) (hb : rB f = 0) (hc : rC f = 0) (hk : bitsOf (rX f) 3 0 < 8) :
    let x := s.core c
    execRds c f s = .next (s.setCore c (x.ws (rD f)
      ([BitVec.ofNat 64 x.kern.vindex, BitVec.ofNat 64 (x.kern.vindex - x.kern.vfirst), BitVec.ofNat 64 x.kern.logical,
        BitVec.ofNat 64 x.kern.job, BitVec.ofNat 64 s.datum, Config.freeWord s.free, x.fl.zeroExtend 64,
        BitVec.ofNat 64 (s.runner c)].getD (bitsOf (rX f) 3 0) 0)).adv).draw := by
  rw [execRds, State.sysStep_of_issues hi _ (by simp [hl, ha, hb, hc, hk]) CoreCtx.ready_nil, State.special_eq_getD _ _ _ hk]

theorem execWrs_of_legal (hr : (s.core c).ready [rA f]) (hl : plainLegal f 0xF = true) (hk : bitsOf (rX f) 3 0 = 6) (hd : rD f = 0)
    (hb : rB f = 0) (hc : rC f = 0) :
    execWrs c f s = .next (s.setCore c { s.core c with fl := ((s.core c).rs (rA f)).truncate 5 }.adv) := by
  rw [execWrs, State.sysStep_of_issues hi _ (by simp [hl, hk, hd, hb, hc]) hr]

theorem execBreakInstr_of_legal (hl : plainLegal f 0xFFFF = true) (hz : rD f = 0 ∧ rA f = 0 ∧ rB f = 0 ∧ rC f = 0) :
    execBreakInstr c f s = .next (s.coreFault c .swTrap (bitsOf (rX f) 15 0 * 2 ^ 32)) := by
  rw [execBreakInstr, State.sysStep_of_issues hi _ (noOperands_legal hl hz) CoreCtx.ready_nil]

/-- END waits for the matrix instructions ahead of it; with none left it holds its core until it has drained. -/
theorem execEndInstr_of_idle (hf : f = 0) (hq : (s.core c).mq = []) (hload : (s.core c).load = none) :
    execEndInstr c f s = .next ((s.setCore c { s.core c with run := .blocked (.ending none) }).drainStep c) := by
  rw [execEndInstr, State.sysStep_of_issues hi _ (beq_iff_eq.mpr hf) CoreCtx.ready_nil, if_neg (by simp [hq, hload])]

end

/-- A wait whose limit has passed completes with 0 (R227). -/
theorem execWaitTimeout_of_due {s : State} {c : Fin 256} {w d t : Nat} {b : Word} {ne : Bool}
    (hrun : (s.core c).run = .blocked (.wait w b ne d (some t))) (hdue : t ≤ s.datum) :
    execWaitTimeout c s = .next (s.setCore c ({ s.core c with run := .running }.ws d 0).adv) := by
  simp only [execWaitTimeout, hrun, if_pos hdue]

/-- Settles O10: each instruction by its own equation. -/
theorem systemInstructions : Obligations.SystemInstructions := by
  intro s c f x a k zero go
  refine ⟨fun hi hr => ?_, fun w b ne d t hrun hdue => execWaitTimeout_of_due hrun hdue⟩
  have hr1 : x.ready [rA f] := CoreCtx.ready_mono hr (by simp)
  refine ⟨fun hl hc hal hin => ?waits, fun hl hz => ⟨?free, ?held, ?release⟩, fun hl hb hc hal hin => ⟨?mvi, ?submit⟩,
    fun hl hz hfree => ?mvwait, fun hl ha hb hc hk => ?rds, fun hl hk hd hb hc => ?wrs, fun hl hz => ?trap, fun hf hq hload => ?ending⟩
  case waits => exact ⟨execWaitge_of_good hi hr hl hc hal hin, execWaitne_of_good hi hr hl hc hal hin⟩
  case free => exact fun hfree => execSacq_of_free hi hl hz hfree
  case held => exact fun m hheld => execSacq_of_held hi hl hz hheld
  case release => exact fun d hheld => execSrel_of_held hi hl hz hheld
  case mvi => exact fun j hsel hj => execMvi_of_idle hi hr1 hl hb hc hal hin hsel hj
  case submit => exact fun hd hsel hfree hroom hclean => execSubmit_of_free hi hr1 hl hb hc hal hin hsel hd hfree hroom hclean
  case mvwait => exact execMvwait_of_free hi hl hz hfree
  case rds => exact execRds_of_legal hi hl ha hb hc hk
  case wrs => exact execWrs_of_legal hi hr1 hl hk hd hb hc
  case trap => exact execBreakInstr_of_legal hi hl hz
  case ending => exact execEndInstr_of_idle hi hf hq hload

end Sys2Proof.Machine
end

section
/-! The exact accumulate word (R257, R258): Table 8.6 as one equation per kind of contribution, and that contributions commute. -/

namespace Sys2Proof.Machine

/-! What one contribution does to the word, by the kind of contribution. -/

@[simp] theorem Eaw.add_nan (w : Eaw) (b : Bool) : w.add (.nan b) = .code 3 := rfl

/-- The last row of Table 8.6: NaN absorbs every later contribution. -/
@[simp] theorem Eaw.code_three_add (x : FVal) : (Eaw.code 3).add x = .code 3 := by
  cases x with
  | nan b => rfl
  | inf neg => rfl
  | fin neg m e => rfl

@[simp] theorem Eaw.sum_add_inf (v : Int) (neg : Bool) : (Eaw.sum v).add (.inf neg) = .code (if neg then 2 else 1) := rfl

@[simp] theorem Eaw.code_zero_add_inf (neg : Bool) : (Eaw.code 0).add (.inf neg) = .code (if neg then 2 else 1) := rfl

theorem Eaw.code_one_add_inf (neg : Bool) : (Eaw.code 1).add (.inf neg) = .code (if neg then 3 else 1) := by
  cases neg <;> rfl

theorem Eaw.code_two_add_inf (neg : Bool) : (Eaw.code 2).add (.inf neg) = .code (if neg then 2 else 3) := by
  cases neg <;> rfl

/-- An infinity leaves a word whose code is not 0. -/
theorem Eaw.exists_add_inf (w : Eaw) (neg : Bool) : ∃ c, c ≠ 0 ∧ w.add (.inf neg) = .code c := by
  cases w with
  | code c => revert c neg; decide
  | sum v => exact ⟨_, by cases neg <;> decide, sum_add_inf v neg⟩

theorem Eaw.code_add_inf_comm (c : Fin 4) (a b : Bool) :
    ((Eaw.code c).add (.inf a)).add (.inf b) = ((Eaw.code c).add (.inf b)).add (.inf a) := by
  revert c a b; decide

/-- −0 is neutral. -/
@[simp] theorem Eaw.add_negZero (w : Eaw) (e : Int) : w.add (.fin true 0 e) = w := by
  cases w with
  | code c => by_cases hc : c = 0 <;> simp [add, hc]
  | sum v => rfl

/-- A nonzero code keeps every finite contribution out. -/
theorem Eaw.code_add_fin {c : Fin 4} (hc : c ≠ 0) (neg : Bool) (m : Nat) (e : Int) : (Eaw.code c).add (.fin neg m e) = .code c :=
  if_pos hc

section
variable {neg : Bool} {m : Nat} (h : neg = false ∨ m ≠ 0) (e : Int)
include h

theorem negZero_eq_false_of_counts : (neg && m == 0) = false := by
  cases h with
  | inl hneg => simp [hneg]
  | inr hm => simp [hm]

theorem Eaw.code_zero_add_fin : (Eaw.code 0).add (.fin neg m e) = .sum (unitsAt neg m e (-149)) := by
  simp [add, negZero_eq_false_of_counts h]

theorem Eaw.sum_add_fin (v : Int) : (Eaw.sum v).add (.fin neg m e) = .sum (v + unitsAt neg m e (-149)) := by
  simp [add, negZero_eq_false_of_counts h]

end

/-- A finite number is −0 or counts in the sum. -/
theorem negZero_or_counts (neg : Bool) (m : Nat) : (neg = true ∧ m = 0) ∨ (neg = false ∨ m ≠ 0) := by
  cases neg <;> by_cases hm : m = 0 <;> simp [hm]

/-! Contributions commute. -/

/-- An infinity overrides a finite contribution that came before it. -/
theorem Eaw.add_fin_add_inf (w : Eaw) (neg : Bool) (m : Nat) (e : Int) (a : Bool) :
    (w.add (.fin neg m e)).add (.inf a) = w.add (.inf a) := by
  obtain ⟨rfl, rfl⟩ | hx := negZero_or_counts neg m
  · rw [add_negZero]
  cases w with
  | sum v => rw [sum_add_fin hx, sum_add_inf, sum_add_inf]
  | code c =>
    by_cases hc : c = 0
    · rw [hc, code_zero_add_fin hx, sum_add_inf, code_zero_add_inf]
    · rw [code_add_fin hc]

/-- A finite contribution changes nothing after an infinity. -/
theorem Eaw.add_inf_add_fin (w : Eaw) (neg : Bool) (m : Nat) (e : Int) (a : Bool) :
    (w.add (.inf a)).add (.fin neg m e) = w.add (.inf a) := by
  obtain ⟨c, hc, hw⟩ := w.exists_add_inf a
  rw [hw, code_add_fin hc]

theorem Eaw.add_inf_comm (w : Eaw) (a b : Bool) : (w.add (.inf a)).add (.inf b) = (w.add (.inf b)).add (.inf a) := by
  cases w with
  | code c => exact code_add_inf_comm c a b
  | sum v => exact code_add_inf_comm 0 a b

theorem Eaw.add_fin_comm (w : Eaw) (n₁ n₂ : Bool) (m₁ m₂ : Nat) (e₁ e₂ : Int) :
    (w.add (.fin n₁ m₁ e₁)).add (.fin n₂ m₂ e₂) = (w.add (.fin n₂ m₂ e₂)).add (.fin n₁ m₁ e₁) := by
  obtain ⟨rfl, rfl⟩ | h₁ := negZero_or_counts n₁ m₁
  · simp only [add_negZero]
  obtain ⟨rfl, rfl⟩ | h₂ := negZero_or_counts n₂ m₂
  · simp only [add_negZero]
  cases w with
  | sum v => simp only [sum_add_fin h₁, sum_add_fin h₂, Int.add_right_comm]
  | code c =>
    by_cases hc : c = 0
    · simp only [hc, code_zero_add_fin h₁, code_zero_add_fin h₂, sum_add_fin h₁, sum_add_fin h₂, Int.add_comm]
    · simp only [code_add_fin hc]

/-- Each transition in Table 8.6 commutes with every other. -/
theorem Eaw.add_add_comm (w : Eaw) (x y : FVal) : (w.add x).add y = (w.add y).add x := by
  match x, y with
  | .nan _, y => rw [add_nan, add_nan, code_three_add]
  | x, .nan _ => rw [add_nan, add_nan, code_three_add]
  | .inf a, .inf b => exact w.add_inf_comm a b
  | .inf a, .fin neg m e | .fin neg m e, .inf a => rw [add_inf_add_fin, add_fin_add_inf]
  | .fin n₁ m₁ e₁, .fin n₂ m₂ e₂ => exact w.add_fin_comm n₁ n₂ m₁ m₂ e₁ e₂

/-- The word depends only on the multiset of its contributions. -/
theorem Eaw.foldl_add_perm {l r : List FVal} (h : l.Perm r) (w : Eaw) : l.foldl Eaw.add w = r.foldl Eaw.add w :=
  h.foldl_eq' (fun x _ y _ z => z.add_add_comm x y) w

/-! A finite contribution in units of 2^-149. -/

theorem unitsAt_eq_sign_mul (neg : Bool) (m : Nat) (e : Int) :
    unitsAt neg m e (-149) = (if neg then -1 else 1) * (m * 2 ^ (e + 149).toNat : Nat) := by
  cases neg <;> simp [unitsAt]

/-- No finite element has an exponent below that of the subnormals (R240). -/
theorem FFmt.exp_ge_of_decode_fin {f : FFmt} {n m : Nat} {neg : Bool} {e : Int} (h : f.decode n = .fin neg m e) :
    1 - (f.bias : Int) - f.mbits ≤ e := by
  simp only [decode] at h
  split at h
  next => split at h <;> exact nomatch h
  next =>
    split at h
    next => exact nomatch h
    next =>
      split at h <;> obtain ⟨-, -, rfl⟩ := FVal.fin.inj h <;> omega

/-- The smallest FP32 subnormal is the unit, and BF16 has none below it. -/
theorem FFmt.exp_ge_of_decode_contribution {f : FFmt} (hf : f = fp32 ∨ f = bf16) {n m : Nat} {neg : Bool} {e : Int}
    (h : f.decode n = .fin neg m e) : -149 ≤ e := by
  have hmin := exp_ge_of_decode_fin h
  rcases hf with rfl | rfl
  · simpa [fp32] using hmin
  · exact Int.le_trans (by decide) hmin

/-- Settles O57: Table 8.6 by the kind of contribution, and its transitions commute. -/
theorem exactSum : Obligations.ExactSum := by
  intro f n w hf
  refine ⟨fun b hx => ?nan, fun neg hx => ?inf, fun e hx => ?negZero, fun neg m e hx hcounts => ⟨?exponent, ?counted⟩, fun l r hperm => ?order⟩
  case nan => rw [hx, Eaw.add_nan]
  case inf =>
    rw [hx]
    match w with
    | .sum v => exact Eaw.sum_add_inf v neg
    | .code 0 => exact Eaw.code_zero_add_inf neg
    | .code 1 => exact Eaw.code_one_add_inf neg
    | .code 2 => exact Eaw.code_two_add_inf neg
    | .code 3 => exact Eaw.code_three_add _
  case negZero => rw [hx, Eaw.add_negZero]
  case exponent => exact FFmt.exp_ge_of_decode_contribution hf hx
  case counted =>
    rw [hx, ← unitsAt_eq_sign_mul]
    match w with
    | .sum v => exact Eaw.sum_add_fin hcounts e v
    | .code 0 => exact Eaw.code_zero_add_fin hcounts e
    | .code 1 | .code 2 | .code 3 => exact Eaw.code_add_fin (by decide) neg m e
  case order => exact Eaw.foldl_add_perm (hperm.map f.decode) w

end Sys2Proof.Machine
end

section
/-! Quantizers (R265 to R270, R274, R275, R277, R283 to R285): the operation at the head of a quantizer's list, by its descriptor's format, its addresses and
its accesses; then what each operation of Table 9.4 does. -/

namespace Sys2Proof.Machine

/-! The operation at the head of quantizer p. -/

/-- The recipe that an operation of sheet i works by: QUANTIZE by that of the kind it names, any other by that of the weights, kind 0 (R285). -/
def State.qntRecipe (s : State) (i : Nat) (d : BitVec 512) : Recipe := s.recipe i (if (qntDesc d).op = 1 then (qntDesc d).sel else 0)

section
variable {s : State} {p home op : Nat} {d : BitVec 512} {k : CoreKernel} {l : List QuantOp} (hhead : s.quant.getD p [] = ⟨d, home, k, none⟩ :: l)
  (hop : (qntDesc d).op = op) {g : State → CoreKernel → QntDesc → Recipe → State × Status}
include hhead hop

/-- The checks of R270, then the effect; either answer stays with the operation. -/
theorem State.qntRun_of_head :
    let r := s.qntRecipe k.sheet d
    let a := if !qntFormatOk d r then (s, .descFormat) else if !s.qntAddrs k.sheet d then (s, .addressRange) else g s k (qntDesc d) r
    s.qntRun p op g = { a.1 with quant := a.1.quant.put p (⟨d, home, k, some a.2⟩ :: l) } := by
  subst hop
  rw [State.qntRun, hhead]
  exact if_neg (not_not_intro rfl)

theorem State.qntRun_of_badFormat (hfmt : qntFormatOk d (s.qntRecipe k.sheet d) = false) :
    s.qntRun p op g = { s with quant := s.quant.put p (⟨d, home, k, some .descFormat⟩ :: l) } := by
  rw [State.qntRun_of_head hhead hop, if_pos (by rw [hfmt]; rfl)]

section
variable (hfmt : qntFormatOk d (s.qntRecipe k.sheet d) = true)
include hfmt

theorem State.qntRun_of_outside (ha : s.qntAddrs k.sheet d = false) :
    s.qntRun p op g = { s with quant := s.quant.put p (⟨d, home, k, some .addressRange⟩ :: l) } := by
  rw [State.qntRun_of_head hhead hop, if_neg (by simp [hfmt]), if_pos (by rw [ha]; rfl)]

theorem State.qntRun_of_answer (ha : s.qntAddrs k.sheet d = true) {u : State} {st : Status}
    (hg : g s k (qntDesc d) (s.qntRecipe k.sheet d) = (u, st)) :
    s.qntRun p op g = { u with quant := u.quant.put p (⟨d, home, k, some st⟩ :: l) } := by
  rw [State.qntRun_of_head hhead hop, if_neg (by simp [hfmt]), if_neg (by simp [ha]), hg]

end

end

theorem State.qntChecked_of_ok {s u : State} {k : CoreKernel} {l : List Access1} {g : State → State × Status}
    (hl : s.access k.sheet k.job k.logical l = (u, .ok)) : s.qntChecked k l g = g u := by
  rw [State.qntChecked, hl]
  rfl

/-! The metadata that PRUNE keeps (R284). -/

/-- PRUNE refuses its metadata exactly when it keeps it and a kept tile is not legal. -/
theorem prune_refuses_iff {fresh : Bool} {tiles : List (Nat × Nat)} {tileOf kept : Nat × Nat → WTile} (hkept : fresh = false → tileOf = kept) :
    (!fresh && (tiles.map tileOf).any fun x => (tileViol x).isSome) = true ↔ fresh = false ∧ ∃ x ∈ tiles, tileViol (kept x) ≠ none := by
  cases fresh with
  | true => simp
  | false => simp [hkept rfl, Option.isSome_iff_ne_none]

/-- Settles O26: a bad format ends the operation before the addresses, a bad address before the effect, and the effect is the operation's own. -/
theorem quantizerOperations : Obligations.QuantizerOperations := by
  intro s c d home k l hhead q i r is ok
  have hbad {op : Nat} {g : State → CoreKernel → QntDesc → Recipe → State × Status} (hfmt : qntFormatOk d r = false) (hop : q.op = op) :
      (Host.Outcome.next (s.qntRun c op g) : Res) = .next { s with quant := s.quant.put c.val (⟨d, home, k, some .descFormat⟩ :: l) } :=
    congrArg Host.Outcome.next (State.qntRun_of_badFormat hhead hop hfmt)
  have hout {op : Nat} {g : State → CoreKernel → QntDesc → Recipe → State × Status} (hfmt : qntFormatOk d r = true)
      (ha : s.qntAddrs i d = false) (hop : q.op = op) :
      (Host.Outcome.next (s.qntRun c op g) : Res) = .next { s with quant := s.quant.put c.val (⟨d, home, k, some .addressRange⟩ :: l) } :=
    congrArg Host.Outcome.next (State.qntRun_of_outside hhead hop hfmt ha)
  have hrun {op : Nat} {g : State → CoreKernel → QntDesc → Recipe → State × Status} {u : State} {st : Status} (hfmt : qntFormatOk d r = true)
      (ha : s.qntAddrs i d = true) (hg : g s k q r = (u, st)) (hop : q.op = op) :
      (Host.Outcome.next (s.qntRun c op g) : Res) = .next { u with quant := u.quant.put c.val (⟨d, home, k, some st⟩ :: l) } :=
    congrArg Host.Outcome.next (State.qntRun_of_answer hhead hop hfmt ha hg)
  refine ⟨?badFormat, ?badAddress, ?quantize, ?update, ?prune⟩
  case badFormat =>
    intro hfmt
    exact ⟨hbad hfmt, hbad hfmt, hbad hfmt⟩
  case badAddress =>
    intro hfmt ha
    exact ⟨hout hfmt ha, hout hfmt ha, hout hfmt ha⟩
  case quantize =>
    rintro u bs codes sc n ⟨hfmt, ha, hacc⟩
    exact hrun hfmt ha (State.qntChecked_of_ok hacc)
  case update =>
    rintro u rows outs ⟨hfmt, ha, hacc⟩
    exact hrun hfmt ha (State.qntChecked_of_ok hacc)
  case prune =>
    rintro u m dk tiles fresh n kept ⟨hfmt, ha, hacc⟩
    have hkept {formed : Nat × Nat → List Byte} (hf : fresh = false) :
        (fun x => ({ kept x with metaB := if fresh then formed x else (kept x).metaB } : WTile)) = kept := by
      simp [hf]
    refine ⟨fun hlegal => ⟨_, hrun hfmt ha ((State.qntChecked_of_ok hacc).trans
      (if_neg (mt (prune_refuses_iff hkept).mp ?_)))⟩, fun hf hviol => hrun hfmt ha ((State.qntChecked_of_ok hacc).trans
      (if_pos ((prune_refuses_iff hkept).mpr ⟨hf, hviol⟩)))⟩
    rintro ⟨hf, x, hx, hviol⟩
    rcases hlegal with hfresh | hnone
    · exact Bool.false_ne_true (hf.symm.trans hfresh)
    · exact hviol (hnone x hx)

end Sys2Proof.Machine
end

section
/-! Recipes (R264), the submissions and ends of quantizer operations (R269, R270), and the evaluation of layers (R278 to R281). -/

namespace Sys2Proof.Machine

/-! RECIPE_SET (R264). -/

/-- Parameters that RECIPE_SET accepts: a legal recipe of the fields of HCH_RECIPE alone for each kind of the mask, zeros elsewhere. -/
structure RecipeParams (h : CmdHdr) (q : List Byte) : Prop where
  length : q.length = 64
  sheet : h.sheetValid = true
  mask : uAt q 0 1 < 128
  reserved : uAt q 1 7 = 0
  recipes : ∀ k < 7, if bitOf (uAt q 0 1) k then recipeOk (uAt q (8 + 8 * k) 8) = true ∧ uAt q (8 + 8 * k) 8 = recipeBits (uAt q (8 + 8 * k) 8)
    else uAt q (8 + 8 * k) 8 = 0

/-- What RECIPE_SET does with good parameters. -/
theorem bodyRecipeSet_of_params {s : State} {h : CmdHdr} {q : List Byte} (o : Owed) (g : RecipeParams h q) :
    bodyRecipeSet s o h q =
      (((List.range 7).filter (bitOf (uAt q 0 1))).foldl (fun s k => s.setRecipe h.sheet.toNat k (uAt q (8 + 8 * k) 8)) s, .ok) := by
  unfold bodyRecipeSet
  dsimp only
  rw [(firstFail_none _).2]
  refine (pass_append _ _).mpr ⟨?head, List.forall_mem_map.mpr fun k hk => ?kind⟩
  case head => simp [pass_nil, lenIs, needSheet, zeros, g.length, g.sheet, g.mask, g.reserved]
  case kind =>
    have hrec := g.recipes k (List.mem_range.mp hk)
    split at hrec
    case isTrue hmask => simpa [hmask] using hrec
    case isFalse hmask => simpa [hmask] using hrec

theorem exec_recipeSet_of_takes {s : State} {h : CmdHdr} {p : List Byte} (ht : s.takes 0x0303 h p) (g : RecipeParams h (h.params p)) :
    exec (.recipeSet h p) s = .next ((((List.range 7).filter (bitOf (uAt (h.params p) 0 1))).foldl
      (fun s k => s.setRecipe h.sheet.toNat k (uAt (h.params p) (8 + 8 * k) 8)) (s.taken h)).answer (hdrOwed h 0x0303) .ok) := by
  show Host.Outcome.next (s.command 0x0303 h p bodyRecipeSet) = _
  rw [State.command_of_takes ht, bodyRecipeSet_of_params _ g]

/-! Submissions (R269) and ends (R270) of quantizer operations. -/

section
variable {s : State} {p home : Nat} {w : Word} (hhigh : fld w 63 24 = 0) (hlow : fld w 5 0 = 0)
include hhigh hlow

theorem State.qntSubmit_of_full (hfull : 8 ≤ (s.quant.getD p []).length) :
    s.qntSubmit p home w = { s with quantHeld := s.quantHeld ++ [(p, home, w)] } := by
  rw [State.qntSubmit, if_neg (by simp [hhigh, hlow]), if_pos hfull]

theorem State.qntSubmit_of_room (hroom : (s.quant.getD p []).length < 8) :
    let r := s.scrReads home [(fld w 23 0, 64)]
    s.qntSubmit p home w = { r.1 with
      quant := r.1.quant.put p (s.quant.getD p [] ++
        [⟨BitVec.ofNat 512 (leNat (s.scrRd home (fld w 23 0) 64)), home, (s.core home).kern, r.2⟩]) } := by
  rw [State.qntSubmit, if_neg (by simp [hhigh, hlow]), if_neg (Nat.not_le.mpr hroom)]

end

/-- A core that runs a kernel submits to the quantizers of its own sheet (R29). -/
theorem exec_movQntSubmit_of_sameSheet {s : State} {c u : Fin 256} (w : Word) (hsame : s.octSheet (c / 32) = s.octSheet (u / 32))
    (hsheet : (s.octSheet (u / 32)).isSome = true) (hrun : (s.core u).run ≠ .idle) :
    exec (.movQntSubmit c u w) s = .next (s.qntSubmit c u w) :=
  congrArg Host.Outcome.next (if_pos ⟨hsame, hsheet, hrun⟩)

/-- An operation of Table 9.4 that has ended leaves its quantizer with the status it ended with, not with DESC_FORMAT. -/
theorem exec_quantizerComplete_of_ended {s : State} {c : Fin 256} {d : BitVec 512} {home : Nat} {k : CoreKernel} {st : Status} {l : List QuantOp}
    (hhead : s.quant.getD c.val [] = ⟨d, home, k, some st⟩ :: l) (hlo : 1 ≤ dAt d 0 1) (hhi : dAt d 0 1 ≤ 3) :
    let t : State := { s with quant := if l.isEmpty then s.quant.del c.val else s.quant.put c.val l }
    let v := if st = .ok then t else t.capture ⟨.MOV_QNT_STATUS, c, 0⟩ (dAt d 56 4 * 2 ^ 16 + st.code) []
    exec (.quantizerComplete c) s = .next ((v.complete k.sheet (dAt d 48 8) (dAt d 56 4) st).qntAccept c) := by
  have hop : ¬ (dAt d 0 1 = 0 ∨ 3 < dAt d 0 1) := by omega
  show execQuantizerComplete c s = _
  simp only [execQuantizerComplete, hhead, if_neg hop]

/-- Settles O27: the recipes by the command's checks or the register's, a submission by the room in the list, the rest by each row's own equation. -/
theorem trainingControls : Obligations.TrainingControls := by
  intro s h p c u i k w q rec_ l
  refine ⟨fun ht hsheet hlen hmask hzero hrecipes => ?recipes, ?register, fun hsame hsheet hrun hhigh hlow => ⟨fun hfull => ?kept, fun hroom => ?joins⟩,
    fun d x y st rest hhead hlo hhi => ?ended, fun hw => ?rearmed, ?evaluated, ?halts⟩
  case recipes => exact exec_recipeSet_of_takes ht ⟨hlen, hsheet, hmask, hzero, hrecipes⟩
  case register => rfl
  case kept => rw [exec_movQntSubmit_of_sameSheet w hsame hsheet hrun, State.qntSubmit_of_full hhigh hlow hfull]
  case joins => rw [exec_movQntSubmit_of_sameSheet w hsame hsheet hrun, State.qntSubmit_of_room hhigh hlow hroom]
  case ended => exact exec_quantizerComplete_of_ended hhead hlo hhi
  case rearmed => exact congrArg Host.Outcome.next (s.rearm_of_valid _ hw)
  case evaluated => rfl
  case halts => rfl

end Sys2Proof.Machine
end

section
/-! Where a sheet's bytes lie (R288, Table 2.1): the windows of its local addresses, the way back from a key to its address and its octant, and what a
write of several bytes leaves at every key. -/

namespace Sys2Proof.Machine

/-! Several bytes set in order. -/

theorem Memory.get_setAll_other {l : List (Nat × Byte)} {k : Nat} (hl : ∀ e ∈ l, e.1 ≠ k) (m : Memory) : (m.setAll l).get k = m.get k := by
  induction l generalizing m with
  | nil => rfl
  | cons e l ih =>
    obtain ⟨he, hl⟩ := List.forall_mem_cons.mp hl
    exact (ih hl (m.set e.1 e.2)).trans (m.get_set_other e.1 k e.2 he.symm)

/-- A key that is set to one byte only holds it. -/
theorem Memory.get_setAll_of_mem {l : List (Nat × Byte)} {k : Nat} {b : Byte} (hmem : (k, b) ∈ l) (honly : ∀ c, (k, c) ∈ l → c = b) {m : Memory}
    (hw : m.wf = true) : (m.setAll l).get k = b := by
  induction l generalizing m with
  | nil => cases hmem
  | cons e l ih =>
    by_cases hlater : (k, b) ∈ l
    · exact ih hlater (fun c hc => honly c (List.mem_cons_of_mem e hc)) (Memory.wf_set m e.1 e.2 hw)
    · obtain rfl : (k, b) = e := (List.mem_cons.mp hmem).resolve_right hlater
      have hlast : ∀ f ∈ l, f.1 ≠ k := by
        rintro ⟨k', c⟩ hf rfl
        exact hlater (honly c (List.mem_cons_of_mem _ hf) ▸ hf)
      exact (Memory.get_setAll_other hlast _).trans (m.get_set_same k b hw)

/-! The windows of the local address map (Table 2.1). -/

section
variable {s : State} {i a : Nat}

theorem State.locate_hbm_iff {o : Nat} : s.locate i a = some (.hbm o) ↔ a = o ∧ o < 2 ^ 40 ∧ o < (s.sheet i).usable := by
  simp only [State.locate]
  repeat' split
  all_goals simp only [Option.some.injEq, Loc.hbm.injEq, reduceCtorEq, false_iff]
  all_goals omega

theorem State.locate_scr_iff {v o : Nat} : s.locate i a = some (.scr v o) ↔
    a = 2 ^ 40 + v * 2 ^ 24 + o ∧ o < 2 ^ 24 ∧ v < 256 ∧ v < 32 * (s.sheet i).m := by
  simp only [State.locate]
  repeat' split
  all_goals simp only [Option.some.injEq, Loc.scr.injEq, reduceCtorEq, false_iff]
  all_goals omega

theorem State.locate_xd_iff {x o : Nat} : s.locate i a = some (.xd x o) ↔
    a = 0x18000000000 + x * 2 ^ 26 + o ∧ o < 2 ^ 25 ∧ x < 8 ∧ x < (s.sheet i).m := by
  simp only [State.locate]
  repeat' split
  all_goals simp only [Option.some.injEq, Loc.xd.injEq, reduceCtorEq, false_iff]
  all_goals omega

end

/-! Keys, and the way back from them (R199, R288). -/

/-- A sheet whose octants exist and whose hubs have room for its HBM window (R288, R365). -/
structure State.Fits (s : State) (i : Nat) : Prop where
  octants : i * (s.sheet i).m + (s.sheet i).m ≤ 8
  nonempty : 0 < (s.sheet i).m
  room : (s.sheet i).usable ≤ 2 * (s.sheet i).m * 2 ^ 36

/-- The physical octant whose memory a key names. -/
def keyOctant (k : Nat) : Nat := if k < 2 ^ 40 then k / 2 ^ 37 else if k < 2 ^ 41 then (k - 2 ^ 40) / 2 ^ 29 else (k - 2 ^ 41) / 2 ^ 25

/-- The local address at which sheet i sees the byte of a key of its own octants: R288 and R199 read backwards. -/
def State.addrOf (s : State) (i k : Nat) : Nat :=
  if k < 2 ^ 40 then (k % 2 ^ 36 / 4096 * (2 * (s.sheet i).m) + (k / 2 ^ 36 - 2 * s.physOct i 0)) * 4096 + k % 4096
  else if k < 2 ^ 41 then k - s.physOct i 0 * 2 ^ 29
  else 0x18000000000 + ((k - 2 ^ 41) / 2 ^ 25 - s.physOct i 0) * 2 ^ 26 + k % 2 ^ 25

theorem keyHbm_split {h o : Nat} (hh : h < 16) (ho : o < 2 ^ 36) :
    keyHbm h o < 2 ^ 40 ∧ keyHbm h o / 2 ^ 36 = h ∧ keyHbm h o % 2 ^ 36 = o ∧ keyOctant (keyHbm h o) = h / 2 := by
  have hlow : keyHbm h o < 2 ^ 40 := by unfold keyHbm; omega
  rw [keyOctant, if_pos hlow]
  unfold keyHbm at *
  omega

theorem keyScr_split {c o : Nat} (hc : c < 256) (ho : o < 2 ^ 24) :
    ¬ keyScr c o < 2 ^ 40 ∧ keyScr c o < 2 ^ 41 ∧ keyOctant (keyScr c o) = c / 32 := by
  have hhigh : ¬ keyScr c o < 2 ^ 40 := by unfold keyScr; omega
  have hlow : keyScr c o < 2 ^ 41 := by unfold keyScr; omega
  rw [keyOctant, if_neg hhigh, if_pos hlow]
  unfold keyScr at *
  omega

theorem keyXd_split {x o : Nat} (ho : o < 2 ^ 25) :
    ¬ keyXd x o < 2 ^ 40 ∧ ¬ keyXd x o < 2 ^ 41 ∧ keyXd x o % 2 ^ 25 = o ∧ (keyXd x o - 2 ^ 41) / 2 ^ 25 = x ∧ keyOctant (keyXd x o) = x := by
  have hscr : ¬ keyXd x o < 2 ^ 40 := by unfold keyXd; omega
  have hxd : ¬ keyXd x o < 2 ^ 41 := by unfold keyXd; omega
  rw [keyOctant, if_neg hscr, if_neg hxd]
  unfold keyXd at *
  omega

/-- The three windows that have keys, each with the key that an address of it has. -/
theorem State.keyOf_cases {s : State} {i a k : Nat} (h : s.keyOf i a = some k) :
    (∃ o, s.locate i a = some (.hbm o) ∧
      k = keyHbm (2 * s.physOct i 0 + o / 4096 % (2 * (s.sheet i).m)) (o / 4096 / (2 * (s.sheet i).m) * 4096 + o % 4096)) ∨
    (∃ v o, s.locate i a = some (.scr v o) ∧ k = keyScr (s.homeCore i v) o) ∨
    (∃ x o, s.locate i a = some (.xd x o) ∧ k = keyXd (s.physOct i x) o) := by
  unfold State.keyOf at h
  split at h
  · next o hloc => exact .inl ⟨o, hloc, (Option.some.inj h).symm⟩
  · next v o hloc => exact .inr (.inl ⟨v, o, hloc, (Option.some.inj h).symm⟩)
  · next x o hloc => exact .inr (.inr ⟨x, o, hloc, (Option.some.inj h).symm⟩)
  · cases h

/-- A key of a sheet is one of its octants', and leads back to its address. -/
theorem State.addrOf_of_keyOf {s : State} {i a k : Nat} (hf : s.Fits i) (h : s.keyOf i a = some k) :
    s.addrOf i k = a ∧ s.physOct i 0 ≤ keyOctant k ∧ keyOctant k < s.physOct i 0 + (s.sheet i).m := by
  have hoct : s.physOct i 0 + (s.sheet i).m ≤ 8 := hf.octants
  have hpos := hf.nonempty
  have hphys : ∀ x, s.physOct i x = s.physOct i 0 + x := fun _ => rfl
  unfold State.addrOf
  rcases State.keyOf_cases h with ⟨o, hloc, rfl⟩ | ⟨v, o, hloc, rfl⟩ | ⟨x, o, hloc, rfl⟩
  · obtain ⟨rfl, -, huse⟩ := State.locate_hbm_iff.mp hloc
    have hrow : a / 4096 / (2 * (s.sheet i).m) < 2 ^ 24 :=
      Nat.div_lt_of_lt_mul (Nat.div_lt_of_lt_mul (by have := hf.room; omega))
    have hhub : a / 4096 % (2 * (s.sheet i).m) < 2 * (s.sheet i).m := Nat.mod_lt _ (by omega)
    obtain ⟨hlow, hh, ho, hk⟩ := keyHbm_split (h := 2 * s.physOct i 0 + a / 4096 % (2 * (s.sheet i).m))
      (o := a / 4096 / (2 * (s.sheet i).m) * 4096 + a % 4096) (by omega) (by omega)
    rw [if_pos hlow, hh, ho, hk, Nat.add_sub_cancel_left]
    have hgranule : (a / 4096 / (2 * (s.sheet i).m) * 4096 + a % 4096) / 4096 = a / 4096 / (2 * (s.sheet i).m) := by omega
    rw [hgranule, Nat.div_add_mod']
    unfold keyHbm
    omega
  · obtain ⟨rfl, ho, hwin, hcore⟩ := State.locate_scr_iff.mp hloc
    have hhome : s.homeCore i v = 32 * s.physOct i 0 + v := by
      rw [State.homeCore, hphys]
      omega
    obtain ⟨hhigh, hlow, hk⟩ := keyScr_split (c := s.homeCore i v) (by omega) ho
    rw [if_neg hhigh, if_pos hlow, hk, hhome]
    unfold keyScr
    omega
  · obtain ⟨rfl, ho, hwin, hslot⟩ := State.locate_xd_iff.mp hloc
    obtain ⟨hscr, hxd, hmod, hx, hk⟩ := keyXd_split (x := s.physOct i x) ho
    rw [if_neg hscr, if_neg hxd, hk, hx, hmod, hphys]
    omega

theorem State.keyOf_inj {s : State} {i a b k : Nat} (hf : s.Fits i) (ha : s.keyOf i a = some k) (hb : s.keyOf i b = some k) : a = b :=
  (State.addrOf_of_keyOf hf ha).1.symm.trans (State.addrOf_of_keyOf hf hb).1

/-- Sheets on other octants have no key in common. -/
theorem State.keyOf_ne_of_apart {s : State} {i j a b k : Nat} (hi : s.Fits i) (hj : s.Fits j)
    (hapart : i * (s.sheet i).m + (s.sheet i).m ≤ j * (s.sheet j).m ∨ j * (s.sheet j).m + (s.sheet j).m ≤ i * (s.sheet i).m)
    (ha : s.keyOf i a = some k) : s.keyOf j b ≠ some k := by
  intro hb
  obtain ⟨-, hilo, hihi⟩ := State.addrOf_of_keyOf hi ha
  obtain ⟨-, hjlo, hjhi⟩ := State.addrOf_of_keyOf hj hb
  simp only [State.physOct] at hilo hihi hjlo hjhi
  omega

theorem State.keyOf_of_hbm {s : State} {i o : Nat} (huse : o < (s.sheet i).usable) (hwin : o < 2 ^ 40) :
    s.keyOf i o = some (keyHbm (s.hubOf i o) (o / 4096 / (2 * (s.sheet i).m) * 4096 + o % 4096)) := by
  rw [State.keyOf, State.locate_hbm_iff.mpr ⟨rfl, hwin, huse⟩]
  rfl

/-- Every byte of a range that lies wholly in one data window has a key. -/
theorem State.keyOf_of_inData {s : State} {i a n j : Nat} (h : s.inData i a n = true) (hj : j < n) : ∃ k, s.keyOf i (a + j) = some k := by
  unfold State.inData at h
  rw [beq_false_of_ne (by omega : n ≠ 0), Bool.false_or] at h
  split at h
  · next p o hfirst hlast =>
    obtain ⟨hend, hwin, huse⟩ := State.locate_hbm_iff.mp hlast
    exact ⟨_, State.keyOf_of_hbm (by omega) (by omega)⟩
  · next v p w o hfirst hlast =>
    obtain ⟨hstart, -⟩ := State.locate_scr_iff.mp hfirst
    obtain ⟨hend, ho, hwin, hcore⟩ := State.locate_scr_iff.mp hlast
    have hmid : s.locate i (a + j) = some (.scr ((a + j - 2 ^ 40) / 2 ^ 24) ((a + j) % 2 ^ 24)) := State.locate_scr_iff.mpr (by omega)
    rw [State.keyOf, hmid]
    exact ⟨_, rfl⟩
  · next x p y o hfirst hlast =>
    obtain rfl : x = y := beq_iff_eq.mp h
    obtain ⟨hstart, -⟩ := State.locate_xd_iff.mp hfirst
    obtain ⟨hend, ho, hwin, hslot⟩ := State.locate_xd_iff.mp hlast
    have hmid : s.locate i (a + j) = some (.xd x (p + j)) := State.locate_xd_iff.mpr (by omega)
    rw [State.keyOf, hmid]
    exact ⟨_, rfl⟩
  · cases h

/-! A write of several bytes. -/

section
variable {s : State} {i a : Nat} {bs : List Byte}

/-- The bytes that a write sets, each with its key. -/
def State.pokeCells (s : State) (i a : Nat) (bs : List Byte) : List (Nat × Byte) :=
  bs.zipIdx.filterMap fun e => (s.keyOf i (a + e.2)).map fun k => (k, e.1)

theorem State.poke_mem_eq (s : State) (i a : Nat) (bs : List Byte) : (s.poke i a bs).mem = s.mem.setAll (s.pokeCells i a bs) := rfl

theorem State.mem_pokeCells {k : Nat} {c : Byte} : (k, c) ∈ s.pokeCells i a bs ↔ ∃ j, bs[j]? = some c ∧ s.keyOf i (a + j) = some k := by
  simp only [State.pokeCells, List.mem_filterMap, Option.map_eq_some_iff]
  constructor
  · rintro ⟨⟨c', j⟩, hj, k', hk, heq⟩
    cases heq
    exact ⟨j, List.mem_zipIdx_iff_getElem?.mp hj, hk⟩
  · rintro ⟨j, hj, hk⟩
    exact ⟨(c, j), List.mem_zipIdx_iff_getElem?.mpr hj, k, hk, rfl⟩

theorem State.rd_one_of_key {j b k : Nat} (h : s.keyOf j b = some k) : s.rd j b 1 = [s.mem.get k] := by simp [State.rd, h]
theorem State.rd_one_of_no_key {j b : Nat} (h : s.keyOf j b = none) : s.rd j b 1 = [0#8] := by simp [State.rd, h]

/-- A byte whose key no byte of the write has reads as before. -/
theorem State.rd_poke_other {j b : Nat} (h : ∀ x < bs.length, ∀ k, s.keyOf i (a + x) = some k → s.keyOf j b ≠ some k) :
    (s.poke i a bs).rd j b 1 = s.rd j b 1 := by
  have hkeys : (s.poke i a bs).keyOf j b = s.keyOf j b := rfl
  cases hkey : s.keyOf j b with
  | none => rw [State.rd_one_of_no_key hkey, State.rd_one_of_no_key (hkeys.trans hkey)]
  | some k =>
    have huntouched : ∀ e ∈ s.pokeCells i a bs, e.1 ≠ k := by
      rintro ⟨k', c⟩ hmem rfl
      obtain ⟨x, hx, hxk⟩ := State.mem_pokeCells.mp hmem
      exact h x (List.getElem?_eq_some_iff.mp hx).1 k' hxk hkey
    rw [State.rd_one_of_key hkey, State.rd_one_of_key (hkeys.trans hkey), State.poke_mem_eq, Memory.get_setAll_other huntouched]

/-- Bytes written to a data window read back. -/
theorem State.rd_poke_same (hw : s.mem.wf = true) (hf : s.Fits i) (hdata : s.inData i a bs.length = true) :
    (s.poke i a bs).rd i a bs.length = bs := by
  refine List.ext_getElem (by simp [State.rd]) fun j _ hj => ?_
  obtain ⟨k, hkey⟩ := State.keyOf_of_inData hdata hj
  have hpoked : (s.poke i a bs).keyOf i (a + j) = some k := hkey
  simp only [State.rd, List.getElem_map, List.getElem_range, hpoked, State.poke_mem_eq]
  refine Memory.get_setAll_of_mem (State.mem_pokeCells.mpr ⟨j, List.getElem?_eq_getElem hj, hkey⟩) (fun c hc => ?_) hw
  obtain ⟨x, hx, hxk⟩ := State.mem_pokeCells.mp hc
  obtain rfl : j = x := Nat.add_left_cancel (State.keyOf_inj hf hkey hxk)
  exact Option.some.inj (hx.symm.trans (List.getElem?_eq_getElem hj))

end

/-- Settles O54: a key leads back to its octant and its address, so no two bytes of a sheet, and none of sheets on other octants, share a place. -/
theorem memoryPlacement : Obligations.MemoryPlacement := by
  intro s i a bs m t fits hw hi
  have fits_of : ∀ {j}, fits j → s.Fits j := fun ⟨hoct, hpos, hroom⟩ => ⟨hoct, hpos, hroom⟩
  refine ⟨fun o huse hwin => ⟨?place, ?hub⟩, fun hdata => State.rd_poke_same hw (fits_of hi) hdata,
    fun _ b hb => State.rd_poke_other fun x hx k hk hbk => ?otherByte,
    fun j b hj hapart => State.rd_poke_other fun x _ k hk => State.keyOf_ne_of_apart (fits_of hi) (fits_of hj) hapart hk, Memory.wf_setAll _ _ hw⟩
  case place => rw [State.keyOf_of_hbm huse hwin, Nat.shiftRight_eq_div_pow, Nat.shiftLeft_eq]; rfl
  case hub => rw [Nat.shiftRight_eq_div_pow]; rfl
  case otherByte =>
    have hsame : a + x = b := State.keyOf_inj (fits_of hi) hk hbk
    omega

end Sys2Proof.Machine
end

section
/-! Buckets (R295 to R297): BUCKET_DEFINE with good parameters by the table of buckets, and BUCKET_UNDEFINE by the bucket that it names. -/

namespace Sys2Proof.Machine

/-! BUCKET_DEFINE (R295, R296). -/

/-- Parameters that BUCKET_DEFINE accepts (Table 10.2): of a bucket of the header's job that lies in its sheet with its semaphore and status words. -/
structure State.BucketParams (s : State) (h : CmdHdr) (q : List Byte) (x : Bucket) : Prop where
  bucket : x = Machine.bucketOf h.sheet.toNat q
  length : q.length = 48
  sheet : h.sheetValid = true
  jobValid : h.jobValid = true
  job : uAt q 4 2 = h.job.toNat
  flags : uAt q 6 1 ≤ 1 ∧ uAt q 7 1 ≤ 1 ∧ uAt q 8 1 ≤ 1
  reserved : uAt q 9 3 = 0 ∧ uAt q 20 4 = 0
  expected : 1 ≤ x.expected ∧ x.expected ≤ 65535
  elements : 1 ≤ x.elements ∧ x.elements ≤ 67108864
  aligned : x.base % 4096 = 0 ∧ x.sem % 8 = 0 ∧ x.status % 8 = 0
  inside : x.base + x.bytes ≤ (s.sheet h.sheet.toNat).usable
  words : s.wordIn h.sheet.toNat x.sem = true ∧ s.wordIn h.sheet.toNat x.status = true

/-- A bucket of the sheet of x has bytes of x. -/
def State.bucketClash (s : State) (x : Bucket) : Bool :=
  s.hubs.buckets.any fun e => e.2.sheet == x.sheet && decide (e.2.base < x.base + x.bytes ∧ x.base < e.2.base + e.2.bytes)

/-- What the table of buckets makes of a new bucket with good parameters. -/
def State.addBucket (s : State) (j b : Nat) (x : Bucket) : State × Ans :=
  if (s.bucket? j b).isSome then (s, .st .bucketExists)
  else if s.bucketClash x then (s, .st .bucketOverlap)
  else if 131072 ≤ s.hubs.buckets.length then (s, .st .bucketTableFull)
  else if x.exact && !Config.placed s.free (40 * x.elements) then (s.draw, .st .reservedFull)
  else ((if x.exact then s.draw else s).setBucket j b x, .ok)

theorem bodyBucketDefine_of_params {s : State} {h : CmdHdr} {q : List Byte} {x : Bucket} (o : Owed) (g : s.BucketParams h q x) :
    bodyBucketDefine s o h q = s.addBucket (uAt q 4 2) (uAt q 0 4) x := by
  obtain ⟨rfl, hlen, hsheet, hvalid, hjob, ⟨hfmt, hexact, hquar⟩, ⟨hzero, hzero'⟩, hexp, helem, ⟨hbase, hsem, hstatus⟩, hin, hsemIn, hstatusIn⟩ := g
  have hsheetOf : (bucketOf h.sheet.toNat q).sheet = h.sheet.toNat := rfl
  simp only [bodyBucketDefine, State.addBucket, State.bucketClash, firstFail, lenIs, needSheet, needJob, zeros, beq_self_eq_true, decide_true, Bool.and_self,
    if_true, and_self, *]
  generalize List.any s.hubs.buckets _ = clash
  cases s.bucket? h.job.toNat (uAt q 0 4) with
  | some y => rfl
  | none =>
    cases clash with
    | true => rfl
    | false =>
      rcases Nat.lt_or_ge s.hubs.buckets.length 131072 with hroom | hfull
      · simp [hroom, Nat.not_le.mpr hroom]
      · simp [hfull, Nat.not_lt.mpr hfull]

theorem exec_bucketDefine_of_params {s : State} {h : CmdHdr} {p : List Byte} {x : Bucket} (ht : s.takes 0x0406 h p)
    (g : (s.taken h).BucketParams h (h.params p) x) :
    let r := (s.taken h).addBucket (uAt (h.params p) 4 2) (uAt (h.params p) 0 4) x
    exec (.bucketDefine h p) s = .next (r.1.answer (hdrOwed h 0x0406) r.2) := by
  show Host.Outcome.next (s.command 0x0406 h p bodyBucketDefine) = _
  rw [State.command_of_takes ht, bodyBucketDefine_of_params _ g]

section
variable {s : State} {j b : Nat} {x : Bucket}

theorem State.addBucket_of_exists (hold : (s.bucket? j b).isSome = true) : s.addBucket j b x = (s, .st .bucketExists) := if_pos hold

variable (hnew : s.bucket? j b = none)
include hnew

theorem State.addBucket_of_clash (hclash : s.bucketClash x = true) : s.addBucket j b x = (s, .st .bucketOverlap) := by
  rw [State.addBucket, if_neg (by simp [hnew]), if_pos hclash]

variable (hfree : s.bucketClash x = false) (hroom : s.hubs.buckets.length < 131072)
include hfree hroom

/-- A NATIVE bucket needs no spill area. -/
theorem State.addBucket_of_native (hnative : x.exact = false) : s.addBucket j b x = (s.setBucket j b x, .ok) := by
  rw [State.addBucket, if_neg (by simp [hnew]), if_neg (by simp [hfree]), if_neg (Nat.not_le.mpr hroom)]
  simp [hnative]

/-- An EXACT bucket needs a place for its spill area of 40 B an element (R297). -/
theorem State.addBucket_of_exact (hexact : x.exact = true) : s.addBucket j b x =
    if Config.placed s.free (40 * x.elements) then (s.draw.setBucket j b x, .ok) else (s.draw, .st .reservedFull) := by
  rw [State.addBucket, if_neg (by simp [hnew]), if_neg (by simp [hfree]), if_neg (Nat.not_le.mpr hroom)]
  cases Config.placed s.free (40 * x.elements) <;> simp [hexact]

end

/-! BUCKET_UNDEFINE (R297). -/

section
variable {s : State} {h : CmdHdr} {p : List Byte} (ht : s.takes 0x0407 h p) (hlen : (h.params p).length = 8)
  (hjob : (s.taken h).stoppingJob (uAt (h.params p) 4 2) = false) (hzero : uAt (h.params p) 6 2 = 0)
include ht hlen hjob hzero

/-- Good parameters of BUCKET_UNDEFINE: the bucket must stand, and no context may work for it. -/
theorem exec_bucketUndefine_of_params :
    let t := s.taken h
    let k := (uAt (h.params p) 4 2, uAt (h.params p) 0 4)
    exec (.bucketUndefine h p) s = .next (if (t.bucket? k.1 k.2).isNone then t.answer (hdrOwed h 0x0407) (.st .bucketUnknown)
      else if t.hubs.ctxs.any fun c => c.job == k.1 && c.bucket == k.2 then t.answer (hdrOwed h 0x0407) (.st .bucketBusy)
      else (t.dropBuckets fun e _ => e == k).1.answer (hdrOwed h 0x0407) .ok) := by
  show Host.Outcome.next (s.command 0x0407 h p bodyBucketUndefine) = _
  rw [State.command_of_takes ht]
  simp only [bodyBucketUndefine, firstFail, lenIs, zeros, hlen, hjob, hzero, beq_self_eq_true, Bool.not_false, if_true]
  generalize List.any (s.taken h).hubs.ctxs _ = busy
  cases (s.taken h).bucket? (uAt (h.params p) 4 2) (uAt (h.params p) 0 4) <;> cases busy <;> rfl

end

/-- Settles O28: BUCKET_DEFINE by what the table of buckets makes of the new one, BUCKET_UNDEFINE by whether the bucket stands and is worked for. -/
theorem buckets : Obligations.Buckets := by
  intro s h p t q i x b j clash o
  refine ⟨fun ht hlen hsheet hvalid hjob hfmt hexact hquar hzero hexp hexp' helem helem' hzero' hbase hsem hstatus hin hsemIn hstatusIn => ?define,
    fun ht hlen hjob hzero => ?undefine⟩
  case define =>
    have good : t.BucketParams h q x := ⟨rfl, hlen, hsheet, hvalid, hjob, ⟨hfmt, hexact, hquar⟩, ⟨hzero, hzero'⟩, ⟨hexp, hexp'⟩, ⟨helem, helem'⟩,
      ⟨hbase, hsem, hstatus⟩, hin, hsemIn, hstatusIn⟩
    have hstep := exec_bucketDefine_of_params ht good
    refine ⟨fun hold => ?_, fun hnew hclash => ?_, fun hnew hfree hroom hnative => ?_, fun hnew hfree hroom hexact => ?_⟩
    · rw [hstep, State.addBucket_of_exists hold]
    · rw [hstep, State.addBucket_of_clash (x := x) hnew hclash]
    · rw [hstep, State.addBucket_of_native (x := x) hnew hfree hroom hnative]
    · rw [hstep, State.addBucket_of_exact (x := x) hnew hfree hroom hexact]
      cases Config.placed (s.taken h).free (40 * x.elements) <;> rfl
  case undefine =>
    rw [exec_bucketUndefine_of_params ht hlen hjob hzero]
    refine ⟨fun hnone => ?_, fun hsome hbusy => ?_, fun hsome hidle => ?_⟩
    · rw [if_pos (Option.isNone_iff_eq_none.mpr hnone)]
    · rw [if_neg (by simpa using Option.isSome_iff_ne_none.mp hsome), if_pos hbusy]
    · rw [if_neg (by simpa using Option.isSome_iff_ne_none.mp hsome), if_neg (Bool.eq_false_iff.mp hidle)]

end Sys2Proof.Machine
end

section
/-! The memory hubs' own steps: contributions, rounds and contexts (R298, R306, R308, R311, R314), captures (R7), and the service of a stack (R286, R287,
R290 to R293). -/

namespace Sys2Proof.Machine

/-! Contributions, rounds and contexts. -/

section
variable {s : State} {n : Fin 16}

theorem exec_raccCommit_of_find {f : RFrame} (hfind : s.hubs.frames.find? (fun f => f.hub == n.val) = some f) :
    exec (.raccCommit n) s = .next (((((s.raccCommit f).1.acked f.frame (s.raccCommit f).2).drained f.frame).after).acceptKept fun g =>
      g.op == 4 && s.hubOf g.dstSheet.toNat g.addr.toNat == n.val) := by
  show execRaccCommit n s = _
  simp only [execRaccCommit, hfind]

/-- The part-done message that comes next to the bucket's first hub joins those that it holds (R308). -/
theorem exec_partDone_of_find {j b : Nat} {x : Bucket} {m : PartMsg} {l : List PartMsg}
    (hfind : s.hubs.buckets.find? (fun e => s.bucketHub e.2 0 == n.val && !e.2.sent.isEmpty) = some ((j, b), x)) (hsent : x.sent = m :: l) :
    let t := s.setBucket j b { x with sent := l, held := x.held ++ [m] }
    exec (.partDone n) s = .next (if t.stoppingJob j then t else t.bucketComplete j b) := by
  show Host.Outcome.next (s.partArrives n) = _
  simp only [State.partArrives, hfind, hsent]

/-- A context that has been open for stall_ms is reported once (R311). -/
theorem exec_bucketStalled_of_open {j b : Nat} {c : RCtx} {x : Bucket} (hctx : s.rctx? n j b = some c) (hbucket : s.bucket? j b = some x)
    (hnew : c.stalled = false) (hdue : c.opened + msTicks (max 1 (s.get F.NMA_CTL_stall_ms n)) ≤ s.datum) :
    let ps := [j, b, c.round, c.accepted, x.expected * s.partSize x n]
    exec (.bucketStalled n j b) s =
      .next ((s.setRctx { c with stalled := true }).event { code := .bucketStalled, job := some j, sheet := some x.sheet, unit := n, params := ps }) := by
  show execBucketStalled n j b s = _
  simp only [execBucketStalled, hctx, hbucket, if_pos (And.intro hnew (State.elapsed_of_le hdue))]

/-- The slot that NMA_CTX_SEL selects holds no context: both counts read as 0 (R314). -/
theorem exec_nmaCtxAccepted_of_none (hsel : s.selCtx n = none) :
    exec (.nmaCtxAccepted n) s = .next ((s.set F.NMA_CTX_ACCEPTED_accepted n 0 0).set F.NMA_CTX_COMMITTED_committed n 0 0) := by
  show Host.Outcome.next (s.ctxCapture n) = _
  simp only [State.ctxCapture, hsel]

theorem exec_nmaCtxAccepted_of_some {c : RCtx} (hsel : s.selCtx n = some c) :
    let t := (s.set F.NMA_CTX_ACCEPTED_accepted n 0 c.accepted).set F.NMA_CTX_COMMITTED_committed n 0 c.committed
    exec (.nmaCtxAccepted n) s = .next (if t.ctxBroken c then
      t.misclosure 3 c.inst (t.ctxCounts c) (some c.job) ((t.bucket? c.job c.bucket).map Bucket.sheet) else t) := by
  show Host.Outcome.next (s.ctxCapture n) = _
  simp only [State.ctxCapture, hsel]

end

theorem exec_hbmRepair_of_takes {s : State} {h : CmdHdr} {p : List Byte} (ht : s.takes 0x0A01 h p) :
    let t := s.taken h
    exec (.hbmRepair h p) s =
      .next (({ t with hubs := { t.hubs with repairs := t.hubs.repairs ++ [h.params p] } } : State).answer (hdrOwed h 0x0A01) .ok) :=
  congrArg Host.Outcome.next (State.command_of_takes ht bodyHbmRepair)

theorem exec_nmaErrInfo (n : Fin 16) (w : Word) (s : State) : exec (.nmaErrInfo n w) s = .next (s.rearm ⟨.NMA_ERR_INFO, n, 0⟩ w) := rfl
theorem exec_mhbUeInfo (n : Fin 16) (w : Word) (s : State) : exec (.mhbUeInfo n w) s = .next (s.rearm ⟨.MHB_UE_INFO, n, 0⟩ w) := rfl

/-! The service of a stack (R287, R290 to R293). -/

/-- What a hub keeps of a temperature that it reads: refresh at twice the rate above 85 °C (R290), and whether HBM_HOT stands. -/
def State.tempRead (s : State) (n d : Nat) (hot : Bool) : State :=
  (s.set F.MHB_STATUS_dram_temp n 0 d).setStack n { s.stack n with double := decide (85 < d), hot := hot }

section
variable {s : State} {n : Fin 16} (hready : s.stackReady n = true)
include hready

/-- HBM_HOT comes above 95 °C and goes below 90 °C (R290); it is reported when it comes, and cools its octant while it stands (R514). -/
theorem exec_hbmTemperatureRead_of_ready (d : BitVec 8) :
    let hot := decide (95 < d.toNat) || ((s.stack n).hot && decide (90 ≤ d.toNat))
    let t := s.tempRead n d.toNat hot
    let u := if hot && !(s.stack n).hot then (t.event { code := .hbmHot, unit := n, die := dieMh n }).heatEvent (dieMh n) else t
    exec (.hbmTemperatureRead n d) s = .next (if hot then (u.coolOctant (n / 2) 600).restage else u) := by
  show execHbmTemperatureRead n d s = _
  rw [execHbmTemperatureRead]
  dsimp only
  rw [if_neg (by simp [hready])]
  rfl

theorem exec_perBankRefresh_of_awake (hawake : s.selfRefresh n = false) :
    exec (.perBankRefresh n) s = .next (s.setStack n { s.stack n with refreshed := s.datum }) :=
  congrArg Host.Outcome.next (if_pos (by simp [hready, hawake]))

theorem exec_recalibration_of_due (hdue : (s.stack n).recalAt + max 1 (s.get F.MHB_CTL_recal_interval n) * 1000000000 ≤ s.datum) :
    exec (.recalibration n) s =
      .next (s.setStack n { s.stack n with recalAt := s.datum, recalCh := ((s.stack n).recalCh + 1) % 32 }) :=
  congrArg Host.Outcome.next (if_pos (by simp [hready, State.elapsed_of_le hdue]))

variable {l : Nat} (hline : l < 2 ^ 28) (hscrub : s.get F.MHB_CTL_scrub_enable n ≠ 0)
include hline hscrub

/-- A scrub of a line that is marked or in error is a read of it like any other; of another line it meets what it is said to find (R291 to R293). -/
theorem exec_scrub_of_ready (r : Fin 3) :
    let u := keyHbm n (l * 256)
    exec (.scrub n l r) s = .next (if (s.upsets.find u).isSome = true ∨ s.lineMarked u = true then (s.readUnit u 3).1.sweepFatal
      else if r = 1 then s.lineCe n l else if r = 2 then (s.lineUe n l 3).sweepFatal else s) :=
  congrArg Host.Outcome.next (if_neg (by simpa [hready, hscrub] using hline))

end

/-- Settles O29: each row by its own equation, a temperature by whether HBM_HOT comes, stands or goes. -/
theorem hubEvents : Obligations.HubEvents := by
  intro s n h p w
  refine ⟨fun f hfind => exec_raccCommit_of_find hfind, fun j b x m l hfind hsent => exec_partDone_of_find hfind hsent,
    fun j b c x hctx hbucket hnew hdue => exec_bucketStalled_of_open hctx hbucket hnew hdue,
    ⟨fun hsel => exec_nmaCtxAccepted_of_none hsel, fun c hsel => exec_nmaCtxAccepted_of_some hsel⟩, fun ht => exec_hbmRepair_of_takes ht,
    fun hw => ⟨?contribution, ?memory⟩, fun hready => ⟨fun d => ⟨fun hcool => ?cool, fun hwarm hhot => ?stands, fun habove hnew => ?comes⟩,
      fun hawake => exec_perBankRefresh_of_awake hready hawake, fun l hline hscrub => ⟨fun hbad r => ?bad,
        fun hclean hmark => ?good⟩, fun hdue => exec_recalibration_of_due hready hdue⟩⟩
  case contribution => rw [exec_nmaErrInfo, s.rearm_of_valid _ hw]
  case memory => rw [exec_mhbUeInfo, s.rearm_of_valid _ hw]
  case cool =>
    have hgoes : (decide (95 < d.toNat) || ((s.stack n).hot && decide (90 ≤ d.toNat))) = false := by
      rcases hcool with hlt | ⟨hle, hhot⟩
      · simp [show ¬ 95 < d.toNat by omega, show ¬ 90 ≤ d.toNat by omega]
      · simp [hhot, Nat.not_lt.mpr hle]
    rw [exec_hbmTemperatureRead_of_ready hready, hgoes]
    rfl
  case stands =>
    rw [exec_hbmTemperatureRead_of_ready hready]
    simp only [hhot, hwarm, decide_true, Bool.and_true, Bool.or_true, Bool.not_true, Bool.and_false, if_true]
    rfl
  case comes =>
    rw [exec_hbmTemperatureRead_of_ready hready]
    simp only [hnew, habove, decide_true, Bool.true_or, Bool.not_false, Bool.and_true, if_true]
    rfl
  case bad => rw [exec_scrub_of_ready hready hline hscrub r, if_pos hbad]
  case good =>
    have hgood : ∀ r, exec (.scrub n l r) s = .next (if r = 1 then s.lineCe n l else if r = 2 then (s.lineUe n l 3).sweepFatal else s) := fun r => by
      rw [exec_scrub_of_ready hready hline hscrub r, if_neg (by simp [hclean, hmark])]
    exact ⟨hgood 0, hgood 1, hgood 2⟩

end Sys2Proof.Machine
end

section
/-! The boot (R478, R550 to R554, R568, R569, Tables 18.2 and 21.1) and the resets (R559 to R562), one equation per row. -/

namespace Sys2Proof.Machine

/-! Standby power, images and main power. -/

section
variable {s : State}

theorem exec_standbyPowerValid (s : State) : exec .standbyPowerValid s = .next (if s.boot.standby then s else s.bootStart.resetDone 0) := rfl

/-- A boot ROM runs at step 1 and reads this slot: A first, then B. -/
structure State.ReadsSlot (s : State) (die : Fin 2) (slot : Bool) : Prop where
  running : s.romSt die = .run
  step : s.get F.CTC_STATUS_boot_step die = 1
  slot : slot = s.boot.triedA.contains die.val

/-- An image that a boot ROM has read: a good one is measured and goes on, a bad one of slot A leaves slot B, and of slot B ends the boot (R478). -/
theorem exec_bootImageVerified_of_reads {die : Fin 2} {slot : Bool} (hread : s.ReadsSlot die slot) (svn : BitVec 8) (ok : Bool)
    (items : List (List Byte)) (bench : Bool) :
    let r := (s.set F.CTC_STATUS_boot_step die 0 2).set F.CTC_SVN_running die 0 svn.toNat
    let i := (r.measure die 1 (items.getD 0 zero48)).measure die 2 (items.getD 1 zero48)
    exec (.bootImageVerified die slot svn ok items bench) s = .next (
      if ok ∧ s.sec.svn ≤ svn.toNat then
        ({ i with boot := { i.boot with verified := i.boot.verified.put die (items, bench), step := max 2 i.boot.step } } : State).mainSteps
      else if !slot then { s with boot := { s.boot with triedA := s.boot.triedA ++ [die.val] } }
      else (s.romFail die (if ok then 2 else 1)).chooseActive) := by
  obtain ⟨hrun, hstep, hslot⟩ := hread
  exact congrArg Host.Outcome.next (if_neg (by simp [hrun, hstep, hslot]))

theorem exec_mainOk_of_rise (hreq : s.boot.mainReq = true) (hlow : s.boot.mainOk = false) :
    exec (.mainOk true) s = .next ({ s with boot := { s.boot with mainOk := true, step := max 3 s.boot.step } } : State).mainSteps :=
  congrArg Host.Outcome.next ((if_pos rfl).trans (if_pos (by simp [hreq, hlow])))

theorem exec_mainOk_of_fall (s : State) :
    exec (.mainOk false) s = .next (if s.boot.mainReq && s.boot.mainOk then s.mainCut else { s with boot := { s.boot with mainOk := false } }) := rfl

/-- 50 ms after MAIN_REQ without MAIN_OK the request is taken back, and no ROM goes on (R568). -/
theorem exec_mainOkTimeout_of_due (hreq : s.boot.mainReq = true) (hlow : s.boot.mainOk = false) (hdue : s.boot.reqAt + msTicks 50 ≤ s.datum) :
    let off := ((s.pin "MAIN_REQ" false).set F.CTC_STATUS_boot_step 0 0 2).set F.CTC_STATUS_boot_step 1 0 2
    exec .mainOkTimeout s =
      .next { off with boot := { off.boot with mainReq := false, charged := true, rom0 := .failed, rom1 := .failed, verified := [] } } :=
  congrArg Host.Outcome.next (if_pos (by simp [hreq, hlow, State.elapsed_of_le hdue]))

theorem exec_mainRailDischarged_of_off (hreq : s.boot.mainReq = false) :
    exec .mainRailDischarged s = .next ({ s with boot := { s.boot with charged := false } } : State).requestMain :=
  congrArg Host.Outcome.next (if_neg (by simp [hreq]))

theorem exec_level0Deadline_of_due (hstandby : s.boot.standby = true) (hfirst : s.boot.late = false) (hdue : s.boot.begun + msTicks 1000 ≤ s.datum) :
    exec .level0Deadline s = .next ({ s with boot := { s.boot with late := true } } : State).chooseActive :=
  congrArg Host.Outcome.next (if_pos (by simp [hstandby, hfirst, State.elapsed_of_le hdue]))

end

/-! Discovery (R553). -/

/-- The active Chartroom waits for die d to answer. -/
structure State.AwaitsDie (s : State) (d : Fin 64) : Prop where
  step : s.boot.step = 4
  active : s.chtActive = true
  isDie : d.val < 62
  unseen : s.boot.seen.contains d.val = false
  alive : s.dieDead d = false

section
variable {s : State} {d : Fin 64} (hwait : s.AwaitsDie d)
include hwait

/-- A die that answers is seen; one whose report is not as its fuse map has it, or that failed its self-test, fails. -/
theorem exec_dieDiscoveryReport_of_awaits (same selfTest coresOk : Bool) :
    let seen : State := { s with boot := { s.boot with seen := s.boot.seen ++ [d.val] } }
    exec (.dieDiscoveryReport d same selfTest coresOk) s =
      .next (if same && selfTest && (coresOk || decide (32 ≤ d.val)) then seen else (seen.dieFail d).stepFail 5 d).discovered := by
  obtain ⟨hstep, hactive, hdie, hunseen, halive⟩ := hwait
  exact congrArg Host.Outcome.next (if_neg (by simpa [hstep, hactive, halive, hdie] using hunseen))

/-- A die that has not answered within 5 ms of its bus coming up fails. -/
theorem exec_dieDiscoveryTimeout_of_awaits :
    exec (.dieDiscoveryTimeout d) s =
      .next (if s.elapsed s.boot.since (msTicks (busUp d + 5)) then ((s.dieFail d).stepFail 5 d).discovered else s) := by
  obtain ⟨hstep, hactive, hdie, hunseen, halive⟩ := hwait
  show execDieDiscoveryTimeout d s = _
  cases hdue : s.elapsed s.boot.since (msTicks (busUp d + 5)) with
  | true => exact congrArg Host.Outcome.next (if_neg (by simpa [hstep, hactive, halive, hdie, hdue] using hunseen))
  | false => exact congrArg Host.Outcome.next (if_pos (by simp [hdue]))

end

/-! The photonic engine, the stacks and the link tables (R550, R554). -/

/-- The boot has come to the photonic engine of a working FD. -/
structure State.AwaitsPhotonic (s : State) (n : Fin 6) : Prop where
  step : 5 ≤ s.boot.step
  untested : s.boot.photonic.contains n.val = false
  works : s.fdWorks n = true
  going : s.boot.halted = false

section
variable {s : State} {n : Fin 6} (hwait : s.AwaitsPhotonic n)
include hwait

theorem State.AwaitsPhotonic.not_skipped : ¬ (s.boot.step < 5 ∨ s.boot.photonic.contains n.val ∨ !s.fdWorks n ∨ s.boot.halted) := by
  obtain ⟨hstep, huntested, hworks, hgoing⟩ := hwait
  simp only [huntested, hworks, hgoing]
  simpa using hstep

theorem exec_photonicSelfTestComplete_of_failure : exec (.photonicSelfTestComplete n false) s = .next (s.stepFail 6 (dieFd n)) :=
  congrArg Host.Outcome.next ((if_neg hwait.not_skipped).trans (if_pos rfl))

/-- Where no port is a boot port, a good self-test is only noted. -/
theorem exec_photonicSelfTestComplete_of_no_ports (hports : ∀ j < 36, bitOf s.bootPorts.1 j = false) :
    exec (.photonicSelfTestComplete n true) s = .next { s with boot := { s.boot with photonic := s.boot.photonic ++ [n.val] } } := by
  refine congrArg Host.Outcome.next ((if_neg hwait.not_skipped).trans ((if_neg (by simp)).trans ?_))
  let v : State := { s with boot := { s.boot with photonic := s.boot.photonic ++ [n.val] } }
  refine List.foldlRecOn (motive := (· = v)) _ _ rfl fun u hu p hp => ?_
  obtain ⟨k, hk, rfl⟩ := List.mem_map.mp hp
  have hport : 6 * n.val + k < 36 := by
    have := List.mem_range.mp hk
    omega
  subst hu
  exact if_neg (by simp [show v.bootPorts = s.bootPorts from rfl, hports _ hport])

end

/-- A stack that trains at its full rate is READY with it, its refresh and recalibration as of now (R287). -/
theorem exec_hbmTrainingComplete_of_full {s : State} {h : Fin 16} (htraining : s.get F.MHB_STATUS_state h = 1)
    (hfirst : s.pw.retry.contains h.val = false) :
    let v := ((s.set F.MHB_STATUS_state h 0 2).set F.MHB_STATUS_rate h 0 3).setStack h { s.stack h with refreshed := s.datum, recalAt := s.datum }
    exec (.hbmTrainingComplete h 3) s = .next v.bootPools.relevel := by
  have hkept : s.pw.retry.erase h.val = s.pw.retry := List.erase_of_not_mem (by simpa using hfirst)
  show execHbmTrainingComplete h 3 s = _
  unfold execHbmTrainingComplete
  dsimp only
  rw [if_neg (by simp [htraining]), hfirst, hkept]
  rfl

theorem State.get_of_regs {s t : State} (h : t.regs = s.regs) (f : Field) (inst idx : Nat) : t.get f inst idx = s.get f inst idx := by
  rw [State.get, State.get, State.reg, State.reg, h]

theorem State.reservedLinks_regs (s : State) : s.reservedLinks.regs = s.regs := by
  unfold State.reservedLinks
  cases s.linkPlace 64 1088 <;> rfl

/-- With every line of the link tables read back right the reserved pools go to chain mode and boot is complete (R554). -/
theorem exec_linkTableVerify_of_good {s : State} (hstep : s.boot.step = 8) (hopen : s.boot.complete = false)
    (hdue : s.boot.since + msTicks 2 ≤ s.datum) :
    let linked := ((List.range 8).filter fun o => !s.boot.octDown.contains o).foldl (fun s _ => s.reservedLinks)
      { s with boot := { s.boot with step := 9, since := s.datum, complete := true, pools := some true, links := [] } }
    exec (.linkTableVerify []) s = .next (linked.event { code := .bootComplete, params := [s.get F.DTM_STATUS_state] }).relevel := by
  intro linked
  have hregs : linked.regs = s.regs := List.foldlRecOn (motive := fun u : State => u.regs = s.regs) _ _ rfl
    fun u hu _ _ => (State.reservedLinks_regs u).trans hu
  rw [← State.get_of_regs hregs]
  exact congrArg Host.Outcome.next (if_neg (by simp [hstep, hopen, State.elapsed_of_le hdue]))

/-! Resets (R559 to R562). -/

theorem exec_resetN (us : Nat) (s : State) : exec (.resetN us) s = .next (if 100 ≤ us ∧ s.boot.standby then s.deviceReset else s) := rfl
theorem exec_perst (die : Fin 2) (s : State) : exec (.perst die) s = .next (s.functionReset die) := rfl
theorem exec_functionLevelReset (die : Fin 2) (s : State) : exec (.functionLevelReset die) s = .next (s.functionReset die) := rfl
theorem exec_coldReset (s : State) : exec .coldReset s = .next (s.wiped true) := rfl

/-- Settles O50: each row of the boot and of the resets by its own equation. -/
theorem bootSteps : Obligations.BootSteps := by
  intro s die slot bench same test cores svn items d n st us b tried booting i off waiting seen k linked
  have reads : booting → s.ReadsSlot die slot := fun ⟨hrun, hstep, hslot⟩ => ⟨hrun, hstep, hslot⟩
  have awaits : waiting → s.AwaitsDie d := fun ⟨hstep, hactive, hdie, hunseen, halive⟩ => ⟨hstep, hactive, hdie, hunseen, halive⟩
  refine ⟨fun hon => ?alreadyOn, fun hoff => ?begins, fun hboot hsvn => ?good, fun hboot hslot => ?badA, fun hboot hslot => ?badB,
    fun hreq hlow => exec_mainOk_of_rise hreq hlow, fun hreq hhigh => ?cut, fun hreq => ?low, fun hreq hlow hdue => exec_mainOkTimeout_of_due hreq hlow hdue,
    fun hreq => exec_mainRailDischarged_of_off hreq, fun hwait => ⟨?reported, fun hdue => ?silent, fun hearly => ?early⟩,
    fun hstep huntested hworks hgoing => ?photonic, fun htraining hfirst => exec_hbmTrainingComplete_of_full htraining hfirst,
    fun hstep hopen hdue => exec_linkTableVerify_of_good hstep hopen hdue, fun hon hfirst hdue => exec_level0Deadline_of_due hon hfirst hdue, exec_resetN us s,
    exec_perst die s, exec_functionLevelReset die s, exec_coldReset s⟩
  case alreadyOn => rw [exec_standbyPowerValid, if_pos hon]
  case begins => rw [exec_standbyPowerValid, if_neg (Bool.eq_false_iff.mp hoff)]
  case good => rw [exec_bootImageVerified_of_reads (reads hboot), if_pos ⟨rfl, hsvn⟩]
  case badA => rw [exec_bootImageVerified_of_reads (reads hboot), if_neg (by simp), if_pos (by simp [hslot])]
  case badB =>
    rw [exec_bootImageVerified_of_reads (reads hboot), if_neg (by simp), if_neg (by simp [hslot])]
    rfl
  case cut => rw [exec_mainOk_of_fall, if_pos (Bool.and_eq_true_iff.mpr ⟨hreq, hhigh⟩)]
  case low => rw [exec_mainOk_of_fall, if_neg (by simp [show s.boot.mainReq = false from hreq])]
  case reported =>
    rw [exec_dieDiscoveryReport_of_awaits (awaits hwait)]
    simp [and_assoc, seen, b]
  case silent => rw [exec_dieDiscoveryTimeout_of_awaits (awaits hwait), if_pos (State.elapsed_of_le hdue)]
  case early => rw [exec_dieDiscoveryTimeout_of_awaits (awaits hwait), if_neg (by simpa [State.elapsed] using hearly)]
  case photonic =>
    have hwait : s.AwaitsPhotonic n := ⟨hstep, huntested, hworks, hgoing⟩
    exact ⟨exec_photonicSelfTestComplete_of_failure hwait, exec_photonicSelfTestComplete_of_no_ports hwait⟩

end Sys2Proof.Machine
end

section
/-! Collectives (R319 to R326, R328, R334, Tables 11.2 to 11.4): the commands of class 0x06 on groups and launches with good parameters, and the rows of the
pending launches and of the slots. That a credit that comes early is kept (log 153), and that a launch of no
member is answered as one of no group (log 39), is the model's choice. -/

namespace Sys2Proof.Machine

/-! Groups (R320, R321). -/

theorem exec_groupDefine (h : CmdHdr) (p : List Byte) (s : State) : exec (.groupDefine h p) s = .next (s.command 0x0600 h p bodyGroupDefine) := rfl
theorem exec_groupUndefine (h : CmdHdr) (p : List Byte) (s : State) : exec (.groupUndefine h p) s = .next (s.command 0x0601 h p bodyGroupUndefine) := rfl

/-- Parameters that GROUP_DEFINE accepts (R320): distinct members in the header's job, its logical device among them. -/
structure GroupParams (h : CmdHdr) (q : List Byte) : Prop where
  sheet : h.sheetValid = true
  jobValid : h.jobValid = true
  job : uAt q 2 2 = h.job.toNat
  count : 1 ≤ uAt q 4 4 ∧ uAt q 4 4 ≤ 1020
  length : q.length = 8 + 4 * uAt q 4 4
  range : ∀ d ∈ groupMembers q, d < 2 ^ 20
  distinct : dedup (groupMembers q) = groupMembers q
  member : h.logical.toNat ∈ groupMembers q

section
variable {s : State} {h : CmdHdr} {q : List Byte}

/-- What the table of groups makes of a new group with good parameters. -/
theorem bodyGroupDefine_of_params (o : Owed) (g : GroupParams h q) :
    bodyGroupDefine s o h q = if (s.group? (uAt q 2 2) (uAt q 0 2)).isSome then (s, .st .groupExists)
      else if s.coll.groups.length < 256 then
        ({ s with coll := { s.coll with groups := s.coll.groups.put (uAt q 2 2, uAt q 0 2) ⟨groupMembers q, 0, 0⟩ } }, .ok)
      else (s, .st .groupTableFull) := by
  obtain ⟨hsheet, hvalid, hjob, ⟨hmin, hmax⟩, hlen, hrange, hdistinct, hmember⟩ := g
  have hhead : 8 ≤ q.length := hlen ▸ Nat.le_add_right _ _
  have hall : (groupMembers q).all (fun d => decide (d < 2 ^ 20)) = true := List.all_eq_true.mpr fun d hd => decide_eq_true (hrange d hd)
  have hcontains : (groupMembers q).contains h.logical.toNat = true := List.contains_iff_mem.mpr hmember
  simp only [bodyGroupDefine, firstFail, needSheet, needJob, hsheet, hvalid, ← hjob, hmin, hmax, ← hlen, hhead, hall, hdistinct, hcontains,
    beq_self_eq_true, and_self, decide_true, if_true]
  cases s.group? (uAt q 2 2) (uAt q 0 2) with
  | some y => rfl
  | none =>
    rcases Nat.lt_or_ge s.coll.groups.length 256 with hroom | hfull
    · simp [hroom]
    · simp [Nat.not_lt.mpr hfull]

/-- What GROUP_UNDEFINE does with good parameters: the group must stand, and none of its launches may be pending or admitted (R321). -/
theorem bodyGroupUndefine_of_params (o : Owed) (hlen : q.length = 8) (hjob : s.stoppingJob (uAt q 2 2) = false) (hzero : uAt q 4 4 = 0) :
    bodyGroupUndefine s o h q = if (s.group? (uAt q 2 2) (uAt q 0 2)).isNone then (s, .st .groupUnknown)
      else if s.groupBusy (uAt q 2 2) (uAt q 0 2) then (s, .st .collectiveBusy)
      else ({ s with coll := { s.coll with groups := s.coll.groups.del (uAt q 2 2, uAt q 0 2) } }, .ok) := by
  simp only [bodyGroupUndefine, firstFail, lenIs, zeros, hlen, hjob, hzero, beq_self_eq_true, Bool.not_false, if_true]
  cases s.group? (uAt q 2 2) (uAt q 0 2) <;> cases s.groupBusy (uAt q 2 2) (uAt q 0 2) <;> rfl

end

/-! Launches (R323 to R326). -/

theorem exec_collectiveLaunch (h : CmdHdr) (p : List Byte) (s : State) :
    exec (.collectiveLaunch h p) s = .next (s.command 0x0602 h p bodyCollectiveLaunch) := rfl
theorem exec_collectiveStatus (h : CmdHdr) (p : List Byte) (s : State) :
    exec (.collectiveStatus h p) s = .next (s.command 0x0603 h p bodyCollectiveStatus) := rfl

/-- A COLLECTIVE_LAUNCH that R323 accepts: of a member of group y, neither of a number nor of a stamp that the group has passed. -/
structure State.LaunchParams (s : State) (h : CmdHdr) (q : List Byte) (l : Launch) (y : Group) : Prop where
  length : q.length = 96
  sheet : h.sheetValid = true
  jobValid : h.jobValid = true
  group : s.group? l.job l.group = some y
  member : l.logical ∈ y.members
  fields : pass (s.launchChecks l q (y.members.idxOf l.logical) y.members.length)
  seq : y.next ≤ l.seq
  stamp : y.stamp ≤ l.stamp

/-- A good launch that cannot be admitted now joins those that wait, if there is room among their 8 (R324). -/
def State.holdLaunch (s : State) (l : Launch) : State × Ans :=
  if s.coll.waiting.length < 8 then
    ({ s.noteStamp l with coll := { (s.noteStamp l).coll with waiting := insertBy launchKey l (s.noteStamp l).coll.waiting } }, .later true)
  else (s, .st .collectiveBusy)

section
variable {s : State} {o : Owed} {h : CmdHdr} {q : List Byte} {l : Launch} {y : Group} (hl : launchOf q h o s.datum = l) (g : s.LaunchParams h q l y)
include hl g

/-- A good launch is admitted to the lowest free slot if it is the next of its group, and held otherwise. -/
theorem bodyCollectiveLaunch_of_params : bodyCollectiveLaunch s o h q =
    (if s.launchDue l then s.freeSlotNo else none).elim (s.holdLaunch l) fun k => ((s.noteStamp l).admitLaunch k l, s.admitAns l) := by
  have hmember : y.members.contains l.logical = true := List.contains_iff_mem.mpr g.member
  unfold bodyCollectiveLaunch
  dsimp only
  rw [hl, g.group, Option.getD_some, hmember, if_pos rfl, (firstFail_none _).2]
  · dsimp only
    cases (if s.launchDue l then s.freeSlotNo else none) <;> rfl
  · simp only [pass_append, pass_cons, lenIs, needSheet, needJob]
    exact ⟨⟨⟨beq_iff_eq.mpr g.length, g.sheet, g.jobValid, pass_nil⟩, g.fields⟩, trivial, decide_eq_true ⟨g.seq, g.stamp⟩, pass_nil⟩

theorem bodyCollectiveLaunch_of_due {m : Nat} (hdue : s.launchDue l = true) (hslot : s.freeSlotNo = some m) :
    bodyCollectiveLaunch s o h q = ((s.noteStamp l).admitLaunch m l, s.admitAns l) := by
  rw [bodyCollectiveLaunch_of_params hl g, if_pos hdue, hslot, Option.elim_some]

theorem bodyCollectiveLaunch_of_held (hheld : s.launchDue l = false ∨ s.freeSlotNo = none) : bodyCollectiveLaunch s o h q = s.holdLaunch l := by
  have hnone : (if s.launchDue l then s.freeSlotNo else none) = none := by
    rcases hheld with hearly | hfull
    · simp [hearly]
    · simp [hfull]
  rw [bodyCollectiveLaunch_of_params hl g, hnone, Option.elim_none]

end

section
variable {s : State} {l : Launch}

/-- The first due launch of those that wait, where a slot is free. -/
theorem exec_collectiveAdmit_of_due {m : Nat} (hslot : s.freeSlotNo = some m) (hdue : s.coll.waiting.find? s.launchDue = some l) :
    exec .collectiveAdmit s = .next ((s.answer l.owed (s.admitAns l)).admitLaunch m l) := by
  show execCollectiveAdmit s = _
  simp only [execCollectiveAdmit, hslot, hdue]

/-- A launch that has waited for its timeout without becoming the next of its group. -/
theorem exec_pendingLaunchTimeout_of_due {j g q : Nat} (hfind : s.coll.waiting.find? (fun l => l.job == j && l.group == g && l.seq == q) = some l)
    (hearly : s.launchDue l = false) (hwaited : l.since + l.timeout ≤ s.datum) :
    exec (.pendingLaunchTimeout j g q) s = .next ((({ s with coll := { s.coll with waiting := s.coll.waiting.erase l } } : State).final l.owed .collectiveSeq).event
      { code := .collectiveTimeout, job := some j, sheet := some l.sheet, status := some .collectiveSeq,
        params := [g, q, ((s.group? j g).map Group.next).getD 0] }) := by
  show execPendingLaunchTimeout j g q s = _
  simp only [execPendingLaunchTimeout, hfind, hearly, State.elapsed_of_le hwaited]
  rfl

end

/-! Slots (R319, R326, R328, R334). -/

/-- The oldest place that a peer has credit for holds its next chunk, once all of the chunk's bytes have landed there. -/
theorem CollSlot.whole_of_landed {x : CollSlot} {y : RxPeer} {c : Nat} {rest : List Nat} (hplaces : y.places = c :: rest) (hrun : x.running = true)
    (hlanded : x.bytes y.next ≤ x.landed.getD c 0) : x.whole y = some c := by
  simp [CollSlot.whole, hplaces, hrun, hlanded]

section
variable {s : State} {k : Fin 8} {x : CollSlot} (hx : s.slot? k = some x)
include hx

theorem exec_atDatumTrigger_of_due (hidle : x.running = false) (htrigger : x.l.trigger = 1) (hdue : x.l.atDatum ≤ s.datum) :
    exec (.atDatumTrigger k) s = .next (s.collStart k).collOps := by
  have hready : x.running = false ∧ x.l.trigger = 1 ∧ x.l.atDatum ≤ s.datum := ⟨hidle, htrigger, hdue⟩
  show execAtDatumTrigger k s = _
  simp only [execAtDatumTrigger, hx, if_pos hready]

theorem exec_collectiveChunk_of_whole {r c : Nat} {y : RxPeer} (hy : x.rx.find? (fun y => y.rank == r) = some y) (hwhole : x.whole y = some c) :
    exec (.collectiveChunk k r) s = .next ((s.serveBefore k x).takeChunk k x y c).collPumps.collOps := by
  show execCollectiveChunk k r s = _
  simp only [execCollectiveChunk, hx, hy, hwhole]

/-- A peer that has kept a running slot waiting for longer than its timeout. -/
theorem exec_collectiveTimeout_of_due {r : Nat} (hrun : x.running = true)
    (hdue : (x.waitsFor r).any (fun y => decide (y + (x.l.timeout + 1) ≤ s.datum)) = true) :
    exec (.collectiveTimeout k r) s = .next (((s.collWordDone k x false .collectiveTimeout).jobError x.l.job
      { code := .collectiveTimeout, sheet := some x.l.sheet, status := some .collectiveTimeout, unit := k, params := [x.l.group, x.l.seq, r] }).freeSlot k) := by
  have hpast : (x.running && (x.waitsFor r).any fun t => s.elapsed t (x.l.timeout + 1)) = true := Bool.and_eq_true_iff.mpr ⟨hrun, hdue⟩
  show execCollectiveTimeout k r s = _
  simp only [execCollectiveTimeout, hx, if_pos hpast]

end

section
variable {s : State} {j g q r a : Nat}

theorem exec_collectiveCredit_of_slot {m : Nat} {x : CollSlot}
    (hfind : s.coll.slots.find? (fun e => e.2.l.job == j && e.2.l.group == g && e.2.l.seq == q) = some (m, x)) :
    exec (.collectiveCredit j g q r a) s = .next ((s.setSlot m { x with
      tx := x.tx.map fun y => if y.rank = r then { y with credits := y.credits ++ [a] } else y }).collPumps).collOps := by
  show execCollectiveCredit j g q r a s = _
  simp only [execCollectiveCredit, hfind]

/-- A credit of a collective that its group has still to launch is kept. -/
theorem exec_collectiveCredit_of_early {y : Group} (hfind : s.coll.slots.find? (fun e => e.2.l.job == j && e.2.l.group == g && e.2.l.seq == q) = none)
    (hgroup : s.group? j g = some y) (hnext : y.next ≤ q) (hjob : s.admitted j = true) :
    exec (.collectiveCredit j g q r a) s = .next { s with coll := { s.coll with early := s.coll.early ++ [(j, g, q, r, a)] } } := by
  show execCollectiveCredit j g q r a s = _
  simp only [execCollectiveCredit, hfind, hgroup, if_pos (And.intro hnext hjob)]

end

/-- Settles O30: each command by what its body does with good parameters, each row of a pending launch or a slot by its own equation. -/
theorem collectives : Obligations.Collectives := by
  intro s h p k t q j n g members ans
  refine ⟨fun ht hsheet hvalid hjob hmin hmax hlen hrange hdistinct hmember => ?define, fun ht hlen hjob hzero => ?undefine,
    fun ht hlen hsheet hvalid y hgroup hmember hfields hseq hstamp => ?launch, fun ht hlen => ?status,
    fun m l hslot hdue => exec_collectiveAdmit_of_due hslot hdue, fun j g q l hfind hearly hwaited => exec_pendingLaunchTimeout_of_due hfind hearly hwaited,
    fun x hx => ⟨fun hidle htrigger hdue => exec_atDatumTrigger_of_due hx hidle htrigger hdue,
      fun r y c rest hy hplaces hrun hlanded => exec_collectiveChunk_of_whole hx hy (CollSlot.whole_of_landed hplaces hrun hlanded),
      fun r hrun hdue => exec_collectiveTimeout_of_due hx hrun hdue⟩,
    fun j g q r a m x hfind => exec_collectiveCredit_of_slot hfind,
    fun j g q r a y hfind hgroup hnext hadmitted => exec_collectiveCredit_of_early hfind hgroup hnext hadmitted⟩
  case define =>
    have good : GroupParams h q := ⟨hsheet, hvalid, hjob, ⟨hmin, hmax⟩, hlen, hrange, hdistinct, hmember⟩
    rw [exec_groupDefine, State.command_of_takes ht, bodyGroupDefine_of_params _ good]
    refine ⟨fun hold => ?_, fun hnew hroom => ?_⟩
    · rw [if_pos hold]
    · rw [if_neg (Option.not_isSome_iff_eq_none.mpr hnew), if_pos hroom]
  case undefine =>
    rw [exec_groupUndefine, State.command_of_takes ht, bodyGroupUndefine_of_params _ hlen hjob hzero]
    refine ⟨fun hnone => ?_, fun hsome hbusy => ?_, fun hsome hidle => ?_⟩
    · rw [if_pos (Option.isNone_iff_eq_none.mpr hnone)]
    · rw [if_neg (Bool.eq_false_iff.mp (Option.isNone_eq_false_iff.mpr hsome)), if_pos hbusy]
    · rw [if_neg (Bool.eq_false_iff.mp (Option.isNone_eq_false_iff.mpr hsome)), if_neg (Bool.eq_false_iff.mp hidle)]
  case launch =>
    have good : t.LaunchParams h q (launchOf q h (hdrOwed h 0x0602) t.datum) y := ⟨hlen, hsheet, hvalid, hgroup, hmember, hfields, hseq, hstamp⟩
    rw [exec_collectiveLaunch, State.command_of_takes ht]
    refine ⟨fun m hdue hslot => ?_, fun hheld => ?_⟩
    · rw [bodyCollectiveLaunch_of_due rfl good hdue hslot]
    · rw [bodyCollectiveLaunch_of_held rfl good hheld, State.holdLaunch]
      split <;> rfl
  case status =>
    have hpass : firstFail [lenIs (h.params p) 0] = none := if_pos (beq_iff_eq.mpr hlen)
    rw [exec_collectiveStatus, State.command_of_takes ht]
    simp only [bodyCollectiveStatus, hpass]
    rfl

end Sys2Proof.Machine
end

section
/-! Distribution trees (R336 to R343, Table 11.5): TREE_START, TREE_REPARENT and TREE_END with good parameters, and the rows of a node and of its children.
That a RESUME record with the image's last chunk reports the child done (log 36), and that header and parameters must name one job (log 37), is the
model's choice. -/

namespace Sys2Proof.Machine

/-- A node that is found stands in the table, under the sheet and the image by which it was found. -/
theorem State.tree?_some {s : State} {i m : Nat} {x : TreeNode} (hx : s.tree? i m = some x) : x ∈ s.coll.trees ∧ x.sheet = i ∧ x.image = m := by
  have hnames := List.find?_some hx
  rw [Bool.and_eq_true, beq_iff_eq, beq_iff_eq] at hnames
  exact ⟨List.mem_of_find?_eq_some hx, hnames⟩

theorem exec_treeStart (h : CmdHdr) (p : List Byte) (s : State) : exec (.treeStart h p) s = .next (s.command 0x0604 h p bodyTreeStart) := rfl
theorem exec_treeReparent (h : CmdHdr) (p : List Byte) (s : State) : exec (.treeReparent h p) s = .next (s.command 0x0605 h p bodyTreeReparent) := rfl
theorem exec_treeEnd (h : CmdHdr) (p : List Byte) (s : State) : exec (.treeEnd h p) s = .next (s.command 0x0606 h p bodyTreeEnd) := rfl

/-! TREE_START (R336). -/

/-- Parameters that TREE_START accepts for node z (Table 11.5): of the header's job, with its image in the sheet's data windows and at most 8 children. -/
structure State.TreeParams (s : State) (h : CmdHdr) (q : List Byte) (z : TreeNode) : Prop where
  length : q.length = 72
  sheet : h.sheetValid = true
  jobValid : h.jobValid = true
  job : z.job = h.job.toNat
  kind : uAt q 6 1 ≤ 1
  fanout : uAt q 7 1 ≤ 8
  chunks : 2 ≤ z.chunks ∧ z.chunks ≤ (if z.routing then 257 else 65537)
  parents : devOrNone z.parent = true ∧ devOrNone z.alternate = true
  dst : (if z.routing then z.dst == 0 else s.inData h.sheet.toNat z.dst (treeChunk * (z.chunks - 1))) = true
  src : (if z.isRoot then s.inData h.sheet.toNat z.src (treeChunk * z.chunks) else z.src == 0) = true
  children : ∀ j < 8, if j < uAt q 7 1 then uAt q (40 + 4 * j) 4 < 2 ^ 20 else uAt q (40 + 4 * j) 4 = treeNone

/-- A new node with good parameters: a routing image needs a place for its chunks in the Chartroom's staging. -/
def State.addTree (s : State) (z : TreeNode) : State × Ans :=
  if z.routing && !Config.placed s.free (treeChunk * z.chunks) then (s.draw, .st .reservedFull)
  else ({ (if z.routing then s.draw else s) with coll := { s.coll with trees := s.coll.trees ++ [z] } }, .later true)

section
variable {s : State} {z : TreeNode}

/-- The eight fields of the children, each in use or naming none. -/
theorem State.TreeParams.children_check {h : CmdHdr} {q : List Byte} (g : s.TreeParams h q z) : ((List.range 8).all fun j =>
    if j < uAt q 7 1 then decide (uAt q (40 + 4 * j) 4 < 2 ^ 20) else uAt q (40 + 4 * j) 4 == treeNone) = true := by
  refine List.all_eq_true.mpr fun j hj => ?_
  have hchild := g.children j (List.mem_range.mp hj)
  split at hchild
  case isTrue hused => rw [if_pos hused, decide_eq_true hchild]
  case isFalse hfree => rw [if_neg hfree, beq_iff_eq.mpr hchild]

/-- What TREE_START does with good parameters: the sheet may have no node of the image. -/
theorem bodyTreeStart_of_params {o : Owed} {h : CmdHdr} {q : List Byte} (hz : treeNodeOf h.sheet.toNat q o s.datum = z) (g : s.TreeParams h q z) :
    bodyTreeStart s o h q = if (s.tree? h.sheet.toNat z.image).isSome then (s, .st .treeExists) else s.addTree z := by
  have hkids := g.children_check
  obtain ⟨hlen, hsheet, hvalid, hjob, hkind, hfanout, hchunks, ⟨hparent, halternate⟩, hdst, hsrc, -⟩ := g
  unfold bodyTreeStart
  dsimp only
  simp only [hz, firstFail, lenIs, needSheet, needJob, hlen, hsheet, hvalid, ← hjob, hkind, hfanout, hchunks, hparent, halternate, hdst, hsrc, hkids,
    beq_self_eq_true, decide_true, if_true]
  cases s.tree? h.sheet.toNat z.image <;> rfl

theorem State.addTree_of_memory (hmemory : z.routing = false) :
    s.addTree z = ({ s with coll := { s.coll with trees := s.coll.trees ++ [z] } }, .later true) := by
  simp [State.addTree, hmemory]

theorem State.addTree_of_routing (hrouting : z.routing = true) : s.addTree z = if Config.placed s.free (treeChunk * z.chunks)
    then ({ s.draw with coll := { s.coll with trees := s.coll.trees ++ [z] } }, .later true) else (s.draw, .st .reservedFull) := by
  cases hplaced : Config.placed s.free (treeChunk * z.chunks) <;> simp [State.addTree, hrouting, hplaced]

end

/-! TREE_REPARENT (R341) and TREE_END (R343). -/

/-- Parameters with which TREE_REPARENT changes node x of its sheet. -/
structure State.ReparentParams (s : State) (h : CmdHdr) (q : List Byte) (x : TreeNode) : Prop where
  length : q.length = 24
  sheet : h.sheetValid = true
  going : s.stoppingJob (uAt q 4 2) = false
  what : uAt q 6 1 ≤ 1
  zero : uAt q 7 1 = 0
  child : uAt q 8 4 < 2 ^ 20
  parent : uAt q 12 4 < 2 ^ 20
  reserved : uAt q 16 8 = 0
  node : s.tree? h.sheet.toNat (uAt q 0 4) = some x
  job : x.job = uAt q 4 2

section
variable {s : State} {o : Owed} {h : CmdHdr} {q : List Byte} {x : TreeNode}

/-- TREE_REPARENT of node x: a new parent, which gets the node's record, or a new child. -/
theorem bodyTreeReparent_of_params (g : s.ReparentParams h q x) :
    bodyTreeReparent s o h q = if uAt q 6 1 = 0
      then ((s.setTree { x with parent := uAt q 12 4, heard := s.datum, orphan := false }).send (.treeRecord x.job (uAt q 0 4) (uAt q 12 4) x.high), .ok)
      else (s.setTree { x with
        children := (x.children.filter fun y => y.logical != uAt q 8 4) ++ [⟨uAt q 8 4, x.chunks, false, s.datum, s.datum, false, false⟩] }, .ok) := by
  obtain ⟨hmem, hsheet, himage⟩ := State.tree?_some g.node
  have hnamed : (s.coll.trees.any fun t => t.sheet == h.sheet.toNat && t.image == uAt q 0 4 && t.job == uAt q 4 2) = true :=
    List.any_eq_true.mpr ⟨x, hmem, by simp [hsheet, himage, g.job]⟩
  unfold bodyTreeReparent
  dsimp only
  rw [(firstFail_none _).2, g.node]
  · rfl
  · simp only [pass_cons, lenIs, needSheet, zeros]
    exact ⟨beq_iff_eq.mpr g.length, g.sheet, by rw [g.going]; rfl, decide_eq_true g.what, beq_iff_eq.mpr g.zero, decide_eq_true g.child,
      decide_eq_true g.parent, beq_iff_eq.mpr g.reserved, hnamed, pass_nil⟩

variable (hlen : q.length = 8) (hsheet : h.sheetValid = true) (hgoing : s.stoppingJob (uAt q 4 2) = false) (hzero : uAt q 6 2 = 0)
include hlen hsheet hgoing hzero

/-- TREE_END of an image that the sheet has no node of. -/
theorem bodyTreeEnd_of_none (hnone : s.tree? h.sheet.toNat (uAt q 0 4) = none) : bodyTreeEnd s o h q = (s, .ok) := by
  simp [bodyTreeEnd, firstFail, lenIs, needSheet, zeros, hlen, hsheet, hgoing, hzero, hnone]

/-- TREE_END of a node of its job, which waits for children that are neither done nor lost. -/
theorem bodyTreeEnd_of_node (hx : s.tree? h.sheet.toNat (uAt q 0 4) = some x) (hjob : x.job = uAt q 4 2) :
    bodyTreeEnd s o h q = if x.children.any fun c => !c.done && !c.lost then (s, .st .collectiveBusy)
      else (s.treeTear fun y => y.sheet == h.sheet.toNat && y.image == x.image, .ok) := by
  simp [bodyTreeEnd, firstFail, lenIs, needSheet, zeros, hlen, hsheet, hgoing, hzero, hx, hjob]

end

/-! The rows of a node (R337 to R340). -/

section
variable {s : State} {i : Fin 8} {m : Nat} {x : TreeNode} (hx : s.tree? i m = some x)
include hx

theorem exec_treeChunkComplete_of_ready (hready : x.ready = true) : exec (.treeChunkComplete i m x.verified) s =
    .next (if s.treeDigestOk x (s.treeBytes x) then (s.treeVerified x (s.treeBytes x)).treeOps else s.treeBad x) := by
  have hnext : (x.ready && x.verified == x.verified) = true := by rw [hready, beq_self_eq_true]; rfl
  show execTreeChunkComplete i m x.verified s = _
  simp only [execTreeChunkComplete, hx, if_pos hnext]

theorem exec_orphaned_of_due (hroot : x.isRoot = false) (hfirst : x.orphan = false) (hopen : x.verified < x.chunks)
    (hdue : x.heard + msTicks x.timeoutMs ≤ s.datum) : exec (.orphaned i m) s = .next (s.treeOrphan x) := by
  have hsilent : (!x.isRoot && !x.orphan && decide (x.verified < x.chunks) && s.elapsed x.heard (msTicks x.timeoutMs)) = true := by
    rw [hroot, hfirst, decide_eq_true hopen, State.elapsed_of_le hdue]
    rfl
  show execOrphaned i m s = _
  simp only [execOrphaned, hx, if_pos hsilent]

/-! The rows of a child (R338, R339, R341 to R343). -/

section
variable {c : Nat} {y : TreeChild} (hy : x.children.find? (fun y => y.logical == c) = some y)
include hy

theorem exec_treeKeepalive_of_due {w : Word} (hmap : s.mapEntry x.job c = some w) (hopen : y.done = false) (hthere : y.lost = false)
    (hdue : max y.at_ y.kept + msTicks 10 ≤ s.datum) : exec (.treeKeepalive i m c) s =
      .next ((s.setTree (x.setChild { y with kept := s.datum })).sendFrame
        { s.reqFrame i 280 x.job w 0 5 with kind := 7, last := true, payload := leBytes 4 x.high }) := by
  have hquiet : (!y.done && !y.lost && s.elapsed (max y.at_ y.kept) (msTicks 10)) = true := by
    rw [hopen, hthere, State.elapsed_of_le hdue]
    rfl
  show execTreeKeepalive i m c s = _
  simp only [execTreeKeepalive, hx, hy, hmap, if_pos hquiet]

/-- A RESUME record by its chunk: the image's last one ends the child, any other is where its sends go on. -/
theorem exec_resumeRecord_of_child (e : Nat) : exec (.resumeRecord i m c e) s =
    .next (if e + 1 = x.chunks then ((s.treeStale (x.owner c)).setTree (x.setChild { y with done := true, sending := false })).treeDone i m
      else (((s.treeStale (x.owner c)).setTree (x.setChild
        { y with next := if e = treeNone then 0 else e + 1, sending := false, lost := false })).treeSend i m).treeOps) := by
  show execResumeRecord i m c e s = _
  simp only [execResumeRecord, hx, hy]

theorem exec_childLost_of_due (hsending : y.sending = true) (hthere : y.lost = false)
    (hdue : y.at_ + usTicks (max 100 (s.get F.RMO_TIMEOUT_op_timeout)) ≤ s.datum) : exec (.childLost i m c) s =
      .next (((((s.setTree (x.setChild { y with lost := true, sending := false })).event
        { code := .childLost, job := some x.job, sheet := some i.val, params := [m, c], report := true }).treeStop (x.owner c) .targetLost).treeDone
          i m).treeOps) := by
  have hunanswered : (y.sending && !y.lost && s.elapsed y.at_ (usTicks (max 100 (s.get F.RMO_TIMEOUT_op_timeout)))) = true := by
    rw [hsending, hthere, State.elapsed_of_le hdue]
    rfl
  show execChildLost i m c s = _
  simp only [execChildLost, hx, hy, if_pos hunanswered]

end

end

/-- Settles O31: each command by what its body does with good parameters, each row of a node or of a child by its own equation. -/
theorem triangulationTrees : Obligations.TriangulationTrees := by
  intro s h p i m c t q k ans z n
  refine ⟨fun ht hlen hsheet hvalid hjob hkind hfanout hmin hmax hparent halternate hdst hsrc hkids => ?start,
    fun x ht hlen hsheet hgoing hwhat hzero hchild hparent hreserved hx hjob => ?reparent, fun ht hlen hsheet hgoing hzero => ?ends,
    fun x hx => ⟨fun hready => exec_treeChunkComplete_of_ready hx hready,
      fun hroot hfirst hopen hdue => exec_orphaned_of_due hx hroot hfirst hopen hdue,
      fun y hy => ⟨fun w hmap hopen hthere hdue => exec_treeKeepalive_of_due hx hy hmap hopen hthere hdue, fun e hlast => ?done, fun e hother => ?resumed,
        fun hsending hthere hdue => exec_childLost_of_due hx hy hsending hthere hdue⟩⟩⟩
  case start =>
    have good : t.TreeParams h q z := ⟨hlen, hsheet, hvalid, hjob, hkind, hfanout, ⟨hmin, hmax⟩, ⟨hparent, halternate⟩, hdst, hsrc, hkids⟩
    rw [exec_treeStart, State.command_of_takes ht, bodyTreeStart_of_params rfl good]
    refine ⟨fun hold => ?_, fun hnew hmemory => ?_, fun hnew hrouting => ?_⟩
    · rw [if_pos hold]
    · rw [if_neg (Option.not_isSome_iff_eq_none.mpr hnew), State.addTree_of_memory hmemory]
    · rw [if_neg (Option.not_isSome_iff_eq_none.mpr hnew), State.addTree_of_routing hrouting]
      split <;> rfl
  case reparent =>
    have good : t.ReparentParams h q x := ⟨hlen, hsheet, hgoing, hwhat, hzero, hchild, hparent, hreserved, hx, hjob⟩
    rw [exec_treeReparent, State.command_of_takes ht, bodyTreeReparent_of_params good]
    refine ⟨fun hup => ?_, fun hdown => ?_⟩
    · rw [if_pos hup]
    · have hother : uAt q 6 1 ≠ 0 := by omega
      rw [if_neg hother]
  case ends =>
    rw [exec_treeEnd, State.command_of_takes ht]
    refine ⟨fun hnone => ?_, fun x hx hjob => ?_⟩
    · rw [bodyTreeEnd_of_none hlen hsheet hgoing hzero hnone]
    · rw [bodyTreeEnd_of_node hlen hsheet hgoing hzero hx hjob]
      refine ⟨fun hwaits => ?_, fun hready => ?_⟩
      · rw [if_pos hwaits]
      · rw [if_neg (Bool.eq_false_iff.mp hready)]
  case done => rw [exec_resumeRecord_of_child hx hy, if_pos hlast]
  case resumed => rw [exec_resumeRecord_of_child hx hy, if_neg hother]

end Sys2Proof.Machine
end

section
/-! What a taken command answers, and a time that has not passed: the two facts through which the statements below go. -/

namespace Sys2Proof.Machine

/-- A command that is taken answers with what its body makes of the state. -/
theorem State.command_answers {s t u : State} {op : Nat} {h : CmdHdr} {p q : List Byte} {body : CmdBody} {a : Ans} (ht : s.takes op h p)
    (hb : body t (hdrOwed h op) h q = (u, a)) (hs : s.taken h = t := by rfl) (hq : h.params p = q := by rfl) :
    (.next (s.command op h p body) : Res) = .next (u.answer (hdrOwed h op) a) := by
  rw [State.command_of_takes ht, hs, hq, hb]

theorem State.command_answers_of_eq {s t : State} {op : Nat} {h : CmdHdr} {p q : List Byte} {body : CmdBody} {r : State × Ans} (ht : s.takes op h p)
    (hb : body t (hdrOwed h op) h q = r) (hs : s.taken h = t := by rfl) (hq : h.params p = q := by rfl) :
    (.next (s.command op h p body) : Res) = .next (r.1.answer (hdrOwed h op) r.2) := by
  rw [State.command_of_takes ht, hs, hq, hb]

theorem State.elapsed_of_not_le {s : State} {t k : Nat} (h : ¬ t + k ≤ s.datum) : s.elapsed t k = false := decide_eq_false h

end Sys2Proof.Machine
end

section
/-! The order of a virtual output queue (R401, R402): the frame that arbitration chooses is a head of its queue, so no older frame of that queue waits. -/

namespace Sys2Proof.Machine

/-! Sorting keeps the members. -/

theorem mem_insertBy {α : Type} {key : α → Nat} {a x : α} {l : List α} : x ∈ insertBy key a l ↔ x = a ∨ x ∈ l := by
  induction l with
  | nil => simp [insertBy]
  | cons b l ih =>
    unfold insertBy
    split
    · simp
    · simp only [List.mem_cons, ih]
      tauto

theorem mem_foldl_insertBy {α : Type} {key : α → Nat} {x : α} (l acc : List α) :
    x ∈ l.foldl (fun acc a => insertBy key a acc) acc ↔ x ∈ l ∨ x ∈ acc := by
  induction l generalizing acc with
  | nil => simp
  | cons a l ih =>
    rw [List.foldl_cons, ih, mem_insertBy, List.mem_cons]
    tauto

theorem mem_sortBy {α : Type} {key : α → Nat} {x : α} {l : List α} : x ∈ sortBy key l ↔ x ∈ l := by
  simp [sortBy, mem_foldl_insertBy]

/-! The heads of the queues (R401). -/

/-- Two frames of one output are of one queue: of the same input and the same class. -/
def SwFrame.voq (q : SwFrame) : Nat × Nat := (q.inPort, q.frame.tc.toNat)

/-- A head of the list is the first of its queue there. -/
theorem exists_split_of_mem_queueHeads {q : List SwFrame} {seen : List (Nat × Nat)} {y : SwFrame} (h : y ∈ queueHeads q seen) :
    y.voq ∉ seen ∧ ∃ l r, q = l ++ y :: r ∧ ∀ z ∈ l, z.voq ≠ y.voq := by
  induction q generalizing seen with
  | nil => simp [queueHeads] at h
  | cons a q ih =>
    unfold queueHeads at h
    dsimp only at h
    split at h
    case isTrue hseen =>
      obtain ⟨hnew, l, r, rfl, hl⟩ := ih h
      have ha : a.voq ≠ y.voq := fun e => hnew (e ▸ List.contains_iff_mem.mp hseen)
      exact ⟨hnew, a :: l, r, rfl, List.forall_mem_cons.mpr ⟨ha, hl⟩⟩
    case isFalse hseen =>
      rcases List.mem_cons.mp h with rfl | hy
      · exact ⟨fun e => hseen (List.contains_iff_mem.mpr e), [], q, rfl, by simp⟩
      · obtain ⟨hnew, l, r, rfl, hl⟩ := ih hy
        have ha : a.voq ≠ y.voq := fun e => hnew (e ▸ List.mem_cons_self)
        exact ⟨fun e => hnew (List.mem_cons_of_mem _ e), a :: l, r, rfl, List.forall_mem_cons.mpr ⟨ha, hl⟩⟩

/-- A head for an output is the oldest frame of its queue among all that wait. -/
theorem State.exists_split_of_mem_headsFor {s : State} {n : Nat} {y : SwFrame} (h : y ∈ s.headsFor n) :
    ∃ l r, s.sw.queue = l ++ y :: r ∧ y.outPort = n ∧ ∀ z ∈ l, z.outPort = n → z.voq ≠ y.voq := by
  obtain ⟨-, l', r', hsplit, hl'⟩ := exists_split_of_mem_queueHeads h
  obtain ⟨l, m, hqueue, hl, hm⟩ := List.filter_eq_append_iff.mp hsplit
  obtain ⟨l2, r, rfl, hl2, hy, -⟩ := List.filter_eq_cons_iff.mp hm
  refine ⟨l ++ l2, r, by simp [hqueue], by simpa using hy, fun z hz hout => hl' z ?_⟩
  rcases List.mem_append.mp hz with hz | hz
  · exact hl ▸ List.mem_filter.mpr ⟨hz, by simpa using hout⟩
  · exact absurd (by simpa using hout) (hl2 z hz)

/-! What arbitration chooses (R402). -/

theorem mem_of_nextInput {last : Nat} {l : List SwFrame} {y : SwFrame} (h : nextInput last l = some y) : y ∈ l :=
  mem_sortBy.mp (List.mem_of_mem_head? h)

/-- The weighted rounds choose one of the frames that may be sent, and leave the frames that wait as they are. -/
theorem State.drr_chooses (out : Nat) (waiting ready : List SwFrame) (fuel : Nat) (s : State) :
    (s.drr out waiting ready fuel).1.sw.queue = s.sw.queue ∧ ∀ y, (s.drr out waiting ready fuel).2 = some y → y ∈ ready := by
  induction fuel generalizing s with
  | zero => exact ⟨rfl, fun y h => absurd h (by simp [State.drr])⟩
  | succ fuel ih =>
    unfold State.drr
    dsimp only
    split
    · exact ih _
    · split
      case h_1 => exact ih _
      case h_2 q hnext =>
        generalize s.sw.deficit.getD _ _ + _ = d
        split
        · refine ⟨rfl, fun y hy => ?_⟩
          cases hy
          exact (List.mem_filter.mp (mem_of_nextInput hnext)).1
        · exact ih _

/-- What an output's arbitration chooses is a head of one of its queues, and choosing takes nothing out of a queue. -/
theorem State.chooseFrame_chooses (s : State) (n : Nat) :
    (s.chooseFrame n).1.sw.queue = s.sw.queue ∧ ∀ y, (s.chooseFrame n).2 = some y → y ∈ s.headsFor n := by
  have ofClass : ∀ {last c : Nat} {y : SwFrame},
      nextInput last (((s.headsFor n).filter fun q => s.sendable n q.frame).filter fun q => q.frame.tc.toNat == c) = some y → y ∈ s.headsFor n :=
    fun h => (List.mem_filter.mp (List.mem_filter.mp (mem_of_nextInput h)).1).1
  unfold State.chooseFrame
  dsimp only
  split
  case h_1 q htop =>
    refine ⟨rfl, fun y hy => ?_⟩
    cases hy
    exact ofClass htop
  case h_2 =>
    split
    · exact ⟨rfl, fun y hy => ofClass hy⟩
    · split
      · exact ⟨rfl, fun y hy => ofClass hy⟩
      · split
        · obtain ⟨hqueue, hmem⟩ := State.drr_chooses n ((s.headsFor n).filter fun q => drrOrder.contains q.frame.tc.toNat)
            (((s.headsFor n).filter fun q => s.sendable n q.frame).filter fun q => drrOrder.contains q.frame.tc.toNat) 128 s
          exact ⟨hqueue, fun y hy => (List.mem_filter.mp (List.mem_filter.mp (hmem y hy)).1).1⟩
        · exact ⟨rfl, fun y hy => ofClass hy⟩

/-- Settles O58: what is chosen is a head, and a head has no older frame of its queue in front of it. -/
theorem queueOrder : Obligations.QueueOrder := by
  intro s n y hy
  obtain ⟨hkept, hmem⟩ := State.chooseFrame_chooses s n
  obtain ⟨l, r, hqueue, hout, hfirst⟩ := State.exists_split_of_mem_headsFor (hmem y hy)
  have hnew : y ∉ l := fun hin => hfirst y hin hout rfl
  refine ⟨l, r, hqueue, hout, fun z hz hzout hin hclass => hfirst z hz hzout ?_, hkept, ?_⟩
  · rw [SwFrame.voq, SwFrame.voq, hin, hclass]
  · rw [State.unqueue, hqueue, List.erase_append_right _ hnew, List.erase_cons_head]

end Sys2Proof.Machine
end

section
/-! A step (log 1): the command in front of the queue, or a tick. -/

namespace Sys2Proof.Machine

/-- Every command answers a next state, in every state: none of them refuses or stops the device (R470). -/
theorem exec_answers (s : State) (c : Instr) : ∃ t, exec c s = .next t := by
  cases c <;> exact ⟨_, rfl⟩

theorem step_of_pending {s : State} {c : Instr} {rest : List Instr} (h : s.pending = c :: rest) : step s = exec c { s with pending := rest } := by
  rw [step, h]

theorem step_of_idle {s : State} (h : s.pending = []) : step s = .next s.tick := by
  rw [step, h]

/-- Settles O51: the two ways of a step, and an answer for each command. -/
theorem stepRunsFront : Obligations.StepRunsFront :=
  ⟨fun _ _ _ h => step_of_pending h, fun _ h => step_of_idle h, exec_answers⟩

end Sys2Proof.Machine
end

section
/-! Determinism (R346, R347, R349) and launches at a Datum (R359 to R361). A launch whose stamp equals the Datum is held and due, and the wrapped command is
checked by a trial: both are the model's choice (log 236). -/

namespace Sys2Proof.Machine

/-! DETERMINISM_SET (R346, R347). -/

/-- Some job that is not OFF asks for Strict. -/
def State.demandsStrict (s : State) : Bool := s.jobs.any fun e => e.2.life.st != .off && e.2.strict

/-- The mode and the quorum as DETERMINISM_SET writes them. -/
def State.setMode (s : State) (v n : Nat) : State := (s.set F.DGC_CTL_strict 0 0 v).set F.DGC_CTL_quorum_pct 0 0 n

/-- What DETERMINISM_SET does with good parameters: Strict always, Relaxed where no job asks for Strict; a change is reported. -/
theorem bodyDeterminismSet_of_params {s : State} {o : Owed} {h : CmdHdr} {q : List Byte} (hlen : q.length = 8) (hmode : uAt q 0 1 ≤ 1)
    (hquorum : uAt q 1 1 ≤ 100) (hzero : uAt q 2 6 = 0) :
    bodyDeterminismSet s o h q = if uAt q 0 1 == 1 || !s.demandsStrict then
        (let d := s.setMode (uAt q 0 1) (uAt q 1 1)
         if s.get F.DGC_CTL_strict = uAt q 0 1 then d
         else (d.bump F.DGC_STATUS_strict_changes 0 0 1).event
          { code := .strictChanged, params := [uAt q 0 1, (d.bump F.DGC_STATUS_strict_changes 0 0 1).datum] }, .ok)
      else (s, .st .strictRequired) := by
  unfold State.demandsStrict bodyDeterminismSet
  simp only [firstFail, lenIs, zeros, hlen, hmode, hquorum, hzero, decide_true, beq_self_eq_true, if_true]
  by_cases hmay : (uAt q 0 1 == 1 || !(s.jobs.any fun e => e.2.life.st != .off && e.2.strict)) = true
  · rw [if_pos hmay, if_pos hmay]
    dsimp only
    split <;> rfl
  · rw [if_neg hmay, if_neg hmay]

/-! LAUNCH_AT (R359, R360). -/

/-- A LAUNCH_AT that is held or late: its wrapped command is good, its stamp near enough, and the Datum locked or not asked for. -/
structure State.LaunchAtParams (s : State) (ok : Bool) (chunk : List Byte) (o : Owed) (q : List Byte) (x : Packet) : Prop where
  length : 80 ≤ q.length
  flags : uAt q 8 4 < 4
  reserved : uAt q 12 4 = 0
  op : x.op ≠ 0x0104
  header : hdrBad x.hdr = none
  inner : x.hdr.length.toNat = x.params.length
  known : (cmdRights x.op).isSome = true
  may : sourceMay x.op o.src = true
  trial : s.innerBad ok chunk o x = none
  near : uAt q 0 8 ≤ s.datum + 2 ^ 36
  room : s.cht.timed.length < 64
  locked : s.get F.DTM_STATUS_state = 2 ∨ bitOf (uAt q 8 4) 1 = true

/-- The launch's number is used up. -/
def State.launchNumbered (s : State) : State := { s with cht := { s.cht with nextLaunch := s.cht.nextLaunch + 1 } }

/-- A launch that is late: it is counted, and runs its command with its skew only where it is asked to. -/
def State.lateLaunch (s : State) (ok : Bool) (chunk : List Byte) (id : Nat) (o : Owed) (q : List Byte) (x : Packet) : State :=
  let w := (s.bump F.DTM_LAUNCH_STATUS_late 0 0 1).owe o true
  let skew : Int := (s.datum : Int) - uAt q 0 8
  if bitOf (uAt q 8 4) 0 then w.beginLaunch ok chunk id o skew true x else w.launchReply o skew true .late

/-- What LAUNCH_AT does with good parameters, by whether its stamp is still to come. -/
theorem bodyLaunchAt_of_params {s : State} {ok : Bool} {chunk : List Byte} {o : Owed} {h : CmdHdr} {q : List Byte}
    (g : s.LaunchAtParams ok chunk o q (innerPacket s.cht.nextLaunch q)) :
    bodyLaunchAt ok chunk s o h q = if s.datum ≤ uAt q 0 8
      then ({ s.launchNumbered with cht := { s.launchNumbered.cht with
        timed := s.cht.timed ++ [⟨s.cht.nextLaunch, o, uAt q 0 8, innerPacket s.cht.nextLaunch q⟩] } }, .later true)
      else (s.launchNumbered.lateLaunch ok chunk s.cht.nextLaunch o q (innerPacket s.cht.nextLaunch q), .sent) := by
  have hflags : uAt q 8 4 / 4 = 0 := Nat.div_eq_of_lt g.flags
  have hlocked : (s.get F.DTM_STATUS_state == 2 || bitOf (uAt q 8 4) 1) = true := by simpa using g.locked
  unfold bodyLaunchAt
  dsimp only
  rw [(firstFail_none _).2]
  · dsimp only [State.lateLaunch, State.launchNumbered]
    split
    · rfl
    · split <;> rfl
  · simp [-Nat.reducePow, pass_nil, zeros, hflags, g.length, g.reserved, g.op, g.header, g.inner, g.known, g.may, g.trial, g.near, g.room, hlocked]

/-- The first launch that is due, at an active Chartroom (R361). -/
theorem exec_launchAtStamp_of_due {s : State} (ok : Bool) (chunk : List Byte) {d : Timed} (hdue : s.dueLaunch = some d) (hactive : s.chtActive = true) :
    exec (.launchAtStamp ok chunk) s = .next (({ s with cht := { s.cht with timed := s.cht.timed.filter fun y => y.id != d.id } } : State).beginLaunch
      ok chunk d.id d.owed ((s.datum : Int) - d.stamp) false d.inner) := by
  show execLaunchAtStamp ok chunk s = _
  simp only [execLaunchAtStamp, hdue, if_pos hactive]

/-- Settles O32: each command by what its body does with good parameters, the due launch by its own equation. -/
theorem timedLaunches : Obligations.TimedLaunches := by
  intro s h p ok chunk t q v n o id x stamp flags u
  refine ⟨fun ht hlen hmode hquorum hzero => ?mode,
    fun ht hlen hflags hzero hop hhdr hinner hknown hmay htrial hnear hroom hlocked => ?launch,
    fun d hdue hactive => exec_launchAtStamp_of_due ok chunk hdue hactive⟩
  case mode =>
    have hbody := bodyDeterminismSet_of_params (s := t) (o := hdrOwed h 0x0103) (h := h) hlen hmode hquorum hzero
    refine ⟨fun hrelaxed hdemand => ?_, fun hmay => ?_⟩
    · rw [if_neg (by simp [show uAt q 0 1 = 0 from hrelaxed, show t.demandsStrict = true from hdemand])] at hbody
      exact State.command_answers ht hbody
    · rw [if_pos (by simpa using show uAt q 0 1 = 1 ∨ t.demandsStrict = false from hmay)] at hbody
      exact State.command_answers ht hbody
  case launch =>
    have good : t.LaunchAtParams ok chunk o q x := ⟨hlen, hflags, hzero, hop, hhdr, hinner, hknown, hmay, htrial, hnear, hroom, hlocked⟩
    have hbody := bodyLaunchAt_of_params (h := h) good
    refine ⟨fun hcomes => ?_, fun hlate => ?_⟩
    · rw [if_pos hcomes] at hbody
      exact State.command_answers ht hbody
    · rw [if_neg (Nat.not_le.mpr hlate)] at hbody
      exact State.command_answers ht hbody

end Sys2Proof.Machine
end

section
/-! The Datum (R353 to R358): the exchanges between a follower and its master, the loss of the reference, PTP and the pulses. That the stamps are corrected
by the trims, and which messages of PTP are taken, is Table 12.5 as logs 170 to 174 read it. -/

namespace Sys2Proof.Machine

section
variable {s : State}

/-! Exchanges (R353, R354). -/

theorem exec_datumSyncTimer_of_due (hfollows : s.isMaster = false) (hup : s.portUp s.upstream = true) (hnative : s.native s.upstream = true)
    (hdue : s.clock.askedAt + msTicks 1 ≤ s.datum) : exec .datumSyncTimer s =
      .next (({ s with clock := { s.clock with
        asked := some (s.clock.nextSeq, s.txStamp s.upstream), nextSeq := (s.clock.nextSeq + 1) % 65536, askedAt := s.datum } } : State).send
          (.datumSync s.upstream [0x10, 0, s.clock.nextSeq, 0, s.txStamp s.upstream, 0, 0, 0])) := by
  have hasks : (s.isMaster || !s.portUp s.upstream || !s.native s.upstream || !(s.elapsed s.clock.askedAt (msTicks 1))) = false := by
    rw [hfollows, hup, hnative, State.elapsed_of_le hdue]
    rfl
  exact congrArg Host.Outcome.next (if_neg (Bool.eq_false_iff.mp hasks))

theorem exec_datumSyncRequest_of_up {p : Fin 36} (seq : BitVec 16) (t1 : Word) (hup : s.portUp p = true) (hnative : s.native p = true) :
    exec (.datumSyncRequest p seq t1) s =
      .next (s.send (.datumSync p [0x11, if s.isMaster then 0 else s.get F.DTM_STATUS_hops, seq.toNat, s.dtmState, t1.toNat, s.rxStamp p, s.txStamp p,
        if s.isMaster then s.sw.devId else s.clock.master])) := by
  show execDatumSyncRequest p seq t1 s = _
  simp [execDatumSyncRequest, hup, hnative]

/-- The two ways of an exchange of stamps t1 to t4: half their difference is the offset, half their sum the link delay. -/
def syncOffset (t1 t2 t3 t4 : Nat) : Int := (((t1 : Int) - t2) + ((t4 : Int) - t3)) / 2
def syncDelay (t1 t2 t3 t4 : Nat) : Int := (((t4 : Int) - t1) - ((t3 : Int) - t2)) / 2

/-- A delay more than 20 ticks from the mean of those that stand. -/
def Clock.farDelay (c : Clock) (delay : Int) : Bool := !c.exchanges.isEmpty && decide (20 < (delay - meanOf (c.exchanges.map (·.2))).natAbs)

/-- The response that a follower waits for, on the port that leads to its master. -/
structure State.AwaitsResponse (s : State) (p : Fin 36) (seq : BitVec 16) (t1 : Word) : Prop where
  follows : s.isMaster = false
  upstream : p.val = s.upstream
  up : s.portUp s.upstream = true
  asked : s.clock.asked = some (seq.toNat, t1.toNat)

/-- The follower has its response. -/
def State.heardResponse (s : State) : State := { s with clock := { s.clock with asked := none } }

/-- The follower counts its hops from the sender, and knows the master of its domain. -/
def State.adopts (s : State) (hops : BitVec 8) (m : BitVec 20) : State :=
  let v := s.set F.DTM_STATUS_hops 0 0 (hops.toNat + 1)
  { v with clock := { v.clock with master := m.toNat } }

/-- A response is of use where its sender is locked or the master, and its delay is not far off. -/
theorem exec_datumSyncResponse_of_awaits {p : Fin 36} {seq : BitVec 16} {t1 : Word} (g : s.AwaitsResponse p seq t1) (hops st : BitVec 8) (t2 t3 : Word)
    (m : BitVec 20) : exec (.datumSyncResponse p hops seq st t1 t2 t3 m) s =
      .next (if (st == 2 || hops == 0) && !s.clock.farDelay (syncDelay t1.toNat t2.toNat t3.toNat (s.rxStamp p))
        then (s.heardResponse.adopts hops m).exchanged (syncOffset t1.toNat t2.toNat t3.toNat (s.rxStamp p)) (syncDelay t1.toNat t2.toNat t3.toNat (s.rxStamp p))
        else s.heardResponse) := by
  have hwaits : (s.isMaster || p.val != s.upstream || !s.portUp p || s.clock.asked != some (seq.toNat, t1.toNat)) = false := by
    simp [g.follows, g.upstream, g.up, g.asked]
  refine congrArg Host.Outcome.next ((if_neg (Bool.eq_false_iff.mp hwaits)).trans ?_)
  cases (st == 2 || hops == 0)
  · rfl
  cases hfar : s.clock.farDelay (syncDelay t1.toNat t2.toNat t3.toNat (s.rxStamp p))
  · exact (if_neg (Bool.eq_false_iff.mp hfar)).trans (if_pos (by rfl)).symm
  · exact (if_pos hfar).trans (if_neg Bool.false_ne_true).symm

/-! The reference (R355). -/

theorem exec_datumHoldover_of_silent (href : s.hasReference = true) (hsilent : s.clock.lastOk + s.silence ≤ s.datum) :
    exec .datumHoldover s = .next s.loseReference :=
  congrArg Host.Outcome.next (if_pos (Bool.and_eq_true_iff.mpr ⟨href, State.elapsed_of_le hsilent⟩))

theorem exec_holdoverTimeout_of_due (hheld : s.dtmState = 3) (hdue : s.clock.heldAt + (msTicks 1000 + 1) ≤ s.datum) :
    exec .holdoverTimeout s = .next (s.setDtm 0) :=
  congrArg Host.Outcome.next (if_pos ⟨hheld, State.elapsed_of_le hdue⟩)

/-! PTP (R356, R357). -/

/-- The port and the transport on which the domain's master takes PTP. -/
structure State.HearsPtp (s : State) (p : Fin 36) (v4 : Bool) : Prop where
  on : s.ptpOn = true
  port : p.val = s.get F.DTM_PTP_CFG_port
  transport : v4 = (s.get F.DTM_PTP_CFG_ipv4 == 1)

section
variable {p : Fin 36} {v4 : Bool} {dom : BitVec 8} (two : Bool) (seq : BitVec 16) (t : Word) (ann : PtpAnnounce) (g : s.HearsPtp p v4)
include g

theorem exec_ptpMessage_of_unknown {ty : BitVec 4} (dom : BitVec 8) (hty : ([0, 1, 8, 9, 11] : List Nat).contains ty.toNat = false) :
    exec (.ptpMessage p v4 ty dom two seq t ann) s = .next (s.bump F.DTM_PTP_CFG_ignored 0 0 1) := by
  obtain ⟨hon, hport, htransport⟩ := g
  show execPtpMessage p v4 ty dom two seq t ann s = _
  simp only [execPtpMessage, hon, hport, htransport, hty, bne_self_eq_false, Bool.not_true, Bool.not_false, Bool.or_self, Bool.false_eq_true, if_true,
    if_false]

variable (hdom : dom.toNat = s.get F.DTM_PTP_CFG_domain)
include hdom

theorem exec_ptpMessage_announce : exec (.ptpMessage p v4 11 dom two seq t ann) s =
    .next (s.ptpAnnounce (ptpRank ann.prio1 ann.quality ann.prio2 ann.identity)) := by
  obtain ⟨hon, hport, htransport⟩ := g
  show execPtpMessage p v4 11 dom two seq t ann s = _
  simp [execPtpMessage, hon, hport, htransport, hdom]

theorem exec_ptpMessage_delayReq (hmaster : s.clock.ptpSlave = false) (hmay : s.get F.DTM_PTP_CFG_slave_only ≠ 1) :
    exec (.ptpMessage p v4 1 dom two seq t ann) s = .next (s.ptpSend [9, seq.toNat, s.ptpNow]) := by
  obtain ⟨hon, hport, htransport⟩ := g
  show execPtpMessage p v4 1 dom two seq t ann s = _
  simp [execPtpMessage, hon, hport, htransport, hdom, hmaster, hmay]

variable (hslave : s.clock.ptpSlave = true)
include hslave

theorem exec_ptpMessage_sync : exec (.ptpMessage p v4 0 dom two seq t ann) s =
    .next (if two then { s with clock := { s.clock with sync := some (seq.toNat, s.ptpNow) } } else s.ptpSync seq.toNat t.toNat s.ptpNow) := by
  obtain ⟨hon, hport, htransport⟩ := g
  show execPtpMessage p v4 0 dom two seq t ann s = _
  simp [execPtpMessage, hon, hport, htransport, hdom, hslave]

theorem exec_ptpMessage_followUp {a : Nat} (hsync : s.clock.sync = some (seq.toNat, a)) : exec (.ptpMessage p v4 8 dom two seq t ann) s =
    .next (s.ptpSync seq.toNat t.toNat a) := by
  obtain ⟨hon, hport, htransport⟩ := g
  show execPtpMessage p v4 8 dom two seq t ann s = _
  simp [execPtpMessage, hon, hport, htransport, hdom, hslave, hsync]

theorem exec_ptpMessage_delayResp {a b e : Nat} (hdelay : s.clock.delay = some (seq.toNat, a, b, e)) :
    exec (.ptpMessage p v4 9 dom two seq t ann) s = .next (({ s with clock := { s.clock with delay := none } } : State).ptpOffset
      ((((b : Int) - a) - ((t.toNat : Int) - e)) / 2) ((((b : Int) - a) + ((t.toNat : Int) - e)) / 2)) := by
  obtain ⟨hon, hport, htransport⟩ := g
  show execPtpMessage p v4 9 dom two seq t ann s = _
  simp [execPtpMessage, hon, hport, htransport, hdom, hslave, hdelay]

end

/-! Pulses (R357, R358). -/

/-- The Datum at the pulse, as the device captures it. -/
def State.ppsCaptured (s : State) : State := s.setReg ⟨.DTM_PPS_CAPTURE, 0, 0⟩ (BitVec.ofNat 64 s.datum)

theorem exec_datumPpsIn_of_follower (hfollows : s.ppsCaptured.isMaster = false) : exec .datumPpsIn s = .next s.ppsCaptured :=
  congrArg Host.Outcome.next (if_neg (Bool.eq_false_iff.mp hfollows))

theorem exec_datumPpsIn_of_edge {u v : State} (hmaster : v.isMaster = true) (hedge : v.ppsEdge = u) (hv : s.ppsCaptured = v) :
    exec .datumPpsIn s = .next u := by
  subst hv
  exact congrArg Host.Outcome.next ((if_pos hmaster).trans hedge)

theorem State.ppsEdge_of_pps (hsource : s.get F.DTM_CTL_source = 1) : s.ppsEdge = s.exchanged (secondError s.datum) 0 := by
  simp only [State.ppsEdge, hsource]

theorem State.ppsEdge_of_phase (hsource : s.get F.DTM_CTL_source = 3) (hsecs : s.clock.secs = none) : s.ppsEdge = s.correct (-(secondError s.datum)) := by
  simp only [State.ppsEdge, hsource, hsecs]

theorem State.ppsEdge_of_seconds {n : Int} (hsource : s.get F.DTM_CTL_source = 3) (hsecs : s.clock.secs = some n) :
    let w := s.exchanged (secondError s.datum + n * 1000000000) 0
    s.ppsEdge = if w.datum = s.datum then w else { w with clock := { w.clock with secs := none } } := by
  simp only [State.ppsEdge, hsource, hsecs]

theorem exec_datumPpsOut_of_second (hon : s.get F.DTM_CTL_pps_out = 1) (hlow : s.clock.ppsHigh = none) (hsecond : s.datum % 1000000000 ≤ 1) :
    exec .datumPpsOut s = .next (({ s with clock := { s.clock with ppsHigh := some (s.datum / 1000000000 * 1000000000) } } : State).send
      (.pin "DATUM_PPS_OUT" true)) :=
  congrArg Host.Outcome.next (if_pos ⟨hon, hlow, hsecond⟩)

theorem exec_ppsOutFall_of_due {a : Nat} (hhigh : s.clock.ppsHigh = some a) (hdue : a + 100000 ≤ s.datum) :
    exec .ppsOutFall s = .next (({ s with clock := { s.clock with ppsHigh := none } } : State).send (.pin "DATUM_PPS_OUT" false)) := by
  show execPpsOutFall s = _
  simp only [execPpsOutFall, hhigh, if_pos (State.elapsed_of_le hdue)]
  rfl

end

/-- Settles O33: each row by its own equation; a response by whether it is of use, a pulse by what the master goes by. -/
theorem datumClock : Obligations.DatumClock := by
  intro s p seq t1 t2 t3 hops st dom ty m two v4 ann c u t
  refine ⟨fun hfollows hup hnative hdue => exec_datumSyncTimer_of_due hfollows hup hnative hdue,
    fun hup hnative => exec_datumSyncRequest_of_up seq t1 hup hnative, fun hfollows hp hup hasked => ?response,
    fun href hsilent => exec_datumHoldover_of_silent href hsilent, fun hheld hdue => exec_holdoverTimeout_of_due hheld hdue,
    fun hon hport htransport => ?ptp, ⟨fun hfollows => ?captured, fun hmaster => ⟨fun hsource => ?pps, fun hsource hsecs => ?phase,
      fun n hsource hsecs => ?seconds⟩⟩,
    fun hon hlow hsecond => exec_datumPpsOut_of_second hon hlow hsecond, fun a hhigh hdue => exec_ppsOutFall_of_due hhigh hdue⟩
  case response =>
    have hwaits : s.AwaitsResponse p seq t1 := ⟨hfollows, hp, (show p.val = s.upstream from hp) ▸ hup, hasked⟩
    refine ⟨fun hdrops => ?_, fun hgood hnear => ?_⟩
    · refine (exec_datumSyncResponse_of_awaits hwaits hops st t2 t3 m).trans (congrArg Host.Outcome.next (if_neg ?_))
      rcases hdrops with ⟨hst, hhops⟩ | hfar
      · rw [beq_false_of_ne hst, beq_false_of_ne hhops]
        exact Bool.false_ne_true
      · simp [show s.clock.farDelay (syncDelay t1.toNat t2.toNat t3.toNat (s.rxStamp p)) = true from hfar]
    · have huse : ((st == 2 || hops == 0) && !s.clock.farDelay (syncDelay t1.toNat t2.toNat t3.toNat (s.rxStamp p))) = true :=
        Bool.and_eq_true_iff.mpr ⟨Bool.or_eq_true_iff.mpr (hgood.imp beq_iff_eq.mpr beq_iff_eq.mpr), congrArg (!·) hnear⟩
      exact (exec_datumSyncResponse_of_awaits hwaits hops st t2 t3 m).trans (congrArg Host.Outcome.next (if_pos huse))
  case ptp =>
    have hears : s.HearsPtp p v4 := ⟨hon, hport, htransport⟩
    refine ⟨fun hty => exec_ptpMessage_of_unknown two seq t1 ann hears dom hty, fun hdom => ⟨?_, ?_, ?_, ?_, ?_⟩⟩
    · rintro rfl
      exact exec_ptpMessage_announce two seq t1 ann hears hdom
    · rintro rfl hrole hmay
      exact exec_ptpMessage_delayReq two seq t1 ann hears hdom hrole hmay
    · rintro rfl hslave
      exact exec_ptpMessage_sync two seq t1 ann hears hdom hslave
    · rintro a rfl hslave hsync
      exact exec_ptpMessage_followUp two seq t1 ann hears hdom hslave hsync
    · rintro a b e rfl hslave hdelay
      exact exec_ptpMessage_delayResp two seq t1 ann hears hdom hslave hdelay
  case captured => exact exec_datumPpsIn_of_follower hfollows
  case pps => exact exec_datumPpsIn_of_edge hmaster (State.ppsEdge_of_pps hsource) rfl
  case phase => exact exec_datumPpsIn_of_edge hmaster (State.ppsEdge_of_phase hsource hsecs) rfl
  case seconds => exact exec_datumPpsIn_of_edge hmaster (State.ppsEdge_of_seconds hsource hsecs) rfl

end Sys2Proof.Machine
end

section
/-! Sheets and contexts (R365 to R369, R371 to R373, R472, R561): the commands of class 0x02 with good parameters, by the state of what they name. That
SHEET_RESET is a STOPPING with the creation deferred behind it (log 183), and the one-step end of a sheet (log 182), are the model's choice. -/

namespace Sys2Proof.Machine

/-! Table 17.8: an enable, by the state that it finds. -/

section
variable {l : Life} {pkt : Packet} {busy : Status} {now : Nat}

theorem Life.doEnable_of_off (hoff : l.st = .off) :
    l.doEnable pkt busy now = ({ l with st := .starting, step := 0, enable := some pkt.owed, failing := none, since := now }, .later true, true) := by
  simp only [Life.doEnable, hoff]

theorem Life.doEnable_of_running (hst : l.st = .on ∨ l.st = .starting) : l.doEnable pkt busy now = (l, .st busy, false) := by
  rcases hst with hst | hst <;> simp only [Life.doEnable, hst]

end

section
variable {s : State} {o : Owed} {h : CmdHdr} {q : List Byte}

/-! SHEET_CREATE (R365 to R367). -/

/-- Parameters that SHEET_CREATE accepts (Table 13.3). -/
structure SheetParams (q : List Byte) : Prop where
  length : q.length = 16
  sheet : uAt q 0 1 < 8
  shape : uAt q 1 1 ∈ [1, 2, 4, 8]
  collective : uAt q 2 1 ≤ 4
  reserved : uAt q 3 1 = 0
  quantum : uAt q 4 4 = 0 ∨ (100 ≤ uAt q 4 4 ∧ uAt q 4 4 ≤ 1000000)
  watchdog : uAt q 8 2 ≤ 60000
  hold : uAt q 10 2 ≤ 60000
  gazetteer : uAt q 12 4 = 0 ∨ (isPow2 (uAt q 12 4) = true ∧ uAt q 12 4 ≤ 2 ^ 26)

/-- A SHEET_CREATE that its checks accept goes by the enable of Table 17.8. -/
theorem bodySheetCreate_of_params (g : SheetParams q) :
    let x := s.sheet (uAt q 0 1)
    let r := x.life.doEnable (mkPacket h 0x0200 q) .sheetExists s.datum
    bodySheetCreate s o h q = match x.life.st with
      | .off => s.sheetBegin (uAt q 0 1) (mkPacket h 0x0200 q) r.1
      | _ => (s.setSheet (uAt q 0 1) { x with life := r.1 }, r.2.1) := by
  obtain ⟨hlen, hsheet, hshape, hcoll, hzero, hquantum, hwatch, hhold, hgaz⟩ := g
  unfold bodySheetCreate
  dsimp only
  rewrite [(firstFail_none _).2]
  · rfl
  · simp only [pass_cons, lenIs, zeros, Bool.or_eq_true, Bool.and_eq_true, beq_iff_eq, decide_eq_true_eq, List.contains_iff_mem]
    exact ⟨hlen, hsheet, hshape, hcoll, hzero, hquantum, hwatch, hhold, hgaz, pass_nil⟩

theorem bodySheetCreate_of_off (g : SheetParams q) (hoff : (s.sheet (uAt q 0 1)).life.st = .off) :
    bodySheetCreate s o h q = s.sheetBegin (uAt q 0 1) (mkPacket h 0x0200 q) { (s.sheet (uAt q 0 1)).life with
      st := .starting, step := 0, enable := some (hdrOwed h 0x0200), failing := none, since := s.datum } := by
  rw [bodySheetCreate_of_params g, Life.doEnable_of_off hoff]
  simp only [hoff]
  rfl

/-- A sheet that is ON or STARTING keeps what it is. -/
theorem bodySheetCreate_of_running (g : SheetParams q) (hst : (s.sheet (uAt q 0 1)).life.st = .on ∨ (s.sheet (uAt q 0 1)).life.st = .starting) :
    bodySheetCreate s o h q = (s.setSheet (uAt q 0 1) (s.sheet (uAt q 0 1)), .st .sheetExists) := by
  rw [bodySheetCreate_of_params g, Life.doEnable_of_running hst]
  rcases hst with hst | hst <;> simp only [hst]

/-! SHEET_DESTROY (R368) and SHEET_RESET (R561). -/

theorem bodySheetDestroy_of_busy (hlen : q.length = 0) (hsheet : h.sheetValid = true) (hctxs : s.ctxsOf h.sheet.toNat ≠ []) :
    bodySheetDestroy s o h q = (s, .st .sheetBusy) := by
  simp [bodySheetDestroy, firstFail, lenIs, needSheet, hlen, hsheet, hctxs]

/-- SHEET_DESTROY of a sheet without contexts that is not OFF goes by the disable of Table 17.8. -/
theorem bodySheetDestroy_of_free (hlen : q.length = 0) (hsheet : h.sheetValid = true) (hfree : s.ctxsOf h.sheet.toNat = []) :
    let i := h.sheet.toNat
    let x := s.sheet i
    let r := x.life.doDisable o .ok s.datum
    let t := (s.setSheet i { x with life := r.1, serve := if r.2.2.2 then none else x.serve }).tornDown r.2.2.1
    bodySheetDestroy s o h q = if x.life.st = .off then (s, .ok) else (if r.2.2.2 then t.sheetStop1 i else t, r.2.1) := by
  simp only [bodySheetDestroy, firstFail, lenIs, needSheet, hlen, hsheet, hfree, beq_self_eq_true, if_true, List.isEmpty_nil]

theorem bodySheetDestroy_of_off (hlen : q.length = 0) (hsheet : h.sheetValid = true) (hfree : s.ctxsOf h.sheet.toNat = [])
    (hoff : (s.sheet h.sheet.toNat).life.st = .off) : bodySheetDestroy s o h q = (s, .ok) := by
  rw [bodySheetDestroy_of_free hlen hsheet hfree, if_pos hoff]

theorem bodySheetDestroy_of_on (hlen : q.length = 0) (hsheet : h.sheetValid = true) (hfree : s.ctxsOf h.sheet.toNat = [])
    (hon : (s.sheet h.sheet.toNat).life.st = .on) : bodySheetDestroy s o h q = ((s.setSheet h.sheet.toNat { s.sheet h.sheet.toNat with
      life := { (s.sheet h.sheet.toNat).life with st := .stopping, step := 0, disables := [o], since := s.datum }, serve := none }).sheetStop1
        h.sheet.toNat, .later true) := by
  rw [bodySheetDestroy_of_free hlen hsheet hfree, if_neg (by simp [hon]), Life.doDisable_of_on hon]
  rfl

/-- SHEET_RESET ends a sheet that is not OFF, and defers its creation with the parameters it has (R561). -/
theorem bodySheetReset_of_alive {i : Nat} (hi : h.sheet.toNat = i) (hlen : q.length = 0) (hsheet : h.sheetValid = true)
    (halive : (s.sheet i).life.st ≠ .off) (hfirst : (s.sheet i).life.deferred = none) :
    let u := s.sheetEnd i
    let y := u.sheet i
    bodySheetReset s o h q = (u.setSheet i { y with life := { y.life with deferred := some (mkPacket h 0x0207 (s.sheet i).params) } }, .later true) := by
  have hnot : ((s.sheet i).life.st != LifeSt.off) = true := bne_iff_ne.mpr halive
  simp only [bodySheetReset, firstFail, lenIs, needSheet, hi, hlen, hsheet, hnot, hfirst, beq_self_eq_true, Option.isNone_none, if_true]

theorem exec_sheetStartingComplete_of_starting {k : Fin 8} (hst : (s.sheet k).life.st = .starting) :
    exec (.sheetStartingComplete k) s = .next (s.sheetStarted k) := congrArg Host.Outcome.next (if_pos hst)

theorem exec_sheetStoppingComplete_of_done {k : Fin 8} (hst : (s.sheet k).life.st = .stopping) (hdone : s.sheetWaits k = false) :
    exec (.sheetStoppingComplete k) s = .next (s.sheetStopped k) :=
  congrArg Host.Outcome.next (if_pos ⟨hst, congrArg (!·) hdone⟩)

/-! CONTEXT_CREATE (R371). -/

/-- Parameters that CONTEXT_CREATE accepts on a sheet that is ON (Table 13.5). -/
structure State.ContextParams (s : State) (h : CmdHdr) (q : List Byte) : Prop where
  length : q.length = 24
  sheet : h.sheetValid = true
  on : s.sheetOn h.sheet.toNat = true
  context : uAt q 0 1 < 16
  priority : uAt q 1 1 < 16
  entries : 1 ≤ uAt q 4 4 ∧ uAt q 4 4 ≤ 65536
  aligned : uAt q 8 8 % 64 = 0
  ring : uAt q 8 8 + 64 + 8 * uAt q 4 4 ≤ (s.sheet h.sheet.toNat).usable
  quantum : uAt q 16 4 = 0 ∨ (100 ≤ uAt q 16 4 ∧ uAt q 16 4 ≤ 1000000)
  spill : uAt q 20 2 ≤ 16
  watchdog : uAt q 22 2 ≤ 60000

/-- A context that is absent begins; one that is there goes by the enable of Table 17.8. -/
theorem bodyContextCreate_of_params (g : s.ContextParams h q) :
    bodyContextCreate s o h q = match s.ctx? h.sheet.toNat (uAt q 0 1) with
      | none => s.ctxBegin h.sheet.toNat (mkPacket h 0x0202 q)
      | some x => let r := x.life.doEnable (mkPacket h 0x0202 q) .contextExists s.datum
        (s.setCtx h.sheet.toNat (uAt q 0 1) { x with life := r.1 }, r.2.1) := by
  obtain ⟨hlen, hsheet, hon, hctx, hprio, hentries, haligned, hring, hquantum, hspill, hwatch⟩ := g
  unfold bodyContextCreate
  dsimp only
  rewrite [(firstFail_none _).2]
  · rfl
  · simp only [pass_cons, lenIs, needSheet, State.needOn, Bool.or_eq_true, Bool.and_eq_true, beq_iff_eq, decide_eq_true_eq]
    exact ⟨hlen, hsheet, hon, hctx, hprio, hentries, ⟨haligned, hring⟩, hquantum, hspill, hwatch, pass_nil⟩

theorem bodyContextCreate_of_none (g : s.ContextParams h q) (hnone : s.ctx? h.sheet.toNat (uAt q 0 1) = none) :
    bodyContextCreate s o h q = s.ctxBegin h.sheet.toNat (mkPacket h 0x0202 q) := by
  rw [bodyContextCreate_of_params g]
  simp only [hnone]

theorem bodyContextCreate_of_on (g : s.ContextParams h q) {y : Context} (hy : s.ctx? h.sheet.toNat (uAt q 0 1) = some y) (hon : y.life.st = .on) :
    bodyContextCreate s o h q = (s.setCtx h.sheet.toNat (uAt q 0 1) y, .st .contextExists) := by
  rw [bodyContextCreate_of_params g]
  simp only [hy, Life.doEnable_of_running (Or.inl hon)]

/-! The commands on a context that is there (R372, R373). -/

/-- Parameters that name context y of the header's sheet. -/
structure State.NamesContext (s : State) (h : CmdHdr) (q : List Byte) (y : Context) : Prop where
  length : q.length = 8
  sheet : h.sheetValid = true
  context : uAt q 0 1 < 16
  found : s.ctx? h.sheet.toNat (uAt q 0 1) = some y
  reserved : uAt q 1 7 = 0

section
variable {y : Context} (g : s.NamesContext h q y)
include g

theorem State.NamesContext.firstFail : firstFail (s.ctxNamed h q) = none := by
  rw [firstFail_none]
  simp [State.ctxNamed, pass_nil, lenIs, needSheet, zeros, g.length, g.sheet, g.context, g.found, g.reserved]

theorem bodyContextDestroy_of_on (hon : y.life.st = .on) :
    let u := s.setCtx h.sheet.toNat (uAt q 0 1) { y with life := { y.life with st := .stopping, step := 0, disables := [o], since := s.datum } }
    bodyContextDestroy s o h q = (((u.owe o true).ctxStop h.sheet.toNat (uAt q 0 1)).drainAll, .sent) := by
  simp only [bodyContextDestroy, g.firstFail, g.found, Life.doDisable_of_on hon]
  rfl

theorem bodyContextResume_of_names : bodyContextResume s o h q =
    (if y.st = .faulted then (s.setCtx h.sheet.toNat (uAt q 0 1) { y with st := .idle }).kick h.sheet.toNat else s, .ok) := by
  simp only [bodyContextResume, g.firstFail, g.found]

theorem bodyKernelDoorbell_of_names : bodyKernelDoorbell s o h q = ((s.readTail h.sheet.toNat (uAt q 0 1)).kick h.sheet.toNat, .ok) := by
  simp only [bodyKernelDoorbell, g.firstFail]

end

end

/-- Settles O34: each command by what its body does with good parameters and by the state of what it names, the ends of STARTING and STOPPING by their own
equations. -/
theorem sheetsAndContexts : Obligations.SheetsAndContexts := by
  intro s h p k t q i j c ans x
  refine ⟨fun ht hlen hi hshape hcoll hzero hquantum hwatch hhold hgaz => ?create, fun ht hlen hsheet => ⟨fun hctxs => ?busy, fun hfree hoff => ?absent,
    fun hfree hon => ?destroy⟩, fun ht hlen hsheet halive hfirst => ?reset, fun hst => exec_sheetStartingComplete_of_starting hst,
    fun hst hdone => exec_sheetStoppingComplete_of_done hst hdone,
    fun ht hlen hsheet hon hctx hprio hmin hmax haligned hring hquantum hspill hwatch => ?context, fun y hlen hsheet hctx hy hzero => ?named⟩
  case create =>
    have good : SheetParams q := ⟨hlen, hi, hshape, hcoll, hzero, hquantum, hwatch, hhold, hgaz⟩
    exact ⟨fun hst => State.command_answers ht (bodySheetCreate_of_running good hst),
      fun hoff => State.command_answers_of_eq ht (bodySheetCreate_of_off good hoff)⟩
  case busy => exact State.command_answers ht (bodySheetDestroy_of_busy hlen hsheet hctxs)
  case absent => exact State.command_answers ht (bodySheetDestroy_of_off hlen hsheet hfree hoff)
  case destroy => exact State.command_answers ht (bodySheetDestroy_of_on hlen hsheet hfree hon)
  case reset => exact State.command_answers ht (bodySheetReset_of_alive (i := j) rfl hlen hsheet halive hfirst)
  case context =>
    have good : t.ContextParams h q := ⟨hlen, hsheet, hon, hctx, hprio, ⟨hmin, hmax⟩, haligned, hring, hquantum, hspill, hwatch⟩
    exact ⟨fun hnone => State.command_answers_of_eq ht (bodyContextCreate_of_none good hnone),
      fun y hy hyon => State.command_answers ht (bodyContextCreate_of_on good hy hyon)⟩
  case named =>
    have good : t.NamesContext h q y := ⟨hlen, hsheet, hctx, hy, hzero⟩
    exact ⟨fun ht hyon => State.command_answers ht (bodyContextDestroy_of_on good hyon),
      fun ht => State.command_answers ht (bodyContextResume_of_names good), fun ht => State.command_answers ht (bodyKernelDoorbell_of_names good)⟩

end Sys2Proof.Machine
end

section
/-! The composer (R384 to R386), context switches (R378, R379), watchdogs (R375, R376) and semaphores held too long. That the incoming context is RUNNING
from CONTEXT_SWITCH_START (log 420) and that SERVE_SET of a running composer is busy (log 188) is the model's choice. -/

namespace Sys2Proof.Machine

section
variable {s : State}

/-! SERVE_SET (R384). -/

/-- Parameters that SERVE_SET accepts for a sheet that is ON (Table 13.9). -/
structure State.ServeParams (s : State) (h : CmdHdr) (i : Nat) (q : List Byte) : Prop where
  length : q.length = 36
  valid : h.sheetValid = true
  sheet : h.sheet.toNat = i
  on : s.sheetOn i = true
  budget : uAt q 0 4 ≤ 65536
  context : uAt q 6 1 < 64
  slots : 2 ≤ uAt q 7 1 ∧ uAt q 7 1 ≤ 16
  rows : 1 ≤ uAt q 8 4 ∧ uAt q 8 4 ≤ 65536
  seqAligned : uAt q 16 8 % 32 = 0
  seqFits : uAt q 16 8 + 32 * uAt q 8 4 ≤ (s.sheet i).usable
  planAligned : uAt q 24 8 % 64 = 0
  planFits : uAt q 24 8 + 64 + uAt q 7 1 * (64 + 8 * uAt q 0 4) ≤ (s.sheet i).usable
  poll : uAt q 32 4 ≤ 1000

/-- The composer that SERVE_SET asks for, with the defaults of Table 13.9. -/
def serveOf (h : CmdHdr) (q : List Byte) (now : Nat) : Serve :=
  ⟨uAt q 0 4, if uAt q 4 2 = 0 then 512 else uAt q 4 2, uAt q 6 1, uAt q 7 1, uAt q 8 4, uAt q 12 4, uAt q 16 8, uAt q 24 8,
    if uAt q 32 4 = 0 then 20 else uAt q 32 4, now, h.job.toNat⟩

/-- What SERVE_SET does with good parameters: budget 0 stops the composer; any other starts one where none runs. -/
theorem bodyServeSet_of_params {o : Owed} {h : CmdHdr} {i : Nat} {q : List Byte} (g : s.ServeParams h i q) :
    bodyServeSet s o h q = if uAt q 0 4 = 0 then (s.setSheet i { s.sheet i with serve := none }, .ok)
      else if (s.sheet i).serve.isSome then (s, .st .deviceBusy)
      else (s.setSheet i { s.sheet i with serve := some (serveOf h q s.datum) }, .ok) := by
  obtain ⟨hlen, hvalid, rfl, hon, hbudget, hctx, hslots, hrows, hseq, hseqFits, hplan, hplanFits, hpoll⟩ := g
  unfold bodyServeSet
  dsimp only
  rw [(firstFail_none _).2]
  · rfl
  · simp only [pass_cons, lenIs, needSheet, State.needOn, Bool.and_eq_true, beq_iff_eq, decide_eq_true_eq]
    exact ⟨hlen, hvalid, hon, hbudget, hctx, hslots, hrows, ⟨hseq, hseqFits⟩, ⟨hplan, hplanFits⟩, hpoll, pass_nil⟩

theorem exec_composerPoll_of_due {i : Fin 8} {v : Serve} (hserve : (s.sheet i).serve = some v) (hdue : v.last + usTicks v.pollUs ≤ s.datum) :
    exec (.composerPoll i) s = .next ((s.setSheet i { s.sheet i with serve := some { v with last := s.datum } }).compose i) := by
  show execComposerPoll i s = _
  simp only [execComposerPoll, hserve, if_pos (State.elapsed_of_le hdue)]

/-! Context switches (R378, R379). -/

/-- The incoming context runs from here on, if it is still there and READY (log 420). -/
def State.runIncoming (s : State) (i c : Nat) : State :=
  match s.ctx? i c with
  | some z => if z.st = CtxState.ready then s.setCtx i c { z with st := .running } else s
  | none => s

theorem exec_contextSwitchStart_of_idle {i : Fin 8} {out : Option Nat} {m : Nat} (hswitch : (s.sheet i).switch = some (out, m, false))
    (hscratch : s.scratchWork i = false) (hquant : s.quant.any (fun e => e.2.any fun m => m.kern.sheet == i) = false) :
    exec (.contextSwitchStart i) s = .next ((s.runIncoming i m).setSheet i { s.sheet i with switch := some (out, m, true) }) := by
  show execContextSwitchStart i s = _
  simp only [execContextSwitchStart, hswitch, hscratch, hquant, Bool.or_self, Bool.false_eq_true, if_false]
  rfl

theorem exec_contextSwitchComplete_of_saving {i : Fin 8} {out : Option Nat} {m : Nat} (hswitch : (s.sheet i).switch = some (out, m, true)) :
    exec (.contextSwitchComplete i) s = .next (s.switchDone i out m) := by
  show execContextSwitchComplete i s = _
  simp only [execContextSwitchComplete, hswitch]

/-! Watchdogs (R375, R376). -/

section
variable {i : Fin 8} {c : Fin 16} {x : Context} (hx : s.ctx? i c = some x)
include hx

theorem exec_kernelWatchdog_of_kernel {k : KernelRun} (hkernel : x.kernel = some k) (hdue : k.started + (msTicks k.watchMs + 1) ≤ s.datum)
    (hruns : (s.kernelCores i k).any (fun c => (s.core c).run.stoppable) = true) : exec (.kernelWatchdog i c) s =
      .next ((((s.kernelCores i k).foldl (fun s c => s.coreKill .watchdogExpired c) s).watchdogEvent i c x).drainAll) := by
  have hover : s.overdue x = true := by simp [State.overdue, hkernel, State.elapsed_of_le hdue]
  show execKernelWatchdog i c s = _
  simp only [execKernelWatchdog, hx, hover, hkernel, if_pos hruns, Bool.not_true, Bool.false_eq_true, if_false]

/-- A group between two of its kernels that has outlived its limit. -/
theorem exec_kernelWatchdog_of_group {g : Nat × Nat} (hkernel : x.kernel = none) (hgroup : x.group = some g)
    (hdue : g.1 + (msTicks g.2 + 1) ≤ s.datum) : exec (.kernelWatchdog i c) s =
      .next (((s.setCtx i c { x with st := .faulted, group := none }).watchdogEvent i c x).schedule i) := by
  have hover : s.overdue x = true := by simp [State.overdue, hgroup, State.elapsed_of_le hdue]
  show execKernelWatchdog i c s = _
  simp only [execKernelWatchdog, hx, hover, hkernel, Bool.not_true, Bool.false_eq_true, if_false]

end

/-! Semaphores (R385, R386). -/

section
variable {i : Fin 8} {n : Fin 256} {m : Sem}

/-- The semaphore is taken from its holder, with the event. -/
def State.semForced (s : State) (i : Fin 8) (n : Fin 256) (m : Sem) : State :=
  ((s.semRelease i n).bump F.SCH_SEM_FORCE_CNT_releases 0 0 1).event
    { code := .semHoldExpired, sheet := some i.val, status := some .semHoldExpired, unit := m.ctx, params := [i.val, n.val, m.ctx] }

variable {u : State} (hm : s.sems.find (i.val, n.val) = some m) (hdue : m.since + (msTicks (s.sheet i).holdMs + 1) ≤ s.datum)
  (hu : s.semForced i n m = u)
include hm hdue hu

theorem exec_semHoldExpired_of_gone (hnone : u.ctx? i m.ctx = none) : exec (.semHoldExpired i n) s = .next u := by
  subst hu
  have hctx : (s.semForced i n m).ctx? i m.ctx = none := hnone
  show execSemHoldExpired i n s = _
  simp only [execSemHoldExpired, hm, State.elapsed_of_le hdue, Bool.not_true, Bool.false_eq_true, if_false, ← State.semForced.eq_def, hctx]

/-- A holder between two kernels is FAULTED. -/
theorem exec_semHoldExpired_of_waiting {x : Context} (hx : u.ctx? i m.ctx = some x) (hkernel : x.kernel = none) :
    let v := u.setCtx i m.ctx { x with st := .faulted, group := none }
    exec (.semHoldExpired i n) s = .next (if (v.sheet i).run = some m.ctx then v.schedule i else v) := by
  subst hu
  show execSemHoldExpired i n s = _
  simp only [execSemHoldExpired, hm, State.elapsed_of_le hdue, Bool.not_true, Bool.false_eq_true, if_false, ← State.semForced.eq_def, hx, hkernel,
    Option.isSome_none]

/-- A holder's kernel is stopped, by its core where that core still runs it. -/
theorem exec_semHoldExpired_of_kernel {x : Context} (hx : u.ctx? i m.ctx = some x) (hkernel : x.kernel.isSome = true) :
    exec (.semHoldExpired i n) s = .next
      (((if (u.core m.core).run.stoppable ∧ (u.core m.core).kern.sheet = i.val ∧ (u.core m.core).kern.ctxIdx = m.ctx then u.coreKill .semHoldExpired m.core
        else u.noteFault i m.ctx (u.vindexOf i m.core) .semHoldExpired).stopKernel i m.ctx).drainAll) := by
  subst hu
  show execSemHoldExpired i n s = _
  simp only [execSemHoldExpired, hm, State.elapsed_of_le hdue, Bool.not_true, Bool.false_eq_true, if_false, ← State.semForced.eq_def, hx, hkernel, if_true]

end

end

/-- Settles O35: SERVE_SET by its budget and the composer that runs, each other row by its own equation. -/
theorem servingAndScheduling : Obligations.ServingAndScheduling := by
  intro s h p i c n t q j x b slots d y
  refine ⟨fun ht hlen hvalid hon hbudget hctx hmin hmax hrmin hrmax hseq hseqFits hplan hplanFits hpoll => ?serve,
    fun v hserve hdue => exec_composerPoll_of_due hserve hdue,
    fun out m hswitch hscratch hquant => exec_contextSwitchStart_of_idle hswitch hscratch hquant,
    fun out m hswitch => exec_contextSwitchComplete_of_saving hswitch,
    fun x hx => ⟨fun k hkernel hdue hruns => exec_kernelWatchdog_of_kernel hx hkernel hdue hruns,
      fun g hkernel hgroup hdue => exec_kernelWatchdog_of_group hx hkernel hgroup hdue⟩, fun m hm hdue => ?held⟩
  case serve =>
    have good : t.ServeParams h j q :=
      ⟨hlen, hvalid, rfl, hon, hbudget, hctx, ⟨hmin, hmax⟩, ⟨hrmin, hrmax⟩, hseq, hseqFits, hplan, hplanFits, hpoll⟩
    have hbody := bodyServeSet_of_params (o := hdrOwed h 0x0206) good
    refine ⟨fun hstop => ?_, fun hstart hruns => ?_, fun hstart hnone => ?_⟩
    · exact State.command_answers ht (hbody.trans (if_pos hstop))
    · exact State.command_answers ht (hbody.trans ((if_neg hstart).trans (if_pos hruns)))
    · have hidle : ¬ (t.sheet j).serve.isSome = true := Option.not_isSome_iff_eq_none.mpr hnone
      exact State.command_answers ht (hbody.trans ((if_neg hstart).trans (if_neg hidle)))
  case held =>
    intro ps u
    exact ⟨fun hnone => exec_semHoldExpired_of_gone (u := u) hm hdue rfl hnone,
      fun x hx hkernel => exec_semHoldExpired_of_waiting (u := u) hm hdue rfl hx hkernel,
      fun x hx hkernel => exec_semHoldExpired_of_kernel (u := u) hm hdue rfl hx hkernel⟩

end Sys2Proof.Machine
end

section
/-! The switch (R392, R393, R396, R398 to R407): a frame that enters, what arbitration does with the frame that it chooses, and the tables from their shadow
to the end of a drain. When TABLE_COMMIT SWITCH is busy (log 200), and PORT_DOWN for an entry without an UP candidate (log 428), are the model's choice. -/

namespace Sys2Proof.Machine

section
variable {s : State}

/-! Entering the switch (R392, R393). -/

/-- A frame that a linked NATIVE port takes: whole, in sequence, within the credit of its queue, and as its envelope says. -/
structure State.TakesFrame (s : State) (n : Fin 40) (e : Envelope) (f : Frame) : Prop where
  fabric : n.val < 36
  native : s.native n = true
  linked : (s.port n).linked = true
  open_ : (s.port n).sub ≠ .quarantined
  whole : e.error = 0
  mac : e.macOk = true
  inSeq : e.linkSeq.toNat = (s.port n).rxSeq
  credit : cellsOf f ≤ (s.port n).outstanding (4 * e.tc.toNat + e.lane.toNat)
  length : e.lenOk = true
  header : headerOk f = true
  cls : f.tc = e.tc
  hops : f.hops ≠ 0
  lane : heldLane f = e.lane.toNat

/-- The frame is counted, its sequence number taken and its cells are used up. -/
def State.linkTaken (s : State) (n : Nat) (e : Envelope) (f : Frame) : State :=
  (((s.bump F.FPT_LINK_CNT0_fec_corrected n 0 e.corrected.toNat).setPort n
    { s.port n with rxCount := nextCount (s.port n).rxCount e.txCount.toNat }).linkTook n).consume n (4 * e.tc.toNat + e.lane.toNat) (cellsOf f)

theorem exec_frameIngress_of_takes {n : Fin 40} {e : Envelope} {f : Frame} (g : s.TakesFrame n e f) :
    exec (.frameIngress n e f) s = .next ((s.linkTaken n e f).switchIn n f) := by
  obtain ⟨hfabric, hnative, hlinked, hopen, hwhole, hmac, hseq, hcredit, hlen, hheader, hcls, hhops, hlane⟩ := g
  have hin : (s.native n && (s.port n).linked) = true := Bool.and_eq_true_iff.mpr ⟨hnative, hlinked⟩
  have hgood : (!e.lenOk || !headerOk f || f.tc != e.tc || f.hops == 0 || heldLane f != e.lane.toNat) = false := by
    rw [hlen, hheader, hcls, hlane, beq_false_of_ne hhops, bne_self_eq_false, bne_self_eq_false]
    rfl
  show execFrameIngress n e f s = _
  simp only [execFrameIngress, if_pos hfabric, if_pos hin, State.linkIn, beq_false_of_ne hopen, hwhole, hmac, hseq, Nat.not_lt.mpr hcredit, hgood,
    ne_eq, not_true, false_and, Bool.not_true, Bool.false_eq_true, if_true, if_false]
  rfl

theorem exec_frameIngress_of_endpoint {n : Fin 40} (e : Envelope) {f : Frame} (hport : 36 ≤ n.val) (hheader : headerOk f = true)
    (hroom : isPriv f.tc.toNat = false ∨ cellsOf f ≤ s.room n (4 * f.tc.toNat)) : exec (.frameIngress n e f) s = .next (s.switchIn n f) := by
  have htakes : (headerOk f && (!isPriv f.tc.toNat || decide (cellsOf f ≤ s.room n (4 * f.tc.toNat)))) = true := by
    rcases hroom with hbulk | hroom
    · rw [hheader, hbulk]
      rfl
    · rw [hheader, decide_eq_true hroom, Bool.or_true]
      rfl
  exact congrArg Host.Outcome.next ((if_neg (Nat.not_lt.mpr hport)).trans (if_pos htakes))

/-! Arbitration (R402). -/

theorem exec_outputArbitration_of_down {n : Fin 40} (ecc : Fin 3) {y : SwFrame} (hfabric : n.val < 36) (hdown : s.portUp n = false)
    (hhead : (s.headsFor n).head? = some y) : exec (.outputArbitration n ecc) s = .next (s.relookup y) := by
  have hlost : n.val < 36 ∧ (!s.portUp n) = true := ⟨hfabric, congrArg (!·) hdown⟩
  show execOutputArbitration n ecc s = _
  simp only [execOutputArbitration, if_pos hlost, hhead]

theorem exec_outputArbitration_of_up {n : Fin 40} {ecc : Fin 3} {u : State} {y : SwFrame} (hup : 36 ≤ n.val ∨ s.portUp n = true)
    (hu : (s.presented.chooseFrame n).1 = u) (hy : (s.presented.chooseFrame n).2 = some y) :
    let ce : State → State := fun u => if y.held && ecc == 1 then u.event { code := .sramCe, unit := 13 * 65536 + y.inPort } else u
    exec (.outputArbitration n ecc) s = .next (if y.held && ecc == 2
      then ((u.unqueue y).event { code := .sramUe, unit := 13 * 65536 + y.inPort, status := some .bufferUe }).swDrop .bufferUe y.inPort y.gen y.frame
      else (ce u).transmit n y (((ce u).headsFor n).any fun h => !isPriv h.frame.tc.toNat)) := by
  have hopen : ¬ (n.val < 36 ∧ (!s.portUp n) = true) := by
    rintro ⟨hfabric, hdown⟩
    rcases hup with hin | hup
    · exact absurd hfabric (Nat.not_lt.mpr hin)
    · rw [hup] at hdown
      exact Bool.false_ne_true hdown
  show execOutputArbitration n ecc s = _
  simp only [execOutputArbitration, if_neg hopen, hu, hy]

/-! The tables in shadow (R404, R405). -/

theorem find?_zipIdx_of_all {α : Type} {l : List α} {bad : α → Bool} (h : ∀ w ∈ l, bad w = false) : l.zipIdx.find? (fun e => bad e.1) = none :=
  List.find?_eq_none.mpr fun _ he => Bool.eq_false_iff.mp (h _ (List.fst_mem_of_mem_zipIdx he))

/-- The entries of a SWITCH_TABLE_WRITE, and of a SWITCH_EXC_WRITE. -/
def switchEntries (q : List Byte) : List Word := (List.range (uAt q 8 4)).map fun j => wordAt q (16 + 8 * j)
def excEntries (q : List Byte) : List (Word × Word) := (List.range (uAt q 4 4)).map fun j => (wordAt q (16 + 16 * j), wordAt q (24 + 16 * j))

/-- Parameters that SWITCH_TABLE_WRITE accepts (Table 14.5). -/
structure SwitchTableParams (q : List Byte) : Prop where
  table : uAt q 0 1 ≤ 1
  reserved : uAt q 1 3 = 0
  count : 1 ≤ uAt q 8 4 ∧ uAt q 8 4 ≤ 510
  zero : uAt q 12 4 = 0
  length : q.length = 16 + 8 * uAt q 8 4
  entries : ∀ w ∈ switchEntries q, entryOk w = true
  range : uAt q 4 4 + uAt q 8 4 ≤ (if uAt q 0 1 = 0 then 256 else 4096)

/-- The entries in their places of a table's shadow. -/
def putEntries (q : List Byte) (l : Tbl Nat Word) : Tbl Nat Word :=
  (switchEntries q).zipIdx.foldl (fun l e => l.put (uAt q 4 4 + e.2) e.1) l

/-- What SWITCH_TABLE_WRITE does with good parameters: the shadow is written unless it is being copied. -/
theorem bodySwitchTableWrite_of_params {o : Owed} {h : CmdHdr} {q : List Byte} (g : SwitchTableParams q) :
    bodySwitchTableWrite s o h q = if s.sw.copying.isSome then (s, .st .tableBusy)
      else ({ s with sw := if uAt q 0 1 = 0 then { s.sw with posS := putEntries q s.sw.posS } else { s.sw with domS := putEntries q s.sw.domS } }, .ok) := by
  obtain ⟨htable, hzero, hcount, hzero', hlen, hentries, hrange⟩ := g
  have hfind := find?_zipIdx_of_all (bad := fun w => !entryOk w) fun w hw => congrArg (!·) (hentries w hw)
  unfold bodySwitchTableWrite
  dsimp only
  rw [(firstFail_none _).2, ← switchEntries.eq_def, hfind]
  · exact if_neg (Nat.not_lt.mpr hrange)
  · simp only [pass_cons, zeros, beq_iff_eq, decide_eq_true_eq]
    exact ⟨hlen ▸ Nat.le_add_right _ _, htable, hzero, hcount, hzero', hlen, pass_nil⟩

/-- Parameters that SWITCH_EXC_WRITE accepts (Table 14.5). -/
structure SwitchExcParams (q : List Byte) : Prop where
  first : uAt q 0 4 ≤ 1023
  count : 1 ≤ uAt q 4 4 ∧ uAt q 4 4 ≤ 255
  zero : uAt q 8 8 = 0
  length : q.length = 16 + 16 * uAt q 4 4
  entries : ∀ e ∈ excEntries q, fld e.1 30 28 = 0 ∧ fld e.1 63 32 = 0 ∧ entryOk e.2 = true
  range : uAt q 0 4 + uAt q 4 4 ≤ 1024

theorem bodySwitchExcWrite_of_params {o : Owed} {h : CmdHdr} {q : List Byte} (g : SwitchExcParams q) (hidle : s.sw.copying = none) :
    bodySwitchExcWrite s o h q = ({ s with sw := { s.sw with
      excS := (excEntries q).zipIdx.foldl (fun (l : Tbl Nat (Word × Word)) e => l.put (uAt q 0 4 + e.2) e.1) s.sw.excS } }, .ok) := by
  obtain ⟨hfirst, hcount, hzero, hlen, hentries, hrange⟩ := g
  have hfind := find?_zipIdx_of_all (bad := fun e : Word × Word => !(fld e.1 30 28 == 0 && fld e.1 63 32 == 0 && entryOk e.2)) (l := excEntries q) fun e he => by
    obtain ⟨hlow, hhigh, hok⟩ := hentries e he
    simp [hlow, hhigh, hok]
  have hcopying : ¬ s.sw.copying.isSome = true := Option.not_isSome_iff_eq_none.mpr hidle
  unfold bodySwitchExcWrite
  dsimp only
  rw [(firstFail_none _).2, ← excEntries.eq_def, hfind]
  · exact (if_neg (Nat.not_lt.mpr hrange)).trans (if_neg hcopying)
  · simp only [pass_cons, zeros, beq_iff_eq, decide_eq_true_eq]
    exact ⟨hlen ▸ Nat.le_add_right _ _, hfirst, hcount, hzero, hlen, pass_nil⟩

/-! TABLE_COMMIT SWITCH (R406) and the steps behind it. -/

/-- A TABLE_COMMIT of the switch with good parameters. -/
theorem State.tableCommit_of_switch {o : Owed} {h : CmdHdr} {q : List Byte} (hlen : q.length = 8) (htable : uAt q 0 1 = 1) (hflags : uAt q 1 1 ≤ 1)
    (hzero : uAt q 2 2 = 0) (hzero' : uAt q 4 4 = 0) : s.tableCommit o h q = s.commitSwitch o (uAt q 1 1 == 1) := by
  unfold State.tableCommit
  dsimp only
  rw [(firstFail_none _).2 (by simp [pass_nil, lenIs, zeros, hlen, htable, hflags, hzero, hzero']), htable]
  rfl

theorem State.commitSwitch_of_idle {o : Owed} {m : Nat} (drain : Bool) (hsrc : o.src = .fm m) (hcopying : s.sw.copying = none)
    (hcommit : s.sw.commit = none) :
    s.commitSwitch o drain = ({ s with sw := { s.sw with commit := some (s.datum + usTicks 2, o, drain) } }, .later true) := by
  simp only [State.commitSwitch, State.trueSrc, hsrc, hcopying, hcommit, Option.isSome_none, Bool.or_self, Bool.false_eq_true, if_false]

theorem State.commitSwitch_of_busy {o : Owed} {m : Nat} (drain : Bool) (hsrc : o.src = .fm m)
    (hbusy : s.sw.copying.isSome = true ∨ s.sw.commit.isSome = true) : s.commitSwitch o drain = (s, .st .tableBusy) := by
  simp only [State.commitSwitch, State.trueSrc, hsrc, Bool.or_eq_true, if_pos hbusy]

/-- A ring may not commit the switch's tables. -/
theorem State.commitSwitch_of_ring {o : Owed} {a : Fin 2} {b : Fin 16} (drain : Bool) (hsrc : o.src = .ring a b) :
    s.commitSwitch o drain = (s, .st .accessDenied) := by
  simp only [State.commitSwitch, State.trueSrc, hsrc]

/-- The shadows become the tables, of a new generation, and are to be copied back. -/
def Switch.activated (w : Switch) (now : Nat) : Switch :=
  { w with pos := w.posS, dom := w.domS, exc := w.excS, gen := w.gen + 1, commit := none, copying := some now }

theorem exec_switchTableActivation_of_due {a : Nat} {o : Owed} {drain : Bool} (hcommit : s.sw.commit = some (a, o, drain)) (hdue : a ≤ s.datum) :
    exec .switchTableActivation s = .next (if drain
      then { s with sw := { s.sw.activated s.datum with drains := s.sw.drains ++ [(o, s.sw.gen + 1, s.datum)] } }
      else ({ s with sw := s.sw.activated s.datum } : State).final o .ok) := by
  show execSwitchTableActivation s = _
  simp only [execSwitchTableActivation, hcommit, if_neg (Nat.not_lt.mpr hdue)]
  rfl

theorem exec_shadowCopyComplete_of_copying (hcopying : s.sw.copying.isSome = true) : exec .shadowCopyComplete s =
    .next { s with sw := { s.sw with posS := s.sw.pos, domS := s.sw.dom, excS := s.sw.exc, copying := none } } := by
  obtain ⟨t, ht⟩ := Option.isSome_iff_exists.mp hcopying
  show execShadowCopyComplete s = _
  simp only [execShadowCopyComplete, ht]

/-- A commit that alone drains ends with its status. -/
theorem State.endDrains_of_single {st : Status} {p : Owed × Nat × Nat → Bool} {d : Owed × Nat × Nat} (hdrains : s.sw.drains = [d]) (hp : p d = true) :
    s.endDrains st p = ({ s with sw := { s.sw with drains := [] } } : State).final d.1 st := by
  simp only [State.endDrains, hdrains, List.filter_cons, hp, Bool.not_true, Bool.false_eq_true, if_true, if_false, List.filter_nil]
  rfl

end

/-- Settles O36: a frame by what its port takes, arbitration by whether its output is up, each command by what its body does with good parameters, each step of
a commit by its own equation. -/
theorem switching : Obligations.Switching := by
  intro s h p n e f w t q ans es xs ups upx x c k enter
  have enters : ∀ u : State, (.next (u.switchIn n f) : Res) = enter u := by
    intro u
    cases hl : u.lookup f <;> simp only [enter, State.switchIn, hl]
  refine ⟨fun hfabric hnative hlinked hopen hwhole hmac hseq hcredit hlen hheader hcls hhops hlane => ?link,
    fun hport hheader hroom => (exec_frameIngress_of_endpoint e hport hheader hroom).trans (enters s),
    fun ecc y hfabric hdown hhead => ?relookup, fun ecc y hup hy => exec_outputArbitration_of_up hup rfl hy,
    fun ht htable hzero hmin hmax hzero' hlen hentries hrange => ?table,
    fun ht hfirst hmin hmax hzero hlen hentries hrange hidle => ?exc, fun ht hlen htable hflags hzero hzero' => ?commit,
    fun a o => ⟨fun hcommit hdue => exec_switchTableActivation_of_due hcommit hdue, fun hcommit hdue => exec_switchTableActivation_of_due hcommit hdue⟩,
    fun hcopying => exec_shadowCopyComplete_of_copying hcopying, fun o g a hdrains => ⟨fun hnone => ?drained, fun hsome hdue => ?late⟩,
    fun hw => congrArg Host.Outcome.next (s.rearm_of_valid _ hw)⟩
  case link =>
    exact (exec_frameIngress_of_takes ⟨hfabric, hnative, hlinked, hopen, hwhole, hmac, hseq, hcredit, hlen, hheader, hcls, hhops, hlane⟩).trans (enters _)
  case relookup =>
    rw [exec_outputArbitration_of_down ecc hfabric hdown hhead]
    cases hl : (s.unqueue y).lookup y.frame <;> simp only [State.relookup, hl]
  case table =>
    have hbody := bodySwitchTableWrite_of_params (s := t) (o := hdrOwed h 0x0505) (h := h) ⟨htable, hzero, ⟨hmin, hmax⟩, hzero', hlen, hentries, hrange⟩
    exact ⟨fun hbusy => State.command_answers ht (hbody.trans (if_pos hbusy)),
      fun hidle => State.command_answers ht (hbody.trans (if_neg (Option.not_isSome_iff_eq_none.mpr hidle)))⟩
  case exc => exact State.command_answers ht (bodySwitchExcWrite_of_params ⟨hfirst, ⟨hmin, hmax⟩, hzero, hlen, hentries, hrange⟩ hidle)
  case commit =>
    have hbody := t.tableCommit_of_switch (o := hdrOwed h 0x0704) (h := h) hlen htable hflags hzero hzero'
    exact ⟨fun m hsrc hcopying hcommit => State.command_answers ht (hbody.trans (State.commitSwitch_of_idle _ hsrc hcopying hcommit)),
      fun m hsrc hbusy => State.command_answers ht (hbody.trans (State.commitSwitch_of_busy _ hsrc hbusy)),
      fun a b hsrc => State.command_answers ht (hbody.trans (State.commitSwitch_of_ring _ hsrc))⟩
  case drained => exact congrArg Host.Outcome.next (State.endDrains_of_single hdrains (beq_iff_eq.mpr hnone))
  case late =>
    exact congrArg Host.Outcome.next (State.endDrains_of_single hdrains (Bool.and_eq_true_iff.mpr ⟨State.elapsed_of_le hdue, bne_iff_ne.mpr hsome⟩))

end Sys2Proof.Machine
end

section
/-! Ports (R411, R413 to R416, R424, R428 to R431, R472): the port commands with good parameters, by the state of the port, and the rows of training, of
retraining and of the end of STOPPING. That a port held OFF is busy (log 44), and that PORT_RETRAIN and PORT_UNQUARANTINE reply at acceptance (log 216), is the
model's choice. -/

namespace Sys2Proof.Machine

section
variable {s : State}

/-! The commands (R414). -/

/-- Parameters that name a port, whose FD works, with a second field below a bound. -/
structure State.PortParams (s : State) (q : List Byte) (modes : Nat) : Prop where
  length : q.length = 8
  port : uAt q 0 1 ≤ 35
  mode : uAt q 1 1 < modes
  reserved : uAt q 2 6 = 0
  works : s.fdWorks (uAt q 0 1 / 6) = true

section
variable {o : Owed} {h : CmdHdr} {q : List Byte}

theorem State.PortParams.checks {modes : Nat} (g : s.PortParams q modes) : s.portChecks q modes = none := by
  obtain ⟨hlen, hport, hmode, hzero, hworks⟩ := g
  rw [State.portChecks, firstFail_none]
  simp [pass_nil, lenIs, zeros, hlen, hport, hmode, hzero, hworks]

/-- A port that is held OFF: its photonic engine has tripped, or the device is halted (log 44). -/
def State.portHeldOff (s : State) (n : Nat) : Bool := s.pw.fdTrip.contains (n / 6) || s.boot.halted

section
variable (g : s.PortParams q 2)
include g

/-- PORT_ENABLE of a port that is not held OFF goes by the enable of Table 17.8. -/
theorem bodyPortEnable_of_params :
    let n := uAt q 0 1
    let r := (s.port n).life.doEnable (mkPacket h 0x0500 q) .deviceBusy s.datum
    bodyPortEnable s o h q = if (s.portHeldOff n && (s.port n).life.st == .off) = true then (s, .st .deviceBusy)
    else if r.2.2 then (s.startTraining n r.1 (some (uAt q 1 1)) true, r.2.1) else (s.setPort n { s.port n with life := r.1 }, r.2.1) := by
  simp only [bodyPortEnable, g.checks, ← State.portHeldOff.eq_def]
  generalize (s.port (uAt q 0 1)).life.doEnable _ _ _ = r
  obtain ⟨l, a, _ | _⟩ := r <;> rfl

theorem bodyPortEnable_of_held (hoff : (s.port (uAt q 0 1)).life.st = .off) (hheld : s.portHeldOff (uAt q 0 1) = true) :
    bodyPortEnable s o h q = (s, .st .deviceBusy) := by
  rw [bodyPortEnable_of_params g]
  exact if_pos (Bool.and_eq_true_iff.mpr ⟨hheld, beq_iff_eq.mpr hoff⟩)

theorem bodyPortEnable_of_off (hoff : (s.port (uAt q 0 1)).life.st = .off) (hfree : s.portHeldOff (uAt q 0 1) = false) :
    bodyPortEnable s o h q = (s.startTraining (uAt q 0 1) { (s.port (uAt q 0 1)).life with
      st := .starting, step := 0, enable := some (hdrOwed h 0x0500), failing := none, since := s.datum } (some (uAt q 1 1)) true, .later true) := by
  rw [bodyPortEnable_of_params g, hfree, Life.doEnable_of_off hoff]
  rfl

/-- A port that is ON or STARTING keeps what it is. -/
theorem bodyPortEnable_of_running (hst : (s.port (uAt q 0 1)).life.st = .on ∨ (s.port (uAt q 0 1)).life.st = .starting) :
    bodyPortEnable s o h q = (s.setPort (uAt q 0 1) (s.port (uAt q 0 1)), .st .deviceBusy) := by
  have hon : ((s.port (uAt q 0 1)).life.st == .off) = false := by rcases hst with hst | hst <;> rw [hst] <;> rfl
  rw [bodyPortEnable_of_params g, hon, Life.doEnable_of_running hst, Bool.and_false]
  rfl

end

section
variable (g : s.PortParams q 1)
include g

theorem bodyPortDisable_of_off (hoff : (s.port (uAt q 0 1)).life.st = .off) :
    bodyPortDisable s o h q = (s.setPort (uAt q 0 1) (s.port (uAt q 0 1)), .ok) := by
  simp only [bodyPortDisable, g.checks, Life.doDisable_of_off hoff]
  rfl

theorem bodyPortDisable_of_on (hon : (s.port (uAt q 0 1)).life.st = .on) : bodyPortDisable s o h q = (s.portStop (uAt q 0 1)
    { (s.port (uAt q 0 1)).life with st := .stopping, step := 0, disables := [o], since := s.datum }, .later true) := by
  simp only [bodyPortDisable, g.checks, Life.doDisable_of_on hon]
  rfl

theorem bodyPortRetrain_of_params : bodyPortRetrain s o h q =
    (if (s.port (uAt q 0 1)).life.st = .on ∧ (s.port (uAt q 0 1)).sub = .failed
      then s.startTraining (uAt q 0 1) { (s.port (uAt q 0 1)).life with st := .starting, since := s.datum } none false else s, .ok) := by
  simp only [bodyPortRetrain, g.checks]
  split <;> rfl

theorem bodyPortUnquarantine_of_params : bodyPortUnquarantine s o h q =
    (if (s.port (uAt q 0 1)).life.st = .on ∧ (s.port (uAt q 0 1)).sub = .quarantined
      then (s.setPort (uAt q 0 1) { s.port (uAt q 0 1) with viols := [], handshake := true, known := false, since := s.datum }).set
        F.FPT_VIOL_CNT1_window (uAt q 0 1) 0 0 else s, .ok) := by
  simp only [bodyPortUnquarantine, g.checks]
  split <;> rfl

end

/-- Parameters that PORT_INJECT accepts (R430). -/
structure State.InjectParams (s : State) (q : List Byte) : Prop where
  length : q.length = 16
  port : uAt q 0 1 ≤ 35
  works : s.fdWorks (uAt q 0 1 / 6) = true
  kind : uAt q 1 1 ≤ 3
  useProb : uAt q 3 1 ≤ 1
  select : uAt q 3 1 = 1 ∨ 1 ≤ uAt q 4 4
  range : uAt q 4 4 < 2 ^ 24
  seed : uAt q 8 4 ≠ 0
  reserved : uAt q 12 4 = 0

/-- The injection registers of a port as PORT_INJECT writes them. -/
def State.injectSet (s : State) (q : List Byte) : State :=
  let n := uAt q 0 1
  (((s.set F.FPT_INJ_CFG_select n 0 (uAt q 4 4)).set F.FPT_INJ_CFG_use_prob n 0 (uAt q 3 1)).set F.FPT_INJ_CFG_tc_mask n 0 (uAt q 2 1)).set
    F.FPT_INJ_CFG_kind n 0 (uAt q 1 1)

/-- What PORT_INJECT does with good parameters, on a device whose debug is unlocked: kind 0 disarms. -/
theorem bodyPortInject_of_params (g : s.InjectParams q) : bodyPortInject s o h q =
    if s.sec.debug = 0 then (s, .st .debugLocked)
    else if uAt q 1 1 = 0 then (s.disarm (uAt q 0 1), .ok)
    else (((s.injectSet q).setPort (uAt q 0 1) { (s.injectSet q).port (uAt q 0 1) with injSeen := 0, lfsr := uAt q 8 4 }).event
      { code := .faultInject, unit := uAt q 0 1, params := [uAt q 0 1, uAt q 1 1, uAt q 4 4] }, .ok) := by
  obtain ⟨hlen, hport, hworks, hkind, hprob, hselect, hrange, hseed, hzero⟩ := g
  have hseed' : (!(uAt q 8 4 == 0)) = true := bne_iff_ne.mpr hseed
  have hsel : decide ((uAt q 3 1 = 1 ∨ 1 ≤ uAt q 4 4) ∧ uAt q 4 4 < 2 ^ 24) = true := decide_eq_true ⟨hselect, hrange⟩
  unfold bodyPortInject
  simp only [firstFail, lenIs, zeros, hlen, hport, hworks, hkind, hprob, hsel, hseed', hzero, beq_self_eq_true, decide_true, if_true]
  rcases eq_or_ne s.sec.debug 0 with hlocked | hopen
  · rw [if_pos hlocked, hlocked]
    rfl
  · rw [if_neg hopen, if_pos (bne_iff_ne.mpr hopen)]
    rfl

end

/-! Training and retraining (R413, R424). -/

section
variable {m : Fin 36}

theorem exec_trainingComplete_of_lit (htrains : (s.port m).inTraining = true) (hearly : ¬ (s.port m).since + msTicks 250 ≤ s.datum)
    (hlit : s.portLit m = true) (hknown : s.native m = false ∨ (s.port m).known = true) : exec (.trainingComplete m) s = .next (s.portGoUp m) := by
  have hdone : ((s.port m).inTraining && !s.elapsed (s.port m).since (msTicks 250) && s.portLit m && (!s.native m || (s.port m).known)) = true := by
    rw [htrains, State.elapsed_of_not_le hearly, hlit]
    rcases hknown with hgateway | hknown
    · rw [hgateway]
      rfl
    · rw [hknown, Bool.or_true]
      rfl
  exact congrArg Host.Outcome.next (if_pos hdone)

theorem exec_trainingTimeout_of_due (htrains : (s.port m).inTraining = true) (hdue : (s.port m).since + msTicks 250 ≤ s.datum) :
    exec (.trainingTimeout m) s = .next (s.portTrainFail m 1) :=
  congrArg Host.Outcome.next (if_pos (Bool.and_eq_true_iff.mpr ⟨htrains, State.elapsed_of_le hdue⟩))

theorem exec_laneLockLoss_of_up (locked : BitVec 8) (hup : s.portUp m = true) :
    exec (.laneLockLoss m locked) s = .next ((s.set F.FPT_STATUS_lanes_locked m 0 locked.toNat).retrain m) :=
  congrArg Host.Outcome.next (if_pos hup)

section
variable (hon : (s.port m).life.st = .on)
include hon

theorem exec_retrainingComplete_of_lit (hsub : (s.port m).sub = .retraining) (hearly : ¬ (s.port m).since + msTicks 100 ≤ s.datum)
    (hlit : s.portLit m = true) :
    let u := (s.set F.FPT_STATUS_lanes_locked m 0 255).portTo m { s.port m with sub := .up, resume := s.native m, asks := (0, 0), again := (0, 0) } 0
    exec (.retrainingComplete m) s = .next ((if s.native m then u.linkAck m else u).contourPort m) := by
  have hdone : ((s.port m).life.st == .on && (s.port m).sub == .retraining && !s.elapsed (s.port m).since (msTicks 100) && s.portLit m) = true := by
    rw [hon, hsub, State.elapsed_of_not_le hearly, hlit]
    rfl
  exact congrArg Host.Outcome.next (if_pos hdone)

theorem exec_retrainingTimeout_of_due (hsub : (s.port m).sub = .retraining) (hdue : (s.port m).since + msTicks 100 ≤ s.datum) :
    exec (.retrainingTimeout m) s = .next ((s.portFail m 4).contourPort m) := by
  have hpast : ((s.port m).life.st == .on && (s.port m).sub == .retraining && s.elapsed (s.port m).since (msTicks 100)) = true := by
    rw [hon, hsub, State.elapsed_of_le hdue]
    rfl
  exact congrArg Host.Outcome.next (if_pos hpast)

theorem exec_unquarantineHandshakeTimeout_of_due (hsub : (s.port m).sub = .quarantined) (hasks : (s.port m).handshake = true)
    (hdue : (s.port m).since + msTicks 250 ≤ s.datum) : exec (.unquarantineHandshakeTimeout m) s = .next (s.portFail m 5) := by
  have hpast : ((s.port m).life.st == .on && (s.port m).sub == .quarantined && (s.port m).handshake && s.elapsed (s.port m).since (msTicks 250)) = true := by
    rw [hon, hsub, hasks, State.elapsed_of_le hdue]
    rfl
  exact congrArg Host.Outcome.next (if_pos hpast)

end

/-! The end of STOPPING, and the registers of a port. -/

theorem exec_portStoppingDrained_of_done (hst : (s.port m).life.st = .stopping) (hlast : (s.port m).life.deferred = none)
    (hdone : (s.port m).buffer = [] ∨ (s.port m).since + msTicks 2 ≤ s.datum) :
    let u := if s.native m && (s.port m).sub != .training && (s.port m).sub != .failed then s.block m 9 0 [] else s
    exec (.portStoppingDrained m) s = .next (((u.set F.FPT_STATUS_lanes_locked m 0 0).portTo m Port.off 0).finals (s.port m).life.stopped.2.1) := by
  have hends : ((s.port m).life.st != .stopping || !((s.port m).buffer.isEmpty || s.elapsed (s.port m).since (msTicks 2))) = false := by
    rcases hdone with hempty | hdue
    · rw [hst, hempty]
      rfl
    · rw [hst, State.elapsed_of_le hdue, Bool.or_true]
      rfl
  have hnone : (s.port m).life.stopped.2.2 = none := hlast
  show execPortStoppingDrained m s = _
  simp only [execPortStoppingDrained, hends, hnone, Bool.false_eq_true, if_false]

theorem exec_fptAuditStart_of_idle {w : Word} (hw : w.getLsbD 63 = true) (hnative : s.native m = true) (hup : (s.port m).isUp = true)
    (hidle : ((s.port m).audit.bind Audit.owed) = none) : exec (.fptAuditStart m w) s = .next (s.auditStart m (s.creditSel m) none) := by
  have hstarts : (w.getLsbD 63 && s.native m && (s.port m).isUp && ((s.port m).audit.bind Audit.owed).isNone) = true := by
    rw [hw, hnative, hup, hidle]
    rfl
  exact congrArg Host.Outcome.next (if_pos hstarts)

end

end

/-- Settles O37: each command by what its body does with good parameters, each row by its own equation. -/
theorem portLifecycle : Obligations.PortLifecycle := by
  intro s h p m w locked t q n x y good ans age
  have params : ∀ {op modes : Nat}, good op → uAt q 1 1 < modes → t.PortParams q modes :=
    fun ⟨_, hlen, hport, hzero, hworks⟩ hmode => ⟨hlen, hport, hmode, hzero, hworks⟩
  have unused : uAt q 1 1 = 0 → uAt q 1 1 < 1 := fun hzero => hzero ▸ Nat.one_pos
  refine ⟨fun g hmode => ⟨fun hoff hheld => ?held, fun hoff htrip hrun => ?enable, fun hst => ?running⟩,
    fun g hzero => ⟨fun hoff => State.command_answers g.1 (bodyPortDisable_of_off (params g (unused hzero)) hoff),
      fun hon => State.command_answers g.1 (bodyPortDisable_of_on (params g (unused hzero)) hon)⟩,
    fun g hzero => State.command_answers g.1 (bodyPortRetrain_of_params (params g (unused hzero))),
    fun g hzero => State.command_answers g.1 (bodyPortUnquarantine_of_params (params g (unused hzero))),
    fun ht hlen hport hworks hkind hprob hselect hrange hseed hzero => ?inject,
    fun htrains => ⟨fun hearly hlit hknown => exec_trainingComplete_of_lit htrains hearly hlit hknown,
      fun hdue => exec_trainingTimeout_of_due htrains hdue⟩,
    fun hup => exec_laneLockLoss_of_up locked hup,
    fun hon hsub => ⟨fun hearly hlit => exec_retrainingComplete_of_lit hon hsub hearly hlit, fun hdue => exec_retrainingTimeout_of_due hon hsub hdue⟩,
    fun hon hsub hasks hdue => exec_unquarantineHandshakeTimeout_of_due hon hsub hasks hdue,
    fun hst hlast hdone => exec_portStoppingDrained_of_done hst hlast hdone, fun hw hnative hup hidle => exec_fptAuditStart_of_idle hw hnative hup hidle,
    rfl, fun hw => congrArg Host.Outcome.next (s.rearm_of_valid _ hw)⟩
  case held => exact State.command_answers g.1 (bodyPortEnable_of_held (params g hmode) hoff (Bool.or_eq_true_iff.mpr hheld))
  case enable => exact State.command_answers g.1 (bodyPortEnable_of_off (params g hmode) hoff (Bool.or_eq_false_iff.mpr ⟨htrip, hrun⟩))
  case running => exact State.command_answers g.1 (bodyPortEnable_of_running (params g hmode) hst)
  case inject =>
    intro v
    have hbody := bodyPortInject_of_params (s := t) (o := hdrOwed h 0x0504) (h := h) ⟨hlen, hport, hworks, hkind, hprob, hselect, hrange, hseed, hzero⟩
    exact ⟨fun hlocked => State.command_answers ht (hbody.trans (if_pos hlocked)),
      fun hopen harm => State.command_answers ht (hbody.trans ((if_neg hopen).trans (if_neg harm))),
      fun hopen hdisarm => State.command_answers ht (hbody.trans ((if_neg hopen).trans (if_pos hdisarm)))⟩

end Sys2Proof.Machine
end

section
/-! Control blocks of a native link (R417 to R423, R425 to R427): the checks that every block meets, and what each block does behind them. The order of the
checks (log 210), the bound on credits (log 212), how retry requests are counted (log 214), and that VIOL_NACK and DISABLE change the transmission count alone
(log 216), is the model's choice. -/

namespace Sys2Proof.Machine

section
variable {s : State} {m : Fin 36}

/-- A linked native port that gets a block whose CRC holds. -/
structure State.HearsBlock (s : State) (m : Fin 36) (b : Block) : Prop where
  native : s.native m = true
  linked : (s.port m).linked = true
  crc : b.crcOk = true

/-- The block's transmission count is taken. -/
def State.blockCounted (s : State) (m : Nat) (b : Block) : State :=
  s.setPort m { s.port m with rxCount := nextCount (s.port m).rxCount b.txCount.toNat }

section
variable {b : Block} (hears : s.HearsBlock m b)
include hears

/-- The checks of a block in their order: quarantine, the tag, the reserved fields. -/
theorem State.blockIn_of_hears (kind : Nat) (g : State → State) : s.blockIn m kind b g =
    if ((s.port m).sub == .quarantined && kind != 7) = true then s.bump F.FPT_VIOL_CNT1_refused m 0 1
    else if (!b.macOk) = true then s.violation m .badMac 0 0 kind b.linkSeq.toNat
    else if (!b.resvOk) = true then (s.blockCounted m b).violation m .badControl 0 0 kind b.linkSeq.toNat
    else g (s.blockCounted m b) := by
  have hheard : (!s.native m || !(s.port m).linked || !b.crcOk) = false := by
    rw [hears.native, hears.linked, hears.crc]
    rfl
  exact if_neg (Bool.eq_false_iff.mp hheard)

theorem State.blockIn_of_quarantined (hsub : (s.port m).sub = .quarantined) {kind : Nat} (hkind : kind ≠ 7) (g : State → State) :
    s.blockIn m kind b g = s.bump F.FPT_VIOL_CNT1_refused m 0 1 := by
  rw [State.blockIn_of_hears hears, if_pos (Bool.and_eq_true_iff.mpr ⟨beq_iff_eq.mpr hsub, bne_iff_ne.mpr hkind⟩)]

/-- A KEEPALIVE is heard in quarantine too (R428). -/
theorem State.blockIn_keepalive : s.blockIn m 7 b (fun u => u) =
    if !b.macOk then s.violation m .badMac 0 0 7 b.linkSeq.toNat
    else if !b.resvOk then (s.blockCounted m b).violation m .badControl 0 0 7 b.linkSeq.toNat else s.blockCounted m b := by
  rw [State.blockIn_of_hears hears, if_neg (by simp)]

section
variable (hsub : (s.port m).sub ≠ .quarantined) (kind : Nat) (g : State → State)
include hsub

theorem State.blockIn_of_open : s.blockIn m kind b g =
    if (!b.macOk) = true then s.violation m .badMac 0 0 kind b.linkSeq.toNat
    else if (!b.resvOk) = true then (s.blockCounted m b).violation m .badControl 0 0 kind b.linkSeq.toNat
    else g (s.blockCounted m b) := by
  rw [State.blockIn_of_hears hears, beq_false_of_ne hsub, if_neg (by simp)]

theorem State.blockIn_of_badMac (hmac : b.macOk = false) : s.blockIn m kind b g = s.violation m .badMac 0 0 kind b.linkSeq.toNat := by
  rw [State.blockIn_of_open hears hsub, hmac, if_pos (by rfl)]

theorem State.blockIn_of_badControl (hmac : b.macOk = true) (hresv : b.resvOk = false) :
    s.blockIn m kind b g = (s.blockCounted m b).violation m .badControl 0 0 kind b.linkSeq.toNat := by
  rw [State.blockIn_of_open hears hsub, hmac, hresv, if_neg (by simp), if_pos (by rfl)]

theorem State.blockIn_of_good (hmac : b.macOk = true) (hresv : b.resvOk = true) : s.blockIn m kind b g = g (s.blockCounted m b) := by
  rw [State.blockIn_of_open hears hsub, hmac, hresv, if_neg (by simp), if_neg (by simp)]

end

/-- An AUDIT_RETURN where no audit is under way. -/
theorem exec_auditReturn_of_none (hsub : (s.port m).sub ≠ .quarantined) (hmac : b.macOk = true) (hresv : b.resvOk = true) {u : State}
    (hu : s.blockCounted m b = u) (hnone : (u.port m).audit = none) : exec (.auditReturn m b) s = .next u := by
  subst hu
  refine congrArg Host.Outcome.next ((State.blockIn_of_good hears hsub 6 _ hmac hresv).trans ?_)
  simp only [hnone]

/-- The audit under way ends with the four counts: the two ways must agree (R420). -/
theorem exec_auditReturn_of_audit (hsub : (s.port m).sub ≠ .quarantined) (hmac : b.macOk = true) (hresv : b.resvOk = true) {u : State} {y : Port}
    (hu : s.blockCounted m b = u) (hy : u.port m = y) {a : Audit} (haudit : y.audit = some a) :
    let counts := [a.spent, b.fields.getD 0 0, y.received.at a.key, b.fields.getD 1 0]
    let bad := a.spent != b.fields.getD 0 0 || y.received.at a.key != b.fields.getD 1 0
    let v := (((u.setPort m { y with audit := none }).set F.FPT_CREDIT_SNAP1_received m 0 (y.received.at a.key)).set F.FPT_AUDIT_done m 0 1).set
      F.FPT_AUDIT_mismatch m 0 (b2n bad)
    let w := if bad then v.misclosure 0 (linkInstance m a.key) counts none none else v
    exec (.auditReturn m b) s = .next (match a.owed with
      | some o => w.final o .ok noDetail (leBytes 1 (if bad then 2 else 0) ++ List.replicate 7 0 ++ counts.flatMap (leBytes 8))
      | none => w) := by
  subst hu hy
  refine congrArg Host.Outcome.next ((State.blockIn_of_good hears hsub 6 _ hmac hresv).trans ?_)
  cases howed : a.owed <;> simp only [haudit, howed]

end

/-! The partner's training message, and the timer of the acknowledgements. -/

/-- A port that waits for its partner: it trains, or asks its way out of quarantine. -/
theorem exec_trainMsg_of_waiting {dev : BitVec 20} {port : BitVec 6} {version trusted : Bool} (hnative : s.native m = true)
    (hwaits : ((s.port m).inTraining || ((s.port m).life.st == .on && (s.port m).sub == .quarantined && (s.port m).handshake)) = true)
    (hearly : s.datum < (s.port m).since + msTicks 250) :
    let v := (s.set F.FPT_STATUS_partner_dev m 0 dev.toNat).set F.FPT_STATUS_partner_port m 0 port.toNat
    exec (.trainMsg m dev port version trusted) s = .next (
      if v.get F.FPT_PARTNER_check m = 1 ∧ (v.get F.FPT_PARTNER_dev m ≠ dev.toNat ∨ v.get F.FPT_PARTNER_port m ≠ port.toNat) then v.portTrainFail m 2
      else if !version then v.portTrainFail m 3
      else if !trusted then (v.portTrainFail m 5).event { code := .linkAttestFail, unit := m }
      else if (s.port m).life.st == .on && (s.port m).sub == .quarantined && (s.port m).handshake then v.portGoUp m
      else v.setPort m { s.port m with known := true }) := by
  have hheard : (!s.native m || !((s.port m).inTraining || ((s.port m).life.st == .on && (s.port m).sub == .quarantined && (s.port m).handshake)) ||
      s.elapsed (s.port m).since (msTicks 250)) = false := by
    rw [hnative, hwaits, State.elapsed_of_not_le (Nat.not_le.mpr hearly)]
    rfl
  exact congrArg Host.Outcome.next (if_neg (Bool.eq_false_iff.mp hheard))

theorem exec_linkAckTimer_of_due (hnative : s.native m = true) (hlinked : (s.port m).linked = true) (hdue : (s.port m).ackAt + usTicks 1 ≤ s.datum) :
    exec (.linkAckTimer m) s = .next (if (s.port m).sub = .quarantined
      then (s.setPort m { s.port m with ackAt := s.datum }).block m 7 0 [] else s.linkAck m) := by
  show execLinkAckTimer m s = _
  simp only [execLinkAckTimer, hnative, hlinked, State.elapsed_of_le hdue, Bool.not_true, Bool.or_self, Bool.false_eq_true, if_false, beq_iff_eq]

end

/-- Settles O38: every block by the checks that it meets, a good one by its own effect; the training message and the timer by their own equations. -/
theorem linkProtocol : Obligations.LinkProtocol := by
  intro s m b dev port version trusted x u y k all
  refine ⟨fun hnative hlinked hcrc => ?block, fun hnative hwaits hearly => exec_trainMsg_of_waiting hnative (Bool.or_eq_true_iff.mpr hwaits) hearly,
    fun hnative hlinked hdue => exec_linkAckTimer_of_due hnative hlinked hdue⟩
  have hears : s.HearsBlock m b := ⟨hnative, hlinked, hcrc⟩
  have each : ∀ r : Nat → State, (∀ kind g, kind ≠ 7 → s.blockIn m kind b g = r kind) → all fun kind => .next (r kind) := by
    intro r h
    have acts : ∀ kind g, kind ≠ 7 → (.next (s.blockIn m kind b g) : Res) = .next (r kind) := fun kind g hkind => congrArg _ (h kind g hkind)
    exact ⟨acts 1 _ (by decide), acts 2 _ (by decide), acts 3 _ (by decide), acts 4 _ (by decide), acts 5 _ (by decide), acts 6 _ (by decide),
      acts 9 _ (by decide)⟩
  refine ⟨fun hsub => each (fun _ => s.bump F.FPT_VIOL_CNT1_refused m 0 1) fun kind g hkind => State.blockIn_of_quarantined hears hsub hkind g,
    congrArg Host.Outcome.next (State.blockIn_keepalive hears),
    fun hsub hmac => each (fun kind => s.violation m .badMac 0 0 kind k) fun kind g _ => State.blockIn_of_badMac hears hsub kind g hmac,
    fun hsub hmac hresv => each (fun kind => u.violation m .badControl 0 0 kind k) fun kind g _ =>
      State.blockIn_of_badControl hears hsub kind g hmac hresv, fun hsub hmac hresv => ?good⟩
  have acts : ∀ kind g, (.next (s.blockIn m kind b g) : Res) = .next (g u) := fun kind g => congrArg _ (State.blockIn_of_good hears hsub kind g hmac hresv)
  exact ⟨acts 1 _, acts 2 _, acts 3 _, acts 4 _, acts 9 _, acts 5 _,
    fun hnone => exec_auditReturn_of_none hears hsub hmac hresv rfl hnone,
    fun a haudit => exec_auditReturn_of_audit hears hsub hmac hresv (u := u) (y := y) rfl rfl haudit⟩

end Sys2Proof.Machine
end

section
/-! Names of devices and their peers (R432, R434, R436, R439, R441): the commands on the device's ID, the job map, a gateway's registers and the peer table,
with good parameters. That GATEWAY_SET with enable 0 does the whole STOPPING in one step, and is busy on an enabled port, is the model's choice (log 220). -/

namespace Sys2Proof.Machine

section
variable {s : State} {o : Owed} {h : CmdHdr} {q : List Byte}

/-! DEVICE_ID_SET (R432). -/

theorem bodyDeviceIdSet_of_params (hlen : q.length = 8) (hid : uAt q 0 4 < 2 ^ 20) (hzero : uAt q 4 4 = 0) : bodyDeviceIdSet s o h q =
    if s.anyAdmitted then (s, .st .deviceBusy) else ({ s with sw := { s.sw with devId := uAt q 0 4 } }, .ok) := by
  unfold bodyDeviceIdSet
  simp only [firstFail, lenIs, zeros, hlen, decide_eq_true hid, hzero, beq_self_eq_true, if_true]
  cases s.anyAdmitted <;> rfl

/-! JOBMAP_WRITE (R434, R436). -/

def jobmapEntries (q : List Byte) : List Word := (List.range (uAt q 8 4)).map fun i => wordAt q (16 + 8 * i)

/-- Parameters that JOBMAP_WRITE accepts (Table 16.1). -/
structure JobmapParams (q : List Byte) : Prop where
  reserved : uAt q 2 2 = 0
  first : uAt q 4 4 < 2 ^ 20
  count : 1 ≤ uAt q 8 4 ∧ uAt q 8 4 ≤ 510
  zero : uAt q 12 4 = 0
  length : q.length = 16 + 8 * uAt q 8 4
  entries : ∀ e ∈ jobmapEntries q, fld e 63 26 = 0 ∧ e.getLsbD 23 = false

/-- The entries in their places of the job's map, from now on. -/
def mapWritten (q : List Byte) (now : Nat) (l : Tbl Nat (Word × Option Nat)) : Tbl Nat (Word × Option Nat) :=
  (jobmapEntries q).zipIdx.foldl (fun (m : Tbl Nat (Word × Option Nat)) e => m.put (uAt q 4 4 + e.2) (e.1, some now)) l

def State.jobMapped (s : State) (q : List Byte) : State :=
  s.setJob (uAt q 0 2) { s.job (uAt q 0 2) with map := mapWritten q s.datum (s.job (uAt q 0 2)).map }

/-- The homes of the entries are no longer lost, and the lines of theirs that are kept are dropped (R436). -/
def State.homesMoved (s : State) (j first k : Nat) : State :=
  ({ s with ep := { s.ep with lost := s.ep.lost.filter fun e => !(e.1 == j && decide (first ≤ e.2 ∧ e.2 < first + k)) } } : State).dropLines
    fun _ job home _ => job == j && decide (first ≤ home ∧ home < first + k)

/-- What JOBMAP_WRITE does with good parameters: the job must be admitted, not be stopping, and have the entries. -/
theorem bodyJobmapWrite_of_params (g : JobmapParams q) : bodyJobmapWrite s o h q =
    if (!s.admitted (uAt q 0 2)) = true then (s, .st .jobUnknown)
    else if (s.job (uAt q 0 2)).life.st = .stopping then (s, .st .tornDown)
    else if (s.job (uAt q 0 2)).n < uAt q 4 4 + uAt q 8 4 then (s, .st .addressRange)
    else ((s.jobMapped q).homesMoved (uAt q 0 2) (uAt q 4 4) (uAt q 8 4), .ok) := by
  obtain ⟨hzero, hfirst, hcount, hzero', hlen, hentries⟩ := g
  have hfind := find?_zipIdx_of_all (bad := fun e : Word => !(fld e 63 26 == 0 && !e.getLsbD 23)) (l := jobmapEntries q) fun e he => by
    obtain ⟨hhigh, hbit⟩ := hentries e he
    rw [hhigh, hbit]
    rfl
  unfold bodyJobmapWrite
  dsimp only
  rw [(firstFail_none _).2, ← jobmapEntries.eq_def, hfind]
  · rfl
  · simp only [pass_cons, zeros, beq_iff_eq, decide_eq_true_eq]
    exact ⟨hlen ▸ Nat.le_add_right _ _, hzero, hfirst, hcount, hzero', hlen, pass_nil⟩

/-! GATEWAY_SET (R439). -/

/-- Parameters that GATEWAY_SET accepts (Table 16.2). -/
structure State.GatewayParams (s : State) (q : List Byte) : Prop where
  length : q.length = 32
  port : uAt q 0 1 ≤ 35
  enable : uAt q 1 1 = 0 ∨ (uAt q 1 1 = 1 ∧ s.get F.FPT_CTL_mode (uAt q 0 1) = 1)
  mtu : 4228 ≤ uAt q 4 2 ∧ uAt q 4 2 ≤ 9194
  reserved : uAt q 12 4 = 0
  start : 1 ≤ fld (wordAt q 16) 15 0 ∧ fld (wordAt q 16) 15 0 ≤ 2000
  zero : uAt q 30 2 = 0
  works : s.fdWorks (uAt q 0 1 / 6) = true

/-- The registers of a gateway port as GATEWAY_SET writes them; a port whose enable it clears ends its role first. -/
def State.gatewayWritten (s : State) (q : List Byte) : State :=
  let n := uAt q 0 1
  let en := uAt q 1 1
  let u := if en = 0 ∧ s.gwRole n = true then s.gwStop n else s
  let v := ((u.set F.GWY_CTL_enable n 0 en).set F.GWY_CTL_udp_port n 0 (uAt q 2 2)).set F.GWY_CTL_mtu n 0 (uAt q 4 2)
  let w := (v.set F.GWY_WC_CFG_timeout_us n 0 (uAt q 6 2)).set F.GWY_WC_CFG_rb_hold_us n 0 (uAt q 8 4)
  (w.setReg ⟨.GWY_XPORT_CFG, n, 0⟩ (wordAt q 16)).setReg ⟨.GWY_DSCP, n, 0⟩ (wordAt q 24)

/-- What GATEWAY_SET does with good parameters: a port that is enabled cannot be enabled again. -/
theorem bodyGatewaySet_of_params (g : s.GatewayParams q) : bodyGatewaySet s o h q =
    if uAt q 1 1 = 1 ∧ s.get F.GWY_CTL_enable (uAt q 0 1) = 1 then (s, .st .deviceBusy) else (s.gatewayWritten q, .ok) := by
  obtain ⟨hlen, hport, henable, hmtu, hzero, hstart, hzero', hworks⟩ := g
  have hmode : (decide (uAt q 1 1 ≤ 1) && (uAt q 1 1 == 0 || s.get F.FPT_CTL_mode (uAt q 0 1) == 1)) = true := by
    rcases henable with hoff | ⟨hon, hgateway⟩
    · rw [hoff]
      rfl
    · rw [hon, hgateway]
      rfl
  unfold bodyGatewaySet
  simp only [firstFail, lenIs, zeros, hlen, hport, hmode, hmtu, hzero, hstart, hzero', hworks, decide_true, and_self, beq_self_eq_true, if_true]
  by_cases hbusy : uAt q 1 1 = 1 ∧ s.get F.GWY_CTL_enable (uAt q 0 1) = 1
  · rw [if_pos hbusy, hbusy.1, hbusy.2]
    rfl
  · have hfree : (!(uAt q 1 1 == 1 && s.get F.GWY_CTL_enable (uAt q 0 1) == 1)) = true := by
      rw [Bool.not_eq_true', Bool.eq_false_iff]
      simpa using hbusy
    rw [if_neg hbusy, if_pos hfree]
    rfl

/-! PEER_WRITE (R441). -/

def peerEntries (q : List Byte) : List (List Byte) := (List.range (uAt q 0 4)).map fun i => bytesAt q (16 + 128 * i) 128

/-- Parameters that PEER_WRITE accepts (Table 16.5). -/
structure PeerParams (q : List Byte) : Prop where
  count : 1 ≤ uAt q 0 4 ∧ uAt q 0 4 ≤ 31
  reserved : uAt q 4 12 = 0
  length : q.length = 16 + 128 * uAt q 0 4
  entries : ∀ b ∈ peerEntries q, peerOk b = true

/-- The peer table with the entries added, and those of no transport removed. -/
def peersWritten (q : List Byte) (l : Tbl Nat (List Byte)) : Tbl Nat (List Byte) :=
  (peerEntries q).foldl (fun (t : Tbl Nat (List Byte)) b => if uAt b 4 1 % 8 = 0 then t.del (uAt b 0 4) else t.put (uAt b 0 4) b) l

theorem bodyPeerWrite_of_params (g : PeerParams q) : bodyPeerWrite s o h q =
    if 65536 < (peersWritten q s.peers).length then (s, .st .reservedFull) else ({ s with peers := peersWritten q s.peers }, .ok) := by
  obtain ⟨hcount, hzero, hlen, hentries⟩ := g
  have hfind := find?_zipIdx_of_all (bad := fun b => !peerOk b) fun b hb => congrArg (!·) (hentries b hb)
  unfold bodyPeerWrite
  dsimp only
  rw [(firstFail_none _).2, ← peerEntries.eq_def, hfind]
  · rfl
  · simp only [pass_cons, zeros, beq_iff_eq, decide_eq_true_eq]
    exact ⟨hlen ▸ Nat.le_add_right _ _, hcount, hzero, hlen, pass_nil⟩

end

/-- Settles O39: each command by what its body does with good parameters. -/
theorem namesAndPeers : Obligations.NamesAndPeers := by
  intro s h p t q ans j first k es x mapped n en u v w ps table
  refine ⟨fun ht hlen hid hzero => ?name, fun ht hzero hfirst hmin hmax hzero' hlen hentries => ?map,
    fun ht hlen hport henable hmin hmax hzero hsmin hsmax hzero' hworks => ?gateway, fun ht hmin hmax hzero hlen hentries => ?peers⟩
  case name =>
    have hbody := bodyDeviceIdSet_of_params (s := t) (o := hdrOwed h 0x0507) (h := h) hlen hid hzero
    exact ⟨fun hbusy => State.command_answers ht (hbody.trans (if_pos hbusy)),
      fun hfree => State.command_answers ht (hbody.trans (if_neg (Bool.eq_false_iff.mp hfree)))⟩
  case map =>
    have hbody := bodyJobmapWrite_of_params (s := t) (o := hdrOwed h 0x0304) (h := h) ⟨hzero, hfirst, ⟨hmin, hmax⟩, hzero', hlen, hentries⟩
    have known : t.admitted j = true → ¬ (!t.admitted j) = true := fun hjob => by rw [hjob]; exact Bool.false_ne_true
    exact ⟨fun hnone => State.command_answers ht (hbody.trans (if_pos (congrArg (!·) hnone))),
      fun hjob hst => State.command_answers ht (hbody.trans ((if_neg (known hjob)).trans (if_pos hst))),
      fun hjob hst hpast => State.command_answers ht (hbody.trans ((if_neg (known hjob)).trans ((if_neg hst).trans (if_pos hpast)))),
      fun hjob hst hin => State.command_answers ht (hbody.trans ((if_neg (known hjob)).trans ((if_neg hst).trans (if_neg (Nat.not_lt.mpr hin)))))⟩
  case gateway =>
    have hbody := bodyGatewaySet_of_params (s := t) (o := hdrOwed h 0x0508) (h := h) ⟨hlen, hport, henable, ⟨hmin, hmax⟩, hzero, ⟨hsmin, hsmax⟩, hzero', hworks⟩
    refine ⟨fun hon henabled => State.command_answers ht (hbody.trans (if_pos ⟨hon, henabled⟩)), fun hmay => ?_⟩
    have hfree : ¬ (uAt q 1 1 = 1 ∧ t.get F.GWY_CTL_enable (uAt q 0 1) = 1) := by
      rintro ⟨hon, henabled⟩
      rcases hmay with hoff | hclear
      · exact absurd (hoff.symm.trans hon) (by decide)
      · exact hclear henabled
    exact State.command_answers ht (hbody.trans (if_neg hfree))
  case peers =>
    have hbody := bodyPeerWrite_of_params (s := t) (o := hdrOwed h 0x0509) (h := h) ⟨⟨hmin, hmax⟩, hzero, hlen, hentries⟩
    exact ⟨fun hfull => State.command_answers ht (hbody.trans (if_pos hfull)),
      fun hroom => State.command_answers ht (hbody.trans (if_neg (Nat.not_lt.mpr hroom)))⟩

end Sys2Proof.Machine
end

section
/-! Gateways (R439, R440, R443, R444) and their transport (R446 to R449): the rows of a gateway port, and what each datagram does behind the checks of its
Ethernet frame. How connections are numbered and when they are ready (log 45), the window that is advertised (log 223) and the first round trip (log 224) are
the model's choice. -/

namespace Sys2Proof.Machine

section
variable {s : State} {n : Fin 36}

/-! Connections of a gateway port. -/

@[simp] theorem State.conn?_setConn (s : State) (p dev : Nat) (c : Conn) : (s.setConn p dev c).conn? p dev = some c := by
  simp [State.conn?, State.setConn]

theorem State.conn?_of_single {p dev : Nat} {c : Conn} (hconns : (s.gate p).conns = [(dev, c)]) : s.conn? p dev = some c := by
  simp [State.conn?, hconns, Tbl.find]

/-! Frames that leave, windows of stores and the read buffer (R439, R440, R443, R444). -/

/-- A frame leaves unless the port is a gateway whose connection to its device has 8 datagrams ready. -/
theorem exec_gatewayEgress_of_room {f : Frame} {l : List Frame} (hinq : (s.gate n).inq = f :: l)
    (hroom : s.gwRole n = false ∨ ∀ c, s.conn? n f.dstDev.toNat = some c → c.ready.length < 8) :
    exec (.gatewayEgress n) s = .next ((s.setGate n { s.gate n with inq := l }).egress n f) := by
  show execGatewayEgress n s = _
  simp only [execGatewayEgress, hinq]
  cases hconn : s.conn? n f.dstDev.toNat with
  | none => rfl
  | some c =>
    rcases hroom with hrole | hroom
    · simp [hrole]
    · simp [Nat.not_le.mpr (hroom c hconn)]

theorem exec_gatewayEgress_of_full {f : Frame} {l : List Frame} {c : Conn} (hinq : (s.gate n).inq = f :: l) (hrole : s.gwRole n = true)
    (hconn : s.conn? n f.dstDev.toNat = some c) (hfull : 8 ≤ c.ready.length) : exec (.gatewayEgress n) s = .next s := by
  show execGatewayEgress n s = _
  simp only [execGatewayEgress, hinq, hconn, hrole, decide_eq_true hfull, Bool.and_self, if_true]

theorem exec_wcWindowTimeout_of_due {w : WcWindow} (hwindows : (s.gate n).windows = [w])
    (hdue : w.first + usTicks (s.get F.GWY_WC_CFG_timeout_us n) ≤ s.datum) : exec (.wcWindowTimeout n) s =
      .next (w.frames.foldl (fun s f => (s.sentNow f).carry n f) ((s.setGate n { s.gate n with windows := [] }).bump F.GWY_WC_CNT_timeout n 0 1)) := by
  show execWcWindowTimeout n s = _
  simp only [execWcWindowTimeout, hwindows, List.filter_cons, State.elapsed_of_le hdue, if_true, List.filter_nil, List.foldl_cons, List.foldl_nil,
    State.flush, List.erase_cons_head]

theorem State.blockLive_eq (s : State) (p : Nat) (b : RbBlock) : s.blockLive p b =
    decide (0 < s.get F.GWY_WC_CFG_rb_hold_us p ∧ s.datum < b.at_ + usTicks (s.get F.GWY_WC_CFG_rb_hold_us p)) := by
  rw [Bool.eq_iff_iff]
  simp [State.blockLive, State.elapsed, Nat.pos_iff_ne_zero]

theorem exec_readBufferExpiry (s : State) (n : Fin 36) : exec (.readBufferExpiry n) s = .next (s.setGate n { s.gate n with
    blocks := (s.gate n).blocks.filter fun b =>
      decide (0 < s.get F.GWY_WC_CFG_rb_hold_us n ∧ s.datum < b.at_ + usTicks (s.get F.GWY_WC_CFG_rb_hold_us n)) }) := by
  show execReadBufferExpiry n s = _
  simp only [execReadBufferExpiry, funext (s.blockLive_eq n)]

/-! The Ethernet frame of a datagram (R412). -/

section
variable {d : Dgram}

theorem State.ethIn_of_badFcs (hup : s.portUp n = true) (hmode : s.get F.FPT_CTL_mode n = 1) (hmac : d.mac = .badFcs) (g : State → State) :
    s.ethIn n d.mac g = s.bump F.FPT_ETH_CNT_fcs_errors n 0 1 := by
  simp [State.ethIn, hup, hmode, hmac]

theorem State.ethIn_of_pause (hup : s.portUp n = true) (hmode : s.get F.FPT_CTL_mode n = 1) (hmac : d.mac = .pause) (g : State → State) :
    s.ethIn n d.mac g = s.bump F.FPT_ETH_CNT_pause_discarded n 0 1 := by
  simp [State.ethIn, hup, hmode, hmac]

/-- A datagram that a gateway port takes. -/
structure State.TakesDgram (s : State) (n : Fin 36) (d : Dgram) : Prop where
  up : s.portUp n = true
  mode : s.get F.FPT_CTL_mode n = 1
  role : s.gwRole n = true
  mac : d.mac = .taken

variable (takes : s.TakesDgram n d)
include takes

theorem State.ethIn_of_takes (g : State → State) : s.ethIn n d.mac g = g s := by
  simp [State.ethIn, takes.up, takes.mode, takes.role, takes.mac]

/-! DATA and ACK of an open connection (R447, R448). -/

section
variable {c : Conn} {dev : Nat} (hdev : d.connId.toNat = dev) (hconn : s.conn? n dev = some c) (hopen : c.open_ = true)
include hdev hconn hopen

/-- The connection has heard DATA: the time, the marks, and when the oldest unacknowledged arrival came. -/
def Conn.hears (c : Conn) (d : Dgram) (now : Nat) : Conn :=
  { c with rxSince := c.rxSince + 1, rxTime := d.txTime.toNat, rxAt := now, rxCe := c.rxCe + b2n d.ce, ackAt := if c.rxSince = 0 then now else c.ackAt }

/-- A packet number that the connection has had. -/
def Conn.had (c : Conn) (psn : Nat) : Bool := decide (psn < c.rxCum) || c.rxAbove.contains psn

variable {psn : Nat} (hpsn : psnFull c.rxCum d.psn.toNat = psn)
include hpsn

theorem exec_gatewayData_of_old (hold : c.had psn = true) : exec (.gatewayData n d) s =
    .next (if 4 ≤ c.rxSince + 1 then (s.setConn n dev (c.hears d s.datum)).gwAck n dev else s.setConn n dev (c.hears d s.datum)) := by
  refine congrArg Host.Outcome.next ((State.ethIn_of_takes takes _).trans ?_)
  unfold Conn.had at hold
  simp only [hdev, hconn, hpsn]
  rw [if_neg (by rw [hopen, hold]; exact Bool.false_ne_true)]
  simp only [hold, if_true]
  rfl

theorem exec_gatewayData_of_full (hnew : c.had psn = false) (hfull : s.gwFree n < sumOf d.frames cellsOf) : exec (.gatewayData n d) s = .next s := by
  refine congrArg Host.Outcome.next ((State.ethIn_of_takes takes _).trans ?_)
  unfold Conn.had at hnew
  simp only [hdev, hconn, hpsn]
  have hfull' : s.gwFree n < dgramCells d.frames := hfull
  rw [if_pos (by rw [hopen, hnew, decide_eq_true hfull']; rfl)]

theorem exec_gatewayData_of_room (hnew : c.had psn = false) (hroom : sumOf d.frames cellsOf ≤ s.gwFree n) :
    let a := psnAdvance (c.rxAbove.length + 1) c.rxCum (c.rxAbove ++ [psn])
    let u := d.frames.foldl (fun s f => s.gwFrame n f)
      (s.setConn n dev { c.hears d s.datum with rxCum := a.1, rxAbove := a.2, promised := c.promised - sumOf d.frames cellsOf })
    exec (.gatewayData n d) s = .next (if 4 ≤ c.rxSince + 1 then u.gwAck n dev else u) := by
  refine congrArg Host.Outcome.next ((State.ethIn_of_takes takes _).trans ?_)
  unfold Conn.had at hnew
  simp only [hdev, hconn, hpsn]
  have hroom' : ¬ s.gwFree n < dgramCells d.frames := Nat.not_lt.mpr hroom
  rw [if_neg (by rw [hopen, hnew, decide_eq_false hroom']; exact Bool.false_ne_true)]
  simp only [hnew, Bool.false_eq_true, if_false]
  rfl

end

/-- The flights that an ACK names: up to its cumulative number, or within one of its ranges. -/
def acksFlight (d : Dgram) (x : Flight) : Bool :=
  decide ((d.cumAck.toNat + 2 ^ 32 - x.psn % 2 ^ 32) % 2 ^ 32 - 1 < 2 ^ 31 - 1 ∧ d.cumAck.toNat ≠ x.psn % 2 ^ 32) ||
    d.ranges.any fun r => decide (r.1.toNat ≤ x.psn % 2 ^ 32 ∧ x.psn % 2 ^ 32 ≤ r.2.toNat)

theorem exec_gatewayAck_of_single {c : Conn} {dev : Nat} (hdev : d.connId.toNat = dev) (hconn : s.conn? n dev = some c) (hopen : c.open_ = true)
    {x : Flight} (hflights : c.flights = [x]) (hacks : acksFlight d x = true) :
    let y := c.sample s.datum ((s.datum % 2 ^ 32 + 2 ^ 32 - d.echoTime.toNat) % 2 ^ 32 - d.delay.toNat)
    exec (.gatewayAck n d) s = .next (s.setConn n dev { y with
      flights := [], delivered := y.delivered + 1, ceSeen := d.ceCount.toNat, window := d.window.toNat,
      ce := y.ce + if c.version = 2 then (d.ceCount.toNat + 2 ^ 32 - c.ceSeen) % 2 ^ 32 else 0 }) := by
  refine congrArg Host.Outcome.next ((State.ethIn_of_takes takes _).trans ?_)
  unfold acksFlight at hacks
  simp only [hdev, hconn, hopen, hflights, List.filter_cons, hacks, Bool.not_true, Bool.false_eq_true, if_true, if_false, List.filter_nil]
  rfl

/-! HELLO, HELLO_ACK and CLOSE (R446). -/

section
variable {who : Nat} (hwho : d.dev.toNat = who)
include hwho

theorem exec_hello_of_noVersion (hpeer : s.peers.has who = true) (hnone : commonVersion d.versions.toNat (s.peerVersions who) = none) :
    exec (.hello n d) s = .next (s.event { code := .gatewayVersion, unit := n, params := [who] }) := by
  refine congrArg Host.Outcome.next ((State.ethIn_of_takes takes _).trans ?_)
  simp only [hwho, hpeer, hnone, Bool.not_true, Bool.false_eq_true, if_false]

/-- The connection as a HELLO of version v opens it, with no number received. -/
def Conn.opened (c : Conn) (d : Dgram) (v : Nat) : Conn :=
  { c with version := v, open_ := true, remoteId := d.connId.toNat, window := d.window.toNat, rxCum := 0, rxAbove := [], rxSince := 0, rxCe := 0 }

theorem exec_hello_of_known {v : Nat} {c : Conn} (hpeer : s.peers.has who = true) (hv : commonVersion d.versions.toNat (s.peerVersions who) = some v)
    (hconn : s.conn? n who = some c) : exec (.hello n d) s = .next ((s.setConn n who (c.opened d v)).dgram n who 4 (c.opened d v) 0 false []) := by
  refine congrArg Host.Outcome.next ((State.ethIn_of_takes takes _).trans ?_)
  simp only [hwho, hpeer, hv, hconn, Bool.not_true, Bool.false_eq_true, if_false]
  rfl

/-- A peer without a connection gets one. -/
theorem exec_hello_of_new {v : Nat} (hpeer : s.peers.has who = true) (hv : commonVersion d.versions.toNat (s.peerVersions who) = some v)
    (hconn : s.conn? n who = none) :
    let c := Conn.fresh s.datum (s.get F.GWY_XPORT_CFG_start n)
    exec (.hello n d) s = .next (((s.setConn n who c).setConn n who (c.opened d v)).dgram n who 4 (c.opened d v) 0 false []) := by
  refine congrArg Host.Outcome.next ((State.ethIn_of_takes takes _).trans ?_)
  simp only [hwho, hpeer, hv, hconn, State.conn?_setConn, Bool.not_true, Bool.false_eq_true, if_false]
  rfl

section
variable {c : Conn} (hconn : s.conn? n who = some c) (hclosed : c.open_ = false)
include hconn hclosed

theorem exec_helloAck_of_noVersion (hnone : commonVersion d.versions.toNat (s.peerVersions who) = none) :
    exec (.helloAck n d) s = .next ((s.connLost n who).event { code := .gatewayVersion, unit := n, params := [who] }) := by
  refine congrArg Host.Outcome.next ((State.ethIn_of_takes takes _).trans ?_)
  simp only [hwho, hconn, hclosed, hnone, Bool.false_eq_true, if_false]

theorem exec_helloAck_of_version {v : Nat} (hv : commonVersion d.versions.toNat (s.peerVersions who) = some v) : exec (.helloAck n d) s =
    .next (s.setConn n who { c with version := v, open_ := true, remoteId := d.connId.toNat, window := d.window.toNat, nextSend := s.datum }) := by
  refine congrArg Host.Outcome.next ((State.ethIn_of_takes takes _).trans ?_)
  simp only [hwho, hconn, hclosed, hv, Bool.false_eq_true, if_false]

end

end

theorem exec_closeMsg_of_conn {dev : Nat} (hdev : d.connId.toNat = dev) {c : Conn} (hconn : s.conn? n dev = some c) : exec (.closeMsg n d) s =
    .next ((s.setGate n { s.gate n with conns := (s.gate n).conns.del dev }).bump F.GWY_DISC_CNT_conn_lost n 0
      (sumOf c.flights (fun x => x.frames.length) + sumOf c.ready fun l => l.length)) := by
  refine congrArg Host.Outcome.next ((State.ethIn_of_takes takes _).trans ?_)
  simp only [State.connLost, hdev, hconn]

end

/-! The timers of a connection (R447 to R449). -/

section
variable {dev : Nat} {c : Conn}

theorem exec_gatewayAckTimer_of_due (hconns : (s.gate n).conns = [(dev, c)]) (hheard : 0 < c.rxSince) (hdue : c.ackAt + usTicks 8 ≤ s.datum) :
    exec (.gatewayAckTimer n) s = .next (s.gwAck n dev) := by
  show execGatewayAckTimer n s = _
  simp only [execGatewayAckTimer, hconns, List.filter_cons, decide_eq_true hheard, State.elapsed_of_le hdue, Bool.and_self, if_true, List.filter_nil,
    List.foldl_cons, List.foldl_nil]

section
variable {psn : Nat} {x : Flight} (hconn : s.conn? n dev = some c) (hx : (c.flights.find? fun y => y.psn == psn) = some x)
  (hdue : x.sent + s.rto n c x.expiries ≤ s.datum)
include hconn hx hdue

theorem exec_retransmissionTimeout_of_again (hleft : x.expiries < 7) :
    let y : Flight := { x with expiries := x.expiries + 1 }
    exec (.retransmissionTimeout n dev psn) s =
      .next (s.resendFlight n dev { c with flights := c.flights.map fun z => if z.psn = psn then y else z } y) := by
  have hmay : ¬ 8 ≤ x.expiries + 1 := by omega
  show execRetransmissionTimeout n dev psn s = _
  simp only [execRetransmissionTimeout, hconn, hx, State.elapsed_of_le hdue, if_neg hmay, Bool.not_true, Bool.false_eq_true, if_false]

/-- The eighth expiry loses the peer. -/
theorem exec_retransmissionTimeout_of_lost (hspent : 7 ≤ x.expiries) : exec (.retransmissionTimeout n dev psn) s =
    .next ((s.connLost n dev).event { code := .gatewayPeerLost, unit := n, params := [dev] }) := by
  have hlast : 8 ≤ x.expiries + 1 := by omega
  show execRetransmissionTimeout n dev psn s = _
  simp only [execRetransmissionTimeout, hconn, hx, State.elapsed_of_le hdue, if_pos hlast, Bool.not_true, Bool.false_eq_true, if_false]

end

theorem exec_rateAdjust_of_round (hconn : s.conn? n dev = some c) (hopen : c.open_ = true) (hsrtt : c.srtt ≠ 0) (hround : c.roundEnd ≤ s.datum) :
    exec (.rateAdjust n dev) s = .next (s.setConn n dev { c with
      rate := c.adjust s.datum (s.get F.GWY_XPORT_CFG_delay_target_us n) (s.get F.GWY_XPORT_CFG_step n), ce := 0, delivered := 0, retrans := false,
      roundEnd := s.datum + c.srtt }) := by
  have hends : (!c.open_ || c.srtt == 0 || decide (s.datum < c.roundEnd)) = false := by
    rw [hopen, beq_false_of_ne hsrtt, decide_eq_false (Nat.not_lt.mpr hround)]
    rfl
  show execRateAdjust n dev s = _
  simp only [execRateAdjust, hconn, hends, Bool.false_eq_true, if_false]

section
variable (hrole : s.gwRole n = true) (hconns : (s.gate n).conns = [(dev, c)])
include hrole hconns

theorem exec_datagramSend_of_ready (hmay : c.maySend s.datum = true) :
    exec (.datagramSend n) s = .next ((s.setGate n { s.gate n with rr := dev }).sendReady n dev c) := by
  have hnext : nextAfter (s.gate n).rr (((s.gate n).conns.sel fun _ c => c.maySend s.datum).keys) = some dev := by
    simp [hconns, Tbl.sel, Tbl.keys, hmay, nextAfter, sortBy, insertBy]
  show execDatagramSend n s = _
  simp only [execDatagramSend, hrole, hnext, State.conn?_of_single hconns, Bool.not_true, Bool.false_eq_true, if_false]

/-- A connection that is not open repeats its HELLO. -/
theorem exec_datagramSend_of_closed (hmay : c.maySend s.datum = false) (hclosed : c.open_ = false) (hdue : c.helloAt + s.rto n c 0 ≤ s.datum) :
    exec (.datagramSend n) s = .next ((s.setConn n dev { c with helloAt := s.datum }).dgram n dev 3
      { c with version := if bitOf (s.peerVersions dev) 2 then 2 else 1 } 0 false []) := by
  have hnext : nextAfter (s.gate n).rr (((s.gate n).conns.sel fun _ c => c.maySend s.datum).keys) = none := by
    simp [hconns, Tbl.sel, Tbl.keys, hmay, nextAfter, sortBy]
  have hhello : ((s.gate n).conns.sel fun _ c => !c.open_ && s.elapsed c.helloAt (s.rto n c 0)).head? = some (dev, c) := by
    simp [hconns, Tbl.sel, hclosed, State.elapsed_of_le hdue]
  show execDatagramSend n s = _
  simp only [execDatagramSend, hrole, hnext, hhello, Bool.not_true, Bool.false_eq_true, if_false]
  rfl

end

end

end

/-- Settles O40: each row by its own equation, a datagram by what its Ethernet frame lets through. -/
theorem gatewayTransport : Obligations.GatewayTransport := by
  refine ⟨fun s n f l w => ?port, fun s n d c dev psn => ?transport⟩
  case port =>
    exact ⟨fun hinq hrole => exec_gatewayEgress_of_room hinq (Or.inl hrole), fun hinq _ hroom => exec_gatewayEgress_of_room hinq (Or.inr hroom),
      fun c hinq hrole hconn hfull => exec_gatewayEgress_of_full hinq hrole hconn hfull, fun hwindows hdue => exec_wcWindowTimeout_of_due hwindows hdue,
      exec_readBufferExpiry s n⟩
  case transport =>
    intro id who full old a heard fresh eth dg all low done
    have takes : dg → s.TakesDgram n d := fun ⟨⟨hup, hmode⟩, hrole, hmac⟩ => ⟨hup, hmode, hrole, hmac⟩
    have each : ∀ u : State, (∀ g : State → State, s.ethIn n d.mac g = u) → all (.next u) := fun u h =>
      ⟨congrArg Host.Outcome.next (h _), congrArg Host.Outcome.next (h _), congrArg Host.Outcome.next (h _), congrArg Host.Outcome.next (h _),
        congrArg Host.Outcome.next (h _)⟩
    refine ⟨fun heth => ⟨fun hmac => each _ (State.ethIn_of_badFcs heth.1 heth.2 hmac), fun hmac => each _ (State.ethIn_of_pause heth.1 heth.2 hmac)⟩,
      fun hdg hconn hopen => ⟨fun hold => exec_gatewayData_of_old (takes hdg) (dev := id) rfl hconn hopen (psn := full) rfl hold,
        fun hnew hfull => exec_gatewayData_of_full (takes hdg) (dev := id) rfl hconn hopen (psn := full) rfl hnew hfull,
        fun hnew hroom => exec_gatewayData_of_room (takes hdg) (dev := id) rfl hconn hopen (psn := full) rfl hnew hroom,
        fun x hflights hacks => exec_gatewayAck_of_single (takes hdg) (dev := id) rfl hconn hopen hflights hacks⟩,
      fun hdg hpeer => ⟨fun hnone => exec_hello_of_noVersion (takes hdg) (who := who) rfl hpeer hnone,
        fun v hv => ⟨fun hconn => exec_hello_of_known (takes hdg) (who := who) rfl hpeer hv hconn,
          fun hconn => exec_hello_of_new (takes hdg) (who := who) rfl hpeer hv hconn⟩⟩,
      fun hdg hconn hclosed => ⟨fun hnone => exec_helloAck_of_noVersion (takes hdg) (who := who) rfl hconn hclosed hnone,
        fun v hv => exec_helloAck_of_version (takes hdg) (who := who) rfl hconn hclosed hv⟩,
      fun hdg hconn => exec_closeMsg_of_conn (takes hdg) (dev := id) rfl hconn,
      fun hconns hheard hdue => exec_gatewayAckTimer_of_due hconns hheard hdue,
      fun x hconn hx hdue => ⟨fun hleft => exec_retransmissionTimeout_of_again hconn hx hdue hleft,
        fun hspent => exec_retransmissionTimeout_of_lost hconn hx hdue hspent⟩,
      fun hconn hopen hsrtt hround => exec_rateAdjust_of_round hconn hopen hsrtt hround,
      fun hrole hconns hmay => exec_datagramSend_of_ready hrole hconns hmay,
      fun hrole hconns hmay hclosed hdue => exec_datagramSend_of_closed hrole hconns hmay hclosed hdue⟩

end Sys2Proof.Machine
end

section
/-! Commands on the device itself (R452 to R454, R464 to R469, R560), with good parameters. That REG_WRITE where no register stands replies OK (log 237), the
width of the count that DEVICE_RESET answers (log 46) and the wait before the reset (log 306) are the model's choice. -/

namespace Sys2Proof.Machine

section
variable {s : State} {o : Owed} {h : CmdHdr} {q : List Byte}

/-! NOP and DEVICE_INFO (R465). -/

theorem bodyNop_of_empty (hlen : q.length = 0) : bodyNop s o h q = (s, .ok) := by
  simp [bodyNop, firstFail, lenIs, hlen]

theorem bodyNop_of_nonempty (hlen : q.length ≠ 0) : bodyNop s o h q = (s, .bad 2) := by
  simp [bodyNop, firstFail, lenIs, hlen]

theorem bodyDeviceInfo_of_empty (hlen : q.length = 0) : bodyDeviceInfo s o h q = (s, .data (leBytes 8 s.chtId.toNat ++
    leBytes 8 (s.chtStatus s.chtDie).toNat ++ ((List.range 32).flatMap fun c => leBytes 1 (s.enabledCores c)) ++ s.levelRecord)) := by
  unfold bodyDeviceInfo
  simp only [firstFail, lenIs, hlen, beq_self_eq_true, if_true]

/-! REG_WRITE (R466): the address, then who may write the register, then the write. -/

/-- The write of the register at the place, if one stands there (log 237). -/
def State.placeWritten (s : State) (q : List Byte) : Option RegId → State
  | some r => s.regWrite r (BitVec.ofNat 64 (uAt q 8 8)) none false
  | none => s

section
variable (hlen : q.length = 16) (halign : uAt q 0 8 % 8 = 0)
include hlen halign

theorem bodyRegWrite_of_outside (hout : uAt q 0 8 < 0x30000000000 ∨ 0x3001B000000 ≤ uAt q 0 8) : bodyRegWrite s o h q = (s, .st .addressRange) := by
  have hplace : regPlace (uAt q 0 8) = none := if_neg fun ⟨hlow, hhigh⟩ => by omega
  unfold bodyRegWrite
  simp only [firstFail, lenIs, hlen, halign, hplace, beq_self_eq_true, if_true]

section
variable (hlow : 0x30000000000 ≤ uAt q 0 8) (hhigh : uAt q 0 8 < 0x3001B000000) {off b : Nat} {id : Option RegId}
  (hoff : uAt q 0 8 - 0x30000000000 = off) (hblock : off / 2 ^ 24 = b) (hid : regAt b (off / 2 ^ 16 % 256) (off % 2 ^ 16) = id)
include hlow hhigh hoff hblock hid

theorem bodyRegWrite_of_inside : bodyRegWrite s o h q =
    if regWriteDenied b id then (s, .st .accessDenied) else (s.placeWritten q id, .ok) := by
  subst hoff hblock
  have hplace : regPlace (uAt q 0 8) = _ := if_pos ⟨hlow, hhigh⟩
  unfold bodyRegWrite
  simp only [firstFail, lenIs, hlen, halign, hplace, beq_self_eq_true, if_true, hid]
  cases id <;> rfl

end

end

/-! CHARTROOM_FAILOVER (R468). -/

theorem bodyChartroomFailover_of_noStandby (hlen : q.length = 0) (hrole : s.role (1 - s.chtDie) ≠ .standby) :
    bodyChartroomFailover s o h q = (s, .st .levelUnavailable) := by
  unfold bodyChartroomFailover State.standbyWorks
  simp only [firstFail, lenIs, hlen, beq_self_eq_true, beq_false_of_ne hrole, Bool.false_eq_true, if_true, if_false]

theorem bodyChartroomFailover_of_standby (hlen : q.length = 0) (hrole : s.role (1 - s.chtDie) = .standby) :
    bodyChartroomFailover s o h q = (s.takeover 3, .ok) := by
  unfold bodyChartroomFailover State.standbyWorks
  simp only [firstFail, lenIs, hlen, beq_self_eq_true, hrole, if_true]

/-! DEVICE_RESET and its beginning (R469, R560). -/

theorem bodyDeviceReset_of_now (hlen : q.length = 8) (hzero : uAt q 1 7 = 0) (hmode : uAt q 0 1 = 0) :
    bodyDeviceReset s o h q = ({ s with cht := { s.cht with resetAt := some s.datum } }, .ok) := by
  unfold bodyDeviceReset
  simp only [firstFail, lenIs, zeros, hlen, hzero, hmode, beq_self_eq_true, Nat.zero_le, decide_true, if_true]

/-- With no job ON, mode 1 has nothing to stop before the reset that it owes. -/
theorem bodyDeviceReset_of_noJobs (hlen : q.length = 8) (hzero : uAt q 1 7 = 0) (hmode : uAt q 0 1 = 1) (hjobs : ∀ e ∈ s.jobs, e.2.life.st ≠ .on) :
    bodyDeviceReset s o h q = ({ s with cht := { s.cht with resetOwed := some (o, 0) } }, .later true) := by
  have hnone : (s.jobs.sel fun _ x => x.life.st == .on) = [] := List.filter_eq_nil_iff.mpr fun e he => by simpa using hjobs e he
  unfold bodyDeviceReset
  simp only [firstFail, lenIs, zeros, hlen, hzero, hmode, hnone, beq_self_eq_true, Nat.le_refl, decide_true, if_true, Nat.one_ne_zero, if_false]
  rfl

theorem exec_deviceResetBegin_of_due {a : Nat} (hat : s.cht.resetAt = some a) (hdue : a + msTicks 1 ≤ s.datum) (hnone : s.noneStopping = true) :
    exec .deviceResetBegin s = .next s.deviceReset := by
  show execDeviceResetBegin s = _
  simp only [execDeviceResetBegin, hat, State.elapsed_of_le hdue, hnone, Bool.and_self, if_true]

theorem exec_deviceResetBegin_of_owed {k : Nat} (hat : s.cht.resetAt = none) (howed : s.cht.resetOwed = some (o, k))
    (hjobs : ∀ e ∈ s.jobs, e.2.life.st ≠ .stopping) : exec .deviceResetBegin s = .next (s.final o .ok noDetail (leBytes 4 k)).deviceReset := by
  have hnone : (s.jobs.any fun e => e.2.life.st == .stopping) = false :=
    List.any_eq_false.mpr fun e he => mt beq_iff_eq.mp (hjobs e he)
  show execDeviceResetBegin s = _
  simp only [execDeviceResetBegin, hat, howed, hnone, Bool.false_eq_true, if_false]

end

/-- Settles O41: each command by what its body does with good parameters. -/
theorem deviceCommands : Obligations.DeviceCommands := by
  intro s h p t q a ans
  refine ⟨fun ht => ⟨fun hlen => ?nop, fun hlen => ?nopBad⟩, fun ht hlen => ?info, fun ht hlen halign => ⟨fun hout => ?outside, fun hlow hhigh => ?inside⟩,
    fun ht hlen => ⟨fun hrole => ?noStandby, fun hrole => ?standby⟩, fun ht hlen hzero => ⟨fun hmode => ?now, fun hmode hjobs => ?noJobs⟩,
    fun a hat hdue hnone => exec_deviceResetBegin_of_due hat hdue hnone, fun o k hat howed hjobs => exec_deviceResetBegin_of_owed hat howed hjobs⟩
  case nop => exact State.command_answers ht (bodyNop_of_empty hlen)
  case nopBad => exact State.command_answers ht (bodyNop_of_nonempty hlen)
  case info => exact State.command_answers ht (bodyDeviceInfo_of_empty hlen)
  case outside => exact State.command_answers ht (bodyRegWrite_of_outside hlen halign hout)
  case inside =>
    intro off b id
    have hbody := bodyRegWrite_of_inside (s := t) (o := hdrOwed h 0x0102) (h := h) (q := q) hlen halign hlow hhigh (off := off) (b := b) (id := id) rfl rfl rfl
    refine ⟨fun hdenied => State.command_answers ht (hbody.trans (if_pos hdenied)), fun hopen hid => ?_, fun r hopen hid => ?_⟩
    · exact State.command_answers ht (hbody.trans (by rw [hopen, hid]; rfl))
    · exact State.command_answers ht (hbody.trans (by rw [hopen, hid]; rfl))
  case noStandby => exact State.command_answers ht (bodyChartroomFailover_of_noStandby hlen hrole)
  case standby => exact State.command_answers ht (bodyChartroomFailover_of_standby hlen hrole)
  case now => exact State.command_answers ht (bodyDeviceReset_of_now hlen hzero hmode)
  case noJobs => exact State.command_answers ht (bodyDeviceReset_of_noJobs hlen hzero hmode hjobs)

end Sys2Proof.Machine
end

section
/-! Telemetry (R461 to R463), the heartbeat of the Chartroom (R454) and the registers of a ring pair (R473, R474). The bytes that the hubs moved and the level
before the first sample are free values of the model (log 234); that a read counts every record that was overwritten, read or not, is its choice (log 235). -/

namespace Sys2Proof.Machine

section
variable {s : State} {o : Owed} {h : CmdHdr} {q : List Byte}

/-! TELEMETRY_SET, TELEMETRY_READ and LEVEL_READ (R461 to R463). -/

theorem bodyTelemetrySet_of_interval (hlen : q.length = 4) (hint : uAt q 0 4 = 0 ∨ (10 ≤ uAt q 0 4 ∧ uAt q 0 4 ≤ 1000000)) :
    bodyTelemetrySet s o h q = ({ s.set F.CHT_TELEM_sample_us s.chtDie 0 (uAt q 0 4) with cht := { s.cht with lastSample := s.datum } }, .ok) := by
  unfold bodyTelemetrySet
  simp only [firstFail, lenIs, hlen, decide_eq_true hint, beq_self_eq_true, if_true]

/-- A source that has read every record keeps its cursor, and learns what was lost. -/
theorem bodyTelemetryRead_of_read {src : Source} {x : SrcState} {lost : Nat} {r : TelemRec} {l : List TelemRec} (hlen : q.length = 0)
    (hsrc : s.trueSrc o.src = src) (hx : s.src src = x) (hlost : s.cht.telemSeq - s.cht.telem.length = lost) (hread : ∀ r ∈ s.cht.telem, r.seq < x.telem)
    (htelem : s.cht.telem = r :: l) :
    bodyTelemetryRead s o h q = (s.setSrc src { x with telemLost := lost }, .data (leBytes 4 (lost - x.telemLost) ++ leBytes 4 0)) := by
  have hnone : (s.cht.telem.filter fun r => decide (x.telem ≤ r.seq)) = [] :=
    List.filter_eq_nil_iff.mpr fun e he => by simpa using hread e he
  have hcur : max x.telem r.seq = x.telem := Nat.max_eq_left (Nat.le_of_lt (hread r (htelem ▸ List.mem_cons_self)))
  unfold bodyTelemetryRead
  simp only [firstFail, lenIs, hlen, beq_self_eq_true, if_true, hsrc, hx, hlost, hnone, fitRecs, List.getLast?_nil, List.flatMap_nil, List.append_nil]
  simp only [htelem, List.head?_cons, hcur]

/-- A source that has not read the one record gets it, if it fits. -/
theorem bodyTelemetryRead_of_single {src : Source} {x : SrcState} {lost : Nat} {r : TelemRec} (hlen : q.length = 0) (hsrc : s.trueSrc o.src = src)
    (hx : s.src src = x) (hlost : s.cht.telemSeq - s.cht.telem.length = lost) (htelem : s.cht.telem = [r]) (hnew : x.telem ≤ r.seq)
    (hfits : r.bytes.length ≤ 4088) : bodyTelemetryRead s o h q =
      (s.setSrc src { x with telem := r.seq + 1, telemLost := lost }, .data (leBytes 4 (lost - x.telemLost) ++ leBytes 4 0 ++ r.bytes)) := by
  have hone : (s.cht.telem.filter fun r => decide (x.telem ≤ r.seq)) = [r] := by
    rw [htelem, List.filter_cons, if_pos (decide_eq_true hnew), List.filter_nil]
  unfold bodyTelemetryRead
  simp only [firstFail, lenIs, hlen, beq_self_eq_true, if_true, hsrc, hx, hlost, hone, fitRecs, if_pos hfits, List.getLast?_singleton, List.flatMap_cons,
    List.flatMap_nil, List.append_nil]

theorem bodyLevelRead_of_sampled (hlen : q.length = 0) (hlevel : s.cht.level ≠ []) : bodyLevelRead s o h q = (s, .data s.cht.level) := by
  have hsome : s.cht.level.isEmpty = false := by simpa using hlevel
  unfold bodyLevelRead
  simp only [firstFail, lenIs, hlen, hsome, beq_self_eq_true, Bool.false_eq_true, if_true, if_false]

theorem bodyLevelRead_of_unsampled (hlen : q.length = 0) (hlevel : s.cht.level = []) :
    bodyLevelRead s o h q = (s.draw, .data ((List.range 64).map (Config.freeByte s.free))) := by
  unfold bodyLevelRead
  simp only [firstFail, lenIs, hlen, hlevel, beq_self_eq_true, List.isEmpty_nil, if_true, State.freeBytes]

/-! The level sample (R461). -/

/-- The body of a level record over the native ports and the gateways that are up. -/
def State.levelBody (s : State) : List Byte :=
  let nat := (List.range 36).filter fun k => s.portUp k && s.native k
  let gws := (List.range 36).filter s.gwRole
  let tx := fun l : List Nat => sumOf l fun k => s.sw.txBytes.getD k 0 - s.cht.base.tx.getD k 0
  let stall := sumOf nat fun k => s.sw.stallUs.getD k 0 - s.cht.base.stall.getD k 0
  let again := sumOf (List.range 36) fun k => s.get F.GWY_DGRAM_CNT_retransmitted k
  let queued := gws.foldl (fun c k => max c (sumOf (List.range 8) (s.outCells k))) 0
  leBytes 8 (Config.freeWord s.free).toNat ++ leBytes 8 (tx nat) ++ leBytes 8 (tx gws) ++
    leBytes 4 ((s.datum - s.cht.lastSample) / 1000) ++ leBytes 4 stall ++ leBytes 4 queued ++ leBytes 4 (again - s.cht.base.again) ++
    leBytes 1 nat.length ++ leBytes 1 gws.length ++ List.replicate 6 0

theorem exec_levelSample_of_due (hon : s.get F.CHT_TELEM_sample_us s.chtDie ≠ 0)
    (hdue : s.cht.lastSample + usTicks (s.get F.CHT_TELEM_sample_us s.chtDie) ≤ s.datum) (hactive : s.chtActive = true) :
    let again := sumOf (List.range 36) fun k => s.get F.GWY_DGRAM_CNT_retransmitted k
    let u := s.draw.telemetry 2 s.levelBody
    exec .levelSample s = .next { u with cht := { u.cht with
      lastSample := u.datum
      base := ⟨u.sw.txBytes, u.sw.stallUs, again⟩
      level := match u.cht.telem.getLast? with
        | some r => r.bytes
        | none => [] } } := by
  refine congrArg Host.Outcome.next (if_neg ?_)
  rw [State.elapsed_of_le hdue, hactive]
  simpa using hon

/-! The heartbeat and the takeover (R454). -/

theorem exec_chartroomHeartbeat_of_due (hactive : s.chtActive = true) (hdue : s.cht.beat + usTicks 100 ≤ s.datum)
    (hworks : s.dieDead (dieCh s.chtDie) = false) : exec .chartroomHeartbeat s =
      .next { s with cht := { s.cht with beat := s.datum, heard := if s.role (1 - s.chtDie) = .standby then s.datum else s.cht.heard } } := by
  refine congrArg Host.Outcome.next ((if_pos ?_).trans ?_)
  · rw [hactive, State.elapsed_of_le hdue, hworks]
    rfl
  · simp only [State.standbyWorks, beq_iff_eq]

theorem exec_heartbeatTimeout_of_silent (hactive : s.chtActive = true) (hstandby : s.role (1 - s.chtDie) = .standby)
    (hsilent : s.cht.heard + usTicks (max 200 (s.get F.CHT_CTL_hb_timeout_us s.chtDie)) ≤ s.datum) : exec .heartbeatTimeout s = .next (s.takeover 1) := by
  refine congrArg Host.Outcome.next (if_pos ?_)
  rw [hactive, State.standbyWorks, hstandby, State.elapsed_of_le hsilent]
  rfl

end

/-! The registers of a ring pair (R473, R474). -/

section
variable {s : State} {die : Fin 2} {n : Fin 16} {w : Word}

theorem exec_chtRingCfg_of_enable (hoff : s.ringOn die n = false) (hon : w.getLsbD 0 = true) :
    let m := s.set F.CHT_RING_CFG_vector die n (fld w 12 8)
    let u := ((m.set F.CHT_RING_CFG_enable die n 1).setReg ⟨.CHT_RING_DB, die, n⟩ 0).setReg ⟨.CHT_RING_STATUS, die, n⟩ 0
    exec (.chtRingCfg die n w) s = .next (u.setSrc (.ring die n) { u.src (.ring die n) with expected := none, kept := [] }) := by
  refine congrArg Host.Outcome.next ((if_pos ?_).trans rfl)
  rw [hoff, hon]
  rfl

theorem exec_chtRingCfg_of_same (hsame : s.ringOn die n = w.getLsbD 0) :
    exec (.chtRingCfg die n w) s = .next (s.set F.CHT_RING_CFG_vector die n (fld w 12 8)) := by
  refine congrArg Host.Outcome.next ((if_neg ?_).trans (if_neg ?_))
  · rw [hsame, Bool.not_and_self]
    exact Bool.false_ne_true
  · rw [hsame, Bool.and_not_self]
    exact Bool.false_ne_true

theorem exec_chtRingCfg_of_disable (hon : s.ringOn die n = true) (hoff : w.getLsbD 0 = false) :
    exec (.chtRingCfg die n w) s = .next (((s.set F.CHT_RING_CFG_vector die n (fld w 12 8)).ringOff die n).set F.CHT_RING_CFG_enable die n 0) := by
  refine congrArg Host.Outcome.next ((if_neg ?_).trans (if_pos ?_))
  · rw [hon, hoff]
    exact Bool.false_ne_true
  · rw [hon, hoff]
    rfl

/-- With no reply held back, the head of the reply ring is all that changes. -/
theorem exec_replyHead_of_noneHeld {v : BitVec 32} (hheld : s.cht.held = []) :
    exec (.replyHead die n v) s = .next (s.set F.CHT_RING_DB_reply_head die n v.toNat) := by
  have hheld' : (s.set F.CHT_RING_DB_reply_head die n v.toNat).cht.held = [] := hheld
  show execReplyHead die n v s = _
  simp only [execReplyHead, State.replyHead, hheld', List.foldl_nil]

end

/-- Settles O42: each command and row by its own equation. -/
theorem telemetryAndRings : Obligations.TelemetryAndRings := by
  intro s h p die n w v t q ans o x lost m
  exact ⟨fun ht hlen hint => State.command_answers ht (bodyTelemetrySet_of_interval hlen hint),
    fun ht hlen hread r l htelem => State.command_answers ht (bodyTelemetryRead_of_read hlen rfl rfl rfl hread htelem),
    fun r ht hlen htelem hnew hfits => State.command_answers ht (bodyTelemetryRead_of_single hlen rfl rfl rfl htelem hnew hfits),
    fun ht hlen => ⟨fun hlevel => State.command_answers ht (bodyLevelRead_of_sampled hlen hlevel),
      fun hlevel => State.command_answers ht (bodyLevelRead_of_unsampled hlen hlevel)⟩,
    fun hon hdue hactive => exec_levelSample_of_due hon hdue hactive,
    fun hactive hdue hworks => exec_chartroomHeartbeat_of_due hactive hdue hworks,
    fun hactive hstandby hsilent => exec_heartbeatTimeout_of_silent hactive hstandby hsilent,
    fun hoff hon => exec_chtRingCfg_of_enable hoff hon, fun hsame => exec_chtRingCfg_of_same hsame,
    fun hon hoff => exec_chtRingCfg_of_disable hon hoff, rfl, fun hheld => exec_replyHead_of_noneHeld hheld⟩

end Sys2Proof.Machine
end

section
/-! A parameter that comes in parts (R465): what one good part does to the parts that the device keeps. -/

namespace Sys2Proof.Machine

section
variable {s : State} {op : Nat} {src : Source} {q : List Byte} {mine : Parts → Bool}

/-- A part that the device takes, among the parts that are `mine` (Table 17.8): its fields hold, and it is of the same whole. -/
structure State.PartFits (s : State) (mine : Parts → Bool) (q : List Byte) : Prop where
  total : uAt q 0 4 ≤ 65536
  length : q.length = 16 + uAt q 8 4
  zero : uAt q 12 4 = 0
  same : ∀ y, s.sec.parts.find? mine = some y → y.total = uAt q 0 4

/-- The bytes that came before. -/
def State.partData (s : State) (mine : Parts → Bool) : List Byte := ((s.sec.parts.find? mine).map Parts.data).getD []

def State.setParts (s : State) (l : List Parts) : State := { s with sec := { s.sec with parts := l } }

theorem State.takePart_of_fits (hmine : (fun x : Parts => x.src == src && x.op == op) = mine) (g : s.PartFits mine q) :
    let had := s.partData mine
    let rest := s.sec.parts.filter fun x => !mine x
    s.takePart op src q = if uAt q 4 4 ≠ had.length ∨ uAt q 0 4 < uAt q 4 4 + uAt q 8 4 then (s.setParts rest, .error (.st .partOrder))
      else if (had ++ q.drop 16).length = uAt q 0 4 then (s.setParts rest, .ok (had ++ q.drop 16))
      else (s.setParts (⟨src, op, uAt q 0 4, had ++ q.drop 16⟩ :: rest), .error .ok) := by
  subst hmine
  obtain ⟨htotal, hlen, hzero, hsame⟩ := g
  have hlong : 16 ≤ q.length := hlen ▸ Nat.le_add_right _ _
  unfold State.takePart State.partData
  simp only [firstFail, decide_eq_true hlong, decide_eq_true htotal, beq_iff_eq.mpr hlen, zeros, hzero, beq_self_eq_true, if_true]
  cases hfind : s.sec.parts.find? fun x => x.src == src && x.op == op with
  | none => simp only [Option.map_none, Option.getD_none, Bool.not_true, Bool.false_eq_true, false_or, List.length_nil]; rfl
  | some y => simp only [hsame y hfind, Option.map_some, Option.getD_some, beq_self_eq_true, Bool.not_true, Bool.false_eq_true, false_or]; rfl

section
variable (hmine : (fun x : Parts => x.src == src && x.op == op) = mine) (g : s.PartFits mine q) {had : List Byte} (hhad : s.partData mine = had)
include hmine g hhad

theorem State.takePart_of_disorder (hwrong : uAt q 4 4 ≠ had.length ∨ uAt q 0 4 < uAt q 4 4 + uAt q 8 4) :
    s.takePart op src q = (s.setParts (s.sec.parts.filter fun x => !mine x), .error (.st .partOrder)) := by
  subst hhad
  exact (State.takePart_of_fits hmine g).trans (if_pos hwrong)

/-- A part that is not the last joins the bytes that came before. -/
theorem State.takePart_of_more (hoff : uAt q 4 4 = had.length) (hmore : had.length + uAt q 8 4 < uAt q 0 4) :
    s.takePart op src q = (s.setParts (⟨src, op, uAt q 0 4, had ++ q.drop 16⟩ :: s.sec.parts.filter fun x => !mine x), .error .ok) := by
  subst hhad
  refine (State.takePart_of_fits hmine g).trans ((if_neg ?_).trans (if_neg ?_))
  · rw [hoff]
    exact not_or.mpr ⟨fun hne => hne rfl, Nat.not_lt.mpr (Nat.le_of_lt hmore)⟩
  · rw [List.length_append, List.length_drop, g.length, Nat.add_sub_cancel_left]
    exact Nat.ne_of_lt hmore

/-- The last part gives the whole parameter, and the device keeps none of it. -/
theorem State.takePart_of_last (hoff : uAt q 4 4 = had.length) (hlast : had.length + uAt q 8 4 = uAt q 0 4) :
    s.takePart op src q = (s.setParts (s.sec.parts.filter fun x => !mine x), .ok (had ++ q.drop 16)) := by
  subst hhad
  refine (State.takePart_of_fits hmine g).trans ((if_neg ?_).trans (if_pos ?_))
  · rw [hoff, hlast]
    exact not_or.mpr ⟨fun hne => hne rfl, Nat.lt_irrefl _⟩
  · rw [List.length_append, List.length_drop, g.length, Nat.add_sub_cancel_left]
    exact hlast

end

end

end Sys2Proof.Machine
end

section
/-! Jobs are admitted and torn down (R472, R483 to R486, R540 to R543). That a malformed envelope or body replies DESC_FORMAT (log 254) and that the steps of
Table 20.5 go on in one row (log 290) is the model's choice. -/

namespace Sys2Proof.Machine

/-- A second stop of what is stopping waits with the first, and the creation that was put off is torn down. -/
theorem Life.doDisable_of_stopping {l : Life} {o : Owed} (hst : l.st = .stopping) (st : Status) (now : Nat) :
    l.doDisable o st now = ({ l with disables := l.disables ++ [o], deferred := none }, .later true, (l.deferred.map Packet.owed).toList, false) := by
  simp only [Life.doDisable, hst]

theorem Life.doEnable_of_stopping {l : Life} {pkt : Packet} (hst : l.st = .stopping) (hnone : l.deferred = none) (busy : Status) (now : Nat) :
    l.doEnable pkt busy now = ({ l with deferred := some pkt }, .interim, false) := by
  simp only [Life.doEnable, hst, hnone]

section
variable {s u : State} {o : Owed} {h : CmdHdr} {q d : List Byte} {ok : Bool} {a : Ans}

/-! JOB_ADMIT (R483 to R486): its parts, then the manifest of the whole. -/

theorem bodyJobAdmit_of_disorder (htake : s.takePart 0x0300 (s.trueSrc o.src) q = (u, .error (.st .partOrder))) :
    bodyJobAdmit ok s o h q = (u.bump F.CTC_FAIL_CNT_admit u.chtDie 0 1, .st .partOrder) := by
  simp only [bodyJobAdmit, htake]
  rfl

theorem bodyJobAdmit_of_more (htake : s.takePart 0x0300 (s.trueSrc o.src) q = (u, .error .ok)) : bodyJobAdmit ok s o h q = (u, .ok) := by
  simp only [bodyJobAdmit, htake]
  rfl

section
variable (htake : s.takePart 0x0300 (s.trueSrc o.src) q = (u, .ok d))
include htake

theorem bodyJobAdmit_of_unsigned (hauth : u.admitAuth d ok = some a) :
    bodyJobAdmit ok s o h q = (u.bump F.CTC_FAIL_CNT_admit u.chtDie 0 1, a) := by
  simp only [bodyJobAdmit, htake, hauth]
  rfl

section
variable (hauth : u.admitAuth d ok = none) {k : Nat} (hk : uAt (manifestBody d) 2 2 = k)
include hauth hk

theorem bodyJobAdmit_of_refused (hst : (u.job k).life.st ≠ .stopping) (hrest : u.admitRest (manifestBody d) = some a) :
    bodyJobAdmit ok s o h q = (u.bump F.CTC_FAIL_CNT_admit u.chtDie 0 1, a) := by
  simp only [bodyJobAdmit, htake, hauth, hk, if_neg hst, State.admitBegin, hrest]
  rfl

theorem bodyJobAdmit_of_good (hst : (u.job k).life.st ≠ .stopping) (hrest : u.admitRest (manifestBody d) = none) :
    bodyJobAdmit ok s o h q = (u.admitJob d, .ok) := by
  simp only [bodyJobAdmit, htake, hauth, hk, if_neg hst, State.admitBegin, hrest]

/-- A manifest of a job that is being torn down is put off to its end. -/
theorem bodyJobAdmit_of_stopping (hst : (u.job k).life.st = .stopping) (hnone : (u.job k).life.deferred = none) :
    bodyJobAdmit ok s o h q = (u.setJob k { u.job k with life := { (u.job k).life with deferred := some (mkPacket h 0x0300 d) } }, .interim) := by
  simp only [bodyJobAdmit, htake, hauth, hk, if_pos hst, Life.doEnable_of_stopping hst hnone]

end

end

/-! JOB_TEARDOWN (R540). -/

section
variable (hjob : h.jobValid = true) (hlen : q.length = 0) {j : Nat} (hj : h.job.toNat = j)
include hjob hlen hj

theorem bodyJobTeardown_of_on (hon : (s.job j).life.st = .on) : bodyJobTeardown s o h q = (s.jobStop j [o], .later true) := by
  unfold bodyJobTeardown
  simp only [firstFail, needJob, lenIs, hjob, hlen, hj, hon, beq_self_eq_true, if_true]

theorem bodyJobTeardown_of_stopping (hst : (s.job j).life.st = .stopping) (hnone : (s.job j).life.deferred = none) : bodyJobTeardown s o h q =
    (s.setJob j { s.job j with life := { (s.job j).life with disables := (s.job j).life.disables ++ [o], deferred := none } }, .later true) := by
  unfold bodyJobTeardown
  simp only [firstFail, needJob, lenIs, hjob, hlen, hj, hst, beq_self_eq_true, if_true, Life.doDisable_of_stopping hst, hnone]
  rfl

end

/-! The steps of a teardown (R541 to R543, Table 20.5). -/

theorem exec_teardownWaitLimit_of_early {n : BitVec 16} (hdue : s.elapsed (s.job n.toNat).life.since s.teardownMs = false) :
    exec (.teardownWaitLimit n) s = .next s :=
  congrArg Host.Outcome.next (if_pos (Or.inr (Or.inr (Or.inr (by rw [hdue]; rfl)))))

section
variable {n : BitVec 16} (hst : (s.job n.toNat).life.st = .stopping)
include hst

theorem exec_teardownStepDone_of_stopping (hfree : (s.job n.toNat).life.step ≠ 5 ∨ s.jobWaits n.toNat = 0) :
    exec (.teardownStepDone n) s = .next (s.jobStep n.toNat) := by
  refine congrArg Host.Outcome.next ((if_neg (not_not_intro hst)).trans (if_neg ?_))
  exact fun ⟨hstep, hwaits⟩ => hfree.elim (fun hne => hne hstep) hwaits

/-- The cores that still run the kernel of a context stop. -/
def State.kernelDropped (s : State) (k : Nat × Nat) : State :=
  match (s.ctx? k.1 k.2).bind fun x => x.kernel with
  | some m => (s.kernelCores k.1 m).foldl (fun s c => { s with cores := s.cores.del c }) s
  | none => s

/-- What step 5 waits for is counted, and ended without its reports. -/
def State.waitsAbandoned (s : State) (j : Nat) : State :=
  let y := s.job j
  let z := s.setJob j { y with counts := (y.counts.1, y.counts.2.1, y.counts.2.2.1, y.counts.2.2.2.1, y.counts.2.2.2.2 + s.jobWaits j) }
  let ended := (z.pools.filter fun e => e.2.job == some j && e.2.present).foldl (fun s e => s.poolFinish e.1) z
  (ended.ctxsOfJob j).foldl (fun s k => ((s.kernelDropped k).ctxFree k.1 k.2).schedule k.1) ended

theorem exec_teardownWaitLimit_of_due (hstep : (s.job n.toNat).life.step = 5) (hwaits : s.jobWaits n.toNat ≠ 0)
    (hdue : s.elapsed (s.job n.toNat).life.since s.teardownMs = true) : exec (.teardownWaitLimit n) s = .next ((s.waitsAbandoned n.toNat).jobStep n.toNat) := by
  refine congrArg Host.Outcome.next (if_neg ?_)
  rw [hst, hstep, hdue]
  simpa using hwaits

end

end

/-- Settles O43: the parts of a manifest by what they leave of it, the manifest check by check, and the rows of a teardown by their guards. -/
theorem jobLifecycle : Obligations.JobLifecycle := by
  intro s h p d ok n t q o ans src mine had rest u k j x
  refine ⟨fun ht htotal hlen hzero hsame => ?manifest, fun ht hjob hlen => ⟨fun hon => ?on, fun hst hnone => ?stopping⟩,
    fun hst hfree => exec_teardownStepDone_of_stopping hst hfree,
    fun hst hstep hwaits => ⟨fun hdue => exec_teardownWaitLimit_of_early hdue, fun hdue => exec_teardownWaitLimit_of_due hst hstep hwaits hdue⟩⟩
  case on => exact State.command_answers ht (bodyJobTeardown_of_on hjob hlen rfl hon)
  case stopping => exact State.command_answers ht (bodyJobTeardown_of_stopping hjob hlen rfl hst hnone)
  case manifest =>
    have fits : t.PartFits mine q := ⟨htotal, hlen, hzero, hsame⟩
    refine ⟨fun hwrong => ?disorder, fun hoff hmore => ?more, fun hoff hlast hd => ?whole⟩
    case disorder =>
      exact State.command_answers ht (bodyJobAdmit_of_disorder (u := u) (State.takePart_of_disorder (mine := mine) rfl fits (had := had) rfl hwrong))
    case more => exact State.command_answers ht (bodyJobAdmit_of_more (State.takePart_of_more (mine := mine) rfl fits (had := had) rfl hoff hmore))
    case whole =>
      have htake : t.takePart 0x0300 src q = (u, .ok d) := hd ▸ State.takePart_of_last (mine := mine) rfl fits (had := had) rfl hoff hlast
      exact ⟨fun a hauth => State.command_answers ht (bodyJobAdmit_of_unsigned htake hauth),
        fun a hauth hst hrest => State.command_answers ht (bodyJobAdmit_of_refused htake hauth (k := k) rfl hst hrest),
        fun hauth hst hrest => State.command_answers ht (bodyJobAdmit_of_good htake hauth (k := k) rfl hst hrest),
        fun hauth hst hnone => State.command_answers ht (bodyJobAdmit_of_stopping htake hauth (k := k) rfl hst hnone)⟩

end Sys2Proof.Machine
end

section
/-! Attestation of peers, the unlock of debug and the certificates (R483, R486 to R488, R499 to R501). What a key or a challenge holds is a free value of the
model; the layout of the phases (log 255), what uses a challenge up (log 257) and the data of CERT_READ (log 260) are its choice. -/

namespace Sys2Proof.Machine

section
variable {α : Type} {x : α} {l : List (Bool × α)}

/-! Checks that answer alike are one check. -/

theorem firstFail_true_cons : firstFail ((true, x) :: l) = firstFail l := rfl

theorem firstFail_merge {a b : Bool} : firstFail ((a, x) :: (b, x) :: l) = firstFail ((a && b, x) :: l) := by
  cases a <;> rfl

theorem firstFail_single {a : Bool} : firstFail [(a, x)] = if a then none else some x := rfl

end

section
variable {s u : State} {o : Owed} {h : CmdHdr} {q d : List Byte} {ok sig : Bool}

/-! PEER_ATTEST (R486): the parameters, then the entry of the job's map for its origin. -/

/-- A whole parameter of PEER_ATTEST that names the origin of the packet's job, with no attestation of it under way. -/
structure State.AttestParams (u : State) (h : CmdHdr) (d : List Byte) : Prop where
  job : h.jobValid = true
  length : d.length = 8
  phase : uAt d 0 1 = 0
  zero : uAt d 1 1 = 0
  names : uAt d 2 2 = h.job.toNat
  peer : uAt d 4 4 = 0
  free : ∀ a ∈ (u.job h.job.toNat).attests, a.peer ≠ 0

theorem bodyPeerAttest_of_params (htake : s.takePart 0x0900 (s.trueSrc o.src) q = (u, .ok d)) (g : u.AttestParams h d) :
    bodyPeerAttest s o h q = match u.mapEntry h.job.toNat 0 with
      | none => (u.bump F.CTC_FAIL_CNT_admit u.chtDie 0 1, .st .unmappedDevice)
      | some m => ((u.setAttest h.job.toNat 0 (some ⟨0, 1, some o⟩)).sendPhase (fld m 19 0) 1 h.job.toNat [1, 2, 3, 4], .later true) := by
  obtain ⟨hjob, hlen, hphase, hzero, hnames, hpeer, hfree⟩ := g
  have hnone : ((u.job h.job.toNat).attests.any fun a => a.peer == 0) = false := List.any_eq_false.mpr fun a ha => mt beq_iff_eq.mp (hfree a ha)
  unfold bodyPeerAttest
  simp only [htake, firstFail, needJob, zeros, hjob, hlen, hphase, hzero, hnames, hpeer, hnone, beq_self_eq_true, Bool.not_false, if_true]
  cases hentry : u.mapEntry h.job.toNat 0 <;> rfl

/-! The phases of an attestation between devices that name one another (Table 18.5). -/

section
variable {dev : BitVec 20} {i peer : Nat}

/-- The message comes from the device that the job's map names, of a job that is admitted. -/
structure State.ToldBy (s : State) (dev : BitVec 20) (i peer : Nat) : Prop where
  named : ∃ m, s.mapEntry i peer = some m ∧ fld m 19 0 = dev.toNat
  admitted : s.admitted i = true
  active : s.chtActive = true

/-- What a message of a phase does at the side that waits for it, or that has not heard of the attestation. -/
def State.attestPhase (s : State) (dev : BitVec 20) (d : List Byte) (ok : Bool) (i peer : Nat) : State :=
  match uAt d 0 1, (s.job i).attests.find? fun a => a.peer == peer with
  | 1, none =>
    if (s.job i).own == 0 && [1, 2, 3, 4].all fun k => (itemOf k 16 (d.drop 8)).isSome then
      (s.setAttest i peer (some ⟨peer, 2, none⟩)).sendPhase dev.toNat 2 i [1, 2, 3, 4, 5, 6, 7, 8, 9]
    else s
  | 2, some a =>
    if a.phase ≠ 1 ∨ a.owed.isNone then s
    else if s.peerOk i (d.drop 8) ok then (s.setAttest i peer (some { a with phase := 3 })).sendPhase dev.toNat 3 i [6, 7, 8, 9]
    else s.untrusted i peer a.owed
  | 3, some a =>
    if a.phase ≠ 2 ∨ !((s.job i).own == 0) then s
    else if s.peerOk i (d.drop 8) ok then (s.setAttest i peer none).sendPhase dev.toNat 4 i [10]
    else s.untrusted i peer none
  | 4, some a =>
    if a.phase ≠ 3 then s
    else if ok && (itemOf 10 16 (d.drop 8)).isSome then
      let y := s.setAttest i peer none
      let z := (y.setJob i { y.job i with key := some y.free }).draw
      match a.owed with
      | some r => z.final r .ok
      | none => z
    else s.untrusted i peer a.owed
  | _, _ => s

theorem exec_peerAttestPhase_of_told (hi : uAt d 2 2 = i) (hpeer : uAt d 4 4 = peer) (told : s.ToldBy dev i peer) :
    exec (.peerAttestPhase dev d ok) s = .next (s.attestPhase dev d ok i peer) := by
  subst hi hpeer
  obtain ⟨⟨m, hm, hdev⟩, hadmitted, hactive⟩ := told
  refine congrArg Host.Outcome.next ((if_neg ?_).trans ?_)
  · simp only [hm, hdev, hadmitted, hactive, beq_self_eq_true]
    exact Bool.false_ne_true
  · unfold State.attestPhase
    rfl

section
variable {a : Attest}

theorem State.attestPhase_one (hphase : uAt d 0 1 = 1) (hnone : ((s.job i).attests.find? fun a => a.peer == peer) = none) (hown : (s.job i).own = 0)
    (hitems : ∀ k ∈ [1, 2, 3, 4], (itemOf k 16 (d.drop 8)).isSome = true) : s.attestPhase dev d ok i peer =
      (s.setAttest i peer (some ⟨peer, 2, none⟩)).sendPhase dev.toNat 2 i [1, 2, 3, 4, 5, 6, 7, 8, 9] := by
  have hall : ([1, 2, 3, 4].all fun k => (itemOf k 16 (d.drop 8)).isSome) = true := List.all_eq_true.mpr hitems
  simp only [State.attestPhase, hphase, hnone, hown, hall, beq_self_eq_true, Bool.and_self, if_true]

variable (hsome : ((s.job i).attests.find? fun a => a.peer == peer) = some a)
include hsome

theorem State.attestPhase_two (hphase : uAt d 0 1 = 2) (hwaits : a.phase = 1) (howed : a.owed.isSome = true) : s.attestPhase dev d ok i peer =
    if s.peerOk i (d.drop 8) ok then (s.setAttest i peer (some { a with phase := 3 })).sendPhase dev.toNat 3 i [6, 7, 8, 9]
    else s.untrusted i peer a.owed := by
  obtain ⟨r, hr⟩ := Option.isSome_iff_exists.mp howed
  have hwaits' : ¬ (a.phase ≠ 1 ∨ a.owed.isNone = true) := by simp [hwaits, hr]
  simp only [State.attestPhase, hphase, hsome]
  exact if_neg hwaits'

theorem State.attestPhase_three (hphase : uAt d 0 1 = 3) (hwaits : a.phase = 2) (hown : (s.job i).own = 0) : s.attestPhase dev d ok i peer =
    if s.peerOk i (d.drop 8) ok then (s.setAttest i peer none).sendPhase dev.toNat 4 i [10] else s.untrusted i peer none := by
  have hwaits' : ¬ (a.phase ≠ 2 ∨ (!((s.job i).own == 0)) = true) := by
    rw [hwaits, hown]
    decide
  simp only [State.attestPhase, hphase, hsome]
  exact if_neg hwaits'

theorem State.attestPhase_four {r : Owed} (hphase : uAt d 0 1 = 4) (hwaits : a.phase = 3) (hitem : (itemOf 10 16 (d.drop 8)).isSome = true)
    (howed : a.owed = some r) : s.attestPhase dev d true i peer =
      let y := s.setAttest i peer none
      (y.setJob i { y.job i with key := some s.free }).draw.final r .ok := by
  have hwaits' : ¬ a.phase ≠ 3 := not_not_intro hwaits
  simp only [State.attestPhase, hphase, hsome, howed]
  exact (if_neg hwaits').trans (if_pos (by rw [hitem]; rfl))

end

end

/-! DEBUG_UNLOCK (R499, R500): without a parameter it gives a challenge, with a token it uses the challenge up. -/

section
variable (htake : s.takePart 0x0901 (s.trueSrc o.src) q = (u, .ok d))
include htake

theorem bodyDebugUnlock_of_empty (hd : d = []) : bodyDebugUnlock sig s o h q =
    ({ u.draw with sec := { u.sec with challenge := some ((List.range 32).map (Config.freeByte u.free)) } },
      .data ((List.range 32).map (Config.freeByte u.free))) := by
  subst hd
  simp only [bodyDebugUnlock, htake, List.isEmpty_nil, if_true, State.freeBytes]
  rfl

/-- A token that answers the challenge of this device, is signed, and has a scope that a killed JTAG still allows. -/
def State.tokenGood (u : State) (d : List Byte) (sig : Bool) : Bool :=
  u.sec.challenge == some (bytesAt d 16 32) && bytesAt d 48 48 == u.sec.target && (sig && !u.sec.owners.isEmpty) && (!u.sec.jtagKill || uAt d 1 1 == 1)

omit htake in
theorem State.tokenGood_iff : u.tokenGood d sig = true ↔ u.sec.challenge = some (bytesAt d 16 32) ∧ bytesAt d 48 48 = u.sec.target ∧ sig = true ∧
    u.sec.owners ≠ [] ∧ (u.sec.jtagKill = true → uAt d 1 1 = 1) := by
  cases hkill : u.sec.jtagKill <;> simp [State.tokenGood, hkill, and_assoc]

theorem bodyDebugUnlock_of_token (hd : d ≠ []) (htoken : tokenOk d = true) :
    let v : State := { u with sec := { u.sec with challenge := none } }
    let w : State := { v with sec := { v.sec with debugEnd := v.datum + uAt d 8 4 * 1000000000 } }
    bodyDebugUnlock sig s o h q = if !u.tokenGood d sig then (v, .st .tokenInvalid)
      else if !v.debugAllowed (uAt d 1 1) then (v, .st .debugConflict)
      else ((w.bump F.CTC_DEBUG_unlocks w.chtDie 0 1).setDebug (uAt d 1 1), .ok) := by
  have hfull : d.isEmpty = false := by simpa using hd
  unfold bodyDebugUnlock
  simp only [htake, hfull, htoken, firstFail_true_cons, firstFail_merge, Bool.false_eq_true, if_false]
  rw [← State.tokenGood.eq_def]
  cases u.tokenGood d sig
  · rfl
  · rw [firstFail_true_cons, firstFail_single]
    cases State.debugAllowed _ (uAt d 1 1) <;> rfl

end

theorem bodyDebugLock_of_empty (hlen : q.length = 0) : bodyDebugLock s o h q = (s.setDebug 0, .ok) := by
  simp only [bodyDebugLock, firstFail, lenIs, hlen, beq_self_eq_true, if_true]

theorem exec_debugTokenExpiry_of_end (hend : s.sec.debugEnd ≤ s.datum) : exec .debugTokenExpiry s = .next (s.setDebug 0) :=
  congrArg Host.Outcome.next (if_pos hend)

/-! CERT_READ (R488). -/

theorem bodyCertRead_of_params (htake : s.takePart 0x0903 (s.trueSrc o.src) q = (u, .ok d)) (hlen : d.length = 8) (hslot : uAt d 0 1 ≤ 1)
    (hzero : uAt d 1 3 = 0) :
    let c := Config.certChain (uAt d 0 1)
    let part := (c.drop (uAt d 4 4)).take 4072
    bodyCertRead s o h q = (u, .data (leBytes 4 c.length ++ leBytes 4 (uAt d 4 4) ++ leBytes 4 part.length ++ leBytes 4 0 ++ part)) := by
  unfold bodyCertRead
  simp only [htake, firstFail, zeros, hlen, hslot, hzero, beq_self_eq_true, decide_true, if_true]

end

/-- Settles O44: each command by what it makes of its whole parameter, each phase by the side that takes it. -/
theorem attestationAndDebug : Obligations.AttestationAndDebug := by
  intro s h p d ok sig dev op t q o answer src mine u had whole j peer scope v w c part i b told at_
  have took : whole → s.takes op h p ∧ t.takePart op src q = (u, .ok d) := fun ⟨ht, htotal, hoff, hlast, hlen, hzero, hsame, hd⟩ =>
    ⟨ht, hd ▸ State.takePart_of_last (mine := mine) rfl ⟨htotal, hlen, hzero, hsame⟩ (had := had) rfl hoff hlast⟩
  have phases : told → exec (.peerAttestPhase dev d ok) s = .next (s.attestPhase dev d ok i peer) := fun ⟨hnamed, hadmitted, hactive⟩ =>
    exec_peerAttestPhase_of_told rfl rfl ⟨hnamed, hadmitted, hactive⟩
  refine ⟨fun hwhole hop hjob hlen hphase hzero hnames hpeer hfree => ?attest, fun htold => ?phases, fun hwhole hop => ?unlock, fun ht hop hlen => ?lock,
    fun hend => exec_debugTokenExpiry_of_end hend, fun hwhole hop hlen hslot hzero => ?cert⟩
  case attest =>
    obtain ⟨ht, htake⟩ := took hwhole
    subst hop
    have hbody := bodyPeerAttest_of_params htake (h := h) ⟨hjob, hlen, hphase, hzero, hnames, hpeer, hfree⟩
    exact ⟨fun hnone => State.command_answers ht (hbody.trans (by rw [hnone])), fun m hm => State.command_answers ht (hbody.trans (by rw [hm]))⟩
  case phases =>
    refine ⟨fun hphase hnone hown hitems => (phases htold).trans ?_, fun a hphase hsome hwaits howed => (phases htold).trans ?_,
      fun a hphase hsome hwaits hown => (phases htold).trans ?_, fun a r hphase hsome hwaits hok hitem howed => (phases htold).trans ?_⟩
    · exact congrArg Host.Outcome.next (State.attestPhase_one hphase hnone hown hitems)
    · exact congrArg Host.Outcome.next (State.attestPhase_two hsome hphase hwaits howed)
    · exact congrArg Host.Outcome.next (State.attestPhase_three hsome hphase hwaits hown)
    · subst hok
      exact congrArg Host.Outcome.next (State.attestPhase_four hsome hphase hwaits hitem howed)
  case unlock =>
    obtain ⟨ht, htake⟩ := took hwhole
    subst hop
    refine ⟨fun hd => State.command_answers ht (bodyDebugUnlock_of_empty htake hd), fun hd htoken => ?_⟩
    have hbody := bodyDebugUnlock_of_token (sig := sig) (h := h) htake hd htoken
    intro good
    have hgood : u.tokenGood d sig = true ↔ good := State.tokenGood_iff
    refine ⟨fun hbad => ?_, fun hholds hconflict => ?_, fun hholds hallowed => ?_⟩
    · have hfalse : u.tokenGood d sig = false := Bool.eq_false_iff.mpr (mt hgood.mp hbad)
      exact State.command_answers ht (hbody.trans (if_pos (by rw [hfalse]; rfl)))
    · refine State.command_answers ht (hbody.trans ((if_neg ?_).trans (if_pos (congrArg not hconflict))))
      rw [hgood.mpr hholds]
      exact Bool.false_ne_true
    · refine State.command_answers ht (hbody.trans ((if_neg ?_).trans (if_neg ?_)))
      · rw [hgood.mpr hholds]
        exact Bool.false_ne_true
      · exact fun hno => Bool.false_ne_true ((congrArg not hallowed).symm.trans hno)
  case lock =>
    subst hop
    exact State.command_answers ht (bodyDebugLock_of_empty hlen)
  case cert =>
    obtain ⟨ht, htake⟩ := took hwhole
    subst hop
    exact State.command_answers ht (bodyCertRead_of_params htake hlen hslot hzero)

end Sys2Proof.Machine
end

section
/-! Transfers of memory (R480 to R482), owner records (R496, R497), SPDM and firmware updates (R477, R531). The codes and bodies of SPDM are presumed (log 252);
the checks of a transfer (log 256), the refusals of an owner record (log 258) and the byte order of the nonce (log 427) are the model's choice. -/

namespace Sys2Proof.Machine

/-! MEM_IMPORT and MEM_EXPORT. -/

section
variable {s : State} {o : Owed} {h : CmdHdr} {q : List Byte} {i j a len : Nat}

/-- A transfer of len bytes at a, of a sheet that is ON and a job that has its data_key. -/
structure State.TransferReady (s : State) (h : CmdHdr) (a len : Nat) : Prop where
  sheet : h.sheetValid = true
  job : h.jobValid = true
  small : len ≤ 2 ^ 22
  on : s.sheetOn h.sheet.toNat = true
  key : (s.job h.job.toNat).dataKey.isSome = true
  inside : a + len ≤ (s.sheet h.sheet.toNat).usable

theorem State.TransferReady.pass (g : s.TransferReady h a len) : pass (s.transferChecks h a len) := by
  obtain ⟨hsheet, hjob, hsmall, hon, hkey, hinside⟩ := g
  simp only [State.transferChecks, pass_cons, needSheet, needJob, decide_eq_true_eq]
  exact ⟨hsheet, hjob, hsmall, hon, hkey, hinside, pass_nil⟩

/-- What MEM_IMPORT does with good parameters: the bytes that open under the data_key are stored, if the memory can take them. -/
theorem bodyMemImport_of_params {host : Nat → Nat → List Byte} (ha : uAt q 0 8 = a) (hn : uAt q 16 4 = len) (hlen : q.length = 52) (halign : len % 16 = 0)
    (hzero : uAt q 20 4 = 0) (hzero' : uAt q 24 4 = 0) (g : s.TransferReady h a len) :
    bodyMemImport host s o h q =
      match gcmOpen ((s.job h.job.toNat).dataKey.getD []) (bytesAt q 24 12) (transferAad h a len) (host (uAt q 8 8) len) (bytesAt q 36 16) with
      | none => (s, .st .importAuth)
      | some b => match s.meets h.sheet.toNat 2 [(a, len, true)] with
        | (v, some st) => (v, .st st)
        | (v, none) => (v.write h.sheet.toNat a b, .ok) := by
  subst ha hn
  unfold bodyMemImport
  dsimp only
  rewrite [(firstFail_none _).2]
  · cases gcmOpen _ _ _ _ _ <;> rfl
  · simp only [pass_append, pass_cons, lenIs, zeros, beq_iff_eq, decide_eq_true_eq]
    exact ⟨⟨hlen, halign, hzero, hzero', pass_nil⟩, g.pass⟩

/-- What MEM_EXPORT does with good parameters: the bytes go to the host, sealed with the next count. -/
theorem bodyMemExport_of_params (ha : uAt q 0 8 = a) (hn : uAt q 16 4 = len) (hlen : q.length = 20) (g : s.TransferReady h a len) :
    bodyMemExport s o h q = match s.meets h.sheet.toNat 2 [(a, len, false)] with
      | (v, some st) => (v, .st st)
      | (v, none) =>
        let y := v.job h.job.toNat
        let nonce := leBytes 4 1 ++ leBytes 8 y.exports
        let r := gcmSeal (y.dataKey.getD []) nonce (transferAad h a len) (v.rd h.sheet.toNat a len)
        let u := v.setJob h.job.toNat { y with exports := y.exports + 1 }
        (u.send (.host (u.hostDie o.src) (uAt q 8 8) r.1), .data (nonce ++ r.2)) := by
  subst ha hn
  unfold bodyMemExport
  dsimp only
  rewrite [(firstFail_none _).2]
  · rfl
  · simp only [pass_cons, lenIs, beq_iff_eq]
    exact ⟨hlen, g.pass⟩

end

section
variable {s : State} {x : Source}

/-! The owner's record (R496, R497). -/

section
variable {owner : List Byte} {fms : List (List Byte)} {serial : BitVec 64} {kill ok : Bool}

/-- A record that is refused: not signed, with too many fabric managers, or of one owner too many. -/
def State.ownerBad (s : State) (owner : List Byte) (fms : List (List Byte)) (ok : Bool) : Prop :=
  ok = false ∨ 4 < fms.length ∨ ((s.sec.owners.getLast? != some owner) = true ∧ 8 ≤ s.sec.owners.length)

theorem State.ownerBad_iff : (!ok || decide (4 < fms.length) || ((s.sec.owners.getLast? != some owner) && decide (8 ≤ s.sec.owners.length))) = true ↔
    s.ownerBad owner fms ok := by
  rw [Bool.or_eq_true, Bool.or_eq_true, Bool.and_eq_true, decide_eq_true_eq, decide_eq_true_eq, Bool.not_eq_true', or_assoc]
  rfl

theorem exec_ownerRecord_of_bad (hbad : s.ownerBad owner fms ok) : exec (.ownerRecord owner fms serial kill ok) s = .next (s.event { code := .ownerRefused }) :=
  congrArg Host.Outcome.next (if_pos (State.ownerBad_iff.mpr hbad))

theorem exec_ownerRecord_of_good (hgood : ¬ s.ownerBad owner fms ok) : exec (.ownerRecord owner fms serial kill ok) s =
    .next { s with sec := { s.sec with owners := if s.sec.owners.getLast? != some owner then s.sec.owners ++ [owner] else s.sec.owners,
                                       fmKeys := fms, minSerial := serial.toNat, jtagKill := s.sec.jtagKill || kill } } :=
  congrArg Host.Outcome.next (if_neg (mt State.ownerBad_iff.mp hgood))

end

/-! SPDM: a message at its place of the negotiation, and a session (R477). -/

theorem State.spdmAt_of_le {k : Nat} (hle : k ≤ s.sec.negotiated) (f : State → State) : s.spdmAt x k f = f s := if_neg (Nat.not_lt.mpr hle)

theorem State.spdmAt_of_not_le {k : Nat} (hlow : ¬ k ≤ s.sec.negotiated) (f : State → State) : s.spdmAt x k f = s.spdmError x :=
  if_pos (Nat.lt_of_not_le hlow)

section
variable {id : BitVec 32}

theorem exec_keyExchange_of_new (hat : 3 ≤ s.sec.negotiated) (hnew : s.sec.sessions.has id.toNat = false) :
    let v : State := { s with sec := { s.sec with sessions := s.sec.sessions.put id.toNat ⟨x, false, false, s.datum⟩ } }
    exec (.keyExchange x id) s = .next (v.signed x 0x64 ((v.measures v.chtDie).flatMap fun l => l)) := by
  refine congrArg Host.Outcome.next ((State.spdmAt_of_le hat _).trans (if_neg ?_))
  rw [hnew]
  exact Bool.false_ne_true

variable {y : Session} (hy : s.sec.sessions.find id.toNat = some y)
include hy

theorem State.endSession_of_some :
    s.endSession id.toNat = { s with sec := { s.sec with sessions := s.sec.sessions.del id.toNat }, fmSession := if y.fm then none else s.fmSession } := by
  simp only [State.endSession, hy]
  cases y.fm <;> rfl

variable (hsrc : y.src = x)
include hsrc

/-- The fabric manager whose key the session shows. -/
def State.fmOf (s : State) (x : Source) (key : List Byte) : Option Nat :=
  match x with
  | .fm e => if s.sec.fmKeys.contains key then some e else none
  | _ => none

theorem exec_finishMsg_of_good {key : List Byte} (hready : y.ready = false) : let fm := s.fmOf x key
    let v : State := { s with
      sec := { s.sec with sessions := s.sec.sessions.put id.toNat { y with ready := true, fm := fm.isSome, heard := s.datum } }
      fmSession := fm.or s.fmSession }
    exec (.finishMsg x id key true) s = .next (v.send (.spdm x 0x65 [])) := by
  have hgoes : ¬ (y.src ≠ x ∨ y.ready = true) := not_or.mpr ⟨not_not_intro hsrc, Bool.eq_false_iff.mp hready⟩
  show execFinishMsg x id key true s = _
  simp only [execFinishMsg, hy, if_neg hgoes, Bool.not_true, Bool.false_eq_true, if_false]
  rfl

theorem State.inSession_of_ready (hready : y.ready = true) (code : Nat) :
    let v : State := { s with sec := { s.sec with sessions := s.sec.sessions.put id.toNat { y with heard := s.datum } } }
    s.inSession x id.toNat code = v.send (.spdm x code []) := by
  simp only [State.inSession, hy]
  exact if_pos ⟨hsrc, hready⟩

theorem exec_endSession_of_some : exec (.endSession x id) s = .next ((s.endSession id.toNat).send (.spdm x 0x6C [])) := by
  show execEndSession x id s = _
  simp only [execEndSession, hy, if_pos hsrc]
  rfl

end

/-! Firmware updates: only on standby power. -/

section
variable {slot : Bool} {svn : BitVec 8} {rec : List Byte}

theorem exec_pldmFirmwareUpdate_of_main (hmain : s.boot.standby = false) (what : Fin 3) : exec (.pldmFirmwareUpdate what slot svn rec) s = .next s :=
  congrArg Host.Outcome.next (if_pos (congrArg not hmain))

theorem exec_pldmFirmwareUpdate_of_standby (hstandby : s.boot.standby = true) (what : Fin 3) : exec (.pldmFirmwareUpdate what slot svn rec) s =
    .next (if what = 0 then { s with sec := if slot then { s.sec with slotB := some svn.toNat } else { s.sec with slotA := some svn.toNat } }
      else if what = 1 then { s with sec := { s.sec with activated := some slot } }
      else { s with boot := { s.boot with config := bootConfig rec } }) := by
  refine congrArg Host.Outcome.next (if_neg ?_)
  rw [hstandby]
  exact Bool.false_ne_true

end

end

/-- Settles O45: transfers by what their bodies do, each message by its place, and firmware by the power that it needs. -/
theorem transfersAndSessions : Obligations.TransfersAndSessions := by
  intro s h p plain owner rec key nonce fms serial kill ok slot x off n cs die id w base svn t q i j a len ready dataKey aad fresh bad at_ fm
  have transfer : ready → t.TransferReady h a len := fun ⟨hsheet, hjob, hsmall, hon, hkey, hinside⟩ => ⟨hsheet, hjob, hsmall, hon, hkey, hinside⟩
  refine ⟨fun ht hlen halign hzero hzero' hready => ?opens, fun ht hlen hready => ?seals,
    ⟨fun hbad => exec_ownerRecord_of_bad hbad, fun hgood => exec_ownerRecord_of_good hgood⟩, rfl,
    fun hat => congrArg Host.Outcome.next (State.spdmAt_of_le hat _), fun hat => congrArg Host.Outcome.next (State.spdmAt_of_le hat _),
    fun hlow => congrArg Host.Outcome.next (State.spdmAt_of_not_le hlow _),
    fun hat => ⟨congrArg Host.Outcome.next (State.spdmAt_of_le hat _), congrArg Host.Outcome.next (State.spdmAt_of_le hat _),
      congrArg Host.Outcome.next (State.spdmAt_of_le hat _), congrArg Host.Outcome.next (State.spdmAt_of_le hat _),
      fun hnew => exec_keyExchange_of_new hat hnew⟩,
    fun y hy hsrc => ⟨fun hready hok => ?finish, fun hready => ⟨congrArg Host.Outcome.next (State.inSession_of_ready hy hsrc hready _),
      congrArg Host.Outcome.next (State.inSession_of_ready hy hsrc hready _)⟩, ?ends⟩,
    fun hvalid => congrArg Host.Outcome.next (State.rearm_of_valid s _ hvalid), fun hmain => exec_pldmFirmwareUpdate_of_main hmain 0,
    fun hstandby => ⟨exec_pldmFirmwareUpdate_of_standby hstandby 0, exec_pldmFirmwareUpdate_of_standby hstandby 1,
      exec_pldmFirmwareUpdate_of_standby hstandby 2⟩⟩
  case opens =>
    have hbody := bodyMemImport_of_params (host := hostBytes base.toNat plain) (s := t) (o := hdrOwed h 0x0408) (h := h) (q := q) (a := a) (len := len) rfl rfl
      hlen halign hzero hzero' (transfer hready)
    intro opened
    exact ⟨fun hnone => State.command_answers ht (hbody.trans (by rw [show gcmOpen _ _ _ _ _ = none from hnone])),
      fun b v hsome hmeets => State.command_answers ht (hbody.trans (by rw [show gcmOpen _ _ _ _ _ = some b from hsome]; dsimp only; rw [hmeets])),
      fun b v st hsome hmeets => State.command_answers ht (hbody.trans (by rw [show gcmOpen _ _ _ _ _ = some b from hsome]; dsimp only; rw [hmeets]))⟩
  case seals =>
    have hbody := bodyMemExport_of_params (s := t) (o := hdrOwed h 0x0409) (h := h) (q := q) (a := a) (len := len) rfl rfl hlen (transfer hready)
    exact ⟨fun v hmeets => State.command_answers ht (hbody.trans (by rw [hmeets])),
      fun v st hmeets => State.command_answers ht (hbody.trans (by rw [hmeets]))⟩
  case finish =>
    subst hok
    exact exec_finishMsg_of_good hy hsrc hready
  case ends =>
    have hend := State.endSession_of_some hy
    exact ⟨(exec_endSession_of_some hy hsrc).trans (by rw [hend]), congrArg Host.Outcome.next hend⟩

end Sys2Proof.Machine
end

section
/-! Commands on power, overlays and Contour (R507, R520, R521, R525, R526), with good parameters. -/

namespace Sys2Proof.Machine

section
variable {s u : State} {o : Owed} {h : CmdHdr} {q d : List Byte} {sig : Bool}

theorem bodyPowerLimitSet_of_params (hlen : q.length = 8) (hw : uAt q 0 4 = 0 ∨ (1000 ≤ uAt q 0 4 ∧ uAt q 0 4 ≤ 4600)) (he : uAt q 4 2 ≤ 10)
    (hf : 600 ≤ uAt q 6 2 ∧ uAt q 6 2 ≤ 1500 ∧ uAt q 6 2 % 25 = 0) : bodyPowerLimitSet s o h q =
      ({ s with pw := { s.pw with next := some (if uAt q 0 4 = 0 then 4200 else uAt q 0 4, uAt q 4 2, uAt q 6 2) } }, .ok) := by
  unfold bodyPowerLimitSet
  simp only [firstFail, lenIs, hlen, decide_eq_true hw, he, decide_eq_true hf, beq_self_eq_true, decide_true, if_true]

/-! OVERLAY_LOAD (R521): a well-formed overlay of this device, then its signature, then its serial. -/

section
variable (htake : s.takePart 0x0801 (s.trueSrc o.src) q = (u, .ok d)) (hok : overlayOk d = true) (howners : u.sec.owners ≠ [])
  (htarget : bytesAt d 16 48 = u.sec.target)
include htake hok howners htarget

theorem bodyOverlayLoad_of_unsigned : bodyOverlayLoad false s o h q = (u, .st .tokenInvalid) := by
  have hsome : u.sec.owners.isEmpty = false := by simpa using howners
  unfold bodyOverlayLoad
  simp only [htake, firstFail, hok, hsome, htarget, beq_self_eq_true, Bool.not_false, Bool.false_eq_true, if_true, if_false]

theorem bodyOverlayLoad_of_old {x : List Byte} (hstored : u.pw.stored = some x) (hold : overlaySerial d ≤ overlaySerial x) :
    bodyOverlayLoad true s o h q = (u, .st .manifestRevoked) := by
  have hsome : u.sec.owners.isEmpty = false := by simpa using howners
  unfold bodyOverlayLoad
  simp only [htake, firstFail, hok, hsome, htarget, hstored, decide_eq_false (Nat.not_lt.mpr hold), beq_self_eq_true, Bool.not_false, Bool.false_eq_true,
    if_true, if_false]

theorem bodyOverlayLoad_of_newer (hnew : ∀ x, u.pw.stored = some x → overlaySerial x < overlaySerial d) : bodyOverlayLoad true s o h q =
    ({ u with pw := { u.pw with stored := some d } }, .data (leBytes 2 (overlayClamped d))) := by
  have hsome : u.sec.owners.isEmpty = false := by simpa using howners
  unfold bodyOverlayLoad
  cases hstored : u.pw.stored with
  | none => simp only [htake, firstFail, hok, hsome, htarget, hstored, beq_self_eq_true, Bool.not_false, if_true]
  | some x => simp only [htake, firstFail, hok, hsome, htarget, hstored, decide_eq_true (hnew x hstored), beq_self_eq_true, Bool.not_false, if_true]

end

theorem bodyOverlayClear_of_empty (hlen : q.length = 0) : bodyOverlayClear s o h q = ({ s with pw := { s.pw with stored := none } }, .ok) := by
  simp only [bodyOverlayClear, firstFail, lenIs, hlen, beq_self_eq_true, if_true]

theorem bodyContourReport_of_empty (hlen : q.length = 0) : bodyContourReport s o h q = (s, .data s.ageMap) := by
  simp only [bodyContourReport, firstFail, lenIs, hlen, beq_self_eq_true, if_true]

theorem bodyRetrainSchedule_of_params (hlen : q.length = 22) (hports : uAt q 12 8 < 2 ^ 36) : bodyRetrainSchedule s o h q =
    ({ s with pw := { s.pw with window := some (uAt q 0 8, uAt q 8 4, uAt q 12 8, uAt q 20 2) } }, .ok) := by
  unfold bodyRetrainSchedule
  simp only [firstFail, lenIs, hlen, decide_eq_true hports, beq_self_eq_true, if_true]

end

/-- Settles O46: each command by what its body does with good parameters. -/
theorem powerCommands : Obligations.PowerCommands := by
  intro s h p d sig t q o ans mine had u
  refine ⟨fun ht hlen hw he hlow hhigh hstep => State.command_answers ht (bodyPowerLimitSet_of_params hlen hw he ⟨hlow, hhigh, hstep⟩),
    fun ht htotal hoff hlast hlen hzero hsame hd hok howners htarget => ?overlay, fun ht hlen => State.command_answers ht (bodyOverlayClear_of_empty hlen),
    fun ht hlen => State.command_answers ht (bodyContourReport_of_empty hlen),
    fun ht hlen hports => State.command_answers ht (bodyRetrainSchedule_of_params hlen hports)⟩
  have htake : t.takePart 0x0801 (t.trueSrc o.src) q = (u, .ok d) :=
    hd ▸ State.takePart_of_last (mine := mine) rfl ⟨htotal, hlen, hzero, hsame⟩ (had := had) rfl hoff hlast
  refine ⟨fun hsig => ?_, fun x hsig hstored hold => ?_, fun hsig hnew => ?_⟩
  · subst hsig
    exact State.command_answers ht (bodyOverlayLoad_of_unsigned htake hok howners htarget)
  · subst hsig
    exact State.command_answers ht (bodyOverlayLoad_of_old htake hok howners htarget hstored hold)
  · subst hsig
    exact State.command_answers ht (bodyOverlayLoad_of_newer htake hok howners htarget hnew)

end Sys2Proof.Machine
end

section
/-! Excursions, throttling and the raising of clocks (R505, R506, R508 to R510, R512). When the first step and a raise come (log 272), what stage 4 at once means
(log 273) and how far raises go (log 274) are the model's choice. -/

namespace Sys2Proof.Machine

section
variable {s : State} {n : Nat}

/-! An average of the input power (R505, R506, R508). -/

/-- The registers with what the input measured, under the newest limits. -/
def State.measured (s : State) (w mv : BitVec 16) (a : BitVec 10) : State :=
  (((s.newLimits.set F.PWR_STATUS_power_w 0 0 w.toNat).set F.PWR_STATUS_input_mv 0 0 mv.toNat).set F.PWR_STATUS_input_a 0 0 a.toNat).restage

def State.unthrottled (s : State) : State := { s with pw := { s.pw with throttling := none } }

def State.excursionBegun (s : State) : State :=
  ({ s with pw := { s.pw with excursion := some s.datum } } : State).set F.PWR_STATUS_excursion 0 0 1

/-- An average of n W at the excursion's own limit. -/
def State.excursionCapped (s : State) (n : Nat) : State := if s.excLimit ≤ n then s.throttle s.excLimit else s

/-- What the power loop makes of an average of n W. -/
def State.averaged (s : State) (n : Nat) : State :=
  if n ≤ s.sustained then (if s.pw.excursion.isSome || s.pw.throttling.isSome then s.excursionOver else s).unthrottled
  else match s.pw.excursion with
    | some _ => State.excursionCapped (match s.pw.throttling with
        | some l => if n ≤ l then s.unthrottled else s
        | none => s) n
    | none =>
      if s.pw.throttling.isNone && decide (s.pw.readyAt ≤ s.datum) && decide (0 < s.get F.PWR_LIMIT_excursion_ms) then s.excursionBegun.excursionCapped n
      else s.excursionOver.throttle s.sustained

theorem exec_powerSample (s : State) (w mv : BitVec 16) (a : BitVec 10) : exec (.powerSample w mv a) s = .next ((s.measured w mv a).averaged w.toNat) := rfl

theorem State.unthrottled_of_none (hnone : s.pw.throttling = none) : s.unthrottled = s :=
  calc s.unthrottled = { s with pw := { s.pw with throttling := s.pw.throttling } } := by rw [hnone]; rfl
    _ = s := rfl

theorem State.averaged_of_calm (hw : n ≤ s.sustained) (hexc : s.pw.excursion = none) (hthr : s.pw.throttling = none) : s.averaged n = s := by
  unfold State.averaged
  rw [if_pos hw, hexc, hthr]
  exact State.unthrottled_of_none hthr

theorem State.averaged_of_within (hw : n ≤ s.sustained) (hover : s.pw.excursion.isSome = true ∨ s.pw.throttling.isSome = true) :
    s.averaged n = s.excursionOver.unthrottled := by
  unfold State.averaged
  rw [if_pos hw, if_pos (Bool.or_eq_true _ _ ▸ hover)]

section
variable (hw : s.sustained < n)
include hw

theorem State.averaged_of_begin (hexc : s.pw.excursion = none) (hthr : s.pw.throttling = none) (hready : s.pw.readyAt ≤ s.datum)
    (hms : 0 < s.get F.PWR_LIMIT_excursion_ms) : s.averaged n = s.excursionBegun.excursionCapped n := by
  unfold State.averaged
  simp only [if_neg (Nat.not_le.mpr hw), hexc, hthr, decide_eq_true hready, decide_eq_true hms, Option.isNone_none, Bool.and_self, if_true]

theorem State.averaged_of_noExcursion (hexc : s.pw.excursion = none)
    (hno : s.pw.throttling.isSome = true ∨ s.datum < s.pw.readyAt ∨ s.get F.PWR_LIMIT_excursion_ms = 0) :
    s.averaged n = s.excursionOver.throttle s.sustained := by
  have hmay : ¬ (s.pw.throttling.isNone && decide (s.pw.readyAt ≤ s.datum) && decide (0 < s.get F.PWR_LIMIT_excursion_ms)) = true := by
    rw [Bool.and_eq_true, Bool.and_eq_true, decide_eq_true_eq, decide_eq_true_eq]
    rintro ⟨⟨hnone, hready⟩, hms⟩
    rcases hno with hthr | hearly | hzero
    · rw [Option.isNone_iff_eq_none.mp hnone] at hthr
      exact Bool.false_ne_true hthr
    · exact Nat.not_le.mpr hearly hready
    · exact Nat.ne_of_gt hms hzero
  unfold State.averaged
  simp only [if_neg (Nat.not_le.mpr hw), hexc, if_neg hmay]

theorem State.averaged_of_excursion (hexc : s.pw.excursion.isSome = true) (hthr : s.pw.throttling = none) : s.averaged n = s.excursionCapped n := by
  obtain ⟨b, hb⟩ := Option.isSome_iff_exists.mp hexc
  unfold State.averaged
  simp only [if_neg (Nat.not_le.mpr hw), hb, hthr]

theorem State.averaged_of_throttled {l : Nat} (hexc : s.pw.excursion.isSome = true) (hthr : s.pw.throttling = some l) :
    s.averaged n = State.excursionCapped (if n ≤ l then s.unthrottled else s) n := by
  obtain ⟨b, hb⟩ := Option.isSome_iff_exists.mp hexc
  unfold State.averaged
  simp only [if_neg (Nat.not_le.mpr hw), hb, hthr]

end

/-! The end of an excursion and the steps of a throttle (R508, R509). -/

theorem exec_excursionEnd_of_due {b : Nat} (hexc : s.pw.excursion = some b) (hdue : b + msTicks (s.get F.PWR_LIMIT_excursion_ms) ≤ s.datum) :
    let u := s.excursionOver
    exec .excursionEnd s = .next (if u.sustained < u.get F.PWR_STATUS_power_w then u.throttle u.sustained else u) := by
  show execExcursionEnd s = _
  simp only [execExcursionEnd, hexc, State.elapsed_of_le hdue, if_true]

section
variable {l : Nat} (hthr : s.pw.throttling = some l)
include hthr

theorem exec_throttleStep_of_due (hdue : s.pw.lowered + usTicks 10 ≤ s.datum) (hover : l < s.get F.PWR_STATUS_power_w) :
    exec .throttleStep s = .next s.lowerOne.1 := by
  show execThrottleStep s = _
  simp only [execThrottleStep, hthr, State.elapsed_of_le hdue, decide_eq_true hover, Bool.and_self, if_true]

theorem exec_throttleStep_of_not (hnot : s.datum < s.pw.lowered + usTicks 10 ∨ s.get F.PWR_STATUS_power_w ≤ l) : exec .throttleStep s = .next s := by
  have hstays : ¬ (s.elapsed s.pw.lowered (usTicks 10) && decide (l < s.get F.PWR_STATUS_power_w)) = true := by
    rw [Bool.and_eq_true, decide_eq_true_eq]
    rintro ⟨hdue, hover⟩
    exact hnot.elim (fun hearly => Nat.not_le.mpr hearly (of_decide_eq_true hdue)) (fun hlow => Nat.not_lt.mpr hlow hover)
  show execThrottleStep s = _
  simp only [execThrottleStep, hthr, if_neg hstays]

theorem exec_clockRaise_of_throttled : exec .clockRaise s = .next s := by
  refine congrArg Host.Outcome.next (if_pos ?_)
  rw [hthr]
  rfl

end

/-! The raising of clocks (R510): the first stage that is not at its top, if there is room for its step. -/

def State.roomFor (s : State) (stage mhz : Nat) : Bool :=
  decide (s.get F.PWR_STATUS_power_w + Config.sensitivity stage mhz + s.get F.PWR_LIMIT_hyst_w ≤ s.sustained)

def State.hotDie (s : State) (lo hi : Nat) : Bool := s.pw.heat.any fun d => decide (lo ≤ d ∧ d < hi)

/-- The highest core clock that some die that works can have. -/
def State.cclkTop (s : State) : Nat := (List.range 32).foldl (fun m d => if s.dieDead d then m else max m (min 1800 (s.fmax d))) 0

/-- The state with the next clock raised, where there is room. -/
def State.raising (s : State) : Option State :=
  let x := s.get F.CLK_STATUS_xclk_mhz
  let h := s.get F.CLK_STATUS_hclk_mhz
  if s.pw.halved then if s.roomFor 5 s.pw.common then some { s with pw := { s.pw with halved := false } } else none
  else if s.pw.common < s.cclkFloor then
    if s.roomFor 4 s.pw.common then some { s with pw := { s.pw with common := min s.cclkFloor (s.pw.common + 25) } } else none
  else if h < 1000 ∧ !s.hotDie 32 48 then if s.roomFor 3 h then some (s.set F.CLK_STATUS_hclk_mhz 0 0 (min 1000 (h + 100))) else none
  else if x < 1200 ∧ !s.hotDie 48 56 then if s.roomFor 2 x then some (s.set F.CLK_STATUS_xclk_mhz 0 0 (min 1200 (x + 100))) else none
  else if s.pw.common < s.cclkTop then
    if s.roomFor 1 s.pw.common then some { s with pw := { s.pw with common := min s.cclkTop (s.pw.common + 25) } } else none
  else none

/-- A raise that has room, and its time. -/
def State.raisedIf (s : State) (ok : Bool) (u : State) : State :=
  if ok then ({ u with pw := { u.pw with raised := u.datum } } : State).restage else s

section
variable {ok : Bool} {u : State}

theorem exec_clockRaise_of_due (hthr : s.pw.throttling = none) (hraised : s.pw.raised + usTicks 100 ≤ s.datum)
    (hlowered : s.pw.lowered + usTicks 100 ≤ s.datum) (hraise : s.raising = if ok then some u else none) : exec .clockRaise s = .next (s.raisedIf ok u) := by
  have hgoes : ¬ (s.pw.throttling.isSome || !s.elapsed s.pw.raised (usTicks 100) || !s.elapsed s.pw.lowered (usTicks 100)) = true := by
    rw [hthr, State.elapsed_of_le hraised, State.elapsed_of_le hlowered]
    exact Bool.false_ne_true
  have hraises : exec .clockRaise s = .next (match s.raising with
      | some u => ({ u with pw := { u.pw with raised := u.datum } } : State).restage
      | none => s) := congrArg Host.Outcome.next (if_neg hgoes)
  rw [hraises, hraise]
  cases ok <;> rfl

end

/-- A clock that is at its top, or of a kind with a hot die, is not raised. -/
theorem not_raisable {mhz top : Nat} {hot : Bool} (htop : top ≤ mhz ∨ hot = true) : ¬ (mhz < top ∧ (!hot) = true) := by
  rintro ⟨hlow, hcool⟩
  rcases htop with hhigh | rfl
  · exact Nat.not_lt.mpr hhigh hlow
  · exact Bool.false_ne_true hcool

theorem State.raising_of_halved (hhalved : s.pw.halved = true) :
    s.raising = if s.roomFor 5 s.pw.common then some { s with pw := { s.pw with halved := false } } else none := if_pos hhalved

section
variable (hwhole : s.pw.halved = false)
include hwhole

theorem State.raising_of_floor (hlow : s.pw.common < s.cclkFloor) :
    s.raising = if s.roomFor 4 s.pw.common then some { s with pw := { s.pw with common := min s.cclkFloor (s.pw.common + 25) } } else none :=
  (if_neg (Bool.eq_false_iff.mp hwhole)).trans (if_pos hlow)

variable (hfloor : s.cclkFloor ≤ s.pw.common)
include hfloor

theorem State.raising_of_hclk (hlow : s.get F.CLK_STATUS_hclk_mhz < 1000) (hcool : s.hotDie 32 48 = false) :
    s.raising = if s.roomFor 3 (s.get F.CLK_STATUS_hclk_mhz) then some (s.set F.CLK_STATUS_hclk_mhz 0 0 (min 1000 (s.get F.CLK_STATUS_hclk_mhz + 100)))
      else none :=
  (if_neg (Bool.eq_false_iff.mp hwhole)).trans ((if_neg (Nat.not_lt.mpr hfloor)).trans (if_pos ⟨hlow, congrArg not hcool⟩))

variable (hhclk : 1000 ≤ s.get F.CLK_STATUS_hclk_mhz ∨ s.hotDie 32 48 = true)
include hhclk

theorem State.raising_of_xclk (hlow : s.get F.CLK_STATUS_xclk_mhz < 1200) (hcool : s.hotDie 48 56 = false) :
    s.raising = if s.roomFor 2 (s.get F.CLK_STATUS_xclk_mhz) then some (s.set F.CLK_STATUS_xclk_mhz 0 0 (min 1200 (s.get F.CLK_STATUS_xclk_mhz + 100)))
      else none :=
  (if_neg (Bool.eq_false_iff.mp hwhole)).trans ((if_neg (Nat.not_lt.mpr hfloor)).trans ((if_neg (not_raisable hhclk)).trans
    (if_pos ⟨hlow, congrArg not hcool⟩)))

theorem State.raising_of_cclk (hxclk : 1200 ≤ s.get F.CLK_STATUS_xclk_mhz ∨ s.hotDie 48 56 = true) :
    s.raising = if decide (s.pw.common < s.cclkTop) && s.roomFor 1 s.pw.common then
      some { s with pw := { s.pw with common := min s.cclkTop (s.pw.common + 25) } } else none := by
  refine (if_neg (Bool.eq_false_iff.mp hwhole)).trans ((if_neg (Nat.not_lt.mpr hfloor)).trans ((if_neg (not_raisable hhclk)).trans
    ((if_neg (not_raisable hxclk)).trans ?_)))
  by_cases hlow : s.pw.common < s.cclkTop
  · rw [if_pos hlow, decide_eq_true hlow, Bool.true_and]
  · rw [if_neg hlow, decide_eq_false hlow, Bool.false_and]
    rfl

end

/-! Faults of the input and of main power (R512). -/

theorem exec_mainPowerCut_of_off (hoff : s.boot.mainOk = false) : exec .mainPowerCut s = .next s :=
  congrArg Host.Outcome.next (if_neg (Bool.eq_false_iff.mp hoff))

theorem exec_mainPowerCut_of_on (hon : s.boot.mainOk = true) : exec .mainPowerCut s = .next s.mainCut := congrArg Host.Outcome.next (if_pos hon)

theorem exec_overcurrent_of_off (hoff : s.boot.mainOk = false) : exec .overcurrent s = .next s :=
  congrArg Host.Outcome.next (if_pos (congrArg not hoff))

theorem exec_overcurrent_of_on (hon : s.boot.mainOk = true) :
    let c := (s.event { code := .overcurrent }).pin "THERMTRIP_N" false
    exec .overcurrent s = .next { c.powerOff with pw := { c.powerOff.pw with tripPin := true } } := by
  refine congrArg Host.Outcome.next (if_neg ?_)
  rw [hon]
  exact Bool.false_ne_true

end

/-- Settles O47: an average by what the power loop makes of it, a raise by the first clock that is not at its top, the rest by their guards. -/
theorem powerEvents : Obligations.PowerEvents := by
  intro s w mv a x u v room hot top raise i c
  have sampled : ∀ r : State, u.averaged w.toNat = r → exec (.powerSample w mv a) s = .next r := fun r hr =>
    (exec_powerSample s w mv a).trans (congrArg Host.Outcome.next hr)
  refine ⟨fun hw hexc hthr => sampled _ (State.averaged_of_calm hw hexc hthr), fun hw hover => sampled _ (State.averaged_of_within hw hover),
    fun hw hexc => ⟨fun hthr hready hms => sampled _ (State.averaged_of_begin hw hexc hthr hready hms),
      fun hno => sampled _ (State.averaged_of_noExcursion hw hexc hno)⟩,
    fun hw hexc hthr => sampled _ (State.averaged_of_excursion hw hexc hthr),
    fun l hw hexc hthr => sampled _ (State.averaged_of_throttled hw hexc hthr),
    fun b hexc hdue => exec_excursionEnd_of_due hexc hdue,
    fun l hthr => ⟨fun hdue hover => exec_throttleStep_of_due hthr hdue hover, fun hnot => exec_throttleStep_of_not hthr hnot,
      exec_clockRaise_of_throttled hthr⟩,
    fun hthr hraised hlowered => ?raises, rfl,
    fun hoff => ⟨exec_mainPowerCut_of_off hoff, exec_overcurrent_of_off hoff⟩, fun hon => ⟨exec_mainPowerCut_of_on hon, exec_overcurrent_of_on hon⟩⟩
  case raises =>
    have raised : ∀ (ok : Bool) (r : State), s.raising = (if ok then some r else none) → exec .clockRaise s = raise ok r := fun ok r hr =>
      exec_clockRaise_of_due hthr hraised hlowered hr
    exact ⟨fun hhalved => raised _ _ (State.raising_of_halved hhalved), fun hwhole hlow => raised _ _ (State.raising_of_floor hwhole hlow),
      fun hwhole hfloor hlow hcool => raised _ _ (State.raising_of_hclk hwhole hfloor hlow hcool),
      fun hwhole hfloor hhclk => ⟨fun hlow hcool => raised _ _ (State.raising_of_xclk hwhole hfloor hhclk hlow hcool),
        fun hxclk => raised _ _ (State.raising_of_cclk hwhole hfloor hhclk hxclk)⟩⟩

end Sys2Proof.Machine
end

section
/-! Heat, ageing and lasers (R513 to R515, R522 to R526). What recovers dies other than CDs (log 275), what a trip does (log 276) and which spare a laser takes
(log 278) is the model's choice. -/

namespace Sys2Proof.Machine

section
variable {s : State}

/-! A thermal sample (R513 to R515): the highest value, then the trip limit, then the kind of die. -/

section
variable {d : Fin 70} {t : BitVec 8}

/-- The sample and the highest one so far. -/
def State.heated (s : State) (d c : Nat) : State :=
  { s with pw := { s.pw with temps := s.pw.temps.put d (c, max c (s.pw.temps.getD d (0, 0)).2) } }

/-- A die at its trip limit resets the device and says so on its pin. -/
def State.tripped (s : State) (d : Nat) : State :=
  let y := ((s.event { code := .thermalTrip, cls := some 5, unit := d, die := d }).deviceReset).pin "THERMTRIP_N" false
  { y with pw := { y.pw with tripPin := true } }

theorem exec_thermalSample_of_off (hoff : s.boot.mainOk = false) : exec (.thermalSample d t) s = .next (s.heated d t.toNat) :=
  congrArg Host.Outcome.next (if_pos (congrArg not hoff))

theorem exec_thermalSample_of_on (hon : s.boot.mainOk = true) : let x := s.heated d t.toNat
    exec (.thermalSample d t) s = .next (if 64 ≤ d.val then x.photonicHeat (d.val - 64) t.toNat
      else if tripC d ≤ t.toNat then x.tripped d
      else if d.val < 32 then x.cdHeat d t.toNat
      else if 56 ≤ d.val ∧ d.val < 62 then x
      else x.kindHeat d t.toNat) := by
  refine congrArg Host.Outcome.next (if_neg ?_)
  show ¬ (!s.boot.mainOk) = true
  rw [hon]
  exact Bool.false_ne_true

end

/-! Contour's samples and its plan (R522 to R525). -/

def State.contourDue (s : State) : Prop := s.get F.CTR_CTL_enable ≠ 0 ∧ s.pw.sampled + max 1 (s.get F.CTR_CTL_sample_s) * 1000000000 ≤ s.datum

def State.contourSampled (s : State) : State := { s with pw := { s.pw with sampled := s.datum } }

section
variable (hdue : s.contourDue)
include hdue

theorem State.contourDue.goes : ¬ (s.get F.CTR_CTL_enable = 0 ∨ (!s.elapsed s.pw.sampled (max 1 (s.get F.CTR_CTL_sample_s) * 1000000000)) = true) := by
  obtain ⟨hon, hpast⟩ := hdue
  rw [State.elapsed_of_le hpast]
  exact not_or.mpr ⟨hon, Bool.false_ne_true⟩

theorem exec_contourSample_of_die (g : Fin 56) (f : BitVec 32) (k : BitVec 16) : let z := s.contourSampled
    let u := z.readDie g f.toNat k.toInt
    exec (.contourSample [(g, f, k)] []) s = .next (if s.dieDead g then z else if g.val < 32 ∧ k.toInt < 5 then u.marginLow g else u) :=
  congrArg Host.Outcome.next (if_neg hdue.goes)

theorem exec_contourSample_of_eye (m : Fin 36) (e : Fin 8) (eh ew : BitVec 16) : let z := s.contourSampled
    exec (.contourSample [] [(m, e, eh, ew)]) s =
      .next (if s.portUp m then z.setReg ⟨.FPT_LANE_MARGIN, m, e⟩ (BitVec.ofNat 64 (eh.toNat * 2 ^ 16 + ew.toNat)) else z) :=
  congrArg Host.Outcome.next (if_neg hdue.goes)

end

theorem exec_contourReplan_of_due (hon : s.get F.CTR_CTL_enable ≠ 0)
    (hdue : s.pw.planned + max 3600 (s.get F.CTR_CTL_replan_s) * 1000000000 ≤ s.datum) :
    let r : State := { s with pw := { s.pw with planned := s.datum } }
    exec .contourReplan s = .next ((List.range 32).foldl (fun s d => if s.dieDead d then s else
      (s.replanCd d).set F.CLK_CCLK_mv 0 d ((s.replanCd d).voltage d ((s.replanCd d).get F.CLK_CCLK_cclk_mhz 0 d))) (r.bump F.CTR_STATUS_replans 0 0 1)) := by
  refine congrArg Host.Outcome.next (if_neg ?_)
  rw [State.elapsed_of_le hdue]
  exact not_or.mpr ⟨hon, Bool.false_ne_true⟩

/-! The retraining window (R526). -/

theorem exec_retrainWindow_of_none (hnone : s.pw.window = none) : exec .retrainWindow s = .next s := by
  show execRetrainWindow s = _
  simp only [execRetrainWindow, hnone]

/-- The port that trains, and what is left of the window. -/
def State.windowMoved (s : State) (c : Option Nat) (w : Nat × Nat × Nat × Nat) : State := { s with pw := { s.pw with contour := c, window := some w } }

/-- The port that the window lets train, if one is flagged. -/
def State.windowTrained (s : State) (a ms pm hm : Nat) : Option Nat → State
  | some i => ((s.windowMoved (some i) (a, ms, setBits pm i i 0, hm)).retrain i).relevel
  | none => (s.windowMoved none (a, ms, pm, hm)).relevel

/-- With no stack to train, a window that is open trains the next of its ports that is flagged. -/
theorem exec_retrainWindow_of_open {a ms pm hm : Nat} {port : Option Nat} (hwindow : s.pw.window = some (a, ms, pm, hm)) (hbegun : a ≤ s.datum)
    (hopen : s.datum < a + msTicks ms) (hon : s.get F.CTR_CTL_enable ≠ 0) (hstacks : ∀ i < 16, s.stackFlagged i = false) (hnone : s.pw.contour = none)
    (hport : ((List.range 36).find? fun p => bitOf pm p && s.portUp p && s.portFlagged p) = port) :
    exec .retrainWindow s = .next (s.windowTrained a ms pm hm port) := by
  have hgoes : ¬ (s.datum < a ∨ a + msTicks ms ≤ s.datum ∨ s.get F.CTR_CTL_enable = 0) :=
    not_or.mpr ⟨Nat.not_lt.mpr hbegun, not_or.mpr ⟨Nat.not_le.mpr hopen, hon⟩⟩
  have hhs : ((List.range 16).filter fun h => bitOf hm h && s.stackFlagged h && s.stackReady h && (s.octSheet (h / 2)).isNone) = [] :=
    List.filter_eq_nil_iff.mpr fun h hh => by simp [hstacks h (List.mem_range.mp hh)]
  show execRetrainWindow s = _
  simp only [execRetrainWindow, hwindow, if_neg hgoes, hhs, hport, hnone, List.foldl_nil, List.append_nil, Option.isSome_none, Bool.false_eq_true, if_false,
    Option.or_none]
  cases port <;> rfl

end

/-- Settles O48: a thermal sample by its limit and its kind of die, the rest by their times. -/
theorem heatAndAgeing : Obligations.HeatAndAgeing := by
  intro s d t g f k n low out m e eh ew c x y z due r mine dark
  refine ⟨fun hoff => exec_thermalSample_of_off hoff, fun hon => ?thermal, fun hdue => ?contour, fun hon hdue => exec_contourReplan_of_due hon hdue,
    fun hnone => exec_retrainWindow_of_none hnone, fun a ms pm hm hwindow hbegun hopen hon hstacks hnone => ?window, rfl⟩
  case thermal =>
    have kinds := exec_thermalSample_of_on (d := d) (t := t) hon
    refine ⟨fun hfd => ?_, fun hdie htrip => ?_, fun hcd hcool => ?_, fun hlow hhigh hcool => ?_, fun hlow hhigh hcool => ?_⟩
    · exact kinds.trans (congrArg Host.Outcome.next (if_pos hfd))
    · exact kinds.trans (congrArg Host.Outcome.next ((if_neg (by omega)).trans (if_pos htrip)))
    · exact kinds.trans (congrArg Host.Outcome.next ((if_neg (by omega)).trans ((if_neg (Nat.not_le.mpr hcool)).trans (if_pos hcd))))
    · exact kinds.trans (congrArg Host.Outcome.next ((if_neg (by omega)).trans ((if_neg (Nat.not_le.mpr hcool)).trans
        ((if_neg (by omega)).trans (if_pos ⟨hlow, hhigh⟩)))))
    · exact kinds.trans (congrArg Host.Outcome.next ((if_neg (by omega)).trans ((if_neg (Nat.not_le.mpr hcool)).trans
        ((if_neg (by omega)).trans (if_neg (by omega))))))
  case contour =>
    have die := exec_contourSample_of_die hdue g f k
    have eye := exec_contourSample_of_eye hdue m e eh ew
    exact ⟨fun hdead => die.trans (congrArg Host.Outcome.next (if_pos hdead)),
      fun hworks => die.trans (congrArg Host.Outcome.next (if_neg (Bool.eq_false_iff.mp hworks))),
      fun hup => eye.trans (congrArg Host.Outcome.next (if_pos hup)),
      fun hdown => eye.trans (congrArg Host.Outcome.next (if_neg (Bool.eq_false_iff.mp hdown)))⟩
  case window =>
    intro moved
    cases hport : (List.range 36).find? fun p => bitOf pm p && s.portUp p && s.portFlagged p with
    | none => exact exec_retrainWindow_of_open hwindow hbegun hopen hon hstacks hnone hport
    | some i => exact exec_retrainWindow_of_open hwindow hbegun hopen hon hstacks hnone hport

end Sys2Proof.Machine
end

section
/-! Closure checks, event and diagnostic reads, and reports to the fabric manager (R531 to R534, R545 to R549). What CLOSURE_CHECK answers (logs 294 and 425) and
that DIAG_READ cuts its entries to 4,088 B (log 295) is the model's choice. -/

namespace Sys2Proof.Machine

section
variable {s : State} {o : Owed} {h : CmdHdr} {q : List Byte}

/-! CLOSURE_CHECK (R545 to R549): of the credits of a link it starts an audit, of any other quantity it answers at once. -/

/-- Parameters that CLOSURE_CHECK accepts, but for the quantity. -/
structure ClosureParams (h : CmdHdr) (q : List Byte) : Prop where
  job : h.jobValid = true
  length : q.length = 16
  zero : uAt q 1 7 = 0

section
variable (g : ClosureParams h q)
include g

theorem bodyClosureCheck_of_link (hlink : uAt q 0 1 = 0) {n port key : Nat} (hn : uAt q 8 8 = n) (hport : n % 64 = port)
    (hkey : 4 * (n / 256 % 8) + n / 4096 % 4 = key) : bodyClosureCheck s o h q =
      if 36 ≤ port ∨ n ≠ linkInstance port key ∨ s.native port = false ∨ s.portUp port = false then (s, .st .addressRange)
      else if (s.port port).audit.isSome then (s, .st .deviceBusy)
      else (s.auditStart port key (some o), .later true) := by
  subst hn hport hkey
  obtain ⟨hjob, hlen, hzero⟩ := g
  unfold bodyClosureCheck
  simp only [firstFail, needJob, lenIs, zeros, hjob, hlen, hlink, hzero, beq_self_eq_true, Nat.zero_le, decide_true, if_true, Bool.not_eq_true']

variable {k n : Nat} (hk : uAt q 0 1 = k) (hn : uAt q 8 8 = n) (hlow : 1 ≤ k) (hhigh : k ≤ 5)
include hk hn hlow hhigh

theorem bodyClosureCheck_of_none (hnone : s.closure k n h.job.toNat = none) : bodyClosureCheck s o h q = (s, .st .addressRange) := by
  obtain ⟨hjob, hlen, hzero⟩ := g
  unfold bodyClosureCheck
  simp only [firstFail, needJob, lenIs, zeros, hjob, hlen, hk, hn, hzero, hnone, beq_self_eq_true, hhigh, decide_true, if_true, if_neg (Nat.ne_of_gt hlow)]

theorem bodyClosureCheck_of_some {v : Nat} {c : List Nat} {sh : Option Nat} (hsome : s.closure k n h.job.toNat = some (v, c, sh)) :
    bodyClosureCheck s o h q =
      (if v = 2 then s.misclosure k n (if k = 2 then (c.drop 1).take 1 ++ c.drop 4 else c) (some h.job.toNat) sh else s,
        .data (leBytes 1 v ++ List.replicate 7 0 ++ c.flatMap (leBytes 8))) := by
  obtain ⟨hjob, hlen, hzero⟩ := g
  unfold bodyClosureCheck
  simp only [firstFail, needJob, lenIs, zeros, hjob, hlen, hk, hn, hzero, hsome, beq_self_eq_true, hhigh, decide_true, if_true, if_neg (Nat.ne_of_gt hlow)]

end

/-! EVENT_READ and DIAG_READ (R531 to R534). -/

/-- The events that one EVENT_READ gives a source. -/
def State.eventsRead (s : State) (x : SrcState) : List EventRec := (s.ev.ring.filter fun r => decide (x.evt ≤ r.seq)).take 63

def eventCursor (x : SrcState) (l : List EventRec) : Nat :=
  match l.getLast? with
  | some r => r.seq + 1
  | none => x.evt

theorem bodyEventRead_of_empty {src : Source} {x : SrcState} {lost : Nat} (hlen : q.length = 0) (hsrc : s.trueSrc o.src = src) (hx : s.src src = x)
    (hlost : s.get F.EVT_LOST_CNT_overwritten = lost) : let l := s.eventsRead x
    bodyEventRead s o h q = (s.setSrc src { x with evt := eventCursor x l, evtLost := lost },
      .data (leBytes 4 (lost - x.evtLost) ++ leBytes 4 0 ++ l.flatMap EventRec.bytes)) := by
  subst hsrc hx hlost
  unfold bodyEventRead
  simp only [firstFail, lenIs, hlen, beq_self_eq_true, if_true]
  rfl

section
variable (hlen : q.length = 12) (hobj : uAt q 0 1 ≤ 3) (hzero : uAt q 1 3 = 0)
include hlen hobj hzero

theorem bodyDiagRead_of_none (hnone : s.diagEntries (uAt q 0 1) (uAt q 4 4) = none) : bodyDiagRead s o h q = (s, .st .addressRange) := by
  unfold bodyDiagRead
  simp only [firstFail, lenIs, zeros, hlen, hzero, hobj, hnone, beq_self_eq_true, decide_true, if_true]

theorem bodyDiagRead_of_some {l : List (List Byte)} (hsome : s.diagEntries (uAt q 0 1) (uAt q 4 4) = some l) :
    let m := (l.drop (uAt q 8 4)).take (4088 / max 1 (((l.drop (uAt q 8 4)).headD []).length))
    bodyDiagRead s o h q = (s, .data (leBytes 4 m.length ++ m.flatMap id)) := by
  unfold bodyDiagRead
  simp only [firstFail, lenIs, zeros, hlen, hzero, hobj, hsome, beq_self_eq_true, decide_true, if_true]

end

/-! Reports to the fabric manager: they wait for its session. -/

theorem exec_fmReportSend_of_noSession (hnone : s.fmSession = none) : exec .fmReportSend s = .next s :=
  congrArg Host.Outcome.next (if_pos (by rw [hnone]; rfl))

theorem exec_fmReportSend_of_session (hsome : s.fmSession.isSome = true) :
    exec .fmReportSend s = .next (s.ev.fmQueue.foldl (fun s e => s.send (.report { e with reported := true }))
      { s with ev := { s.ev with fmQueue := [], ring := s.ev.ring.map fun r =>
        if (s.ev.fmQueue.map EventRec.seq).contains r.seq then { r with reported := true } else r } }) := by
  obtain ⟨e, he⟩ := Option.isSome_iff_exists.mp hsome
  refine congrArg Host.Outcome.next (if_neg ?_)
  rw [he]
  exact Bool.false_ne_true

end

/-- Settles O49: each read by what it gives, a closure check by its quantity. -/
theorem errorCommands : Obligations.ErrorCommands := by
  intro s h p t q ans n port key src x lost
  refine ⟨fun ht hjob hlen hzero => ⟨fun hlink hbad => ?noLink, fun hlink hport hinst hnative hup => ?link, fun hlow hhigh => ?quantity⟩,
    fun ht hlen => State.command_answers ht (bodyEventRead_of_empty hlen rfl rfl rfl),
    fun ht hlen hobj hzero => ⟨fun hnone => State.command_answers ht (bodyDiagRead_of_none hlen hobj hzero hnone),
      fun l hsome => State.command_answers ht (bodyDiagRead_of_some hlen hobj hzero hsome)⟩,
    fun hnone => exec_fmReportSend_of_noSession hnone, fun hsome => exec_fmReportSend_of_session hsome⟩
  case noLink =>
    have hbody := bodyClosureCheck_of_link (s := t) (o := hdrOwed h 0x0A02) ⟨hjob, hlen, hzero⟩ hlink (n := n) (port := port) (key := key) rfl rfl rfl
    exact State.command_answers ht (hbody.trans (if_pos hbad))
  case link =>
    have hbody := bodyClosureCheck_of_link (s := t) (o := hdrOwed h 0x0A02) ⟨hjob, hlen, hzero⟩ hlink (n := n) (port := port) (key := key) rfl rfl rfl
    have hgood : ¬ (36 ≤ port ∨ n ≠ linkInstance port key ∨ t.native port = false ∨ t.portUp port = false) := by
      rw [hnative, hup]
      exact not_or.mpr ⟨Nat.not_le.mpr hport, not_or.mpr ⟨not_not_intro hinst, not_or.mpr ⟨Bool.true_eq_false.mp, Bool.true_eq_false.mp⟩⟩⟩
    refine ⟨fun hbusy => State.command_answers ht (hbody.trans ((if_neg hgood).trans (if_pos hbusy))), fun hfree => ?_⟩
    refine State.command_answers ht (hbody.trans ((if_neg hgood).trans (if_neg ?_)))
    rw [hfree]
    exact Bool.false_ne_true
  case quantity =>
    have params : ClosureParams h q := ⟨hjob, hlen, hzero⟩
    exact ⟨fun hnone => State.command_answers ht (bodyClosureCheck_of_none params rfl rfl hlow hhigh hnone),
      fun v c sh hsome hv => State.command_answers ht ((bodyClosureCheck_of_some params rfl rfl hlow hhigh hsome).trans (by rw [if_neg hv])),
      fun c sh hsome => State.command_answers ht ((bodyClosureCheck_of_some params rfl rfl hlow hhigh hsome).trans (by rw [if_pos rfl]))⟩

end Sys2Proof.Machine
end
